-- ==== Sys2Proof/Word.lean ====
section
/-! DEFINITION. The word types of the model (R6: bit 0 is the least significant bit). -/

namespace Sys2Proof

/-- A 32-bit register word. -/
abbrev Word := BitVec 32

/-- A 64-bit event word or queue entry (R20). -/
abbrev Word64 := BitVec 64

/-- A byte of memory. -/
abbrev Byte := BitVec 8

end Sys2Proof
end

