-- ==== Sys2Proof/Syntax.lean ====
section
/-! DEFINITION. The commands of the device: one constructor of `Instr` for each row of the spec's table of operations
and events, with the operands that the row's rule names, and the small types those operands use. -/

namespace Sys2Proof

/-- Who makes an access: the requesters of R37, the owner classes of R411 and the chip-level units of R412. -/
inductive Party where
  /-- application core `n`; `sm`: in S- or M-mode (R511) -/
  | app (n : Nat) (sm : Bool)
  /-- the PCIe host -/
  | host
  /-- a PCIe DMA channel -/
  | pdma (c : Nat)
  /-- a system DMA channel -/
  | sdma (c : Nat)
  /-- the security controller -/
  | sec
  /-- the debug port -/
  | dbg
  /-- engine `e` of core `c`; engine 5 is the SQ -/
  | core (c e : Nat)
  /-- the BDU of block `b` -/
  | bdu (b : Nat)
  /-- the context table controller -/
  | ctt
  /-- the journal and checkpoint engine -/
  | jrn
  /-- the chip fault manager -/
  | cfm
  /-- another chip-level unit that writes main memory on its own -/
  | unit
  deriving DecidableEq, Repr

/-- The atomic memory operations of an application core (R383). -/
inductive AmoOp where
  | swap | add | xor | and | or | min | max | minu | maxu
  deriving DecidableEq, Repr

/-- What an access to memory does. All but the first two are an application core's alone (R383, R384). -/
inductive MemOp where
  | read (len : Nat)
  | write (bytes : List Byte)
  /-- an instruction fetch -/
  | fetch (len : Nat)
  /-- load-reserved and store-conditional -/
  | lr (len : Nat)
  | sc (bytes : List Byte)
  | amo (f : AmoOp) (bytes : List Byte)
  /-- a FENCE whose predecessor set has the output bit; it has no address -/
  | fence
  deriving DecidableEq, Repr

/-- What a TLP of the host addresses: an offset of BAR0, of BAR2, or of the configuration space (R393-R395). -/
inductive TlpSpace where
  | bar0 | bar2 | config
  deriving DecidableEq, Repr

/-- A slice operation that the fabric carries (R174, R416). -/
inductive SliceOp where
  | read (len : Nat)
  | write (bytes : List Byte)
  /-- wrapping addition of words; `none` for a disabled lane -/
  | add (words : List (Option Word))
  /-- a write through the bit-set (`set`) or bit-clear alias -/
  | bits (set : Bool) (bytes : List Byte)
  deriving DecidableEq, Repr

/-- A unit or context field update sent to the context table controller (R318). -/
inductive FieldUpdate where
  | state (v : Nat)
  | startAt (v : Nat)
  | recovering (v : Bool)
  | fault (v : Nat)
  | iseq (v : Nat)
  | refusals (v : Nat)
  | oseq (v : Nat)
  | oseqHigh (v : Nat)
  | trigStep (v : Nat)
  | result (v : Nat)
  | ckptNew (v : Nat)
  | ckptValid (v : Nat)
  deriving DecidableEq, Repr

/-- The kinds of reset of R461 that a request by register names. -/
inductive ResetBy where
  /-- RST_CMD by a requester -/
  | cmd (p : Party)
  /-- the device itself: a fault manager, or a cause of R456 -/
  | device (cause : Nat)
  deriving DecidableEq, Repr

/-- One segment of a volley (R371). -/
structure Segment where
  expert : Nat
  choice : Nat
  last : Bool
  score : Nat
  part : Nat
  offset : Nat
  wicket : Nat
  events : List Word64
  deriving DecidableEq, Repr

/-- The header of a received datagram (R357), and the port at which it arrives. TYPE is the command's, and DST_CHIP is `dst`.
GEN decides nothing on receipt. -/
structure AetHdr where
  port : Nat
  src : Nat
  dst : Nat
  gen : Nat
  magic : Nat
  len : Nat
  seq : Nat
  ack : Nat
  sack : Nat
  credit : Nat
  incarnation : Nat
  deriving DecidableEq, Repr


/-- The commands (spec/opcode_table.json). -/
inductive Instr where
  /-- REGISTER_WRITE (R9): `p` writes the 32-bit word at `addr`, a field without a row of its own. -/
  | registerWrite (p : Party) (addr : Nat) (v : Word)
  /-- RC_READ (R39): `p` reads the word at `addr`; `hwSet`: RC bits that hardware sets in the same cycle (R32). -/
  | rcRead (p : Party) (addr : Nat) (hwSet : Word)
  /-- PEEK_WRITE (R31): `p` writes through the peek alias. -/
  | peekWrite (p : Party) (addr : Nat) (v : Word)
  /-- LOW_WORD_READ (R37): `p` reads the low word of the 64-bit register at `addr`. -/
  | lowWordRead (p : Party) (addr : Nat)
  /-- LOW_WORD_WRITE (R38): `p` writes the low word of the 64-bit register at `addr`. -/
  | lowWordWrite (p : Party) (addr : Nat) (v : Word)
  /-- HIGH_WORD_WRITE (R38): `p` writes the high word of the 64-bit register whose low word is at `addr`. -/
  | highWordWrite (p : Party) (addr : Nat) (v : Word)
  /-- MEMORY_ACCESS (R27): `p` accesses memory at `addr`; `upset`: bits newly found wrong in the first word it meets. -/
  | memoryAccess (p : Party) (addr : Nat) (op : MemOp) (upset : Nat)
  /-- BLK_ENABLE (R40): `p` writes EN := 1 in the BLK_CTRL at `addr`. -/
  | blkEnable (p : Party) (addr : Nat)
  /-- BLK_DISABLE (R43): `p` writes EN := 0 in the BLK_CTRL at `addr`. -/
  | blkDisable (p : Party) (addr : Nat)
  /-- STOP_SEQUENCE_DONE (R43): the stop condition of the block whose BLK_CTRL is at `addr` is judged. -/
  | stopSequenceDone (addr : Nat)
  /-- CORE_STOP_START (R100): the first cycle after EN := 0 at which no slot of core `c` is RUNNING, OVERRUN or DRAINING. -/
  | coreStopStart (c : Nat)
  /-- WICKET_RELEASE (R209): the chip releases the next wicket of context `ctx`. -/
  | wicketRelease (ctx : Nat)
  /-- WICKET_TAKEN (R209): core `c` takes the next released wicket of `slot`. -/
  | wicketTaken (c slot : Nat)
  /-- SOMA_UPDATE (R66): the SO of core `c` carries out the wicket commanded for `slot`. -/
  | somaUpdate (c slot : Nat)
  /-- EVENT_DELIVERY (R160): the router stop of core `c` judges the oldest event that has arrived. -/
  | eventDelivery (c : Nat)
  /-- INTAKE_EVENT (R75): the IE of core `c` takes the oldest event of its ingress queue. -/
  | intakeEvent (c : Nat)
  /-- HOLD_QUEUE_RELEASE (R75): the IE of core `c` judges again the oldest event of its hold queue that may leave it. -/
  | holdQueueRelease (c : Nat)
  /-- FANOUT_READ_RESPONSE (R78): the IE of core `c` takes the answer to its outstanding fan-out read. -/
  | fanoutReadResponse (c : Nat)
  /-- OPERATION_GROUP (R80): the SE of core `c` takes the oldest operation group. -/
  | operationGroup (c : Nat)
  /-- LATE_WAIT_RELEASE (R61): the SE of core `c` applies the oldest waiting operation whose slot has been read. -/
  | lateWaitRelease (c : Nat)
  /-- FIRE_EMIT (R85): the EE of core `c` takes the oldest fire record. -/
  | fireEmit (c : Nat)
  /-- SCRUB_READ (R99): the scrubber of core `c` reads its next word; `upset`: bits newly found wrong in it. -/
  | scrubRead (c : Nat) (upset : Nat)
  /-- GANDER_EXPIRY (R94): the gander of engine `e` of core `c` reaches its limit. -/
  | ganderExpiry (c e : Nat)
  /-- ADD (R110): engine `e` of core `c`: wrapping sum. -/
  | add (c e rd ra rb : Nat)
  /-- SUB (R110): engine `e` of core `c`: wrapping difference. -/
  | sub (c e rd ra rb : Nat)
  /-- AND (R110): engine `e` of core `c`: bitwise and. -/
  | and (c e rd ra rb : Nat)
  /-- OR (R110): engine `e` of core `c`: bitwise or. -/
  | or (c e rd ra rb : Nat)
  /-- XOR (R110): engine `e` of core `c`: bitwise exclusive or. -/
  | xor (c e rd ra rb : Nat)
  /-- SLL (R110): engine `e` of core `c`: shift left. -/
  | sll (c e rd ra rb : Nat)
  /-- SRL (R110): engine `e` of core `c`: logical shift right. -/
  | srl (c e rd ra rb : Nat)
  /-- SRA (R110): engine `e` of core `c`: arithmetic shift right. -/
  | sra (c e rd ra rb : Nat)
  /-- SLT (R110): engine `e` of core `c`: signed less-than. -/
  | slt (c e rd ra rb : Nat)
  /-- SLTU (R110): engine `e` of core `c`: unsigned less-than. -/
  | sltu (c e rd ra rb : Nat)
  /-- MIN (R110): engine `e` of core `c`: signed minimum. -/
  | min (c e rd ra rb : Nat)
  /-- MAX (R110): engine `e` of core `c`: signed maximum. -/
  | max (c e rd ra rb : Nat)
  /-- MUL (R110): engine `e` of core `c`: low half of the product. -/
  | mul (c e rd ra rb : Nat)
  /-- MULH (R110): engine `e` of core `c`: high half of the signed product. -/
  | mulh (c e rd ra rb : Nat)
  /-- RSRA (R110): engine `e` of core `c`: rounding shift right. -/
  | rsra (c e rd ra rb : Nat)
  /-- SAT24 (R110): engine `e` of core `c`: clamp to 24 bits. -/
  | sat24 (c e rd ra rb : Nat)
  /-- ADDI (R111): immediate form, engine `e` of core `c`. -/
  | addi (c e rd ra imm : Nat)
  /-- ANDI (R111): immediate form, engine `e` of core `c`. -/
  | andi (c e rd ra imm : Nat)
  /-- ORI (R111): immediate form, engine `e` of core `c`. -/
  | ori (c e rd ra imm : Nat)
  /-- XORI (R111): immediate form, engine `e` of core `c`. -/
  | xori (c e rd ra imm : Nat)
  /-- LUI (R111): immediate form, engine `e` of core `c`. -/
  | lui (c e rd ra imm : Nat)
  /-- SLLI (R111): immediate form, engine `e` of core `c`. -/
  | slli (c e rd ra imm : Nat)
  /-- SRLI (R111): immediate form, engine `e` of core `c`. -/
  | srli (c e rd ra imm : Nat)
  /-- SRAI (R111): immediate form, engine `e` of core `c`. -/
  | srai (c e rd ra imm : Nat)
  /-- SLTI (R111): immediate form, engine `e` of core `c`. -/
  | slti (c e rd ra imm : Nat)
  /-- RSRAI (R111): immediate form, engine `e` of core `c`. -/
  | rsrai (c e rd ra imm : Nat)
  /-- LW (R112): load word; `upset`: bits newly found wrong in the word. -/
  | lw (c e rd ra imm upset : Nat)
  /-- LH (R112): local load. -/
  | lh (c e rd ra imm : Nat)
  /-- LHU (R112): local load. -/
  | lhu (c e rd ra imm : Nat)
  /-- LB (R112): local load. -/
  | lb (c e rd ra imm : Nat)
  /-- LBU (R112): local load. -/
  | lbu (c e rd ra imm : Nat)
  /-- SW (R113): local store of the low bits of rd. -/
  | sw (c e rd ra imm : Nat)
  /-- SH (R113): local store of the low bits of rd. -/
  | sh (c e rd ra imm : Nat)
  /-- SB (R113): local store of the low bits of rd. -/
  | sb (c e rd ra imm : Nat)
  /-- LWS (R114): slice-view load. -/
  | lws (c e rd ra imm : Nat)
  /-- LWS_RESPONSE (R114): engine `e` takes the slice's response to its oldest LWS that has one. -/
  | lwsResponse (c e : Nat)
  /-- SWS (R114): slice-view store. -/
  | sws (c e rd ra imm : Nat)
  /-- SWS_ERROR (R114): the bus error of a failed slice store reaches engine `e` at an instruction boundary. -/
  | swsError (c e : Nat)
  /-- BR (R115): branch under cond. -/
  | br (c e ra rb cond target : Nat)
  /-- JAL (R115): jump and link. -/
  | jal (c e ra rb cond target : Nat)
  /-- JR (R115): jump to register. -/
  | jr (c e ra rb cond target : Nat)
  /-- CSRR (R116): read a CSR. -/
  | csrr (c e rd ra imm : Nat)
  /-- CSRW (R117): write a CSR. -/
  | csrw (c e rd ra imm : Nat)
  /-- CSRRD (R116): read a 64-bit CSR. -/
  | csrrd (c e rd ra imm : Nat)
  /-- VADD (R119): vector register operation. -/
  | vadd (c e vd va vb rs : Nat)
  /-- VSUB (R119): vector register operation. -/
  | vsub (c e vd va vb rs : Nat)
  /-- VMUL (R119): vector register operation. -/
  | vmul (c e vd va vb rs : Nat)
  /-- VMULS (R119): vector register operation. -/
  | vmuls (c e vd va vb rs : Nat)
  /-- VMIN (R119): vector register operation. -/
  | vmin (c e vd va vb rs : Nat)
  /-- VMAX (R119): vector register operation. -/
  | vmax (c e vd va vb rs : Nat)
  /-- VRSRAS (R119): vector register operation. -/
  | vrsras (c e vd va vb rs : Nat)
  /-- VSAT (R119): vector register operation. -/
  | vsat (c e vd va vb rs : Nat)
  /-- VBCAST (R119): vector register operation. -/
  | vbcast (c e vd va vb rs : Nat)
  /-- VAND (R119): vector register operation. -/
  | vand (c e vd va vb rs : Nat)
  /-- VOR (R119): vector register operation. -/
  | vor (c e vd va vb rs : Nat)
  /-- VADDS (R119): vector register operation. -/
  | vadds (c e vd va vb rs : Nat)
  /-- VEXT (R119): vector register operation. -/
  | vext (c e vd va vb rs : Nat)
  /-- VRED (R119): vector register operation. -/
  | vred (c e vd va vb rs : Nat)
  /-- VINS (R119): vector register operation. -/
  | vins (c e vd va vb rs : Nat)
  /-- VLD (R120): vector memory operation, address in rs. -/
  | vld (c e vd va vb rs : Nat)
  /-- VST (R120): vector memory operation, address in rs. -/
  | vst (c e vd va vb rs : Nat)
  /-- VLDB (R120): vector memory operation, address in rs. -/
  | vldb (c e vd va vb rs : Nat)
  /-- VLDN (R120): vector memory operation, address in rs. -/
  | vldn (c e vd va vb rs : Nat)
  /-- VSTB (R121): vector memory operation, address in rs. -/
  | vstb (c e vd va vb rs : Nat)
  /-- VSTN (R121): vector memory operation, address in rs. -/
  | vstn (c e vd va vb rs : Nat)
  /-- VSADD (R121): vector memory operation, address in rs. -/
  | vsadd (c e vd va vb rs : Nat)
  /-- VLDS (R120): vector memory operation, address in rs. -/
  | vlds (c e vd va vb rs : Nat)
  /-- VLDS_RESPONSE (R120): engine `e` takes the slice's response to its oldest VLDS that has one. -/
  | vldsResponse (c e : Nat)
  /-- SWAIT (R122): wait on a semaphore. -/
  | swait (c e rd ra rb imm8 : Nat)
  /-- SWAIT_PASS (R145): the waiting SWAIT of engine `e` is tested again. -/
  | swaitPass (c e : Nat)
  /-- SADD (R122): add to a semaphore. -/
  | sadd (c e rd ra rb imm8 : Nat)
  /-- SSUB (R122): subtract from a semaphore. -/
  | ssub (c e rd ra rb imm8 : Nat)
  /-- SREAD (R122): read a semaphore. -/
  | sread (c e rd ra rb imm8 : Nat)
  /-- HDEF (R125): define a herd. -/
  | hdef (c e rd ra rb imm8 : Nat)
  /-- HARR (R126): arrive at a herd. -/
  | harr (c e rd ra rb imm8 : Nat)
  /-- HWAIT (R126): arrive at a herd and wait. -/
  | hwait (c e rd ra rb imm8 : Nat)
  /-- HFREE (R125): free a herd. -/
  | hfree (c e rd ra rb imm8 : Nat)
  /-- QPOP (R127): pop a local queue. -/
  | qpop (c e rd ra rb imm8 : Nat)
  /-- QPOP_RESUME (R150): the waiting QPOP of engine `e` is tried again. -/
  | qpopResume (c e : Nat)
  /-- QPUSH (R127): push to a local queue. -/
  | qpush (c e rd ra rb imm8 : Nat)
  /-- QPUSH_RESUME (R150): the waiting queue write of engine `e` is tried again. -/
  | qpushResume (c e : Nat)
  /-- QLEN (R127): length of a local queue. -/
  | qlen (c e rd ra rb imm8 : Nat)
  /-- QSEND (R157): send a pair over a channel. -/
  | qsend (c e rd ra rb imm8 : Nat)
  /-- QSEND_RESUME (R158): the stalled QSEND of engine `e` is tried again. -/
  | qsendResume (c e : Nat)
  /-- CQADD (R152): contribute to a combining queue. -/
  | cqadd (c e rd ra rb imm8 : Nat)
  /-- RET (R129): end the handler. -/
  | ret (c e rd ra rb imm8 : Nat)
  /-- WICKET (R130): issue the wicket commands. -/
  | wicket (c e rd ra rb imm8 : Nat)
  /-- STEPDONE (R130): send the step-done contribution. -/
  | stepdone (c e rd ra rb imm8 : Nat)
  /-- EMIT (R131): emit an event word. -/
  | emit (c e rd ra rb imm8 : Nat)
  /-- FENCE (R129): wait for earlier stores and sends. -/
  | fence (c e rd ra rb imm8 : Nat)
  /-- FENCE_COMPLETE (R162): the waiting FENCE of engine `e` is tried again. -/
  | fenceComplete (c e : Nat)
  /-- HANDLER_TIME (R140): the handler of engine `e` has run past HANDLER_LIMIT. -/
  | handlerTime (c e : Nat)
  /-- HANDLER_DISPATCH (R136): engine `e`, being free, starts its waiting happening of lowest kind. -/
  | handlerDispatch (c e : Nat)
  /-- QDATA_READ (R151): `p` reads the low word of QDATA_q of core `c`. -/
  | qdataRead (p : Party) (c q : Nat)
  /-- QDATA_WRITE (R151): `p` writes the high word of QDATA_q of core `c`. -/
  | qdataWrite (p : Party) (c q : Nat) (hi : Word)
  /-- QSEND_ARRIVAL (R160): the router stop of core `c` judges the oldest QSEND pair that has arrived. -/
  | qsendArrival (c : Nat)
  /-- RING_RECORD_WRITE (R155): the ring writer of queue `q` of core `c` moves its next staged words into the ring. -/
  | ringRecordWrite (c q : Nat)
  /-- CREDIT_RETURN (R158): a CREDIT packet returns one credit to a route of core `c`. -/
  | creditReturn (c route : Nat)
  /-- CHAN_ROUTE_VALID (R158): `p` writes CHAN_ROUTE with VALID going from 0 to 1. -/
  | chanRouteValid (p : Party) (c route : Nat) (lo hi : Word)
  /-- REFUSAL_RECORD (R162): the router stop of core `c` writes its oldest waiting refusal into queue 63. -/
  | refusalRecord (c : Nat)
  /-- MBX_DATA_WRITE (R166): `p` writes MBX_DATA_n. -/
  | mbxDataWrite (p : Party) (n : Nat) (v : Word)
  /-- MBX_ACK_WRITE (R166): `p` writes MBX_ACK_n. -/
  | mbxAckWrite (p : Party) (n : Nat) (code : Nat)
  /-- MBX_TIMEOUT (R167): the timeout of the word in mailbox `n` expires. -/
  | mbxTimeout (n : Nat)
  /-- MBX_QUEUE_TAKE (R168): the mailbox unit takes an entry from queue 62 of core `c`. -/
  | mbxQueueTake (c : Nat)
  /-- PACKET_INJECT (R180): the oldest packet that waits at source endpoint `src` (router * 4 + endpoint code) enters the fabric. -/
  | packetInject (src : Nat)
  /-- PACKET_HOP (R178): the router at which `flight` stands takes the packet; `flips`: the bits that the link has flipped on the way to its input port, of the sideband and above bit 112 of the payload. -/
  | packetHop (flight flips : Nat)
  /-- PACKET_ARRIVAL (R191): the destination takes `flight`. -/
  | packetArrival (flight : Nat)
  /-- ACK_SEND (R192): destination endpoint `dst` sends the cumulative ACK of the series from `src`. -/
  | ackSend (src dst : Nat)
  /-- ACK (R193): the source takes the ACK that is `flight`. -/
  | ack (flight : Nat)
  /-- NACK (R193): the source takes the NACK that is `flight`. -/
  | nack (flight : Nat)
  /-- RETX_TIMEOUT (R193): the packet `seq` of a series (with `mc`, of flock `dst`) has been unacknowledged for RETX_TIMEOUT. -/
  | retxTimeout (src dst : Nat) (mc : Bool) (seq : Nat)
  /-- FABRIC_REFUSE (R194): the item's source takes the REFUSE packet that is `flight`. -/
  | fabricRefuse (flight : Nat)
  /-- STALL_LIMIT (R196): `flight` has waited STALL_LIMIT at one output. -/
  | stallLimit (flight : Nat)
  /-- FAB_DRAIN_REQUEST (R197): `p` writes FAB_DRAIN.REQ := `mask`. -/
  | fabDrainRequest (p : Party) (mask : Nat)
  /-- REGION_DRAINED (R197): the drain condition of region `r` is judged. -/
  | regionDrained (r : Nat)
  /-- ROUTE_TABLE_WRITE (R198): `p` writes a word of a flock table or of an RTR_ALT map. -/
  | routeTableWrite (p : Party) (addr : Nat) (v : Word)
  /-- ROLE_EPOCH_ADVANCE (R189): the chip fault manager or image loading asks to advance the role epoch of core `c`. -/
  | roleEpochAdvance (c : Nat)
  /-- TICK (R202): the timebase reaches its next tick; `held`: ns for which the tick was held (R217). -/
  | tick (held : Nat)
  /-- PULSE_END (R310): the pulse of trigger output `n` has lasted WIDTH. -/
  | pulseEnd (n : Nat)
  /-- TICK_AT_ADMISSION (R205): the last tick issued reaches admission control. -/
  | tickAtAdmission
  /-- TICK_HOLD (R217): the nominal time of the next tick passes. -/
  | tickHold
  /-- STEP_SLIP_EXPIRY (R218): the hold has lasted STEP_SLIP_LIMIT. -/
  | stepSlipExpiry
  /-- ADMISSION_EVENT (R212): the oldest event that `source` (0-7 SEF link, 8 EIP, 9 AET) has handed on reaches admission control. -/
  | admissionEvent (source : Nat)
  /-- HOLD_INJECT (R214): the oldest event of `ctx` in the hold buffer leaves it. -/
  | holdInject (ctx : Nat)
  /-- DELIVERY_REFUSED (R216): admission control records the oldest refusal that a core returned to it. -/
  | deliveryRefused
  /-- ADM_RING_CONS_WRITE (R216): `p` writes ADM_RING_CONS. -/
  | admRingConsWrite (p : Party) (v : Word)
  /-- ADMISSION_STEP_DONE (R207): admission control judges its next step of `ctx`. -/
  | admissionStepDone (ctx : Nat)
  /-- STEP_DONE_COMBINE (R208): the oldest contribution reaches the chip stage. -/
  | stepDoneCombine
  /-- CONTRIBUTIONS_DISCARD (R547): the network discards what carries `ctx`, which has left its running states. -/
  | contributionsDiscard (ctx : Nat)
  /-- TRIGGER_WORD_WRITE (R247): the BDU of block `b` examines the trigger word at slice-local `addr` after a write to it. -/
  | triggerWordWrite (b addr : Nat)
  /-- TRIGGER_RECHECK (R248): an entry of the run queue has freed: the BDU examines its watched words again. -/
  | triggerRecheck (b : Nat)
  /-- LAYER_RUN (R237): the BDU of block `b` runs its next queued layer. -/
  | layerRun (b : Nat)
  /-- RUN_END (R250): the run's output is written and its events are delivered. -/
  | runEnd (b : Nat)
  /-- BDU_REFUSAL (R253): the BDU records the oldest refusal that has come back to it. -/
  | bduRefusal (b : Nat)
  /-- REF_RING_CONS_WRITE (R253): `p` writes REF_RING_CONS. -/
  | refRingConsWrite (p : Party) (b : Nat) (v : Word)
  /-- POST_RECORD (R263): the PE of core `c` takes the oldest postsynaptic record. -/
  | postRecord (c : Nat)
  /-- PRE_RECORD (R264): the PE of core `c` takes the oldest presynaptic record. -/
  | preRecord (c : Nat)
  /-- INNINGS_BOUNDARY (R269): learning set `lset` of core `c` runs its boundary sequence. -/
  | inningsBoundary (c lset : Nat)
  /-- LRN_MOD_SET_WRITE (R267): `p` completes a write of LRN_MOD_SET of core `c` by its high word. -/
  | lrnModSetWrite (p : Party) (c : Nat) (hi : Word)
  /-- LSET_WRITE (R278): `p` writes word `w` of LSET_lset of core `c`. -/
  | lsetWrite (p : Party) (c lset w : Nat) (v : Word)
  /-- LANE_LOCK (R286): logical lane `lane` of link `l` locks. -/
  | laneLock (l lane : Nat)
  /-- LINK_ALIGN (R286): the lanes of link `l` find the marker, or receive the ILAS; `ilasOk`: its octets agree with the registers. -/
  | linkAlign (l : Nat) (ilasOk : Bool)
  /-- LINK_UP (R286): the elastic buffers of link `l` release; the figures of R287. -/
  | linkUp (l skew margin : Nat)
  /-- BUF_OVF (R287): data reaches a lane's buffer of link `l` after its release point. -/
  | bufOvf (l : Nat)
  /-- LANE_LOCK_LOSS (R288): logical lane `lane` of link `l` loses lock. -/
  | laneLockLoss (l lane : Nat)
  /-- MULTIBLOCK_CRC_ERROR (R288): a CRC-3 failure, or a code error that loses no lock, on link `l`. -/
  | multiblockCrcError (l : Nat)
  /-- SYSREF_EDGE (R289): a SYSREF edge is sampled; `mismatch`: off the LEMC phase. -/
  | sysrefEdge (mismatch : Bool)
  /-- SYSREF_ARM (R285): `p` writes SYSREF_CFG.ARM := 1. -/
  | sysrefArm (p : Party)
  /-- CHANNELISER_FRAME (R290): the containers that each converter of link `l` delivers next, up to the last sample of a frame. -/
  | channeliserFrame (l : Nat) (samples : List (List Nat))
  /-- WINDOW_END (R292): the window in progress of link `l` ends. -/
  | windowEnd (l : Nat)
  /-- SEF_RELEASE (R293): the release time of the oldest formed event of link `l`. -/
  | sefRelease (l : Nat)
  /-- EIP_LANE_LOCK (R304): lane `lane` locks. -/
  | eipLaneLock (lane : Nat)
  /-- EIP_ALIGN (R304): four consecutive /A/ arrive on all enabled lanes within the skew. -/
  | eipAlign
  /-- EIP_LINK_DOWN (R304): misaligned /A/, or `errs` code errors on a lane, take the link down. -/
  | eipLinkDown (errs : Nat)
  /-- EIP_GROUP (R306): a group has arrived with `errs` code errors in it, and `idle` outside groups since the group before it. -/
  | eipGroup (words : List Word64) (trailer : Word64) (errs idle : Nat)
  /-- EIP_HANDOFF (R307): the valid words of the oldest group are handed to admission control. -/
  | eipHandoff
  /-- BACKCHANNEL_MESSAGE (R305): the device sends its next message. -/
  | backchannelMessage
  /-- NAK_REPEAT (R306): 1 µs has passed with a NAK outstanding. -/
  | nakRepeat
  /-- TRIG_IN_EDGE (R308): input `input` goes to `level`, `ns` after the last tick. -/
  | trigInEdge (input : Nat) (level : Bool) (ns : Nat)
  /-- TRIG_FORCE (R309): `p` writes TRIG_FORCE. -/
  | trigForce (p : Party) (v : Word)
  /-- RESULT_EVENT (R323): the Output Collector takes the oldest event that waits for it at chip port `port`. -/
  | resultEvent (port : Nat)
  /-- LOAD (R320): CTX_CMD LOAD. -/
  | load (p : Party) (ctx : Nat)
  /-- LOAD_IMAGE (R320): CTX_CMD LOAD_IMAGE. -/
  | loadImage (p : Party) (ctx : Nat)
  /-- START (R320): CTX_CMD START. -/
  | start (p : Party) (ctx : Nat)
  /-- PAUSE (R320): CTX_CMD PAUSE. -/
  | pause (p : Party) (ctx : Nat)
  /-- PAUSE_COMPLETE (R320): the pausing context is judged. -/
  | pauseComplete (ctx : Nat)
  /-- RESUME (R320): CTX_CMD RESUME. -/
  | resume (p : Party) (ctx : Nat)
  /-- CLEAR_OVERRUN (R320): CTX_CMD CLEAR_OVERRUN. -/
  | clearOverrun (p : Party) (ctx : Nat)
  /-- DRAIN (R320): CTX_CMD DRAIN. -/
  | drain (p : Party) (ctx : Nat)
  /-- DRAIN_COMPLETE (R321): the draining context is judged. -/
  | drainComplete (ctx : Nat)
  /-- RESET (R320): CTX_CMD RESET. -/
  | reset (p : Party) (ctx : Nat)
  /-- CLEAR (R320): CTX_CMD CLEAR. -/
  | clear (p : Party) (ctx : Nat)
  /-- CLEAR_ZEROING (R320): the refusals of the CLEAR have been recorded. -/
  | clearZeroing (ctx : Nat)
  /-- FREE (R320): CTX_CMD FREE. -/
  | free (p : Party) (ctx : Nat)
  /-- CTX_CMD_BAD_OP (R320): CTX_CMD with an OP of 0 or 11-15. -/
  | ctxCmdBadOp (p : Party) (op ctx : Nat)
  /-- CTX_CMD_WAIT_END (R322): the command that waits for a recovery is judged. -/
  | ctxCmdWaitEnd
  /-- DESCRIPTOR_FIELD_UPDATE (R318): the controller applies an update that another unit sent. -/
  | descriptorFieldUpdate (ctx : Nat) (u : FieldUpdate)
  /-- OUTPUT_RECORD_WRITE (R327): the Collector writes its oldest formed record. -/
  | outputRecordWrite
  /-- OCR_CONS_WRITE (R328): `p` writes OCR_CONS_r. -/
  | ocrConsWrite (p : Party) (r : Nat) (v : Word)
  /-- LATEST_RESULT_READ (R329): `p` reads the low word; `hwUpdate`: an update falls in the same cycle. -/
  | latestResultRead (p : Party) (ctx : Nat) (hwUpdate : Bool)
  /-- JOURNAL_RECORD_WRITE (R333): the journal engine writes its oldest buffered record. -/
  | journalRecordWrite
  /-- JOURNAL_RESYNC_DONE (R334): the copy into the returned ring ends. -/
  | journalResyncDone
  /-- CHECKPOINT (R335): the context reaches a checkpoint wicket. -/
  | checkpoint (ctx : Nat)
  /-- CHECKPOINT_DONE (R335): the last byte and the header have been written. -/
  | checkpointDone (ctx : Nat)
  /-- FAULT_REPORT (R13): the oldest uncontained fault reaches the next handler of its chain. -/
  | faultReport
  /-- CHIP_FAULT_ACTION (R339): the chip fault manager acts on the oldest fault passed up to it; `listed`: the contexts that Bexnel lists for the failing row or channel; `copies`: the words of the failing row that hold image content, by view offset, with the main-memory offset of their image copy. -/
  | chipFaultAction (listed : List Nat) (copies : List (Nat × Nat))
  /-- FM_ACK (R341): `p` writes FM_ACK of the fault handler page at `base`. -/
  | fmAck (p : Party) (base : Nat) (index : Nat)
  /-- RECOVERY (R342): the chip fault manager isolates, reloads and restores the contexts of the recovery in hand. -/
  | recovery
  /-- REPLAY_WICKET (R343): the journal engine releases the next replayed wicket. -/
  | replayWicket (ctx : Nat)
  /-- ETH_FRAME_RX (R354): a frame arrives on `port`; `frame` is its bytes without the FCS, `fcsOk` says that its FCS holds, and the last two count the FEC codewords corrected and found uncorrectable since the frame before it. -/
  | ethFrameRx (port : Nat) (frame : List Byte) (fcsOk : Bool) (fecCorr fecUncorr : Nat)
  /-- SWR_TX_POST (R402): `p` writes SWR_TX_POST. -/
  | swrTxPost (p : Party) (port : Nat) (v : Word)
  /-- FRAME_TRANSMIT_DONE (R402): the transmitter has sent the oldest posted frame. -/
  | frameTransmitDone (port : Nat)
  /-- HELLO (R359): a HELLO arrives, with its payload but the UNIQUE_ID, which decides nothing. -/
  | hello (h : AetHdr) (genMin genMax features : Nat)
  /-- ACCEPT (R360): an ACCEPT arrives; of its payload, GEN. -/
  | accept (h : AetHdr) (gen : Nat)
  /-- REJECT (R360): a REJECT arrives. -/
  | reject (h : AetHdr) (reason : Nat)
  /-- VOLLEY (R372): a VOLLEY arrives. -/
  | volley (h : AetHdr) (seg : Segment)
  /-- CLOSE (R374): a CLOSE arrives. -/
  | close (h : AetHdr) (w : Nat)
  /-- REFUSE (R375): a REFUSE arrives. -/
  | refuse (h : AetHdr) (recs : List (Word64 × Word64))
  /-- ACKONLY (R361): an ACKONLY arrives. -/
  | ackonly (h : AetHdr)
  /-- KEEPALIVE (R362): a KEEPALIVE arrives. -/
  | keepalive (h : AetHdr)
  /-- BYE (R360): a BYE arrives. -/
  | bye (h : AetHdr)
  /-- HELLO_RETRY (R360): 1 ms has passed in CONNECTING. -/
  | helloRetry (peer : Nat)
  /-- AET_ACK_DELAY (R361): 2 µs have passed since the oldest unacknowledged arrival. -/
  | aetAckDelay (peer : Nat)
  /-- AET_RTO (R362): RTO has passed since the last send of packet `seq`. -/
  | aetRto (peer seq : Nat)
  /-- KEEPALIVE_SEND (R362): KA has passed without sequenced traffic. -/
  | keepaliveSend (peer : Nat)
  /-- DEAD_TIMEOUT (R363): nothing has arrived on the session's port for DEAD. -/
  | deadTimeout (peer : Nat)
  /-- RETRY (R360): `p` writes SESS_CTRL with RETRY. -/
  | retry (p : Party) (peer : Nat) (v : Word)
  /-- SWITCH (R363): `p` writes SESS_CTRL with SWITCH. -/
  | switch (p : Party) (peer : Nat) (v : Word)
  /-- AET_REF_CONS_WRITE (R375): `p` writes AET_REF_CONS. -/
  | aetRefConsWrite (p : Party) (v : Word)
  /-- VOLLEY_EGRESS_EVENT (R369): the oldest event for the volley egress at chip port `port`. -/
  | volleyEgressEvent (port : Nat)
  /-- CLOSE_SEND (R373): the device judges the marks of its next wicket. -/
  | closeSend
  /-- PPS_EDGE (R366): a PPS edge. -/
  | ppsEdge
  /-- WDOG_WARN (R387): half of PERIOD has passed without a kick of core `n`. -/
  | wdogWarn (n : Nat)
  /-- WDOG_RESET (R387): PERIOD has passed without a kick of core `n`. -/
  | wdogReset (n : Nat)
  /-- CL_KICK (R387): `p` writes CL_KICK := 1 of core `n`. -/
  | clKick (p : Party) (n : Nat)
  /-- CL_RELEASE (R382): `p` writes CL_RELEASE. -/
  | clRelease (p : Party) (v : Word)
  /-- L2_UNCORR (R385): an uncorrectable error in a dirty L2 line. -/
  | l2Uncorr
  /-- POSTED_STORE_ERROR (R384): a posted store of core `n` to `addr` ends in a bus error. -/
  | postedStoreError (n addr : Nat)
  /-- CLUSTER_DOWN (R388): CLUSTER_UP falls. -/
  | clusterDown
  /-- GRACE_EXPIRED (R389): the grace timer reaches CL_GRACE.MS. -/
  | graceExpired
  /-- SIC_CLAIM (R391): `p` reads SIC_CLAIM of context `x`. -/
  | sicClaim (p : Party) (x : Nat)
  /-- SIC_COMPLETE (R391): `p` writes source `n` to SIC_CLAIM of context `x`. -/
  | sicComplete (p : Party) (x n : Nat)
  /-- SIC_HOST_DONE (R392): `p` writes source `n` to SIC_HOST_DONE. -/
  | sicHostDone (p : Party) (n : Nat)
  /-- MSIX_UNMASK (R392): `p` clears the mask of vector `vec`. -/
  | msixUnmask (p : Party) (vec : Nat)
  /-- HOST_TLP (R396): a host TLP at an offset of BAR0, BAR2 or the configuration space; `enabled`: its byte enables in order, a missing entry standing for an enabled byte. -/
  | hostTlp (space : TlpSpace) (off : Nat) (op : MemOp) (enabled : List Bool)
  /-- PDMA_DESCRIPTOR (R399): channel `c` carries out its next descriptor; `host`: the bytes it reads from the host, up to a completion error if `hostErr`. -/
  | pdmaDescriptor (c : Nat) (host : List Byte) (hostErr : Bool)
  /-- PDMA_RESUME (R399): `p` writes PDMA_CTRL.RESUME. -/
  | pdmaResume (p : Party) (c : Nat)
  /-- PCIE_LINK_DOWN (R400): the PCIe link goes down. -/
  | pcieLinkDown
  /-- FLR (R400): a function-level reset. -/
  | flr
  /-- HOST_HELLO (R405): the host sends HELLO. -/
  | hostHello (seq lo hi : Nat)
  /-- PING (R404): the host sends PING. -/
  | ping (seq arg : Nat)
  /-- HOST_LOAD_IMAGE (R404): the host sends LOAD_IMAGE. -/
  | hostLoadImage (seq offset : Nat)
  /-- QUIESCE (R404): the host sends QUIESCE. -/
  | quiesce (seq arg : Nat)
  /-- HELLO_REPLY (R404): firmware sends HELLO_REPLY. -/
  | helloReply
  /-- PONG (R404): firmware sends PONG. -/
  | pong
  /-- LOADED (R404): firmware sends LOADED. -/
  | loaded (result : Nat)
  /-- QUIESCED (R404): firmware sends QUIESCED. -/
  | quiesced
  /-- NOTICE (R404): firmware sends NOTICE. -/
  | notice (n : Nat)
  /-- SLICE_ACCESS (R412): `p` accesses the interleaved view at `off`; `upset`: bits newly found wrong in the first word. -/
  | sliceAccess (p : Party) (off : Nat) (op : SliceOp) (upset : Nat)
  /-- BIT_SET_WRITE (R416): `p` writes the bit-set alias. -/
  | bitSetWrite (p : Party) (off : Nat) (bytes : List Byte)
  /-- BIT_CLEAR_WRITE (R416): `p` writes the bit-clear alias. -/
  | bitClearWrite (p : Party) (off : Nat) (bytes : List Byte)
  /-- SLICE_OWNER_WRITE (R413): `p` writes SLICE_OWNER of block `b`. -/
  | sliceOwnerWrite (p : Party) (b : Nat) (v : Word)
  /-- SLICE_HANDOVER (R413): the SQ of core `c` writes SLICE_HANDOVER by CSRW. -/
  | sliceHandover (c : Nat) (v : Word)
  /-- SLICE_SCRUB_READ (R420): the scrubber of slice `b` reads its next word. -/
  | sliceScrubRead (b upset : Nat)
  /-- SLICE_RETAIN (R421): `p` writes RETAIN := 1. -/
  | sliceRetain (p : Party) (b : Nat)
  /-- SLICE_RETAINED (R421): retention entry of slice `b` completes. -/
  | sliceRetained (b : Nat)
  /-- SLICE_WAKE (R421): `p` writes RETAIN := 0. -/
  | sliceWake (p : Party) (b : Nat)
  /-- SLICE_WAKE_DONE (R421): the wake time of slice `b` has passed. -/
  | sliceWakeDone (b : Nat)
  /-- MEMORY_REFRESH (R423): channel `ch` refreshes `bank`. -/
  | memoryRefresh (ch bank : Nat)
  /-- MR4_POLL (R423): channel `ch` reads MR4, which gives the refresh factor. -/
  | mr4Poll (ch factor : Nat)
  /-- RETRAIN (R426): `p` writes RETRAIN := 1 (`none`: drift past the margin). -/
  | retrain (p : Option Party) (ch : Nat)
  /-- RETRAIN_DONE (R426): training of channel `ch` succeeds. -/
  | retrainDone (ch : Nat)
  /-- CHANNEL_FAILED (R427): training of channel `ch` fails for the third time in a row. -/
  | channelFailed (ch : Nat)
  /-- OFFLINE (R427): `p` writes OFFLINE := 1. -/
  | offline (p : Party) (ch : Nat)
  /-- SDMA_DESCRIPTOR (R429): channel `c` carries out its next descriptor; `host`: the bytes it reads from the host, up to a failure if `hostErr`. -/
  | sdmaDescriptor (c : Nat) (host : List Byte) (hostErr : Bool)
  /-- SDMA_RESUME (R429): `p` writes SDMA_CTRL.RESUME. -/
  | sdmaResume (p : Party) (c : Nat)
  /-- TIMER_EVENT (R433): an event of timer `n`'s clock source. -/
  | timerEvent (n : Nat)
  /-- MASTER_EVENT (R438): the cycle after the oldest event of a master timer. -/
  | masterEvent
  /-- CAPTURE (R442): an event of timer `n`'s capture source. -/
  | capture (n : Nat)
  /-- COMPARE_WRITE (R439): `p` writes TMR_COMPARE. -/
  | compareWrite (p : Party) (n : Nat) (v : Word)
  /-- TMR_START (R445): `p` writes TMR_START. -/
  | tmrStart (p : Party) (v : Word)
  /-- TMR_STOP (R445): `p` writes TMR_STOP. -/
  | tmrStop (p : Party) (v : Word)
  /-- TIMER_CHAIN_READ (R443): `p` reads TMR_COUNT, or TMR_CAP, of timer `n`. -/
  | timerChainRead (p : Party) (n : Nat) (cap : Bool)
  /-- REC_SEED (R447): `p` completes a write of REC_SEED. -/
  | recSeed (p : Party) (hi : Word)
  /-- REC_SW_CODE (R449): `p` writes REC_SW_CODE. -/
  | recSwCode (p : Party) (v : Word)
  /-- RECORDER_FREEZE (R452): `p` writes CMD 1. -/
  | recorderFreeze (p : Party)
  /-- RECORDER_THAW (R452): `p` writes CMD 2. -/
  | recorderThaw (p : Party)
  /-- RECORDER_CLEAR (R452): `p` writes CMD 3. -/
  | recorderClear (p : Party)
  /-- REFERENCE_LOST (R456): reference input `ref` (0 main, 1 PCIe, 2 Ethernet, 3 JESD) misses 32 edges. -/
  | referenceLost (ref : Nat)
  /-- REF_HOLDOVER_EXPIRY (R456): the main reference has been absent for 1 ms. -/
  | refHoldoverExpiry
  /-- PLL_LOCK_LOST (R456): the PLL of bit `pll` of R455 loses lock. -/
  | pllLockLost (pll : Nat)
  /-- COLD_RESET (R466): power-on, or (`rstN`) RST_N driven low. -/
  | coldReset (rstN : Bool)
  /-- COLD_INIT_DONE (R466): PLL lock, fuse load and security start end. -/
  | coldInitDone (eccCorrected eccFailed : Bool)
  /-- BIST_DONE (R467): BIST ends; `spares`: SPARE_USED; `rows`: the failing rows found, as block and row; `failure`: a block without 16 usable cores (false), or a slice with more failing rows than spares (true). -/
  | bistDone (spares : Nat) (rows : List (Nat × Nat)) (failure : Option (Bool × Nat))
  /-- TRAINING_DONE (R548): memory training ends at the first rate that passes. -/
  | trainingDone (rate density ranks : Nat)
  /-- WARM_RESET (R470): a warm reset is requested. -/
  | warmReset (r : ResetBy)
  /-- COMPUTE_RESET (R463): a compute reset is requested. -/
  | computeReset (r : ResetBy)
  /-- COMPUTE_RESET_RELEASE (R463): 10 µs of the compute reset have passed. -/
  | computeResetRelease
  /-- REGION_RESET (R461): a region reset is requested. -/
  | regionReset (r : ResetBy) (region : Nat)
  /-- CORE_RESET (R461): a core reset is requested. -/
  | coreReset (r : ResetBy) (c : Nat)
  /-- RESET_RELEASE (R464): the reset of region or core `n` releases. -/
  | resetRelease (region : Bool) (n : Nat)
  /-- PERST_N (R461): PERST_N goes low. -/
  | perstN
  /-- CLK_MEAS_START (R472): `p` writes CLK_MEAS_SEL with START. -/
  | clkMeasStart (p : Party) (domain : Nat)
  /-- CLK_MEAS_DONE (R472): the measurement ends with `khz`. -/
  | clkMeasDone (khz : Nat)
  /-- CORE_SLEEP (R475): core `c` has been idle for CORE_IDLE × 16 cycles. -/
  | coreSleep (c : Nat)
  /-- BLOCK_SLEEP (R476): block `b` has been idle for 256 cycles. -/
  | blockSleep (b : Nat)
  /-- WAKE_CAUSE (R477): a cause of R477 reaches core or block `n`. -/
  | wakeCause (block : Bool) (n : Nat)
  /-- GOVERNOR_ADMIT (R486): the governor admits the oldest waiting act of region `r` after `waited` ns. -/
  | governorAdmit (r waited : Nat)
  /-- ENTER_P2 (R478): PWR_CMD ENTER_P2. -/
  | enterP2 (p : Party) (r : Nat) (compat : Bool)
  /-- P2_ENTRY_DONE (R479): retention entry of region `r` ends. -/
  | p2EntryDone (r : Nat)
  /-- EXIT_P2 (R481): PWR_CMD EXIT_P2. -/
  | exitP2 (p : Party) (r : Nat)
  /-- P2_EXIT_DONE (R481): VCORE_PG[r] is high and PLL_CORE_r has locked. -/
  | p2ExitDone (r : Nat)
  /-- ENTER_P3 (R482): PWR_CMD ENTER_P3. -/
  | enterP3 (p : Party)
  /-- I2C_WAKE (R485): an address byte on the wake bus. -/
  | i2cWake (addr : Nat)
  /-- P3_EXIT (R483): SYS_PG has risen after a wake in P3. -/
  | p3Exit
  /-- PWR_VF_WRITE (R489): `p` writes PWR_VF_r; `acked`: the regulator acknowledges. -/
  | pwrVfWrite (p : Party) (r vmv mult : Nat) (acked : Bool)
  /-- VF_SETTLED (R490): VRAMP_US have passed. -/
  | vfSettled (r : Nat)
  /-- MULT_CHANGE_DONE (R490): PLL_CORE_r has retuned. -/
  | multChangeDone (r : Nat)
  /-- PMBUS_ADDR_WRITE (R490): `p` writes PWR_PMBUS_r; `vout`: VOUT_MODE read from the regulator, if acknowledged. -/
  | pmbusAddrWrite (p : Party) (r addr vramp : Nat) (vout : Option Nat)
  /-- POWER_CAP_CHECK (R491): the 100 µs comparison, with the estimates of the regions and of the chip in mW. -/
  | powerCapCheck (e0 e1 e2 e3 total : Nat)
  /-- VCORE_PG_FALL (R542): VCORE_PG[r] falls. -/
  | vcorePgFall (r : Nat)
  /-- SYS_PG_RISE (R539): SYS_PG rises. -/
  | sysPgRise
  /-- SYS_PG_FALL (R542): SYS_PG falls. -/
  | sysPgFall
  /-- VDD_AON_RISE (R539): VDD_AON enters its range. -/
  | vddAonRise
  /-- THERM_TRIP (R543): a sensor reaches 125 °C. -/
  | thermTrip (sensor : Nat)
  /-- PUF_UNWRAP (R499): VDD_SEC has risen and the controller unwraps the identity key. -/
  | pufUnwrap
  /-- OFFER (R501): an OFFER request on mailbox `n` (63 host, 61 application core), image at `offset` × 64 KiB. -/
  | offer (n offset : Nat)
  /-- ATTEST (R510): an ATTEST request on mailbox `n`, buffer at `offset` × 4 KiB. -/
  | attest (n offset : Nat)
  /-- SPI_READ_DONE (R502): the read of the flash, whose bytes from address 0 are `flash`, ends. -/
  | spiReadDone (flash : List Byte)
  /-- BOOT_DATA (R503): a frame with a boot DATA datagram arrives at port 0. -/
  | bootData (frame : List Byte)
  /-- BOOT_DONE (R503): a frame with a boot DONE datagram arrives at port 0. -/
  | bootDone (frame : List Byte)
  /-- IMAGE_VERIFIED (R506): the verification in hand completes. -/
  | imageVerified
  /-- PROT_SHADOW_WRITE (R515): `p` writes word `w` of PROT_SHADOW. -/
  | protShadowWrite (p : Party) (w : Nat) (v : Word)
  /-- PROT_STAGE (R514): `p` writes PROT_STAGE. -/
  | protStage (p : Party) (nonce : Word)
  /-- PROT_COMMIT (R514): `p` writes PROT_COMMIT. -/
  | protCommit (p : Party) (nonce : Word)
  /-- PROT_DECLINE (R515): `p` writes PROT_DECLINE. -/
  | protDecline (p : Party) (v : Word)
  /-- PROT_EXPIRED (R515): 10 ms have passed since the stage. -/
  | protExpired
  /-- CFGLOAD_CMD (R519): `p` writes CFGLOAD_CMD.START. -/
  | cfgloadCmd (p : Party)
  /-- CFGLOAD_DONE (R519): the loader ends. -/
  | cfgloadDone
  /-- ETH_LINK_DOWN (R363): the link of a port goes down. -/
  | ethLinkDown (port : Nat)
  /-- ETH_LINK_UP (R548): the link of an enabled port comes up. -/
  | ethLinkUp (port : Nat)
  /-- PCIE_LINK_UP (R548): the PCIe link comes up. -/
  | pcieLinkUp (speed width : Nat)
  /-- REFERENCE_RETURN (R456): reference input `ref` returns. -/
  | referenceReturn (ref : Nat)
  /-- VCORE_PG_RISE (R542): VCORE_PG[r] rises. -/
  | vcorePgRise (r : Nat)
  /-- RST_N_RELEASE (R466): RST_N is released; `src`: the levels of BOOT_SRC. -/
  | rstNRelease (src : Nat)
  /-- SUPPLY_REMOVAL (R474): the supplies are removed. -/
  | supplyRemoval
  /-- NACK_TIMEOUT (R191): the outstanding NACK of a series expires. -/
  | nackTimeout (src dst : Nat) (mc : Bool)
  /-- CORRECTED_MONITOR_EVENT (R341): a clock or rail monitor of region `r` corrects an event. -/
  | correctedMonitorEvent (r : Nat)
  deriving DecidableEq, Repr

end Sys2Proof
end

