-- ==== Sys2Proof/Decode.lean ====
section
/-! DEFINITION. The words of the commands. The table of operations gives no command any bits, so no word of it spells one.
The engines' own instruction words (R108) are decoded and encoded here. -/

namespace Sys2Proof

/-- The command that a word spells by the table's bits: the table gives its rows none. -/
def decodeTableWord (_nbits _w : Nat) : Option Instr := none

/-! ### ACIS instruction words (R108) -/

/-- An instruction word with what its command says of the issue: core, engine, and the bits that its store read would newly
find wrong. -/
structure AcisWord where
  core : Nat
  eng : Nat
  upset : Nat
  word : Nat
  deriving DecidableEq, Repr

/-- Form A: op [31:26], rd [25:21], ra [20:16], rb [15:11], func [10:0]. -/
def formA (op rd ra rb func : Nat) : Nat := op * 0x4000000 + rd * 0x200000 + ra * 0x10000 + rb * 0x800 + func

/-- Form B: op, rd, ra, imm [15:0]. -/
def formB (op rd ra imm : Nat) : Nat := op * 0x4000000 + rd * 0x200000 + ra * 0x10000 + imm

/-- Form C: op, ra [25:21], rb [20:16], cond [15:12], target [11:0]. -/
def formC (op ra rb cond target : Nat) : Nat := op * 0x4000000 + ra * 0x200000 + rb * 0x10000 + cond * 0x1000 + target

/-- Form D: op, vd [25:22], va [21:18], vb [17:14], rs [13:9], func [8:0]. -/
def formD (op vd va vb rs func : Nat) : Nat :=
  op * 0x4000000 + vd * 0x400000 + va * 0x40000 + vb * 0x4000 + rs * 0x200 + func

/-- Form E: op, rd, ra, rb, imm8 [10:3], func [2:0]. -/
def formE (op rd ra rb imm8 func : Nat) : Nat :=
  op * 0x4000000 + rd * 0x200000 + ra * 0x10000 + rb * 0x800 + imm8 * 8 + func

/-- Function codes of major opcode 0x00 (R110). -/
def decA00 (c e rd ra rb func : Nat) : Option Instr :=
  match func with
  | 0x0 => some (.add c e rd ra rb)
  | 0x1 => some (.sub c e rd ra rb)
  | 0x2 => some (.and c e rd ra rb)
  | 0x3 => some (.or c e rd ra rb)
  | 0x4 => some (.xor c e rd ra rb)
  | 0x5 => some (.sll c e rd ra rb)
  | 0x6 => some (.srl c e rd ra rb)
  | 0x7 => some (.sra c e rd ra rb)
  | 0x8 => some (.slt c e rd ra rb)
  | 0x9 => some (.sltu c e rd ra rb)
  | 0xa => some (.min c e rd ra rb)
  | 0xb => some (.max c e rd ra rb)
  | 0xc => some (.mul c e rd ra rb)
  | 0xd => some (.mulh c e rd ra rb)
  | 0xe => some (.rsra c e rd ra rb)
  | 0xf => some (.sat24 c e rd ra rb)
  | _ => none

/-- Function codes of major opcode 0x30 (R119). -/
def decD30 (c e vd va vb rs func : Nat) : Option Instr :=
  match func with
  | 0x0 => some (.vadd c e vd va vb rs)
  | 0x1 => some (.vsub c e vd va vb rs)
  | 0x2 => some (.vmul c e vd va vb rs)
  | 0x3 => some (.vmuls c e vd va vb rs)
  | 0x4 => some (.vmin c e vd va vb rs)
  | 0x5 => some (.vmax c e vd va vb rs)
  | 0x6 => some (.vrsras c e vd va vb rs)
  | 0x7 => some (.vsat c e vd va vb rs)
  | 0x8 => some (.vbcast c e vd va vb rs)
  | 0x9 => some (.vand c e vd va vb rs)
  | 0xa => some (.vor c e vd va vb rs)
  | 0xb => some (.vadds c e vd va vb rs)
  | 0xc => some (.vext c e vd va vb rs)
  | 0xd => some (.vred c e vd va vb rs)
  | 0xe => some (.vins c e vd va vb rs)
  | _ => none

/-- Function codes of major opcode 0x31 (R120). -/
def decD31 (c e vd va vb rs func : Nat) : Option Instr :=
  match func with
  | 0x0 => some (.vld c e vd va vb rs)
  | 0x1 => some (.vst c e vd va vb rs)
  | 0x2 => some (.vldb c e vd va vb rs)
  | 0x3 => some (.vldn c e vd va vb rs)
  | 0x4 => some (.vstb c e vd va vb rs)
  | 0x5 => some (.vstn c e vd va vb rs)
  | 0x6 => some (.vsadd c e vd va vb rs)
  | 0x7 => some (.vlds c e vd va vb rs)
  | _ => none

/-- Function codes of major opcode 0x38 (R122). -/
def decE38 (c e rd ra rb imm8 func : Nat) : Option Instr :=
  match func with
  | 0x0 => some (.swait c e rd ra rb imm8)
  | 0x1 => some (.sadd c e rd ra rb imm8)
  | 0x2 => some (.ssub c e rd ra rb imm8)
  | 0x3 => some (.sread c e rd ra rb imm8)
  | _ => none

/-- Function codes of major opcode 0x39 (R125). -/
def decE39 (c e rd ra rb imm8 func : Nat) : Option Instr :=
  match func with
  | 0x0 => some (.hdef c e rd ra rb imm8)
  | 0x1 => some (.harr c e rd ra rb imm8)
  | 0x2 => some (.hwait c e rd ra rb imm8)
  | 0x3 => some (.hfree c e rd ra rb imm8)
  | _ => none

/-- Function codes of major opcode 0x3A (R127). -/
def decE3A (c e rd ra rb imm8 func : Nat) : Option Instr :=
  match func with
  | 0x0 => some (.qpop c e rd ra rb imm8)
  | 0x1 => some (.qpush c e rd ra rb imm8)
  | 0x2 => some (.qlen c e rd ra rb imm8)
  | 0x3 => some (.qsend c e rd ra rb imm8)
  | 0x4 => some (.cqadd c e rd ra rb imm8)
  | _ => none

/-- Function codes of major opcode 0x3B (R129). -/
def decE3B (c e rd ra rb imm8 func : Nat) : Option Instr :=
  match func with
  | 0x0 => some (.ret c e rd ra rb imm8)
  | 0x1 => some (.wicket c e rd ra rb imm8)
  | 0x2 => some (.stepdone c e rd ra rb imm8)
  | 0x3 => some (.emit c e rd ra rb imm8)
  | 0x4 => some (.fence c e rd ra rb imm8)
  | _ => none

/-- The instruction of a word; `none` for an unassigned opcode or function code, which raises ILLEGAL (R109). A field that the
instruction does not use stays in the command, whose meaning raises ILLEGAL where it is nonzero. -/
def acisDecode (x : AcisWord) : Option Instr :=
  let w := x.word
  let c := x.core
  let e := x.eng
  let f1 := w / 0x200000 % 32
  let f2 := w / 0x10000 % 32
  let f3 := w / 0x800 % 32
  let imm := w % 0x10000
  match w / 0x4000000 with
  | 0x00 => decA00 c e f1 f2 f3 (w % 0x800)
  | 0x01 => some (.addi c e f1 f2 imm)
  | 0x02 => some (.andi c e f1 f2 imm)
  | 0x03 => some (.ori c e f1 f2 imm)
  | 0x04 => some (.xori c e f1 f2 imm)
  | 0x05 => some (.lui c e f1 f2 imm)
  | 0x06 => some (.slli c e f1 f2 imm)
  | 0x07 => some (.srli c e f1 f2 imm)
  | 0x08 => some (.srai c e f1 f2 imm)
  | 0x09 => some (.slti c e f1 f2 imm)
  | 0x0A => some (.rsrai c e f1 f2 imm)
  | 0x0C => some (.csrr c e f1 f2 imm)
  | 0x0D => some (.csrw c e f1 f2 imm)
  | 0x0E => some (.csrrd c e f1 f2 imm)
  | 0x10 => some (.lw c e f1 f2 imm x.upset)
  | 0x11 => some (.lh c e f1 f2 imm)
  | 0x12 => some (.lhu c e f1 f2 imm)
  | 0x13 => some (.lb c e f1 f2 imm)
  | 0x14 => some (.lbu c e f1 f2 imm)
  | 0x15 => some (.sw c e f1 f2 imm)
  | 0x16 => some (.sh c e f1 f2 imm)
  | 0x17 => some (.sb c e f1 f2 imm)
  | 0x18 => some (.lws c e f1 f2 imm)
  | 0x19 => some (.sws c e f1 f2 imm)
  | 0x20 => some (.br c e f1 f2 (w / 0x1000 % 16) (w % 0x1000))
  | 0x21 => some (.jal c e f1 f2 (w / 0x1000 % 16) (w % 0x1000))
  | 0x22 => some (.jr c e f1 f2 (w / 0x1000 % 16) (w % 0x1000))
  | 0x30 => decD30 c e (w / 0x400000 % 16) (w / 0x40000 % 16) (w / 0x4000 % 16) (w / 0x200 % 32) (w % 0x200)
  | 0x31 => decD31 c e (w / 0x400000 % 16) (w / 0x40000 % 16) (w / 0x4000 % 16) (w / 0x200 % 32) (w % 0x200)
  | 0x38 => decE38 c e f1 f2 f3 (w / 8 % 256) (w % 8)
  | 0x39 => decE39 c e f1 f2 f3 (w / 8 % 256) (w % 8)
  | 0x3A => decE3A c e f1 f2 f3 (w / 8 % 256) (w % 8)
  | 0x3B => decE3B c e f1 f2 f3 (w / 8 % 256) (w % 8)
  | _ => none

/-- The word of an ACIS instruction; `none` for the other commands. -/
def acisEncode (i : Instr) : Option AcisWord :=
  match i with
  | .add c e rd ra rb => some ⟨c, e, 0, formA 0x00 rd ra rb 0x0⟩
  | .sub c e rd ra rb => some ⟨c, e, 0, formA 0x00 rd ra rb 0x1⟩
  | .and c e rd ra rb => some ⟨c, e, 0, formA 0x00 rd ra rb 0x2⟩
  | .or c e rd ra rb => some ⟨c, e, 0, formA 0x00 rd ra rb 0x3⟩
  | .xor c e rd ra rb => some ⟨c, e, 0, formA 0x00 rd ra rb 0x4⟩
  | .sll c e rd ra rb => some ⟨c, e, 0, formA 0x00 rd ra rb 0x5⟩
  | .srl c e rd ra rb => some ⟨c, e, 0, formA 0x00 rd ra rb 0x6⟩
  | .sra c e rd ra rb => some ⟨c, e, 0, formA 0x00 rd ra rb 0x7⟩
  | .slt c e rd ra rb => some ⟨c, e, 0, formA 0x00 rd ra rb 0x8⟩
  | .sltu c e rd ra rb => some ⟨c, e, 0, formA 0x00 rd ra rb 0x9⟩
  | .min c e rd ra rb => some ⟨c, e, 0, formA 0x00 rd ra rb 0xa⟩
  | .max c e rd ra rb => some ⟨c, e, 0, formA 0x00 rd ra rb 0xb⟩
  | .mul c e rd ra rb => some ⟨c, e, 0, formA 0x00 rd ra rb 0xc⟩
  | .mulh c e rd ra rb => some ⟨c, e, 0, formA 0x00 rd ra rb 0xd⟩
  | .rsra c e rd ra rb => some ⟨c, e, 0, formA 0x00 rd ra rb 0xe⟩
  | .sat24 c e rd ra rb => some ⟨c, e, 0, formA 0x00 rd ra rb 0xf⟩
  | .addi c e rd ra imm => some ⟨c, e, 0, formB 0x01 rd ra imm⟩
  | .andi c e rd ra imm => some ⟨c, e, 0, formB 0x02 rd ra imm⟩
  | .ori c e rd ra imm => some ⟨c, e, 0, formB 0x03 rd ra imm⟩
  | .xori c e rd ra imm => some ⟨c, e, 0, formB 0x04 rd ra imm⟩
  | .lui c e rd ra imm => some ⟨c, e, 0, formB 0x05 rd ra imm⟩
  | .slli c e rd ra imm => some ⟨c, e, 0, formB 0x06 rd ra imm⟩
  | .srli c e rd ra imm => some ⟨c, e, 0, formB 0x07 rd ra imm⟩
  | .srai c e rd ra imm => some ⟨c, e, 0, formB 0x08 rd ra imm⟩
  | .slti c e rd ra imm => some ⟨c, e, 0, formB 0x09 rd ra imm⟩
  | .rsrai c e rd ra imm => some ⟨c, e, 0, formB 0x0A rd ra imm⟩
  | .csrr c e rd ra imm => some ⟨c, e, 0, formB 0x0C rd ra imm⟩
  | .csrw c e rd ra imm => some ⟨c, e, 0, formB 0x0D rd ra imm⟩
  | .csrrd c e rd ra imm => some ⟨c, e, 0, formB 0x0E rd ra imm⟩
  | .lw c e rd ra imm upset => some ⟨c, e, upset, formB 0x10 rd ra imm⟩
  | .lh c e rd ra imm => some ⟨c, e, 0, formB 0x11 rd ra imm⟩
  | .lhu c e rd ra imm => some ⟨c, e, 0, formB 0x12 rd ra imm⟩
  | .lb c e rd ra imm => some ⟨c, e, 0, formB 0x13 rd ra imm⟩
  | .lbu c e rd ra imm => some ⟨c, e, 0, formB 0x14 rd ra imm⟩
  | .sw c e rd ra imm => some ⟨c, e, 0, formB 0x15 rd ra imm⟩
  | .sh c e rd ra imm => some ⟨c, e, 0, formB 0x16 rd ra imm⟩
  | .sb c e rd ra imm => some ⟨c, e, 0, formB 0x17 rd ra imm⟩
  | .lws c e rd ra imm => some ⟨c, e, 0, formB 0x18 rd ra imm⟩
  | .sws c e rd ra imm => some ⟨c, e, 0, formB 0x19 rd ra imm⟩
  | .br c e ra rb cond target => some ⟨c, e, 0, formC 0x20 ra rb cond target⟩
  | .jal c e ra rb cond target => some ⟨c, e, 0, formC 0x21 ra rb cond target⟩
  | .jr c e ra rb cond target => some ⟨c, e, 0, formC 0x22 ra rb cond target⟩
  | .vadd c e vd va vb rs => some ⟨c, e, 0, formD 0x30 vd va vb rs 0x0⟩
  | .vsub c e vd va vb rs => some ⟨c, e, 0, formD 0x30 vd va vb rs 0x1⟩
  | .vmul c e vd va vb rs => some ⟨c, e, 0, formD 0x30 vd va vb rs 0x2⟩
  | .vmuls c e vd va vb rs => some ⟨c, e, 0, formD 0x30 vd va vb rs 0x3⟩
  | .vmin c e vd va vb rs => some ⟨c, e, 0, formD 0x30 vd va vb rs 0x4⟩
  | .vmax c e vd va vb rs => some ⟨c, e, 0, formD 0x30 vd va vb rs 0x5⟩
  | .vrsras c e vd va vb rs => some ⟨c, e, 0, formD 0x30 vd va vb rs 0x6⟩
  | .vsat c e vd va vb rs => some ⟨c, e, 0, formD 0x30 vd va vb rs 0x7⟩
  | .vbcast c e vd va vb rs => some ⟨c, e, 0, formD 0x30 vd va vb rs 0x8⟩
  | .vand c e vd va vb rs => some ⟨c, e, 0, formD 0x30 vd va vb rs 0x9⟩
  | .vor c e vd va vb rs => some ⟨c, e, 0, formD 0x30 vd va vb rs 0xa⟩
  | .vadds c e vd va vb rs => some ⟨c, e, 0, formD 0x30 vd va vb rs 0xb⟩
  | .vext c e vd va vb rs => some ⟨c, e, 0, formD 0x30 vd va vb rs 0xc⟩
  | .vred c e vd va vb rs => some ⟨c, e, 0, formD 0x30 vd va vb rs 0xd⟩
  | .vins c e vd va vb rs => some ⟨c, e, 0, formD 0x30 vd va vb rs 0xe⟩
  | .vld c e vd va vb rs => some ⟨c, e, 0, formD 0x31 vd va vb rs 0x0⟩
  | .vst c e vd va vb rs => some ⟨c, e, 0, formD 0x31 vd va vb rs 0x1⟩
  | .vldb c e vd va vb rs => some ⟨c, e, 0, formD 0x31 vd va vb rs 0x2⟩
  | .vldn c e vd va vb rs => some ⟨c, e, 0, formD 0x31 vd va vb rs 0x3⟩
  | .vstb c e vd va vb rs => some ⟨c, e, 0, formD 0x31 vd va vb rs 0x4⟩
  | .vstn c e vd va vb rs => some ⟨c, e, 0, formD 0x31 vd va vb rs 0x5⟩
  | .vsadd c e vd va vb rs => some ⟨c, e, 0, formD 0x31 vd va vb rs 0x6⟩
  | .vlds c e vd va vb rs => some ⟨c, e, 0, formD 0x31 vd va vb rs 0x7⟩
  | .swait c e rd ra rb imm8 => some ⟨c, e, 0, formE 0x38 rd ra rb imm8 0x0⟩
  | .sadd c e rd ra rb imm8 => some ⟨c, e, 0, formE 0x38 rd ra rb imm8 0x1⟩
  | .ssub c e rd ra rb imm8 => some ⟨c, e, 0, formE 0x38 rd ra rb imm8 0x2⟩
  | .sread c e rd ra rb imm8 => some ⟨c, e, 0, formE 0x38 rd ra rb imm8 0x3⟩
  | .hdef c e rd ra rb imm8 => some ⟨c, e, 0, formE 0x39 rd ra rb imm8 0x0⟩
  | .harr c e rd ra rb imm8 => some ⟨c, e, 0, formE 0x39 rd ra rb imm8 0x1⟩
  | .hwait c e rd ra rb imm8 => some ⟨c, e, 0, formE 0x39 rd ra rb imm8 0x2⟩
  | .hfree c e rd ra rb imm8 => some ⟨c, e, 0, formE 0x39 rd ra rb imm8 0x3⟩
  | .qpop c e rd ra rb imm8 => some ⟨c, e, 0, formE 0x3A rd ra rb imm8 0x0⟩
  | .qpush c e rd ra rb imm8 => some ⟨c, e, 0, formE 0x3A rd ra rb imm8 0x1⟩
  | .qlen c e rd ra rb imm8 => some ⟨c, e, 0, formE 0x3A rd ra rb imm8 0x2⟩
  | .qsend c e rd ra rb imm8 => some ⟨c, e, 0, formE 0x3A rd ra rb imm8 0x3⟩
  | .cqadd c e rd ra rb imm8 => some ⟨c, e, 0, formE 0x3A rd ra rb imm8 0x4⟩
  | .ret c e rd ra rb imm8 => some ⟨c, e, 0, formE 0x3B rd ra rb imm8 0x0⟩
  | .wicket c e rd ra rb imm8 => some ⟨c, e, 0, formE 0x3B rd ra rb imm8 0x1⟩
  | .stepdone c e rd ra rb imm8 => some ⟨c, e, 0, formE 0x3B rd ra rb imm8 0x2⟩
  | .emit c e rd ra rb imm8 => some ⟨c, e, 0, formE 0x3B rd ra rb imm8 0x3⟩
  | .fence c e rd ra rb imm8 => some ⟨c, e, 0, formE 0x3B rd ra rb imm8 0x4⟩
  | _ => none

end Sys2Proof
end

