-- ==== Sys2Proof/Machine/Arith.lean ====
section
/-! DEFINITION. The arithmetic of the spec: rounding division (R7), saturation, sign extension and check codes. -/

namespace Sys2Proof.Machine

/-- `rdiv(x, 2^s)`: divide by `2^s`, rounding to nearest with ties away from zero (R7). -/
def rdiv (x : Int) (s : Nat) : Int :=
  let m := (2 * x.natAbs + 2 ^ s) / (2 * 2 ^ s)
  if x < 0 then -(m : Int) else (m : Int)

/-- Rounding quotient of `x` by a positive `d` (R7). -/
def rquot (x : Int) (d : Nat) : Int :=
  let m := (2 * x.natAbs + d) / (2 * d)
  if x < 0 then -(m : Int) else (m : Int)

def clampInt (lo hi x : Int) : Int := if x < lo then lo else if hi < x then hi else x

/-- Clamp to `w` signed bits. -/
def satS (w : Nat) (x : Int) : Int := clampInt (-(2 ^ (w - 1) : Nat)) ((2 ^ (w - 1) : Nat) - 1) x

def sat24 (x : Int) : Int := satS 24 x

/-- The `w`-bit number `v` read as signed. -/
def sx (w v : Nat) : Int := (BitVec.ofNat w v).toInt

/-- The low `w` bits of an integer as a number. -/
def ux (w : Nat) (x : Int) : Nat := (BitVec.ofInt w x).toNat

/-- Bit `i` of a number. -/
def bitN (v i : Nat) : Bool := v.testBit i

/-- Bits `[lo + w - 1 : lo]` of a number. -/
def bitsN (v lo w : Nat) : Nat := v / 2 ^ lo % 2 ^ w

/-- Set bit `i` of a number to `b`. -/
def setBitN (v i : Nat) (b : Bool) : Nat := if b then v ||| 2 ^ i else if v.testBit i then v - 2 ^ i else v

def bnat (b : Bool) : Nat := if b then 1 else 0

/-- Wrapping difference of 32-bit counts. -/
def sub32 (a b : Nat) : Nat := (a + 2 ^ 32 - b % 2 ^ 32) % 2 ^ 32

/-- One byte of a reflected CRC with polynomial `poly` (given reflected). -/
def crcByte (poly : Nat) (crc b : Nat) : Nat :=
  (List.range 8).foldl (fun c _ => if c % 2 = 1 then (c / 2) ^^^ poly else c / 2) (crc ^^^ b)

/-- CRC-32C (Castagnoli) of bytes (R517): polynomial 0x1EDC6F41 reflected, initial value and final XOR all ones. -/
def crc32c (bs : List Byte) : Nat := (bs.foldl (fun c b => crcByte 0x82F63B78 c b.toNat) 0xFFFFFFFF) ^^^ 0xFFFFFFFF

/-- The CRC of an Ethernet frame (PRESUMED, log entry 58: IEEE 802.3, which the port's frames follow). -/
def crc32 (bs : List Byte) : Nat := (bs.foldl (fun c b => crcByte 0xEDB88320 c b.toNat) 0xFFFFFFFF) ^^^ 0xFFFFFFFF

end Sys2Proof.Machine
end

