-- ==== Sys2Proof/Machine/EventWord.lean ====
section
/-! DEFINITION. The event word (R20). -/

namespace Sys2Proof.Machine

/-! ### Fields of an event word (R20) -/

def evDx (w : Word64) : Nat := bitsN w.toNat 59 5
def evDy (w : Word64) : Nat := bitsN w.toNat 54 5
def evEpoch (w : Word64) : Nat := bitsN w.toNat 50 4
def evAxon (w : Word64) : Nat := bitsN w.toNat 34 16
def evCtx (w : Word64) : Nat := bitsN w.toNat 18 16
def evPay (w : Word64) : Nat := bitsN w.toNat 10 8
def evDly (w : Word64) : Nat := bitsN w.toNat 5 5
def evKind (w : Word64) : Nat := bitsN w.toNat 3 2
def evMc (w : Word64) : Bool := bitN w.toNat 2
/-- The core a unicast event names. -/
def evCore (w : Word64) : Nat := evDy w * 32 + evDx w
/-- The flock of a multicast event. -/
def evFlock (w : Word64) : Nat := evDx w * 32 + evDy w

/-- The word of the fields of R20. -/
def mkEvent (dx dy epoch axon ctx pay dly kind mc : Nat) : Word64 :=
  BitVec.ofNat 64 (dx % 32 * 2 ^ 59 + dy % 32 * 2 ^ 54 + epoch % 16 * 2 ^ 50 + axon % 2 ^ 16 * 2 ^ 34 + ctx % 2 ^ 16 * 2 ^ 18
    + pay % 256 * 2 ^ 10 + dly % 32 * 2 ^ 5 + kind % 4 * 2 ^ 3 + mc % 2 * 2 ^ 2)

/-- The payload of a synaptic operation (R56). -/
def payOf (w : Word64) : Nat := if evKind w = 1 then evPay w else 1

end Sys2Proof.Machine
end

