-- ==== Sys2Proof/Config.lean ====
section
/-! DEFINITION. What the spec leaves open: values without a body, of which nothing can be proved, and functions of outside
standards that the spec names and does not give. -/

namespace Sys2Proof

/-- A fresh unspecified value: the model's counter `State.free` gives each use its own argument. -/
opaque Config.freeValue : Nat → Word

/-- The words of the PCIe configuration space that no rule gives: the vendor ID (bits [15:0] of word 0), the revision (bits [7:0] of
word 8), and every word at which the model places no register (R393, log entry 62). -/
opaque Config.cfgSpace : Nat → Word

/-- The die serial number of UNIQUE_ID (R45), loaded from fuses. -/
opaque Config.serial : Nat

/-- REV_MAJOR and REV_MINOR of DEVICE_ID (R45), loaded from fuses. -/
opaque Config.revMajor : Nat
opaque Config.revMinor : Nat

/-- Fuse load and repair summary of FUSE_STATUS (R47): rows and spares used. -/
opaque Config.fuseRows : Nat
opaque Config.fuseSpares : Nat

/-- Byte `i` of the SHAKE256 output of a message (R498, R499, R505). -/
opaque Config.shake : List Byte → Nat → Byte

/-- The first `n` bytes of the output. -/
def Config.shakeBytes (m : List Byte) (n : Nat) : List Byte := (List.range n).map (Config.shake m)

/-- SHAKE256 with a 64-byte output, as a number. -/
def Config.shake256 (m : List Byte) : Nat := (Config.shakeBytes m 64).foldr (fun b n => b.toNat + 256 * n) 0

/-- KEY_HASH of key slot `s` (R498). -/
opaque Config.keyHash : Nat → Nat

/-- Falcon-1024 verification of a signature over a root by a public key (R505). -/
opaque Config.falconVerify : List Byte → Nat → List Byte → Bool

/-- Falcon-1024 signature of a digest with a private key (R510). -/
opaque Config.falconSign : List Byte → Nat → List Byte

/-- The identity public key of the fuses (R498). -/
opaque Config.idPub : List Byte

/-- ID_WRAPPED of the fuses: the wrapped identity key, and the tag behind it (R498, R499). -/
opaque Config.idWrapped : List Byte

/-- PUF_HELPER of the fuses, and the response of the PUF with it (R498, R499). -/
opaque Config.pufHelper : List Byte
opaque Config.pufResponse : List Byte → List Byte

/-- KEY_REVOKE of the fuses: bit `s` revokes key slot `s` (R498). -/
opaque Config.keyRevoke : Nat

/-- FUSE_LOCK of the fuses (R498). -/
opaque Config.fuseLock : Bool

/-- f_DEVCLK in kHz, which the board gives (R282). -/
opaque Config.devClkKhz : Nat

/-- DEBUG_DISABLE of the fuses (R498). -/
opaque Config.debugDisable : Bool

end Sys2Proof
end

