-- ==== Sys2Proof/Machine/Regs.lean ====
section
/-! DEFINITION. The register map of the spec: every register block, register and field of its register tables with
access code and reset entry (R9, R44), the address of each register and the place of each field. -/

namespace Sys2Proof.Machine

/-- The access code of a field (R9). A bit of a word that no field covers is RSV. -/
inductive Acc where
  | rw | ro | rc | wo | rwd
  deriving DecidableEq, Repr

/-- The entry of the Reset column (R44). -/
inductive ResetEntry where
  /-- a number -/
  | num (n : Nat)
  /-- F: loaded from fuses during cold bring-up, kept by every later reset -/
  | fuse
  /-- T: set by bring-up or link training -/
  | train
  /-- K: only a cold reset sets it, to zero -/
  | keep
  /-- a dash: undefined until written; the model holds zero (DESIGN CHOICE, log entry 2) -/
  | dash
  deriving DecidableEq, Repr

/-- One field of a register table. Bits count from bit 0 of the register. -/
structure RegField where
  hi : Nat
  lo : Nat
  acc : Acc
  reset : ResetEntry
  deriving DecidableEq, Repr

/-- One row of a register table: `count` registers of `width` bits, `stride` bytes apart, the first at `off`. -/
structure RegRow where
  off : Nat
  width : Nat
  stride : Nat
  count : Nat
  fields : List RegField
  deriving DecidableEq, Repr

/-- Which BLK_CTRL governs the RWD fields of a block (R40). -/
inductive Governor where
  | none | own | link | volley
  deriving DecidableEq, Repr

/-- A register block: `count` instances `stride` bytes apart, each `len` bytes long (R546). -/
structure RegBlock where
  base : Nat
  stride : Nat
  count : Nat
  len : Nat
  gov : Governor
  rows : List RegRow
  deriving DecidableEq, Repr

/-- A field of one register: the address of the 32-bit word that holds its bit 0, the bit there, and its width. -/
structure FieldRef where
  addr : Nat
  lo : Nat
  width : Nat
  deriving DecidableEq, Repr

namespace Reg

/-- DEVICE_ID (R45). -/
def glob_DEVICE_ID : Nat := 0x0003000000
def glob_DEVICE_ID_ARCH_GEN : FieldRef := ⟨0x0003000000, 28, 4⟩
def glob_DEVICE_ID_REV_MAJOR : FieldRef := ⟨0x0003000000, 20, 4⟩
def glob_DEVICE_ID_REV_MINOR : FieldRef := ⟨0x0003000000, 16, 4⟩
def glob_DEVICE_ID_VARIANT : FieldRef := ⟨0x0003000000, 8, 8⟩
def glob_DEVICE_ID_FAMILY : FieldRef := ⟨0x0003000000, 0, 8⟩
/-- UNIQUE_ID (R45). -/
def glob_UNIQUE_ID : Nat := 0x0003000008
def glob_UNIQUE_ID_SERIAL : FieldRef := ⟨0x0003000008, 0, 64⟩
/-- FEATURE (R46). -/
def glob_FEATURE : Nat := 0x0003000010
def glob_FEATURE_AET : FieldRef := ⟨0x0003000010, 14, 1⟩
def glob_FEATURE_LEARN : FieldRef := ⟨0x0003000010, 13, 1⟩
def glob_FEATURE_EIP : FieldRef := ⟨0x0003000010, 12, 1⟩
def glob_FEATURE_JESD : FieldRef := ⟨0x0003000010, 11, 1⟩
def glob_FEATURE_MEM_CHANNELS : FieldRef := ⟨0x0003000010, 6, 5⟩
def glob_FEATURE_ETH_PRESENT : FieldRef := ⟨0x0003000010, 4, 2⟩
def glob_FEATURE_REGION_PRESENT : FieldRef := ⟨0x0003000010, 0, 4⟩
/-- FUSE_STATUS (R47). -/
def glob_FUSE_STATUS : Nat := 0x0003000020
def glob_FUSE_STATUS_SLICE_ROWS_USED : FieldRef := ⟨0x0003000020, 16, 8⟩
def glob_FUSE_STATUS_SPARES_USED : FieldRef := ⟨0x0003000020, 8, 8⟩
def glob_FUSE_STATUS_ECC_FAILED : FieldRef := ⟨0x0003000020, 2, 1⟩
def glob_FUSE_STATUS_ECC_CORRECTED : FieldRef := ⟨0x0003000020, 1, 1⟩
def glob_FUSE_STATUS_LOADED : FieldRef := ⟨0x0003000020, 0, 1⟩
/-- SPARE_USED (R45). -/
def glob_SPARE_USED : Nat := 0x0003000028
def glob_SPARE_USED_BLOCK : FieldRef := ⟨0x0003000028, 0, 64⟩
/-- CHIP_STATUS (R45). -/
def glob_CHIP_STATUS : Nat := 0x0003000030
def glob_CHIP_STATUS_FAULT_ANY : FieldRef := ⟨0x0003000030, 15, 1⟩
def glob_CHIP_STATUS_WRITE_IGNORED_ANY : FieldRef := ⟨0x0003000030, 14, 1⟩
def glob_CHIP_STATUS_CFG_DEFAULTED_ANY : FieldRef := ⟨0x0003000030, 13, 1⟩
def glob_CHIP_STATUS_CLUSTER_UP : FieldRef := ⟨0x0003000030, 12, 1⟩
def glob_CHIP_STATUS_ETH1_UP : FieldRef := ⟨0x0003000030, 11, 1⟩
def glob_CHIP_STATUS_ETH0_UP : FieldRef := ⟨0x0003000030, 10, 1⟩
def glob_CHIP_STATUS_PCIE_UP : FieldRef := ⟨0x0003000030, 9, 1⟩
def glob_CHIP_STATUS_MEM_READY : FieldRef := ⟨0x0003000030, 8, 1⟩
def glob_CHIP_STATUS_REGION_READY : FieldRef := ⟨0x0003000030, 4, 4⟩
def glob_CHIP_STATUS_STATE : FieldRef := ⟨0x0003000030, 0, 4⟩
/-- CHIP_EVENTS (R45). -/
def glob_CHIP_EVENTS : Nat := 0x0003000040
def glob_CHIP_EVENTS_FAULT_RAISED : FieldRef := ⟨0x0003000040, 3, 1⟩
def glob_CHIP_EVENTS_CFG_DEFAULTED_SEEN : FieldRef := ⟨0x0003000040, 2, 1⟩
def glob_CHIP_EVENTS_WRITE_IGNORED_SEEN : FieldRef := ⟨0x0003000040, 1, 1⟩
def glob_CHIP_EVENTS_STATE_CHANGED : FieldRef := ⟨0x0003000040, 0, 1⟩
/-- BLK_CTRL (R40). -/
def core_BLK_CTRL (b : Nat) : Nat := 0x0100080000 + b * 0x100000
def core_BLK_CTRL_EN (b : Nat) : FieldRef := ⟨0x0100080000 + b * 0x100000, 0, 1⟩
/-- BLK_STATUS (R40). -/
def core_BLK_STATUS (b : Nat) : Nat := 0x0100080004 + b * 0x100000
def core_BLK_STATUS_CFG_DEFAULTED (b : Nat) : FieldRef := ⟨0x0100080004 + b * 0x100000, 2, 1⟩
def core_BLK_STATUS_WRITE_IGNORED (b : Nat) : FieldRef := ⟨0x0100080004 + b * 0x100000, 1, 1⟩
def core_BLK_STATUS_ENABLED (b : Nat) : FieldRef := ⟨0x0100080004 + b * 0x100000, 0, 1⟩
/-- CORE_CFG (R101). -/
def core_CORE_CFG (b : Nat) : Nat := 0x0100080008 + b * 0x100000
def core_CORE_CFG_LEARN_EN (b : Nat) : FieldRef := ⟨0x0100080008 + b * 0x100000, 1, 1⟩
def core_CORE_CFG_FMT (b : Nat) : FieldRef := ⟨0x0100080008 + b * 0x100000, 0, 1⟩
/-- CORE_STATE (R101). -/
def core_CORE_STATE (b : Nat) : Nat := 0x010008000C + b * 0x100000
def core_CORE_STATE_RUNNING_SLOTS (b : Nat) : FieldRef := ⟨0x010008000C + b * 0x100000, 16, 9⟩
def core_CORE_STATE_ENG_BUSY (b : Nat) : FieldRef := ⟨0x010008000C + b * 0x100000, 8, 6⟩
def core_CORE_STATE_QUIESCENT (b : Nat) : FieldRef := ⟨0x010008000C + b * 0x100000, 0, 1⟩
/-- ROLE_EPOCH (R101). -/
def core_ROLE_EPOCH (b : Nat) : Nat := 0x0100080010 + b * 0x100000
def core_ROLE_EPOCH_EPOCH (b : Nat) : FieldRef := ⟨0x0100080010 + b * 0x100000, 0, 4⟩
/-- FAULT_STATUS (R101). -/
def core_FAULT_STATUS (b : Nat) : Nat := 0x0100080018 + b * 0x100000
def core_FAULT_STATUS_SLICE_READ (b : Nat) : FieldRef := ⟨0x0100080018 + b * 0x100000, 9, 1⟩
def core_FAULT_STATUS_INSTR (b : Nat) : FieldRef := ⟨0x0100080018 + b * 0x100000, 8, 1⟩
def core_FAULT_STATUS_REFUSED (b : Nat) : FieldRef := ⟨0x0100080018 + b * 0x100000, 7, 1⟩
def core_FAULT_STATUS_BAD_TARGET (b : Nat) : FieldRef := ⟨0x0100080018 + b * 0x100000, 6, 1⟩
def core_FAULT_STATUS_NO_AXON (b : Nat) : FieldRef := ⟨0x0100080018 + b * 0x100000, 5, 1⟩
def core_FAULT_STATUS_GANDER (b : Nat) : FieldRef := ⟨0x0100080018 + b * 0x100000, 4, 1⟩
def core_FAULT_STATUS_LATE_EVENT (b : Nat) : FieldRef := ⟨0x0100080018 + b * 0x100000, 3, 1⟩
def core_FAULT_STATUS_BAD_DELAY (b : Nat) : FieldRef := ⟨0x0100080018 + b * 0x100000, 2, 1⟩
def core_FAULT_STATUS_ECC_UNCORR (b : Nat) : FieldRef := ⟨0x0100080018 + b * 0x100000, 1, 1⟩
def core_FAULT_STATUS_ECC_CORR (b : Nat) : FieldRef := ⟨0x0100080018 + b * 0x100000, 0, 1⟩
/-- FAULT_INFO (R101). -/
def core_FAULT_INFO (b : Nat) : Nat := 0x010008001C + b * 0x100000
def core_FAULT_INFO_VALID (b : Nat) : FieldRef := ⟨0x010008001C + b * 0x100000, 31, 1⟩
def core_FAULT_INFO_OFFSET (b : Nat) : FieldRef := ⟨0x010008001C + b * 0x100000, 11, 17⟩
def core_FAULT_INFO_STORE (b : Nat) : FieldRef := ⟨0x010008001C + b * 0x100000, 7, 3⟩
def core_FAULT_INFO_ENGINE (b : Nat) : FieldRef := ⟨0x010008001C + b * 0x100000, 4, 3⟩
def core_FAULT_INFO_KIND (b : Nat) : FieldRef := ⟨0x010008001C + b * 0x100000, 0, 4⟩
/-- SAT_COUNT (R101). -/
def core_SAT_COUNT (b : Nat) : Nat := 0x0100080020 + b * 0x100000
def core_SAT_COUNT_COUNT (b : Nat) : FieldRef := ⟨0x0100080020 + b * 0x100000, 0, 32⟩
/-- DELAY_ERR (R101). -/
def core_DELAY_ERR (b : Nat) : Nat := 0x0100080024 + b * 0x100000
def core_DELAY_ERR_COUNT (b : Nat) : FieldRef := ⟨0x0100080024 + b * 0x100000, 0, 32⟩
/-- LATE_COUNT (R101). -/
def core_LATE_COUNT (b : Nat) : Nat := 0x0100080028 + b * 0x100000
def core_LATE_COUNT_COUNT (b : Nat) : FieldRef := ⟨0x0100080028 + b * 0x100000, 0, 32⟩
/-- ECC_CORR_COUNT (R101). -/
def core_ECC_CORR_COUNT (b : Nat) : Nat := 0x010008002C + b * 0x100000
def core_ECC_CORR_COUNT_COUNT (b : Nat) : FieldRef := ⟨0x010008002C + b * 0x100000, 0, 32⟩
/-- REFUSED_COUNT (R101). -/
def core_REFUSED_COUNT (b : Nat) : Nat := 0x0100080030 + b * 0x100000
def core_REFUSED_COUNT_COUNT (b : Nat) : FieldRef := ⟨0x0100080030 + b * 0x100000, 0, 32⟩
/-- AXON_MISS_COUNT (R101). -/
def core_AXON_MISS_COUNT (b : Nat) : Nat := 0x0100080034 + b * 0x100000
def core_AXON_MISS_COUNT_COUNT (b : Nat) : FieldRef := ⟨0x0100080034 + b * 0x100000, 0, 32⟩
/-- TARGET_ERR_COUNT (R101). -/
def core_TARGET_ERR_COUNT (b : Nat) : Nat := 0x0100080038 + b * 0x100000
def core_TARGET_ERR_COUNT_COUNT (b : Nat) : FieldRef := ⟨0x0100080038 + b * 0x100000, 0, 32⟩
/-- SLICE_ERR_COUNT (R101). -/
def core_SLICE_ERR_COUNT (b : Nat) : Nat := 0x010008003C + b * 0x100000
def core_SLICE_ERR_COUNT_COUNT (b : Nat) : FieldRef := ⟨0x010008003C + b * 0x100000, 0, 32⟩
/-- SCRUB_CTRL (R101). -/
def core_SCRUB_CTRL (b : Nat) : Nat := 0x0100080040 + b * 0x100000
def core_SCRUB_CTRL_SHIFT (b : Nat) : FieldRef := ⟨0x0100080040 + b * 0x100000, 1, 4⟩
def core_SCRUB_CTRL_EN (b : Nat) : FieldRef := ⟨0x0100080040 + b * 0x100000, 0, 1⟩
/-- SYN_OPS (R101). -/
def core_SYN_OPS (b : Nat) : Nat := 0x0100080048 + b * 0x100000
def core_SYN_OPS_COUNT (b : Nat) : FieldRef := ⟨0x0100080048 + b * 0x100000, 0, 64⟩
/-- PROG_RANGE (R101). -/
def core_PROG_RANGE (b i : Nat) : Nat := 0x0100080060 + b * 0x100000 + i * 0x4
def core_PROG_RANGE_LAST (b i : Nat) : FieldRef := ⟨0x0100080060 + b * 0x100000 + i * 0x4, 16, 12⟩
def core_PROG_RANGE_FIRST (b i : Nat) : FieldRef := ⟨0x0100080060 + b * 0x100000 + i * 0x4, 0, 12⟩
/-- ENG_STATUS (R102). -/
def eng_ENG_STATUS (c e : Nat) : Nat := 0x0100090000 + c * 0x100000 + e * 0x1000
def eng_ENG_STATUS_PC (c e : Nat) : FieldRef := ⟨0x0100090000 + c * 0x100000 + e * 0x1000, 16, 12⟩
def eng_ENG_STATUS_STATE (c e : Nat) : FieldRef := ⟨0x0100090000 + c * 0x100000 + e * 0x1000, 0, 3⟩
/-- GANDER_LIMIT (R102). -/
def eng_GANDER_LIMIT (c e : Nat) : Nat := 0x0100090008 + c * 0x100000 + e * 0x1000
def eng_GANDER_LIMIT_LIMIT (c e : Nat) : FieldRef := ⟨0x0100090008 + c * 0x100000 + e * 0x1000, 0, 32⟩
/-- GANDER_EVENTS (R102). -/
def eng_GANDER_EVENTS (c e : Nat) : Nat := 0x010009000C + c * 0x100000 + e * 0x1000
def eng_GANDER_EVENTS_EXPIRED (c e : Nat) : FieldRef := ⟨0x010009000C + c * 0x100000 + e * 0x1000, 0, 1⟩
/-- QUEUE_STATUS (R102). -/
def eng_QUEUE_STATUS (c e : Nat) : Nat := 0x0100090010 + c * 0x100000 + e * 0x1000
def eng_QUEUE_STATUS_WAIT_LEVEL (c e : Nat) : FieldRef := ⟨0x0100090010 + c * 0x100000 + e * 0x1000, 16, 8⟩
def eng_QUEUE_STATUS_OUT_CREDITS (c e : Nat) : FieldRef := ⟨0x0100090010 + c * 0x100000 + e * 0x1000, 8, 8⟩
def eng_QUEUE_STATUS_IN_LEVEL (c e : Nat) : FieldRef := ⟨0x0100090010 + c * 0x100000 + e * 0x1000, 0, 8⟩
/-- BUSY_CYCLES (R102). -/
def eng_BUSY_CYCLES (c e : Nat) : Nat := 0x0100090018 + c * 0x100000 + e * 0x1000
def eng_BUSY_CYCLES_COUNT (c e : Nat) : FieldRef := ⟨0x0100090018 + c * 0x100000 + e * 0x1000, 0, 64⟩
/-- STALL_CYCLES (R102). -/
def eng_STALL_CYCLES (c e : Nat) : Nat := 0x0100090020 + c * 0x100000 + e * 0x1000
def eng_STALL_CYCLES_COUNT (c e : Nat) : FieldRef := ⟨0x0100090020 + c * 0x100000 + e * 0x1000, 0, 64⟩
/-- HVEC (R142). -/
def eng_HVEC (c e i : Nat) : Nat := 0x0100090100 + c * 0x100000 + e * 0x1000 + i * 0x4
def eng_HVEC_EN (c e i : Nat) : FieldRef := ⟨0x0100090100 + c * 0x100000 + e * 0x1000 + i * 0x4, 31, 1⟩
def eng_HVEC_ENTRY (c e i : Nat) : FieldRef := ⟨0x0100090100 + c * 0x100000 + e * 0x1000 + i * 0x4, 0, 12⟩
/-- EXC_CAUSE (R142). -/
def eng_EXC_CAUSE (c e : Nat) : Nat := 0x0100090180 + c * 0x100000 + e * 0x1000
def eng_EXC_CAUSE_VALID (c e : Nat) : FieldRef := ⟨0x0100090180 + c * 0x100000 + e * 0x1000, 31, 1⟩
def eng_EXC_CAUSE_MORE (c e : Nat) : FieldRef := ⟨0x0100090180 + c * 0x100000 + e * 0x1000, 30, 1⟩
def eng_EXC_CAUSE_CODE (c e : Nat) : FieldRef := ⟨0x0100090180 + c * 0x100000 + e * 0x1000, 0, 5⟩
/-- EXC_PC (R142). -/
def eng_EXC_PC (c e : Nat) : Nat := 0x0100090184 + c * 0x100000 + e * 0x1000
def eng_EXC_PC_NOT_INSTR (c e : Nat) : FieldRef := ⟨0x0100090184 + c * 0x100000 + e * 0x1000, 12, 1⟩
def eng_EXC_PC_PC (c e : Nat) : FieldRef := ⟨0x0100090184 + c * 0x100000 + e * 0x1000, 0, 12⟩
/-- EXC_VALUE (R142). -/
def eng_EXC_VALUE (c e : Nat) : Nat := 0x0100090188 + c * 0x100000 + e * 0x1000
def eng_EXC_VALUE_VALUE (c e : Nat) : FieldRef := ⟨0x0100090188 + c * 0x100000 + e * 0x1000, 0, 32⟩
/-- HANDLER_LIMIT (R142). -/
def eng_HANDLER_LIMIT (c e : Nat) : Nat := 0x010009018C + c * 0x100000 + e * 0x1000
def eng_HANDLER_LIMIT_LIMIT (c e : Nat) : FieldRef := ⟨0x010009018C + c * 0x100000 + e * 0x1000, 0, 32⟩
/-- CUR_SLOT (R142). -/
def eng_CUR_SLOT (c e : Nat) : Nat := 0x0100090190 + c * 0x100000 + e * 0x1000
def eng_CUR_SLOT_SLOT (c e : Nat) : FieldRef := ⟨0x0100090190 + c * 0x100000 + e * 0x1000, 0, 9⟩
/-- CUR_STEP (R142). -/
def eng_CUR_STEP (c e : Nat) : Nat := 0x0100090198 + c * 0x100000 + e * 0x1000
def eng_CUR_STEP_STEP (c e : Nat) : FieldRef := ⟨0x0100090198 + c * 0x100000 + e * 0x1000, 0, 64⟩
/-- QWATCH (R142). -/
def eng_QWATCH (c e : Nat) : Nat := 0x01000901A8 + c * 0x100000 + e * 0x1000
def eng_QWATCH_QUEUES (c e : Nat) : FieldRef := ⟨0x01000901A8 + c * 0x100000 + e * 0x1000, 0, 64⟩
/-- RETIRED (R142). -/
def eng_RETIRED (c e : Nat) : Nat := 0x01000901B0 + c * 0x100000 + e * 0x1000
def eng_RETIRED_COUNT (c e : Nat) : FieldRef := ⟨0x01000901B0 + c * 0x100000 + e * 0x1000, 0, 64⟩
/-- VMASK (R142). -/
def eng_VMASK (c e : Nat) : Nat := 0x01000901A0 + c * 0x100000 + e * 0x1000
def eng_VMASK_LANES (c e : Nat) : FieldRef := ⟨0x01000901A0 + c * 0x100000 + e * 0x1000, 0, 16⟩
/-- LAST_FIRES (R142). -/
def so_LAST_FIRES (c : Nat) : Nat := 0x01000921B8 + c * 0x100000
def so_LAST_FIRES_COUNT (c : Nat) : FieldRef := ⟨0x01000921B8 + c * 0x100000, 0, 15⟩
/-- MODULATION (R142). -/
def pe_MODULATION (c : Nat) : Nat := 0x01000931BC + c * 0x100000
def pe_MODULATION_VALUE (c : Nat) : FieldRef := ⟨0x01000931BC + c * 0x100000, 0, 16⟩
/-- LRN_STATUS (R277). -/
def pe_LRN_STATUS (c : Nat) : Nat := 0x0100093040 + c * 0x100000
def pe_LRN_STATUS_APPLYING (c : Nat) : FieldRef := ⟨0x0100093040 + c * 0x100000, 16, 1⟩
def pe_LRN_STATUS_SET (c : Nat) : FieldRef := ⟨0x0100093040 + c * 0x100000, 8, 2⟩
def pe_LRN_STATUS_WAITING (c : Nat) : FieldRef := ⟨0x0100093040 + c * 0x100000, 0, 8⟩
/-- LRN_EVENTS (R277). -/
def pe_LRN_EVENTS (c : Nat) : Nat := 0x0100093044 + c * 0x100000
def pe_LRN_EVENTS_APPLY_ABORT (c : Nat) : FieldRef := ⟨0x0100093044 + c * 0x100000, 3, 1⟩
def pe_LRN_EVENTS_CFG_BUSY (c : Nat) : FieldRef := ⟨0x0100093044 + c * 0x100000, 2, 1⟩
def pe_LRN_EVENTS_NORM_ZERO (c : Nat) : FieldRef := ⟨0x0100093044 + c * 0x100000, 1, 1⟩
def pe_LRN_EVENTS_SAT (c : Nat) : FieldRef := ⟨0x0100093044 + c * 0x100000, 0, 1⟩
/-- LRN_SAT_COUNT (R277). -/
def pe_LRN_SAT_COUNT (c : Nat) : Nat := 0x0100093048 + c * 0x100000
def pe_LRN_SAT_COUNT_COUNT (c : Nat) : FieldRef := ⟨0x0100093048 + c * 0x100000, 0, 32⟩
/-- LRN_LAST_CYCLES (R277). -/
def pe_LRN_LAST_CYCLES (c : Nat) : Nat := 0x010009304C + c * 0x100000
def pe_LRN_LAST_CYCLES_CYCLES (c : Nat) : FieldRef := ⟨0x010009304C + c * 0x100000, 0, 32⟩
/-- LRN_MOD_SET (R277). -/
def pe_LRN_MOD_SET (c : Nat) : Nat := 0x0100093050 + c * 0x100000
def pe_LRN_MOD_SET_FROM_STEP (c : Nat) : FieldRef := ⟨0x0100093054 + c * 0x100000, 0, 32⟩
def pe_LRN_MOD_SET_SLOT (c : Nat) : FieldRef := ⟨0x0100093050 + c * 0x100000, 16, 9⟩
def pe_LRN_MOD_SET_VALUE (c : Nat) : FieldRef := ⟨0x0100093050 + c * 0x100000, 0, 16⟩
/-- INNINGS_DONE (R277). -/
def pe_INNINGS_DONE (c i : Nat) : Nat := 0x0100093060 + c * 0x100000 + i * 0x4
def pe_INNINGS_DONE_COUNT (c i : Nat) : FieldRef := ⟨0x0100093060 + c * 0x100000 + i * 0x4, 0, 32⟩
/-- LSET (R278). -/
def pe_LSET (c i : Nat) : Nat := 0x0100093080 + c * 0x100000 + i * 0x20
def pe_LSET_SLOT_FIRST (c i : Nat) : FieldRef := ⟨0x0100093080 + c * 0x100000 + i * 0x20, 0, 8⟩
def pe_LSET_SLOT_CNT (c i : Nat) : FieldRef := ⟨0x0100093080 + c * 0x100000 + i * 0x20, 8, 9⟩
def pe_LSET_WKIND (c i : Nat) : FieldRef := ⟨0x0100093080 + c * 0x100000 + i * 0x20, 17, 1⟩
def pe_LSET_NORM (c i : Nat) : FieldRef := ⟨0x0100093080 + c * 0x100000 + i * 0x20, 18, 2⟩
def pe_LSET_APPLY (c i : Nat) : FieldRef := ⟨0x0100093080 + c * 0x100000 + i * 0x20, 20, 1⟩
def pe_LSET_TRACE_EN (c i : Nat) : FieldRef := ⟨0x0100093080 + c * 0x100000 + i * 0x20, 21, 1⟩
def pe_LSET_DSH (c i : Nat) : FieldRef := ⟨0x0100093080 + c * 0x100000 + i * 0x20, 22, 4⟩
def pe_LSET_INN_LEN (c i : Nat) : FieldRef := ⟨0x0100093084 + c * 0x100000 + i * 0x20, 0, 16⟩
def pe_LSET_TARGET (c i : Nat) : FieldRef := ⟨0x0100093084 + c * 0x100000 + i * 0x20, 16, 16⟩
def pe_LSET_ALPHA_PRE (c i : Nat) : FieldRef := ⟨0x0100093088 + c * 0x100000 + i * 0x20, 0, 16⟩
def pe_LSET_ALPHA_POST (c i : Nat) : FieldRef := ⟨0x0100093088 + c * 0x100000 + i * 0x20, 16, 16⟩
def pe_LSET_INC_PRE (c i : Nat) : FieldRef := ⟨0x010009308C + c * 0x100000 + i * 0x20, 0, 16⟩
def pe_LSET_INC_POST (c i : Nat) : FieldRef := ⟨0x010009308C + c * 0x100000 + i * 0x20, 16, 16⟩
def pe_LSET_DELTA_BASE (c i : Nat) : FieldRef := ⟨0x0100093090 + c * 0x100000 + i * 0x20, 0, 18⟩
def pe_LSET_W_REF (c i : Nat) : FieldRef := ⟨0x0100093094 + c * 0x100000 + i * 0x20, 0, 18⟩
def pe_LSET_PT_BASE (c i : Nat) : FieldRef := ⟨0x0100093098 + c * 0x100000 + i * 0x20, 0, 15⟩
def pe_LSET_PT_AXON_LO (c i : Nat) : FieldRef := ⟨0x0100093098 + c * 0x100000 + i * 0x20, 16, 16⟩
def pe_LSET_PT_AXONS (c i : Nat) : FieldRef := ⟨0x010009309C + c * 0x100000 + i * 0x20, 0, 16⟩
/-- SLICE_HANDOVER (R430). -/
def sq_SLICE_HANDOVER (c : Nat) : Nat := 0x0100095030 + c * 0x100000
def sq_SLICE_HANDOVER_OWNER (c : Nat) : FieldRef := ⟨0x0100095030 + c * 0x100000, 7, 25⟩
def sq_SLICE_HANDOVER_BLOCK (c : Nat) : FieldRef := ⟨0x0100095030 + c * 0x100000, 0, 6⟩
/-- CTRL_VEC (R142). -/
def sq_CTRL_VEC (c i : Nat) : Nat := 0x0100095140 + c * 0x100000 + i * 0x4
def sq_CTRL_VEC_EN (c i : Nat) : FieldRef := ⟨0x0100095140 + c * 0x100000 + i * 0x4, 31, 1⟩
def sq_CTRL_VEC_ENTRY (c i : Nat) : FieldRef := ⟨0x0100095140 + c * 0x100000 + i * 0x4, 0, 12⟩
/-- CHAN_ROUTE (R169). -/
def sq_CHAN_ROUTE (c i : Nat) : Nat := 0x0100095400 + c * 0x100000 + i * 0x8
def sq_CHAN_ROUTE_CREDITS (c i : Nat) : FieldRef := ⟨0x0100095404 + c * 0x100000 + i * 0x8, 0, 5⟩
def sq_CHAN_ROUTE_VALID (c i : Nat) : FieldRef := ⟨0x0100095400 + c * 0x100000 + i * 0x8, 31, 1⟩
def sq_CHAN_ROUTE_CREDIT_INIT (c i : Nat) : FieldRef := ⟨0x0100095400 + c * 0x100000 + i * 0x8, 20, 5⟩
def sq_CHAN_ROUTE_EPOCH (c i : Nat) : FieldRef := ⟨0x0100095400 + c * 0x100000 + i * 0x8, 16, 4⟩
def sq_CHAN_ROUTE_DEST (c i : Nat) : FieldRef := ⟨0x0100095400 + c * 0x100000 + i * 0x8, 0, 16⟩
/-- QLEVEL (R169). -/
def sq_QLEVEL (c i : Nat) : Nat := 0x0100095500 + c * 0x100000 + i * 0x4
def sq_QLEVEL_OPEN (c i : Nat) : FieldRef := ⟨0x0100095500 + c * 0x100000 + i * 0x4, 31, 1⟩
def sq_QLEVEL_UNDERRUN (c i : Nat) : FieldRef := ⟨0x0100095500 + c * 0x100000 + i * 0x4, 29, 1⟩
def sq_QLEVEL_DENIED (c i : Nat) : FieldRef := ⟨0x0100095500 + c * 0x100000 + i * 0x4, 28, 1⟩
def sq_QLEVEL_OVERRUN (c i : Nat) : FieldRef := ⟨0x0100095500 + c * 0x100000 + i * 0x4, 27, 1⟩
def sq_QLEVEL_AVAIL (c i : Nat) : FieldRef := ⟨0x0100095500 + c * 0x100000 + i * 0x4, 0, 24⟩
/-- QDATA (R169). -/
def sq_QDATA (c i : Nat) : Nat := 0x0100095600 + c * 0x100000 + i * 0x8
def sq_QDATA_DATA (c i : Nat) : FieldRef := ⟨0x0100095600 + c * 0x100000 + i * 0x8, 0, 64⟩
/-- MBX_CFG (R170). -/
def mbx_MBX_CFG (i : Nat) : Nat := 0x0002400000 + i * 0x10
def mbx_MBX_CFG_CORE (i : Nat) : FieldRef := ⟨0x0002400000 + i * 0x10, 16, 10⟩
def mbx_MBX_CFG_DOORBELL (i : Nat) : FieldRef := ⟨0x0002400000 + i * 0x10, 8, 5⟩
def mbx_MBX_CFG_RECEIVER (i : Nat) : FieldRef := ⟨0x0002400000 + i * 0x10, 4, 4⟩
def mbx_MBX_CFG_SENDER (i : Nat) : FieldRef := ⟨0x0002400000 + i * 0x10, 0, 4⟩
/-- MBX_DATA (R170). -/
def mbx_MBX_DATA (i : Nat) : Nat := 0x0002400004 + i * 0x10
def mbx_MBX_DATA_MSG (i : Nat) : FieldRef := ⟨0x0002400004 + i * 0x10, 0, 32⟩
/-- MBX_STATUS (R170). -/
def mbx_MBX_STATUS (i : Nat) : Nat := 0x0002400008 + i * 0x10
def mbx_MBX_STATUS_CODE (i : Nat) : FieldRef := ⟨0x0002400008 + i * 0x10, 8, 8⟩
def mbx_MBX_STATUS_WRONG_PARTY (i : Nat) : FieldRef := ⟨0x0002400008 + i * 0x10, 5, 1⟩
def mbx_MBX_STATUS_BUSY_WRITE (i : Nat) : FieldRef := ⟨0x0002400008 + i * 0x10, 4, 1⟩
def mbx_MBX_STATUS_LATE_ACK (i : Nat) : FieldRef := ⟨0x0002400008 + i * 0x10, 3, 1⟩
def mbx_MBX_STATUS_TIMEOUT (i : Nat) : FieldRef := ⟨0x0002400008 + i * 0x10, 2, 1⟩
def mbx_MBX_STATUS_ACKED (i : Nat) : FieldRef := ⟨0x0002400008 + i * 0x10, 1, 1⟩
def mbx_MBX_STATUS_FULL (i : Nat) : FieldRef := ⟨0x0002400008 + i * 0x10, 0, 1⟩
/-- MBX_ACK (R170). -/
def mbx_MBX_ACK (i : Nat) : Nat := 0x000240000C + i * 0x10
def mbx_MBX_ACK_CODE (i : Nat) : FieldRef := ⟨0x000240000C + i * 0x10, 0, 8⟩
/-- DB_PEND (R170). -/
def mbx_DB_PEND (i : Nat) : Nat := 0x0002401000 + i * 0x8
def mbx_DB_PEND_PEND (i : Nat) : FieldRef := ⟨0x0002401000 + i * 0x8, 0, 32⟩
/-- DB_MASK (R170). -/
def mbx_DB_MASK (i : Nat) : Nat := 0x0002401004 + i * 0x8
def mbx_DB_MASK_MASK (i : Nat) : FieldRef := ⟨0x0002401004 + i * 0x8, 0, 32⟩
/-- MBX_TIMEOUT (R170). -/
def mbx_MBX_TIMEOUT : Nat := 0x0002401100
def mbx_MBX_TIMEOUT_US : FieldRef := ⟨0x0002401100, 0, 20⟩
/-- FAB_CFG (R200). -/
def fab_FAB_CFG : Nat := 0x0300C00000
def fab_FAB_CFG_STALL_LIMIT : FieldRef := ⟨0x0300C00000, 16, 8⟩
def fab_FAB_CFG_RETX_LIMIT : FieldRef := ⟨0x0300C00000, 12, 4⟩
def fab_FAB_CFG_RETX_TIMEOUT : FieldRef := ⟨0x0300C00000, 0, 12⟩
/-- FAB_DRAIN (R200). -/
def fab_FAB_DRAIN : Nat := 0x0300C00004
def fab_FAB_DRAIN_REQ : FieldRef := ⟨0x0300C00004, 0, 4⟩
/-- FAB_DRAIN_STATUS (R200). -/
def fab_FAB_DRAIN_STATUS : Nat := 0x0300C00008
def fab_FAB_DRAIN_STATUS_DRAINED : FieldRef := ⟨0x0300C00008, 0, 4⟩
/-- FAB_EVENTS (R200). -/
def fab_FAB_EVENTS : Nat := 0x0300C0000C
def fab_FAB_EVENTS_CRC_FAIL : FieldRef := ⟨0x0300C0000C, 4, 1⟩
def fab_FAB_EVENTS_HCHK_DROP : FieldRef := ⟨0x0300C0000C, 3, 1⟩
def fab_FAB_EVENTS_STALL : FieldRef := ⟨0x0300C0000C, 2, 1⟩
def fab_FAB_EVENTS_RETX_EXHAUSTED : FieldRef := ⟨0x0300C0000C, 1, 1⟩
def fab_FAB_EVENTS_TABLE_WRITE_IGNORED : FieldRef := ⟨0x0300C0000C, 0, 1⟩
/-- CRC_FAIL_COUNT (R200). -/
def fab_CRC_FAIL_COUNT : Nat := 0x0300C00010
def fab_CRC_FAIL_COUNT_COUNT : FieldRef := ⟨0x0300C00010, 0, 32⟩
/-- HCHK_DROP_COUNT (R200). -/
def fab_HCHK_DROP_COUNT : Nat := 0x0300C00014
def fab_HCHK_DROP_COUNT_COUNT : FieldRef := ⟨0x0300C00014, 0, 32⟩
/-- RETX_COUNT (R200). -/
def fab_RETX_COUNT : Nat := 0x0300C00018
def fab_RETX_COUNT_COUNT : FieldRef := ⟨0x0300C00018, 0, 32⟩
/-- DUP_COUNT (R200). -/
def fab_DUP_COUNT : Nat := 0x0300C0001C
def fab_DUP_COUNT_COUNT : FieldRef := ⟨0x0300C0001C, 0, 32⟩
/-- RTR_ALT (R201). -/
def rtr_RTR_ALT (b i : Nat) : Nat := 0x0300800000 + b * 0x1000 + i * 0x4
def rtr_RTR_ALT_ALT (b i : Nat) : FieldRef := ⟨0x0300800000 + b * 0x1000 + i * 0x4, 0, 32⟩
/-- RTR_STATUS (R201). -/
def rtr_RTR_STATUS (b : Nat) : Nat := 0x0300800080 + b * 0x1000
def rtr_RTR_STATUS_PORT_PRESENT (b : Nat) : FieldRef := ⟨0x0300800080 + b * 0x1000, 8, 6⟩
def rtr_RTR_STATUS_PORT_FAILED (b : Nat) : FieldRef := ⟨0x0300800080 + b * 0x1000, 0, 6⟩
/-- RTR_EVENTS (R201). -/
def rtr_RTR_EVENTS (b : Nat) : Nat := 0x0300800084 + b * 0x1000
def rtr_RTR_EVENTS_MISROUTE (b : Nat) : FieldRef := ⟨0x0300800084 + b * 0x1000, 7, 1⟩
def rtr_RTR_EVENTS_STALL (b : Nat) : FieldRef := ⟨0x0300800084 + b * 0x1000, 6, 1⟩
def rtr_RTR_EVENTS_HCHK (b : Nat) : FieldRef := ⟨0x0300800084 + b * 0x1000, 0, 6⟩
/-- RTR_STALL_CYCLES (R201). -/
def rtr_RTR_STALL_CYCLES (b : Nat) : Nat := 0x0300800088 + b * 0x1000
def rtr_RTR_STALL_CYCLES_COUNT (b : Nat) : FieldRef := ⟨0x0300800088 + b * 0x1000, 0, 64⟩
/-- BLK_CTRL (R40). -/
def tb_BLK_CTRL : Nat := 0x0305F00000
def tb_BLK_CTRL_EN : FieldRef := ⟨0x0305F00000, 0, 1⟩
/-- BLK_STATUS (R40). -/
def tb_BLK_STATUS : Nat := 0x0305F00004
def tb_BLK_STATUS_CFG_DEFAULTED : FieldRef := ⟨0x0305F00004, 2, 1⟩
def tb_BLK_STATUS_WRITE_IGNORED : FieldRef := ⟨0x0305F00004, 1, 1⟩
def tb_BLK_STATUS_ENABLED : FieldRef := ⟨0x0305F00004, 0, 1⟩
/-- TB_CFG (R227). -/
def tb_TB_CFG : Nat := 0x0305F00008
def tb_TB_CFG_START_SRC : FieldRef := ⟨0x0305F00008, 0, 2⟩
/-- TB_INTERVAL (R227). -/
def tb_TB_INTERVAL : Nat := 0x0305F0000C
def tb_TB_INTERVAL_NS : FieldRef := ⟨0x0305F0000C, 0, 30⟩
/-- TB_WICKET (R227). -/
def tb_TB_WICKET : Nat := 0x0305F00010
def tb_TB_WICKET_WICKET : FieldRef := ⟨0x0305F00010, 0, 64⟩
/-- TB_STATE (R227). -/
def tb_TB_STATE : Nat := 0x0305F00018
def tb_TB_STATE_STATE : FieldRef := ⟨0x0305F00018, 30, 2⟩
def tb_TB_STATE_PENDING : FieldRef := ⟨0x0305F00018, 0, 17⟩
/-- STEP_SLIP_LIMIT (R227). -/
def tb_STEP_SLIP_LIMIT : Nat := 0x0305F0001C
def tb_STEP_SLIP_LIMIT_NS : FieldRef := ⟨0x0305F0001C, 0, 30⟩
/-- STEP_STRETCH (R227). -/
def tb_STEP_STRETCH : Nat := 0x0305F00020
def tb_STEP_STRETCH_VALUE : FieldRef := ⟨0x0305F00020, 0, 32⟩
/-- STRETCH_MAX (R227). -/
def tb_STRETCH_MAX : Nat := 0x0305F00024
def tb_STRETCH_MAX_VALUE : FieldRef := ⟨0x0305F00024, 0, 32⟩
/-- STRETCH_COUNT (R227). -/
def tb_STRETCH_COUNT : Nat := 0x0305F00028
def tb_STRETCH_COUNT_COUNT : FieldRef := ⟨0x0305F00028, 0, 32⟩
/-- TB_EVENTS (R227). -/
def tb_TB_EVENTS : Nat := 0x0305F0002C
def tb_TB_EVENTS_CLAMPED : FieldRef := ⟨0x0305F0002C, 2, 1⟩
def tb_TB_EVENTS_OVERRUN : FieldRef := ⟨0x0305F0002C, 1, 1⟩
def tb_TB_EVENTS_STRETCH : FieldRef := ⟨0x0305F0002C, 0, 1⟩
/-- OVERRUN_CTX (R227). -/
def tb_OVERRUN_CTX : Nat := 0x0305F00030
def tb_OVERRUN_CTX_VALID : FieldRef := ⟨0x0305F00030, 31, 1⟩
def tb_OVERRUN_CTX_CTX : FieldRef := ⟨0x0305F00030, 0, 16⟩
/-- DET_CTRL (R227). -/
def tb_DET_CTRL : Nat := 0x0305F00034
def tb_DET_CTRL_LB_LOCK : FieldRef := ⟨0x0305F00034, 0, 1⟩
/-- BLK_CTRL (R40). -/
def adm_BLK_CTRL : Nat := 0x0305800000
def adm_BLK_CTRL_EN : FieldRef := ⟨0x0305800000, 0, 1⟩
/-- BLK_STATUS (R40). -/
def adm_BLK_STATUS : Nat := 0x0305800004
def adm_BLK_STATUS_CFG_DEFAULTED : FieldRef := ⟨0x0305800004, 2, 1⟩
def adm_BLK_STATUS_WRITE_IGNORED : FieldRef := ⟨0x0305800004, 1, 1⟩
def adm_BLK_STATUS_ENABLED : FieldRef := ⟨0x0305800004, 0, 1⟩
/-- ADM_CFG (R228). -/
def adm_ADM_CFG : Nat := 0x0305800008
def adm_ADM_CFG_RING_LOG2 : FieldRef := ⟨0x0305800008, 1, 4⟩
def adm_ADM_CFG_ENFORCE : FieldRef := ⟨0x0305800008, 0, 1⟩
/-- ADM_RING_BASE (R228). -/
def adm_ADM_RING_BASE : Nat := 0x0305800010
def adm_ADM_RING_BASE_BASE : FieldRef := ⟨0x0305800010, 12, 28⟩
/-- ADM_RING_PROD (R228). -/
def adm_ADM_RING_PROD : Nat := 0x0305800018
def adm_ADM_RING_PROD_PROD : FieldRef := ⟨0x0305800018, 0, 32⟩
/-- ADM_RING_CONS (R228). -/
def adm_ADM_RING_CONS : Nat := 0x030580001C
def adm_ADM_RING_CONS_CONS : FieldRef := ⟨0x030580001C, 0, 32⟩
/-- ADM_ACCEPTED (R228). -/
def adm_ADM_ACCEPTED : Nat := 0x0305800020
def adm_ADM_ACCEPTED_COUNT : FieldRef := ⟨0x0305800020, 0, 64⟩
/-- ADM_REFUSED (R228). -/
def adm_ADM_REFUSED : Nat := 0x0305800028
def adm_ADM_REFUSED_COUNT : FieldRef := ⟨0x0305800028, 0, 64⟩
/-- ADM_EVENTS (R228). -/
def adm_ADM_EVENTS : Nat := 0x0305800030
def adm_ADM_EVENTS_HOLD_FULL : FieldRef := ⟨0x0305800030, 3, 1⟩
def adm_ADM_EVENTS_CONS_ERR : FieldRef := ⟨0x0305800030, 2, 1⟩
def adm_ADM_EVENTS_RING_OVERFLOW : FieldRef := ⟨0x0305800030, 1, 1⟩
def adm_ADM_EVENTS_REFUSED : FieldRef := ⟨0x0305800030, 0, 1⟩
/-- ADM_RING_LOST (R228). -/
def adm_ADM_RING_LOST : Nat := 0x0305800034
def adm_ADM_RING_LOST_COUNT : FieldRef := ⟨0x0305800034, 0, 32⟩
/-- ADM_HOLD_LEVEL (R228). -/
def adm_ADM_HOLD_LEVEL : Nat := 0x0305800038
def adm_ADM_HOLD_LEVEL_LEVEL : FieldRef := ⟨0x0305800038, 0, 14⟩
/-- ADM_SRC_REFUSED (R228). -/
def adm_ADM_SRC_REFUSED (i : Nat) : Nat := 0x0305800040 + i * 0x4
def adm_ADM_SRC_REFUSED_COUNT (i : Nat) : FieldRef := ⟨0x0305800040 + i * 0x4, 0, 32⟩
/-- BLK_CTRL (R40). -/
def bdu_BLK_CTRL (b : Nat) : Nat := 0x0240008000 + b * 0x10000
def bdu_BLK_CTRL_EN (b : Nat) : FieldRef := ⟨0x0240008000 + b * 0x10000, 0, 1⟩
/-- BLK_STATUS (R40). -/
def bdu_BLK_STATUS (b : Nat) : Nat := 0x0240008004 + b * 0x10000
def bdu_BLK_STATUS_CFG_DEFAULTED (b : Nat) : FieldRef := ⟨0x0240008004 + b * 0x10000, 2, 1⟩
def bdu_BLK_STATUS_WRITE_IGNORED (b : Nat) : FieldRef := ⟨0x0240008004 + b * 0x10000, 1, 1⟩
def bdu_BLK_STATUS_ENABLED (b : Nat) : FieldRef := ⟨0x0240008004 + b * 0x10000, 0, 1⟩
/-- BDU_CFG (R257). -/
def bdu_BDU_CFG (b : Nat) : Nat := 0x0240008008 + b * 0x10000
def bdu_BDU_CFG_LAYER_BASE (b : Nat) : FieldRef := ⟨0x0240008008 + b * 0x10000, 0, 14⟩
/-- BDU_REF (R257). -/
def bdu_BDU_REF (b : Nat) : Nat := 0x024000800C + b * 0x10000
def bdu_BDU_REF_LOG2 (b : Nat) : FieldRef := ⟨0x024000800C + b * 0x10000, 8, 3⟩
def bdu_BDU_REF_BASE (b : Nat) : FieldRef := ⟨0x024000800C + b * 0x10000, 0, 8⟩
/-- BDU_STATUS (R257). -/
def bdu_BDU_STATUS (b : Nat) : Nat := 0x0240008010 + b * 0x10000
def bdu_BDU_STATUS_QUEUED (b : Nat) : FieldRef := ⟨0x0240008010 + b * 0x10000, 8, 7⟩
def bdu_BDU_STATUS_RUNNING (b : Nat) : FieldRef := ⟨0x0240008010 + b * 0x10000, 6, 1⟩
def bdu_BDU_STATUS_LAYER (b : Nat) : FieldRef := ⟨0x0240008010 + b * 0x10000, 0, 6⟩
/-- BDU_EVENTS (R257). -/
def bdu_BDU_EVENTS (b : Nat) : Nat := 0x0240008014 + b * 0x10000
def bdu_BDU_EVENTS_CONS_ERR (b : Nat) : FieldRef := ⟨0x0240008014 + b * 0x10000, 5, 1⟩
def bdu_BDU_EVENTS_REFUSED (b : Nat) : FieldRef := ⟨0x0240008014 + b * 0x10000, 4, 1⟩
def bdu_BDU_EVENTS_SAT (b : Nat) : FieldRef := ⟨0x0240008014 + b * 0x10000, 3, 1⟩
def bdu_BDU_EVENTS_NAN_IN (b : Nat) : FieldRef := ⟨0x0240008014 + b * 0x10000, 2, 1⟩
def bdu_BDU_EVENTS_ECC (b : Nat) : FieldRef := ⟨0x0240008014 + b * 0x10000, 1, 1⟩
def bdu_BDU_EVENTS_BAD_DESC (b : Nat) : FieldRef := ⟨0x0240008014 + b * 0x10000, 0, 1⟩
/-- BDU_FAULT_INFO (R257). -/
def bdu_BDU_FAULT_INFO (b : Nat) : Nat := 0x0240008018 + b * 0x10000
def bdu_BDU_FAULT_INFO_VALID (b : Nat) : FieldRef := ⟨0x0240008018 + b * 0x10000, 31, 1⟩
def bdu_BDU_FAULT_INFO_CASE (b : Nat) : FieldRef := ⟨0x0240008018 + b * 0x10000, 8, 4⟩
def bdu_BDU_FAULT_INFO_LAYER (b : Nat) : FieldRef := ⟨0x0240008018 + b * 0x10000, 0, 6⟩
/-- ACC_SAT_COUNT (R257). -/
def bdu_ACC_SAT_COUNT (b : Nat) : Nat := 0x0240008020 + b * 0x10000
def bdu_ACC_SAT_COUNT_COUNT (b : Nat) : FieldRef := ⟨0x0240008020 + b * 0x10000, 0, 32⟩
/-- OUT_SAT_COUNT (R257). -/
def bdu_OUT_SAT_COUNT (b : Nat) : Nat := 0x0240008024 + b * 0x10000
def bdu_OUT_SAT_COUNT_COUNT (b : Nat) : FieldRef := ⟨0x0240008024 + b * 0x10000, 0, 32⟩
/-- NAN_IN_COUNT (R257). -/
def bdu_NAN_IN_COUNT (b : Nat) : Nat := 0x0240008028 + b * 0x10000
def bdu_NAN_IN_COUNT_COUNT (b : Nat) : FieldRef := ⟨0x0240008028 + b * 0x10000, 0, 32⟩
/-- REFUSED_COUNT (R257). -/
def bdu_REFUSED_COUNT (b : Nat) : Nat := 0x024000802C + b * 0x10000
def bdu_REFUSED_COUNT_COUNT (b : Nat) : FieldRef := ⟨0x024000802C + b * 0x10000, 0, 32⟩
/-- REF_LOST_COUNT (R257). -/
def bdu_REF_LOST_COUNT (b : Nat) : Nat := 0x0240008030 + b * 0x10000
def bdu_REF_LOST_COUNT_COUNT (b : Nat) : FieldRef := ⟨0x0240008030 + b * 0x10000, 0, 32⟩
/-- REF_RING_PROD (R257). -/
def bdu_REF_RING_PROD (b : Nat) : Nat := 0x0240008038 + b * 0x10000
def bdu_REF_RING_PROD_PROD (b : Nat) : FieldRef := ⟨0x0240008038 + b * 0x10000, 0, 32⟩
/-- REF_RING_CONS (R257). -/
def bdu_REF_RING_CONS (b : Nat) : Nat := 0x024000803C + b * 0x10000
def bdu_REF_RING_CONS_CONS (b : Nat) : FieldRef := ⟨0x024000803C + b * 0x10000, 0, 32⟩
/-- MAC_COUNT (R257). -/
def bdu_MAC_COUNT (b : Nat) : Nat := 0x0240008040 + b * 0x10000
def bdu_MAC_COUNT_COUNT (b : Nat) : FieldRef := ⟨0x0240008040 + b * 0x10000, 0, 64⟩
/-- BUSY_CYCLES (R257). -/
def bdu_BUSY_CYCLES (b : Nat) : Nat := 0x0240008048 + b * 0x10000
def bdu_BUSY_CYCLES_COUNT (b : Nat) : FieldRef := ⟨0x0240008048 + b * 0x10000, 0, 64⟩
/-- ENC_ROUTE (R257). -/
def bdu_ENC_ROUTE (b i : Nat) : Nat := 0x0240008400 + b * 0x10000 + i * 0x10
def bdu_ENC_ROUTE_FIRST (b i : Nat) : FieldRef := ⟨0x0240008400 + b * 0x10000 + i * 0x10, 0, 20⟩
def bdu_ENC_ROUTE_LAST (b i : Nat) : FieldRef := ⟨0x0240008400 + b * 0x10000 + i * 0x10, 20, 20⟩
def bdu_ENC_ROUTE_DX (b i : Nat) : FieldRef := ⟨0x0240008404 + b * 0x10000 + i * 0x10, 8, 5⟩
def bdu_ENC_ROUTE_DY (b i : Nat) : FieldRef := ⟨0x0240008404 + b * 0x10000 + i * 0x10, 13, 5⟩
def bdu_ENC_ROUTE_MC (b i : Nat) : FieldRef := ⟨0x0240008404 + b * 0x10000 + i * 0x10, 18, 1⟩
def bdu_ENC_ROUTE_VALID (b i : Nat) : FieldRef := ⟨0x0240008404 + b * 0x10000 + i * 0x10, 19, 1⟩
def bdu_ENC_ROUTE_EPOCH (b i : Nat) : FieldRef := ⟨0x0240008404 + b * 0x10000 + i * 0x10, 20, 4⟩
def bdu_ENC_ROUTE_DLY (b i : Nat) : FieldRef := ⟨0x0240008404 + b * 0x10000 + i * 0x10, 24, 5⟩
def bdu_ENC_ROUTE_AXON_BASE (b i : Nat) : FieldRef := ⟨0x0240008408 + b * 0x10000 + i * 0x10, 0, 16⟩
/-- FM_STATUS (R352). -/
def fmBlk_FM_STATUS (b : Nat) : Nat := 0x0240004000 + b * 0x10000
def fmBlk_FM_STATUS_USED (b : Nat) : FieldRef := ⟨0x0240004000 + b * 0x10000, 16, 7⟩
def fmBlk_FM_STATUS_OLDEST (b : Nat) : FieldRef := ⟨0x0240004000 + b * 0x10000, 0, 7⟩
/-- FM_EVENTS (R352). -/
def fmBlk_FM_EVENTS (b : Nat) : Nat := 0x0240004004 + b * 0x10000
def fmBlk_FM_EVENTS_EVENTS (b : Nat) : FieldRef := ⟨0x0240004004 + b * 0x10000, 0, 3⟩
/-- FM_ACK (R352). -/
def fmBlk_FM_ACK (b : Nat) : Nat := 0x0240004008 + b * 0x10000
def fmBlk_FM_ACK_INDEX (b : Nat) : FieldRef := ⟨0x0240004008 + b * 0x10000, 0, 6⟩
/-- FM_LOST_COUNT (R352). -/
def fmBlk_FM_LOST_COUNT (b : Nat) : Nat := 0x024000400C + b * 0x10000
def fmBlk_FM_LOST_COUNT_COUNT (b : Nat) : FieldRef := ⟨0x024000400C + b * 0x10000, 0, 32⟩
/-- FM_REC (R352). -/
def fmBlk_FM_REC (b i : Nat) : Nat := 0x0240004100 + b * 0x10000 + i * 0x10
def fmBlk_FM_REC_RECORD (b i : Nat) : FieldRef := ⟨0x0240004100 + b * 0x10000 + i * 0x10, 0, 128⟩
/-- FM_STATUS (R352). -/
def fmReg_FM_STATUS (b : Nat) : Nat := 0x030A000000 + b * 0x10000
def fmReg_FM_STATUS_USED (b : Nat) : FieldRef := ⟨0x030A000000 + b * 0x10000, 16, 7⟩
def fmReg_FM_STATUS_OLDEST (b : Nat) : FieldRef := ⟨0x030A000000 + b * 0x10000, 0, 7⟩
/-- FM_EVENTS (R352). -/
def fmReg_FM_EVENTS (b : Nat) : Nat := 0x030A000004 + b * 0x10000
def fmReg_FM_EVENTS_EVENTS (b : Nat) : FieldRef := ⟨0x030A000004 + b * 0x10000, 0, 3⟩
/-- FM_ACK (R352). -/
def fmReg_FM_ACK (b : Nat) : Nat := 0x030A000008 + b * 0x10000
def fmReg_FM_ACK_INDEX (b : Nat) : FieldRef := ⟨0x030A000008 + b * 0x10000, 0, 6⟩
/-- FM_LOST_COUNT (R352). -/
def fmReg_FM_LOST_COUNT (b : Nat) : Nat := 0x030A00000C + b * 0x10000
def fmReg_FM_LOST_COUNT_COUNT (b : Nat) : FieldRef := ⟨0x030A00000C + b * 0x10000, 0, 32⟩
/-- FM_REC (R352). -/
def fmReg_FM_REC (b i : Nat) : Nat := 0x030A000100 + b * 0x10000 + i * 0x10
def fmReg_FM_REC_RECORD (b i : Nat) : FieldRef := ⟨0x030A000100 + b * 0x10000 + i * 0x10, 0, 128⟩
/-- FM_STATUS (R352). -/
def fmChip_FM_STATUS : Nat := 0x030B000000
def fmChip_FM_STATUS_USED : FieldRef := ⟨0x030B000000, 16, 7⟩
def fmChip_FM_STATUS_OLDEST : FieldRef := ⟨0x030B000000, 0, 7⟩
/-- FM_EVENTS (R352). -/
def fmChip_FM_EVENTS : Nat := 0x030B000004
def fmChip_FM_EVENTS_EVENTS : FieldRef := ⟨0x030B000004, 0, 3⟩
/-- FM_ACK (R352). -/
def fmChip_FM_ACK : Nat := 0x030B000008
def fmChip_FM_ACK_INDEX : FieldRef := ⟨0x030B000008, 0, 6⟩
/-- FM_LOST_COUNT (R352). -/
def fmChip_FM_LOST_COUNT : Nat := 0x030B00000C
def fmChip_FM_LOST_COUNT_COUNT : FieldRef := ⟨0x030B00000C, 0, 32⟩
/-- FM_REC (R352). -/
def fmChip_FM_REC (i : Nat) : Nat := 0x030B000100 + i * 0x10
def fmChip_FM_REC_RECORD (i : Nat) : FieldRef := ⟨0x030B000100 + i * 0x10, 0, 128⟩
/-- BLK_CTRL (R40). -/
def link_BLK_CTRL (b : Nat) : Nat := 0x0301000000 + b * 0x10000
def link_BLK_CTRL_EN (b : Nat) : FieldRef := ⟨0x0301000000 + b * 0x10000, 0, 1⟩
/-- BLK_STATUS (R40). -/
def link_BLK_STATUS (b : Nat) : Nat := 0x0301000004 + b * 0x10000
def link_BLK_STATUS_CFG_DEFAULTED (b : Nat) : FieldRef := ⟨0x0301000004 + b * 0x10000, 2, 1⟩
def link_BLK_STATUS_WRITE_IGNORED (b : Nat) : FieldRef := ⟨0x0301000004 + b * 0x10000, 1, 1⟩
def link_BLK_STATUS_ENABLED (b : Nat) : FieldRef := ⟨0x0301000004 + b * 0x10000, 0, 1⟩
/-- JESD_CFG0 (R313). -/
def link_JESD_CFG0 (b : Nat) : Nat := 0x0301000008 + b * 0x10000
def link_JESD_CFG0_SCR (b : Nat) : FieldRef := ⟨0x0301000008 + b * 0x10000, 28, 1⟩
def link_JESD_CFG0_HD (b : Nat) : FieldRef := ⟨0x0301000008 + b * 0x10000, 27, 1⟩
def link_JESD_CFG0_CS (b : Nat) : FieldRef := ⟨0x0301000008 + b * 0x10000, 25, 2⟩
def link_JESD_CFG0_NP (b : Nat) : FieldRef := ⟨0x0301000008 + b * 0x10000, 23, 2⟩
def link_JESD_CFG0_N_M1 (b : Nat) : FieldRef := ⟨0x0301000008 + b * 0x10000, 19, 4⟩
def link_JESD_CFG0_S_M1 (b : Nat) : FieldRef := ⟨0x0301000008 + b * 0x10000, 14, 5⟩
def link_JESD_CFG0_F_M1 (b : Nat) : FieldRef := ⟨0x0301000008 + b * 0x10000, 9, 5⟩
def link_JESD_CFG0_M_M1 (b : Nat) : FieldRef := ⟨0x0301000008 + b * 0x10000, 5, 4⟩
def link_JESD_CFG0_L_M1 (b : Nat) : FieldRef := ⟨0x0301000008 + b * 0x10000, 1, 4⟩
def link_JESD_CFG0_STD (b : Nat) : FieldRef := ⟨0x0301000008 + b * 0x10000, 0, 1⟩
/-- JESD_CFG1 (R313). -/
def link_JESD_CFG1 (b : Nat) : Nat := 0x030100000C + b * 0x10000
def link_JESD_CFG1_RBD (b : Nat) : FieldRef := ⟨0x030100000C + b * 0x10000, 9, 6⟩
def link_JESD_CFG1_E_M1 (b : Nat) : FieldRef := ⟨0x030100000C + b * 0x10000, 5, 4⟩
def link_JESD_CFG1_K_M1 (b : Nat) : FieldRef := ⟨0x030100000C + b * 0x10000, 0, 5⟩
/-- LANE_MAP (R313). -/
def link_LANE_MAP (b i : Nat) : Nat := 0x0301000010 + b * 0x10000 + i * 0x4
def link_LANE_MAP_LANE (b i : Nat) : FieldRef := ⟨0x0301000010 + b * 0x10000 + i * 0x4, 0, 30⟩
/-- SEF_CFG (R313). -/
def link_SEF_CFG (b : Nat) : Nat := 0x0301000018 + b * 0x10000
def link_SEF_CFG_WIN_LOG2 (b : Nat) : FieldRef := ⟨0x0301000018 + b * 0x10000, 13, 4⟩
def link_SEF_CFG_CH_SH (b : Nat) : FieldRef := ⟨0x0301000018 + b * 0x10000, 9, 4⟩
def link_SEF_CFG_TAPS (b : Nat) : FieldRef := ⟨0x0301000018 + b * 0x10000, 7, 2⟩
def link_SEF_CFG_BINS_LOG2 (b : Nat) : FieldRef := ⟨0x0301000018 + b * 0x10000, 3, 4⟩
def link_SEF_CFG_OS2 (b : Nat) : FieldRef := ⟨0x0301000018 + b * 0x10000, 2, 1⟩
def link_SEF_CFG_CPLX (b : Nat) : FieldRef := ⟨0x0301000018 + b * 0x10000, 1, 1⟩
def link_SEF_CFG_CHAN (b : Nat) : FieldRef := ⟨0x0301000018 + b * 0x10000, 0, 1⟩
/-- SEF_TIMING (R313). -/
def link_SEF_TIMING (b : Nat) : Nat := 0x030100001C + b * 0x10000
def link_SEF_TIMING_T_BASE (b : Nat) : FieldRef := ⟨0x030100001C + b * 0x10000, 16, 10⟩
def link_SEF_TIMING_SLOTS (b : Nat) : FieldRef := ⟨0x030100001C + b * 0x10000, 0, 16⟩
/-- LINK_STATUS (R313). -/
def link_LINK_STATUS (b : Nat) : Nat := 0x0301000020 + b * 0x10000
def link_LINK_STATUS_LANE_LOCK (b : Nat) : FieldRef := ⟨0x0301000020 + b * 0x10000, 8, 12⟩
def link_LINK_STATUS_STATE (b : Nat) : FieldRef := ⟨0x0301000020 + b * 0x10000, 0, 3⟩
/-- LINK_EVENTS (R313). -/
def link_LINK_EVENTS (b : Nat) : Nat := 0x0301000024 + b * 0x10000
def link_LINK_EVENTS_BUF_OVF (b : Nat) : FieldRef := ⟨0x0301000024 + b * 0x10000, 5, 1⟩
def link_LINK_EVENTS_ILAS_MISMATCH (b : Nat) : FieldRef := ⟨0x0301000024 + b * 0x10000, 4, 1⟩
def link_LINK_EVENTS_CFG_ERR (b : Nat) : FieldRef := ⟨0x0301000024 + b * 0x10000, 3, 1⟩
def link_LINK_EVENTS_SYSREF_MISALIGN (b : Nat) : FieldRef := ⟨0x0301000024 + b * 0x10000, 2, 1⟩
def link_LINK_EVENTS_CRC (b : Nat) : FieldRef := ⟨0x0301000024 + b * 0x10000, 1, 1⟩
def link_LINK_EVENTS_LINK_DOWN (b : Nat) : FieldRef := ⟨0x0301000024 + b * 0x10000, 0, 1⟩
/-- CFG_ERR_INFO (R313). -/
def link_CFG_ERR_INFO (b : Nat) : Nat := 0x0301000028 + b * 0x10000
def link_CFG_ERR_INFO_CODE (b : Nat) : FieldRef := ⟨0x0301000028 + b * 0x10000, 0, 4⟩
/-- LINK_MARGIN (R313). -/
def link_LINK_MARGIN (b : Nat) : Nat := 0x030100002C + b * 0x10000
def link_LINK_MARGIN_MARGIN (b : Nat) : FieldRef := ⟨0x030100002C + b * 0x10000, 8, 8⟩
def link_LINK_MARGIN_SKEW (b : Nat) : FieldRef := ⟨0x030100002C + b * 0x10000, 0, 8⟩
/-- CRC_ERR_COUNT (R313). -/
def link_CRC_ERR_COUNT (b : Nat) : Nat := 0x0301000030 + b * 0x10000
def link_CRC_ERR_COUNT_COUNT (b : Nat) : FieldRef := ⟨0x0301000030 + b * 0x10000, 0, 32⟩
/-- RESYNC_COUNT (R313). -/
def link_RESYNC_COUNT (b : Nat) : Nat := 0x0301000034 + b * 0x10000
def link_RESYNC_COUNT_COUNT (b : Nat) : FieldRef := ⟨0x0301000034 + b * 0x10000, 0, 32⟩
/-- EDGE_MERGED_COUNT (R313). -/
def link_EDGE_MERGED_COUNT (b : Nat) : Nat := 0x0301000038 + b * 0x10000
def link_EDGE_MERGED_COUNT_COUNT (b : Nat) : FieldRef := ⟨0x0301000038 + b * 0x10000, 0, 32⟩
/-- EVENTS_OUT (R313). -/
def link_EVENTS_OUT (b : Nat) : Nat := 0x0301000040 + b * 0x10000
def link_EVENTS_OUT_COUNT (b : Nat) : FieldRef := ⟨0x0301000040 + b * 0x10000, 0, 64⟩
/-- INST (R299). -/
def linkInst_INST (b i : Nat) : Nat := 0x0301008000 + b * 0x10000 + i * 0x10
def linkInst_INST_ENC (b i : Nat) : FieldRef := ⟨0x0301008000 + b * 0x10000 + i * 0x10, 0, 2⟩
def linkInst_INST_VALID (b i : Nat) : FieldRef := ⟨0x0301008000 + b * 0x10000 + i * 0x10, 2, 1⟩
def linkInst_INST_GRADED (b i : Nat) : FieldRef := ⟨0x0301008000 + b * 0x10000 + i * 0x10, 3, 1⟩
def linkInst_INST_SRC (b i : Nat) : FieldRef := ⟨0x0301008000 + b * 0x10000 + i * 0x10, 4, 10⟩
def linkInst_INST_CTX (b i : Nat) : FieldRef := ⟨0x0301008000 + b * 0x10000 + i * 0x10, 16, 16⟩
def linkInst_INST_AXON_BASE (b i : Nat) : FieldRef := ⟨0x0301008004 + b * 0x10000 + i * 0x10, 0, 16⟩
def linkInst_INST_DLY (b i : Nat) : FieldRef := ⟨0x0301008004 + b * 0x10000 + i * 0x10, 16, 5⟩
def linkInst_INST_P1 (b i : Nat) : FieldRef := ⟨0x0301008008 + b * 0x10000 + i * 0x10, 0, 16⟩
def linkInst_INST_P2 (b i : Nat) : FieldRef := ⟨0x0301008008 + b * 0x10000 + i * 0x10, 16, 16⟩
def linkInst_INST_P3 (b i : Nat) : FieldRef := ⟨0x030100800C + b * 0x10000 + i * 0x10, 0, 16⟩
def linkInst_INST_P4 (b i : Nat) : FieldRef := ⟨0x030100800C + b * 0x10000 + i * 0x10, 16, 16⟩
/-- COEF (R313). -/
def linkCoef_COEF (b i : Nat) : Nat := 0x0301800000 + b * 0x10000 + i * 0x4
def linkCoef_COEF_H (b i : Nat) : FieldRef := ⟨0x0301800000 + b * 0x10000 + i * 0x4, 0, 32⟩
/-- JES_FREQ (R314). -/
def jesd_JES_FREQ : Nat := 0x0301F00000
def jesd_JES_FREQ_KHZ : FieldRef := ⟨0x0301F00000, 0, 20⟩
/-- SYSREF_CFG (R314). -/
def jesd_SYSREF_CFG : Nat := 0x0301F00004
def jesd_SYSREF_CFG_REALIGN : FieldRef := ⟨0x0301F00004, 3, 1⟩
def jesd_SYSREF_CFG_ARM : FieldRef := ⟨0x0301F00004, 2, 1⟩
def jesd_SYSREF_CFG_MODE : FieldRef := ⟨0x0301F00004, 0, 2⟩
/-- SYSREF_STATUS (R314). -/
def jesd_SYSREF_STATUS : Nat := 0x0301F00008
def jesd_SYSREF_STATUS_LOCKED : FieldRef := ⟨0x0301F00008, 1, 1⟩
def jesd_SYSREF_STATUS_SEEN : FieldRef := ⟨0x0301F00008, 0, 1⟩
/-- LANE_POL (R314). -/
def jesd_LANE_POL : Nat := 0x0301F0000C
def jesd_LANE_POL_INV : FieldRef := ⟨0x0301F0000C, 0, 24⟩
/-- LANE_LOCK (R314). -/
def jesd_LANE_LOCK : Nat := 0x0301F00010
def jesd_LANE_LOCK_LOCK : FieldRef := ⟨0x0301F00010, 0, 24⟩
/-- BLK_CTRL (R40). -/
def eip_BLK_CTRL : Nat := 0x0302000000
def eip_BLK_CTRL_EN : FieldRef := ⟨0x0302000000, 0, 1⟩
/-- BLK_STATUS (R40). -/
def eip_BLK_STATUS : Nat := 0x0302000004
def eip_BLK_STATUS_CFG_DEFAULTED : FieldRef := ⟨0x0302000004, 2, 1⟩
def eip_BLK_STATUS_WRITE_IGNORED : FieldRef := ⟨0x0302000004, 1, 1⟩
def eip_BLK_STATUS_ENABLED : FieldRef := ⟨0x0302000004, 0, 1⟩
/-- EIP_CFG (R315). -/
def eip_EIP_CFG : Nat := 0x0302000008
def eip_EIP_CFG_POL : FieldRef := ⟨0x0302000008, 8, 8⟩
def eip_EIP_CFG_RELIABLE : FieldRef := ⟨0x0302000008, 4, 1⟩
def eip_EIP_CFG_LANES : FieldRef := ⟨0x0302000008, 2, 2⟩
def eip_EIP_CFG_RATE : FieldRef := ⟨0x0302000008, 0, 2⟩
/-- EIP_STATUS (R315). -/
def eip_EIP_STATUS : Nat := 0x030200000C
def eip_EIP_STATUS_LEVEL : FieldRef := ⟨0x030200000C, 16, 7⟩
def eip_EIP_STATUS_LANE_LOCK : FieldRef := ⟨0x030200000C, 8, 8⟩
def eip_EIP_STATUS_STATE : FieldRef := ⟨0x030200000C, 0, 2⟩
/-- EIP_EVENTS (R315). -/
def eip_EIP_EVENTS : Nat := 0x0302000010
def eip_EIP_EVENTS_NAK_SENT : FieldRef := ⟨0x0302000010, 5, 1⟩
def eip_EIP_EVENTS_OVERFLOW : FieldRef := ⟨0x0302000010, 4, 1⟩
def eip_EIP_EVENTS_SEQ_GAP : FieldRef := ⟨0x0302000010, 3, 1⟩
def eip_EIP_EVENTS_CODE_ERR : FieldRef := ⟨0x0302000010, 2, 1⟩
def eip_EIP_EVENTS_CRC : FieldRef := ⟨0x0302000010, 1, 1⟩
def eip_EIP_EVENTS_LINK_DOWN : FieldRef := ⟨0x0302000010, 0, 1⟩
/-- CRC_ERR_COUNT (R315). -/
def eip_CRC_ERR_COUNT : Nat := 0x0302000014
def eip_CRC_ERR_COUNT_COUNT : FieldRef := ⟨0x0302000014, 0, 32⟩
/-- CODE_ERR_COUNT (R315). -/
def eip_CODE_ERR_COUNT : Nat := 0x0302000018
def eip_CODE_ERR_COUNT_COUNT : FieldRef := ⟨0x0302000018, 0, 32⟩
/-- LOST_GROUPS_COUNT (R315). -/
def eip_LOST_GROUPS_COUNT : Nat := 0x030200001C
def eip_LOST_GROUPS_COUNT_COUNT : FieldRef := ⟨0x030200001C, 0, 32⟩
/-- OVERFLOW_COUNT (R315). -/
def eip_OVERFLOW_COUNT : Nat := 0x0302000020
def eip_OVERFLOW_COUNT_COUNT : FieldRef := ⟨0x0302000020, 0, 32⟩
/-- NAK_COUNT (R315). -/
def eip_NAK_COUNT : Nat := 0x0302000024
def eip_NAK_COUNT_COUNT : FieldRef := ⟨0x0302000024, 0, 32⟩
/-- GROUPS_OK (R315). -/
def eip_GROUPS_OK : Nat := 0x0302000028
def eip_GROUPS_OK_COUNT : FieldRef := ⟨0x0302000028, 0, 64⟩
/-- WORDS_IN (R315). -/
def eip_WORDS_IN : Nat := 0x0302000030
def eip_WORDS_IN_COUNT : FieldRef := ⟨0x0302000030, 0, 64⟩
/-- TRIG_OUT_CFG (R316). -/
def trig_TRIG_OUT_CFG (i : Nat) : Nat := 0x0303F00000 + i * 0x10
def trig_TRIG_OUT_CFG_FINE (i : Nat) : FieldRef := ⟨0x0303F00000 + i * 0x10, 22, 5⟩
def trig_TRIG_OUT_CFG_WIDTH (i : Nat) : FieldRef := ⟨0x0303F00000 + i * 0x10, 6, 16⟩
def trig_TRIG_OUT_CFG_QUAL_LVL (i : Nat) : FieldRef := ⟨0x0303F00000 + i * 0x10, 5, 1⟩
def trig_TRIG_OUT_CFG_QUAL_IN (i : Nat) : FieldRef := ⟨0x0303F00000 + i * 0x10, 3, 2⟩
def trig_TRIG_OUT_CFG_QUAL_EN (i : Nat) : FieldRef := ⟨0x0303F00000 + i * 0x10, 2, 1⟩
def trig_TRIG_OUT_CFG_POL (i : Nat) : FieldRef := ⟨0x0303F00000 + i * 0x10, 1, 1⟩
def trig_TRIG_OUT_CFG_EN (i : Nat) : FieldRef := ⟨0x0303F00000 + i * 0x10, 0, 1⟩
/-- TRIG_OUT_MATCH (R316). -/
def trig_TRIG_OUT_MATCH (i : Nat) : Nat := 0x0303F00004 + i * 0x10
def trig_TRIG_OUT_MATCH_CTX_MASK (i : Nat) : FieldRef := ⟨0x0303F00004 + i * 0x10, 16, 16⟩
def trig_TRIG_OUT_MATCH_CTX_MATCH (i : Nat) : FieldRef := ⟨0x0303F00004 + i * 0x10, 0, 16⟩
/-- TRIG_OUT_AXON (R316). -/
def trig_TRIG_OUT_AXON (i : Nat) : Nat := 0x0303F00008 + i * 0x10
def trig_TRIG_OUT_AXON_AX_MASK (i : Nat) : FieldRef := ⟨0x0303F00008 + i * 0x10, 16, 11⟩
def trig_TRIG_OUT_AXON_AX_MATCH (i : Nat) : FieldRef := ⟨0x0303F00008 + i * 0x10, 0, 11⟩
/-- TRIG_OUT_HOLD (R316). -/
def trig_TRIG_OUT_HOLD (i : Nat) : Nat := 0x0303F0000C + i * 0x10
def trig_TRIG_OUT_HOLD_HOLDOFF (i : Nat) : FieldRef := ⟨0x0303F0000C + i * 0x10, 0, 16⟩
/-- TRIG_FORCE (R316). -/
def trig_TRIG_FORCE : Nat := 0x0303F00100
def trig_TRIG_FORCE_FORCE : FieldRef := ⟨0x0303F00100, 0, 8⟩
/-- TRIG_EVENTS (R316). -/
def trig_TRIG_EVENTS : Nat := 0x0303F00104
def trig_TRIG_EVENTS_HELD : FieldRef := ⟨0x0303F00104, 8, 8⟩
def trig_TRIG_EVENTS_STRETCHED : FieldRef := ⟨0x0303F00104, 0, 8⟩
/-- TRIG_PULSES (R316). -/
def trig_TRIG_PULSES (i : Nat) : Nat := 0x0303F00110 + i * 0x4
def trig_TRIG_PULSES_COUNT (i : Nat) : FieldRef := ⟨0x0303F00110 + i * 0x4, 0, 32⟩
/-- TRIG_MERGED (R316). -/
def trig_TRIG_MERGED (i : Nat) : Nat := 0x0303F00130 + i * 0x4
def trig_TRIG_MERGED_COUNT (i : Nat) : FieldRef := ⟨0x0303F00130 + i * 0x4, 0, 32⟩
/-- TRIG_HELD (R316). -/
def trig_TRIG_HELD (i : Nat) : Nat := 0x0303F00150 + i * 0x4
def trig_TRIG_HELD_COUNT (i : Nat) : FieldRef := ⟨0x0303F00150 + i * 0x4, 0, 32⟩
/-- TRIG_IN_CFG (R316). -/
def trig_TRIG_IN_CFG : Nat := 0x0303F00180
def trig_TRIG_IN_CFG_EDGE : FieldRef := ⟨0x0303F00180, 0, 4⟩
/-- TRIG_IN_STATUS (R316). -/
def trig_TRIG_IN_STATUS : Nat := 0x0303F00184
def trig_TRIG_IN_STATUS_NEW : FieldRef := ⟨0x0303F00184, 4, 4⟩
def trig_TRIG_IN_STATUS_LEVEL : FieldRef := ⟨0x0303F00184, 0, 4⟩
/-- TRIG_IN_TS (R316). -/
def trig_TRIG_IN_TS (i : Nat) : Nat := 0x0303F00190 + i * 0x8
def trig_TRIG_IN_TS_TICK (i : Nat) : FieldRef := ⟨0x0303F00190 + i * 0x8, 30, 34⟩
def trig_TRIG_IN_TS_NS (i : Nat) : FieldRef := ⟨0x0303F00190 + i * 0x8, 0, 30⟩
/-- BLK_CTRL (R40). -/
def ctt_BLK_CTRL : Nat := 0x0305000000
def ctt_BLK_CTRL_EN : FieldRef := ⟨0x0305000000, 0, 1⟩
/-- BLK_STATUS (R40). -/
def ctt_BLK_STATUS : Nat := 0x0305000004
def ctt_BLK_STATUS_CFG_DEFAULTED : FieldRef := ⟨0x0305000004, 2, 1⟩
def ctt_BLK_STATUS_WRITE_IGNORED : FieldRef := ⟨0x0305000004, 1, 1⟩
def ctt_BLK_STATUS_ENABLED : FieldRef := ⟨0x0305000004, 0, 1⟩
/-- CTT_CFG (R349). -/
def ctt_CTT_CFG : Nat := 0x0305000008
def ctt_CTT_CFG_BASE : FieldRef := ⟨0x0305000008, 0, 4⟩
/-- CTT_MIRROR (R349). -/
def ctt_CTT_MIRROR : Nat := 0x0305000010
def ctt_CTT_MIRROR_ADDR : FieldRef := ⟨0x0305000010, 12, 28⟩
/-- CTX_CMD (R349). -/
def ctt_CTX_CMD : Nat := 0x0305000018
def ctt_CTX_CMD_OP : FieldRef := ⟨0x0305000018, 16, 4⟩
def ctt_CTX_CMD_CTX : FieldRef := ⟨0x0305000018, 0, 16⟩
/-- CTX_CMD_STATUS (R349). -/
def ctt_CTX_CMD_STATUS : Nat := 0x030500001C
def ctt_CTX_CMD_STATUS_BUSY : FieldRef := ⟨0x030500001C, 31, 1⟩
def ctt_CTX_CMD_STATUS_RESULT : FieldRef := ⟨0x030500001C, 20, 4⟩
def ctt_CTX_CMD_STATUS_LAST : FieldRef := ⟨0x030500001C, 0, 20⟩
/-- CTX_CMD_ARG (R349). -/
def ctt_CTX_CMD_ARG : Nat := 0x0305000020
def ctt_CTX_CMD_ARG_ARG : FieldRef := ⟨0x0305000020, 0, 64⟩
/-- CTX_EVENTS (R349). -/
def ctt_CTX_EVENTS : Nat := 0x0305000028
def ctt_CTX_EVENTS_EVENTS : FieldRef := ⟨0x0305000028, 0, 5⟩
/-- RECOV_STATUS (R349). -/
def ctt_RECOV_STATUS : Nat := 0x030500002C
def ctt_RECOV_STATUS_ACTIVE : FieldRef := ⟨0x030500002C, 31, 1⟩
def ctt_RECOV_STATUS_COUNT : FieldRef := ⟨0x030500002C, 0, 17⟩
/-- RECOV_COUNT (R349). -/
def ctt_RECOV_COUNT : Nat := 0x0305000030
def ctt_RECOV_COUNT_COUNT : FieldRef := ⟨0x0305000030, 0, 32⟩
/-- RECOV_LAST_US (R349). -/
def ctt_RECOV_LAST_US : Nat := 0x0305000034
def ctt_RECOV_LAST_US_US : FieldRef := ⟨0x0305000034, 0, 32⟩
/-- CTX_STAGE (R349). -/
def ctt_CTX_STAGE (i : Nat) : Nat := 0x0305000040 + i * 0x4
def ctt_CTX_STAGE_WORD (i : Nat) : FieldRef := ⟨0x0305000040 + i * 0x4, 0, 32⟩
/-- LATEST (R329). -/
def latest_LATEST (b i : Nat) : Nat := 0x0305200000 + b * 0x1000 + i * 0x8
def latest_LATEST_STEP_LO (b i : Nat) : FieldRef := ⟨0x0305200004 + b * 0x1000 + i * 0x8, 0, 32⟩
def latest_LATEST_STEP_HI (b i : Nat) : FieldRef := ⟨0x0305200000 + b * 0x1000 + i * 0x8, 24, 8⟩
def latest_LATEST_FRESH (b i : Nat) : FieldRef := ⟨0x0305200000 + b * 0x1000 + i * 0x8, 22, 1⟩
def latest_LATEST_VALID (b i : Nat) : FieldRef := ⟨0x0305200000 + b * 0x1000 + i * 0x8, 21, 1⟩
def latest_LATEST_KIND (b i : Nat) : FieldRef := ⟨0x0305200000 + b * 0x1000 + i * 0x8, 19, 2⟩
def latest_LATEST_PAY (b i : Nat) : FieldRef := ⟨0x0305200000 + b * 0x1000 + i * 0x8, 11, 8⟩
def latest_LATEST_AXON_OFF (b i : Nat) : FieldRef := ⟨0x0305200000 + b * 0x1000 + i * 0x8, 0, 11⟩
/-- OC_STATUS (R350). -/
def oc_OC_STATUS : Nat := 0x0303000000
def oc_OC_STATUS_LEVEL : FieldRef := ⟨0x0303000000, 0, 15⟩
/-- OC_EVENTS (R350). -/
def oc_OC_EVENTS : Nat := 0x0303000004
def oc_OC_EVENTS_EVENTS : FieldRef := ⟨0x0303000004, 0, 5⟩
/-- TRUNC_COUNT (R350). -/
def oc_TRUNC_COUNT : Nat := 0x0303000010
def oc_TRUNC_COUNT_COUNT : FieldRef := ⟨0x0303000010, 0, 32⟩
/-- SUPPRESSED_COUNT (R350). -/
def oc_SUPPRESSED_COUNT : Nat := 0x0303000014
def oc_SUPPRESSED_COUNT_COUNT : FieldRef := ⟨0x0303000014, 0, 32⟩
/-- LATE_PULSE_COUNT (R350). -/
def oc_LATE_PULSE_COUNT : Nat := 0x0303000018
def oc_LATE_PULSE_COUNT_COUNT : FieldRef := ⟨0x0303000018, 0, 32⟩
/-- RING_ERR (R350). -/
def oc_RING_ERR (i : Nat) : Nat := 0x0303000040 + i * 0x4
def oc_RING_ERR_RING (i : Nat) : FieldRef := ⟨0x0303000040 + i * 0x4, 0, 32⟩
/-- OCR_BASE (R350). -/
def oc_OCR_BASE (i : Nat) : Nat := 0x0303002000 + i * 0x20
def oc_OCR_BASE_BASE (i : Nat) : FieldRef := ⟨0x0303002000 + i * 0x20, 0, 28⟩
/-- OCR_MIRROR (R350). -/
def oc_OCR_MIRROR (i : Nat) : Nat := 0x0303002004 + i * 0x20
def oc_OCR_MIRROR_MIRROR (i : Nat) : FieldRef := ⟨0x0303002004 + i * 0x20, 0, 28⟩
/-- OCR_CFG (R350). -/
def oc_OCR_CFG (i : Nat) : Nat := 0x0303002008 + i * 0x20
def oc_OCR_CFG_CFG (i : Nat) : FieldRef := ⟨0x0303002008 + i * 0x20, 0, 9⟩
/-- OCR_PROD (R350). -/
def oc_OCR_PROD (i : Nat) : Nat := 0x030300200C + i * 0x20
def oc_OCR_PROD_PROD (i : Nat) : FieldRef := ⟨0x030300200C + i * 0x20, 0, 32⟩
/-- OCR_CONS (R350). -/
def oc_OCR_CONS (i : Nat) : Nat := 0x0303002010 + i * 0x20
def oc_OCR_CONS_CONS (i : Nat) : FieldRef := ⟨0x0303002010 + i * 0x20, 0, 32⟩
/-- OCR_LOST (R350). -/
def oc_OCR_LOST (i : Nat) : Nat := 0x0303002014 + i * 0x20
def oc_OCR_LOST_LOST (i : Nat) : FieldRef := ⟨0x0303002014 + i * 0x20, 0, 32⟩
/-- OCR_STATUS (R350). -/
def oc_OCR_STATUS (i : Nat) : Nat := 0x0303002018 + i * 0x20
def oc_OCR_STATUS_STATUS (i : Nat) : FieldRef := ⟨0x0303002018 + i * 0x20, 0, 2⟩
/-- BLK_CTRL (R40). -/
def jrn_BLK_CTRL : Nat := 0x0304000000
def jrn_BLK_CTRL_EN : FieldRef := ⟨0x0304000000, 0, 1⟩
/-- BLK_STATUS (R40). -/
def jrn_BLK_STATUS : Nat := 0x0304000004
def jrn_BLK_STATUS_CFG_DEFAULTED : FieldRef := ⟨0x0304000004, 2, 1⟩
def jrn_BLK_STATUS_WRITE_IGNORED : FieldRef := ⟨0x0304000004, 1, 1⟩
def jrn_BLK_STATUS_ENABLED : FieldRef := ⟨0x0304000004, 0, 1⟩
/-- JRN_CFG (R351). -/
def jrn_JRN_CFG : Nat := 0x0304000008
def jrn_JRN_CFG_SIZE_LOG2 : FieldRef := ⟨0x0304000008, 0, 4⟩
/-- JRN_BASE_A (R351). -/
def jrn_JRN_BASE_A : Nat := 0x0304000010
def jrn_JRN_BASE_A_BASE : FieldRef := ⟨0x0304000010, 21, 19⟩
/-- JRN_BASE_B (R351). -/
def jrn_JRN_BASE_B : Nat := 0x0304000018
def jrn_JRN_BASE_B_BASE : FieldRef := ⟨0x0304000018, 21, 19⟩
/-- JRN_HEAD (R351). -/
def jrn_JRN_HEAD : Nat := 0x0304000020
def jrn_JRN_HEAD_INDEX : FieldRef := ⟨0x0304000020, 0, 64⟩
/-- JRN_TAIL (R351). -/
def jrn_JRN_TAIL : Nat := 0x0304000028
def jrn_JRN_TAIL_INDEX : FieldRef := ⟨0x0304000028, 0, 64⟩
/-- JRN_STATUS (R351). -/
def jrn_JRN_STATUS : Nat := 0x0304000030
def jrn_JRN_STATUS_LEVEL : FieldRef := ⟨0x0304000030, 16, 13⟩
def jrn_JRN_STATUS_STATE : FieldRef := ⟨0x0304000030, 0, 3⟩
/-- JRN_EVENTS (R351). -/
def jrn_JRN_EVENTS : Nat := 0x0304000034
def jrn_JRN_EVENTS_EVENTS : FieldRef := ⟨0x0304000034, 0, 4⟩
/-- CKPT_COUNT (R351). -/
def jrn_CKPT_COUNT : Nat := 0x0304000038
def jrn_CKPT_COUNT_COUNT : FieldRef := ⟨0x0304000038, 0, 32⟩
/-- CKPT_DISCARD_COUNT (R351). -/
def jrn_CKPT_DISCARD_COUNT : Nat := 0x030400003C
def jrn_CKPT_DISCARD_COUNT_COUNT : FieldRef := ⟨0x030400003C, 0, 32⟩
/-- BLK_CTRL (R40). -/
def eth_BLK_CTRL (b : Nat) : Nat := 0x0306000000 + b * 0x10000
def eth_BLK_CTRL_EN (b : Nat) : FieldRef := ⟨0x0306000000 + b * 0x10000, 0, 1⟩
/-- BLK_STATUS (R40). -/
def eth_BLK_STATUS (b : Nat) : Nat := 0x0306000004 + b * 0x10000
def eth_BLK_STATUS_CFG_DEFAULTED (b : Nat) : FieldRef := ⟨0x0306000004 + b * 0x10000, 2, 1⟩
def eth_BLK_STATUS_WRITE_IGNORED (b : Nat) : FieldRef := ⟨0x0306000004 + b * 0x10000, 1, 1⟩
def eth_BLK_STATUS_ENABLED (b : Nat) : FieldRef := ⟨0x0306000004 + b * 0x10000, 0, 1⟩
/-- ETH_CFG (R378). -/
def eth_ETH_CFG (b : Nat) : Nat := 0x0306000008 + b * 0x10000
def eth_ETH_CFG_TAGGED (b : Nat) : FieldRef := ⟨0x0306000008 + b * 0x10000, 17, 1⟩
def eth_ETH_CFG_PCP (b : Nat) : FieldRef := ⟨0x0306000008 + b * 0x10000, 14, 3⟩
def eth_ETH_CFG_VID (b : Nat) : FieldRef := ⟨0x0306000008 + b * 0x10000, 2, 12⟩
def eth_ETH_CFG_JUMBO (b : Nat) : FieldRef := ⟨0x0306000008 + b * 0x10000, 1, 1⟩
def eth_ETH_CFG_V6 (b : Nat) : FieldRef := ⟨0x0306000008 + b * 0x10000, 0, 1⟩
/-- ETH_STATUS (R378). -/
def eth_ETH_STATUS (b : Nat) : Nat := 0x030600000C + b * 0x10000
def eth_ETH_STATUS_LANE_LOCK (b : Nat) : FieldRef := ⟨0x030600000C + b * 0x10000, 4, 4⟩
def eth_ETH_STATUS_STATE (b : Nat) : FieldRef := ⟨0x030600000C + b * 0x10000, 0, 3⟩
/-- ETH_EVENTS (R378). -/
def eth_ETH_EVENTS (b : Nat) : Nat := 0x0306000010 + b * 0x10000
def eth_ETH_EVENTS_EVENTS (b : Nat) : FieldRef := ⟨0x0306000010 + b * 0x10000, 0, 3⟩
/-- ETH_MAC (R378). -/
def eth_ETH_MAC (b : Nat) : Nat := 0x0306000018 + b * 0x10000
def eth_ETH_MAC_MAC (b : Nat) : FieldRef := ⟨0x0306000018 + b * 0x10000, 0, 48⟩
/-- ETH_IP (R378). -/
def eth_ETH_IP (b i : Nat) : Nat := 0x0306000020 + b * 0x10000 + i * 0x4
def eth_ETH_IP_IP (b i : Nat) : FieldRef := ⟨0x0306000020 + b * 0x10000 + i * 0x4, 0, 32⟩
/-- FEC_CORR_COUNT (R378). -/
def eth_FEC_CORR_COUNT (b : Nat) : Nat := 0x0306000030 + b * 0x10000
def eth_FEC_CORR_COUNT_COUNT (b : Nat) : FieldRef := ⟨0x0306000030 + b * 0x10000, 0, 32⟩
/-- FEC_UNCORR_COUNT (R378). -/
def eth_FEC_UNCORR_COUNT (b : Nat) : Nat := 0x0306000034 + b * 0x10000
def eth_FEC_UNCORR_COUNT_COUNT (b : Nat) : FieldRef := ⟨0x0306000034 + b * 0x10000, 0, 32⟩
/-- RX_DROP_COUNT (R378). -/
def eth_RX_DROP_COUNT (b : Nat) : Nat := 0x0306000038 + b * 0x10000
def eth_RX_DROP_COUNT_COUNT (b : Nat) : FieldRef := ⟨0x0306000038 + b * 0x10000, 0, 32⟩
/-- RX_FRAMES (R378). -/
def eth_RX_FRAMES (b : Nat) : Nat := 0x0306000040 + b * 0x10000
def eth_RX_FRAMES_COUNT (b : Nat) : FieldRef := ⟨0x0306000040 + b * 0x10000, 0, 64⟩
/-- TX_FRAMES (R378). -/
def eth_TX_FRAMES (b : Nat) : Nat := 0x0306000048 + b * 0x10000
def eth_TX_FRAMES_COUNT (b : Nat) : FieldRef := ⟨0x0306000048 + b * 0x10000, 0, 64⟩
/-- SWR_RX_RING (R410). -/
def swr_SWR_RX_RING (b : Nat) : Nat := 0x0306400000 + b * 0x1000
def swr_SWR_RX_RING_BASE (b : Nat) : FieldRef := ⟨0x0306400000 + b * 0x1000, 8, 32⟩
def swr_SWR_RX_RING_EN (b : Nat) : FieldRef := ⟨0x0306400000 + b * 0x1000, 4, 1⟩
def swr_SWR_RX_RING_LOG2 (b : Nat) : FieldRef := ⟨0x0306400000 + b * 0x1000, 0, 4⟩
/-- SWR_RX_POST (R410). -/
def swr_SWR_RX_POST (b : Nat) : Nat := 0x0306400008 + b * 0x1000
def swr_SWR_RX_POST_POST (b : Nat) : FieldRef := ⟨0x0306400008 + b * 0x1000, 0, 32⟩
/-- SWR_RX_DONE (R410). -/
def swr_SWR_RX_DONE (b : Nat) : Nat := 0x030640000C + b * 0x1000
def swr_SWR_RX_DONE_DONE (b : Nat) : FieldRef := ⟨0x030640000C + b * 0x1000, 0, 32⟩
/-- SWR_TX_RING (R410). -/
def swr_SWR_TX_RING (b : Nat) : Nat := 0x0306400010 + b * 0x1000
def swr_SWR_TX_RING_BASE (b : Nat) : FieldRef := ⟨0x0306400010 + b * 0x1000, 8, 32⟩
def swr_SWR_TX_RING_EN (b : Nat) : FieldRef := ⟨0x0306400010 + b * 0x1000, 4, 1⟩
def swr_SWR_TX_RING_LOG2 (b : Nat) : FieldRef := ⟨0x0306400010 + b * 0x1000, 0, 4⟩
/-- SWR_TX_POST (R410). -/
def swr_SWR_TX_POST (b : Nat) : Nat := 0x0306400018 + b * 0x1000
def swr_SWR_TX_POST_POST (b : Nat) : FieldRef := ⟨0x0306400018 + b * 0x1000, 0, 32⟩
/-- SWR_TX_DONE (R410). -/
def swr_SWR_TX_DONE (b : Nat) : Nat := 0x030640001C + b * 0x1000
def swr_SWR_TX_DONE_DONE (b : Nat) : FieldRef := ⟨0x030640001C + b * 0x1000, 0, 32⟩
/-- SWR_EVENTS (R410). -/
def swr_SWR_EVENTS (b : Nat) : Nat := 0x0306400020 + b * 0x1000
def swr_SWR_EVENTS_EVENTS (b : Nat) : FieldRef := ⟨0x0306400020 + b * 0x1000, 0, 4⟩
/-- RX_NOBUF_COUNT (R410). -/
def swr_RX_NOBUF_COUNT (b : Nat) : Nat := 0x0306400024 + b * 0x1000
def swr_RX_NOBUF_COUNT_COUNT (b : Nat) : FieldRef := ⟨0x0306400024 + b * 0x1000, 0, 32⟩
/-- BLK_CTRL (R40). -/
def aet_BLK_CTRL : Nat := 0x0306800000
def aet_BLK_CTRL_EN : FieldRef := ⟨0x0306800000, 0, 1⟩
/-- BLK_STATUS (R40). -/
def aet_BLK_STATUS : Nat := 0x0306800004
def aet_BLK_STATUS_CFG_DEFAULTED : FieldRef := ⟨0x0306800004, 2, 1⟩
def aet_BLK_STATUS_WRITE_IGNORED : FieldRef := ⟨0x0306800004, 1, 1⟩
def aet_BLK_STATUS_ENABLED : FieldRef := ⟨0x0306800004, 0, 1⟩
/-- AET_CFG (R379). -/
def aet_AET_CFG : Nat := 0x0306800008
def aet_AET_CFG_UDP_PORT : FieldRef := ⟨0x0306800008, 16, 16⟩
def aet_AET_CFG_CHIP_ID : FieldRef := ⟨0x0306800008, 0, 5⟩
/-- AET_TIMERS (R379). -/
def aet_AET_TIMERS : Nat := 0x030680000C
def aet_AET_TIMERS_DEAD : FieldRef := ⟨0x030680000C, 24, 8⟩
def aet_AET_TIMERS_KA : FieldRef := ⟨0x030680000C, 16, 8⟩
def aet_AET_TIMERS_RETRY_LIMIT : FieldRef := ⟨0x030680000C, 8, 8⟩
def aet_AET_TIMERS_RTO : FieldRef := ⟨0x030680000C, 0, 8⟩
/-- AET_EVENTS (R379). -/
def aet_AET_EVENTS : Nat := 0x0306800010
def aet_AET_EVENTS_EVENTS : FieldRef := ⟨0x0306800010, 0, 7⟩
/-- AET_REF_BASE (R379). -/
def aet_AET_REF_BASE : Nat := 0x0306800018
def aet_AET_REF_BASE_BASE : FieldRef := ⟨0x0306800018, 12, 28⟩
def aet_AET_REF_BASE_LOG2 : FieldRef := ⟨0x0306800018, 4, 8⟩
/-- AET_REF_PROD (R379). -/
def aet_AET_REF_PROD : Nat := 0x0306800020
def aet_AET_REF_PROD_PROD : FieldRef := ⟨0x0306800020, 0, 32⟩
/-- AET_REF_CONS (R379). -/
def aet_AET_REF_CONS : Nat := 0x0306800024
def aet_AET_REF_CONS_CONS : FieldRef := ⟨0x0306800024, 0, 32⟩
/-- AET_REF_LOST (R379). -/
def aet_AET_REF_LOST : Nat := 0x0306800028
def aet_AET_REF_LOST_COUNT : FieldRef := ⟨0x0306800028, 0, 32⟩
/-- PTP_TIME (R379). -/
def aet_PTP_TIME : Nat := 0x0306800030
def aet_PTP_TIME_NS : FieldRef := ⟨0x0306800030, 0, 64⟩
/-- TB_RATE_ADJ (R379). -/
def aet_TB_RATE_ADJ : Nat := 0x0306800038
def aet_TB_RATE_ADJ_ADJ : FieldRef := ⟨0x0306800038, 0, 32⟩
/-- PPS_PHASE (R379). -/
def aet_PPS_PHASE : Nat := 0x030680003C
def aet_PPS_PHASE_PHASE : FieldRef := ⟨0x030680003C, 0, 32⟩
/-- PPS_CAPTURE (R379). -/
def aet_PPS_CAPTURE : Nat := 0x0306800040
def aet_PPS_CAPTURE_NS : FieldRef := ⟨0x0306800040, 0, 64⟩
/-- RETX_COUNT (R379). -/
def aet_RETX_COUNT : Nat := 0x0306800050
def aet_RETX_COUNT_COUNT : FieldRef := ⟨0x0306800050, 0, 32⟩
/-- STALE_COUNT (R379). -/
def aet_STALE_COUNT : Nat := 0x0306800054
def aet_STALE_COUNT_COUNT : FieldRef := ⟨0x0306800054, 0, 32⟩
/-- FAILOVER_COUNT (R379). -/
def aet_FAILOVER_COUNT : Nat := 0x0306800058
def aet_FAILOVER_COUNT_COUNT : FieldRef := ⟨0x0306800058, 0, 32⟩
/-- SESS_STATUS (R379). -/
def aet_SESS_STATUS (i : Nat) : Nat := 0x0306800100 + i * 0x4
def aet_SESS_STATUS_INCARNATION (i : Nat) : FieldRef := ⟨0x0306800100 + i * 0x4, 16, 16⟩
def aet_SESS_STATUS_REJECT_REASON (i : Nat) : FieldRef := ⟨0x0306800100 + i * 0x4, 4, 4⟩
def aet_SESS_STATUS_PORT (i : Nat) : FieldRef := ⟨0x0306800100 + i * 0x4, 3, 1⟩
def aet_SESS_STATUS_STATE (i : Nat) : FieldRef := ⟨0x0306800100 + i * 0x4, 0, 3⟩
/-- SESS_CTRL (R379). -/
def aet_SESS_CTRL (i : Nat) : Nat := 0x0306800180 + i * 0x4
def aet_SESS_CTRL_CTRL (i : Nat) : FieldRef := ⟨0x0306800180 + i * 0x4, 0, 3⟩
/-- PEER (R379). -/
def aet_PEER (i : Nat) : Nat := 0x0306801000 + i * 0x40
def aet_PEER_VALID (i : Nat) : FieldRef := ⟨0x0306801000 + i * 0x40, 0, 1⟩
def aet_PEER_V6 (i : Nat) : FieldRef := ⟨0x0306801000 + i * 0x40, 1, 1⟩
def aet_PEER_MAC0 (i : Nat) : FieldRef := ⟨0x0306801004 + i * 0x40, 0, 48⟩
def aet_PEER_MAC1 (i : Nat) : FieldRef := ⟨0x0306801008 + i * 0x40, 16, 48⟩
def aet_PEER_IP0 (i : Nat) : FieldRef := ⟨0x0306801010 + i * 0x40, 0, 128⟩
def aet_PEER_IP1 (i : Nat) : FieldRef := ⟨0x0306801020 + i * 0x40, 0, 128⟩
def aet_PEER_UDP_PORT (i : Nat) : FieldRef := ⟨0x0306801030 + i * 0x40, 0, 16⟩
/-- BLK_CTRL (R40). -/
def vol_BLK_CTRL : Nat := 0x0306C00000
def vol_BLK_CTRL_EN : FieldRef := ⟨0x0306C00000, 0, 1⟩
/-- BLK_STATUS (R40). -/
def vol_BLK_STATUS : Nat := 0x0306C00004
def vol_BLK_STATUS_CFG_DEFAULTED : FieldRef := ⟨0x0306C00004, 2, 1⟩
def vol_BLK_STATUS_WRITE_IGNORED : FieldRef := ⟨0x0306C00004, 1, 1⟩
def vol_BLK_STATUS_ENABLED : FieldRef := ⟨0x0306C00004, 0, 1⟩
/-- VOL_STATUS (R380). -/
def vol_VOL_STATUS : Nat := 0x0306C00008
def vol_VOL_STATUS_LEVEL : FieldRef := ⟨0x0306C00008, 0, 17⟩
/-- VOL_EVENTS (R380). -/
def vol_VOL_EVENTS : Nat := 0x0306C0000C
def vol_VOL_EVENTS_EVENTS : FieldRef := ⟨0x0306C0000C, 0, 5⟩
/-- NO_STREAM_COUNT (R380). -/
def vol_NO_STREAM_COUNT : Nat := 0x0306C00010
def vol_NO_STREAM_COUNT_COUNT : FieldRef := ⟨0x0306C00010, 0, 32⟩
/-- BAD_AXON_COUNT (R380). -/
def vol_BAD_AXON_COUNT : Nat := 0x0306C00014
def vol_BAD_AXON_COUNT_COUNT : FieldRef := ⟨0x0306C00014, 0, 32⟩
/-- UNGATED_COUNT (R380). -/
def vol_UNGATED_COUNT : Nat := 0x0306C00018
def vol_UNGATED_COUNT_COUNT : FieldRef := ⟨0x0306C00018, 0, 32⟩
/-- SUPPRESSED_COUNT (R380). -/
def vol_SUPPRESSED_COUNT : Nat := 0x0306C0001C
def vol_SUPPRESSED_COUNT_COUNT : FieldRef := ⟨0x0306C0001C, 0, 32⟩
/-- VOLLEYS_SENT (R380). -/
def vol_VOLLEYS_SENT : Nat := 0x0306C00020
def vol_VOLLEYS_SENT_COUNT : FieldRef := ⟨0x0306C00020, 0, 64⟩
/-- DIR (R368). -/
def volTab_DIR (i : Nat) : Nat := 0x0306C10000 + i * 0x10
def volTab_DIR_VALID (i : Nat) : FieldRef := ⟨0x0306C10000 + i * 0x10, 0, 1⟩
def volTab_DIR_LAG (i : Nat) : FieldRef := ⟨0x0306C10000 + i * 0x10, 1, 2⟩
def volTab_DIR_CHIP (i : Nat) : FieldRef := ⟨0x0306C10000 + i * 0x10, 3, 5⟩
def volTab_DIR_CTX (i : Nat) : FieldRef := ⟨0x0306C10000 + i * 0x10, 16, 16⟩
def volTab_DIR_AXON_BASE (i : Nat) : FieldRef := ⟨0x0306C10004 + i * 0x10, 0, 16⟩
def volTab_DIR_FEEDERS (i : Nat) : FieldRef := ⟨0x0306C10008 + i * 0x10, 0, 32⟩
/-- VSTREAM (R369). -/
def volTab_VSTREAM (i : Nat) : Nat := 0x0306C20000 + i * 0x10
def volTab_VSTREAM_SRC_CTX (i : Nat) : FieldRef := ⟨0x0306C20000 + i * 0x10, 0, 16⟩
def volTab_VSTREAM_VALID (i : Nat) : FieldRef := ⟨0x0306C20000 + i * 0x10, 16, 1⟩
def volTab_VSTREAM_K2 (i : Nat) : FieldRef := ⟨0x0306C20000 + i * 0x10, 17, 1⟩
def volTab_VSTREAM_MIN_SCORE (i : Nat) : FieldRef := ⟨0x0306C20000 + i * 0x10, 24, 8⟩
def volTab_VSTREAM_EXPERT_BASE (i : Nat) : FieldRef := ⟨0x0306C20004 + i * 0x10, 0, 12⟩
def volTab_VSTREAM_CAND (i : Nat) : FieldRef := ⟨0x0306C20004 + i * 0x10, 12, 8⟩
def volTab_VSTREAM_STATUS_Q (i : Nat) : FieldRef := ⟨0x0306C20008 + i * 0x10, 0, 16⟩
def volTab_VSTREAM_STATUS_EN (i : Nat) : FieldRef := ⟨0x0306C20008 + i * 0x10, 16, 1⟩
def volTab_VSTREAM_STATUS_EPOCH (i : Nat) : FieldRef := ⟨0x0306C20008 + i * 0x10, 17, 4⟩
/-- CL_CFG (R407). -/
def cl_CL_CFG : Nat := 0x0004080000
def cl_CL_CFG_RESTART : FieldRef := ⟨0x0004080000, 8, 8⟩
def cl_CL_CFG_LEAD : FieldRef := ⟨0x0004080000, 0, 3⟩
/-- CL_RESET_VEC (R407). -/
def cl_CL_RESET_VEC : Nat := 0x0004080008
def cl_CL_RESET_VEC_VEC : FieldRef := ⟨0x0004080008, 2, 38⟩
/-- CL_RELEASE (R407). -/
def cl_CL_RELEASE : Nat := 0x0004080010
def cl_CL_RELEASE_RELEASE : FieldRef := ⟨0x0004080010, 0, 8⟩
/-- CL_CORE_STATUS (R407). -/
def cl_CL_CORE_STATUS : Nat := 0x0004080014
def cl_CL_CORE_STATUS_HELD : FieldRef := ⟨0x0004080014, 8, 8⟩
def cl_CL_CORE_STATUS_RUN : FieldRef := ⟨0x0004080014, 0, 8⟩
/-- CL_EVENTS (R407). -/
def cl_CL_EVENTS : Nat := 0x0004080018
def cl_CL_EVENTS_EVENTS : FieldRef := ⟨0x0004080018, 0, 20⟩
/-- CL_GRACE (R407). -/
def cl_CL_GRACE : Nat := 0x000408001C
def cl_CL_GRACE_MS : FieldRef := ⟨0x000408001C, 0, 14⟩
/-- CL_BUSERR_ADDR (R407). -/
def cl_CL_BUSERR_ADDR : Nat := 0x0004080020
def cl_CL_BUSERR_ADDR_VALID : FieldRef := ⟨0x0004080024, 31, 1⟩
def cl_CL_BUSERR_ADDR_CORE : FieldRef := ⟨0x0004080024, 8, 3⟩
def cl_CL_BUSERR_ADDR_ADDR : FieldRef := ⟨0x0004080020, 0, 40⟩
/-- CL_ECC_CORR_COUNT (R407). -/
def cl_CL_ECC_CORR_COUNT : Nat := 0x0004080028
def cl_CL_ECC_CORR_COUNT_COUNT : FieldRef := ⟨0x0004080028, 0, 32⟩
/-- CL_MTIME (R407). -/
def cl_CL_MTIME : Nat := 0x0004080030
def cl_CL_MTIME_TIME : FieldRef := ⟨0x0004080030, 0, 64⟩
/-- CL_MTIMECMP (R407). -/
def cl_CL_MTIMECMP (i : Nat) : Nat := 0x0004080040 + i * 0x8
def cl_CL_MTIMECMP_TIME (i : Nat) : FieldRef := ⟨0x0004080040 + i * 0x8, 0, 64⟩
/-- CL_MSIP (R407). -/
def cl_CL_MSIP (i : Nat) : Nat := 0x0004080080 + i * 0x4
def cl_CL_MSIP_MSIP (i : Nat) : FieldRef := ⟨0x0004080080 + i * 0x4, 0, 1⟩
/-- CL_WDOG (R407). -/
def cl_CL_WDOG (i : Nat) : Nat := 0x00040800A0 + i * 0x8
def cl_CL_WDOG_EN (i : Nat) : FieldRef := ⟨0x00040800A0 + i * 0x8, 31, 1⟩
def cl_CL_WDOG_PERIOD (i : Nat) : FieldRef := ⟨0x00040800A0 + i * 0x8, 0, 20⟩
/-- CL_KICK (R407). -/
def cl_CL_KICK (i : Nat) : Nat := 0x00040800A4 + i * 0x8
def cl_CL_KICK_KICK (i : Nat) : FieldRef := ⟨0x00040800A4 + i * 0x8, 0, 1⟩
/-- SIC_SRC (R408). -/
def sic_SIC_SRC (i : Nat) : Nat := 0x0004000000 + i * 0x4
def sic_SIC_SRC_HOST_EN (i : Nat) : FieldRef := ⟨0x0004000000 + i * 0x4, 31, 1⟩
def sic_SIC_SRC_VECTOR (i : Nat) : FieldRef := ⟨0x0004000000 + i * 0x4, 16, 11⟩
def sic_SIC_SRC_TARGETS (i : Nat) : FieldRef := ⟨0x0004000000 + i * 0x4, 8, 8⟩
def sic_SIC_SRC_SUP (i : Nat) : FieldRef := ⟨0x0004000000 + i * 0x4, 4, 1⟩
def sic_SIC_SRC_PRIORITY (i : Nat) : FieldRef := ⟨0x0004000000 + i * 0x4, 0, 4⟩
/-- SIC_PEND (R408). -/
def sic_SIC_PEND (i : Nat) : Nat := 0x0004001000 + i * 0x4
def sic_SIC_PEND_PEND (i : Nat) : FieldRef := ⟨0x0004001000 + i * 0x4, 0, 32⟩
/-- SIC_HOST_PEND (R408). -/
def sic_SIC_HOST_PEND (i : Nat) : Nat := 0x0004001080 + i * 0x4
def sic_SIC_HOST_PEND_PEND (i : Nat) : FieldRef := ⟨0x0004001080 + i * 0x4, 0, 32⟩
/-- SIC_HOST_DONE (R408). -/
def sic_SIC_HOST_DONE : Nat := 0x0004001100
def sic_SIC_HOST_DONE_SOURCE : FieldRef := ⟨0x0004001100, 0, 10⟩
/-- SIC_THRESH (R408). -/
def sic_SIC_THRESH (i : Nat) : Nat := 0x0004002000 + i * 0x40
def sic_SIC_THRESH_THRESH (i : Nat) : FieldRef := ⟨0x0004002000 + i * 0x40, 0, 4⟩
/-- SIC_CLAIM (R408). -/
def sic_SIC_CLAIM (i : Nat) : Nat := 0x0004002004 + i * 0x40
def sic_SIC_CLAIM_VALID (i : Nat) : FieldRef := ⟨0x0004002004 + i * 0x40, 31, 1⟩
def sic_SIC_CLAIM_ID (i : Nat) : FieldRef := ⟨0x0004002004 + i * 0x40, 0, 10⟩
/-- PCIE_STATUS (R409). -/
def pcie_PCIE_STATUS : Nat := 0x0307000000
def pcie_PCIE_STATUS_STATE : FieldRef := ⟨0x0307000000, 0, 12⟩
/-- PCIE_EVENTS (R409). -/
def pcie_PCIE_EVENTS : Nat := 0x0307000004
def pcie_PCIE_EVENTS_EVENTS : FieldRef := ⟨0x0307000004, 0, 5⟩
/-- CA_COUNT (R409). -/
def pcie_CA_COUNT : Nat := 0x0307000008
def pcie_CA_COUNT_COUNT : FieldRef := ⟨0x0307000008, 0, 32⟩
/-- DROP_COUNT (R409). -/
def pcie_DROP_COUNT : Nat := 0x030700000C
def pcie_DROP_COUNT_COUNT : FieldRef := ⟨0x030700000C, 0, 32⟩
/-- PCIE_BAR2_BASE (R409). -/
def pcie_PCIE_BAR2_BASE : Nat := 0x0307000010
def pcie_PCIE_BAR2_BASE_GIB : FieldRef := ⟨0x0307000010, 0, 6⟩
/-- FW_STATE (R409). -/
def pcie_FW_STATE : Nat := 0x0307000014
def pcie_FW_STATE_STATE : FieldRef := ⟨0x0307000014, 28, 4⟩
def pcie_FW_STATE_VER_HI : FieldRef := ⟨0x0307000014, 20, 8⟩
def pcie_FW_STATE_VER_LO : FieldRef := ⟨0x0307000014, 12, 8⟩
def pcie_FW_STATE_LAST_SEQ : FieldRef := ⟨0x0307000014, 6, 6⟩
/-- PCIE_SEG (R409, R394). -/
def pcie_PCIE_SEG (i : Nat) : Nat := 0x0307000100 + i * 0x4
def pcie_PCIE_SEG_VALID (i : Nat) : FieldRef := ⟨0x0307000100 + i * 0x4, 31, 1⟩
def pcie_PCIE_SEG_BASE (i : Nat) : FieldRef := ⟨0x0307000100 + i * 0x4, 0, 20⟩
/-- PDMA_RING (R409). -/
def pdma_PDMA_RING (b : Nat) : Nat := 0x0307010000 + b * 0x1000
def pdma_PDMA_RING_BASE (b : Nat) : FieldRef := ⟨0x0307010000 + b * 0x1000, 8, 32⟩
def pdma_PDMA_RING_LOG2 (b : Nat) : FieldRef := ⟨0x0307010000 + b * 0x1000, 0, 4⟩
/-- PDMA_TAIL (R409). -/
def pdma_PDMA_TAIL (b : Nat) : Nat := 0x0307010008 + b * 0x1000
def pdma_PDMA_TAIL_TAIL (b : Nat) : FieldRef := ⟨0x0307010008 + b * 0x1000, 0, 32⟩
/-- PDMA_HEAD (R409). -/
def pdma_PDMA_HEAD (b : Nat) : Nat := 0x030701000C + b * 0x1000
def pdma_PDMA_HEAD_HEAD (b : Nat) : FieldRef := ⟨0x030701000C + b * 0x1000, 0, 32⟩
/-- PDMA_CTRL (R409). -/
def pdma_PDMA_CTRL (b : Nat) : Nat := 0x0307010010 + b * 0x1000
def pdma_PDMA_CTRL_EN (b : Nat) : FieldRef := ⟨0x0307010010 + b * 0x1000, 1, 1⟩
def pdma_PDMA_CTRL_RESUME (b : Nat) : FieldRef := ⟨0x0307010010 + b * 0x1000, 0, 1⟩
/-- PDMA_STATUS (R409). -/
def pdma_PDMA_STATUS (b : Nat) : Nat := 0x0307010014 + b * 0x1000
def pdma_PDMA_STATUS_LAST_ERR (b : Nat) : FieldRef := ⟨0x0307010014 + b * 0x1000, 4, 4⟩
def pdma_PDMA_STATUS_HALTED (b : Nat) : FieldRef := ⟨0x0307010014 + b * 0x1000, 1, 1⟩
def pdma_PDMA_STATUS_RUNNING (b : Nat) : FieldRef := ⟨0x0307010014 + b * 0x1000, 0, 1⟩
/-- PDMA_EVENTS (R409). -/
def pdma_PDMA_EVENTS (b : Nat) : Nat := 0x0307010018 + b * 0x1000
def pdma_PDMA_EVENTS_EVENTS (b : Nat) : FieldRef := ⟨0x0307010018 + b * 0x1000, 0, 2⟩
/-- PDMA_BYTES (R409). -/
def pdma_PDMA_BYTES (b : Nat) : Nat := 0x0307010020 + b * 0x1000
def pdma_PDMA_BYTES_COUNT (b : Nat) : FieldRef := ⟨0x0307010020 + b * 0x1000, 0, 64⟩
/-- MSIX (R397). -/
def msix_MSIX (i : Nat) : Nat := 0x0307200000 + i * 0x10
def msix_MSIX_ADDR_LO (i : Nat) : FieldRef := ⟨0x0307200000 + i * 0x10, 0, 32⟩
def msix_MSIX_ADDR_HI (i : Nat) : FieldRef := ⟨0x0307200004 + i * 0x10, 0, 32⟩
def msix_MSIX_DATA (i : Nat) : FieldRef := ⟨0x0307200008 + i * 0x10, 0, 32⟩
def msix_MSIX_MASK (i : Nat) : FieldRef := ⟨0x030720000C + i * 0x10, 0, 1⟩
/-- PBA (R397). -/
def msix_PBA (i : Nat) : Nat := 0x0307280000 + i * 0x4
def msix_PBA_PEND (i : Nat) : FieldRef := ⟨0x0307280000 + i * 0x4, 0, 32⟩
/-- SLICE_OWNER (R430). -/
def slice_SLICE_OWNER (b : Nat) : Nat := 0x0240000000 + b * 0x10000
def slice_SLICE_OWNER_READ_OPEN (b : Nat) : FieldRef := ⟨0x0240000000 + b * 0x10000, 24, 1⟩
def slice_SLICE_OWNER_WRITERS (b : Nat) : FieldRef := ⟨0x0240000000 + b * 0x10000, 16, 8⟩
def slice_SLICE_OWNER_CLASS (b : Nat) : FieldRef := ⟨0x0240000000 + b * 0x10000, 12, 4⟩
def slice_SLICE_OWNER_INDEX (b : Nat) : FieldRef := ⟨0x0240000000 + b * 0x10000, 0, 12⟩
/-- SLICE_PWR (R430). -/
def slice_SLICE_PWR (b : Nat) : Nat := 0x0240000004 + b * 0x10000
def slice_SLICE_PWR_KEEP (b : Nat) : FieldRef := ⟨0x0240000004 + b * 0x10000, 1, 1⟩
def slice_SLICE_PWR_RETAIN (b : Nat) : FieldRef := ⟨0x0240000004 + b * 0x10000, 0, 1⟩
/-- SLICE_STATUS (R430). -/
def slice_SLICE_STATUS (b : Nat) : Nat := 0x0240000008 + b * 0x10000
def slice_SLICE_STATUS_PWR (b : Nat) : FieldRef := ⟨0x0240000008 + b * 0x10000, 0, 2⟩
/-- SLICE_EVENTS (R430). -/
def slice_SLICE_EVENTS (b : Nat) : Nat := 0x024000000C + b * 0x10000
def slice_SLICE_EVENTS_EVENTS (b : Nat) : FieldRef := ⟨0x024000000C + b * 0x10000, 0, 6⟩
/-- SLICE_DENIED_INFO (R430). -/
def slice_SLICE_DENIED_INFO (b : Nat) : Nat := 0x0240000010 + b * 0x10000
def slice_SLICE_DENIED_INFO_VALID (b : Nat) : FieldRef := ⟨0x0240000014 + b * 0x10000, 31, 1⟩
def slice_SLICE_DENIED_INFO_CLASS (b : Nat) : FieldRef := ⟨0x0240000014 + b * 0x10000, 4, 4⟩
def slice_SLICE_DENIED_INFO_INDEX (b : Nat) : FieldRef := ⟨0x0240000010 + b * 0x10000, 24, 12⟩
def slice_SLICE_DENIED_INFO_WRITE (b : Nat) : FieldRef := ⟨0x0240000010 + b * 0x10000, 20, 1⟩
def slice_SLICE_DENIED_INFO_OFFSET (b : Nat) : FieldRef := ⟨0x0240000010 + b * 0x10000, 0, 20⟩
/-- SLICE_ECC_CORR_COUNT (R430). -/
def slice_SLICE_ECC_CORR_COUNT (b : Nat) : Nat := 0x0240000018 + b * 0x10000
def slice_SLICE_ECC_CORR_COUNT_COUNT (b : Nat) : FieldRef := ⟨0x0240000018 + b * 0x10000, 0, 32⟩
/-- SLICE_ECC_UNCORR_COUNT (R430). -/
def slice_SLICE_ECC_UNCORR_COUNT (b : Nat) : Nat := 0x024000001C + b * 0x10000
def slice_SLICE_ECC_UNCORR_COUNT_COUNT (b : Nat) : FieldRef := ⟨0x024000001C + b * 0x10000, 0, 32⟩
/-- SLICE_SCRUB (R430). -/
def slice_SLICE_SCRUB (b : Nat) : Nat := 0x0240000020 + b * 0x10000
def slice_SLICE_SCRUB_SHIFT (b : Nat) : FieldRef := ⟨0x0240000020 + b * 0x10000, 1, 4⟩
def slice_SLICE_SCRUB_EN (b : Nat) : FieldRef := ⟨0x0240000020 + b * 0x10000, 0, 1⟩
/-- BLK_CTRL (R40). -/
def mem_BLK_CTRL : Nat := 0x0308000000
def mem_BLK_CTRL_EN : FieldRef := ⟨0x0308000000, 0, 1⟩
/-- BLK_STATUS (R40). -/
def mem_BLK_STATUS : Nat := 0x0308000004
def mem_BLK_STATUS_CFG_DEFAULTED : FieldRef := ⟨0x0308000004, 2, 1⟩
def mem_BLK_STATUS_WRITE_IGNORED : FieldRef := ⟨0x0308000004, 1, 1⟩
def mem_BLK_STATUS_ENABLED : FieldRef := ⟨0x0308000004, 0, 1⟩
/-- MEM_CFG (R431). -/
def mem_MEM_CFG : Nat := 0x0308000008
def mem_MEM_CFG_LOCAL : FieldRef := ⟨0x0308000008, 10, 6⟩
def mem_MEM_CFG_ECC_EN : FieldRef := ⟨0x0308000008, 9, 1⟩
def mem_MEM_CFG_RANKS : FieldRef := ⟨0x0308000008, 8, 1⟩
def mem_MEM_CFG_DENSITY : FieldRef := ⟨0x0308000008, 4, 4⟩
def mem_MEM_CFG_RATE : FieldRef := ⟨0x0308000008, 0, 4⟩
/-- MEM_EVENTS (R431). -/
def mem_MEM_EVENTS : Nat := 0x030800000C
def mem_MEM_EVENTS_EVENTS : FieldRef := ⟨0x030800000C, 0, 5⟩
/-- MEM_CH_CTRL (R431). -/
def memCh_MEM_CH_CTRL (b : Nat) : Nat := 0x0308001000 + b * 0x1000
def memCh_MEM_CH_CTRL_OFFLINE (b : Nat) : FieldRef := ⟨0x0308001000 + b * 0x1000, 1, 1⟩
def memCh_MEM_CH_CTRL_RETRAIN (b : Nat) : FieldRef := ⟨0x0308001000 + b * 0x1000, 0, 1⟩
/-- MEM_CH_STATUS (R431). -/
def memCh_MEM_CH_STATUS (b : Nat) : Nat := 0x0308001004 + b * 0x1000
def memCh_MEM_CH_STATUS_STATE (b : Nat) : FieldRef := ⟨0x0308001004 + b * 0x1000, 0, 3⟩
/-- MEM_ECC_CORR_COUNT (R431). -/
def memCh_MEM_ECC_CORR_COUNT (b : Nat) : Nat := 0x0308001008 + b * 0x1000
def memCh_MEM_ECC_CORR_COUNT_COUNT (b : Nat) : FieldRef := ⟨0x0308001008 + b * 0x1000, 0, 32⟩
/-- MEM_ECC_UNCORR_COUNT (R431). -/
def memCh_MEM_ECC_UNCORR_COUNT (b : Nat) : Nat := 0x030800100C + b * 0x1000
def memCh_MEM_ECC_UNCORR_COUNT_COUNT (b : Nat) : FieldRef := ⟨0x030800100C + b * 0x1000, 0, 32⟩
/-- MEM_ERR_ADDR (R431). -/
def memCh_MEM_ERR_ADDR (b : Nat) : Nat := 0x0308001010 + b * 0x1000
def memCh_MEM_ERR_ADDR_VALID (b : Nat) : FieldRef := ⟨0x0308001014 + b * 0x1000, 31, 1⟩
def memCh_MEM_ERR_ADDR_ADDR (b : Nat) : FieldRef := ⟨0x0308001010 + b * 0x1000, 0, 40⟩
/-- MEM_RETRAIN_COUNT (R431). -/
def memCh_MEM_RETRAIN_COUNT (b : Nat) : Nat := 0x0308001018 + b * 0x1000
def memCh_MEM_RETRAIN_COUNT_COUNT (b : Nat) : FieldRef := ⟨0x0308001018 + b * 0x1000, 0, 32⟩
/-- SDMA_RING (R432). -/
def sdma_SDMA_RING (b : Nat) : Nat := 0x0309000000 + b * 0x1000
def sdma_SDMA_RING_BASE (b : Nat) : FieldRef := ⟨0x0309000000 + b * 0x1000, 8, 32⟩
def sdma_SDMA_RING_LOG2 (b : Nat) : FieldRef := ⟨0x0309000000 + b * 0x1000, 0, 4⟩
/-- SDMA_TAIL (R432). -/
def sdma_SDMA_TAIL (b : Nat) : Nat := 0x0309000008 + b * 0x1000
def sdma_SDMA_TAIL_TAIL (b : Nat) : FieldRef := ⟨0x0309000008 + b * 0x1000, 0, 32⟩
/-- SDMA_HEAD (R432). -/
def sdma_SDMA_HEAD (b : Nat) : Nat := 0x030900000C + b * 0x1000
def sdma_SDMA_HEAD_HEAD (b : Nat) : FieldRef := ⟨0x030900000C + b * 0x1000, 0, 32⟩
/-- SDMA_CTRL (R432). -/
def sdma_SDMA_CTRL (b : Nat) : Nat := 0x0309000010 + b * 0x1000
def sdma_SDMA_CTRL_EN (b : Nat) : FieldRef := ⟨0x0309000010 + b * 0x1000, 1, 1⟩
def sdma_SDMA_CTRL_RESUME (b : Nat) : FieldRef := ⟨0x0309000010 + b * 0x1000, 0, 1⟩
/-- SDMA_STATUS (R432). -/
def sdma_SDMA_STATUS (b : Nat) : Nat := 0x0309000014 + b * 0x1000
def sdma_SDMA_STATUS_LAST_ERR (b : Nat) : FieldRef := ⟨0x0309000014 + b * 0x1000, 4, 4⟩
def sdma_SDMA_STATUS_HALTED (b : Nat) : FieldRef := ⟨0x0309000014 + b * 0x1000, 1, 1⟩
def sdma_SDMA_STATUS_RUNNING (b : Nat) : FieldRef := ⟨0x0309000014 + b * 0x1000, 0, 1⟩
/-- SDMA_EVENTS (R432). -/
def sdma_SDMA_EVENTS (b : Nat) : Nat := 0x0309000018 + b * 0x1000
def sdma_SDMA_EVENTS_EVENTS (b : Nat) : FieldRef := ⟨0x0309000018 + b * 0x1000, 0, 2⟩
/-- SDMA_BYTES (R432). -/
def sdma_SDMA_BYTES (b : Nat) : Nat := 0x0309000020 + b * 0x1000
def sdma_SDMA_BYTES_COUNT (b : Nat) : FieldRef := ⟨0x0309000020 + b * 0x1000, 0, 64⟩
/-- TMR_CFG (R445). -/
def tmr_TMR_CFG (i : Nat) : Nat := 0x0002300000 + i * 0x40
def tmr_TMR_CFG_IRQ_EN (i : Nat) : FieldRef := ⟨0x0002300000 + i * 0x40, 16, 3⟩
def tmr_TMR_CFG_CAP_EDGE (i : Nat) : FieldRef := ⟨0x0002300000 + i * 0x40, 15, 1⟩
def tmr_TMR_CFG_CAP_SRC (i : Nat) : FieldRef := ⟨0x0002300000 + i * 0x40, 12, 3⟩
def tmr_TMR_CFG_CMP_JOIN (i : Nat) : FieldRef := ⟨0x0002300000 + i * 0x40, 11, 1⟩
def tmr_TMR_CFG_ONESHOT (i : Nat) : FieldRef := ⟨0x0002300000 + i * 0x40, 10, 1⟩
def tmr_TMR_CFG_CLR_ON_MATCH (i : Nat) : FieldRef := ⟨0x0002300000 + i * 0x40, 9, 1⟩
def tmr_TMR_CFG_GATE_LVL (i : Nat) : FieldRef := ⟨0x0002300000 + i * 0x40, 8, 1⟩
def tmr_TMR_CFG_GATE (i : Nat) : FieldRef := ⟨0x0002300000 + i * 0x40, 4, 4⟩
def tmr_TMR_CFG_CLK_SRC (i : Nat) : FieldRef := ⟨0x0002300000 + i * 0x40, 1, 3⟩
def tmr_TMR_CFG_EN (i : Nat) : FieldRef := ⟨0x0002300000 + i * 0x40, 0, 1⟩
/-- TMR_LINK (R445). -/
def tmr_TMR_LINK (i : Nat) : Nat := 0x0002300004 + i * 0x40
def tmr_TMR_LINK_START (i : Nat) : FieldRef := ⟨0x0002300004 + i * 0x40, 8, 1⟩
def tmr_TMR_LINK_RST (i : Nat) : FieldRef := ⟨0x0002300004 + i * 0x40, 7, 1⟩
def tmr_TMR_LINK_MEVENT (i : Nat) : FieldRef := ⟨0x0002300004 + i * 0x40, 5, 2⟩
def tmr_TMR_LINK_MASTER (i : Nat) : FieldRef := ⟨0x0002300004 + i * 0x40, 0, 5⟩
/-- TMR_COUNT (R445). -/
def tmr_TMR_COUNT (i : Nat) : Nat := 0x0002300008 + i * 0x40
def tmr_TMR_COUNT_COUNT (i : Nat) : FieldRef := ⟨0x0002300008 + i * 0x40, 0, 32⟩
/-- TMR_COMPARE (R445). -/
def tmr_TMR_COMPARE (i : Nat) : Nat := 0x000230000C + i * 0x40
def tmr_TMR_COMPARE_COMPARE (i : Nat) : FieldRef := ⟨0x000230000C + i * 0x40, 0, 32⟩
/-- TMR_CAP (R445). -/
def tmr_TMR_CAP (i : Nat) : Nat := 0x0002300010 + i * 0x40
def tmr_TMR_CAP_NEW (i : Nat) : FieldRef := ⟨0x0002300014 + i * 0x40, 0, 1⟩
def tmr_TMR_CAP_VALUE (i : Nat) : FieldRef := ⟨0x0002300010 + i * 0x40, 0, 32⟩
/-- TMR_EVENTS (R445). -/
def tmr_TMR_EVENTS (i : Nat) : Nat := 0x0002300018 + i * 0x40
def tmr_TMR_EVENTS_EVENTS (i : Nat) : FieldRef := ⟨0x0002300018 + i * 0x40, 0, 4⟩
/-- TMR_STATUS (R445). -/
def tmr_TMR_STATUS (i : Nat) : Nat := 0x000230001C + i * 0x40
def tmr_TMR_STATUS_COUNTING (i : Nat) : FieldRef := ⟨0x000230001C + i * 0x40, 1, 1⟩
def tmr_TMR_STATUS_OUT (i : Nat) : FieldRef := ⟨0x000230001C + i * 0x40, 0, 1⟩
/-- TMR_START (R445). -/
def tmr_TMR_START : Nat := 0x0002301000
def tmr_TMR_START_START : FieldRef := ⟨0x0002301000, 0, 32⟩
/-- TMR_STOP (R445). -/
def tmr_TMR_STOP : Nat := 0x0002301004
def tmr_TMR_STOP_STOP : FieldRef := ⟨0x0002301004, 0, 32⟩
/-- TMR_ACTIVE (R445). -/
def tmr_TMR_ACTIVE : Nat := 0x0002301008
def tmr_TMR_ACTIVE_ACTIVE : FieldRef := ⟨0x0002301008, 0, 32⟩
/-- REC_STATUS (R453). -/
def rec_REC_STATUS : Nat := 0x0002001000
def rec_REC_STATUS_SEEDED : FieldRef := ⟨0x0002001000, 21, 1⟩
def rec_REC_STATUS_PENDING : FieldRef := ⟨0x0002001000, 16, 5⟩
def rec_REC_STATUS_FROZEN : FieldRef := ⟨0x0002001000, 15, 1⟩
def rec_REC_STATUS_INDEX : FieldRef := ⟨0x0002001000, 0, 14⟩
/-- REC_EVENTS (R453). -/
def rec_REC_EVENTS : Nat := 0x0002001004
def rec_REC_EVENTS_EVENTS : FieldRef := ⟨0x0002001004, 0, 3⟩
/-- REC_CMD (R453). -/
def rec_REC_CMD : Nat := 0x0002001008
def rec_REC_CMD_CMD : FieldRef := ⟨0x0002001008, 0, 2⟩
/-- LOST_COUNT (R453). -/
def rec_LOST_COUNT : Nat := 0x000200100C
def rec_LOST_COUNT_COUNT : FieldRef := ⟨0x000200100C, 0, 32⟩
/-- REC_SEED (R453). -/
def rec_REC_SEED : Nat := 0x0002001010
def rec_REC_SEED_SEED : FieldRef := ⟨0x0002001010, 0, 56⟩
/-- REC_NOW (R453). -/
def rec_REC_NOW : Nat := 0x0002001018
def rec_REC_NOW_NOW : FieldRef := ⟨0x0002001018, 0, 57⟩
/-- REC_SW_ARG0 (R453). -/
def rec_REC_SW_ARG0 : Nat := 0x0002001020
def rec_REC_SW_ARG0_ARG : FieldRef := ⟨0x0002001020, 0, 32⟩
/-- REC_SW_ARG1 (R453). -/
def rec_REC_SW_ARG1 : Nat := 0x0002001028
def rec_REC_SW_ARG1_ARG : FieldRef := ⟨0x0002001028, 0, 64⟩
/-- REC_SW_CODE (R453). -/
def rec_REC_SW_CODE : Nat := 0x0002001030
def rec_REC_SW_CODE_CODE : FieldRef := ⟨0x0002001030, 0, 16⟩
/-- BOOT_IMAGE (R521). -/
def boot_BOOT_IMAGE : Nat := 0x0002002000
def boot_BOOT_IMAGE_VALID : FieldRef := ⟨0x0002002000, 31, 1⟩
def boot_BOOT_IMAGE_OFFSET : FieldRef := ⟨0x0002002000, 0, 28⟩
/-- BOOT_COUNT (R521). -/
def boot_BOOT_COUNT : Nat := 0x0002002004
def boot_BOOT_COUNT_COUNT : FieldRef := ⟨0x0002002004, 0, 32⟩
/-- CLK_STATUS (R472). -/
def clk_CLK_STATUS : Nat := 0x0002500000
def clk_CLK_STATUS_REF_OK : FieldRef := ⟨0x0002500000, 13, 4⟩
def clk_CLK_STATUS_LOCK : FieldRef := ⟨0x0002500000, 0, 13⟩
/-- CLK_EVENTS (R472). -/
def clk_CLK_EVENTS : Nat := 0x0002500004
def clk_CLK_EVENTS_REF_LOST : FieldRef := ⟨0x0002500004, 13, 4⟩
def clk_CLK_EVENTS_LOCK_LOST : FieldRef := ⟨0x0002500004, 0, 13⟩
/-- CLK_CORE (R472). -/
def clk_CLK_CORE (i : Nat) : Nat := 0x0002500010 + i * 0x4
def clk_CLK_CORE_CHANGING (i : Nat) : FieldRef := ⟨0x0002500010 + i * 0x4, 8, 1⟩
def clk_CLK_CORE_MULT (i : Nat) : FieldRef := ⟨0x0002500010 + i * 0x4, 0, 4⟩
/-- CLK_MEAS_SEL (R472). -/
def clk_CLK_MEAS_SEL : Nat := 0x0002500020
def clk_CLK_MEAS_SEL_START : FieldRef := ⟨0x0002500020, 31, 1⟩
def clk_CLK_MEAS_SEL_DOMAIN : FieldRef := ⟨0x0002500020, 0, 5⟩
/-- CLK_MEAS (R472). -/
def clk_CLK_MEAS : Nat := 0x0002500024
def clk_CLK_MEAS_DONE : FieldRef := ⟨0x0002500024, 31, 1⟩
def clk_CLK_MEAS_KHZ : FieldRef := ⟨0x0002500024, 0, 24⟩
/-- CLK_ALIGN (R472). -/
def clk_CLK_ALIGN : Nat := 0x0002500028
def clk_CLK_ALIGN_TB_LOCKED : FieldRef := ⟨0x0002500028, 1, 1⟩
def clk_CLK_ALIGN_ALIGNED : FieldRef := ⟨0x0002500028, 0, 1⟩
/-- RST_CMD (R473). -/
def rst_RST_CMD : Nat := 0x0002600000
def rst_RST_CMD_TARGET : FieldRef := ⟨0x0002600000, 4, 10⟩
def rst_RST_CMD_KIND : FieldRef := ⟨0x0002600000, 0, 4⟩
/-- RST_STATUS (R473). -/
def rst_RST_STATUS : Nat := 0x0002600004
def rst_RST_STATUS_BUSY : FieldRef := ⟨0x0002600004, 31, 1⟩
def rst_RST_STATUS_RUNNING : FieldRef := ⟨0x0002600004, 28, 3⟩
def rst_RST_STATUS_REGION_HELD : FieldRef := ⟨0x0002600004, 24, 4⟩
def rst_RST_STATUS_RESULT : FieldRef := ⟨0x0002600004, 0, 8⟩
/-- RST_CAUSE (R473). -/
def rst_RST_CAUSE : Nat := 0x0002600008
def rst_RST_CAUSE_CAUSE : FieldRef := ⟨0x0002600008, 0, 6⟩
/-- RST_CFG (R473). -/
def rst_RST_CFG : Nat := 0x000260000C
def rst_RST_CFG_PERST_WARM : FieldRef := ⟨0x000260000C, 0, 1⟩
/-- RST_EVENTS (R473). -/
def rst_RST_EVENTS : Nat := 0x0002600010
def rst_RST_EVENTS_EVENTS : FieldRef := ⟨0x0002600010, 0, 5⟩
/-- BIST_INFO (R473). -/
def rst_BIST_INFO : Nat := 0x0002600014
def rst_BIST_INFO_VALID : FieldRef := ⟨0x0002600014, 31, 1⟩
def rst_BIST_INFO_SLICE : FieldRef := ⟨0x0002600014, 8, 1⟩
def rst_BIST_INFO_BLOCK : FieldRef := ⟨0x0002600014, 0, 6⟩
/-- BOOT_US (R473). -/
def rst_BOOT_US : Nat := 0x0002600018
def rst_BOOT_US_US : FieldRef := ⟨0x0002600018, 0, 32⟩
/-- RST_CORE_HELD (R473). -/
def rst_RST_CORE_HELD (i : Nat) : Nat := 0x0002600020 + i * 0x4
def rst_RST_CORE_HELD_HELD (i : Nat) : FieldRef := ⟨0x0002600020 + i * 0x4, 0, 32⟩
/-- PWR_CMD (R495). -/
def pwr_PWR_CMD : Nat := 0x0002700000
def pwr_PWR_CMD_MODE : FieldRef := ⟨0x0002700000, 8, 1⟩
def pwr_PWR_CMD_REGION : FieldRef := ⟨0x0002700000, 4, 2⟩
def pwr_PWR_CMD_OP : FieldRef := ⟨0x0002700000, 0, 4⟩
/-- PWR_STATUS (R495). -/
def pwr_PWR_STATUS : Nat := 0x0002700004
def pwr_PWR_STATUS_BUSY : FieldRef := ⟨0x0002700004, 31, 1⟩
def pwr_PWR_STATUS_RESULT : FieldRef := ⟨0x0002700004, 24, 4⟩
def pwr_PWR_STATUS_FROM_P3 : FieldRef := ⟨0x0002700004, 20, 1⟩
def pwr_PWR_STATUS_WHY : FieldRef := ⟨0x0002700004, 16, 4⟩
def pwr_PWR_STATUS_REGION_STATE : FieldRef := ⟨0x0002700004, 0, 16⟩
/-- PWR_EVENTS (R495). -/
def pwr_PWR_EVENTS : Nat := 0x0002700008
def pwr_PWR_EVENTS_EVENTS : FieldRef := ⟨0x0002700008, 0, 10⟩
/-- PWR_P1_CFG (R495). -/
def pwr_PWR_P1_CFG : Nat := 0x000270000C
def pwr_PWR_P1_CFG_CORE_IDLE : FieldRef := ⟨0x000270000C, 4, 16⟩
def pwr_PWR_P1_CFG_P1_EN : FieldRef := ⟨0x000270000C, 0, 4⟩
/-- PWR_VF (R495). -/
def pwr_PWR_VF (i : Nat) : Nat := 0x0002700010 + i * 0x4
def pwr_PWR_VF_VMV (i : Nat) : FieldRef := ⟨0x0002700010 + i * 0x4, 16, 10⟩
def pwr_PWR_VF_MULT (i : Nat) : FieldRef := ⟨0x0002700010 + i * 0x4, 0, 4⟩
/-- PWR_VF_STATUS (R495). -/
def pwr_PWR_VF_STATUS (i : Nat) : Nat := 0x0002700020 + i * 0x4
def pwr_PWR_VF_STATUS_SETTLING (i : Nat) : FieldRef := ⟨0x0002700020 + i * 0x4, 31, 1⟩
def pwr_PWR_VF_STATUS_V_OK (i : Nat) : FieldRef := ⟨0x0002700020 + i * 0x4, 30, 1⟩
def pwr_PWR_VF_STATUS_MODE_OK (i : Nat) : FieldRef := ⟨0x0002700020 + i * 0x4, 29, 1⟩
def pwr_PWR_VF_STATUS_CUR_VMV (i : Nat) : FieldRef := ⟨0x0002700020 + i * 0x4, 16, 10⟩
def pwr_PWR_VF_STATUS_CUR_MULT (i : Nat) : FieldRef := ⟨0x0002700020 + i * 0x4, 0, 4⟩
/-- PWR_CAP (R495). -/
def pwr_PWR_CAP : Nat := 0x0002700030
def pwr_PWR_CAP_EN : FieldRef := ⟨0x0002700030, 31, 1⟩
def pwr_PWR_CAP_AUTO_V : FieldRef := ⟨0x0002700030, 30, 1⟩
def pwr_PWR_CAP_WATTS : FieldRef := ⟨0x0002700030, 0, 10⟩
/-- PWR_CAP_FLOOR (R495). -/
def pwr_PWR_CAP_FLOOR : Nat := 0x0002700034
def pwr_PWR_CAP_FLOOR_FLOOR : FieldRef := ⟨0x0002700034, 0, 16⟩
/-- PWR_EST (R495). -/
def pwr_PWR_EST : Nat := 0x0002700038
def pwr_PWR_EST_MILLIWATTS : FieldRef := ⟨0x0002700038, 0, 18⟩
/-- PWR_EST_R (R495). -/
def pwr_PWR_EST_R (i : Nat) : Nat := 0x0002700040 + i * 0x4
def pwr_PWR_EST_R_MILLIWATTS (i : Nat) : FieldRef := ⟨0x0002700040 + i * 0x4, 0, 18⟩
/-- PWR_WAKE_CFG (R495). -/
def pwr_PWR_WAKE_CFG : Nat := 0x0002700050
def pwr_PWR_WAKE_CFG_P2_MASK : FieldRef := ⟨0x0002700050, 8, 4⟩
def pwr_PWR_WAKE_CFG_EN : FieldRef := ⟨0x0002700050, 7, 1⟩
def pwr_PWR_WAKE_CFG_ADDR : FieldRef := ⟨0x0002700050, 0, 7⟩
/-- PWR_CFG (R495). -/
def pwr_PWR_CFG : Nat := 0x0002700054
def pwr_PWR_CFG_P3_MEM_SR : FieldRef := ⟨0x0002700054, 0, 1⟩
/-- GOV_MAX_WAIT (R495). -/
def pwr_GOV_MAX_WAIT (i : Nat) : Nat := 0x0002700060 + i * 0x4
def pwr_GOV_MAX_WAIT_NS (i : Nat) : FieldRef := ⟨0x0002700060 + i * 0x4, 0, 32⟩
/-- PWR_PMBUS (R495). -/
def pwr_PWR_PMBUS (i : Nat) : Nat := 0x0002700070 + i * 0x4
def pwr_PWR_PMBUS_VRAMP_US (i : Nat) : FieldRef := ⟨0x0002700070 + i * 0x4, 8, 16⟩
def pwr_PWR_PMBUS_ADDR (i : Nat) : FieldRef := ⟨0x0002700070 + i * 0x4, 0, 7⟩
/-- SEC_STATUS (R521). -/
def sec_SEC_STATUS : Nat := 0x0001F00000
def sec_SEC_STATUS_BOOT_SRC : FieldRef := ⟨0x0001F00000, 8, 2⟩
def sec_SEC_STATUS_KEY_SLOT : FieldRef := ⟨0x0001F00000, 6, 2⟩
def sec_SEC_STATUS_DBG : FieldRef := ⟨0x0001F00000, 5, 1⟩
def sec_SEC_STATUS_ID_OK : FieldRef := ⟨0x0001F00000, 4, 1⟩
def sec_SEC_STATUS_RESULT : FieldRef := ⟨0x0001F00000, 0, 4⟩
/-- SEC_EVENTS (R521). -/
def sec_SEC_EVENTS : Nat := 0x0001F00004
def sec_SEC_EVENTS_EVENTS : FieldRef := ⟨0x0001F00004, 0, 4⟩
/-- BOOT_FAILS (R521). -/
def sec_BOOT_FAILS : Nat := 0x0001F00008
def sec_BOOT_FAILS_COUNT : FieldRef := ⟨0x0001F00008, 0, 32⟩
/-- PROT_STAGE (R521). -/
def sec_PROT_STAGE : Nat := 0x0001F00010
def sec_PROT_STAGE_NONCE : FieldRef := ⟨0x0001F00010, 0, 32⟩
/-- PROT_COMMIT (R521). -/
def sec_PROT_COMMIT : Nat := 0x0001F00014
def sec_PROT_COMMIT_NONCE : FieldRef := ⟨0x0001F00014, 0, 32⟩
/-- PROT_DECLINE (R521). -/
def sec_PROT_DECLINE : Nat := 0x0001F00018
def sec_PROT_DECLINE_NONCE : FieldRef := ⟨0x0001F00018, 0, 32⟩
/-- PROT_STATUS (R521). -/
def sec_PROT_STATUS : Nat := 0x0001F0001C
def sec_PROT_STATUS_IGNORED : FieldRef := ⟨0x0001F0001C, 2, 1⟩
def sec_PROT_STATUS_STATE : FieldRef := ⟨0x0001F0001C, 0, 1⟩
/-- PROT_REJECT (R521). -/
def sec_PROT_REJECT : Nat := 0x0001F00020
def sec_PROT_REJECT_VALID : FieldRef := ⟨0x0001F00020, 31, 1⟩
def sec_PROT_REJECT_REASON : FieldRef := ⟨0x0001F00020, 0, 3⟩
/-- PROT_GEN (R521). -/
def sec_PROT_GEN : Nat := 0x0001F00024
def sec_PROT_GEN_COUNT : FieldRef := ⟨0x0001F00024, 0, 32⟩
/-- PROT_DENIED_INFO (R521). -/
def sec_PROT_DENIED_INFO : Nat := 0x0001F00028
def sec_PROT_DENIED_INFO_VALID : FieldRef := ⟨0x0001F0002C, 31, 1⟩
def sec_PROT_DENIED_INFO_WRITE : FieldRef := ⟨0x0001F0002C, 16, 3⟩
def sec_PROT_DENIED_INFO_CLASS : FieldRef := ⟨0x0001F0002C, 8, 6⟩
def sec_PROT_DENIED_INFO_ADDR : FieldRef := ⟨0x0001F00028, 0, 40⟩
/-- CFGLOAD_ADDR (R521). -/
def sec_CFGLOAD_ADDR : Nat := 0x0001F00040
def sec_CFGLOAD_ADDR_ADDR : FieldRef := ⟨0x0001F00040, 3, 37⟩
/-- CFGLOAD_CMD (R521). -/
def sec_CFGLOAD_CMD : Nat := 0x0001F00048
def sec_CFGLOAD_CMD_START : FieldRef := ⟨0x0001F00048, 0, 1⟩
/-- CFGLOAD_STATUS (R521). -/
def sec_CFGLOAD_STATUS : Nat := 0x0001F0004C
def sec_CFGLOAD_STATUS_BUSY : FieldRef := ⟨0x0001F0004C, 31, 1⟩
def sec_CFGLOAD_STATUS_IGNORED : FieldRef := ⟨0x0001F0004C, 4, 1⟩
def sec_CFGLOAD_STATUS_RESULT : FieldRef := ⟨0x0001F0004C, 0, 4⟩
/-- PROT_SHADOW (R512). -/
def protShadow_PROT_SHADOW (i : Nat) : Nat := 0x0001F01000 + i * 0x4
def protShadow_PROT_SHADOW_W (i : Nat) : FieldRef := ⟨0x0001F01000 + i * 0x4, 0, 32⟩
/-- PROT_LIVE (R512). -/
def protLive_PROT_LIVE (i : Nat) : Nat := 0x0001F02000 + i * 0x4
def protLive_PROT_LIVE_W (i : Nat) : FieldRef := ⟨0x0001F02000 + i * 0x4, 0, 32⟩

end Reg

/-- The registers of block glob (02_register_conventions.md). -/
def rows_glob : List RegRow :=
  [-- DEVICE_ID
   ⟨0x0, 32, 4, 1, [⟨31, 28, .ro, .fuse⟩, ⟨23, 20, .ro, .fuse⟩, ⟨19, 16, .ro, .fuse⟩, ⟨15, 8, .ro, .fuse⟩, ⟨7, 0, .ro, .num 174⟩]⟩,
   -- UNIQUE_ID
   ⟨0x8, 64, 8, 1, [⟨63, 0, .ro, .fuse⟩]⟩,
   -- FEATURE
   ⟨0x10, 32, 4, 1, [⟨14, 14, .ro, .fuse⟩, ⟨13, 13, .ro, .fuse⟩, ⟨12, 12, .ro, .fuse⟩, ⟨11, 11, .ro, .fuse⟩, ⟨10, 6, .ro, .fuse⟩, ⟨5, 4, .ro, .fuse⟩, ⟨3, 0, .ro, .fuse⟩]⟩,
   -- FUSE_STATUS
   ⟨0x20, 32, 4, 1, [⟨23, 16, .ro, .fuse⟩, ⟨15, 8, .ro, .fuse⟩, ⟨2, 2, .ro, .fuse⟩, ⟨1, 1, .ro, .fuse⟩, ⟨0, 0, .ro, .fuse⟩]⟩,
   -- SPARE_USED
   ⟨0x28, 64, 8, 1, [⟨63, 0, .ro, .train⟩]⟩,
   -- CHIP_STATUS
   ⟨0x30, 32, 4, 1, [⟨15, 15, .ro, .num 0⟩, ⟨14, 14, .ro, .num 0⟩, ⟨13, 13, .ro, .num 0⟩, ⟨12, 12, .ro, .num 0⟩, ⟨11, 11, .ro, .num 0⟩, ⟨10, 10, .ro, .num 0⟩, ⟨9, 9, .ro, .num 0⟩, ⟨8, 8, .ro, .num 0⟩, ⟨7, 4, .ro, .num 0⟩, ⟨3, 0, .ro, .num 0⟩]⟩,
   -- CHIP_EVENTS
   ⟨0x40, 32, 4, 1, [⟨3, 3, .rc, .num 0⟩, ⟨2, 2, .rc, .num 0⟩, ⟨1, 1, .rc, .num 0⟩, ⟨0, 0, .rc, .num 0⟩]⟩]

/-- The registers of block core (04_neurocore.md). -/
def rows_core : List RegRow :=
  [-- BLK_CTRL
   ⟨0x0, 32, 4, 1, [⟨0, 0, .rw, .num 0⟩]⟩,
   -- BLK_STATUS
   ⟨0x4, 32, 4, 1, [⟨2, 2, .ro, .num 0⟩, ⟨1, 1, .rc, .num 0⟩, ⟨0, 0, .ro, .num 0⟩]⟩,
   -- CORE_CFG
   ⟨0x8, 32, 4, 1, [⟨1, 1, .rwd, .num 0⟩, ⟨0, 0, .rwd, .num 0⟩]⟩,
   -- CORE_STATE
   ⟨0xC, 32, 4, 1, [⟨24, 16, .ro, .num 0⟩, ⟨13, 8, .ro, .num 0⟩, ⟨0, 0, .ro, .num 1⟩]⟩,
   -- ROLE_EPOCH
   ⟨0x10, 32, 4, 1, [⟨3, 0, .ro, .num 0⟩]⟩,
   -- FAULT_STATUS
   ⟨0x18, 32, 4, 1, [⟨9, 9, .rc, .num 0⟩, ⟨8, 8, .rc, .num 0⟩, ⟨7, 7, .rc, .num 0⟩, ⟨6, 6, .rc, .num 0⟩, ⟨5, 5, .rc, .num 0⟩, ⟨4, 4, .rc, .num 0⟩, ⟨3, 3, .rc, .num 0⟩, ⟨2, 2, .rc, .num 0⟩, ⟨1, 1, .rc, .num 0⟩, ⟨0, 0, .rc, .num 0⟩]⟩,
   -- FAULT_INFO
   ⟨0x1C, 32, 4, 1, [⟨31, 31, .ro, .num 0⟩, ⟨27, 11, .ro, .num 0⟩, ⟨9, 7, .ro, .num 0⟩, ⟨6, 4, .ro, .num 0⟩, ⟨3, 0, .ro, .num 0⟩]⟩,
   -- SAT_COUNT
   ⟨0x20, 32, 4, 1, [⟨31, 0, .rc, .num 0⟩]⟩,
   -- DELAY_ERR
   ⟨0x24, 32, 4, 1, [⟨31, 0, .rc, .num 0⟩]⟩,
   -- LATE_COUNT
   ⟨0x28, 32, 4, 1, [⟨31, 0, .rc, .num 0⟩]⟩,
   -- ECC_CORR_COUNT
   ⟨0x2C, 32, 4, 1, [⟨31, 0, .rc, .num 0⟩]⟩,
   -- REFUSED_COUNT
   ⟨0x30, 32, 4, 1, [⟨31, 0, .rc, .num 0⟩]⟩] ++
  [-- AXON_MISS_COUNT
   ⟨0x34, 32, 4, 1, [⟨31, 0, .rc, .num 0⟩]⟩,
   -- TARGET_ERR_COUNT
   ⟨0x38, 32, 4, 1, [⟨31, 0, .rc, .num 0⟩]⟩,
   -- SLICE_ERR_COUNT
   ⟨0x3C, 32, 4, 1, [⟨31, 0, .rc, .num 0⟩]⟩,
   -- SCRUB_CTRL
   ⟨0x40, 32, 4, 1, [⟨4, 1, .rw, .num 6⟩, ⟨0, 0, .rw, .num 1⟩]⟩,
   -- SYN_OPS
   ⟨0x48, 64, 8, 1, [⟨63, 0, .ro, .num 0⟩]⟩,
   -- PROG_RANGE
   ⟨0x60, 32, 4, 6, [⟨27, 16, .rwd, .dash⟩, ⟨11, 0, .rwd, .dash⟩]⟩]

/-- The registers of block engIE (04_neurocore.md, 05_instruction_set.md, 06_synchronisation_messaging.md, 10_learning.md). -/
def rows_engIE : List RegRow :=
  [-- ENG_STATUS
   ⟨0x0, 32, 4, 1, [⟨27, 16, .ro, .num 0⟩, ⟨2, 0, .ro, .num 0⟩]⟩,
   -- GANDER_LIMIT
   ⟨0x8, 32, 4, 1, [⟨31, 0, .rw, .num 1048576⟩]⟩,
   -- GANDER_EVENTS
   ⟨0xC, 32, 4, 1, [⟨0, 0, .rc, .num 0⟩]⟩,
   -- QUEUE_STATUS
   ⟨0x10, 32, 4, 1, [⟨23, 16, .ro, .num 0⟩, ⟨15, 8, .ro, .train⟩, ⟨7, 0, .ro, .num 0⟩]⟩,
   -- BUSY_CYCLES
   ⟨0x18, 64, 8, 1, [⟨63, 0, .ro, .num 0⟩]⟩,
   -- STALL_CYCLES
   ⟨0x20, 64, 8, 1, [⟨63, 0, .ro, .num 0⟩]⟩,
   -- HVEC
   ⟨0x100, 32, 4, 16, [⟨31, 31, .rw, .num 0⟩, ⟨11, 0, .rw, .dash⟩]⟩,
   -- EXC_CAUSE
   ⟨0x180, 32, 4, 1, [⟨31, 31, .rc, .num 0⟩, ⟨30, 30, .rc, .num 0⟩, ⟨4, 0, .ro, .num 0⟩]⟩,
   -- EXC_PC
   ⟨0x184, 32, 4, 1, [⟨12, 12, .ro, .num 0⟩, ⟨11, 0, .ro, .num 0⟩]⟩,
   -- EXC_VALUE
   ⟨0x188, 32, 4, 1, [⟨31, 0, .ro, .num 0⟩]⟩,
   -- HANDLER_LIMIT
   ⟨0x18C, 32, 4, 1, [⟨31, 0, .rw, .num 0⟩]⟩,
   -- CUR_SLOT
   ⟨0x190, 32, 4, 1, [⟨8, 0, .ro, .num 256⟩]⟩] ++
  [-- CUR_STEP
   ⟨0x198, 64, 8, 1, [⟨63, 0, .ro, .num 0⟩]⟩,
   -- QWATCH
   ⟨0x1A8, 64, 8, 1, [⟨63, 0, .rw, .num 0⟩]⟩,
   -- RETIRED
   ⟨0x1B0, 64, 8, 1, [⟨63, 0, .ro, .num 0⟩]⟩]

/-- The registers of block engSE (04_neurocore.md, 05_instruction_set.md, 06_synchronisation_messaging.md, 10_learning.md). -/
def rows_engSE : List RegRow :=
  [-- ENG_STATUS
   ⟨0x0, 32, 4, 1, [⟨27, 16, .ro, .num 0⟩, ⟨2, 0, .ro, .num 0⟩]⟩,
   -- GANDER_LIMIT
   ⟨0x8, 32, 4, 1, [⟨31, 0, .rw, .num 1048576⟩]⟩,
   -- GANDER_EVENTS
   ⟨0xC, 32, 4, 1, [⟨0, 0, .rc, .num 0⟩]⟩,
   -- QUEUE_STATUS
   ⟨0x10, 32, 4, 1, [⟨23, 16, .ro, .num 0⟩, ⟨15, 8, .ro, .train⟩, ⟨7, 0, .ro, .num 0⟩]⟩,
   -- BUSY_CYCLES
   ⟨0x18, 64, 8, 1, [⟨63, 0, .ro, .num 0⟩]⟩,
   -- STALL_CYCLES
   ⟨0x20, 64, 8, 1, [⟨63, 0, .ro, .num 0⟩]⟩,
   -- HVEC
   ⟨0x100, 32, 4, 16, [⟨31, 31, .rw, .num 0⟩, ⟨11, 0, .rw, .dash⟩]⟩,
   -- EXC_CAUSE
   ⟨0x180, 32, 4, 1, [⟨31, 31, .rc, .num 0⟩, ⟨30, 30, .rc, .num 0⟩, ⟨4, 0, .ro, .num 0⟩]⟩,
   -- EXC_PC
   ⟨0x184, 32, 4, 1, [⟨12, 12, .ro, .num 0⟩, ⟨11, 0, .ro, .num 0⟩]⟩,
   -- EXC_VALUE
   ⟨0x188, 32, 4, 1, [⟨31, 0, .ro, .num 0⟩]⟩,
   -- HANDLER_LIMIT
   ⟨0x18C, 32, 4, 1, [⟨31, 0, .rw, .num 0⟩]⟩,
   -- CUR_SLOT
   ⟨0x190, 32, 4, 1, [⟨8, 0, .ro, .num 256⟩]⟩] ++
  [-- CUR_STEP
   ⟨0x198, 64, 8, 1, [⟨63, 0, .ro, .num 0⟩]⟩,
   -- QWATCH
   ⟨0x1A8, 64, 8, 1, [⟨63, 0, .rw, .num 0⟩]⟩,
   -- RETIRED
   ⟨0x1B0, 64, 8, 1, [⟨63, 0, .ro, .num 0⟩]⟩,
   -- VMASK
   ⟨0x1A0, 32, 4, 1, [⟨15, 0, .rw, .num 65535⟩]⟩]

/-- The registers of block engSO (04_neurocore.md, 05_instruction_set.md, 06_synchronisation_messaging.md, 10_learning.md). -/
def rows_engSO : List RegRow :=
  [-- ENG_STATUS
   ⟨0x0, 32, 4, 1, [⟨27, 16, .ro, .num 0⟩, ⟨2, 0, .ro, .num 0⟩]⟩,
   -- GANDER_LIMIT
   ⟨0x8, 32, 4, 1, [⟨31, 0, .rw, .num 1048576⟩]⟩,
   -- GANDER_EVENTS
   ⟨0xC, 32, 4, 1, [⟨0, 0, .rc, .num 0⟩]⟩,
   -- QUEUE_STATUS
   ⟨0x10, 32, 4, 1, [⟨23, 16, .ro, .num 0⟩, ⟨15, 8, .ro, .train⟩, ⟨7, 0, .ro, .num 0⟩]⟩,
   -- BUSY_CYCLES
   ⟨0x18, 64, 8, 1, [⟨63, 0, .ro, .num 0⟩]⟩,
   -- STALL_CYCLES
   ⟨0x20, 64, 8, 1, [⟨63, 0, .ro, .num 0⟩]⟩,
   -- HVEC
   ⟨0x100, 32, 4, 16, [⟨31, 31, .rw, .num 0⟩, ⟨11, 0, .rw, .dash⟩]⟩,
   -- EXC_CAUSE
   ⟨0x180, 32, 4, 1, [⟨31, 31, .rc, .num 0⟩, ⟨30, 30, .rc, .num 0⟩, ⟨4, 0, .ro, .num 0⟩]⟩,
   -- EXC_PC
   ⟨0x184, 32, 4, 1, [⟨12, 12, .ro, .num 0⟩, ⟨11, 0, .ro, .num 0⟩]⟩,
   -- EXC_VALUE
   ⟨0x188, 32, 4, 1, [⟨31, 0, .ro, .num 0⟩]⟩,
   -- HANDLER_LIMIT
   ⟨0x18C, 32, 4, 1, [⟨31, 0, .rw, .num 0⟩]⟩,
   -- CUR_SLOT
   ⟨0x190, 32, 4, 1, [⟨8, 0, .ro, .num 256⟩]⟩] ++
  [-- CUR_STEP
   ⟨0x198, 64, 8, 1, [⟨63, 0, .ro, .num 0⟩]⟩,
   -- QWATCH
   ⟨0x1A8, 64, 8, 1, [⟨63, 0, .rw, .num 0⟩]⟩,
   -- RETIRED
   ⟨0x1B0, 64, 8, 1, [⟨63, 0, .ro, .num 0⟩]⟩,
   -- LAST_FIRES
   ⟨0x1B8, 32, 4, 1, [⟨14, 0, .ro, .num 0⟩]⟩]

/-- The registers of block engPE (04_neurocore.md, 05_instruction_set.md, 06_synchronisation_messaging.md, 10_learning.md). -/
def rows_engPE : List RegRow :=
  [-- ENG_STATUS
   ⟨0x0, 32, 4, 1, [⟨27, 16, .ro, .num 0⟩, ⟨2, 0, .ro, .num 0⟩]⟩,
   -- GANDER_LIMIT
   ⟨0x8, 32, 4, 1, [⟨31, 0, .rw, .num 1048576⟩]⟩,
   -- GANDER_EVENTS
   ⟨0xC, 32, 4, 1, [⟨0, 0, .rc, .num 0⟩]⟩,
   -- QUEUE_STATUS
   ⟨0x10, 32, 4, 1, [⟨23, 16, .ro, .num 0⟩, ⟨15, 8, .ro, .train⟩, ⟨7, 0, .ro, .num 0⟩]⟩,
   -- BUSY_CYCLES
   ⟨0x18, 64, 8, 1, [⟨63, 0, .ro, .num 0⟩]⟩,
   -- STALL_CYCLES
   ⟨0x20, 64, 8, 1, [⟨63, 0, .ro, .num 0⟩]⟩,
   -- HVEC
   ⟨0x100, 32, 4, 16, [⟨31, 31, .rw, .num 0⟩, ⟨11, 0, .rw, .dash⟩]⟩,
   -- EXC_CAUSE
   ⟨0x180, 32, 4, 1, [⟨31, 31, .rc, .num 0⟩, ⟨30, 30, .rc, .num 0⟩, ⟨4, 0, .ro, .num 0⟩]⟩,
   -- EXC_PC
   ⟨0x184, 32, 4, 1, [⟨12, 12, .ro, .num 0⟩, ⟨11, 0, .ro, .num 0⟩]⟩,
   -- EXC_VALUE
   ⟨0x188, 32, 4, 1, [⟨31, 0, .ro, .num 0⟩]⟩,
   -- HANDLER_LIMIT
   ⟨0x18C, 32, 4, 1, [⟨31, 0, .rw, .num 0⟩]⟩,
   -- CUR_SLOT
   ⟨0x190, 32, 4, 1, [⟨8, 0, .ro, .num 256⟩]⟩] ++
  [-- CUR_STEP
   ⟨0x198, 64, 8, 1, [⟨63, 0, .ro, .num 0⟩]⟩,
   -- QWATCH
   ⟨0x1A8, 64, 8, 1, [⟨63, 0, .rw, .num 0⟩]⟩,
   -- RETIRED
   ⟨0x1B0, 64, 8, 1, [⟨63, 0, .ro, .num 0⟩]⟩,
   -- VMASK
   ⟨0x1A0, 32, 4, 1, [⟨15, 0, .rw, .num 65535⟩]⟩,
   -- MODULATION
   ⟨0x1BC, 32, 4, 1, [⟨15, 0, .ro, .num 0⟩]⟩,
   -- LRN_STATUS
   ⟨0x40, 32, 4, 1, [⟨16, 16, .ro, .num 0⟩, ⟨9, 8, .ro, .num 0⟩, ⟨7, 0, .ro, .num 0⟩]⟩,
   -- LRN_EVENTS
   ⟨0x44, 32, 4, 1, [⟨3, 3, .rc, .num 0⟩, ⟨2, 2, .rc, .num 0⟩, ⟨1, 1, .rc, .num 0⟩, ⟨0, 0, .rc, .num 0⟩]⟩,
   -- LRN_SAT_COUNT
   ⟨0x48, 32, 4, 1, [⟨31, 0, .rc, .num 0⟩]⟩,
   -- LRN_LAST_CYCLES
   ⟨0x4C, 32, 4, 1, [⟨31, 0, .ro, .num 0⟩]⟩,
   -- LRN_MOD_SET
   ⟨0x50, 64, 8, 1, [⟨63, 32, .wo, .num 0⟩, ⟨24, 16, .wo, .num 0⟩, ⟨15, 0, .wo, .num 0⟩]⟩,
   -- INNINGS_DONE
   ⟨0x60, 32, 4, 4, [⟨31, 0, .ro, .num 0⟩]⟩,
   -- LSET
   ⟨0x80, 256, 32, 4, [⟨7, 0, .rw, .dash⟩, ⟨16, 8, .rw, .num 0⟩, ⟨17, 17, .rw, .dash⟩, ⟨19, 18, .rw, .dash⟩, ⟨20, 20, .rw, .dash⟩, ⟨21, 21, .rw, .dash⟩, ⟨25, 22, .rw, .dash⟩, ⟨47, 32, .rw, .dash⟩, ⟨63, 48, .rw, .dash⟩, ⟨79, 64, .rw, .dash⟩, ⟨95, 80, .rw, .dash⟩, ⟨111, 96, .rw, .dash⟩, ⟨127, 112, .rw, .dash⟩, ⟨145, 128, .rw, .dash⟩, ⟨177, 160, .rw, .dash⟩, ⟨206, 192, .rw, .dash⟩, ⟨223, 208, .rw, .dash⟩, ⟨239, 224, .rw, .dash⟩]⟩]

/-- The registers of block engEE (04_neurocore.md, 05_instruction_set.md, 06_synchronisation_messaging.md, 10_learning.md). -/
def rows_engEE : List RegRow :=
  [-- ENG_STATUS
   ⟨0x0, 32, 4, 1, [⟨27, 16, .ro, .num 0⟩, ⟨2, 0, .ro, .num 0⟩]⟩,
   -- GANDER_LIMIT
   ⟨0x8, 32, 4, 1, [⟨31, 0, .rw, .num 1048576⟩]⟩,
   -- GANDER_EVENTS
   ⟨0xC, 32, 4, 1, [⟨0, 0, .rc, .num 0⟩]⟩,
   -- QUEUE_STATUS
   ⟨0x10, 32, 4, 1, [⟨23, 16, .ro, .num 0⟩, ⟨15, 8, .ro, .train⟩, ⟨7, 0, .ro, .num 0⟩]⟩,
   -- BUSY_CYCLES
   ⟨0x18, 64, 8, 1, [⟨63, 0, .ro, .num 0⟩]⟩,
   -- STALL_CYCLES
   ⟨0x20, 64, 8, 1, [⟨63, 0, .ro, .num 0⟩]⟩,
   -- HVEC
   ⟨0x100, 32, 4, 16, [⟨31, 31, .rw, .num 0⟩, ⟨11, 0, .rw, .dash⟩]⟩,
   -- EXC_CAUSE
   ⟨0x180, 32, 4, 1, [⟨31, 31, .rc, .num 0⟩, ⟨30, 30, .rc, .num 0⟩, ⟨4, 0, .ro, .num 0⟩]⟩,
   -- EXC_PC
   ⟨0x184, 32, 4, 1, [⟨12, 12, .ro, .num 0⟩, ⟨11, 0, .ro, .num 0⟩]⟩,
   -- EXC_VALUE
   ⟨0x188, 32, 4, 1, [⟨31, 0, .ro, .num 0⟩]⟩,
   -- HANDLER_LIMIT
   ⟨0x18C, 32, 4, 1, [⟨31, 0, .rw, .num 0⟩]⟩,
   -- CUR_SLOT
   ⟨0x190, 32, 4, 1, [⟨8, 0, .ro, .num 256⟩]⟩] ++
  [-- CUR_STEP
   ⟨0x198, 64, 8, 1, [⟨63, 0, .ro, .num 0⟩]⟩,
   -- QWATCH
   ⟨0x1A8, 64, 8, 1, [⟨63, 0, .rw, .num 0⟩]⟩,
   -- RETIRED
   ⟨0x1B0, 64, 8, 1, [⟨63, 0, .ro, .num 0⟩]⟩]

/-- The registers of block engSQ (04_neurocore.md, 05_instruction_set.md, 06_synchronisation_messaging.md, 10_learning.md). -/
def rows_engSQ : List RegRow :=
  [-- ENG_STATUS
   ⟨0x0, 32, 4, 1, [⟨27, 16, .ro, .num 0⟩, ⟨2, 0, .ro, .num 0⟩]⟩,
   -- GANDER_LIMIT
   ⟨0x8, 32, 4, 1, [⟨31, 0, .rw, .num 1048576⟩]⟩,
   -- GANDER_EVENTS
   ⟨0xC, 32, 4, 1, [⟨0, 0, .rc, .num 0⟩]⟩,
   -- QUEUE_STATUS
   ⟨0x10, 32, 4, 1, [⟨23, 16, .ro, .num 0⟩, ⟨15, 8, .ro, .train⟩, ⟨7, 0, .ro, .num 0⟩]⟩,
   -- BUSY_CYCLES
   ⟨0x18, 64, 8, 1, [⟨63, 0, .ro, .num 0⟩]⟩,
   -- STALL_CYCLES
   ⟨0x20, 64, 8, 1, [⟨63, 0, .ro, .num 0⟩]⟩,
   -- HVEC
   ⟨0x100, 32, 4, 16, [⟨31, 31, .rw, .num 0⟩, ⟨11, 0, .rw, .dash⟩]⟩,
   -- EXC_CAUSE
   ⟨0x180, 32, 4, 1, [⟨31, 31, .rc, .num 0⟩, ⟨30, 30, .rc, .num 0⟩, ⟨4, 0, .ro, .num 0⟩]⟩,
   -- EXC_PC
   ⟨0x184, 32, 4, 1, [⟨12, 12, .ro, .num 0⟩, ⟨11, 0, .ro, .num 0⟩]⟩,
   -- EXC_VALUE
   ⟨0x188, 32, 4, 1, [⟨31, 0, .ro, .num 0⟩]⟩,
   -- HANDLER_LIMIT
   ⟨0x18C, 32, 4, 1, [⟨31, 0, .rw, .num 0⟩]⟩,
   -- CUR_SLOT
   ⟨0x190, 32, 4, 1, [⟨8, 0, .ro, .num 256⟩]⟩] ++
  [-- CUR_STEP
   ⟨0x198, 64, 8, 1, [⟨63, 0, .ro, .num 0⟩]⟩,
   -- QWATCH
   ⟨0x1A8, 64, 8, 1, [⟨63, 0, .rw, .num 0⟩]⟩,
   -- RETIRED
   ⟨0x1B0, 64, 8, 1, [⟨63, 0, .ro, .num 0⟩]⟩,
   -- SLICE_HANDOVER
   ⟨0x30, 32, 4, 1, [⟨31, 7, .wo, .num 0⟩, ⟨5, 0, .wo, .num 0⟩]⟩,
   -- CTRL_VEC
   ⟨0x140, 32, 4, 16, [⟨31, 31, .rw, .num 0⟩, ⟨11, 0, .rw, .dash⟩]⟩,
   -- CHAN_ROUTE
   ⟨0x400, 64, 8, 32, [⟨36, 32, .ro, .num 0⟩, ⟨31, 31, .rw, .num 0⟩, ⟨24, 20, .rw, .dash⟩, ⟨19, 16, .rw, .dash⟩, ⟨15, 0, .rw, .dash⟩]⟩,
   -- QLEVEL
   ⟨0x500, 32, 4, 64, [⟨31, 31, .ro, .num 0⟩, ⟨29, 29, .rc, .num 0⟩, ⟨28, 28, .rc, .num 0⟩, ⟨27, 27, .rc, .num 0⟩, ⟨23, 0, .ro, .num 0⟩]⟩,
   -- QDATA
   ⟨0x600, 64, 8, 64, [⟨63, 0, .rc, .dash⟩]⟩]

/-- The registers of block mbx (06_synchronisation_messaging.md). -/
def rows_mbx : List RegRow :=
  [-- MBX_CFG
   ⟨0x0, 32, 16, 64, [⟨25, 16, .rw, .num 0⟩, ⟨12, 8, .rw, .num 0⟩, ⟨7, 4, .rw, .num 15⟩, ⟨3, 0, .rw, .num 15⟩]⟩,
   -- MBX_DATA
   ⟨0x4, 32, 16, 64, [⟨31, 0, .rw, .num 0⟩]⟩,
   -- MBX_STATUS
   ⟨0x8, 32, 16, 64, [⟨15, 8, .ro, .num 0⟩, ⟨5, 5, .rc, .num 0⟩, ⟨4, 4, .rc, .num 0⟩, ⟨3, 3, .rc, .num 0⟩, ⟨2, 2, .rc, .num 0⟩, ⟨1, 1, .rc, .num 0⟩, ⟨0, 0, .ro, .num 0⟩]⟩,
   -- MBX_ACK
   ⟨0xC, 32, 16, 64, [⟨7, 0, .wo, .num 0⟩]⟩,
   -- DB_PEND
   ⟨0x1000, 32, 8, 10, [⟨31, 0, .rc, .num 0⟩]⟩,
   -- DB_MASK
   ⟨0x1004, 32, 8, 10, [⟨31, 0, .rw, .num 0⟩]⟩,
   -- MBX_TIMEOUT
   ⟨0x1100, 32, 4, 1, [⟨19, 0, .rw, .num 1000⟩]⟩]

/-- The registers of block fab (07_fabric.md). -/
def rows_fab : List RegRow :=
  [-- FAB_CFG
   ⟨0x0, 32, 4, 1, [⟨23, 16, .rw, .num 64⟩, ⟨15, 12, .rw, .num 8⟩, ⟨11, 0, .rw, .num 256⟩]⟩,
   -- FAB_DRAIN
   ⟨0x4, 32, 4, 1, [⟨3, 0, .rw, .num 0⟩]⟩,
   -- FAB_DRAIN_STATUS
   ⟨0x8, 32, 4, 1, [⟨3, 0, .ro, .num 0⟩]⟩,
   -- FAB_EVENTS
   ⟨0xC, 32, 4, 1, [⟨4, 4, .rc, .num 0⟩, ⟨3, 3, .rc, .num 0⟩, ⟨2, 2, .rc, .num 0⟩, ⟨1, 1, .rc, .num 0⟩, ⟨0, 0, .rc, .num 0⟩]⟩,
   -- CRC_FAIL_COUNT
   ⟨0x10, 32, 4, 1, [⟨31, 0, .rc, .num 0⟩]⟩,
   -- HCHK_DROP_COUNT
   ⟨0x14, 32, 4, 1, [⟨31, 0, .rc, .num 0⟩]⟩,
   -- RETX_COUNT
   ⟨0x18, 32, 4, 1, [⟨31, 0, .rc, .num 0⟩]⟩,
   -- DUP_COUNT
   ⟨0x1C, 32, 4, 1, [⟨31, 0, .rc, .num 0⟩]⟩]

/-- The registers of block rtr (07_fabric.md). -/
def rows_rtr : List RegRow :=
  [-- RTR_ALT
   ⟨0x0, 32, 4, 32, [⟨31, 0, .rw, .num 0⟩]⟩,
   -- RTR_STATUS
   ⟨0x80, 32, 4, 1, [⟨13, 8, .ro, .fuse⟩, ⟨5, 0, .ro, .num 0⟩]⟩,
   -- RTR_EVENTS
   ⟨0x84, 32, 4, 1, [⟨7, 7, .rc, .num 0⟩, ⟨6, 6, .rc, .num 0⟩, ⟨5, 0, .rc, .num 0⟩]⟩,
   -- RTR_STALL_CYCLES
   ⟨0x88, 64, 8, 1, [⟨63, 0, .ro, .num 0⟩]⟩]

/-- The registers of block tb (08_time_steps.md). -/
def rows_tb : List RegRow :=
  [-- BLK_CTRL
   ⟨0x0, 32, 4, 1, [⟨0, 0, .rw, .num 0⟩]⟩,
   -- BLK_STATUS
   ⟨0x4, 32, 4, 1, [⟨2, 2, .ro, .num 0⟩, ⟨1, 1, .rc, .num 0⟩, ⟨0, 0, .ro, .num 0⟩]⟩,
   -- TB_CFG
   ⟨0x8, 32, 4, 1, [⟨1, 0, .rwd, .num 0⟩]⟩,
   -- TB_INTERVAL
   ⟨0xC, 32, 4, 1, [⟨29, 0, .rwd, .num 1000⟩]⟩,
   -- TB_WICKET
   ⟨0x10, 64, 8, 1, [⟨63, 0, .ro, .num 0⟩]⟩,
   -- TB_STATE
   ⟨0x18, 32, 4, 1, [⟨31, 30, .ro, .num 0⟩, ⟨16, 0, .ro, .num 0⟩]⟩,
   -- STEP_SLIP_LIMIT
   ⟨0x1C, 32, 4, 1, [⟨29, 0, .rw, .num 10000⟩]⟩,
   -- STEP_STRETCH
   ⟨0x20, 32, 4, 1, [⟨31, 0, .ro, .num 0⟩]⟩,
   -- STRETCH_MAX
   ⟨0x24, 32, 4, 1, [⟨31, 0, .rc, .num 0⟩]⟩,
   -- STRETCH_COUNT
   ⟨0x28, 32, 4, 1, [⟨31, 0, .rc, .num 0⟩]⟩,
   -- TB_EVENTS
   ⟨0x2C, 32, 4, 1, [⟨2, 2, .rc, .num 0⟩, ⟨1, 1, .rc, .num 0⟩, ⟨0, 0, .rc, .num 0⟩]⟩,
   -- OVERRUN_CTX
   ⟨0x30, 32, 4, 1, [⟨31, 31, .ro, .num 0⟩, ⟨15, 0, .ro, .num 0⟩]⟩] ++
  [-- DET_CTRL
   ⟨0x34, 32, 4, 1, [⟨0, 0, .rw, .num 1⟩]⟩]

/-- The registers of block adm (08_time_steps.md). -/
def rows_adm : List RegRow :=
  [-- BLK_CTRL
   ⟨0x0, 32, 4, 1, [⟨0, 0, .rw, .num 0⟩]⟩,
   -- BLK_STATUS
   ⟨0x4, 32, 4, 1, [⟨2, 2, .ro, .num 0⟩, ⟨1, 1, .rc, .num 0⟩, ⟨0, 0, .ro, .num 0⟩]⟩,
   -- ADM_CFG
   ⟨0x8, 32, 4, 1, [⟨4, 1, .rwd, .num 0⟩, ⟨0, 0, .rwd, .num 1⟩]⟩,
   -- ADM_RING_BASE
   ⟨0x10, 64, 8, 1, [⟨39, 12, .rwd, .dash⟩]⟩,
   -- ADM_RING_PROD
   ⟨0x18, 32, 4, 1, [⟨31, 0, .ro, .num 0⟩]⟩,
   -- ADM_RING_CONS
   ⟨0x1C, 32, 4, 1, [⟨31, 0, .rw, .num 0⟩]⟩,
   -- ADM_ACCEPTED
   ⟨0x20, 64, 8, 1, [⟨63, 0, .ro, .num 0⟩]⟩,
   -- ADM_REFUSED
   ⟨0x28, 64, 8, 1, [⟨63, 0, .ro, .num 0⟩]⟩,
   -- ADM_EVENTS
   ⟨0x30, 32, 4, 1, [⟨3, 3, .rc, .num 0⟩, ⟨2, 2, .rc, .num 0⟩, ⟨1, 1, .rc, .num 0⟩, ⟨0, 0, .rc, .num 0⟩]⟩,
   -- ADM_RING_LOST
   ⟨0x34, 32, 4, 1, [⟨31, 0, .rc, .num 0⟩]⟩,
   -- ADM_HOLD_LEVEL
   ⟨0x38, 32, 4, 1, [⟨13, 0, .ro, .num 0⟩]⟩,
   -- ADM_SRC_REFUSED
   ⟨0x40, 32, 4, 10, [⟨31, 0, .rc, .num 0⟩]⟩]

/-- The registers of block bdu (09_dense_and_formats.md). -/
def rows_bdu : List RegRow :=
  [-- BLK_CTRL
   ⟨0x0, 32, 4, 1, [⟨0, 0, .rw, .num 0⟩]⟩,
   -- BLK_STATUS
   ⟨0x4, 32, 4, 1, [⟨2, 2, .ro, .num 0⟩, ⟨1, 1, .rc, .num 0⟩, ⟨0, 0, .ro, .num 0⟩]⟩,
   -- BDU_CFG
   ⟨0x8, 32, 4, 1, [⟨13, 0, .rwd, .dash⟩]⟩,
   -- BDU_REF
   ⟨0xC, 32, 4, 1, [⟨10, 8, .rwd, .num 0⟩, ⟨7, 0, .rwd, .dash⟩]⟩,
   -- BDU_STATUS
   ⟨0x10, 32, 4, 1, [⟨14, 8, .ro, .num 0⟩, ⟨6, 6, .ro, .num 0⟩, ⟨5, 0, .ro, .num 0⟩]⟩,
   -- BDU_EVENTS
   ⟨0x14, 32, 4, 1, [⟨5, 5, .rc, .num 0⟩, ⟨4, 4, .rc, .num 0⟩, ⟨3, 3, .rc, .num 0⟩, ⟨2, 2, .rc, .num 0⟩, ⟨1, 1, .rc, .num 0⟩, ⟨0, 0, .rc, .num 0⟩]⟩,
   -- BDU_FAULT_INFO
   ⟨0x18, 32, 4, 1, [⟨31, 31, .ro, .num 0⟩, ⟨11, 8, .ro, .num 0⟩, ⟨5, 0, .ro, .num 0⟩]⟩,
   -- ACC_SAT_COUNT
   ⟨0x20, 32, 4, 1, [⟨31, 0, .rc, .num 0⟩]⟩,
   -- OUT_SAT_COUNT
   ⟨0x24, 32, 4, 1, [⟨31, 0, .rc, .num 0⟩]⟩,
   -- NAN_IN_COUNT
   ⟨0x28, 32, 4, 1, [⟨31, 0, .rc, .num 0⟩]⟩,
   -- REFUSED_COUNT
   ⟨0x2C, 32, 4, 1, [⟨31, 0, .rc, .num 0⟩]⟩,
   -- REF_LOST_COUNT
   ⟨0x30, 32, 4, 1, [⟨31, 0, .rc, .num 0⟩]⟩] ++
  [-- REF_RING_PROD
   ⟨0x38, 32, 4, 1, [⟨31, 0, .ro, .num 0⟩]⟩,
   -- REF_RING_CONS
   ⟨0x3C, 32, 4, 1, [⟨31, 0, .rw, .num 0⟩]⟩,
   -- MAC_COUNT
   ⟨0x40, 64, 8, 1, [⟨63, 0, .ro, .num 0⟩]⟩,
   -- BUSY_CYCLES
   ⟨0x48, 64, 8, 1, [⟨63, 0, .ro, .num 0⟩]⟩,
   -- ENC_ROUTE
   ⟨0x400, 128, 16, 64, [⟨19, 0, .rwd, .dash⟩, ⟨39, 20, .rwd, .dash⟩, ⟨44, 40, .rwd, .dash⟩, ⟨49, 45, .rwd, .dash⟩, ⟨50, 50, .rwd, .num 0⟩, ⟨51, 51, .rwd, .num 0⟩, ⟨55, 52, .rwd, .dash⟩, ⟨60, 56, .rwd, .dash⟩, ⟨79, 64, .rwd, .dash⟩]⟩]

/-- The registers of block fmBlk (12_contexts_and_recovery.md). -/
def rows_fmBlk : List RegRow :=
  [-- FM_STATUS
   ⟨0x0, 32, 4, 1, [⟨22, 16, .ro, .num 0⟩, ⟨6, 0, .ro, .num 127⟩]⟩,
   -- FM_EVENTS
   ⟨0x4, 32, 4, 1, [⟨2, 0, .rc, .num 0⟩]⟩,
   -- FM_ACK
   ⟨0x8, 32, 4, 1, [⟨5, 0, .wo, .num 0⟩]⟩,
   -- FM_LOST_COUNT
   ⟨0xC, 32, 4, 1, [⟨31, 0, .rc, .num 0⟩]⟩,
   -- FM_REC
   ⟨0x100, 128, 16, 16, [⟨127, 0, .ro, .num 0⟩]⟩]

/-- The registers of block fmReg (12_contexts_and_recovery.md). -/
def rows_fmReg : List RegRow :=
  [-- FM_STATUS
   ⟨0x0, 32, 4, 1, [⟨22, 16, .ro, .num 0⟩, ⟨6, 0, .ro, .num 127⟩]⟩,
   -- FM_EVENTS
   ⟨0x4, 32, 4, 1, [⟨2, 0, .rc, .num 0⟩]⟩,
   -- FM_ACK
   ⟨0x8, 32, 4, 1, [⟨5, 0, .wo, .num 0⟩]⟩,
   -- FM_LOST_COUNT
   ⟨0xC, 32, 4, 1, [⟨31, 0, .rc, .num 0⟩]⟩,
   -- FM_REC
   ⟨0x100, 128, 16, 16, [⟨127, 0, .ro, .num 0⟩]⟩]

/-- The registers of block fmChip (12_contexts_and_recovery.md). -/
def rows_fmChip : List RegRow :=
  [-- FM_STATUS
   ⟨0x0, 32, 4, 1, [⟨22, 16, .ro, .num 0⟩, ⟨6, 0, .ro, .num 127⟩]⟩,
   -- FM_EVENTS
   ⟨0x4, 32, 4, 1, [⟨2, 0, .rc, .num 0⟩]⟩,
   -- FM_ACK
   ⟨0x8, 32, 4, 1, [⟨5, 0, .wo, .num 0⟩]⟩,
   -- FM_LOST_COUNT
   ⟨0xC, 32, 4, 1, [⟨31, 0, .rc, .num 0⟩]⟩,
   -- FM_REC
   ⟨0x100, 128, 16, 64, [⟨127, 0, .ro, .num 0⟩]⟩]

/-- The registers of block link (11_signal_ingest.md). -/
def rows_link : List RegRow :=
  [-- BLK_CTRL
   ⟨0x0, 32, 4, 1, [⟨0, 0, .rw, .num 0⟩]⟩,
   -- BLK_STATUS
   ⟨0x4, 32, 4, 1, [⟨2, 2, .ro, .num 0⟩, ⟨1, 1, .rc, .num 0⟩, ⟨0, 0, .ro, .num 0⟩]⟩,
   -- JESD_CFG0
   ⟨0x8, 32, 4, 1, [⟨28, 28, .rwd, .num 0⟩, ⟨27, 27, .rwd, .num 0⟩, ⟨26, 25, .rwd, .num 0⟩, ⟨24, 23, .rwd, .num 2⟩, ⟨22, 19, .rwd, .num 15⟩, ⟨18, 14, .rwd, .num 0⟩, ⟨13, 9, .rwd, .num 0⟩, ⟨8, 5, .rwd, .num 0⟩, ⟨4, 1, .rwd, .num 0⟩, ⟨0, 0, .rwd, .num 0⟩]⟩,
   -- JESD_CFG1
   ⟨0xC, 32, 4, 1, [⟨14, 9, .rwd, .num 0⟩, ⟨8, 5, .rwd, .num 0⟩, ⟨4, 0, .rwd, .num 31⟩]⟩,
   -- LANE_MAP
   ⟨0x10, 32, 4, 2, [⟨29, 0, .rwd, .dash⟩]⟩,
   -- SEF_CFG
   ⟨0x18, 32, 4, 1, [⟨16, 13, .rwd, .num 0⟩, ⟨12, 9, .rwd, .num 0⟩, ⟨8, 7, .rwd, .num 1⟩, ⟨6, 3, .rwd, .num 8⟩, ⟨2, 2, .rwd, .num 0⟩, ⟨1, 1, .rwd, .num 0⟩, ⟨0, 0, .rwd, .num 0⟩]⟩,
   -- SEF_TIMING
   ⟨0x1C, 32, 4, 1, [⟨25, 16, .ro, .num 0⟩, ⟨15, 0, .ro, .num 0⟩]⟩,
   -- LINK_STATUS
   ⟨0x20, 32, 4, 1, [⟨19, 8, .ro, .num 0⟩, ⟨2, 0, .ro, .num 0⟩]⟩,
   -- LINK_EVENTS
   ⟨0x24, 32, 4, 1, [⟨5, 5, .rc, .num 0⟩, ⟨4, 4, .rc, .num 0⟩, ⟨3, 3, .rc, .num 0⟩, ⟨2, 2, .rc, .num 0⟩, ⟨1, 1, .rc, .num 0⟩, ⟨0, 0, .rc, .num 0⟩]⟩,
   -- CFG_ERR_INFO
   ⟨0x28, 32, 4, 1, [⟨3, 0, .ro, .num 0⟩]⟩,
   -- LINK_MARGIN
   ⟨0x2C, 32, 4, 1, [⟨15, 8, .ro, .num 0⟩, ⟨7, 0, .ro, .num 0⟩]⟩,
   -- CRC_ERR_COUNT
   ⟨0x30, 32, 4, 1, [⟨31, 0, .rc, .num 0⟩]⟩] ++
  [-- RESYNC_COUNT
   ⟨0x34, 32, 4, 1, [⟨31, 0, .rc, .num 0⟩]⟩,
   -- EDGE_MERGED_COUNT
   ⟨0x38, 32, 4, 1, [⟨31, 0, .rc, .num 0⟩]⟩,
   -- EVENTS_OUT
   ⟨0x40, 64, 8, 1, [⟨63, 0, .ro, .num 0⟩]⟩]

/-- The registers of block linkInst (11_signal_ingest.md). -/
def rows_linkInst : List RegRow :=
  [-- INST: its reserved bits are judged at bring-up (R300, code 13), so that they are stored like the rest of the table
   ⟨0x0, 128, 16, 1024, [⟨1, 0, .rwd, .num 0⟩, ⟨2, 2, .rwd, .num 0⟩, ⟨3, 3, .rwd, .num 0⟩, ⟨13, 4, .rwd, .num 0⟩, ⟨15, 14, .rwd, .num 0⟩, ⟨31, 16, .rwd, .num 0⟩, ⟨47, 32, .rwd, .num 0⟩, ⟨52, 48, .rwd, .num 0⟩, ⟨63, 53, .rwd, .num 0⟩, ⟨79, 64, .rwd, .num 0⟩, ⟨95, 80, .rwd, .num 0⟩, ⟨111, 96, .rwd, .num 0⟩, ⟨127, 112, .rwd, .num 0⟩]⟩]

/-- The registers of block linkCoef (11_signal_ingest.md). -/
def rows_linkCoef : List RegRow :=
  [-- COEF
   ⟨0x0, 32, 4, 16384, [⟨31, 0, .rwd, .dash⟩]⟩]

/-- The registers of block jesd (11_signal_ingest.md). -/
def rows_jesd : List RegRow :=
  [-- JES_FREQ
   ⟨0x0, 32, 4, 1, [⟨19, 0, .ro, .num 0⟩]⟩,
   -- SYSREF_CFG
   ⟨0x4, 32, 4, 1, [⟨3, 3, .rw, .num 0⟩, ⟨2, 2, .wo, .num 0⟩, ⟨1, 0, .rw, .num 0⟩]⟩,
   -- SYSREF_STATUS
   ⟨0x8, 32, 4, 1, [⟨1, 1, .ro, .num 0⟩, ⟨0, 0, .rc, .num 0⟩]⟩,
   -- LANE_POL
   ⟨0xC, 32, 4, 1, [⟨23, 0, .rw, .num 0⟩]⟩,
   -- LANE_LOCK
   ⟨0x10, 32, 4, 1, [⟨23, 0, .ro, .num 0⟩]⟩]

/-- The registers of block eip (11_signal_ingest.md). -/
def rows_eip : List RegRow :=
  [-- BLK_CTRL
   ⟨0x0, 32, 4, 1, [⟨0, 0, .rw, .num 0⟩]⟩,
   -- BLK_STATUS
   ⟨0x4, 32, 4, 1, [⟨2, 2, .ro, .num 0⟩, ⟨1, 1, .rc, .num 0⟩, ⟨0, 0, .ro, .num 0⟩]⟩,
   -- EIP_CFG
   ⟨0x8, 32, 4, 1, [⟨15, 8, .rwd, .num 0⟩, ⟨4, 4, .rwd, .num 1⟩, ⟨3, 2, .rwd, .num 3⟩, ⟨1, 0, .rwd, .num 3⟩]⟩,
   -- EIP_STATUS
   ⟨0xC, 32, 4, 1, [⟨22, 16, .ro, .num 0⟩, ⟨15, 8, .ro, .num 0⟩, ⟨1, 0, .ro, .num 0⟩]⟩,
   -- EIP_EVENTS
   ⟨0x10, 32, 4, 1, [⟨5, 5, .rc, .num 0⟩, ⟨4, 4, .rc, .num 0⟩, ⟨3, 3, .rc, .num 0⟩, ⟨2, 2, .rc, .num 0⟩, ⟨1, 1, .rc, .num 0⟩, ⟨0, 0, .rc, .num 0⟩]⟩,
   -- CRC_ERR_COUNT
   ⟨0x14, 32, 4, 1, [⟨31, 0, .rc, .num 0⟩]⟩,
   -- CODE_ERR_COUNT
   ⟨0x18, 32, 4, 1, [⟨31, 0, .rc, .num 0⟩]⟩,
   -- LOST_GROUPS_COUNT
   ⟨0x1C, 32, 4, 1, [⟨31, 0, .rc, .num 0⟩]⟩,
   -- OVERFLOW_COUNT
   ⟨0x20, 32, 4, 1, [⟨31, 0, .rc, .num 0⟩]⟩,
   -- NAK_COUNT
   ⟨0x24, 32, 4, 1, [⟨31, 0, .rc, .num 0⟩]⟩,
   -- GROUPS_OK
   ⟨0x28, 64, 8, 1, [⟨63, 0, .ro, .num 0⟩]⟩,
   -- WORDS_IN
   ⟨0x30, 64, 8, 1, [⟨63, 0, .ro, .num 0⟩]⟩]

/-- The registers of block trig (11_signal_ingest.md). -/
def rows_trig : List RegRow :=
  [-- TRIG_OUT_CFG
   ⟨0x0, 32, 16, 8, [⟨26, 22, .rw, .num 0⟩, ⟨21, 6, .rw, .num 20⟩, ⟨5, 5, .rw, .num 0⟩, ⟨4, 3, .rw, .num 0⟩, ⟨2, 2, .rw, .num 0⟩, ⟨1, 1, .rw, .num 0⟩, ⟨0, 0, .rw, .num 0⟩]⟩,
   -- TRIG_OUT_MATCH
   ⟨0x4, 32, 16, 8, [⟨31, 16, .rw, .num 0⟩, ⟨15, 0, .rw, .num 0⟩]⟩,
   -- TRIG_OUT_AXON
   ⟨0x8, 32, 16, 8, [⟨26, 16, .rw, .num 0⟩, ⟨10, 0, .rw, .num 0⟩]⟩,
   -- TRIG_OUT_HOLD
   ⟨0xC, 32, 16, 8, [⟨15, 0, .rw, .num 0⟩]⟩,
   -- TRIG_FORCE
   ⟨0x100, 32, 4, 1, [⟨7, 0, .wo, .num 0⟩]⟩,
   -- TRIG_EVENTS
   ⟨0x104, 32, 4, 1, [⟨15, 8, .rc, .num 0⟩, ⟨7, 0, .rc, .num 0⟩]⟩,
   -- TRIG_PULSES
   ⟨0x110, 32, 4, 8, [⟨31, 0, .rc, .num 0⟩]⟩,
   -- TRIG_MERGED
   ⟨0x130, 32, 4, 8, [⟨31, 0, .rc, .num 0⟩]⟩,
   -- TRIG_HELD
   ⟨0x150, 32, 4, 8, [⟨31, 0, .rc, .num 0⟩]⟩,
   -- TRIG_IN_CFG
   ⟨0x180, 32, 4, 1, [⟨3, 0, .rw, .num 0⟩]⟩,
   -- TRIG_IN_STATUS
   ⟨0x184, 32, 4, 1, [⟨7, 4, .rc, .num 0⟩, ⟨3, 0, .ro, .num 0⟩]⟩,
   -- TRIG_IN_TS
   ⟨0x190, 64, 8, 4, [⟨63, 30, .ro, .num 0⟩, ⟨29, 0, .ro, .num 0⟩]⟩]

/-- The registers of block ctt (12_contexts_and_recovery.md). -/
def rows_ctt : List RegRow :=
  [-- BLK_CTRL
   ⟨0x0, 32, 4, 1, [⟨0, 0, .rw, .num 0⟩]⟩,
   -- BLK_STATUS
   ⟨0x4, 32, 4, 1, [⟨2, 2, .ro, .num 0⟩, ⟨1, 1, .rc, .num 0⟩, ⟨0, 0, .ro, .num 0⟩]⟩,
   -- CTT_CFG
   ⟨0x8, 32, 4, 1, [⟨3, 0, .rwd, .train⟩]⟩,
   -- CTT_MIRROR
   ⟨0x10, 64, 8, 1, [⟨39, 12, .rwd, .dash⟩]⟩,
   -- CTX_CMD
   ⟨0x18, 32, 4, 1, [⟨19, 16, .wo, .num 0⟩, ⟨15, 0, .wo, .num 0⟩]⟩,
   -- CTX_CMD_STATUS
   ⟨0x1C, 32, 4, 1, [⟨31, 31, .ro, .num 0⟩, ⟨23, 20, .ro, .num 0⟩, ⟨19, 0, .ro, .num 0⟩]⟩,
   -- CTX_CMD_ARG
   ⟨0x20, 64, 8, 1, [⟨63, 0, .rw, .dash⟩]⟩,
   -- CTX_EVENTS
   ⟨0x28, 32, 4, 1, [⟨4, 0, .rc, .num 0⟩]⟩,
   -- RECOV_STATUS
   ⟨0x2C, 32, 4, 1, [⟨31, 31, .ro, .num 0⟩, ⟨16, 0, .ro, .num 0⟩]⟩,
   -- RECOV_COUNT
   ⟨0x30, 32, 4, 1, [⟨31, 0, .rc, .num 0⟩]⟩,
   -- RECOV_LAST_US
   ⟨0x34, 32, 4, 1, [⟨31, 0, .ro, .num 0⟩]⟩,
   -- CTX_STAGE
   ⟨0x40, 32, 4, 16, [⟨31, 0, .rw, .dash⟩]⟩]

/-- The registers of block latest (12_contexts_and_recovery.md). -/
def rows_latest : List RegRow :=
  [-- LATEST
   ⟨0x0, 64, 8, 256, [⟨63, 32, .ro, .num 0⟩, ⟨31, 24, .ro, .num 0⟩, ⟨22, 22, .rc, .num 0⟩, ⟨21, 21, .ro, .num 0⟩, ⟨20, 19, .ro, .num 0⟩, ⟨18, 11, .ro, .num 0⟩, ⟨10, 0, .ro, .num 0⟩]⟩]

/-- The registers of block oc (12_contexts_and_recovery.md). -/
def rows_oc : List RegRow :=
  [-- OC_STATUS
   ⟨0x0, 32, 4, 1, [⟨14, 0, .ro, .num 0⟩]⟩,
   -- OC_EVENTS
   ⟨0x4, 32, 4, 1, [⟨4, 0, .rc, .num 0⟩]⟩,
   -- TRUNC_COUNT
   ⟨0x10, 32, 4, 1, [⟨31, 0, .rc, .num 0⟩]⟩,
   -- SUPPRESSED_COUNT
   ⟨0x14, 32, 4, 1, [⟨31, 0, .rc, .num 0⟩]⟩,
   -- LATE_PULSE_COUNT
   ⟨0x18, 32, 4, 1, [⟨31, 0, .rc, .num 0⟩]⟩,
   -- RING_ERR
   ⟨0x40, 32, 4, 8, [⟨31, 0, .rc, .num 0⟩]⟩,
   -- OCR_BASE
   ⟨0x2000, 32, 32, 256, [⟨27, 0, .rw, .dash⟩]⟩,
   -- OCR_MIRROR
   ⟨0x2004, 32, 32, 256, [⟨27, 0, .rw, .dash⟩]⟩,
   -- OCR_CFG
   ⟨0x2008, 32, 32, 256, [⟨8, 0, .rw, .num 0⟩]⟩,
   -- OCR_PROD
   ⟨0x200C, 32, 32, 256, [⟨31, 0, .ro, .num 0⟩]⟩,
   -- OCR_CONS
   ⟨0x2010, 32, 32, 256, [⟨31, 0, .rw, .num 0⟩]⟩,
   -- OCR_LOST
   ⟨0x2014, 32, 32, 256, [⟨31, 0, .ro, .num 0⟩]⟩] ++
  [-- OCR_STATUS
   ⟨0x2018, 32, 32, 256, [⟨1, 0, .ro, .num 0⟩]⟩]

/-- The registers of block jrn (12_contexts_and_recovery.md). -/
def rows_jrn : List RegRow :=
  [-- BLK_CTRL
   ⟨0x0, 32, 4, 1, [⟨0, 0, .rw, .num 0⟩]⟩,
   -- BLK_STATUS
   ⟨0x4, 32, 4, 1, [⟨2, 2, .ro, .num 0⟩, ⟨1, 1, .rc, .num 0⟩, ⟨0, 0, .ro, .num 0⟩]⟩,
   -- JRN_CFG
   ⟨0x8, 32, 4, 1, [⟨3, 0, .rwd, .num 0⟩]⟩,
   -- JRN_BASE_A
   ⟨0x10, 64, 8, 1, [⟨39, 21, .rwd, .dash⟩]⟩,
   -- JRN_BASE_B
   ⟨0x18, 64, 8, 1, [⟨39, 21, .rwd, .dash⟩]⟩,
   -- JRN_HEAD
   ⟨0x20, 64, 8, 1, [⟨63, 0, .ro, .num 0⟩]⟩,
   -- JRN_TAIL
   ⟨0x28, 64, 8, 1, [⟨63, 0, .ro, .num 0⟩]⟩,
   -- JRN_STATUS
   ⟨0x30, 32, 4, 1, [⟨28, 16, .ro, .num 0⟩, ⟨2, 0, .ro, .num 0⟩]⟩,
   -- JRN_EVENTS
   ⟨0x34, 32, 4, 1, [⟨3, 0, .rc, .num 0⟩]⟩,
   -- CKPT_COUNT
   ⟨0x38, 32, 4, 1, [⟨31, 0, .rc, .num 0⟩]⟩,
   -- CKPT_DISCARD_COUNT
   ⟨0x3C, 32, 4, 1, [⟨31, 0, .rc, .num 0⟩]⟩]

/-- The registers of block eth (13_multichip_experts.md). -/
def rows_eth : List RegRow :=
  [-- BLK_CTRL
   ⟨0x0, 32, 4, 1, [⟨0, 0, .rw, .num 0⟩]⟩,
   -- BLK_STATUS
   ⟨0x4, 32, 4, 1, [⟨2, 2, .ro, .num 0⟩, ⟨1, 1, .rc, .num 0⟩, ⟨0, 0, .ro, .num 0⟩]⟩,
   -- ETH_CFG
   ⟨0x8, 32, 4, 1, [⟨17, 17, .rwd, .num 0⟩, ⟨16, 14, .rwd, .num 0⟩, ⟨13, 2, .rwd, .num 0⟩, ⟨1, 1, .rwd, .num 0⟩, ⟨0, 0, .rwd, .num 0⟩]⟩,
   -- ETH_STATUS
   ⟨0xC, 32, 4, 1, [⟨7, 4, .ro, .num 0⟩, ⟨2, 0, .ro, .num 0⟩]⟩,
   -- ETH_EVENTS
   ⟨0x10, 32, 4, 1, [⟨2, 0, .rc, .num 0⟩]⟩,
   -- ETH_MAC
   ⟨0x18, 64, 8, 1, [⟨47, 0, .rwd, .num 0⟩]⟩,
   -- ETH_IP
   ⟨0x20, 32, 4, 4, [⟨31, 0, .rwd, .num 0⟩]⟩,
   -- FEC_CORR_COUNT
   ⟨0x30, 32, 4, 1, [⟨31, 0, .rc, .num 0⟩]⟩,
   -- FEC_UNCORR_COUNT
   ⟨0x34, 32, 4, 1, [⟨31, 0, .rc, .num 0⟩]⟩,
   -- RX_DROP_COUNT
   ⟨0x38, 32, 4, 1, [⟨31, 0, .rc, .num 0⟩]⟩,
   -- RX_FRAMES
   ⟨0x40, 64, 8, 1, [⟨63, 0, .ro, .num 0⟩]⟩,
   -- TX_FRAMES
   ⟨0x48, 64, 8, 1, [⟨63, 0, .ro, .num 0⟩]⟩]

/-- The registers of block swr (14_application_cluster_host.md). -/
def rows_swr : List RegRow :=
  [-- SWR_RX_RING
   ⟨0x0, 64, 8, 1, [⟨39, 8, .rw, .dash⟩, ⟨4, 4, .rw, .num 0⟩, ⟨3, 0, .rw, .num 0⟩]⟩,
   -- SWR_RX_POST
   ⟨0x8, 32, 4, 1, [⟨31, 0, .rw, .num 0⟩]⟩,
   -- SWR_RX_DONE
   ⟨0xC, 32, 4, 1, [⟨31, 0, .ro, .num 0⟩]⟩,
   -- SWR_TX_RING
   ⟨0x10, 64, 8, 1, [⟨39, 8, .rw, .dash⟩, ⟨4, 4, .rw, .num 0⟩, ⟨3, 0, .rw, .num 0⟩]⟩,
   -- SWR_TX_POST
   ⟨0x18, 32, 4, 1, [⟨31, 0, .rw, .num 0⟩]⟩,
   -- SWR_TX_DONE
   ⟨0x1C, 32, 4, 1, [⟨31, 0, .ro, .num 0⟩]⟩,
   -- SWR_EVENTS
   ⟨0x20, 32, 4, 1, [⟨3, 0, .rc, .num 0⟩]⟩,
   -- RX_NOBUF_COUNT
   ⟨0x24, 32, 4, 1, [⟨31, 0, .rc, .num 0⟩]⟩]

/-- The registers of block aet (13_multichip_experts.md). -/
def rows_aet : List RegRow :=
  [-- BLK_CTRL
   ⟨0x0, 32, 4, 1, [⟨0, 0, .rw, .num 0⟩]⟩,
   -- BLK_STATUS
   ⟨0x4, 32, 4, 1, [⟨2, 2, .ro, .num 0⟩, ⟨1, 1, .rc, .num 0⟩, ⟨0, 0, .ro, .num 0⟩]⟩,
   -- AET_CFG
   ⟨0x8, 32, 4, 1, [⟨31, 16, .rwd, .num 46500⟩, ⟨4, 0, .rwd, .num 0⟩]⟩,
   -- AET_TIMERS
   ⟨0xC, 32, 4, 1, [⟨31, 24, .rw, .num 10⟩, ⟨23, 16, .rw, .num 10⟩, ⟨15, 8, .rw, .num 8⟩, ⟨7, 0, .rw, .num 20⟩]⟩,
   -- AET_EVENTS
   ⟨0x10, 32, 4, 1, [⟨6, 0, .rc, .num 0⟩]⟩,
   -- AET_REF_BASE
   ⟨0x18, 64, 8, 1, [⟨39, 12, .rwd, .dash⟩, ⟨11, 4, .rwd, .dash⟩]⟩,
   -- AET_REF_PROD
   ⟨0x20, 32, 4, 1, [⟨31, 0, .ro, .num 0⟩]⟩,
   -- AET_REF_CONS
   ⟨0x24, 32, 4, 1, [⟨31, 0, .rw, .num 0⟩]⟩,
   -- AET_REF_LOST
   ⟨0x28, 32, 4, 1, [⟨31, 0, .rc, .num 0⟩]⟩,
   -- PTP_TIME
   ⟨0x30, 64, 8, 1, [⟨63, 0, .rw, .num 0⟩]⟩,
   -- TB_RATE_ADJ
   ⟨0x38, 32, 4, 1, [⟨31, 0, .rw, .num 0⟩]⟩,
   -- PPS_PHASE
   ⟨0x3C, 32, 4, 1, [⟨31, 0, .ro, .num 0⟩]⟩] ++
  [-- PPS_CAPTURE
   ⟨0x40, 64, 8, 1, [⟨63, 0, .ro, .num 0⟩]⟩,
   -- RETX_COUNT
   ⟨0x50, 32, 4, 1, [⟨31, 0, .rc, .num 0⟩]⟩,
   -- STALE_COUNT
   ⟨0x54, 32, 4, 1, [⟨31, 0, .rc, .num 0⟩]⟩,
   -- FAILOVER_COUNT
   ⟨0x58, 32, 4, 1, [⟨31, 0, .rc, .num 0⟩]⟩,
   -- SESS_STATUS
   ⟨0x100, 32, 4, 32, [⟨31, 16, .ro, .num 0⟩, ⟨7, 4, .ro, .num 0⟩, ⟨3, 3, .ro, .num 0⟩, ⟨2, 0, .ro, .num 0⟩]⟩,
   -- SESS_CTRL
   ⟨0x180, 32, 4, 32, [⟨2, 0, .wo, .num 0⟩]⟩,
   -- PEER
   ⟨0x1000, 512, 64, 32, [⟨0, 0, .rwd, .num 0⟩, ⟨1, 1, .rwd, .num 0⟩, ⟨79, 32, .rwd, .num 0⟩, ⟨127, 80, .rwd, .num 0⟩, ⟨255, 128, .rwd, .num 0⟩, ⟨383, 256, .rwd, .num 0⟩, ⟨399, 384, .rwd, .num 0⟩]⟩]

/-- The registers of block vol (13_multichip_experts.md). -/
def rows_vol : List RegRow :=
  [-- BLK_CTRL
   ⟨0x0, 32, 4, 1, [⟨0, 0, .rw, .num 0⟩]⟩,
   -- BLK_STATUS
   ⟨0x4, 32, 4, 1, [⟨2, 2, .ro, .num 0⟩, ⟨1, 1, .rc, .num 0⟩, ⟨0, 0, .ro, .num 0⟩]⟩,
   -- VOL_STATUS
   ⟨0x8, 32, 4, 1, [⟨16, 0, .ro, .num 0⟩]⟩,
   -- VOL_EVENTS
   ⟨0xC, 32, 4, 1, [⟨4, 0, .rc, .num 0⟩]⟩,
   -- NO_STREAM_COUNT
   ⟨0x10, 32, 4, 1, [⟨31, 0, .rc, .num 0⟩]⟩,
   -- BAD_AXON_COUNT
   ⟨0x14, 32, 4, 1, [⟨31, 0, .rc, .num 0⟩]⟩,
   -- UNGATED_COUNT
   ⟨0x18, 32, 4, 1, [⟨31, 0, .rc, .num 0⟩]⟩,
   -- SUPPRESSED_COUNT
   ⟨0x1C, 32, 4, 1, [⟨31, 0, .rc, .num 0⟩]⟩,
   -- VOLLEYS_SENT
   ⟨0x20, 64, 8, 1, [⟨63, 0, .ro, .num 0⟩]⟩]

/-- The registers of block volTab (13_multichip_experts.md). -/
def rows_volTab : List RegRow :=
  [-- DIR
   ⟨0x0, 128, 16, 4096, [⟨0, 0, .rwd, .num 0⟩, ⟨2, 1, .rwd, .num 0⟩, ⟨7, 3, .rwd, .num 0⟩, ⟨31, 16, .rwd, .num 0⟩, ⟨47, 32, .rwd, .num 0⟩, ⟨95, 64, .rwd, .num 0⟩]⟩,
   -- VSTREAM
   ⟨0x10000, 128, 16, 1024, [⟨15, 0, .rwd, .num 0⟩, ⟨16, 16, .rwd, .num 0⟩, ⟨17, 17, .rwd, .num 0⟩, ⟨31, 24, .rwd, .num 0⟩, ⟨43, 32, .rwd, .num 0⟩, ⟨51, 44, .rwd, .num 0⟩, ⟨79, 64, .rwd, .num 0⟩, ⟨80, 80, .rwd, .num 0⟩, ⟨84, 81, .rwd, .num 0⟩]⟩]

/-- The registers of block cl (14_application_cluster_host.md). -/
def rows_cl : List RegRow :=
  [-- CL_CFG
   ⟨0x0, 32, 4, 1, [⟨15, 8, .rw, .num 255⟩, ⟨2, 0, .rw, .num 0⟩]⟩,
   -- CL_RESET_VEC
   ⟨0x8, 64, 8, 1, [⟨39, 2, .rw, .num 0⟩]⟩,
   -- CL_RELEASE
   ⟨0x10, 32, 4, 1, [⟨7, 0, .wo, .num 0⟩]⟩,
   -- CL_CORE_STATUS
   ⟨0x14, 32, 4, 1, [⟨15, 8, .ro, .num 255⟩, ⟨7, 0, .ro, .num 0⟩]⟩,
   -- CL_EVENTS
   ⟨0x18, 32, 4, 1, [⟨19, 0, .rc, .num 0⟩]⟩,
   -- CL_GRACE
   ⟨0x1C, 32, 4, 1, [⟨13, 0, .rw, .num 100⟩]⟩,
   -- CL_BUSERR_ADDR
   ⟨0x20, 64, 8, 1, [⟨63, 63, .ro, .num 0⟩, ⟨42, 40, .ro, .num 0⟩, ⟨39, 0, .ro, .num 0⟩]⟩,
   -- CL_ECC_CORR_COUNT
   ⟨0x28, 32, 4, 1, [⟨31, 0, .rc, .num 0⟩]⟩,
   -- CL_MTIME
   ⟨0x30, 64, 8, 1, [⟨63, 0, .rw, .num 0⟩]⟩,
   -- CL_MTIMECMP
   ⟨0x40, 64, 8, 8, [⟨63, 0, .rw, .num 18446744073709551615⟩]⟩,
   -- CL_MSIP
   ⟨0x80, 32, 4, 8, [⟨0, 0, .rw, .num 0⟩]⟩,
   -- CL_WDOG
   ⟨0xA0, 32, 8, 8, [⟨31, 31, .rw, .num 0⟩, ⟨19, 0, .rw, .num 1000⟩]⟩] ++
  [-- CL_KICK
   ⟨0xA4, 32, 8, 8, [⟨0, 0, .wo, .num 0⟩]⟩]

/-- The registers of block sic (14_application_cluster_host.md). -/
def rows_sic : List RegRow :=
  [-- SIC_SRC
   ⟨0x0, 32, 4, 1024, [⟨31, 31, .rw, .num 0⟩, ⟨26, 16, .rw, .num 0⟩, ⟨15, 8, .rw, .num 0⟩, ⟨4, 4, .rw, .num 0⟩, ⟨3, 0, .rw, .num 0⟩]⟩,
   -- SIC_PEND
   ⟨0x1000, 32, 4, 32, [⟨31, 0, .ro, .num 0⟩]⟩,
   -- SIC_HOST_PEND
   ⟨0x1080, 32, 4, 32, [⟨31, 0, .ro, .num 0⟩]⟩,
   -- SIC_HOST_DONE
   ⟨0x1100, 32, 4, 1, [⟨9, 0, .wo, .num 0⟩]⟩,
   -- SIC_THRESH
   ⟨0x2000, 32, 64, 16, [⟨3, 0, .rw, .num 0⟩]⟩,
   -- SIC_CLAIM
   ⟨0x2004, 32, 64, 16, [⟨31, 31, .rc, .num 0⟩, ⟨9, 0, .rc, .num 0⟩]⟩]

/-- The registers of block pcie (14_application_cluster_host.md). -/
def rows_pcie : List RegRow :=
  [-- PCIE_STATUS
   ⟨0x0, 32, 4, 1, [⟨11, 0, .ro, .num 0⟩]⟩,
   -- PCIE_EVENTS
   ⟨0x4, 32, 4, 1, [⟨4, 0, .rc, .num 0⟩]⟩,
   -- CA_COUNT
   ⟨0x8, 32, 4, 1, [⟨31, 0, .rc, .num 0⟩]⟩,
   -- DROP_COUNT
   ⟨0xC, 32, 4, 1, [⟨31, 0, .rc, .num 0⟩]⟩,
   -- PCIE_BAR2_BASE
   ⟨0x10, 32, 4, 1, [⟨5, 0, .rw, .num 0⟩]⟩,
   -- FW_STATE
   ⟨0x14, 32, 4, 1, [⟨31, 28, .rw, .num 0⟩, ⟨27, 20, .rw, .num 0⟩, ⟨19, 12, .rw, .num 0⟩, ⟨11, 6, .rw, .num 0⟩]⟩,
   -- PCIE_SEG
   ⟨0x100, 32, 4, 64, [⟨31, 31, .rw, .num 0⟩, ⟨19, 0, .rw, .num 0⟩]⟩]

/-- The registers of block pdma (14_application_cluster_host.md). -/
def rows_pdma : List RegRow :=
  [-- PDMA_RING
   ⟨0x0, 64, 8, 1, [⟨39, 8, .rw, .dash⟩, ⟨3, 0, .rw, .num 0⟩]⟩,
   -- PDMA_TAIL
   ⟨0x8, 32, 4, 1, [⟨31, 0, .rw, .num 0⟩]⟩,
   -- PDMA_HEAD
   ⟨0xC, 32, 4, 1, [⟨31, 0, .ro, .num 0⟩]⟩,
   -- PDMA_CTRL
   ⟨0x10, 32, 4, 1, [⟨1, 1, .rw, .num 0⟩, ⟨0, 0, .wo, .num 0⟩]⟩,
   -- PDMA_STATUS
   ⟨0x14, 32, 4, 1, [⟨7, 4, .ro, .num 0⟩, ⟨1, 1, .ro, .num 0⟩, ⟨0, 0, .ro, .num 0⟩]⟩,
   -- PDMA_EVENTS
   ⟨0x18, 32, 4, 1, [⟨1, 0, .rc, .num 0⟩]⟩,
   -- PDMA_BYTES
   ⟨0x20, 64, 8, 1, [⟨63, 0, .ro, .num 0⟩]⟩]

/-- The registers of block msix (14_application_cluster_host.md). -/
def rows_msix : List RegRow :=
  [-- MSIX
   ⟨0x0, 128, 16, 2048, [⟨31, 0, .rw, .num 0⟩, ⟨63, 32, .rw, .num 0⟩, ⟨95, 64, .rw, .num 0⟩, ⟨96, 96, .rw, .num 1⟩]⟩,
   -- PBA
   ⟨0x80000, 32, 4, 64, [⟨31, 0, .ro, .num 0⟩]⟩]

/-- The registers of block slice (15_memory.md). -/
def rows_slice : List RegRow :=
  [-- SLICE_OWNER
   ⟨0x0, 32, 4, 1, [⟨24, 24, .rw, .train⟩, ⟨23, 16, .rw, .train⟩, ⟨15, 12, .rw, .train⟩, ⟨11, 0, .rw, .train⟩]⟩,
   -- SLICE_PWR
   ⟨0x4, 32, 4, 1, [⟨1, 1, .rw, .num 0⟩, ⟨0, 0, .rw, .num 0⟩]⟩,
   -- SLICE_STATUS
   ⟨0x8, 32, 4, 1, [⟨1, 0, .ro, .num 0⟩]⟩,
   -- SLICE_EVENTS
   ⟨0xC, 32, 4, 1, [⟨5, 0, .rc, .num 0⟩]⟩,
   -- SLICE_DENIED_INFO
   ⟨0x10, 64, 8, 1, [⟨63, 63, .ro, .num 0⟩, ⟨39, 36, .ro, .num 0⟩, ⟨35, 24, .ro, .num 0⟩, ⟨20, 20, .ro, .num 0⟩, ⟨19, 0, .ro, .num 0⟩]⟩,
   -- SLICE_ECC_CORR_COUNT
   ⟨0x18, 32, 4, 1, [⟨31, 0, .rc, .num 0⟩]⟩,
   -- SLICE_ECC_UNCORR_COUNT
   ⟨0x1C, 32, 4, 1, [⟨31, 0, .rc, .num 0⟩]⟩,
   -- SLICE_SCRUB
   ⟨0x20, 32, 4, 1, [⟨4, 1, .rw, .num 6⟩, ⟨0, 0, .rw, .num 1⟩]⟩]

/-- The registers of block mem (15_memory.md). -/
def rows_mem : List RegRow :=
  [-- BLK_CTRL
   ⟨0x0, 32, 4, 1, [⟨0, 0, .rw, .num 0⟩]⟩,
   -- BLK_STATUS
   ⟨0x4, 32, 4, 1, [⟨2, 2, .ro, .num 0⟩, ⟨1, 1, .rc, .num 0⟩, ⟨0, 0, .ro, .num 0⟩]⟩,
   -- MEM_CFG
   ⟨0x8, 32, 4, 1, [⟨15, 10, .rwd, .num 0⟩, ⟨9, 9, .rwd, .num 0⟩, ⟨8, 8, .rwd, .train⟩, ⟨7, 4, .rwd, .train⟩, ⟨3, 0, .rwd, .train⟩]⟩,
   -- MEM_EVENTS
   ⟨0xC, 32, 4, 1, [⟨4, 0, .rc, .num 0⟩]⟩]

/-- The registers of block memCh (15_memory.md). -/
def rows_memCh : List RegRow :=
  [-- MEM_CH_CTRL
   ⟨0x0, 32, 4, 1, [⟨1, 1, .wo, .num 0⟩, ⟨0, 0, .wo, .num 0⟩]⟩,
   -- MEM_CH_STATUS
   ⟨0x4, 32, 4, 1, [⟨2, 0, .ro, .num 0⟩]⟩,
   -- MEM_ECC_CORR_COUNT
   ⟨0x8, 32, 4, 1, [⟨31, 0, .rc, .num 0⟩]⟩,
   -- MEM_ECC_UNCORR_COUNT
   ⟨0xC, 32, 4, 1, [⟨31, 0, .rc, .num 0⟩]⟩,
   -- MEM_ERR_ADDR
   ⟨0x10, 64, 8, 1, [⟨63, 63, .ro, .num 0⟩, ⟨39, 0, .ro, .num 0⟩]⟩,
   -- MEM_RETRAIN_COUNT
   ⟨0x18, 32, 4, 1, [⟨31, 0, .rc, .num 0⟩]⟩]

/-- The registers of block sdma (15_memory.md). -/
def rows_sdma : List RegRow :=
  [-- SDMA_RING
   ⟨0x0, 64, 8, 1, [⟨39, 8, .rw, .dash⟩, ⟨3, 0, .rw, .num 0⟩]⟩,
   -- SDMA_TAIL
   ⟨0x8, 32, 4, 1, [⟨31, 0, .rw, .num 0⟩]⟩,
   -- SDMA_HEAD
   ⟨0xC, 32, 4, 1, [⟨31, 0, .ro, .num 0⟩]⟩,
   -- SDMA_CTRL
   ⟨0x10, 32, 4, 1, [⟨1, 1, .rw, .num 0⟩, ⟨0, 0, .wo, .num 0⟩]⟩,
   -- SDMA_STATUS
   ⟨0x14, 32, 4, 1, [⟨7, 4, .ro, .num 0⟩, ⟨1, 1, .ro, .num 0⟩, ⟨0, 0, .ro, .num 0⟩]⟩,
   -- SDMA_EVENTS
   ⟨0x18, 32, 4, 1, [⟨1, 0, .rc, .num 0⟩]⟩,
   -- SDMA_BYTES
   ⟨0x20, 64, 8, 1, [⟨63, 0, .ro, .num 0⟩]⟩]

/-- The registers of block tmr (16_timers_recorder.md). -/
def rows_tmr : List RegRow :=
  [-- TMR_CFG
   ⟨0x0, 32, 64, 32, [⟨18, 16, .rw, .num 0⟩, ⟨15, 15, .rw, .num 0⟩, ⟨14, 12, .rw, .num 0⟩, ⟨11, 11, .rw, .num 0⟩, ⟨10, 10, .rw, .num 0⟩, ⟨9, 9, .rw, .num 0⟩, ⟨8, 8, .rw, .num 0⟩, ⟨7, 4, .rw, .num 0⟩, ⟨3, 1, .rw, .num 0⟩, ⟨0, 0, .rw, .num 0⟩]⟩,
   -- TMR_LINK
   ⟨0x4, 32, 64, 32, [⟨8, 8, .rw, .num 0⟩, ⟨7, 7, .rw, .num 0⟩, ⟨6, 5, .rw, .num 0⟩, ⟨4, 0, .rw, .num 0⟩]⟩,
   -- TMR_COUNT
   ⟨0x8, 32, 64, 32, [⟨31, 0, .rw, .num 0⟩]⟩,
   -- TMR_COMPARE
   ⟨0xC, 32, 64, 32, [⟨31, 0, .rw, .num 4294967295⟩]⟩,
   -- TMR_CAP
   ⟨0x10, 64, 64, 32, [⟨32, 32, .rc, .num 0⟩, ⟨31, 0, .ro, .num 0⟩]⟩,
   -- TMR_EVENTS
   ⟨0x18, 32, 64, 32, [⟨3, 0, .rc, .num 0⟩]⟩,
   -- TMR_STATUS
   ⟨0x1C, 32, 64, 32, [⟨1, 1, .ro, .num 0⟩, ⟨0, 0, .ro, .num 0⟩]⟩,
   -- TMR_START
   ⟨0x1000, 32, 4, 1, [⟨31, 0, .wo, .num 0⟩]⟩,
   -- TMR_STOP
   ⟨0x1004, 32, 4, 1, [⟨31, 0, .wo, .num 0⟩]⟩,
   -- TMR_ACTIVE
   ⟨0x1008, 32, 4, 1, [⟨31, 0, .ro, .num 0⟩]⟩]

/-- The registers of block rec (16_timers_recorder.md). -/
def rows_rec : List RegRow :=
  [-- REC_STATUS
   ⟨0x0, 32, 4, 1, [⟨21, 21, .ro, .num 0⟩, ⟨20, 16, .ro, .num 0⟩, ⟨15, 15, .ro, .num 0⟩, ⟨13, 0, .ro, .num 0⟩]⟩,
   -- REC_EVENTS
   ⟨0x4, 32, 4, 1, [⟨2, 0, .rc, .num 0⟩]⟩,
   -- REC_CMD
   ⟨0x8, 32, 4, 1, [⟨1, 0, .wo, .num 0⟩]⟩,
   -- LOST_COUNT
   ⟨0xC, 32, 4, 1, [⟨31, 0, .rc, .num 0⟩]⟩,
   -- REC_SEED
   ⟨0x10, 64, 8, 1, [⟨55, 0, .wo, .num 0⟩]⟩,
   -- REC_NOW
   ⟨0x18, 64, 8, 1, [⟨56, 0, .ro, .num 0⟩]⟩,
   -- REC_SW_ARG0
   ⟨0x20, 64, 8, 1, [⟨63, 32, .rw, .num 0⟩, ⟨31, 0, .rw, .num 0⟩]⟩,
   -- REC_SW_ARG1
   ⟨0x28, 64, 8, 1, [⟨63, 0, .rw, .num 0⟩]⟩,
   -- REC_SW_CODE
   ⟨0x30, 32, 4, 1, [⟨15, 0, .wo, .num 0⟩]⟩]

/-- The registers of block boot (19_security_configuration.md). -/
def rows_boot : List RegRow :=
  [-- BOOT_IMAGE
   ⟨0x0, 32, 4, 1, [⟨31, 31, .ro, .num 0⟩, ⟨27, 0, .ro, .num 0⟩]⟩,
   -- BOOT_COUNT
   ⟨0x4, 32, 4, 1, [⟨31, 0, .ro, .num 0⟩]⟩]

/-- The registers of block clk (17_clocks_reset_bringup.md). -/
def rows_clk : List RegRow :=
  [-- CLK_STATUS
   ⟨0x0, 32, 4, 1, [⟨16, 13, .ro, .train⟩, ⟨12, 0, .ro, .train⟩]⟩,
   -- CLK_EVENTS
   ⟨0x4, 32, 4, 1, [⟨16, 13, .rc, .num 0⟩, ⟨12, 0, .rc, .num 0⟩]⟩,
   -- CLK_CORE
   ⟨0x10, 32, 4, 4, [⟨8, 8, .ro, .num 0⟩, ⟨3, 0, .ro, .train⟩]⟩,
   -- CLK_MEAS_SEL
   ⟨0x20, 32, 4, 1, [⟨31, 31, .wo, .num 0⟩, ⟨4, 0, .rw, .num 4⟩]⟩,
   -- CLK_MEAS
   ⟨0x24, 32, 4, 1, [⟨31, 31, .ro, .num 0⟩, ⟨23, 0, .ro, .num 0⟩]⟩,
   -- CLK_ALIGN
   ⟨0x28, 32, 4, 1, [⟨1, 1, .ro, .num 0⟩, ⟨0, 0, .ro, .num 0⟩]⟩]

/-- The registers of block rst (17_clocks_reset_bringup.md). -/
def rows_rst : List RegRow :=
  [-- RST_CMD
   ⟨0x0, 32, 4, 1, [⟨13, 4, .wo, .num 0⟩, ⟨3, 0, .wo, .num 0⟩]⟩,
   -- RST_STATUS
   ⟨0x4, 32, 4, 1, [⟨31, 31, .ro, .num 0⟩, ⟨30, 28, .ro, .num 0⟩, ⟨27, 24, .ro, .num 0⟩, ⟨7, 0, .ro, .num 0⟩]⟩,
   -- RST_CAUSE
   ⟨0x8, 32, 4, 1, [⟨5, 0, .ro, .train⟩]⟩,
   -- RST_CFG
   ⟨0xC, 32, 4, 1, [⟨0, 0, .rw, .keep⟩]⟩,
   -- RST_EVENTS
   ⟨0x10, 32, 4, 1, [⟨4, 0, .rc, .num 0⟩]⟩,
   -- BIST_INFO
   ⟨0x14, 32, 4, 1, [⟨31, 31, .ro, .train⟩, ⟨8, 8, .ro, .train⟩, ⟨5, 0, .ro, .train⟩]⟩,
   -- BOOT_US
   ⟨0x18, 32, 4, 1, [⟨31, 0, .ro, .train⟩]⟩,
   -- RST_CORE_HELD
   ⟨0x20, 32, 4, 32, [⟨31, 0, .ro, .num 0⟩]⟩]

/-- The registers of block pwr (18_power.md). -/
def rows_pwr : List RegRow :=
  [-- PWR_CMD
   ⟨0x0, 32, 4, 1, [⟨8, 8, .wo, .num 0⟩, ⟨5, 4, .wo, .num 0⟩, ⟨3, 0, .wo, .num 0⟩]⟩,
   -- PWR_STATUS
   ⟨0x4, 32, 4, 1, [⟨31, 31, .ro, .num 0⟩, ⟨27, 24, .ro, .num 0⟩, ⟨20, 20, .ro, .num 0⟩, ⟨19, 16, .ro, .num 0⟩, ⟨15, 0, .ro, .train⟩]⟩,
   -- PWR_EVENTS
   ⟨0x8, 32, 4, 1, [⟨9, 0, .rc, .num 0⟩]⟩,
   -- PWR_P1_CFG
   ⟨0xC, 32, 4, 1, [⟨19, 4, .rw, .num 256⟩, ⟨3, 0, .rw, .num 15⟩]⟩,
   -- PWR_VF
   ⟨0x10, 32, 4, 4, [⟨25, 16, .rw, .num 800⟩, ⟨3, 0, .rw, .num 15⟩]⟩,
   -- PWR_VF_STATUS
   ⟨0x20, 32, 4, 4, [⟨31, 31, .ro, .num 0⟩, ⟨30, 30, .ro, .num 1⟩, ⟨29, 29, .ro, .num 0⟩, ⟨25, 16, .ro, .train⟩, ⟨3, 0, .ro, .train⟩]⟩,
   -- PWR_CAP
   ⟨0x30, 32, 4, 1, [⟨31, 31, .rw, .num 0⟩, ⟨30, 30, .rw, .num 0⟩, ⟨9, 0, .rw, .num 165⟩]⟩,
   -- PWR_CAP_FLOOR
   ⟨0x34, 32, 4, 1, [⟨15, 0, .rw, .num 17476⟩]⟩,
   -- PWR_EST
   ⟨0x38, 32, 4, 1, [⟨17, 0, .ro, .num 0⟩]⟩,
   -- PWR_EST_R
   ⟨0x40, 32, 4, 4, [⟨17, 0, .ro, .num 0⟩]⟩,
   -- PWR_WAKE_CFG
   ⟨0x50, 32, 4, 1, [⟨11, 8, .rw, .num 0⟩, ⟨7, 7, .rw, .num 0⟩, ⟨6, 0, .rw, .num 0⟩]⟩,
   -- PWR_CFG
   ⟨0x54, 32, 4, 1, [⟨0, 0, .rw, .num 1⟩]⟩] ++
  [-- GOV_MAX_WAIT
   ⟨0x60, 32, 4, 4, [⟨31, 0, .rc, .num 0⟩]⟩,
   -- PWR_PMBUS
   ⟨0x70, 32, 4, 4, [⟨23, 8, .rw, .num 20⟩, ⟨6, 0, .rw, .dash⟩]⟩]

/-- The registers of block sec (19_security_configuration.md). -/
def rows_sec : List RegRow :=
  [-- SEC_STATUS
   ⟨0x0, 32, 4, 1, [⟨9, 8, .ro, .train⟩, ⟨7, 6, .ro, .train⟩, ⟨5, 5, .ro, .train⟩, ⟨4, 4, .ro, .train⟩, ⟨3, 0, .ro, .train⟩]⟩,
   -- SEC_EVENTS
   ⟨0x4, 32, 4, 1, [⟨3, 0, .rc, .num 0⟩]⟩,
   -- BOOT_FAILS
   ⟨0x8, 32, 4, 1, [⟨31, 0, .rc, .num 0⟩]⟩,
   -- PROT_STAGE
   ⟨0x10, 32, 4, 1, [⟨31, 0, .wo, .num 0⟩]⟩,
   -- PROT_COMMIT
   ⟨0x14, 32, 4, 1, [⟨31, 0, .wo, .num 0⟩]⟩,
   -- PROT_DECLINE
   ⟨0x18, 32, 4, 1, [⟨31, 0, .wo, .num 0⟩]⟩,
   -- PROT_STATUS
   ⟨0x1C, 32, 4, 1, [⟨2, 2, .rc, .num 0⟩, ⟨0, 0, .ro, .num 0⟩]⟩,
   -- PROT_REJECT
   ⟨0x20, 32, 4, 1, [⟨31, 31, .rc, .num 0⟩, ⟨2, 0, .ro, .num 0⟩]⟩,
   -- PROT_GEN
   ⟨0x24, 32, 4, 1, [⟨31, 0, .ro, .num 0⟩]⟩,
   -- PROT_DENIED_INFO
   ⟨0x28, 64, 8, 1, [⟨63, 63, .ro, .num 0⟩, ⟨50, 48, .ro, .num 0⟩, ⟨45, 40, .ro, .num 0⟩, ⟨39, 0, .ro, .num 0⟩]⟩,
   -- CFGLOAD_ADDR
   ⟨0x40, 64, 8, 1, [⟨39, 3, .rw, .dash⟩]⟩,
   -- CFGLOAD_CMD
   ⟨0x48, 32, 4, 1, [⟨0, 0, .wo, .num 0⟩]⟩] ++
  [-- CFGLOAD_STATUS
   ⟨0x4C, 32, 4, 1, [⟨31, 31, .ro, .num 0⟩, ⟨4, 4, .rc, .num 0⟩, ⟨3, 0, .ro, .num 0⟩]⟩]

/-- The registers of block protShadow (19_security_configuration.md). -/
def rows_protShadow : List RegRow :=
  [-- PROT_SHADOW
   ⟨0x0, 32, 4, 262, [⟨31, 0, .rw, .num 0⟩]⟩]

/-- The registers of block protLive (19_security_configuration.md). -/
def rows_protLive : List RegRow :=
  [-- PROT_LIVE
   ⟨0x0, 32, 4, 262, [⟨31, 0, .ro, .num 0⟩]⟩]

/-- Every register block of the device. DESIGN CHOICE (log 61): the gap between the MSI-X table and
its pending-bit array (offsets 0x8000 to 0x7FFFF from 0x03_0720_0000) is taken as inside one register
block, where R546 reads zero, and not as a gap between two blocks that gives a bus error. -/
def regBlocks : List RegBlock :=
  [⟨0x0003000000, 0x1000000, 1, 0x1000, .none, rows_glob⟩,
   ⟨0x0100080000, 0x100000, 1024, 0x1000, .own, rows_core⟩,
   ⟨0x0100090000, 0x100000, 1024, 0x1000, .none, rows_engIE⟩,
   ⟨0x0100091000, 0x100000, 1024, 0x1000, .none, rows_engSE⟩,
   ⟨0x0100092000, 0x100000, 1024, 0x1000, .none, rows_engSO⟩,
   ⟨0x0100093000, 0x100000, 1024, 0x1000, .none, rows_engPE⟩,
   ⟨0x0100094000, 0x100000, 1024, 0x1000, .none, rows_engEE⟩,
   ⟨0x0100095000, 0x100000, 1024, 0x1000, .none, rows_engSQ⟩,
   ⟨0x0002400000, 0x1000000, 1, 0x2000, .none, rows_mbx⟩,
   ⟨0x0300C00000, 0x1000000, 1, 0x1000, .none, rows_fab⟩] ++
  [⟨0x0300800000, 0x1000, 1024, 0x1000, .none, rows_rtr⟩,
   ⟨0x0305F00000, 0x1000000, 1, 0x1000, .own, rows_tb⟩,
   ⟨0x0305800000, 0x1000000, 1, 0x1000, .own, rows_adm⟩,
   ⟨0x0240008000, 0x10000, 64, 0x1000, .own, rows_bdu⟩,
   ⟨0x0240004000, 0x10000, 64, 0x1000, .none, rows_fmBlk⟩,
   ⟨0x030A000000, 0x10000, 4, 0x1000, .none, rows_fmReg⟩,
   ⟨0x030B000000, 0x1000000, 1, 0x1000, .none, rows_fmChip⟩,
   ⟨0x0301000000, 0x10000, 8, 0x1000, .own, rows_link⟩,
   ⟨0x0301008000, 0x10000, 8, 0x4000, .link, rows_linkInst⟩,
   ⟨0x0301800000, 0x10000, 8, 0x10000, .link, rows_linkCoef⟩] ++
  [⟨0x0301F00000, 0x1000000, 1, 0x1000, .none, rows_jesd⟩,
   ⟨0x0302000000, 0x1000000, 1, 0x1000, .own, rows_eip⟩,
   ⟨0x0303F00000, 0x1000000, 1, 0x1000, .none, rows_trig⟩,
   ⟨0x0305000000, 0x1000000, 1, 0x1000, .own, rows_ctt⟩,
   ⟨0x0305200000, 0x1000, 256, 0x1000, .none, rows_latest⟩,
   ⟨0x0303000000, 0x1000000, 1, 0x4000, .none, rows_oc⟩,
   ⟨0x0304000000, 0x1000000, 1, 0x1000, .own, rows_jrn⟩,
   ⟨0x0306000000, 0x10000, 2, 0x1000, .own, rows_eth⟩,
   ⟨0x0306400000, 0x1000, 2, 0x1000, .none, rows_swr⟩,
   ⟨0x0306800000, 0x1000000, 1, 0x2000, .own, rows_aet⟩] ++
  [⟨0x0306C00000, 0x1000000, 1, 0x1000, .own, rows_vol⟩,
   ⟨0x0306C10000, 0x1000000, 1, 0x14000, .volley, rows_volTab⟩,
   ⟨0x0004080000, 0x1000000, 1, 0x1000, .none, rows_cl⟩,
   ⟨0x0004000000, 0x1000000, 1, 0x3000, .none, rows_sic⟩,
   ⟨0x0307000000, 0x1000000, 1, 0x1000, .none, rows_pcie⟩,
   ⟨0x0307010000, 0x1000, 8, 0x1000, .none, rows_pdma⟩,
   ⟨0x0307200000, 0x1000000, 1, 0x81000, .none, rows_msix⟩,
   ⟨0x0240000000, 0x10000, 64, 0x1000, .none, rows_slice⟩,
   ⟨0x0308000000, 0x1000000, 1, 0x1000, .own, rows_mem⟩,
   ⟨0x0308001000, 0x1000, 16, 0x1000, .none, rows_memCh⟩] ++
  [⟨0x0309000000, 0x1000, 16, 0x1000, .none, rows_sdma⟩,
   ⟨0x0002300000, 0x1000000, 1, 0x2000, .none, rows_tmr⟩,
   ⟨0x0002001000, 0x1000000, 1, 0x1000, .none, rows_rec⟩,
   ⟨0x0002002000, 0x1000000, 1, 0x1000, .none, rows_boot⟩,
   ⟨0x0002500000, 0x1000000, 1, 0x1000, .none, rows_clk⟩,
   ⟨0x0002600000, 0x1000000, 1, 0x1000, .none, rows_rst⟩,
   ⟨0x0002700000, 0x1000000, 1, 0x1000, .none, rows_pwr⟩,
   ⟨0x0001F00000, 0x1000000, 1, 0x1000, .none, rows_sec⟩,
   ⟨0x0001F01000, 0x1000000, 1, 0x1000, .none, rows_protShadow⟩,
   ⟨0x0001F02000, 0x1000000, 1, 0x1000, .none, rows_protLive⟩]

end Sys2Proof.Machine
end

