-- ==== Sys2Proof/Machine/Tab.lean ====
section
/-! DEFINITION. Finite tables keyed by numbers, and byte memory as a list of cells in canonical form: addresses strictly
rising, no cell that holds what an unlisted address reads as. -/

namespace Sys2Proof.Machine

/-- A table: pairs of key and value, kept in rising order of key. -/
abbrev Tab (α : Type) := List (Nat × α)

def tfind {α : Type} (k : Nat) : Tab α → Option α
  | [] => none
  | (k', v) :: r => if k' = k then some v else tfind k r

/-- The value at `k`, or `d` where the table has none. -/
def tget {α : Type} (d : α) (k : Nat) (t : Tab α) : α := (tfind k t).getD d

def tset {α : Type} (k : Nat) (v : α) : Tab α → Tab α
  | [] => [(k, v)]
  | (k', v') :: r =>
    if k < k' then (k, v) :: (k', v') :: r
    else if k = k' then (k, v) :: r
    else (k', v') :: tset k v r

def tdel {α : Type} (k : Nat) (t : Tab α) : Tab α := t.filter (fun p => p.1 != k)

/-- Memory: cells of address and byte. -/
abbrev Memory := List Host.Cell

/-- What a byte that nothing has written reads as: zero. The stores and slices are zero-initialised at bring-up (R466);
for main memory and the AON SRAM the spec gives no contents (DESIGN CHOICE, log entry 3). -/
def unlistedByte : Byte := 0

/-- The canonical form of memory. -/
def Memory.wf : Memory → Bool
  | [] => true
  | (a, v) :: r => v != unlistedByte && r.all (fun c => decide (a < c.1)) && Memory.wf r

/-- The byte at address `a`. -/
def getByte (m : Memory) (a : Nat) : Byte := tget unlistedByte a m

/-- Write the byte at `a`. -/
def setByte (a : Nat) (v : Byte) (m : Memory) : Memory :=
  if v = unlistedByte then tdel a m else tset a v m

/-- The `n` bytes from `a`, lowest address first. -/
def getBytes (m : Memory) (a : Nat) : Nat → List Byte
  | 0 => []
  | n + 1 => getByte m a :: getBytes m (a + 1) n

/-- Write bytes from `a` upward. -/
def setBytes (a : Nat) : List Byte → Memory → Memory
  | [], m => m
  | v :: r, m => setBytes (a + 1) r (setByte a v m)

/-- The number whose little-endian bytes are given (R6). -/
def ofBytes : List Byte → Nat
  | [] => 0
  | v :: r => v.toNat + 256 * ofBytes r

/-- The `n` little-endian bytes of a number. -/
def toBytes (v : Nat) : Nat → List Byte
  | 0 => []
  | n + 1 => BitVec.ofNat 8 v :: toBytes (v / 256) n

/-- The number in the `n` bytes at `a`. -/
def getNum (m : Memory) (a n : Nat) : Nat := ofBytes (getBytes m a n)

/-- Write the low `n` bytes of `v` at `a`. -/
def setNum (a n v : Nat) (m : Memory) : Memory := setBytes a (toBytes v n) m

/-- The `w` bits from bit `lo` of the little-endian record at `a`. -/
def getBits (m : Memory) (a lo w : Nat) : Nat :=
  (getNum m (a + lo / 8) ((lo % 8 + w + 7) / 8)) / 2 ^ (lo % 8) % 2 ^ w

/-- Write `v` into the `w` bits from bit `lo` of the record at `a`; the other bits of the bytes it touches stay. -/
def setBits (a lo w v : Nat) (m : Memory) : Memory :=
  let n := (lo % 8 + w + 7) / 8
  let old := getNum m (a + lo / 8) n
  let low := old % 2 ^ (lo % 8)
  let high := old / 2 ^ (lo % 8 + w)
  setNum (a + lo / 8) n (low + 2 ^ (lo % 8) * (v % 2 ^ w) + 2 ^ (lo % 8 + w) * high) m

/-- Write zero to the `n` bytes from `a` (all in one pass). -/
def zeroBytes (a n : Nat) (m : Memory) : Memory := m.filter (fun c => !(decide (a ≤ c.1) && decide (c.1 < a + n)))

end Sys2Proof.Machine
end

