-- ==== Sys2Proof/Machine/State.lean ====
section
/-! DEFINITION. The state of the device as plain data: everything the spec gives it, and the state right after a cold
reset. Registers live in `csr`, by the address of their word; a word not listed holds its reset value. -/

namespace Sys2Proof.Machine

/-- Why the device stops. -/
inductive Fault where
  /-- A reserved (RSV) field holds a value that differs from the value last read from it. Raised by every command while
  that is so: the spec says that no rule of it binds the device then (R9). Safe: the model stops where the device goes on
  in a way the spec does not describe. -/
  | reservedChanged
  deriving DecidableEq, Repr

/-- Why a command has no meaning. -/
inductive Refusal where
  /-- The command is not modelled. Raised only by an arm of `exec` that has no meaning yet. Safe. -/
  | notModelled (mnemonic : String)
  deriving DecidableEq, Repr

/-- Packet types (R174); `reserved` is TYPE 13 to 15, which only a corrupted header can hold. -/
inductive PktType where
  | event | qsend | credit | ack | nack | refuse
  | csrWr | csrRd | csrRsp | memRd | memWr | memRsp | memAck | reserved
  deriving DecidableEq, Repr

/-- The origin of a volley event (R375): the sending device, the expert, and the chip wicket W. -/
structure AetOrg where
  chip : Nat
  expert : Nat
  wicket : Nat
  deriving DecidableEq, Repr

/-- A packet: the fields of its sideband (R173) and its payload. An endpoint is `router * 4 + DEP`.
`step` and `engine` are the attribution of the item (R59, R161). -/
structure Packet where
  ty : PktType
  src : Nat
  /-- destination endpoint; for a multicast packet, the flock id -/
  dst : Nat
  mc : Bool := false
  alt : Bool := false
  epoch : Nat := 0
  seq : Nat := 0
  tr : Nat := 0
  ext : Nat := 0
  /-- length in flits (R172, R174) -/
  flits : Nat := 1
  data : Nat := 0
  step : Nat := 0
  engine : Nat := 0
  /-- an event that admission control injected: the word as it reached it (R215); a packet of a BDU: its RUN number (R253); a
  slice access and its response: the number by which the engine knows it -/
  raw : Nat := 0
  org : Option AetOrg := none
  /-- sent before: it keeps its SEQ and its retransmit entry -/
  resend : Bool := false
  deriving DecidableEq, Repr

/-- A packet in the fabric, as its source sent it: the router at which it stands, the input port (0 E, 1 W, 2 N, 3 S, 4 LOCAL,
5 EXTRA), and whether it has left its last router for its endpoint, by output `port`. -/
structure Flight where
  pkt : Packet
  router : Nat
  port : Nat
  delivered : Bool := false
  /-- the bits that links have flipped: of the 112-bit sideband, and above them of the payload (R173) -/
  bad : Nat := 0
  /-- the outputs to which copies of a multicast packet have gone (R186) -/
  gone : List Nat := []
  deriving DecidableEq, Repr

/-- An entry of a source's retransmit buffer (R190): the packet, how often it was sent, the members that have
acknowledged it (multicast), and the refusal that has taken the entry over (R194). -/
structure Retx where
  pkt : Packet
  sends : Nat := 1
  acks : Nat := 0
  refused : Bool := false
  /-- RETX_LIMIT has been reported (R195) -/
  told : Bool := false
  deriving DecidableEq, Repr

/-- An item at a router stop: its packet, with the source endpoint and SEQ a refusal must name. -/
structure Arrival where
  pkt : Packet
  /-- the flock by which it came -/
  flock : Option Nat
  deriving DecidableEq, Repr

/-- A refusal at the item's sender: the header of R161 and the refused word. -/
structure RefuseRec where
  hdr : Word64
  word : Word64
  /-- destination endpoint and SEQ of the item, whose retransmit entry it holds -/
  dst : Nat
  seq : Nat
  mc : Bool
  deriving DecidableEq, Repr

/-- A receive series: next expected SEQ, packets accepted since the last ACK, the NACK outstanding, and the
refusals of it whose REFUSE is not yet acknowledged (R191, R192, R194). -/
structure RxSeries where
  expect : Nat := 0
  unacked : Nat := 0
  nack : Bool := false
  /-- SEQ and TRY of refused items whose REFUSE is not yet acknowledged -/
  held : List (Nat × Nat) := []
  /-- the ACK of an in-order REFUSE is sent as soon as the items before it let it cover the REFUSE (R194) -/
  owed : Bool := false
  deriving DecidableEq, Repr

/-- The fabric: packets that wait at their sources, packets in flight, retransmit buffers, series and failed ports. -/
structure Fabric where
  waiting : List Packet := []
  flights : List Flight := []
  retx : List Retx := []
  /-- next SEQ of each unicast series, by source endpoint * 4096 + destination endpoint -/
  seqNext : Tab Nat := []
  /-- receive side: unicast by the same key; a multicast member at 16777216 + router * 1024 + flock -/
  rx : Tab RxSeries := []
  /-- cycles of AON_CLK that have passed -/
  now : Nat := 0
  /-- when HCHK failed at an input port within its window, by router * 8 + port (R195) -/
  hchk : Tab (List Nat) := []
  /-- the input port that an output last granted, by (router * 8 + output) * 4 + channel (R177) -/
  grants : Tab Nat := []
  /-- slice packets that have arrived at a block port, by its router, and the source endpoint it last granted (R184) -/
  ports : Tab (List Packet) := []
  lastSrc : Tab Nat := []
  /-- the number of the next slice access of an engine -/
  tag : Nat := 0
  deriving DecidableEq, Repr


/-- The answer to the last access a requester made. -/
inductive Reply where
  | none
  /-- completed, nothing to return -/
  | done
  /-- completed with data -/
  | data (v : Nat)
  /-- completed with a bus error -/
  | busError
  /-- completed with Completer Abort on PCIe (R396) -/
  | completerAbort
  /-- completed with Configuration Request Retry Status on PCIe (R466) -/
  | retry
  deriving DecidableEq, Repr

/-- The weight of a synaptic operation: a value, or the place in a kernel at which the SE reads it (R72, R89): window offset
of the weights, S4 or S8, index. -/
inductive OpWeight where
  | value (w : Int)
  | kernel (o : Nat) (s4 : Bool) (j : Nat)
  deriving DecidableEq, Repr

/-- One synaptic operation (R55, R77). `step` is the target step, `dly` the event's DLY. -/
structure SynOp where
  slot : Nat
  target : Nat
  weight : OpWeight
  wsh : Nat
  pay : Nat
  step : Nat
  dly : Nat
  deriving DecidableEq, Repr

/-- An event word at a receiver, with the step of its source to which it is attributed (R59). -/
structure InEvent where
  word : Word64
  step : Nat
  deriving DecidableEq, Repr

/-- A presynaptic record (R73). -/
structure PreRec where
  axon : Nat
  slot : Nat
  pay : Nat
  step : Nat
  deriving DecidableEq, Repr

/-- A fire record or a postsynaptic record (R73). -/
structure FireRec where
  neuron : Nat
  slot : Nat
  kind : Nat
  pay : Nat
  step : Nat
  deriving DecidableEq, Repr

/-- A fan-out projection in progress in the IE (R78): the index entry is read first, then its synapse entries. -/
structure Fanout where
  ev : InEvent
  slot : Nat
  s4 : Bool
  wsh : Nat
  /-- slice-view offset of the next read -/
  off : Nat
  /-- synapse entries left; `none` while the index entry is awaited -/
  left : Option Nat
  /-- slice-view offset of the table -/
  base : Nat
  /-- the number of the read that is outstanding, and its answer once that has arrived: its data, or none for a bus error -/
  tag : Nat := 0
  ans : Option (Option Nat) := none
  deriving DecidableEq, Repr

/-- The states of ENG_STATUS.STATE (R102). -/
inductive EngState where
  | idle | run | waitQueue | waitSync | halted
  deriving DecidableEq, Repr

/-- What a waiting instruction waits for. -/
inductive Wait where
  | none
  | pop (q rd : Nat)
  | push (q : Nat) (v : Word64)
  | contribute (q tag : Nat) (v : Word)
  | sem (id rb : Nat) (sub : Bool)
  /-- in HWAIT on herd `h` -/
  | herd (h : Nat)
  /-- a second arrival at herd `h`, which counts for the next round (R126) -/
  | arrive (h : Nat) (wait : Bool)
  /-- a QSEND that has been issued on a route, with the DEST and EPOCH it had then (R159) -/
  | qsend (route gid epoch : Nat) (v : Word64)
  | emit (v : Word64)
  | fence
  deriving DecidableEq, Repr

/-- The handler an engine runs (R133). `acted`: its WICKET or STEPDONE has been performed (R130). -/
structure Handler where
  kind : Nat
  slot : Nat
  step : Nat
  acted : Bool
  deriving DecidableEq, Repr

/-- A happening that waits for dispatch (R133, R136). -/
structure Happening where
  kind : Nat
  slot : Nat
  step : Nat
  s1 : Word
  s2 : Word
  s3 : Word
  /-- SO WICKET: the number of neurons that fired in the update (LAST_FIRES, R142) -/
  fires : Nat := 0
  deriving DecidableEq, Repr

/-- A slice store that an engine has issued and that has not reached its slice (R106). -/
structure Posted where
  off : Nat
  op : SliceOp
  pc : Nat
  /-- the number of the access -/
  tag : Nat := 0
  deriving DecidableEq, Repr

/-- An outstanding slice read of an engine: LWS, or VLDS with its lanes. The entry is the space reserved for the response
(R181); `ans` is the response that has arrived: its data, or none for a bus error. -/
structure SliceRead where
  vector : Bool
  dst : Nat
  off : Nat
  pc : Nat
  mask : Nat
  /-- the number of the access -/
  tag : Nat := 0
  ans : Option (Option Nat) := none
  deriving DecidableEq, Repr

/-- One engine of a neurocore (R103, R104). Absent entries of the register files hold zero. -/
structure Eng where
  /-- scalar registers s1-s31 -/
  regs : Tab Word := []
  /-- vector registers: lane `j` of `v` at `16 * v + j` -/
  vregs : Tab Word := []
  pc : Nat := 0
  st : EngState := .idle
  wait : Wait := .none
  handler : Option Handler := none
  happen : List Happening := []
  posted : List Posted := []
  reads : List SliceRead := []
  /-- slice stores that ended in a bus error, not yet raised: pc and slice offset (R114) -/
  storeErr : List (Nat × Nat) := []
  deriving DecidableEq, Repr

/-- An event word in the send queue, with its attributed step and the engine that sent it. -/
structure SendItem where
  word : Word64
  step : Nat
  engine : Nat
  /-- how many packets that wait at the core's router stop are older (R199) -/
  older : Nat := 0
  deriving DecidableEq, Repr

/-- One neurocore beside its stores, CSRs and engines: the queues of R73 and the progress of its slots. -/
structure Core where
  ingress : List InEvent := []
  hold : List InEvent := []
  ops : List (List SynOp) := []
  late : List SynOp := []
  pre : List PreRec := []
  fire : List FireRec := []
  post : List FireRec := []
  send : List SendItem := []
  /-- control words from the IE to the SQ -/
  ctrl : List InEvent := []
  /-- operation groups of the event in the IE that have found no credit, in order (R73) -/
  forming : List (List SynOp) := []
  /-- wicket commands of the SQ to the SO, and to the SE: slot and step -/
  soCmd : List (Nat × Nat) := []
  seCmd : List (Nat × Nat) := []
  /-- wicket commands that the SQ has issued and that have found no credit in the two control queues (R73) -/
  sqOut : List (Nat × Nat) := []
  /-- the SO's update in progress: the next neuron of its slot, and how many have fired in it (R84) -/
  somaAt : Option (Nat × Nat) := none
  /-- words of the fire record at the head of the queue that the EE has handed to the send queue (R85) -/
  firePos : Nat := 0
  fanout : Option Fanout := none
  /-- per slot, how many wickets the chip has released, the core has taken, and the SO has finished -/
  released : Tab Nat := []
  taken : Tab Nat := []
  soma : Tab Nat := []
  /-- per slot, for how many steps the correction entries have been added -/
  corr : Tab Nat := []
  /-- per slot, for how many steps the step-done contribution has been sent, and STEP_END raised -/
  doneSent : Tab Nat := []
  endRaised : Tab Nat := []
  /-- STEP_END happenings that wait at the SQ, in order of arrival: slot and step (R136) -/
  stepReady : List (Nat × Nat) := []
  /-- an uncontained fault has stopped the core's wickets (R95) -/
  stopped : Bool := false
  /-- word number at which the scrubber stands, and whether it has stopped (R98, R99) -/
  scrub : Nat := 0
  scrubStop : Bool := false
  /-- items that have reached the router stop and wait to be judged: events and QSEND pairs -/
  arrivals : List Arrival := []
  /-- refusals that wait for two free entries of queue 63: header and word (R162) -/
  refusals : List RefuseRec := []
  /-- clock gated in P1 (R475) -/
  asleep : Bool := false
  /-- the physical core that carries the coordinates: `none` its own, 0-15 that of another position of the block, 16 the
  block's spare, 17 one that has failed and been exchanged out (R339) -/
  remap : Option Nat := none
  /-- per local queue, the sender (core and route) of each entry held, oldest first, for its credit (R158) -/
  origins : Tab (List (Option (Nat × Nat))) := []
  /-- per ring queue: body words still to come of the record being written, and of the record being read (R155, R156) -/
  ringLeft : Tab Nat := []
  ringTake : Tab Nat := []
  /-- the engines whose QSEND stalls, in order of issue (R159) -/
  stalled : List Nat := []
  /-- records whose trace has been incremented and that wait for a PRE or POST batch (R134, R264) -/
  preReady : List PreRec := []
  postReady : List FireRec := []
  /-- modulation of a slot: current value; pending value with its first step, if it carries one; PE staging (R267, R277) -/
  modNow : Tab Nat := []
  modPend : Tab (Nat × Option Nat) := []
  modStage : Option Nat := none
  /-- the learning set whose boundary sequence runs, and per slot the innings whose boundary it has passed (R268, R269) -/
  applying : Option Nat := none
  /-- in that sequence: its innings number, the events that arrived before the last release and that the IE has still to take (item 1 of R269), and
  whether items 2 to 4 are done -/
  applyInn : Nat := 0
  /-- the other sets whose boundary is due: the events of the ingress queue that arrived before their last release and that
  the IE has still to take -/
  dueIn : Tab Nat := []
  applyIn : Nat := 0
  applied : Bool := false
  innDone : Tab Nat := []
  /-- slots whose wicket is held for a checkpoint read-out (R335) -/
  ckptHold : List Nat := []
  /-- intake stopped by the stop sequence of R100 -/
  intakeOff : Bool := false
  deriving DecidableEq, Repr

/-- The step progress of a context at the timebase, admission control and the step-done network. -/
structure CtxRun where
  /-- wickets released, steps complete, steps closed to ingress, steps for which admission control has contributed -/
  released : Nat := 0
  complete : Nat := 0
  closed : Nat := 0
  admDone : Nat := 0
  /-- events accepted, by step (R212) -/
  counts : Tab Nat := []
  /-- tick START has reached admission control (R212) -/
  started : Bool := false
  /-- run-ahead credits (R219) -/
  credits : Nat := 2
  /-- ingress refused by a PAUSE or DRAIN (R320) -/
  shut : Bool := false
  /-- steps to be completed before a PAUSE or DRAIN ends; no wicket beyond them is released -/
  limit : Option Nat := none
  /-- a RESUME takes effect at the next tick -/
  resuming : Bool := false
  /-- a PAUSE that the chip fault manager has given is not complete (R389) -/
  pausing : Bool := false
  /-- a CLEAR waits for the refusals of its items (R320) -/
  clearing : Bool := false
  /-- replay (R343): next journal index, wickets released, and by step the events of it injected -/
  replay : Option Nat := none
  replayed : Nat := 0
  replayIn : Tab Nat := []
  /-- highest step number with accepted events, plus one -/
  highest : Nat := 0
  /-- a recovery of the context has begun since its START (R344) -/
  recovered : Bool := false
  /-- TRIG_STEP names a step whose pulses were released, and OSEQ_HIGH a record that was written (R318, R344) -/
  trigRel : Bool := false
  wrote : Bool := false
  /-- by step, ISEQ and journal index when the step before it closed (R336) -/
  cuts : Tab (Nat × Nat) := []
  deriving DecidableEq, Repr

/-- A step-done contribution under way (R208). -/
structure Contrib where
  ctx : Nat
  step : Nat
  deriving DecidableEq, Repr

/-- What waits before admission control (R205, R211, R374): an event of a source, with the explicit step and origin that
AET gives, or a close mark. -/
inductive AdmIn where
  | event (source : Nat) (word : Word64) (step : Option Nat) (org : Option AetOrg)
  | mark (ctx : Nat) (step : Nat)
  /-- the receive entry of a packet from `peer` in an incarnation is free once what precedes has been handed on (R361, R364) -/
  | entry (peer inc : Nat)
  deriving DecidableEq, Repr

/-- A request for a trigger pulse (R309): output, tick, and the context and step of its result (none: TRIG_FORCE). -/
structure TrigReq where
  out : Nat
  tick : Nat
  src : Option (Nat × Nat)
  deriving DecidableEq, Repr

/-- An event in the injection hold buffer (R214). `raw` is the word as it arrived. -/
structure HeldEvent where
  ctx : Nat
  step : Nat
  source : Nat
  word : Word64
  raw : Word64
  org : Option AetOrg := none
  deriving DecidableEq, Repr

/-- A refusal by a core that has come back to admission control or a BDU: the sender's endpoint and the refusal. -/
structure BackRefusal where
  src : Nat
  r : RefuseRec
  deriving DecidableEq, Repr

/-- An entry of the Output Collector (R323). -/
structure ResEntry where
  ctx : Nat
  step : Nat
  axonOff : Nat
  pay : Nat
  kind : Nat
  src : Nat
  deriving DecidableEq, Repr

/-- An output record that waits to be written (R325, R327): its 64-bit words, two to a unit. -/
structure OutRec where
  ctx : Nat
  step : Nat
  ring : Nat
  prot : Bool
  oseq : Nat
  words : List Nat
  deriving DecidableEq, Repr

/-- A record of a refusal ring that waits for a memory channel in training (R216, R375, R426): for the ring of the AET or of
admission control. -/
structure RingRec where
  aet : Bool
  hdr : Nat
  word : Nat
  deriving DecidableEq, Repr

/-- A received frame that waits at its port for main memory (R402, R426), with its time stamp. -/
structure RxFrame where
  port : Nat
  frame : List Byte
  ts : Option Nat
  deriving DecidableEq, Repr

/-- A journal record in the engine's input buffer (R331, R332). -/
structure JrnRec where
  ctx : Nat
  step : Nat
  close : Bool
  w0 : Nat
  w1 : Nat
  deriving DecidableEq, Repr

/-- A checkpoint being written (R335, R336): buffer, step of the cut, and what the header takes at the cut. -/
structure Ckpt where
  ctx : Nat
  buf : Nat
  step : Nat
  iseq : Nat
  jpos : Nat
  oseq : Nat
  slots : Nat
  bytes : List Byte
  discard : Bool
  deriving DecidableEq, Repr

/-- A fault on its way up the chain of R13: the level at which it now stands (0 core fault unit, 1 block fault
controller, 2 region fault manager, 3 chip fault manager) and the fields of its record (R340). -/
structure FaultRep where
  level : Nat
  origin : Nat
  kind : Nat
  unit : Nat
  detail : Nat
  /-- its record in the table of the chip fault manager -/
  entry : Option Nat := none
  deriving DecidableEq, Repr

/-- A recovery in hand (R342): the contexts, the cores to be loaded, and whether they are still to be reset. -/
structure Recov where
  ctxs : List Nat
  cores : List Nat
  reset : Bool
  deriving DecidableEq, Repr

/-- A slice row that has been mapped onto a spare row or retired (R339). -/
structure RowMap where
  slice : Nat
  row : Nat
  retired : Bool
  deriving DecidableEq, Repr

/-- An access that waits for a channel in training (R426). -/
structure MemWait where
  p : Party
  addr : Nat
  op : MemOp
  deriving DecidableEq, Repr

/-- A reset in progress (R461): kind 1 warm, 2 compute, 3 region, 4 core; its target; the requester, if any; and whether
it waits for its region to leave P2 (R484). -/
structure RunningReset where
  kind : Nat
  target : Nat
  by' : Option Party
  waits : Bool := false
  deriving DecidableEq, Repr

/-- An act that waits for the wake governor (R486). -/
structure GovAct where
  block : Bool
  unit : Nat
  wake : Bool
  deriving DecidableEq, Repr

/-- Power state beside the power control registers. -/
structure Power where
  /-- blocks whose clock branch is gated (R476) -/
  blocksAsleep : List Nat := []
  /-- acts that wait for the wake governor, oldest first (R486) -/
  gov : List GovAct := []
  p3 : Bool := false
  p4 : Bool := false
  /-- the P2 entry in hand is AY96-compatible; regions that are in P2 that way or leave it (R474) -/
  compat : Bool := false
  compatRegions : List Nat := []
  /-- regions whose exit must follow their entry at once (R484) -/
  exitNext : List Nat := []
  /-- region of the command in progress -/
  cmdRegion : Option Nat := none
  /-- the exit from P3 has been called for (R483) -/
  waking : Bool := false
  /-- main memory was abandoned in P3 (R482) -/
  memLost : Bool := false
  /-- per region: pending voltage in mV, pending MULT, exponent of its regulator, last VOUT_COMMAND mantissa (R490) -/
  vPending : Tab Nat := []
  mPending : Tab Nat := []
  vExp : Tab Int := []
  vCmd : Tab Int := []
  /-- cap: 100 µs periods in a row below 95 % (R491), regions lowered by it -/
  below : Nat := 0
  capped : List Nat := []
  /-- voltages of AUTO_V that wait for a change in hand to settle (R491) -/
  vDue : Tab Nat := []
  /-- regions held after a rail fault (R542) -/
  railHeld : List Nat := []
  deriving DecidableEq, Repr

/-- The level of pins and power-good inputs that the rules name, as they stand when RST_N is released with every supply in
its range (R540). -/
structure Pins where
  vcoreEn : Nat := 15
  sysPwrEn : Bool := true
  memPwrEn : Bool := true
  thermTripN : Bool := true
  rstN : Bool := true
  vcorePg : Nat := 15
  sysPg : Bool := true
  perstN : Bool := true
  /-- TRIG_OUT_n: bit n while P stands above N -/
  trigOut : Nat := 0
  /-- synchronised levels of TRIG_IN -/
  trigIn : Nat := 0
  /-- JESD_SYNC_N of each link: bit l = 1 while it is low -/
  syncLow : Nat := 255
  /-- the board's wiring: physical JESD lanes, and EIP lanes, whose P and N are swapped -/
  laneSwap : Nat := 0
  eipSwap : Nat := 0
  /-- the board's levels at BOOT_SRC[1:0], which the pull-downs hold low where the board leaves them open (R500, R535) -/
  bootSrc : Nat := 0
  /-- SPI_CLK, SPI_CS_N, DBG_TDO (`none`: high impedance) and EIP_CR (P above N) -/
  spiClk : Bool := false
  spiCsN : Bool := true
  dbgTdo : Option Bool := none
  eipCr : Bool := false
  /-- every output on VDDIO is high impedance, whatever its level field holds (R535) -/
  ioZ : Bool := false
  deriving DecidableEq, Repr

/-- One firewall window (R512). `base` and `last` are address bits [39:12]. -/
structure Window where
  base : Nat := 0
  last : Nat := 0
  rd : Nat := 0
  wr : Nat := 0
  valid : Bool := false
  deriving DecidableEq, Repr

/-- A protection set-up (R511, R512). -/
structure Prot where
  windows : List Window
  hostEn : Bool
  bar2En : Bool
  segHost : Bool
  rstHost : Nat
  defOwner : Nat
  forbid : Nat
  dbgUnlock : Bool
  dbgScope : Nat
  deriving DecidableEq, Repr

/-- The factory set-up (R513). -/
def factoryProt : Prot where
  windows := { base := 0, last := 0x0FFFFFFF, rd := 0x1F, wr := 0x1F, valid := true } :: List.replicate 63 {}
  hostEn := true
  bar2En := true
  segHost := true
  rstHost := 0xF
  defOwner := 0x011B3000
  forbid := 0
  dbgUnlock := false
  dbgScope := 0

/-- A verification in hand (R505): byte offset of the image, and the mailbox that reports its result. -/
structure Verify where
  offset : Nat
  mailbox : Option Nat
  deriving DecidableEq, Repr

/-- Security controller state beside its registers. -/
structure Sec where
  live : Prot := factoryProt
  /-- nonce of the staged change -/
  staged : Option Word := none
  keyRevoke : Nat := 0
  verify : Option Verify := none
  /-- root of the running image (R510) -/
  root : Nat := 0
  /-- VDD_SEC has risen since the last unwrap (R499) -/
  unwrapDue : Bool := true
  /-- the unwrapped identity key, in the controller's SRAM (R499) -/
  idKey : Option (List Byte) := none
  /-- an ATTEST that waits for a channel in training: offset of its buffer, and the mailbox of its result (R426, R510) -/
  attest : Option (Nat × Nat) := none
  deriving DecidableEq, Repr

/-- A high-word shadow (R37). -/
structure Shadow where
  p : Party
  blk : Nat
  tag : Nat
  value : List Word
  deriving DecidableEq, Repr

/-- A held low word (R38). -/
structure HeldLow where
  p : Party
  blk : Nat
  tag : Nat
  value : Word
  deriving DecidableEq, Repr

/-- Fuse values of the part (R1, R46): the variant. -/
inductive Variant where
  | ay1024 | ay768 | ay512
  deriving DecidableEq, Repr


/-- A layer's run at a BDU: STATUS of R252, events emitted, its RUN number, and what its end uses of the descriptor as read at its
start (R249): the NEXT layer, if one is enabled, DONE_Q and DONE_EPOCH. -/
structure BduRun where
  layer : Nat
  status : Nat
  events : Nat
  run : Nat
  next : Option Nat
  doneQ : Nat
  doneEpoch : Nat
  deriving DecidableEq, Repr

/-- A BDU beside its registers: the layers whose trigger words it watches, with TRIG_ADDR and TRIG_COUNT as read at the
enable (R249), the run queue (R248), the run in hand, and the runs of each layer since the enable (R252). -/
structure Bdu where
  watch : List (Nat × Nat × Nat) := []
  queue : List Nat := []
  /-- a NEXT layer that found the queue full -/
  next : Option Nat := none
  run : Option BduRun := none
  runs : Tab Nat := []
  /-- watched words written while the BDU had no clock: their slices hold the results of the comparison (R477) -/
  held : List Nat := []
  deriving DecidableEq, Repr



/-! The Aedene Event Transport (R356-R377). -/

/-- The payload of a sequenced packet (R358); a refusal record is its two words. -/
inductive AetBody where
  | volley (g : Segment)
  | close (w : Nat)
  | refuse (recs : List (Word64 × Word64))
  deriving DecidableEq, Repr

/-- A sequenced packet that the peer has not acknowledged: `sends` counts its sends on the active port. -/
structure TxPkt where
  seq : Nat
  body : AetBody
  sends : Nat := 1
  deriving DecidableEq, Repr

/-- One session (R360-R363) beside SESS_STATUS. -/
structure Sess where
  /-- last INCARNATION -/
  incarnation : Nat := 0
  /-- GEN in use while OPEN -/
  gen : Nat := 0
  /-- a HELLO of ours awaits its answer -/
  hello : Bool := false
  /-- preferred port -/
  pref : Nat := 0
  txNext : Nat := 0
  /-- next SEQ the peer expects, and the packets it accepts from there -/
  peerAck : Nat := 0
  peerCredit : Nat := 256
  unacked : List TxPkt := []
  queue : List AetBody := []
  rxNext : Nat := 0
  rxHeld : Tab AetBody := []
  /-- packets delivered in order whose events have not all been handed on: they still fill receive entries (R361, R364) -/
  rxUsed : Nat := 0
  /-- packets that have arrived since the last acknowledgement -/
  rxSince : Nat := 0
  /-- first sequenced packet received, and the wicket after whose CLOSE the peer's marks are required (R374) -/
  marksFrom : Option Nat := none
  /-- chip wickets marked by the peer's CLOSEs: all up to this number, less one -/
  marked : Nat := 0
  deriving DecidableEq, Repr

/-- The payload of a datagram (R358): GEN_MIN, GEN_MAX, FEATURES and UNIQUE_ID of a HELLO, GEN, FEATURES and UNIQUE_ID of an
ACCEPT, the reason of a REJECT, the body of a sequenced packet. -/
inductive AetLoad where
  | empty
  | hello (genMin genMax features uid : Nat)
  | accept (gen features uid : Nat)
  | reject (reason : Nat)
  | body (b : AetBody)
  deriving DecidableEq, Repr

/-- A datagram that the device has handed to a port: the fields of R357 (`src` and `peer` are SRC_CHIP and DST_CHIP; MAGIC is
constant and LEN follows from the payload) and the payload. -/
structure AetOut where
  port : Nat
  peer : Nat
  ty : Nat
  gen : Nat := 0
  src : Nat := 0
  seq : Nat := 0
  ack : Nat := 0
  sack : Nat := 0
  credit : Nat := 0
  incarnation : Nat := 0
  load : AetLoad := .empty
  deriving DecidableEq, Repr

/-- A stream's window of a step (R369, R370): its data events in arrival order, and the highest score of each candidate. -/
structure VolWindow where
  stream : Nat
  step : Nat
  data : List Word64 := []
  gates : Tab Nat := []
  deriving DecidableEq, Repr

/-- The AET beside its registers. -/
structure Aet where
  sess : Tab Sess := []
  out : List AetOut := []
  windows : List VolWindow := []
  /-- per stream, one more than the highest W whose window it has sent (R376) -/
  sentW : Tab Nat := []
  /-- per peer, one more than the highest W for which CLOSE has been sent; own marks under the device's chip id (R373) -/
  closedW : Tab Nat := []
  /-- TB_CLK time in ns since reset, at the last tick and now, for the grid of R366; and the part of a ns by which PTP_TIME and
  it lag TB_CLK, in units of 2^-42 -/
  tickTime : Nat := 0
  tbTime : Nat := 0
  frac : Nat := 0
  deriving DecidableEq, Repr


/-- The System Interrupt Controller beside its registers (R391, R392). A level source is pending while it is asserted and
not in service; its flag is not stored. -/
structure Sic where
  /-- pending flags of edge sources -/
  edge : List Nat := []
  inService : List Nat := []
  /-- host-pending flags -/
  host : List Nat := []
  /-- edge sources that have occurred since their host-pending flag was set -/
  hostAgain : List Nat := []
  /-- PBA bits, by vector -/
  pba : List Nat := []
  /-- MSI-X messages sent, by vector, oldest first -/
  sent : List Nat := []
  deriving DecidableEq, Repr

/-- A recorder record that waits for a thaw (R452), as a number of 32 bytes. -/
abbrev RecWord := Nat

/-- The event recorder beside its registers (R447-R452). -/
structure Recorder where
  /-- AON_CLK cycles within the microsecond -/
  cycles : Nat := 0
  micros : Nat := 0
  seconds : Nat := 0
  hours : Nat := 0
  powerCycles : Nat := 0
  /-- records raised since the last cold reset -/
  seq : Nat := 0
  pend : List RecWord := []
  /-- REC_SW_ARG0 and REC_SW_ARG1 of each requester: party, register (0 or 1), value -/
  args : List (Party × Nat × Nat) := []
  deriving DecidableEq, Repr



/-! Converter links, the signal encoder front and the Event Ingress Port (R279-R307). -/

/-- An encoder instance (R295-R298). `started`: a value has arrived since the link came UP. -/
structure Enc where
  started : Bool := false
  /-- level-crossing: reference, direction (true: down), net count -/
  r : Int := 0
  dir : Bool := false
  n : Int := 0
  /-- log-magnitude: largest lm of the window -/
  m : Nat := 0
  /-- onset/offset: level in 1/256 lm, and state -/
  a : Int := 0
  on : Bool := false
  /-- slope-edge: the last samples, newest first; directions disarmed; the window's first edge (rising, size of the slope) -/
  past : List Int := []
  offUp : Bool := false
  offDown : Bool := false
  edge : Option (Bool × Nat) := none
  deriving DecidableEq, Repr

/-- A JESD204 link beside its registers. -/
structure Link where
  /-- its lanes have found the marker, or received the ILAS -/
  aligned : Bool := false
  /-- per converter, the samples that the channeliser still needs, oldest first -/
  hist : List (List Int) := []
  /-- per converter, the samples received since UP -/
  taken : List Nat := []
  /-- values of the window so far -/
  values : Nat := 0
  encs : Tab Enc := []
  /-- events formed and not yet released -/
  out : List Word64 := []
  deriving DecidableEq, Repr

/-- A back-channel message (R305). -/
structure EipMsg where
  credits : Nat
  seq : Nat
  status : Nat
  deriving DecidableEq, Repr

/-- The Event Ingress Port beside its registers. -/
structure Eip where
  /-- groups accepted and not handed on: their valid words -/
  groups : List (List Word64) := []
  /-- expected SEQ -/
  expect : Nat := 0
  /-- a NAK is outstanding -/
  nak : Bool := false
  /-- credits to be returned -/
  owed : Nat := 0
  sent : List EipMsg := []
  deriving DecidableEq, Repr



/-! Timers, the application cluster and the host (R381-R405, R433-R445). -/

/-- A requester's shadows of a timer chain (R443): the base, whether of captures, and the value of each higher member. -/
structure TmrShadow where
  p : Party
  cap : Bool
  base : Nat
  values : List Word
  deriving DecidableEq, Repr

/-- The timers beside their registers. -/
structure Timers where
  /-- events of masters that their slaves meet in the next cycle: timer, and 0 match, 1 overflow, 2 OUT rising -/
  events : List (Nat × Nat) := []
  /-- timers whose last happening on COUNT is a match: the next increment of CLR_ON_MATCH loads 0 -/
  matched : List Nat := []
  /-- COMPARE writes held for a joined group (R440) -/
  heldCmp : Tab Word := []
  shadows : List TmrShadow := []
  deriving DecidableEq, Repr

/-- One application core as RV64GC, its modes and its PMP have it (R381): the program counter, the mode (3 machine, 1
supervisor, 0 user), the registers, the control registers by RISC-V number, and the 64-byte line that a load-reserved holds. -/
structure Hart where
  pc : Nat := 0
  mode : Nat := 3
  x : Tab Word64 := []
  f : Tab Word64 := []
  csr : Tab Word64 := []
  resv : Option Nat := none
  deriving DecidableEq, Repr

/-- The application cluster beside its registers (R382-R389). -/
structure Cluster where
  harts : Tab Hart := []
  /-- cores that have kicked since their release -/
  kicked : List Nat := []
  /-- the grace timer runs -/
  grace : Bool := false
  /-- CLUSTER_UP as the cluster last noted it (R388) -/
  up : Bool := false
  deriving DecidableEq, Repr

/-- The host-firmware session (R403-R405): SEQ of the last accepted request, and the request that awaits its reply (OP,
SEQ, and what the reply carries). -/
structure Fw where
  session : Bool := false
  seq : Nat := 0
  req : Option (Nat × Nat × Nat) := none
  /-- the reply that the host has not acknowledged, and how often it has been sent -/
  reply : Option (Word × Nat) := none
  deriving DecidableEq, Repr

/-- A host TLP that waits at the endpoint (R396, R426, R477): its physical address, its access, and the enabled bytes. -/
structure Tlp where
  addr : Nat
  op : MemOp
  enabled : List Bool
  deriving DecidableEq, Repr

/-- What the host has written to the configuration space, by the offset of its word, its TLPs that wait, and what the device has sent to the
outside: bytes written to host memory, by bus address, MSI-X messages among them (R397), and frames, by port. -/
structure Outside where
  cfg : Tab Word := []
  tlps : List Tlp := []
  host : List (Nat × List Byte) := []
  frames : List (Nat × List Byte) := []
  deriving DecidableEq, Repr



/-- The state of the device, and the queue of the commands that wait, first in, first out. -/
structure State where
  /-- the commands that wait -/
  pending : List Instr
  /-- fuses: the variant (R1) -/
  variant : Variant := .ay1024
  /-- registers, by the address of their 32-bit word -/
  csr : Tab Word := []
  /-- core stores, slices (at interleaved-view addresses), AON SRAM, flock tables and main memory, by physical address -/
  mem : Memory := []
  /-- wrong bits that stand in a protected word and that no access has met yet, by the word's address (R96, R418) -/
  ecc : Tab Nat := []
  /-- a reserved field holds a value that differs from the value last read (R9) -/
  rsvDirty : Bool := false
  shadows : List Shadow := []
  held : List HeldLow := []
  /-- the answer to the last access -/
  reply : Reply := .none
  /-- the model's own counter of free values -/
  free : Nat := 0
  cores : Tab Core := []
  /-- engine `e` of core `c` at `8 * c + e` -/
  engs : Tab Eng := []
  fab : Fabric := {}
  ctxs : Tab CtxRun := []
  /-- MBX_CFG_n as it stood when the word in mailbox n was written (R167) -/
  mbx : Tab Word := []
  contribs : List Contrib := []
  /-- sums at the chip stage, by context * 4 + bits [1:0] of the step (R208) -/
  sums : Tab Nat := []
  /-- the last tick that has reached admission control (R205) -/
  admTick : Nat := 0
  admIn : List AdmIn := []
  hold : List HeldEvent := []
  admRefused : List BackRefusal := []
  bduRefused : List BackRefusal := []
  bdus : Tab Bdu := []
  /-- events that have arrived at a chip port, by its router, and wait for their unit (R18) -/
  portIn : Tab (List Arrival) := []
  results : List ResEntry := []
  trigReqs : List TrigReq := []
  /-- tick of the last pulse of a trigger output (R310) -/
  trigLast : Tab Nat := []
  /-- trigger outputs whose pulse is active, and the TRIG_OUT registers as the last tick found them (R310, R316) -/
  trigActive : Nat := 0
  trigLive : Tab Word := []
  records : List OutRec := []
  journal : List JrnRec := []
  ckpts : List Ckpt := []
  /-- the failed group's channels have been retrained; the other copy has failed as well; JRN_HEAD when the failed group failed -/
  jrnBack : Bool := false
  jrnOff : Bool := false
  jrnMark : Nat := 0
  faultsUp : List FaultRep := []
  chipFaults : List FaultRep := []
  /-- records in use of a fault handler page, oldest first (R352), by page address -/
  fmOrder : Tab (List Nat) := []
  recovs : List Recov := []
  /-- contexts of each recovery sequence that has not ended (R349) -/
  recovRuns : List (List Nat) := []
  rows : List RowMap := []
  /-- word at which a slice scrubber stands; slices whose wake waits for the end of entry (R420, R421) -/
  sliceScrub : Tab Nat := []
  sliceWake : List Nat := []
  memWait : List MemWait := []
  ringIn : List RingRec := []
  rxIn : List RxFrame := []
  /-- MEM_CFG as it stood when the controller stopped, while it is stopped (R43) -/
  memCfg : Option Word := none
  /-- refresh factor and last refreshed bank of a channel (R423) -/
  mr4 : Tab Nat := []
  refresh : Tab Nat := []
  /-- the command the context table controller holds while RECOVERING is 1, or until it completes: op and context -/
  cttCmd : Option (Nat × Nat) := none
  cttWaits : Bool := false
  resets : List RunningReset := []
  /-- STATE as it stood when the compute reset in progress began (R463) -/
  stateWas : Nat := 4
  rstResults : List (Party × Nat) := []
  /-- the main reference is absent and the PLLs hold over (R456); a warm reset is held for it -/
  holdover : Bool := false
  warmHeld : Bool := false
  measuring : Bool := false
  power : Power := {}
  pins : Pins := {}
  sec : Sec := {}
  sic : Sic := {}
  recorder : Recorder := {}
  aet : Aet := {}
  links : Tab Link := []
  /-- SYSREF_CFG.ARM has been written and no edge has come since (R285) -/
  sysrefArmed : Bool := false
  eip : Eip := {}
  timers : Timers := {}
  cluster : Cluster := {}
  fw : Fw := {}
  outside : Outside := {}
  /-- the image copies of the cores (R342): CSR words, and bytes of their kernel, queue/semaphore and instruction stores, as
  requesters outside the cores have loaded them -/
  imgCsr : Tab Word := []
  imgMem : Memory := []
  deriving DecidableEq, Repr

/-- The state right after a cold reset, before COLD_INIT has done any work: CHIP_STATUS.STATE reads COLD_INIT (0), every
register holds its reset value, no memory is listed, and no command waits. -/
def State.reset : State where
  pending := []

end Sys2Proof.Machine
end

