-- ==== Sys2Proof/Machine/Ops.lean ====
section
/-! DEFINITION. The named operations over registers, memory, engines and cores that the meanings share. -/

namespace Sys2Proof.Machine

/-! ### Units and indices (R1, R15, R26) -/

def regionPresent (v : Variant) (r : Nat) : Bool :=
  match v with
  | .ay1024 => decide (r < 4)
  | .ay768 => decide (r < 3)
  | .ay512 => decide (r < 2)

def regionOfCore (c : Nat) : Nat := (c / 32 / 16) * 2 + (c % 32) / 16
def blockOfCore (c : Nat) : Nat := (c / 32 / 4) * 8 + (c % 32) / 4
def coreInBlock (c : Nat) : Nat := (c / 32 % 4) * 4 + c % 4
def regionOfBlock (b : Nat) : Nat := (b / 8 / 4) * 2 + (b % 8) / 4
/-- The router at which a block's slice and BDU attach (R16). -/
def centralRouter (b : Nat) : Nat := (4 * (b / 8) + 1) * 32 + 4 * (b % 8) + 1
def coreOfBlock (b i : Nat) : Nat := (4 * (b / 8) + i / 4) * 32 + 4 * (b % 8) + i % 4
def coresOfBlock (b : Nat) : List Nat := (List.range 16).map (coreOfBlock b)
def blocksOfRegion (r : Nat) : List Nat :=
  (List.range 16).map (fun i => (4 * (r / 2) + i / 4) * 8 + 4 * (r % 2) + i % 4)
def coresOfRegion (r : Nat) : List Nat := (blocksOfRegion r).flatMap coresOfBlock

def corePresent (s : State) (c : Nat) : Bool := decide (c < 1024) && regionPresent s.variant (regionOfCore c)
def blockPresent (s : State) (b : Nat) : Bool := decide (b < 64) && regionPresent s.variant (regionOfBlock b)

/-- The number of slices present (R26). -/
def nSlices : Variant → Nat
  | .ay1024 => 64
  | .ay768 => 48
  | .ay512 => 32

def memChannels : Variant → Nat
  | .ay1024 => 16
  | .ay768 => 16
  | .ay512 => 8

/-- The block of the slice at a position among the slices present (R26). -/
def blockAt (v : Variant) (p : Nat) : Nat :=
  match v with
  | .ay768 => if p < 32 then p else 32 + (p - 32) / 4 * 8 + (p - 32) % 4
  | _ => p

/-- The position of block `b` among the slices present. -/
def posOf (v : Variant) (b : Nat) : Nat :=
  match v with
  | .ay768 => if b < 32 then b else 32 + (b - 32) / 8 * 4 + (b - 32) % 8
  | _ => b

def viewLen (v : Variant) : Nat := nSlices v * 0x100000

/-- R26: block and slice offset of view offset `a`. -/
def sliceOf (v : Variant) (a : Nat) : Nat × Nat :=
  let g := a / 256
  (blockAt v (g % nSlices v), g / nSlices v * 256 + a % 256)

/-- The view offset of an offset within the slice of block `b`. -/
def viewOff (v : Variant) (b off : Nat) : Nat := (off / 256 * nSlices v + posOf v b) * 256 + off % 256

def viewBase : Nat := 0x0200000000
def coreBase (c : Nat) : Nat := 0x0100000000 + c * 0x100000
def mainBase : Nat := 0x8000000000

/-! ### Registers -/

def resetNum : ResetEntry → Nat
  | .num n => n
  | _ => 0

def inBlock (b : RegBlock) (a : Nat) : Bool :=
  decide (b.base ≤ a) && decide ((a - b.base) / b.stride < b.count) && decide ((a - b.base) % b.stride < b.len)

def findBlock (a : Nat) : Option RegBlock := regBlocks.find? (fun b => inBlock b a)

def blockOff (b : RegBlock) (a : Nat) : Nat := (a - b.base) % b.stride
def blockStart (b : RegBlock) (a : Nat) : Nat := a - blockOff b a

def rowHolds (off : Nat) (r : RegRow) : Bool :=
  decide (r.off ≤ off) && decide ((off - r.off) / r.stride < r.count) && decide ((off - r.off) % r.stride < r.width / 8)

/-- The register blocks that the model lists page by page: base, distance between instances, instances, and extent from the
base (R546). The security interface block (R497, R521), link blocks (R313), the PCIe endpoint with its DMA channels (R409), the
volley block (R380), system DMA (R429), the memory controller with its channels (R431), and the latest-result registers (R329). -/
def blockSpans : List (Nat × Nat × Nat × Nat) :=
  [(0x0001F00000, 0x1000000, 1, 0x3000), (0x0301000000, 0x10000, 8, 0xC000), (0x0307000000, 0x1000000, 1, 0x18000), (0x0306C00000, 0x1000000, 1, 0x24000),
   (0x0309000000, 0x1000000, 1, 0x10000), (0x0308000000, 0x1000000, 1, 0x11000), (0x0305200000, 0x1000000, 1, 0x100000)]

/-- The base of the many-paged block that holds address `a`. -/
def spanOf (a : Nat) : Option Nat :=
  (blockSpans.find? (fun t => decide (t.1 ≤ a) && decide ((a - t.1) / t.2.1 < t.2.2.1) &&
    decide ((a - t.1) % t.2.1 < t.2.2.2))).map (fun t => a - (a - t.1) % t.2.1)

/-- The extent of the many-paged block that holds address `a`. -/
def spanLen (a : Nat) : Option Nat :=
  (blockSpans.find? (fun t => decide (t.1 ≤ a) && decide ((a - t.1) / t.2.1 < t.2.2.1) &&
    decide ((a - t.1) % t.2.1 < t.2.2.2))).map (fun t => t.2.2.2)

/-- The base of the register block to which the page at `blk` belongs: what a shadow (R37) and a held low word (R38) are
kept for. -/
def blockKey (blk : Nat) : Nat := (spanOf blk).getD blk

/-- A page holds an RC field, so that it has a peek alias (R30). -/
def pageHasRc (b : RegBlock) (page : Nat) : Bool :=
  b.rows.any (fun r => decide (r.off / 4096 ≤ page) && decide (page ≤ (r.off + r.stride * (r.count - 1)) / 4096)
    && r.fields.any (fun f => f.acc == .rc))

/-- A 32-bit word of a register: its row, the address of the register, and which word of it. -/
structure WordAt where
  row : RegRow
  reg : Nat
  idx : Nat
  deriving DecidableEq, Repr

/-- What stands at a CSR address. -/
inductive CsrAt where
  /-- no register block: the access ends in a bus error (R546) -/
  | outside
  /-- in the block at `start`, at an offset without a register (R34) -/
  | unlisted (start : Nat)
  | word (b : RegBlock) (start : Nat) (peek : Bool) (w : WordAt)
  deriving DecidableEq, Repr

def csrAt (a : Nat) : CsrAt :=
  match findBlock a with
  | none => (match spanOf a with
    | some k => .unlisted k
    | none => .outside)
  | some b =>
    let off := blockOff b a
    let peek := pageHasRc b (off / 4096) && decide (0x800 ≤ off % 4096)
    let o := if peek then off - 0x800 else off
    match b.rows.find? (rowHolds o) with
    | none => .unlisted (blockStart b a)
    | some r =>
      let d := (o - r.off) % r.stride
      .word b (blockStart b a) peek ⟨r, blockStart b a + o - d, d / 4⟩

/-- The whole reset value of a register. -/
def rowReset (r : RegRow) : Nat := r.fields.foldl (fun n f => n + resetNum f.reset * 2 ^ f.lo) 0

/-- Reset values that differ between the registers of one row (R392, R394). -/
def oddReset (a : Nat) : Option Nat :=
  if a = Reg.sic_SIC_SRC 8 then some 0x80000000
  else if a = Reg.sic_SIC_SRC 16 then some 0x80010000
  else if a = Reg.sic_SIC_SRC 24 then some 0x80020000
  else if a = Reg.pcie_PCIE_SEG 0 then some 0x80003070
  else if a = Reg.pcie_PCIE_SEG 1 then some 0x80000030
  else if a = Reg.pcie_PCIE_SEG 2 then some 0x80000024
  else if a = Reg.pcie_PCIE_SEG 3 then some 0x80003050
  else if a = Reg.pcie_PCIE_SEG 4 then some 0x80003052
  else if a = Reg.pcie_PCIE_SEG 5 then some 0x80003030
  else if a = Reg.pcie_PCIE_SEG 6 then some 0x80000040
  else if a = Reg.pcie_PCIE_SEG 7 then some 0x80000021
  else if a = Reg.pcie_PCIE_SEG 8 then some 0x8000305F
  else if a = Reg.pcie_PCIE_SEG 63 then some 0x80003072
  else none

/-- The reset value of the word at `a` (R44): zero for F, T, K and a dash. -/
def resetWord (a : Nat) : Word :=
  match oddReset a with
  | some n => BitVec.ofNat 32 n
  | none =>
    match csrAt a with
    | .word _ _ _ w => BitVec.ofNat 32 (rowReset w.row / 2 ^ (32 * w.idx))
    | _ => 0

/-- The word at address `a` as it is held. -/
def rdWord (s : State) (a : Nat) : Word :=
  match tfind a s.csr with
  | some v => v
  | none => resetWord a

def wrWord (a : Nat) (v : Word) (s : State) : State := { s with csr := tset a v s.csr }

/-- `n` consecutive words as one number. -/
def rdWords (s : State) (a : Nat) : Nat → Nat
  | 0 => 0
  | n + 1 => (rdWord s a).toNat + 2 ^ 32 * rdWords s (a + 4) n

def wrWords (a : Nat) (v : Nat) : Nat → State → State
  | 0, s => s
  | n + 1, s => wrWords (a + 4) (v / 2 ^ 32) n (wrWord a (BitVec.ofNat 32 v) s)

def fieldWords (f : FieldRef) : Nat := (f.lo + f.width + 31) / 32

/-- The value of a register field. -/
def getF (s : State) (f : FieldRef) : Nat := rdWords s f.addr (fieldWords f) / 2 ^ f.lo % 2 ^ f.width

/-- Set a register field; the other bits of its words stay. -/
def putF (f : FieldRef) (v : Nat) (s : State) : State :=
  let n := fieldWords f
  let old := rdWords s f.addr n
  wrWords f.addr
    (old % 2 ^ f.lo + 2 ^ f.lo * (v % 2 ^ f.width) + 2 ^ (f.lo + f.width) * (old / 2 ^ (f.lo + f.width))) n s

def setF (f : FieldRef) (s : State) : State := putF f 1 s
def clrF (f : FieldRef) (s : State) : State := putF f 0 s
def isSet (s : State) (f : FieldRef) : Bool := getF s f == 1

/-- Set bit `i` of a field of flags. -/
def flagF (f : FieldRef) (i : Nat) (s : State) : State := putF f (getF s f ||| 2 ^ i) s

/-- Add to a saturating count. -/
def addSat (f : FieldRef) (n : Nat) (s : State) : State := putF f (min (getF s f + n) (2 ^ f.width - 1)) s
def incSat (f : FieldRef) (s : State) : State := addSat f 1 s
/-- Add to a wrapping count. -/
def addWrap (f : FieldRef) (n : Nat) (s : State) : State := putF f (getF s f + n) s
def incWrap (f : FieldRef) (s : State) : State := addWrap f 1 s

/-- The BLK_STATUS bits of the block that starts at `a` (R40). -/
def enRef (a : Nat) : FieldRef := ⟨a, 0, 1⟩
def enabledRef (a : Nat) : FieldRef := ⟨a + 4, 0, 1⟩
def ignoredRef (a : Nat) : FieldRef := ⟨a + 4, 1, 1⟩
def defaultedRef (a : Nat) : FieldRef := ⟨a + 4, 2, 1⟩
def blkEnabled (s : State) (a : Nat) : Bool := isSet s (enabledRef a)

/-! ### The clocks of cores and blocks (R475-R477, R490) -/

/-- CORE_CLK of region `r` stands while its PLL retunes (R490). -/
def clockStands (s : State) (r : Nat) : Bool := isSet s (Reg.clk_CLK_CORE_CHANGING r)

def blockAsleep (s : State) (b : Nat) : Bool := s.power.blocksAsleep.contains b

/-- The clock of core `c` runs: it does not sleep (R475), and its region's clock does not stand. -/
def coreClocked (s : State) (c : Nat) : Bool := !(tget {} c s.cores).asleep && !clockStands s (regionOfCore c)

/-- The clock of the BDU of block `b` runs. -/
def blockClocked (s : State) (b : Nat) : Bool := !blockAsleep s b && !clockStands s (regionOfBlock b)

/-! ### Memory -/

def setMem (m : Memory) (s : State) : State := { s with mem := m }
def rdNum (s : State) (a n : Nat) : Nat := getNum s.mem a n
def wrNum (a n v : Nat) (s : State) : State := setMem (setNum a n v s.mem) s
def rdBits (s : State) (a lo w : Nat) : Nat := getBits s.mem a lo w
def wrBits (a lo w v : Nat) (s : State) : State := setMem (setBits a lo w v s.mem) s
def wrBytes (a : Nat) (bs : List Byte) (s : State) : State := setMem (setBytes a bs s.mem) s
def zeroMem (a n : Nat) (s : State) : State := setMem (zeroBytes a n s.mem) s

/-! ### The System Interrupt Controller (R390-R392) -/

/-- The events register of a level source whose condition is that any bit of it is set. -/
def eventsOf (n : Nat) : Option Nat :=
  if n = 10 then some Reg.tb_TB_EVENTS
  else if n = 11 then some Reg.adm_ADM_EVENTS
  else if n = 12 then some Reg.ctt_CTX_EVENTS
  else if n = 13 then some Reg.oc_OC_EVENTS
  else if n = 14 then some Reg.jrn_JRN_EVENTS
  else if n = 15 then some Reg.fab_FAB_EVENTS
  else if n = 21 then some Reg.glob_CHIP_EVENTS
  else if 25 ≤ n ∧ n ≤ 32 then some (Reg.link_LINK_EVENTS (n - 25))
  else if n = 34 then some Reg.eip_EIP_EVENTS
  else if n = 35 then some Reg.trig_TRIG_EVENTS
  else if n = 36 ∨ n = 37 then some (Reg.eth_ETH_EVENTS (n - 36))
  else if n = 38 then some Reg.aet_AET_EVENTS
  else if n = 39 then some Reg.vol_VOL_EVENTS
  else if n = 40 then some Reg.pcie_PCIE_EVENTS
  else if 41 ≤ n ∧ n ≤ 48 then some (Reg.pdma_PDMA_EVENTS (n - 41))
  else if 49 ≤ n ∧ n ≤ 64 then some (Reg.sdma_SDMA_EVENTS (n - 49))
  else if n = 97 then some Reg.rec_REC_EVENTS
  else if n = 98 then some Reg.pwr_PWR_EVENTS
  else if n = 99 then some Reg.mem_MEM_EVENTS
  else if n = 100 ∨ n = 101 then some (Reg.swr_SWR_EVENTS (n - 100))
  else if 384 ≤ n ∧ n ≤ 447 then some (Reg.bdu_BDU_EVENTS (n - 384))
  else none

/-- The fault handler page of a level source that stands for an unresolved record. -/
def faultPageOf (n : Nat) : Option Nat :=
  if n = 16 then some Reg.fmChip_FM_STATUS
  else if 17 ≤ n ∧ n ≤ 20 then some (Reg.fmReg_FM_STATUS (n - 17))
  else if 448 ≤ n ∧ n ≤ 511 then some (Reg.fmBlk_FM_STATUS (n - 448))
  else none

/-- Level source `n` is asserted (R390). -/
def sicLevel (s : State) (n : Nat) : Bool :=
  match eventsOf n, faultPageOf n with
  | some a, _ => rdWord s a != 0
  | _, some page => !(tget [] page s.fmOrder).isEmpty
  | _, _ =>
    if n ≤ 9 then (rdWord s (Reg.mbx_DB_PEND n) &&& rdWord s (Reg.mbx_DB_MASK n)) != 0
    else if n = 22 then getF s Reg.cl_CL_EVENTS_EVENTS / 2 ^ 8 % 2 ^ 8 != 0
    else if n = 23 then bitN (getF s Reg.cl_CL_EVENTS_EVENTS) 16
    else if n = 24 then getF s Reg.cl_CL_EVENTS_EVENTS / 2 ^ 18 % 4 != 0
    else if n = 33 then isSet s Reg.jesd_SYSREF_STATUS_SEEN
    else false

def hostEn (s : State) (n : Nat) : Bool := isSet s (Reg.sic_SIC_SRC_HOST_EN n)

/-- The words of the configuration space that the host can change hold zero until it has written them (R393). The places of the
MSI-X capability and of the rest are the model's choice, log entry 62. -/
def cfgCommand : Nat := 0x04
def cfgMsix : Nat := 0x40
def cfgHeld (s : State) (o : Nat) : Word := tget 0 o s.outside.cfg

/-- Bus mastering is on: bit 2 of the command register. -/
def busMaster (s : State) : Bool := (cfgHeld s cfgCommand).getLsbD 2

/-- No message leaves: MSI-X is not enabled or the Function Mask is set (bits 31 and 30 of the MSI-X capability), or the function
does not master the bus. -/
def functionMasked (s : State) : Bool :=
  !(cfgHeld s cfgMsix).getLsbD 31 || (cfgHeld s cfgMsix).getLsbD 30 || !busMaster s

/-- Vector `v` is masked, or the function is (R392). -/
def vecMasked (s : State) (v : Nat) : Bool := isSet s (Reg.msix_MSIX_MASK v) || functionMasked s

/-- The message of vector `v`: DATA of its entry, written to host memory at the entry's address (R397). Every earlier write to host
memory stands before it. -/
def msixSend (v : Nat) (s : State) : State :=
  let addr := rdWords s (Reg.msix_MSIX v) 2
  let data := (rdWord s (Reg.msix_MSIX v + 8)).toNat
  { s with sic := { s.sic with sent := s.sic.sent ++ [v] }
           outside := { s.outside with host := s.outside.host ++ [(addr, toBytes data 4)] } }

/-- Host-pending of source `n` goes from 0 to 1: vector VECTOR is sent, or its PBA bit set while the vector or the function
is masked (R392). -/
def hostRaise (n : Nat) (s : State) : State :=
  let v := getF s (Reg.sic_SIC_SRC_VECTOR n)
  let k := { s.sic with host := n :: s.sic.host, hostAgain := s.sic.hostAgain.filter (· != n) }
  if vecMasked s v then { s with sic := { k with pba := if k.pba.contains v then k.pba else v :: k.pba } }
  else msixSend v { s with sic := k }

/-- An occurrence of edge source `n` (R391, R392). -/
def sicEdge (n : Nat) (s : State) : State :=
  let s1 := { s with sic := { s.sic with edge := if s.sic.edge.contains n then s.sic.edge else n :: s.sic.edge } }
  if s.sic.host.contains n then { s1 with sic := { s1.sic with hostAgain := n :: s1.sic.hostAgain.filter (· != n) } }
  else if hostEn s n then hostRaise n s1
  else s1

/-- The sources whose HOST_EN may be 1: those of R392 and those that a write has set. -/
def hostSources (s : State) : List Nat :=
  [8, 16, 24] ++ s.csr.filterMap (fun p =>
    if Reg.sic_SIC_SRC 0 ≤ p.1 ∧ p.1 ≤ Reg.sic_SIC_SRC 1023 ∧ p.2.getLsbD 31 then
      (if p.1 = Reg.sic_SIC_SRC 8 ∨ p.1 = Reg.sic_SIC_SRC 16 ∨ p.1 = Reg.sic_SIC_SRC 24 then none
       else some ((p.1 - Reg.sic_SIC_SRC 0) / 4))
    else none)

/-- Every level source with HOST_EN = 1 that is asserted and not host-pending becomes host-pending (R392). -/
def sicSettle (s : State) : State :=
  (hostSources s).foldl (fun t n => if hostEn t n && sicLevel t n && !t.sic.host.contains n then hostRaise n t else t) s

/-- A HOST_DONE of source `n` (R392). -/
def hostDone (n : Nat) (s : State) : State :=
  let s1 := { s with sic := { s.sic with host := s.sic.host.filter (· != n), hostAgain := s.sic.hostAgain.filter (· != n) } }
  if s.sic.host.contains n && s.sic.hostAgain.contains n && hostEn s n then hostRaise n s1 else s1

/-! ### The event recorder (R446-R452) -/

def recTime (s : State) : Nat :=
  s.recorder.hours + s.recorder.seconds * 2 ^ 20 + s.recorder.powerCycles * 2 ^ 32
    + bnat (!isSet s Reg.rec_REC_STATUS_SEEDED) * 2 ^ 56

/-- A record raised now (R446). -/
def recWord (s : State) (code unit arg0 arg1 : Nat) : RecWord :=
  recTime s + s.recorder.micros * 2 ^ 64 + code % 2 ^ 16 * 2 ^ 96 + unit % 16 * 2 ^ 112 + s.recorder.seq % 2 ^ 32 * 2 ^ 128
    + arg0 % 2 ^ 32 * 2 ^ 160 + arg1 % 2 ^ 64 * 2 ^ 192

def recLost (s : State) : State :=
  s |> incSat Reg.rec_LOST_COUNT_COUNT |> putF Reg.rec_REC_EVENTS_EVENTS (getF s Reg.rec_REC_EVENTS_EVENTS ||| 2)

/-- A record is written and counted by INDEX, or lost when the log is full (R450, R451). -/
def recWrite (w : RecWord) (s : State) : State :=
  let i := getF s Reg.rec_REC_STATUS_INDEX
  if 8192 ≤ i then recLost s
  else
    let t := s |> wrNum (0x02100000 + 32 * i) 32 w |> putF Reg.rec_REC_STATUS_INDEX (i + 1)
    if i + 1 = 8192 then putF Reg.rec_REC_EVENTS_EVENTS (getF t Reg.rec_REC_EVENTS_EVENTS ||| 1) t else t

/-- A happening raises a record (R449): it is written, or joins the pending queue while frozen (R452). -/
def record (code unit arg0 arg1 : Nat) (s : State) : State :=
  let w := recWord s code unit arg0 arg1
  let t := { s with recorder := { s.recorder with seq := s.recorder.seq + 1 } }
  if isSet s Reg.rec_REC_STATUS_FROZEN then
    if t.recorder.pend.length < 16 then { t with recorder := { t.recorder with pend := t.recorder.pend ++ [w] } } else recLost t
  else recWrite w t

/-! ### The form of every meaning -/

/-- Every meaning answers through `live`: the effect `t` is the next state, with the host-pending flags brought up to date
(R392), unless a reserved field holds a changed value, when no rule of the spec binds the device (R9). -/
def live (s t : State) : Host.Outcome State Fault Refusal :=
  if s.rsvDirty then .fault .reservedChanged else .next (sicSettle t)

/-- A free value (Config.freeValue applied to the counter), and the state with the counter advanced. -/
def freeWord (s : State) : Word := Config.freeValue s.free
def spendFree (s : State) : State := { s with free := s.free + 1 }

/-! ### Cores and engines -/

def core (s : State) (c : Nat) : Core := tget {} c s.cores
def setCore (c : Nat) (k : Core) (s : State) : State := { s with cores := tset c k s.cores }
def modCore (c : Nat) (f : Core → Core) (s : State) : State := setCore c (f (core s c)) s

def eng (s : State) (c e : Nat) : Eng := tget {} (8 * c + e) s.engs
def setEng (c e : Nat) (g : Eng) (s : State) : State := { s with engs := tset (8 * c + e) g s.engs }
def modEng (c e : Nat) (f : Eng → Eng) (s : State) : State := setEng c e (f (eng s c e)) s

/-- Scalar register `r`; s0 reads as zero (R103). -/
def regOf (s : State) (c e r : Nat) : Word := if r = 0 then 0 else tget 0 r (eng s c e).regs

/-- Write scalar register `r`; a write to s0 is discarded (R103). -/
def setReg (c e r : Nat) (v : Word) (s : State) : State :=
  if r = 0 then s else modEng c e (fun g => { g with regs := tset r v g.regs }) s

def vlane (s : State) (c e v j : Nat) : Word := tget 0 (16 * v + j) (eng s c e).vregs
def setVlane (c e v j : Nat) (x : Word) (s : State) : State :=
  modEng c e (fun g => { g with vregs := tset (16 * v + j) x g.vregs }) s

/-- A register pair as a 64-bit value: low word in the even register (R107). -/
def regPair (s : State) (c e r : Nat) : Word64 := regOf s c e (r + 1) ++ regOf s c e r
def setPair (c e r : Nat) (v : Word64) (s : State) : State :=
  s |> setReg c e r (v.extractLsb' 0 32) |> setReg c e (r + 1) (v.extractLsb' 32 32)

def coreHeld (s : State) (c : Nat) : Bool :=
  bitN (rdWord s (Reg.rst_RST_CORE_HELD (c / 32))).toNat (c % 32)

/-- The power state nibble of region `r` (R495). -/
def regionPwr (s : State) (r : Nat) : Nat := bitsN (getF s Reg.pwr_PWR_STATUS_REGION_STATE) (4 * r) 4

/-- Region `r` is in P2, entering it or leaving it (R480). -/
def regionDown (s : State) (r : Nat) : Bool := regionPwr s r != 0

/-- The core cannot judge for itself: absent in the variant, held in reset, or its region in P2 or on its way (R160, R479). -/
def coreSilent (s : State) (c : Nat) : Bool := !corePresent s c || coreHeld s c || regionDown s (regionOfCore c)

def regionHeld (s : State) (r : Nat) : Bool := bitN (getF s Reg.rst_RST_STATUS_REGION_HELD) r

def chipState (s : State) : Nat := getF s Reg.glob_CHIP_STATUS_STATE

def stReady : Nat := 4

/-! ### Wakes from idle (R477, R486) -/

def modPower (f : Power → Power) (s : State) : State := { s with power := f s.power }

/-- An act asks the governor for admission; one that already waits is not asked for twice. -/
def govAdd (a : GovAct) (s : State) : State :=
  if s.power.gov.contains a then s else modPower (fun p => { p with gov := p.gov ++ [a] }) s

/-- The wake of a block that is asleep, or whose entry waits for admission (R477, R484). -/
def wakeBlock (b : Nat) (s : State) : State :=
  if blockAsleep s b || s.power.gov.contains ⟨true, b, false⟩ then govAdd ⟨true, b, true⟩ s else s

/-- The wake of a core, and of its block if asleep; one that arrives before the gating cycle cancels the entry (R477, R484). -/
def wakeCore (c : Nat) (s : State) : State :=
  let t := modPower (fun p => { p with gov := p.gov.filter (· != ⟨false, c, false⟩) }) s
  if (core t c).asleep then t |> wakeBlock (blockOfCore c) |> govAdd ⟨false, c, true⟩ else t

/-! ### Context slots of a core (R92) -/

def slotBase (c slot : Nat) : Nat := coreBase c + 0x31600 + 16 * slot
def slotCtx (s : State) (c slot : Nat) : Nat := rdBits s (slotBase c slot) 0 16
def slotNBase (s : State) (c slot : Nat) : Nat := rdBits s (slotBase c slot) 16 14
def slotNCount (s : State) (c slot : Nat) : Nat := rdBits s (slotBase c slot) 30 14
def slotState (s : State) (c slot : Nat) : Nat := rdBits s (slotBase c slot) 44 3
def setSlotState (c slot v : Nat) (s : State) : State := wrBits (slotBase c slot) 44 3 v s
def slotStep (s : State) (c slot : Nat) : Nat := rdBits s (slotBase c slot) 64 64
def setSlotStep (c slot v : Nat) (s : State) : State := wrBits (slotBase c slot) 64 64 v s

def stFree : Nat := 0
def stLoaded : Nat := 1
def stRunning : Nat := 2
def stPaused : Nat := 3
def stOverrun : Nat := 4
def stFaulted : Nat := 5
def stDraining : Nat := 6

/-- The slots of core `c` with IN_USE = 1, lowest first. (Bit 48 of an entry is bit 0 of its byte 6.) -/
def slotsInUse (s : State) (c : Nat) : List Nat :=
  s.mem.filterMap (fun p =>
    if slotBase c 0 ≤ p.1 ∧ p.1 < slotBase c 256 ∧ (p.1 - slotBase c 0) % 16 = 6 ∧ p.2.toNat % 2 = 1
    then some ((p.1 - slotBase c 0) / 16) else none)

/-- The slot that holds a context, under R75: IN_USE, not FREE, lowest. -/
def findSlot (s : State) (c ctx : Nat) : Option Nat :=
  (slotsInUse s c).find? (fun k => slotState s c k != stFree && slotCtx s c k == ctx)

/-- Every slot of every core that names the context, whatever its STATE (R319): core and slot. -/
def slotsOf (s : State) (ctx : Nat) : List (Nat × Nat) :=
  s.mem.filterMap (fun p =>
    let o := p.1 - 0x0100000000
    let c := o / 0x100000
    let w := o % 0x100000
    if 0x0100000000 ≤ p.1 ∧ c < 1024 ∧ 0x31600 ≤ w ∧ w < 0x32600 ∧ (w - 0x31600) % 16 = 6 ∧ p.2.toNat % 2 = 1
        ∧ slotCtx s c ((w - 0x31600) / 16) = ctx
    then some (c, (w - 0x31600) / 16) else none)

/-- The state counts as at work for R28: RUNNING, OVERRUN or DRAINING. -/
def atWork (st : Nat) : Bool := st == stRunning || st == stOverrun || st == stDraining

/-- R28: no resident slot is RUNNING, OVERRUN or DRAINING. -/
def quiescent (s : State) (c : Nat) : Bool := (slotsInUse s c).all (fun k => !atWork (slotState s c k))

/-! ### Faults (R13, R97, R98, R101) -/

def raiseUp (level origin kind unit detail : Nat) (s : State) : State :=
  { s with faultsUp := s.faultsUp ++ [⟨level, origin, kind, unit, detail, none⟩] }

/-- The core fault unit records a fault: its bit in FAULT_STATUS, and FAULT_INFO if that holds none (R101). -/
def coreFault (c kind engine store off : Nat) (s : State) : State :=
  let t := putF ⟨Reg.core_FAULT_STATUS c, kind, 1⟩ 1 s
  if isSet t (Reg.core_FAULT_INFO_VALID c) then t
  else wrWord (Reg.core_FAULT_INFO c) (BitVec.ofNat 32 (2 ^ 31 + off * 2 ^ 11 + store * 2 ^ 7 + engine * 2 ^ 4 + kind)) t

/-- Records in use of a fault handler page, oldest first. -/
def fmUsed (s : State) (page : Nat) : List Nat := tget [] page s.fmOrder

/-- The action `act` that records of the chip fault manager show for faults of kind `k` of unit `u` has ended (R341). -/
def actsEnd (k : Nat → Bool) (act : Nat) (u : Nat → Bool) (s : State) : State :=
  ((fmUsed s Reg.fmChip_FM_STATUS).filter (· < 64)).foldl (fun t i =>
    let a := Reg.fmChip_FM_STATUS + 0x100 + 16 * i
    if k (getF t ⟨a, 8, 8⟩) && getF t ⟨a, 16, 8⟩ == act && u (getF t ⟨a + 4, 0, 10⟩) then putF ⟨a, 1, 1⟩ 1 t else t) s

/-- A fault that the core fault unit cannot contain: the core's wickets stop and it goes one level up (R95). -/
def coreFaultUp (c kind engine store off fmKind : Nat) (s : State) : State :=
  let t := coreFault c kind engine store off s
  t |> modCore c (fun k => { k with stopped := true })
    |> raiseUp 1 0 fmKind c (rdWord t (Reg.core_FAULT_INFO c)).toNat

/-- Halt an engine (ENG_STATUS.STATE HALTED). -/
def haltEng (c e : Nat) (s : State) : State := modEng c e (fun g => { g with st := .halted, wait := .none }) s

/-! ### Error correction in the core stores (R96) -/

/-- The store (0 soma, 1 delay, 2 kernel, 3 queue/semaphore, 4 instruction) of a window offset, and its base. -/
def storeOf (o : Nat) : Nat × Nat :=
  if o < 0x20000 then (0, 0) else if o < 0x30000 then (1, 0x20000) else if o < 0x38000 then (2, 0x30000)
  else if o < 0x3C000 then (3, 0x38000) else (4, 0x3C000)

/-- Bytes of a protected data word of a store (R96). -/
def storeWord (store : Nat) : Nat := if store = 0 ∨ store = 3 then 8 else 4

/-- The address of the protected word that holds window offset `o` of core `c`. -/
def eccWordOf (c o : Nat) : Nat := coreBase c + o / storeWord (storeOf o).1 * storeWord (storeOf o).1

def addUpset (w n : Nat) (s : State) : State := if n = 0 then s else { s with ecc := tset w (tget 0 w s.ecc + n) s.ecc }

/-- What a read of a protected word meets: 0 no error, 1 a single-bit error, 2 an error of two bits or more. -/
def eccAt (s : State) (w : Nat) : Nat := min (tget 0 w s.ecc) 2

def clearEcc (w : Nat) (s : State) : State := { s with ecc := tdel w s.ecc }

/-- A single-bit error in a core store is corrected, written back and counted (R97). -/
def coreEccFix (c e o : Nat) (s : State) : State :=
  if eccAt s (eccWordOf c o) = 1 then
    s |> clearEcc (eccWordOf c o) |> incSat (Reg.core_ECC_CORR_COUNT_COUNT c)
      |> coreFault c 0 e (storeOf o).1 (o - (storeOf o).2)
  else s

end Sys2Proof.Machine
end

