-- ==== Sys2Proof/Machine/Access.lean ====
section
/-! DEFINITION. How an access is judged and carried out: the firewall, the units that answer, slice ownership, error
correction and the main-memory map. -/

namespace Sys2Proof.Machine

/-! ### The firewall (R511, R516) -/

/-- The class bit of a checked requester (R511). -/
def partyClass : Party → Option Nat
  | .app _ false => some 0
  | .app _ true => some 1
  | .host => some 2
  | .pdma _ => some 3
  | .sdma _ => some 4
  | .dbg => some 5
  | _ => none

/-- The first valid window that holds the address decides by its READ or WRITE bit (R511). -/
def windowAllows (ws : List Window) (a cls : Nat) (write : Bool) : Bool :=
  match ws.find? (fun w => w.valid && decide (w.base ≤ a / 4096) && decide (a / 4096 ≤ w.last)) with
  | none => false
  | some w => bitN (if write then w.wr else w.rd) cls

def firewallOk (s : State) (p : Party) (a : Nat) (write : Bool) : Bool :=
  match partyClass p with
  | none => true
  | some cls =>
    windowAllows s.sec.live.windows a cls write &&
    (p != .host || s.sec.live.hostEn) &&
    (p != .dbg || (s.sec.live.dbgUnlock && bitN s.sec.live.dbgScope (if write then 1 else 0)))

/-- A denied access sets SEC_EVENTS.DENIED and is recorded if PROT_DENIED_INFO is empty (R511). The WRITE field has three
bits for one fact; the model writes 1 for a write (log entry 10). -/
def firewallDeny (p : Party) (a : Nat) (write : Bool) (s : State) : State :=
  let t := flagF Reg.sec_SEC_EVENTS_EVENTS 2 s
  if isSet t Reg.sec_PROT_DENIED_INFO_VALID then t
  else t |> putF Reg.sec_PROT_DENIED_INFO_VALID 1 |> putF Reg.sec_PROT_DENIED_INFO_ADDR a
    |> putF Reg.sec_PROT_DENIED_INFO_CLASS ((partyClass p).getD 0) |> putF Reg.sec_PROT_DENIED_INFO_WRITE (bnat write)

/-! ### Which units answer (R3, R29, R47, R468, R480) -/

def inRange (a lo hi : Nat) : Bool := decide (lo ≤ a) && decide (a ≤ hi)

/-- The ranges of the physical address space (R24). -/
def mapRanges : List (Nat × Nat) :=
  [(0x00000000, 0x0003FFFF), (0x01000000, 0x01FFFFFF), (0x02000000, 0x0200FFFF), (0x02100000, 0x0213FFFF),
   (0x02300000, 0x0230FFFF), (0x02400000, 0x0240FFFF), (0x02500000, 0x0250FFFF), (0x02600000, 0x0260FFFF),
   (0x02700000, 0x0270FFFF), (0x03000000, 0x0300FFFF), (0x04000000, 0x040FFFFF), (0x0100000000, 0x013FFFFFFF),
   (0x0200000000, 0x0203FFFFFF), (0x0210000000, 0x0213FFFFFF), (0x0220000000, 0x0223FFFFFF), (0x0240000000, 0x02403FFFFF),
   (0x0300000000, 0x0309FFFFFF), (0x030A000000, 0x030A03FFFF), (0x030B000000, 0x030B00FFFF), (0x8000000000, 0x8FFFFFFFFF)]

/-- The address lies in a range of R24. -/
def inMap (a : Nat) : Bool := mapRanges.any (fun r => inRange a r.1 r.2)

/-- The AON domain (R24). -/
def isAon (a : Nat) : Bool := inRange a 0x02000000 0x0200FFFF || inRange a 0x02100000 0x0213FFFF ||
  inRange a 0x02300000 0x0230FFFF || inRange a 0x02400000 0x0240FFFF || inRange a 0x02500000 0x0250FFFF ||
  inRange a 0x02600000 0x0260FFFF || inRange a 0x02700000 0x0270FFFF
def isGlob (a : Nat) : Bool := inRange a 0x03000000 0x0300FFFF
def isRecorder (a : Nat) : Bool := inRange a 0x02001000 0x02001FFF || inRange a 0x02100000 0x0213FFFF
def isRstBlock (a : Nat) : Bool := inRange a 0x02600000 0x0260FFFF
def isCoreWindow (a : Nat) : Bool := inRange a 0x0100000000 0x013FFFFFFF
def isBlockCsr (a : Nat) : Bool := inRange a 0x0240000000 0x02403FFFFF
def coreOfAddr (a : Nat) : Nat := (a - 0x0100000000) / 0x100000
def blockOfAddr (a : Nat) : Nat := (a - 0x0240000000) / 0x10000

/-- The unit at an address is absent, held in reset, or in a region in P2 (R3, R29, R480). A region reset takes the whole block CSR
window with it, the slice's page too (DESIGN CHOICE, log entry 61: R461 holds the BDUs and block fault controllers, R462 keeps the
slices accessible, and no rule speaks of their CSR page). -/
def unitDown (s : State) (a : Nat) : Bool :=
  if isCoreWindow a then
    let c := coreOfAddr a
    !corePresent s c || coreHeld s c || regionHeld s (regionOfCore c) || regionDown s (regionOfCore c)
  else if isBlockCsr a then
    let b := blockOfAddr a
    !blockPresent s b || regionHeld s (regionOfBlock b) || regionDown s (regionOfBlock b)
  else false

/-- The chip state lets the unit at `a` answer (R29, R47, R466, R468, R470, R482). While RST_N is low everything is held (R461). -/
def answers (s : State) (a : Nat) : Bool :=
  if s.power.p4 || !s.pins.rstN then false
  else if s.power.p3 then isAon a
  else if chipState s = 8 then isGlob a || isRecorder a
  else if chipState s = 1 ∧ isSet s Reg.rst_BIST_INFO_VALID then isGlob a || isRstBlock a || isRecorder a
  else if chipState s = 0 ∨ chipState s = 1 ∨ chipState s = 2 ∨ chipState s = 6 then isGlob a || isAon a
  else true

/-- Only the security controller reaches its window, but for the interface block (R497), which classes 1 and 2 reach. -/
def secWindowOk (p : Party) (a : Nat) : Bool :=
  if inRange a 0x01000000 0x01FFFFFF then
    p == .sec || (inRange a 0x01F00000 0x01F02FFF && (partyClass p == some 1 || partyClass p == some 2))
  else true

/-- The requesters that reach registers over the device's ports (R37). Engines, BDUs and the chip-level units have their own
ways, which their meanings take. -/
def busParty : Party → Bool
  | .app _ _ | .host | .pdma _ | .sdma _ | .sec | .dbg => true
  | _ => false

/-! ### Routes (R171, R178, R179) -/

/-- The router next to `r` by output port 0 E, 1 W, 2 N, 3 S. -/
def neighbour (r o : Nat) : Nat :=
  let x := r % 32
  let y := r / 32
  match o with
  | 0 => y * 32 + (x + 1) % 32
  | 1 => y * 32 + (x + 31) % 32
  | 2 => (y + 1) % 32 * 32 + x
  | _ => (y + 31) % 32 * 32 + x

/-- The input port at which a packet sent by output `o` arrives. -/
def oppositePort (o : Nat) : Nat := if o % 2 = 0 then o + 1 else o - 1

/-- The output port along one ring: `fwd` for a distance of 1 to 16, `back` for 17 and above. -/
def ringPort (d fwd back : Nat) : Option Nat := if d = 0 then none else if d ≤ 16 then some fwd else some back

/-- The output port of a unicast packet at router `r`; `none` at its destination router (R178, R179). -/
def nextPort (r dst : Nat) (alt : Bool) : Option Nat :=
  let row := ringPort ((dst % 32 + 32 - r % 32) % 32) 0 1
  let col := ringPort ((dst / 32 + 32 - r / 32) % 32) 2 3
  if alt then (match col with
    | some o => some o
    | none => row)
  else match row with
    | some o => some o
    | none => col

/-- The routers of a unicast route, from `r` on. -/
def routePath (dst : Nat) (alt : Bool) : Nat → Nat → List Nat
  | 0, r => [r]
  | n + 1, r =>
    match nextPort r dst alt with
    | none => [r]
    | some o => r :: routePath dst alt n (neighbour r o)

/-- The RTR_ALT map of router `x`: packets to core index `i` take Y then X (R179). -/
def altMap (s : State) (x i : Nat) : Bool := bitN (rdWord s (Reg.rtr_RTR_ALT x (i / 32))).toNat (i % 32)

/-- FAB_DRAIN holds a new packet from router `x` to router `y`: its route enters a region whose REQ bit is set (R197). -/
def routeHeld (s : State) (x y : Nat) : Bool :=
  getF s Reg.fab_FAB_DRAIN_REQ != 0 &&
    (routePath y (altMap s x y) 64 x).any (fun r => bitN (getF s Reg.fab_FAB_DRAIN_REQ) (regionOfCore r))

/-- A drain holds accesses of an engine, a BDU or the PE that spread over the slices (DESIGN CHOICE, log entry 60: while any
region drains, a sequence of them does not begin). -/
def drainsAny (s : State) : Bool := getF s Reg.fab_FAB_DRAIN_REQ != 0

/-- The region that an access from outside enters by way of the fabric: that of a core, a block, or a slice behind the view or an
alias of it. It enters by a chip port of that region, and its route stays there (DESIGN CHOICE, log entry 61: the spec does not
name the port). Main memory and the chip-level registers are not reached through the fabric (R171). -/
def fabricRegion (s : State) (a : Nat) : Option Nat :=
  if isCoreWindow a then some (regionOfCore (coreOfAddr a))
  else if isBlockCsr a then some (regionOfBlock (blockOfAddr a))
  else if inRange a 0x0200000000 0x0203FFFFFF || inRange a 0x0210000000 0x0213FFFFFF || inRange a 0x0220000000 0x0223FFFFFF then
    some (regionOfBlock (sliceOf s.variant (a % 0x10000000)).1)
  else none

/-- FAB_DRAIN holds the access at its injection point (R197; log entry 61). -/
def drainHolds (s : State) (a : Nat) : Bool :=
  match fabricRegion s a with
  | some r => bitN (getF s Reg.fab_FAB_DRAIN_REQ) r
  | none => false

/-- The core or the BDU at `a` sleeps: the access waits, and wakes it (R477). -/
def unitAsleep (s : State) (a : Nat) : Bool :=
  if isCoreWindow a then (core s (coreOfAddr a)).asleep
  else if isBlockCsr a && decide (0x8000 ≤ a % 0x10000) then blockAsleep s (blockOfAddr a)
  else false

/-- The access waits on its way: for the end of a drain, or for its unit to wake. -/
def heldBack (s : State) (a : Nat) : Bool := drainHolds s a || unitAsleep s a

/-- An access to a sleeping unit is a cause of its wake (R477). -/
def wakeUnit (a : Nat) (s : State) : State :=
  if unitAsleep s a then (if isCoreWindow a then wakeCore (coreOfAddr a) s else wakeBlock (blockOfAddr a) s) else s

/-- The requester for R37: an application core is one requester whatever its mode. -/
def requester : Party → Party
  | .app n _ => .app n false
  | p => p

/-- Accesses at addresses of one class keep their order (R35): those of one core window, of one register block, of the view, or of
main memory. -/
def orderClass (a : Nat) : Nat :=
  if mainBase ≤ a then 0
  else if inRange a 0x0200000000 0x0223FFFFFF then 1
  else if isCoreWindow a then 2 + a / 0x100000 * 16
  else 2 + a / 0x10000

/-- An access of the same requester to the same block waits, so that this one waits behind it (R35). -/
def behind (s : State) (p : Party) (a : Nat) : Bool :=
  s.memWait.any (fun w => requester w.p == requester p && orderClass w.addr == orderClass a)

/-- An access to a CSR word does not end in a bus error: aligned (R27), permitted, and answered. -/
def csrReach (s : State) (p : Party) (a : Nat) (write : Bool) : Bool :=
  busParty p && decide (a % 4 = 0) && firewallOk s p a write && secWindowOk p a && answers s a && !unitDown s a

/-- An access to a CSR word is carried out now: nothing holds it on its way. -/
def csrOk (s : State) (p : Party) (a : Nat) (write : Bool) : Bool :=
  csrReach s p a write && !heldBack s a && !behind s p a

/-! ### How an access that fails ends (R384) -/

def hart (s : State) (n : Nat) : Hart := tget {} n s.cluster.harts
def modHart (n : Nat) (f : Hart → Hart) (s : State) : State :=
  { s with cluster := { s.cluster with harts := tset n (f (hart s n)) s.cluster.harts } }

/-- The control registers that a trap uses, by RISC-V number. -/
def csrMstatus : Nat := 0x300
def csrMedeleg : Nat := 0x302

/-- An exception of application core `n` (PRESUMED, log entry 63: the RISC-V privileged architecture, which R381 names): the cause,
the pc and the address are saved, the mode and the interrupt enable are stacked, and the pc goes to the trap vector, of the
supervisor where the mode is below machine and the cause is delegated. -/
def hartTrap (cause a : Nat) (h : Hart) : Hart :=
  let st := (tget 0 csrMstatus h.csr).toNat
  let sup := decide (h.mode ≤ 1) && (tget 0 csrMedeleg h.csr).getLsbD cause
  let put (k v : Nat) (t : Tab Word64) : Tab Word64 := tset k (BitVec.ofNat 64 v) t
  let enter (base ie pie pp w mode : Nat) : Hart :=
    let stacked := setBitN (setBitN st pie (bitN st ie)) ie false
    let new := stacked - bitsN stacked pp w * 2 ^ pp + h.mode % 2 ^ w * 2 ^ pp
    { h with mode := mode, pc := (tget 0 (base + 5) h.csr).toNat / 4 * 4
             csr := h.csr |> put csrMstatus new |> put (base + 0x41) h.pc |> put (base + 0x42) cause |> put (base + 0x43) a }
  if sup then enter 0x100 1 5 8 1 1 else enter 0x300 3 7 11 2 3

/-- The mode in which core `n` makes an access is the party's: the programs of the cores are not the model's. -/
def hartMode (sm : Bool) (h : Hart) : Hart := { h with mode := if sm then max 1 h.mode else 0 }

/-- An access-fault exception of application core `n` (R383, R384). -/
def accessFault (n : Nat) (sm : Bool) (cause a : Nat) (s : State) : State := modHart n (fun h => hartTrap cause a (hartMode sm h)) s

/-- The RISC-V cause of the access fault of an access. -/
def faultCause : MemOp → Nat
  | .fetch _ => 1
  | .read _ | .lr _ => 5
  | _ => 7

/-- A posted store of application core `n` at `a` has ended in a bus error (R384). -/
def storeFailed (n a : Nat) (s : State) : State :=
  let t := flagF Reg.cl_CL_EVENTS_EVENTS 16 s
  if isSet t Reg.cl_CL_BUSERR_ADDR_VALID then t
  else t |> setF Reg.cl_CL_BUSERR_ADDR_VALID |> putF Reg.cl_CL_BUSERR_ADDR_CORE n |> putF Reg.cl_CL_BUSERR_ADDR_ADDR a

def memLen : MemOp → Nat
  | .read n | .fetch n | .lr n => n
  | .write bs | .sc bs | .amo _ bs => bs.length
  | .fence => 0

def memWrites : MemOp → Bool
  | .read _ | .fetch _ | .lr _ | .fence => false
  | .write _ | .sc _ | .amo _ _ => true

/-- The access of `p` at `a` ends in a bus error. A plain store of an application core to an uncached range is posted; its other
accesses raise the matching access fault, but for a store to cached memory, of which no rule speaks (R384). -/
def busFail (p : Party) (a : Nat) (op : MemOp) (s : State) : State :=
  let t := if busParty p then { s with reply := .busError } else s
  match p, op with
  | .app n _, .write _ => if a < mainBase then storeFailed n a t else t
  | .app n sm, _ => accessFault n sm (faultCause op) a t
  | _, _ => t

/-- The state after a CSR access that ends in a bus error. The firewall judges the addresses of R24 alone: an access beyond
them has no other effect. -/
def csrError (p : Party) (a : Nat) (op : MemOp) (s : State) : State :=
  busFail p a op (if firewallOk s p a (memWrites op) || !inMap a then s else firewallDeny p a (memWrites op) s)

/-- An access that is held back waits in its place (R197, R477). -/
def holdAccess (p : Party) (a : Nat) (op : MemOp) (s : State) : State :=
  wakeUnit a { s with memWait := s.memWait ++ [⟨p, a, op⟩] }

/-- The waiting accesses that `f` selects end in bus errors: a reset of their unit, or its entry to P2, begins (R29). -/
def cutWaits (f : Nat → Bool) (s : State) : State :=
  (s.memWait.filter (fun w => f w.addr)).foldl (fun t w => busFail w.p w.addr w.op t)
    { s with memWait := s.memWait.filter (fun w => !f w.addr) }

/-- A FENCE of application core `n` may complete: none of its posted stores is still under way (R384). -/
def fenceMayComplete (s : State) (n : Nat) : Bool :=
  s.memWait.all (fun w => !(w.p == .app n false || w.p == .app n true) || !memWrites w.op || decide (mainBase ≤ w.addr))

/-! ### Slices (R411-R418) -/

/-- The owner code of a requester: CLASS and INDEX (R411; the host is 6 and the debug port 8, R430). -/
def ownerCode : Party → Nat × Nat
  | .core c _ => (1, c)
  | .bdu _ => (2, 0)
  | .app _ _ => (3, 0)
  | .sdma c => (4, c)
  | .pdma c => (5, c)
  | .host => (6, 0)
  | .sec => (7, 0)
  | .dbg => (8, 0)
  | _ => (0, 0)

/-- The WRITERS bit of a requester at the slice of block `b` (R412); another block's BDU has none. -/
def writersBit (b : Nat) : Party → Option Nat
  | .core _ _ => some 0
  | .bdu n => if n = b then some 1 else none
  | .app _ _ => some 2
  | .sdma _ => some 3
  | .pdma _ => some 4
  | .host => some 5
  | .sec => some 6
  | .dbg => some 7
  | _ => none

def isChipUnit : Party → Bool
  | .ctt | .jrn | .cfm => true
  | _ => false

/-- The requester is the slice's owner (R411). -/
def isOwner (s : State) (b : Nat) (p : Party) : Bool :=
  let cls := getF s (Reg.slice_SLICE_OWNER_CLASS b)
  let idx := getF s (Reg.slice_SLICE_OWNER_INDEX b)
  match p with
  | .bdu n => decide (cls = 2) && decide (n = b)
  | _ => decide (cls ≠ 0) && decide ((ownerCode p).1 = cls) && (decide (cls = 3) || decide ((ownerCode p).2 = idx))

/-- R412: the access of `p` to the slice of block `b` is permitted. -/
def sliceAllows (s : State) (b : Nat) (p : Party) (write : Bool) : Bool :=
  let admitted := match writersBit b p with
    | some i => bitN (getF s (Reg.slice_SLICE_OWNER_WRITERS b)) i
    | none => false
  isChipUnit p || isOwner s b p || admitted || (!write && isSet s (Reg.slice_SLICE_OWNER_READ_OPEN b))

/-- The context table's range of the view (R317). -/
def cttBase (s : State) : Nat := getF s Reg.ctt_CTT_CFG_BASE * 0x400000
def inCtt (s : State) (off n : Nat) : Bool := decide (off < cttBase s + 0x400000) && decide (cttBase s < off + n)

def sliceOpLen : SliceOp → Nat
  | .read n => n
  | .write bs => bs.length
  | .add ws => 4 * ws.length
  | .bits _ bs => bs.length

def sliceOpWrites : SliceOp → Bool
  | .read _ => false
  | _ => true

/-- The 8-byte words that `n` bytes at `a` touch. -/
def words8 (a n : Nat) : List Nat :=
  (List.range ((a % 8 + n + 7) / 8)).map (fun i => a / 8 * 8 + 8 * i)

/-- The words whose check bits an operation must judge: all of a read, and of a write those not wholly overwritten. -/
def judgedWords (a : Nat) (op : SliceOp) : List Nat :=
  match op with
  | .write bs => (words8 a bs.length).filter (fun w => decide (w < a) || decide (a + bs.length < w + 8))
  | _ => words8 a (sliceOpLen op)

/-- Add word `x` to the word at `a`, wrapping (R121). -/
def addWordAt (a : Nat) (x : Word) (m : Memory) : Memory := setNum a 4 (getNum m a 4 + x.toNat) m

def addLanes (a : Nat) : List (Option Word) → Memory → Memory
  | [], m => m
  | none :: r, m => addLanes (a + 4) r m
  | some x :: r, m => addLanes (a + 4) r (addWordAt a x m)

/-- The byte that an alias write leaves (R416). -/
def aliasByte (set : Bool) (old new : Byte) : Byte := if set then old ||| new else old &&& ~~~ new

def sliceApply (a : Nat) (op : SliceOp) (s : State) : State :=
  match op with
  | .read _ => s
  | .write bs => wrBytes a bs s
  | .add ws => setMem (addLanes a ws s.mem) s
  | .bits set bs => wrBytes a (List.zipWith (aliasByte set) (getBytes s.mem a bs.length) bs) s

/-- The slice does not accept accesses: its region is in P2 (R480), or it is retained or on the way (R421). -/
def sliceRetained (s : State) (b : Nat) : Bool :=
  isSet s (Reg.slice_SLICE_PWR_RETAIN b) || getF s (Reg.slice_SLICE_STATUS_PWR b) != 0

def rowRetired (s : State) (b off : Nat) : Bool := s.rows.any (fun r => r.retired && r.slice == b && r.row == off / 4096)

/-- A denied access is flagged and recorded (R412). -/
def sliceDeny (b off : Nat) (p : Party) (write : Bool) (s : State) : State :=
  let t := flagF (Reg.slice_SLICE_EVENTS_EVENTS b) 0 s
  if isSet t (Reg.slice_SLICE_DENIED_INFO_VALID b) then t
  else t |> putF (Reg.slice_SLICE_DENIED_INFO_VALID b) 1 |> putF (Reg.slice_SLICE_DENIED_INFO_CLASS b) (ownerCode p).1
    |> putF (Reg.slice_SLICE_DENIED_INFO_INDEX b) (ownerCode p).2
    |> putF (Reg.slice_SLICE_DENIED_INFO_WRITE b) (bnat write) |> putF (Reg.slice_SLICE_DENIED_INFO_OFFSET b) off

/-- An uncorrectable slice error: counted, flagged and reported to the block fault controller (R418). -/
def sliceUncorr (b off : Nat) (s : State) : State :=
  s |> incSat (Reg.slice_SLICE_ECC_UNCORR_COUNT_COUNT b) |> flagF (Reg.slice_SLICE_EVENTS_EVENTS b) 3
    |> raiseUp 1 1 4 b off

/-- A single-bit slice error: corrected, written back and counted (R418). -/
def sliceCorr (b w : Nat) (s : State) : State :=
  s |> clearEcc w |> incSat (Reg.slice_SLICE_ECC_CORR_COUNT_COUNT b) |> flagF (Reg.slice_SLICE_EVENTS_EVENTS b) 5

def fixWords (b : Nat) (ws : List Nat) (s : State) : State :=
  ws.foldl (fun t w => if eccAt t w = 1 then sliceCorr b w t else t) s

def forgetWords (ws : List Nat) (s : State) : State := ws.foldl (fun t w => clearEcc w t) s

/-- What a slice access answers: the state, and the data (`none`: a bus error). -/
structure SliceAns where
  st : State
  data : Option (List Byte)

/-- A slice access at view offset `off` (R412, R416-R421). `upset`: bits newly found wrong in the first word. -/
def sliceDo (p : Party) (off : Nat) (op : SliceOp) (upset : Nat) (s : State) : SliceAns :=
  let b := (sliceOf s.variant off).1
  let lo := (sliceOf s.variant off).2
  let a := viewBase + off
  let wr := sliceOpWrites op
  if viewLen s.variant < off + sliceOpLen op then ⟨s, none⟩
  else if wr && inCtt s off (sliceOpLen op) && p != .ctt then ⟨s, none⟩
  else if regionDown s (regionOfBlock b) then ⟨s, none⟩
  else if sliceRetained s b then ⟨flagF (Reg.slice_SLICE_EVENTS_EVENTS b) 4 s, none⟩
  else if !sliceAllows s b p wr then ⟨sliceDeny b lo p wr s, none⟩
  else if rowRetired s b lo then ⟨flagF (Reg.slice_SLICE_EVENTS_EVENTS b) 3 s, none⟩
  else
    let s1 := addUpset (a / 8 * 8) upset s
    let ws := judgedWords a op
    match ws.find? (fun w => eccAt s1 w == 2) with
    | some w => ⟨sliceUncorr b (sliceOf s.variant (w - viewBase)).2 s1, none⟩
    | none =>
      let s2 := fixWords b ws s1
      let s3 := match op with
        | .write bs => forgetWords (words8 a bs.length) s2
        | _ => s2
      ⟨sliceApply a op s3, some (getBytes s3.mem a (sliceOpLen op))⟩

/-! ### Main memory (R422-R427) -/

/-- Usable bytes per channel, C (R424): density per rank and ranks of MEM_CFG, 7/8 with inline ECC. -/
def channelBytes (s : State) : Nat :=
  let gb := match getF s Reg.mem_MEM_CFG_DENSITY with
    | 0 => 4
    | 1 => 6
    | 2 => 8
    | 3 => 12
    | _ => 16
  let fitted := gb * 0x8000000 * (1 + getF s Reg.mem_MEM_CFG_RANKS)
  if isSet s Reg.mem_MEM_CFG_ECC_EN then fitted / 8 * 7 else fitted

/-- L of R425. -/
def localBytes (s : State) : Nat := min (getF s Reg.mem_MEM_CFG_LOCAL * 0x10000000) (channelBytes s)

/-- The channel of a main-memory offset (R425); `none` beyond the fitted memory. -/
def channelOf (s : State) (o : Nat) : Option Nat :=
  let n := memChannels s.variant
  let inter := n * (channelBytes s - localBytes s)
  let grp := n / 2 * localBytes s
  if o < inter then some (o / 256 % n)
  else if o < inter + grp then some ((o - inter) / 256 % (n / 2))
  else if o < inter + 2 * grp then some (n / 2 + (o - inter - grp) / 256 % (n / 2))
  else none

/-- The group of a memory channel (R330). -/
def groupOf (v : Variant) (ch : Nat) : Nat := if ch < memChannels v / 2 then 0 else 1

/-- MEM_CH_STATUS values (R431). -/
def chDown : Nat := 0
def chTraining : Nat := 1
def chUp : Nat := 2
def chRetraining : Nat := 3
def chFailed : Nat := 4
def chState (s : State) (ch : Nat) : Nat := getF s (Reg.memCh_MEM_CH_STATUS_STATE ch)

/-- The channels of the granules of `n` bytes at `a` (R425): `none` beyond the fitted memory. -/
def granules (s : State) (a n : Nat) : List (Option Nat) :=
  (List.range ((a % 256 + n + 255) / 256)).map (fun i => channelOf s ((a - mainBase) / 256 * 256 + 256 * i))

/-- The channel is in training: an access to it waits in its queue and is not refused (R426). -/
def chTrains (s : State) (ch : Nat) : Bool := chState s ch == chTraining || chState s ch == chRetraining

/-- The controller takes accesses: it is enabled, and does not stop. Its stop waits while the journal block is enabled (R43). -/
def memOpen (s : State) : Bool :=
  blkEnabled s Reg.mem_BLK_CTRL && (isSet s (enRef Reg.mem_BLK_CTRL) || blkEnabled s Reg.jrn_BLK_CTRL)

/-- A unit's access to `n` bytes of main memory meets an open controller, fitted memory, and channels that are up, or in training
so that the access waits (R426, R427). -/
def mainTakes (s : State) (a n : Nat) : Bool :=
  memOpen s && decide (mainBase ≤ a) && decide (a + n ≤ mainBase + 0x1000000000) &&
    (granules s a n).all (fun g => match g with
      | some ch => chState s ch == chUp || chTrains s ch
      | none => false)

/-- A unit's access to `n` bytes of main memory waits for a channel in training. -/
def mainWaits (s : State) (a n : Nat) : Bool :=
  mainTakes s a n && (granules s a n).any (fun g => match g with
    | some ch => chTrains s ch
    | none => false)

/-- The words that an access to main memory must judge: those it reads, and of a write those of its 64-byte blocks that it
does not cover (R424). -/
def mainJudged (a : Nat) (op : MemOp) : List Nat :=
  match op with
  | .write bs | .sc bs =>
    let n := bs.length
    (words8 (a / 64 * 64) ((a % 64 + n + 63) / 64 * 64)).filter (fun w => decide (w < a) || decide (a + n < w + 8))
  | .amo _ bs => words8 (a / 64 * 64) ((a % 64 + bs.length + 63) / 64 * 64)
  | _ => words8 a (memLen op)

/-- An uncorrectable error of a channel (R424, R431). -/
def mainUncorr (ch a : Nat) (s : State) : State :=
  let t := s |> incSat (Reg.memCh_MEM_ECC_UNCORR_COUNT_COUNT ch) |> flagF Reg.mem_MEM_EVENTS_EVENTS 1
  if isSet t (Reg.memCh_MEM_ERR_ADDR_VALID ch) then t
  else t |> setF (Reg.memCh_MEM_ERR_ADDR_VALID ch) |> putF (Reg.memCh_MEM_ERR_ADDR_ADDR ch) a

/-- What an atomic memory operation leaves, at the width of its operand (PRESUMED: the RISC-V A extension). -/
def amoValue (f : AmoOp) (w old new : Nat) : Nat :=
  let signed (x : Nat) : Int := if 2 ^ (w - 1) ≤ x then (x : Int) - 2 ^ w else x
  match f with
  | .swap => new
  | .add => (old + new) % 2 ^ w
  | .xor => old ^^^ new
  | .and => old &&& new
  | .or => old ||| new
  | .min => if signed old ≤ signed new then old else new
  | .max => if signed old ≤ signed new then new else old
  | .minu => min old new
  | .maxu => max old new

/-- A write to main memory ends the reservations of the 64-byte lines that it touches. -/
def breakResv (a n : Nat) (s : State) : State :=
  { s with cluster := { s.cluster with harts := s.cluster.harts.map (fun p => (p.1, { p.2 with
      resv := p.2.resv.filter (fun l => !(decide (l < a + n) && decide (a < l + 64))) })) } }

/-- An answer of main memory: the state, and the data (`none`: a bus error). -/
structure MainAns where
  st : State
  data : Option (List Byte)

/-- Put bytes into main memory; their words are written whole, with new check data. -/
def mainPut (a : Nat) (bs : List Byte) (s : State) : State :=
  (words8 a bs.length).foldl (fun t w => clearEcc w t) (s |> breakResv a bs.length |> wrBytes a bs)

/-- An access that channel `ch` carries out (R424). Without inline ECC nothing tells an upset. -/
def channelAcc (ch a : Nat) (op : MemOp) (upset : Nat) (s : State) : MainAns :=
  let ecc := isSet s Reg.mem_MEM_CFG_ECC_EN
  let s1 := if ecc then addUpset (a / 8 * 8) upset s else s
  match (mainJudged a op).find? (fun w => ecc && eccAt s1 w == 2) with
  | some w => ⟨mainUncorr ch w s1, none⟩
  | none =>
    let s2 := (mainJudged a op).foldl
      (fun t w => if ecc && eccAt t w == 1 then t |> clearEcc w |> incSat (Reg.memCh_MEM_ECC_CORR_COUNT_COUNT ch) else t) s1
    let old := getBytes s2.mem a (memLen op)
    match op with
    | .write bs | .sc bs => ⟨mainPut a bs s2, some []⟩
    | .amo f bs =>
      ⟨mainPut a (toBytes (amoValue f (8 * bs.length) (ofBytes old) (ofBytes bs)) bs.length) s2, some old⟩
    | _ => ⟨s2, some old⟩

/-- The granules of `n` bytes at `a`: where each part starts, and its length. -/
def mainParts (a n : Nat) : List (Nat × Nat) :=
  (List.range ((a % 256 + n + 255) / 256)).map (fun i =>
    let lo := max a (a / 256 * 256 + 256 * i)
    (lo, min (a + n) (a / 256 * 256 + 256 * (i + 1)) - lo))

/-- A unit of the device reads main memory, part by part; a bus error of one ends the read (R419). A caller whose access waits
for a channel (mainWaits) waits itself. -/
def mainRead (a n : Nat) (s : State) : MainAns :=
  if !mainTakes s a n then ⟨s, none⟩
  else (mainParts a n).foldl (fun acc q => match acc.data, channelOf acc.st (q.1 - mainBase) with
    | some bs, some ch =>
      let r := channelAcc ch q.1 (.read q.2) 0 acc.st
      ⟨r.st, r.data.map (bs ++ ·)⟩
    | _, _ => ⟨acc.st, none⟩) ⟨s, some []⟩

/-- One part of a unit's write: it waits in the queue of a channel in training, and is carried out by one that is up. -/
def mainWritePart (bs : List Byte) (acc : State × Bool) (q : Nat × Nat) (off : Nat) : State × Bool :=
  let piece := (bs.drop off).take q.2
  match acc.2, channelOf acc.1 (q.1 - mainBase) with
  | true, some ch =>
    if chTrains acc.1 ch then ({ acc.1 with memWait := acc.1.memWait ++ [⟨.unit, q.1, .write piece⟩] }, true)
    else let r := channelAcc ch q.1 (.write piece) 0 acc.1; (r.st, r.data.isSome)
  | _, _ => (acc.1, false)

/-- A unit of the device writes bytes to main memory, part by part; `false` where the write ends in a bus error (R419, R551). -/
def mainWrite (a : Nat) (bs : List Byte) (s : State) : State × Bool :=
  if mainTakes s a bs.length then (mainParts a bs.length).foldl (fun acc q => mainWritePart bs acc q (q.1 - a)) (s, true)
  else (s, false)

/-! ### The place of a byte in its channel (R425) -/

/-- Channel and address within the channel of a main-memory offset. -/
def channelAddr (s : State) (o : Nat) : Option (Nat × Nat) :=
  let n := memChannels s.variant
  let own := channelBytes s - localBytes s
  let inter := n * own
  let grp := n / 2 * localBytes s
  let place (m a : Nat) : Nat := a / 256 / m * 256 + a % 256
  (channelOf s o).map (fun ch =>
    (ch, if o < inter then place n o else if o < inter + grp then own + place (n / 2) (o - inter)
         else own + place (n / 2) (o - inter - grp)))

/-- The main-memory offset of an address within a channel; `none` in its reserved part. -/
def channelOff (s : State) (ch x : Nat) : Option Nat :=
  let n := memChannels s.variant
  let own := channelBytes s - localBytes s
  if x < own then some ((x / 256 * n + ch) * 256 + x % 256)
  else if x < channelBytes s then
    let y := x - own
    let grp := n / 2 * localBytes s
    if ch < n / 2 then some (n * own + (y / 256 * (n / 2) + ch) * 256 + y % 256)
    else some (n * own + grp + (y / 256 * (n / 2) + (ch - n / 2)) * 256 + y % 256)
  else none

/-- The controller comes back with another MEM_CFG than `old`: each byte stays in its place in its channel, and is found at the
address that the new map gives that place. Bytes in what is now the reserved part are lost (DESIGN CHOICE, log entry 48). -/
def remapMain (old : Word) (s : State) : State :=
  let before := wrWord Reg.mem_MEM_CFG old s
  let move (a : Nat) : Option Nat := (channelAddr before (a - mainBase)).bind (fun p => (channelOff s p.1 p.2).map (mainBase + ·))
  if rdWord s Reg.mem_MEM_CFG = old then s
  else
    { s with
      mem := (s.mem.filter (fun p => decide (mainBase ≤ p.1))).foldl
        (fun m p => match move p.1 with
          | some b => setBytes b [p.2] m
          | none => m) (s.mem.filter (fun p => decide (p.1 < mainBase)))
      ecc := (s.ecc.filter (fun p => decide (mainBase ≤ p.1))).foldl
        (fun m p => match move p.1 with
          | some b => tset b p.2 m
          | none => m) (s.ecc.filter (fun p => decide (p.1 < mainBase))) }

/-- Enabled with a LOCAL that gives more than a channel holds, the controller sets LOCAL_CLAMPED (R425). -/
def localCheck (s : State) : State :=
  if channelBytes s < getF s Reg.mem_MEM_CFG_LOCAL * 0x10000000 then flagF Reg.mem_MEM_EVENTS_EVENTS 4 s else s

/-- The controller is enabled: its map is that of MEM_CFG as it now stands. -/
def memMapOn (s : State) : State :=
  localCheck (match s.memCfg with
    | some w => remapMain w { s with memCfg := none }
    | none => s)

end Sys2Proof.Machine
end

