-- ==== Sys2Proof/Machine/QueueOps.lean ====
section
/-! DEFINITION. Local queues, combining queues, ring queues, semaphores and herds of a neurocore: their formats in the
queue/semaphore store (R86) and the operations on them (R143-R158). -/

namespace Sys2Proof.Machine

/-! ### Queue descriptors (R148) -/

def qsBase (c : Nat) : Nat := coreBase c + 0x38000
def qDesc (c q : Nat) : Nat := qsBase c + 0x2000 + 16 * q
def qEntry (c q e : Nat) : Nat := qsBase c + 128 * q + 8 * (e % 16)

/-- KIND: local queue 63 behaves as a send-status queue whatever its descriptor holds (R162). -/
def qKind (s : State) (c q : Nat) : Nat := if q = 63 then 3 else rdBits s (qDesc c q) 0 2
def qOpen (s : State) (c q : Nat) : Bool := rdBits s (qDesc c q) 2 1 == 1
def qReader (s : State) (c q : Nat) : Nat := rdBits s (qDesc c q) 4 3
def qWriters (s : State) (c q : Nat) : Nat := rdBits s (qDesc c q) 8 7
def qRemote (s : State) (c q : Nat) : Bool := rdBits s (qDesc c q) 15 1 == 1
def qSlot (s : State) (c q : Nat) : Nat := rdBits s (qDesc c q) 16 9
def qSat (s : State) (c q : Nat) : Bool := rdBits s (qDesc c q) 25 1 == 1
def qExpect (s : State) (c q : Nat) : Nat := rdBits s (qDesc c q) 32 8
def qRingBase (s : State) (c q : Nat) : Nat := rdBits s (qDesc c q) 32 18
def qRingWords (s : State) (c q : Nat) : Nat := 1024 * 2 ^ rdBits s (qDesc c q) 50 3
def qHead (s : State) (c q : Nat) : Nat := rdBits s (qDesc c q) 64 4
def qCount (s : State) (c q : Nat) : Nat := rdBits s (qDesc c q) 68 5
def qProd (s : State) (c q : Nat) : Nat := rdBits s (qDesc c q) 80 24
def qCons (s : State) (c q : Nat) : Nat := rdBits s (qDesc c q) 104 24
def setQHead (c q v : Nat) (s : State) : State := wrBits (qDesc c q) 64 4 v s
def setQCount (c q v : Nat) (s : State) : State := wrBits (qDesc c q) 68 5 v s
def setQProd (c q v : Nat) (s : State) : State := wrBits (qDesc c q) 80 24 v s
def setQCons (c q v : Nat) (s : State) : State := wrBits (qDesc c q) 104 24 v s

/-- The entries held, oldest first. -/
def qEntries (s : State) (c q : Nat) : List Nat :=
  (List.range (min (qCount s c q) 16)).map (fun i => rdNum s (qEntry c q (qHead s c q + i)) 8)

def origins (s : State) (c q : Nat) : List (Option (Nat × Nat)) := tget [] q (core s c).origins
def setOrigins (c q : Nat) (l : List (Option (Nat × Nat))) (s : State) : State :=
  modCore c (fun k => { k with origins := tset q l k.origins }) s

/-- A combining entry is complete (R153). -/
def entryDone (s : State) (c q n : Nat) : Bool := decide (qExpect s c q ≤ n / 2 ^ 56)

/-- The slice-view offset of ring word `k` (R154). -/
def ringOff (s : State) (c q k : Nat) : Nat := qRingBase s c q * 256 + 8 * (k % qRingWords s c q)

/-- Ring word `k` as it stands in the slices. -/
def ringWord (s : State) (c q k : Nat) : Nat := rdNum s (viewBase + ringOff s c q k) 8

/-- The PAD bit and the number of words of the record whose header is `h` (R154). -/
def hdrPad (h : Nat) : Bool := bitN h 15
def hdrLen (h : Nat) : Nat := h % 512 + 1

/-- Body words still to come of the record that the reader of a ring takes; at 0 the next word is a header (R156). -/
def ringTake (s : State) (c q : Nat) : Nat := tget 0 q (core s c).ringTake

/-- The words of pad records among the `n` ring words from the header at position `k` on. -/
def padWords (s : State) (c q : Nat) : Nat → Nat → Nat → Nat
  | 0, _, _ => 0
  | fuel + 1, k, n =>
    if n = 0 then 0
    else
      let len := min (hdrLen (ringWord s c q k)) n
      (if hdrPad (ringWord s c q k) then len else 0) + padWords s c q fuel (k + len) (n - len)

/-- Words of a ring between CONS and PROD. -/
def ringHeld (s : State) (c q : Nat) : Nat := (qProd s c q + 2 ^ 24 - qCons s c q) % 2 ^ 24

/-- Words readable: entries, complete entries, or ring words without pads (R149). -/
def qReadable (s : State) (c q : Nat) : Nat :=
  match qKind s c q with
  | 1 => (qEntries s c q).countP (entryDone s c q)
  | 2 =>
    let n := ringHeld s c q
    let b := min (ringTake s c q) n
    n - padWords s c q n (qCons s c q + b) (n - b)
  | _ => qCount s c q

/-- The QUEUE happening of every engine that watches queue `q` (R133). -/
def raiseQueue (c q : Nat) (s : State) : State :=
  (List.range 6).foldl (fun t e =>
    if bitN (getF t (Reg.eng_QWATCH_QUEUES c e)) q then
      modEng c e (fun g => { g with happen := g.happen ++ [⟨8, 0x100, 0, BitVec.ofNat 32 q, 0, 0, 0⟩] }) t
    else t) s

/-- After a change of queue `q` from state `s0`: it raises QUEUE if it went from empty to not empty. -/
def watchQueue (s0 : State) (c q : Nat) (t : State) : State :=
  if qReadable s0 c q = 0 ∧ qReadable t c q ≠ 0 then raiseQueue c q t else t

/-- Put a packet at the end of what waits at its source. -/
def post (p : Packet) (s : State) : State := { s with fab := { s.fab with waiting := s.fab.waiting ++ [p] } }

/-- The credit of an item whose sender is known goes back on VC1 (R158). -/
def sendCredit (c : Nat) (o : Option (Nat × Nat)) (s : State) : State :=
  match o with
  | none => s
  | some (src, route) => post { ty := .credit, src := 4 * c, dst := 4 * src, ext := route } s

/-- Append an entry to the local entries. -/
def qAppend (c q v : Nat) (o : Option (Nat × Nat)) (s : State) : State :=
  s |> wrNum (qEntry c q (qHead s c q + qCount s c q)) 8 v |> setQCount c q (qCount s c q + 1)
    |> setOrigins c q (origins s c q ++ [o])

/-- Remove the oldest local entry. -/
def qDropFront (c q : Nat) (s : State) : State :=
  s |> setQHead c q (qHead s c q + 1) |> setQCount c q (qCount s c q - 1)
    |> setOrigins c q (origins s c q).tail

/-- Write the entries from HEAD on, as a list (used where an entry in the middle leaves). -/
def qRewrite (c q : Nat) (l : List Nat) (s : State) : State :=
  (List.range l.length).foldl (fun t i => wrNum (qEntry c q (qHead s c q + i)) 8 (l.getD i 0) t)
    (setQCount c q l.length s)

/-- One contribution added to a combining entry (R152, R153). -/
def addContribution (sat : Bool) (n : Nat) (v : Word) : Nat :=
  let sum := sx 32 n
  let tag := n / 2 ^ 32 % 2 ^ 23
  let satd := bitN n 55
  let cnt := min (n / 2 ^ 56 + 1) 255
  let exact := sum + v.toInt
  let clamped := satS 32 exact
  let sum' := if satd then sum else if sat then clamped else exact
  let satd' := satd || (sat && decide (clamped ≠ exact))
  ux 32 sum' + tag * 2 ^ 32 + bnat satd' * 2 ^ 55 + cnt * 2 ^ 56

def newContribution (tag : Nat) (v : Word) : Nat := v.toNat + tag % 2 ^ 23 * 2 ^ 32 + 2 ^ 56

/-- The place of the oldest incomplete entry with a tag (R153). -/
def openEntry (s : State) (c q tag : Nat) : Option Nat :=
  (List.range (qEntries s c q).length).find? (fun i =>
    let n := (qEntries s c q).getD i 0
    !entryDone s c q n && n / 2 ^ 32 % 2 ^ 23 == tag % 2 ^ 23)

/-- A contribution to combining queue `q`; `none` while it must wait (R150, R153). Its credit returns at once (R158). -/
def qContribute (c q tag : Nat) (v : Word) (o : Option (Nat × Nat)) (s : State) : Option State :=
  match openEntry s c q tag with
  | some i =>
    let n := addContribution (qSat s c q) ((qEntries s c q).getD i 0) v
    some (sendCredit c o (watchQueue s c q (wrNum (qEntry c q (qHead s c q + i)) 8 n s)))
  | none =>
    if qCount s c q < 16 then
      some (sendCredit c o (watchQueue s c q (qAppend c q (newContribution tag v) none s)))
    else none

/-- A pair written to queue `q` by QPUSH, QSEND or the external port; `none` while it must wait (R149, R150). -/
def qWrite (c q : Nat) (v : Word64) (o : Option (Nat × Nat)) (s : State) : Option State :=
  if qKind s c q = 1 then qContribute c q (v.toNat / 2 ^ 32) (v.extractLsb' 0 32) o s
  else if qCount s c q < 16 then some (watchQueue s c q (qAppend c q v.toNat o s))
  else none

/-! ### Ring queues (R154-R156) -/

/-- A drain holds the core's access to ring word `k` (R197). -/
def ringHeldAt (s : State) (c q k : Nat) : Bool := routeHeld s c (centralRouter (sliceOf s.variant (ringOff s c q k)).1)

/-- A drain holds the accesses of a pop of ring queue `q`: to the word at CONS, and to the header after a pad record. -/
def popHeld (s : State) (c q : Nat) : Bool :=
  let k := qCons s c q
  qKind s c q == 2 && drainsAny s && (ringHeldAt s c q k ||
    (ringTake s c q == 0 && hdrPad (ringWord s c q k) && ringHeldAt s c q (k + hdrLen (ringWord s c q k))))

/-- Move the next staged word of ring queue `q` into the ring, if the conditions of R155 are met; `none` otherwise, and while a
drain holds the way to the words (R197). -/
def ringMove (c q : Nat) (s : State) : Option State :=
  match (if drainsAny s && (ringHeldAt s c q (qProd s c q) || ringHeldAt s c q (qProd s c q / qRingWords s c q * qRingWords s c q))
    then [] else qEntries s c q) with
  | [] => none
  | w :: _ =>
    let W := qRingWords s c q
    let prod := qProd s c q
    let o := (origins s c q).headD none
    let put (k v : Nat) (t : State) : SliceAns := sliceDo (.core c 5) (ringOff s c q k) (.write (toBytes v 8)) 0 t
    match tget 0 q (core s c).ringLeft with
    | left + 1 =>
      let a := put prod w s
      some (a.st |> setQProd c q (prod + 1) |> qDropFront c q
        |> modCore c (fun k => { k with ringLeft := tset q left k.ringLeft })
        |> sendCredit c o |> watchQueue s c q)
    | 0 =>
      let need := w % 512 + 1
      let hdr := setBitN w 15 false
      let free := W - (prod + 2 ^ 24 - qCons s c q) % 2 ^ 24
      let tail := W - prod % W
      if need ≤ tail then
        if need ≤ free then
          let a := put prod hdr s
          some (a.st |> setQProd c q (prod + 1) |> qDropFront c q
            |> modCore c (fun k => { k with ringLeft := tset q (need - 1) k.ringLeft })
            |> sendCredit c o |> watchQueue s c q)
        else none
      else if tail + need ≤ free then
        let a := put prod ((tail - 1) + 2 ^ 15) s
        let b := put (prod + tail) hdr a.st
        some (b.st |> setQProd c q (prod + tail + 1) |> qDropFront c q
          |> modCore c (fun k => { k with ringLeft := tset q (need - 1) k.ringLeft })
          |> sendCredit c o |> watchQueue s c q)
      else none

/-- Move staged words while that is possible, at most `n`. -/
def ringMoveAll (c q : Nat) : Nat → State → State
  | 0, s => s
  | n + 1, s =>
    match ringMove c q s with
    | some t => ringMoveAll c q n t
    | none => s

/-- A queue is as an image or an outside write has left its descriptor (R148): the next word written to a ring, and the next
one read from it, is a header, and no entry has a sender that awaits a credit. -/
def queueLoaded (c : Nat) (s : State) (q : Nat) : State :=
  s |> setOrigins c q (List.replicate (qCount s c q) none)
    |> modCore c (fun k => { k with ringLeft := tdel q k.ringLeft, ringTake := tdel q k.ringTake })

/-- `n` bytes at window offset `o` have been written from outside: the queues whose descriptors they touch begin afresh. -/
def queuesLoaded (c o n : Nat) (s : State) : State :=
  ((List.range 64).filter (fun q => decide (o < 0x3A010 + 16 * q) && decide (0x3A000 + 16 * q < o + n))).foldl (queueLoaded c) s

/-- What a pop answers: nothing to take, an entry, or a bus error of the slice that holds the ring. -/
inductive PopAns where
  | empty
  | entry (v : Nat) (t : State)
  | sliceErr (off : Nat) (t : State)

/-- Read ring word `k`. -/
def ringRead (c q k : Nat) (s : State) : SliceAns := sliceDo (.core c 5) (ringOff s c q k) (.read 8) 0 s

/-- The reader of a ring takes word `v` at position `k`: CONS goes past it, and the words left of its record follow. -/
def ringTaken (c q k v : Nat) (s : State) : State :=
  let left := match ringTake s c q with
    | 0 => v % 512
    | n + 1 => n
  s |> setQCons c q (k + 1) |> modCore c (fun r => { r with ringTake := tset q left r.ringTake })

/-- The next ring word (R156): CONS goes past a pad record, and nothing of it moves where the word cannot be read (R139). -/
def ringPop (c q : Nat) (s : State) : PopAns :=
  let k := qCons s c q
  let a := ringRead c q k s
  match a.data with
  | none => .sliceErr (ringOff s c q k) a.st
  | some bs =>
    let h := ofBytes bs
    if ringTake s c q = 0 ∧ hdrPad h = true then
      let b := ringRead c q (k + hdrLen h) a.st
      match b.data with
      | none => .sliceErr (ringOff s c q (k + hdrLen h)) b.st
      | some cs => .entry (ofBytes cs) (ringTaken c q (k + hdrLen h) (ofBytes cs) b.st)
    else .entry h (ringTaken c q k h a.st)

/-- Take the entry that QPOP returns (R149); a plain entry's credit goes back (R158). -/
def qPop (c q : Nat) (s : State) : PopAns :=
  match qKind s c q with
  | 1 =>
    match (List.range (qEntries s c q).length).find? (fun i => entryDone s c q ((qEntries s c q).getD i 0)) with
    | none => .empty
    | some 0 => .entry ((qEntries s c q).getD 0 0) (qDropFront c q s)
    | some i => .entry ((qEntries s c q).getD i 0)
        (s |> qRewrite c q ((qEntries s c q).eraseIdx i) |> setOrigins c q ((origins s c q).eraseIdx i))
  | 2 =>
    if qReadable s c q = 0 then .empty else ringPop c q s
  | _ =>
    match qEntries s c q with
    | [] => .empty
    | v :: _ => .entry v (qDropFront c q s |> sendCredit c ((origins s c q).headD none))

/-- The entry a peek returns, without taking it (R151, R156). -/
def qPeek (s : State) (c q : Nat) : Option Nat :=
  match qPop c q s with
  | .entry v _ => some v
  | _ => none

/-! ### Semaphores (R122, R143) -/

def semAddr (c id : Nat) : Nat := qsBase c + 0x2400 + 2 * id
def semOf (s : State) (c id : Nat) : Nat := rdNum s (semAddr c id) 2
def setSem (c id v : Nat) (s : State) : State := wrNum (semAddr c id) 2 v s
/-- The physical id of virtual id `v` of a slot (R143). -/
def semVirt (s : State) (c slot v : Nat) : Nat := rdNum s (qsBase c + 0x3000 + 16 * slot + v) 1

/-! ### Herds (R146, R147) -/

def herdBase (c h : Nat) : Nat := qsBase c + 0x2600 + 16 * h
def herdMask (s : State) (c h : Nat) : Nat := rdBits s (herdBase c h) 0 6
def herdArrived (s : State) (c h : Nat) : Nat := rdBits s (herdBase c h) 8 6
def herdWaiting (s : State) (c h : Nat) : Nat := rdBits s (herdBase c h) 16 6
def herdRounds (s : State) (c h : Nat) : Nat := rdBits s (herdBase c h) 32 32

end Sys2Proof.Machine
end

