-- ==== Sys2Proof/Machine/EngOps.lean ====
section
/-! DEFINITION. Running an engine: issue and retirement of an instruction, exceptions, handlers and their dispatch, and the
acts of a step that the SQ performs (R103-R141, R206, R209). -/

namespace Sys2Proof.Machine

/-! ### Acts of a step -/

/-- The SQ places the wicket commands it has issued, as far as both control queues have credit (R73): 8 entries each. -/
def sqPlace : List (Nat × Nat) → Core → Core
  | [], k => { k with sqOut := [] }
  | x :: r, k =>
    if k.soCmd.length < 8 ∧ k.seCmd.length < 8 then
      sqPlace r { k with soCmd := k.soCmd ++ [x], seCmd := k.seCmd ++ [x] }
    else { k with sqOut := x :: r }

def sqDrain (c : Nat) (s : State) : State := modCore c (fun k => sqPlace k.sqOut k) s

/-- The wicket commands of a slot and step, to the SO and the SE (R130). -/
def wicketCmds (c slot step : Nat) (s : State) : State :=
  s |> modCore c (fun k => { k with sqOut := k.sqOut ++ [(slot, step)] }) |> sqDrain c

/-- The step-done contribution of a slot and step (R206, R208). -/
def sendDone (c slot step : Nat) (s : State) : State :=
  { modCore c (fun k => { k with doneSent := tset slot (step + 1) k.doneSent }) s with
    contribs := s.contribs ++ [⟨slotCtx s c slot, step⟩] }

/-- The act that a WICKET or STEP_END handler of the SQ has not performed by its end (R130). -/
def omittedAct (c e : Nat) (h : Handler) (s : State) : State :=
  if h.acted || e != 5 then s
  else if h.kind = 2 then wicketCmds c h.slot h.step s
  else if h.kind = 4 then sendDone c h.slot h.step s
  else s

/-! ### When a slot's work of a step is done (R206) -/

/-- No handler of `kinds` for the slot and step runs or waits on engine `e`. -/
def handlerClear (s : State) (c e slot step : Nat) (kinds : List Nat) : Bool :=
  (match (eng s c e).handler with
   | some h => !(kinds.contains h.kind && h.slot == slot && h.step == step)
   | none => true) &&
  (eng s c e).happen.all (fun h => !(kinds.contains h.kind && h.slot == slot && h.step == step))

/-- Every event that the slot emitted in the step has been delivered (R206, R194). -/
def emittedClear (s : State) (c slot step : Nat) : Bool :=
  let ctx := slotCtx s c slot
  let mine (w : Word64) (st : Nat) : Bool := evCtx w == ctx && st == step
  (core s c).fire.all (fun f => !(f.slot == slot && f.step == step)) &&
  (core s c).send.all (fun i => !mine i.word i.step) &&
  s.fab.waiting.all (fun p => !(p.src == 4 * c && p.ty == .event && mine (BitVec.ofNat 64 p.data) p.step)) &&
  s.fab.retx.all (fun r => !(r.pkt.src == 4 * c && r.pkt.ty == .event && mine (BitVec.ofNat 64 r.pkt.data) r.pkt.step)) &&
  [4, 5].all (fun e => match (eng s c e).wait with
    | .emit v => evCtx v != ctx
    | _ => true)

def learnOn (s : State) (c : Nat) : Bool := isSet s (Reg.core_CORE_CFG_LEARN_EN c)

/-- The PE has ended its handlers for every record of the step (R206). -/
def plasticClear (s : State) (c slot step : Nat) : Bool :=
  !learnOn s c ||
  ((core s c).pre.all (fun r => !(r.slot == slot && r.step == step)) &&
   (core s c).post.all (fun r => !(r.slot == slot && r.step == step)) &&
   (core s c).preReady.all (fun r => !(r.slot == slot && r.step == step)) &&
   (core s c).postReady.all (fun r => !(r.slot == slot && r.step == step)) &&
   handlerClear s c 3 slot step [5, 6])

/-- R206 but for item 5. -/
def workDone (s : State) (c slot step : Nat) : Bool :=
  decide (step < tget 0 slot (core s c).soma) && handlerClear s c 2 slot step [2] &&
  decide (step < tget 0 slot (core s c).corr) && handlerClear s c 1 slot step [2] &&
  emittedClear s c slot step && handlerClear s c 4 slot step [9] && plasticClear s c slot step

/-- Up to `m` STEP_END happenings of slot `k` arrive at the SQ, one for each step whose work is done (R133, R136). -/
def raiseStepEnd (c k : Nat) : Nat → State → State
  | 0, s => s
  | m + 1, s =>
    let n := tget 0 k (core s c).endRaised
    if n < tget 0 k (core s c).taken ∧ workDone s c k n = true then
      raiseStepEnd c k m (modCore c (fun r => { r with endRaised := tset k (n + 1) r.endRaised, stepReady := r.stepReady ++ [(k, n)] }) s)
    else s

/-- The STEP_END happenings that are due arrive at the SQ; of those due at once, the lowest slot first. -/
def noteStepEnds (c : Nat) (s : State) : State :=
  (core s c).taken.foldl (fun t p =>
    if rdBits t (slotBase c p.1) 48 1 = 1 then raiseStepEnd c p.1 (p.2 - tget 0 p.1 (core t c).endRaised) t else t) s

/-! ### The end of an innings boundary (R269) -/

/-- No engine runs or waits to run an INNINGS handler. -/
def inningsQuiet (s : State) (c : Nat) : Bool :=
  (List.range 6).all (fun e =>
    (match (eng s c e).handler with
     | some h => h.kind != 7
     | none => true) && (eng s c e).happen.all (fun h => h.kind != 7))

/-- The lowest-numbered learning set that covers the slot (R259). -/
def setOf (s : State) (c slot : Nat) : Option Nat :=
  (List.range 4).find? (fun i => decide (getF s (Reg.pe_LSET_SLOT_FIRST c i) ≤ slot) &&
    decide (slot < getF s (Reg.pe_LSET_SLOT_FIRST c i) + getF s (Reg.pe_LSET_SLOT_CNT c i)))

/-- The slots of learning set `i`: those it covers and no lower set does (R259). -/
def setSlots (s : State) (c i : Nat) : List Nat :=
  ((List.range (min (getF s (Reg.pe_LSET_SLOT_CNT c i)) 256)).map (fun k => getF s (Reg.pe_LSET_SLOT_FIRST c i) + k)).filter
    (fun k => setOf s c k == some i)

/-- The slots of a set that are at work: the others take no part (R275). -/
def workSlots (s : State) (c i : Nat) : List Nat :=
  (setSlots s c i).filter (fun k => rdBits s (slotBase c k) 48 1 == 1 && atWork (slotState s c k))

/-- The innings whose boundary a slot has reached: its wicket `n` is released, not taken, and `n` is a multiple of
INN_LEN (R268). -/
def boundaryOf (s : State) (c i slot : Nat) : Option Nat :=
  let len := getF s (Reg.pe_LSET_INN_LEN c i)
  let n := tget 0 slot (core s c).taken
  if len ≠ 0 ∧ n ≠ 0 ∧ n < tget 0 slot (core s c).released ∧ n % len = 0 ∧ tget 0 slot (core s c).innDone ≠ n / len
  then some (n / len) else none

/-- Slots of set `i` that wait at a boundary (R268); none while LEARN_EN is 0 (R260). -/
def waitingSlots (s : State) (c i : Nat) : List Nat :=
  if learnOn s c then (workSlots s c i).filter (fun k => (boundaryOf s c i k).isSome) else []

/-- The innings number whose boundary every slot of set `i` at work has reached (R268). -/
def boundaryDue (s : State) (c i : Nat) : Option Nat :=
  match workSlots s c i with
  | [] => none
  | k :: rest => if rest.all (fun j => boundaryOf s c i j == boundaryOf s c i k) then boundaryOf s c i k else none

/-- The boundary of a set has become due: the events that stand in the ingress queue arrived before its last release (R269). A
set that is due no longer has none. -/
def dueNote (c : Nat) (s : State) : State :=
  (List.range 4).foldl (fun t i =>
    if (boundaryDue t c i).isSome && (core t c).applying != some i then
      modCore c (fun k => { k with dueIn := tset i ((tfind i k.dueIn).getD k.ingress.length) k.dueIn }) t
    else modCore c (fun k => { k with dueIn := tdel i k.dueIn }) t) s

/-- The boundary sequence of a set starts when it is due and none runs (R268, R269); of two sets due at once, the lower (DESIGN
CHOICE, log entry 47). -/
def boundaryStart (c : Nat) (s : State) : State :=
  if learnOn s c && !(core s c).stopped then
    let t := dueNote c s
    match (core t c).applying, (List.range 4).find? (fun i => (boundaryDue t c i).isSome) with
    | none, some i =>
      t |> modCore c (fun k => { k with applying := some i, applied := false, applyIn := tget 0 i k.dueIn
                                        dueIn := tdel i k.dueIn, applyInn := (boundaryDue t c i).getD 0 })
        |> setF (Reg.pe_LRN_STATUS_APPLYING c) |> putF (Reg.pe_LRN_STATUS_SET c) i
    | _, _ => t
  else s

/-- Item 5 of R269: when every INNINGS handler has ended, the IE resumes and the wickets may be taken. -/
def boundaryEnd (c : Nat) (s : State) : State :=
  match (core s c).applying with
  | none => s
  | some i =>
    if (core s c).applied && inningsQuiet s c then
      let done (k : Core) : Core := (setSlots s c i).foldl (fun k slot =>
        match boundaryOf s c i slot with
        | some m => { k with innDone := tset slot m k.innDone }
        | none => k) k
      s |> modCore c (fun k => { done k with applying := none, applied := false })
        |> clrF (Reg.pe_LRN_STATUS_APPLYING c) |> incWrap (Reg.pe_INNINGS_DONE_COUNT c i)
        |> putF (Reg.pe_LRN_LAST_CYCLES_CYCLES c) (freeWord s).toNat |> spendFree |> boundaryStart c
    else s

/-! ### Exceptions and handlers -/

def handlerBound (s : State) (c e kind : Nat) : Bool := isSet s (Reg.eng_HVEC_EN c e kind)

/-- The START happening of every engine of core `c` (R133). -/
def raiseStart (c : Nat) (s : State) : State :=
  (List.range 6).foldl (fun t e => modEng c e (fun g => { g with happen := g.happen ++ [⟨0, 0x100, 0, 0, 0, 0, 0⟩] }) t) s

/-- Start a handler: its entry, arguments, CUR_SLOT and CUR_STEP (R133). -/
def startHandler (c e entry : Nat) (h : Handler) (s1 s2 s3 : Word) (s : State) : State :=
  s |> modEng c e (fun g => { g with pc := entry, st := .run, wait := .none, handler := some h })
    |> setReg c e 1 s1 |> setReg c e 2 s2 |> setReg c e 3 s3
    |> putF (Reg.eng_CUR_SLOT_SLOT c e) h.slot |> putF (Reg.eng_CUR_STEP_STEP c e) h.step

/-- The running handler ends: the omitted act is performed and the engine is free (R130, R136). -/
def endHandler (c e : Nat) (s : State) : State :=
  match (eng s c e).handler with
  | none => s
  | some h =>
    s |> modEng c e (fun g => { g with st := .idle, wait := .none, handler := none }) |> omittedAct c e h |> boundaryEnd c
      |> noteStepEnds c

/-- EXC_CAUSE, EXC_PC and EXC_VALUE take an exception; while VALID is 1 they keep the first and MORE is set (R140, R142). -/
def recordExc (c e code pc : Nat) (notInstr : Bool) (value : Word) (s : State) : State :=
  if isSet s (Reg.eng_EXC_CAUSE_VALID c e) then setF (Reg.eng_EXC_CAUSE_MORE c e) s
  else s |> setF (Reg.eng_EXC_CAUSE_VALID c e) |> putF (Reg.eng_EXC_CAUSE_CODE c e) code
    |> wrWord (Reg.eng_EXC_PC c e) (BitVec.ofNat 32 (pc % 4096 + 4096 * bnat notInstr))
    |> wrWord (Reg.eng_EXC_VALUE c e) value

/-- The engines of the core run: it is present, not held and powered, and its clock runs (R475, R479, R490). -/
def engRuns (s : State) (c : Nat) : Bool := !coreSilent s c && coreClocked s c

/-- An exception (R140): it is recorded, the handler is abandoned and the EXCEPTION handler starts. Without a usable
EXCEPTION handler the engine halts, which the core fault unit cannot contain (R141). The handler's s1 to s3 hold the code, index and
value of this exception, also where EXC_CAUSE keeps an earlier one (DESIGN CHOICE, log entry 43: R133 and R142 do not say). A halted engine meets no further
exception: only a reset of its core starts it again (R95). -/
def raiseExc (c e code pc : Nat) (notInstr : Bool) (value : Word) (s : State) : State :=
  if (eng s c e).st = .halted then s
  else
  let s1 := coreFault c 8 e 7 0 (recordExc c e code pc notInstr value s)
  let inExc := match (eng s c e).handler with
    | some h => h.kind == 1
    | none => false
  let s2 := endHandler c e s1
  if inExc || !handlerBound s c e 1 then
    s2 |> haltEng c e |> coreFaultUp c 8 e 7 0 3
  else
    startHandler c e (getF s (Reg.eng_HVEC_ENTRY c e 1))
      ⟨1, getF s (Reg.eng_CUR_SLOT_SLOT c e), getF s (Reg.eng_CUR_STEP_STEP c e), true⟩
      (BitVec.ofNat 32 code) (BitVec.ofNat 32 (pc % 4096 + 4096 * bnat notInstr)) value s2

/-! ### Error correction as the engines meet it (R96-R98) -/

/-- The first access to meet an uncorrectable word halts its engine (R98); `none` of the rest happens. -/
def storeHalt (c e o : Nat) (s : State) : State :=
  s |> haltEng c e |> coreFaultUp c 1 e (storeOf o).1 (o - (storeOf o).2) 1

/-- The offsets of the protected words that `n` bytes at window offset `o` touch. -/
def storeWords (o n : Nat) : List Nat :=
  let w := storeWord (storeOf o).1
  (List.range ((o % w + n + w - 1) / w)).map (fun i => o / w * w + w * i)

/-- Engine `e` reads the protected words at the window offsets of a list, in order: a two-bit error halts the engine at that
access, single-bit errors are corrected, then `body` (R97, R98). -/
def localWords (c e : Nat) : List Nat → (State → State) → State → State
  | [], body, s => body s
  | w :: r, body, s => if eccAt s (eccWordOf c w) = 2 then storeHalt c e w s else localWords c e r body (coreEccFix c e w s)

/-- A local access by engine `e` of `n` bytes at window offset `o` (R97, R98). -/
def localAccess (c e o n : Nat) (body : State → State) (s : State) : State := localWords c e (storeWords o n) body s

/-- Words that are written whole are not read: an error that stood in one is gone (R97). -/
def wroteWhole (c : Nat) (ws : List Nat) (s : State) : State := ws.foldl (fun t w => clearEcc (eccWordOf c w) t) s

/-- `n` bytes at window offset `o` are whole protected words of a store whose bits a program writes all of. -/
def wholeWords (o n : Nat) : Bool :=
  decide ((storeOf o).1 ≠ 0) && decide (o % storeWord (storeOf o).1 = 0) && decide (n % storeWord (storeOf o).1 = 0)

/-- A local write by engine `e` of `n` bytes at `o`: one narrower than a protected word reads it first (R97). -/
def localUpdate (c e o n : Nat) (body : State → State) (s : State) : State :=
  if wholeWords o n then body (wroteWhole c (storeWords o n) s) else localAccess c e o n body s

/-! ### Issue -/

/-- Registers whose result is still awaited from a slice: scalar `r`, or 100 + `v` for a vector register (R104). -/
def awaited (s : State) (c e : Nat) : List Nat :=
  (eng s c e).reads.map (fun r => if r.vector then 100 + r.dst else r.dst)

/-- The SQ stalls while wicket commands it has issued have found no credit (R73). -/
def sqStalls (s : State) (c e : Nat) : Bool := e == 5 && !(core s c).sqOut.isEmpty

/-- The engine runs a handler, is not held, and awaits none of the registers the instruction names. An instruction that
writes a register still awaiting a slice result stalls as one that reads it does (DESIGN CHOICE, log entry 12: R104 speaks of
one that reads it). -/
def canIssue (s : State) (c e : Nat) (uses : List Nat) : Bool :=
  decide (e < 6) && engRuns s c && (eng s c e).st == .run && (eng s c e).handler.isSome && !sqStalls s c e &&
  uses.all (fun r => !(awaited s c e).contains r)

/-- The engine stands at an instruction boundary of a handler. -/
def atBoundary (s : State) (c e : Nat) : Bool := (eng s c e).handler.isSome && (eng s c e).st == .run

/-- The fetch lies in PROG_RANGE_e (R87, R105). -/
def fetchOk (s : State) (c e : Nat) : Bool :=
  decide (getF s (Reg.core_PROG_RANGE_FIRST c e) ≤ (eng s c e).pc) &&
  decide ((eng s c e).pc ≤ getF s (Reg.core_PROG_RANGE_LAST c e))

/-- The instruction retires: pc + 1, RETIRED + 1. -/
def retire (c e : Nat) (s : State) : State :=
  s |> modEng c e (fun g => { g with pc := g.pc + 1 }) |> incWrap (Reg.eng_RETIRED_COUNT c e)

/-- The instruction retires to another index. -/
def retireTo (c e target : Nat) (s : State) : State :=
  s |> modEng c e (fun g => { g with pc := target }) |> incWrap (Reg.eng_RETIRED_COUNT c e)

def exc (c e code : Nat) (value : Word) (s : State) : State := raiseExc c e code (eng s c e).pc false value s

/-- An exception of an instruction without a source operand: EXC_VALUE takes a free value (R142 names none for it). -/
def excFree (c e code : Nat) (s : State) : State := spendFree (exc c e code (freeWord s) s)

/-- The word at the engine's program counter has an assigned major opcode and function code (R109). -/
def wordAssigned (s : State) (c e : Nat) : Bool :=
  (acisDecode ⟨c, e, 0, rdNum s (coreBase c + 0x3C000 + 4 * (eng s c e).pc) 4⟩).isSome

/-- The fetch of the instruction at the program counter reads a word of the instruction store (R96-R98, R105). One without an
assigned opcode or function code raises ILLEGAL, whatever command was given; it names no source operand (R109, R142). -/
def fetch (c e : Nat) (body : State → State) (s : State) : State :=
  localAccess c e (0x3C000 + 4 * (eng s c e).pc) 4 (fun t => if wordAssigned t c e then body t else excFree c e 1 t) s

/-- One instruction of engine `e`: nothing while it cannot issue; FETCH_RANGE (R105); ILLEGAL (R109) with the first source
operand `v`; else its own effect. -/
def issue (c e : Nat) (uses : List Nat) (illegal : Bool) (v : Word) (body : State → State) (s : State) : State :=
  if !canIssue s c e uses then s
  else if !fetchOk s c e then exc c e 2 (BitVec.ofNat 32 (eng s c e).pc) s
  else fetch c e (fun t => if illegal then exc c e 1 v t else body t) s

/-- `issue` for an instruction without a source operand. -/
def issueFree (c e : Nat) (uses : List Nat) (illegal : Bool) (body : State → State) (s : State) : State :=
  if !canIssue s c e uses then s
  else if !fetchOk s c e then exc c e 2 (BitVec.ofNat 32 (eng s c e).pc) s
  else fetch c e (fun t => if illegal then excFree c e 1 t else body t) s

/-- The engine waits in its instruction. -/
def waitFor (c e : Nat) (st : EngState) (w : Wait) (s : State) : State :=
  modEng c e (fun g => { g with st := st, wait := w }) s

/-- The waiting instruction completes. -/
def resumeEng (c e : Nat) (s : State) : State :=
  s |> modEng c e (fun g => { g with st := .run, wait := .none }) |> retire c e

/-- A waiting instruction of a running engine goes on: `body`, or nothing. -/
def whileRuns (c : Nat) (body : State → State) (s : State) : State := if engRuns s c then body s else s

/-- The protected words that an access to a queue reads: the descriptor, the entries held of a combining queue, and for a pop
the entry at the head. -/
def qWords (s : State) (c q : Nat) (pop : Bool) : List Nat :=
  storeWords (0x3A000 + 16 * q) 16 ++
    (if qKind s c q = 1 then (List.range (min (qCount s c q) 16)).map (fun i => 0x38000 + 128 * q + 8 * ((qHead s c q + i) % 16))
     else if pop && qKind s c q != 2 then [0x38000 + 128 * q + 8 * qHead s c q] else [])

/-- A requester outside the core reads protected words: `none` where one is uncorrectable, which is a bus error; single-bit errors
are corrected (R97, R98). -/
def outsideMeet (c : Nat) (ws : List Nat) (s : State) : Option State :=
  if ws.any (fun w => eccAt s (eccWordOf c w) == 2) then none else some (ws.foldl (fun t w => coreEccFix c 7 w t) s)

/-! ### Local stores seen by programs (R112, R113) -/

/-- The bits of a record's word at window offset `o` that engine `e` may write (R52, R113), as a mask over `n` bytes. -/
def somaMask (compact : Bool) (e o n : Nat) : Nat :=
  let all := if compact then (if e = 2 then 0x0000F0FFFFFFFFFF else 0xFFFF000000000000)
    else (if e = 2 then 0xFFFFFFFFFFFFFFFF + 0xF0 * 2 ^ 64 else 0xFFFF * 2 ^ 80)
  let len := if compact then 8 else 16
  all / 2 ^ (8 * (o % len)) % 2 ^ (8 * n)

/-- Engine `e` may store to window offset `o` (R113). -/
def storeOk (e o n : Nat) : Bool :=
  (decide (o < 0x20000) && (e == 2 || e == 3)) ||
  (decide (0x32600 ≤ o) && decide (o + n ≤ 0x38000) && (e == 1 || e == 3))

/-- Write `n` bytes at window offset `o`, masked in the soma store (R113). -/
def localWrite (c e o n v : Nat) (s : State) : State :=
  let a := coreBase c + o
  if o < 0x20000 then
    let m := somaMask (isSet s (Reg.core_CORE_CFG_FMT c)) e o n
    let old := rdNum s a n
    wrNum a n ((v &&& m) ||| (old &&& (2 ^ (8 * n) - 1 - m))) s
  else wrNum a n v s

end Sys2Proof.Machine
end

