-- ==== Sys2Proof/Machine/CtxOps.lean ====
section
/-! DEFINITION. The context table: descriptors with their mirror (R317, R318), the states of a context and its slots
(R319-R322), and the wickets that are due (R204, R210). -/

namespace Sys2Proof.Machine

/-! ### The two copies of a descriptor (R317) -/

def descOff (s : State) (ctx : Nat) : Nat := cttBase s + 64 * ctx
def descAt (s : State) (ctx : Nat) : Nat := viewBase + descOff s ctx
def mirrorAt (s : State) (ctx : Nat) : Nat := getF s Reg.ctt_CTT_MIRROR_ADDR * 4096 + 64 * ctx

/-- The slice that holds the descriptor takes accesses. -/
def descUp (s : State) (ctx : Nat) : Bool :=
  let b := (sliceOf s.variant (descOff s ctx)).1
  decide (descOff s ctx + 64 ≤ viewLen s.variant) && !regionDown s (regionOfBlock b) && !sliceRetained s b &&
    !rowRetired s b (sliceOf s.variant (descOff s ctx)).2

def sliceCopyOk (s : State) (ctx : Nat) : Bool :=
  descUp s ctx && (words8 (descAt s ctx) 64).all (fun w => eccAt s w != 2)

/-- The mirror can be read; a read that meets a channel in training waits, and is answered from what waits (R426). -/
def mirrorCopyOk (s : State) (ctx : Nat) : Bool :=
  mainTakes s (mirrorAt s ctx) 64 &&
    (!isSet s Reg.mem_MEM_CFG_ECC_EN || (words8 (mirrorAt s ctx) 64).all (fun w => eccAt s w != 2))

/-- Neither copy of the descriptor can be read. -/
def descLost (s : State) (ctx : Nat) : Bool := !sliceCopyOk s ctx && !mirrorCopyOk s ctx

/-- The address of the copy that a read uses. -/
def descRead (s : State) (ctx : Nat) : Nat := if sliceCopyOk s ctx then descAt s ctx else mirrorAt s ctx

/-- Memory as a read that waits for its channel will find it: the writes that wait have been carried out (R426). -/
def memSoon (s : State) : Memory :=
  s.memWait.foldl (fun m w => match w.op with
    | .write bs => if mainBase ≤ w.addr then setBytes w.addr bs m else m
    | _ => m) s.mem

/-- The controller reads the descriptor: the slice, and the mirror where the slice's copy cannot be read, correct, count and report
what they meet (R418, R421, R424). -/
def descMeet (ctx : Nat) (s : State) : State :=
  let t := (sliceDo .ctt (descOff s ctx) (.read 64) 0 s).st
  if sliceCopyOk s ctx || mainWaits t (mirrorAt t ctx) 64 then t else (mainRead (mirrorAt t ctx) 64 t).st

/-- Write all 64 bytes of both copies; a copy that cannot be written stays as it is. -/
def descWrite (ctx : Nat) (bs : List Byte) (s : State) : State :=
  let t := (sliceDo .ctt (descOff s ctx) (.write bs) 0 s).st
  (mainWrite (mirrorAt t ctx) bs t).1

/-- Bits `[lo + w - 1 : lo]` of a descriptor, counted from bit 0 of word 0. -/
def dGet (s : State) (ctx lo w : Nat) : Nat := getBits (memSoon s) (descRead s ctx) lo w

/-- One field update: one write to both copies that changes only its field (R318). -/
def dPut (ctx lo w v : Nat) (s : State) : State :=
  descWrite ctx (getBytes (setBits (descRead s ctx) lo w v (memSoon s)) (descRead s ctx) 64) (descMeet ctx s)

/-! ### The fields of R318 -/

def dState (s : State) (c : Nat) : Nat := if descLost s c then stFaulted else dGet s c 0 3
def dProt (s : State) (c : Nat) : Bool := dGet s c 3 1 == 1
def dRecovering (s : State) (c : Nat) : Bool := dGet s c 4 1 == 1
def dMarked (s : State) (c : Nat) : Bool := dGet s c 5 1 == 1
def dRingEn (s : State) (c : Nat) : Bool := dGet s c 6 1 == 1
def dCkptNew (s : State) (c : Nat) : Nat := dGet s c 7 1
def dCkptValid (s : State) (c : Nat) : Nat := dGet s c 8 2
def dRing (s : State) (c : Nat) : Nat := dGet s c 16 8
def dK (s : State) (c : Nat) : Nat := dGet s c 24 12 + 1
def dPhase (s : State) (c : Nat) : Nat := dGet s c 36 12
def dContrib (s : State) (c : Nat) : Nat := dGet s c 48 11
def dStart (s : State) (c : Nat) : Nat := dGet s c 64 64
def dBudget (s : State) (c : Nat) : Nat := dGet s c 128 32
def dRouteDx (s : State) (c : Nat) : Nat := dGet s c 160 5
def dRouteDy (s : State) (c : Nat) : Nat := dGet s c 165 5
def dRouteMc (s : State) (c : Nat) : Nat := dGet s c 170 1
def dRouteEpoch (s : State) (c : Nat) : Nat := dGet s c 171 4
def dIseq (s : State) (c : Nat) : Nat := dGet s c 192 64
def dOseq (s : State) (c : Nat) : Nat := dGet s c 256 32
def dOseqHigh (s : State) (c : Nat) : Nat := dGet s c 288 32
/-- The address of checkpoint buffer `b`, and the size of each in bytes. -/
def dCkpt (s : State) (c b : Nat) : Nat := dGet s c (320 + 28 * b) 28 * 4096
def dCkptSize (s : State) (c : Nat) : Nat := dGet s c 376 8 * 4096
def dRefusals (s : State) (c : Nat) : Nat := dGet s c 384 32
def dTrigStep (s : State) (c : Nat) : Nat := dGet s c 416 32
def dResult (s : State) (c : Nat) : Nat := dGet s c 448 64

def setDState (c v : Nat) (s : State) : State := dPut c 0 3 v s
def setDRecovering (c : Nat) (v : Bool) (s : State) : State := dPut c 4 1 (bnat v) s
def setDStart (c v : Nat) (s : State) : State := dPut c 64 64 v s

/-! ### Contexts in use -/

def ctxRun (s : State) (c : Nat) : CtxRun := tget {} c s.ctxs
def modCtx (c : Nat) (f : CtxRun → CtxRun) (s : State) : State := { s with ctxs := tset c (f (ctxRun s c)) s.ctxs }

/-- The contexts that have been loaded and not freed. -/
def ctxList (s : State) : List Nat := s.ctxs.map (·.1)

/-- RUNNING, OVERRUN or DRAINING: the hold set of R204. -/
def inHold (s : State) (c : Nat) : Bool := atWork (dState s c)

/-- A running state: RUNNING, OVERRUN, PAUSED or DRAINING (R547). -/
def running (s : State) (c : Nat) : Bool := inHold s c || dState s c == stPaused

/-- Every slot of the context takes a STATE (R319). -/
def putSlots (ctx v : Nat) (s : State) : State := (slotsOf s ctx).foldl (fun t p => setSlotState p.1 p.2 v t) s

/-- The cores that hold a slot of the context. -/
def coresOfCtx (s : State) (ctx : Nat) : List Nat := ((slotsOf s ctx).map (·.1)).eraseDups

def tbWicket (s : State) : Nat := getF s Reg.tb_TB_WICKET_WICKET

/-- The wicket of the current chip wicket is due and unreleased (R204, R210); the timebase does not wait for a context in
recovery (R343). -/
def wicketDue (s : State) (c : Nat) : Bool :=
  inHold s c && !dRecovering s c && decide (dStart s c + (ctxRun s c).released ≤ tbWicket s)

/-- TB_STATE.PENDING. -/
def pendingCtxs (s : State) : List Nat := (ctxList s).filter (wicketDue s)

def recoveringCtxs (s : State) : List Nat := (ctxList s).filter (dRecovering s)

/-! ### Close of a step, and the end of a context's run -/

/-- The tag of a contribution: the context number and bits [1:0] of the step (R208). -/
def sumKey (ctx n : Nat) : Nat := 4 * ctx + n % 4

/-- The step-done network discards what carries the context's number (R547). -/
def discardContribs (ctx : Nat) (s : State) : State :=
  { s with contribs := s.contribs.filter (fun k => k.ctx != ctx), sums := s.sums.filter (fun p => p.1 / 4 != ctx) }

/-- Records in the journal engine's buffer and those written give the index of the next (R333, R336). -/
def jrnIndex (s : State) : Nat := getF s Reg.jrn_JRN_HEAD_INDEX + s.journal.length

/-- A boundary may have become due on the cores of the context (R268). -/
def boundariesDue (ctx : Nat) (s : State) : State := (coresOfCtx s ctx).foldl (fun t c => boundaryStart c t) s

/-- A context that the chip fault manager has told to pause still runs (R389). -/
def pausesOn (s : State) : Bool :=
  (ctxList s).any (fun c => (ctxRun s c).pausing && (dState s c == stRunning || dState s c == stOverrun))

/-- The records of a pause of every context show its end (R341, R389). -/
def pausesEnd (s : State) : State :=
  if (fmUsed s Reg.fmChip_FM_STATUS).isEmpty || pausesOn s then s else actsEnd (· == 14) 13 (fun _ => true) s

/-- The context enters a state; FAULTED sets its event (R349). -/
def enterState (ctx v : Nat) (s : State) : State :=
  (if v = stFaulted then flagF Reg.ctt_CTX_EVENTS_EVENTS 2 s else s) |> setDState ctx v |> putSlots ctx v |> boundariesDue ctx
    |> pausesEnd

/-- The entries of a record that waits to be written: its words without the header and without the empty half-unit that
ODD, bit 11 of word 0, tells (R326). -/
def recEntries (o : OutRec) : Nat := o.words.length - 2 - (o.words.headD 0) / 2 ^ 11 % 2

/-- Entries that the Output Collector holds (R324). -/
def collectorLoad (s : State) : Nat := s.results.length + s.records.foldl (fun n r => n + recEntries r) 0

/-! ### The journal's oldest record (R337) -/

/-- JPOS of the checkpoint in buffer `b`. -/
def ckptJpos (s : State) (ctx b : Nat) : Nat := rdNum s (dCkpt s ctx b + 16) 8

/-- JRN_TAIL follows the valid checkpoints; with none it stays. -/
def tailUpdate (s : State) : State :=
  let ps := (ctxList s).flatMap (fun c =>
    if dProt s c && dState s c != stFree then
      ((List.range 2).filter (fun b => bitN (dCkptValid s c) b)).map (ckptJpos s c)
    else [])
  match ps with
  | [] => s
  | p :: r => putF Reg.jrn_JRN_TAIL_INDEX (r.foldl min p) s

/-- The fields that LOAD writes as zero, but for STATE (R320); CLEAR and FREE write them too (R318). -/
def zeroLoadFields (ctx : Nat) (s : State) : State :=
  s |> dPut ctx 4 1 0 |> dPut ctx 7 3 0 |> dPut ctx 10 3 0 |> dPut ctx 192 128 0 |> dPut ctx 384 128 0

/-! ### Recovery sequences (R342, R349) -/

/-- The context takes no further part in the recoveries in hand: it begins one again, or is FAULTED. -/
def leaveRecov (ctx : Nat) (s : State) : State :=
  let rs := s.recovs.map (fun r => { r with ctxs := r.ctxs.filter (· != ctx) })
  { s with recovs := rs.filter (fun r => !r.ctxs.isEmpty || r.reset)
           recovRuns := (s.recovRuns.map (·.filter (· != ctx))).filter (fun l => !l.isEmpty) }

/-- A recovery sequence starts (R342). -/
def startRecov (r : Recov) (s : State) : State :=
  { s with recovs := s.recovs ++ [r], recovRuns := if r.ctxs.isEmpty then s.recovRuns else s.recovRuns ++ [r.ctxs] }

/-- The replay of a context ends: its sequence is completed with the last of its contexts. A sequence whose last context becomes
FAULTED instead is not counted (DESIGN CHOICE, log entry 50). -/
def endRecov (ctx : Nat) (s : State) : State :=
  let t := { s with recovRuns := (s.recovRuns.map (·.filter (· != ctx))).filter (fun l => !l.isEmpty) }
  if s.recovRuns.any (fun l => l.contains ctx && l.all (· == ctx)) then
    t |> incSat Reg.ctt_RECOV_COUNT_COUNT |> wrWord Reg.ctt_RECOV_LAST_US (freeWord t) |> spendFree
  else t

end Sys2Proof.Machine
end

