-- ==== Sys2Proof/Machine/TimerOps.lean ====
section
/-! DEFINITION. What the timers read of each other and of the pins (R434-R438, R440), and the chip-port routers (R17). -/

namespace Sys2Proof.Machine

/-- The routers of the chip ports, by port (R17). -/
def chipRouters : List Nat := [294, 201, 310, 217, 806, 713, 822, 729]

/-- CLK_SRC as it takes effect (R434). -/
def clkSrc (s : State) (n : Nat) : Nat :=
  let v := getF s (Reg.tmr_TMR_CFG_CLK_SRC n)
  if 4 ≤ v ∨ (n = 0 ∧ v = 1) then 0 else v

/-- The master of timer `n`; a link to itself has no effect (R438). -/
def masterOf (s : State) (n : Nat) : Option Nat :=
  let m := getF s (Reg.tmr_TMR_LINK_MASTER n)
  if m = n then none else some m

/-- MEVENT as it takes effect: 3 is taken as 0. -/
def mevent (s : State) (n : Nat) : Nat := getF s (Reg.tmr_TMR_LINK_MEVENT n) % 3

/-- The gate of timer `n` is open (R435). GATE 6 of a timer linked to itself has no effect. -/
def gateOpen (s : State) (n : Nat) : Bool :=
  let g := getF s (Reg.tmr_TMR_CFG_GATE n)
  let lvl := isSet s (Reg.tmr_TMR_CFG_GATE_LVL n)
  if g = 0 ∨ 7 ≤ g then true
  else if g ≤ 4 then bitN s.pins.trigIn (g - 1) == lvl
  else if g = 5 then (getF s Reg.tb_TB_STATE_STATE == 2) == lvl
  else match masterOf s n with
    | some m => isSet s (Reg.tmr_TMR_STATUS_OUT m) == lvl
    | none => true

/-- Timer `n` continues the chain of timer `n - 1` (R436). -/
def chained (s : State) (n : Nat) : Bool := clkSrc s n == 1

/-- CMP_JOIN as it takes effect (R440). -/
def joined (s : State) (n : Nat) : Bool := isSet s (Reg.tmr_TMR_CFG_CMP_JOIN n) && chained s n

/-- The lowest timer reached from `n` downward while `f` holds: `k` steps at most. -/
def lowest (f : Nat → Bool) : Nat → Nat → Nat
  | 0, n => n
  | k + 1, n => if f n then lowest f k (n - 1) else n

/-- The number of timers above `n` that `f` joins to it. -/
def above (f : Nat → Bool) : Nat → Nat → Nat
  | 0, _ => 0
  | k + 1, n => if n + 1 < 32 ∧ f (n + 1) then 1 + above f k (n + 1) else 0

def chainBase (s : State) (n : Nat) : Nat := lowest (chained s) 32 n
def chainLen (s : State) (base : Nat) : Nat := 1 + above (chained s) 32 base
/-- The lowest and the top member of the joined group of timer `n`. -/
def groupLow (s : State) (n : Nat) : Nat := lowest (joined s) 32 n
def groupTop (s : State) (n : Nat) : Nat := n + above (joined s) 32 n

end Sys2Proof.Machine
end

