-- ==== Sys2Proof/Machine/Live.lean ====
section
/-! DEFINITION. Reads of registers whose value follows other state (levels, states, identification), and the read of any
32-bit word of a register block with what the read itself changes (R9, R31, R36-R39). -/

namespace Sys2Proof.Machine

/-! ### Summary bits of CHIP_STATUS (R45) -/

/-- `a` is a BLK_STATUS word. -/
def isBlkStatus (a : Nat) : Bool :=
  match findBlock a with
  | some b => b.gov == .own && blockOff b a == 4
  | none => false

def anyFault (s : State) : Bool := s.fmOrder.any (fun p => !p.2.isEmpty)
def anyIgnored (s : State) : Bool := s.csr.any (fun p => p.2.getLsbD 1 && isBlkStatus p.1)
def anyDefaulted (s : State) : Bool := s.csr.any (fun p => p.2.getLsbD 2 && isBlkStatus p.1)

/-- WRITE_IGNORED of the block at `a` is set; CHIP_EVENTS notes that one is set where none was (R42, R45). -/
def setIgnored (a : Nat) (s : State) : State :=
  (if anyIgnored s then s else setF Reg.glob_CHIP_EVENTS_WRITE_IGNORED_SEEN s) |> setF (ignoredRef a)

/-- CFG_DEFAULTED of the block at `a` is set (R40, R45). -/
def setDefaulted (a : Nat) (s : State) : State :=
  (if anyDefaulted s then s else setF Reg.glob_CHIP_EVENTS_CFG_DEFAULTED_SEEN s) |> setF (defaultedRef a)

/-- CHIP_STATUS.STATE takes a value (R45). -/
def setChipState (v : Nat) (s : State) : State :=
  if chipState s = v then s else s |> putF Reg.glob_CHIP_STATUS_STATE v |> setF Reg.glob_CHIP_EVENTS_STATE_CHANGED

/-- A PLL of R455 has locked. -/
def lockPll (bit : Nat) (s : State) : State :=
  putF Reg.clk_CLK_STATUS_LOCK (setBitN (getF s Reg.clk_CLK_STATUS_LOCK) bit true) s

/-! ### Computed words -/

def variantCode : Variant → Nat
  | .ay1024 => 0x40
  | .ay768 => 0x30
  | .ay512 => 0x20

def regionMask : Variant → Nat
  | .ay1024 => 0xF
  | .ay768 => 0x7
  | .ay512 => 0x3

def ethMask : Variant → Nat
  | .ay512 => 0x1
  | _ => 0x3

/-- Every channel present reads UP or RETRAINING (R431). -/
def memReady (s : State) : Bool :=
  (List.range (memChannels s.variant)).all (fun ch => chState s ch == chUp || chState s ch == chRetraining)

/-- CLUSTER_UP (R388): the lead core is released and out of reset, and has kicked its watchdog since or has it off. -/
def clusterUp (s : State) : Bool :=
  let l := getF s Reg.cl_CL_CFG_LEAD
  bitN (getF s Reg.cl_CL_CORE_STATUS_RUN) l && (s.cluster.kicked.contains l || !isSet s (Reg.cl_CL_WDOG_EN l))

/-- FAULT_ANY: an unresolved record, or the failure that stopped bring-up (R45, R468). -/
def faultAny (s : State) : Bool := anyFault s || isSet s Reg.rst_BIST_INFO_VALID

/-- A field of entry F holds its fused value once the fuses are loaded, and zero before (R44; DESIGN CHOICE, log entry 2). -/
def fused (s : State) (n : Nat) : Nat := if isSet s Reg.glob_FUSE_STATUS_LOADED then n else 0

/-- The global block (R45, R46). -/
def liveGlob (s : State) (off : Nat) (v : Word) : Word :=
  if off = 0 then BitVec.ofNat 32 (0xAE + fused s (2 ^ 28 + Config.revMajor % 16 * 2 ^ 20 + Config.revMinor % 16 * 2 ^ 16
      + variantCode s.variant * 256))
  else if off = 8 then BitVec.ofNat 32 (fused s Config.serial)
  else if off = 12 then BitVec.ofNat 32 (fused s (Config.serial / 2 ^ 32))
  else if off = 0x10 then
    BitVec.ofNat 32 (fused s (0x7800 + memChannels s.variant * 64 + ethMask s.variant * 16 + regionMask s.variant))
  else if off = 0x20 then
    BitVec.ofNat 32 (v.toNat % 8 + fused s (Config.fuseSpares % 65 * 256 + Config.fuseRows % 256 * 65536))
  else if off = 0x30 then BitVec.ofNat 32 (setBitN (setBitN (v.toNat % 0x2000) 8 (memReady s)) 12 (clusterUp s) + 0x2000 * bnat (anyDefaulted s) + 0x4000 * bnat (anyIgnored s)
      + 0x8000 * bnat (faultAny s))
  else v

/-- Engine `e` has work: its program is not at rest, a happening waits, or its input queue holds work (R94, R101). -/
def engBusy (s : State) (c e : Nat) : Bool :=
  let k := core s c
  let g := eng s c e
  g.handler.isSome || !g.happen.isEmpty ||
    (match e with
     | 0 => !k.ingress.isEmpty || !k.hold.isEmpty || k.fanout.isSome || !k.forming.isEmpty
     | 1 => !k.ops.isEmpty || !k.late.isEmpty || !k.seCmd.isEmpty
     | 2 => !k.soCmd.isEmpty
     | 3 => !k.pre.isEmpty || !k.post.isEmpty || !k.preReady.isEmpty || !k.postReady.isEmpty
     | 4 => !k.fire.isEmpty
     | _ => !k.ctrl.isEmpty || !k.sqOut.isEmpty || !k.stepReady.isEmpty)

/-- CORE_STATE (R101). -/
def liveCoreState (s : State) (c : Nat) : Word :=
  BitVec.ofNat 32 (bnat (quiescent s c)
    + (List.range 6).foldl (fun n e => n + bnat (engBusy s c e) * 2 ^ (8 + e)) 0
    + (slotsInUse s c).countP (fun k => atWork (slotState s c k)) * 2 ^ 16)

def engStateCode : EngState → Nat
  | .idle => 0
  | .run => 1
  | .waitQueue => 2
  | .waitSync => 3
  | .halted => 4

/-- QUEUE_STATUS (R73, R102). Of the SQ's ten control queues the spec gives words to three: from the IE, to the SO and to the SE;
the others stay empty (log entry 13). -/
def liveQueueStatus (s : State) (c e : Nat) : Word :=
  let k := core s c
  let lv : Nat × Nat × Nat := match e with
    | 0 => (k.ingress.length, 32 - k.ops.length, k.hold.length)
    | 1 => (k.ops.length, 0, k.late.length)
    | 2 => (k.soCmd.length, 64 - k.fire.length, 0)
    | 3 => (k.pre.length + k.preReady.length + k.post.length + k.postReady.length, 0, 0)
    | 4 => (k.fire.length, 16 - k.send.length, 0)
    | _ => (k.ctrl.length, 8 - max k.soCmd.length k.seCmd.length, 0)
  BitVec.ofNat 32 (lv.1 % 256 + lv.2.1 % 256 * 256 + lv.2.2 % 256 * 65536)

/-- The reason with which a receiving core refuses an arrival at queue `q` under checks 2 and 3 of R160. A SLOT above 0x100 is taken as
0x100, the core as a whole (DESIGN CHOICE, log entry 17: the table gives 0 to 255 and 0x100 alone). -/
def queueRefuses (s : State) (c q : Nat) : Option Nat :=
  let slot := qSlot s c q
  let st := if slot < 256 then (if rdBits s (slotBase c slot) 48 1 = 1 then slotState s c slot else stFree) else stRunning
  if coreSilent s c || st == stFaulted then some 2
  else if !qOpen s c q || !qRemote s c q || qKind s c q == 3 || st == stFree || st == stLoaded then some 1
  else none

/-- QLEVEL_q (R169): OPEN and AVAIL follow the queue. -/
def liveQlevel (s : State) (c q : Nat) (v : Word) : Word :=
  BitVec.ofNat 32 (v.toNat / 2 ^ 27 % 8 * 2 ^ 27 + qReadable s c q % 2 ^ 24 + bnat ((queueRefuses s c q).isNone) * 2 ^ 31)

/-- The entry a peek of QDATA_q returns; zero where READER is not the external port or nothing is held (R151). -/
def liveQdata (s : State) (c q : Nat) : Nat := if qReader s c q = 6 then (qPeek s c q).getD 0 else 0

/-- LRN_STATUS (R277): SET is the set whose sequence runs, or else the lowest with slots that wait at a boundary, or else that of
the last; WAITING counts its slots that wait (R268). -/
def liveLrnStatus (s : State) (c : Nat) (v : Word) : Word :=
  let i := ((core s c).applying.orElse (fun _ => (List.range 4).find? (fun i => !(waitingSlots s c i).isEmpty))).getD
    (v.toNat / 256 % 4)
  BitVec.ofNat 32 ((waitingSlots s c i).length % 256 + i % 4 * 256 + bnat (core s c).applying.isSome * 65536)

def liveEng (s : State) (c e off : Nat) (v : Word) : Word :=
  if off = 0 then BitVec.ofNat 32 (engStateCode (eng s c e).st + (eng s c e).pc % 4096 * 65536)
  else if off = 0x10 then liveQueueStatus s c e
  else if e = 3 ∧ off = 0x40 then liveLrnStatus s c v
  else if e = 3 ∧ off = 0x1BC then BitVec.ofNat 32 (tget 0 (getF s (Reg.eng_CUR_SLOT_SLOT c e)) (core s c).modNow)
  else if e = 5 ∧ 0x500 ≤ off ∧ off < 0x600 then liveQlevel s c ((off - 0x500) / 4) v
  else if e = 5 ∧ 0x600 ≤ off ∧ off < 0x800 then
    BitVec.ofNat 32 (liveQdata s c ((off - 0x600) / 8) / 2 ^ (32 * ((off - 0x600) / 4 % 2)))
  else v

/-- Records in use of a fault handler page, and the oldest (R352). -/
def liveFmStatus (s : State) (page : Nat) : Word :=
  BitVec.ofNat 32 ((match (fmUsed s page).head? with
    | some i => i
    | none => 0x7F) + (fmUsed s page).length * 65536)

/-- The words of a protection set-up, as PROT_LIVE shows them (R512). -/
def windowWords (w : Window) : List Nat :=
  [w.base % 2 ^ 28, w.last % 2 ^ 28, w.rd % 256 + w.wr % 256 * 256 + bnat w.valid * 2 ^ 16, 0]

def protWords (p : Prot) : List Nat :=
  p.windows.flatMap windowWords ++
  [bnat p.hostEn + 2 * bnat p.bar2En + 4 * bnat p.segHost + 8 * (p.rstHost % 16), 0, p.defOwner % 2 ^ 25, p.forbid % 2 ^ 9,
   bnat p.dbgUnlock + 2 * (p.dbgScope % 8), 0]

/-- Cluster-pending of source `n` (R391). -/
def sicPending (s : State) (n : Nat) : Bool :=
  s.sic.edge.contains n || (sicLevel s n && !s.sic.inService.contains n)

/-- The source that context `x` would claim: PRIORITY above the threshold, highest first, then lowest number (R391). -/
def sicBest (s : State) (x : Nat) : Option Nat :=
  let prio (n : Nat) : Nat := getF s (Reg.sic_SIC_SRC_PRIORITY n)
  let ok (n : Nat) : Bool := sicPending s n && bitN (getF s (Reg.sic_SIC_SRC_TARGETS n)) (x / 2) &&
    (getF s (Reg.sic_SIC_SRC_SUP n) == x % 2) && decide (getF s (Reg.sic_SIC_THRESH_THRESH x) < prio n)
  (List.range 512).foldl (fun best n =>
    if ok n then
      match best with
      | none => some n
      | some m => if prio m < prio n then some n else some m
    else best) none

/-- 32 flags as a word. -/
def flagWord (f : Nat → Bool) (base : Nat) : Word :=
  BitVec.ofNat 32 ((List.range 32).foldl (fun n i => n + bnat (f (base + i)) * 2 ^ i) 0)

/-- The SIC's flag words, and SIC_CLAIM as a peek sees it (R391, R392). -/
def liveSic (s : State) (off : Nat) (v : Word) : Word :=
  if 0x1000 ≤ off ∧ off < 0x1080 then flagWord (sicPending s) ((off - 0x1000) / 4 * 32)
  else if 0x1080 ≤ off ∧ off < 0x1100 then flagWord (fun n => s.sic.host.contains n) ((off - 0x1080) / 4 * 32)
  else if 0x2000 ≤ off ∧ off % 64 = 4 then
    match sicBest s ((off - 0x2000) / 64) with
    | some n => BitVec.ofNat 32 (2 ^ 31 + n)
    | none => 0
  else v

/-- RUNNING of a DMA channel: enabled, not halted, and a descriptor is posted that is not completed (R399). -/
def pdmaRunning (s : State) (c : Nat) : Bool :=
  isSet s (Reg.pdma_PDMA_CTRL_EN c) && !isSet s (Reg.pdma_PDMA_STATUS_HALTED c) &&
    getF s (Reg.pdma_PDMA_HEAD_HEAD c) != getF s (Reg.pdma_PDMA_TAIL_TAIL c)
def sdmaRunning (s : State) (c : Nat) : Bool :=
  isSet s (Reg.sdma_SDMA_CTRL_EN c) && !isSet s (Reg.sdma_SDMA_STATUS_HALTED c) &&
    getF s (Reg.sdma_SDMA_HEAD_HEAD c) != getF s (Reg.sdma_SDMA_TAIL_TAIL c)

/-- PORT_PRESENT of router `r` (R201), in the order E, W, N, S, LOCAL, EXTRA. -/
def portsPresent (s : State) (r : Nat) : Nat :=
  let here := regionPresent s.variant (regionOfCore r)
  15 + 16 * bnat here + 32 * bnat (here && (r == centralRouter (blockOfCore r) || chipRouters.contains r))

/-- RST_STATUS as `p` reads it (R473): RESULT of its last request, and the reset that runs. -/
def liveRst (s : State) (res : Nat) (v : Word) : Word :=
  BitVec.ofNat 32 (res % 256 + v.toNat / 256 % 2 ^ 20 * 256 + (match s.resets with
    | [] => 0
    | r :: _ => 2 ^ 31 + r.kind % 8 * 2 ^ 28))

/-- The word at `a`, whose held value is `v`, as a read sees it. -/
def liveOf (s : State) (a : Nat) (v : Word) : Word :=
  if isGlob a then liveGlob s (a - 0x03000000) v
  else if isCoreWindow a then
    let c := coreOfAddr a
    let o := (a - 0x0100000000) % 0x100000
    if o = 0x8000C then liveCoreState s c
    else if 0x90000 ≤ o then liveEng s c ((o - 0x90000) / 4096) (o % 4096) v
    else v
  else if isBlockCsr a then
    if (a - 0x0240000000) % 0x10000 = 0x4000 then liveFmStatus s a else v
  else if inRange a 0x030A000000 0x030BFFFFFF then
    if a % 0x10000 = 0 then liveFmStatus s a else v
  else if a = Reg.adm_ADM_HOLD_LEVEL then BitVec.ofNat 32 s.hold.length
  else if a = Reg.oc_OC_STATUS then BitVec.ofNat 32 (collectorLoad s)
  else if a = Reg.eip_EIP_STATUS then
    BitVec.ofNat 32 (v.toNat % 2 ^ 16 + s.eip.groups.length % 128 * 2 ^ 16 + v.toNat / 2 ^ 23 * 2 ^ 23)
  else if a = Reg.jesd_JES_FREQ then
    BitVec.ofNat 32 (if chipState s = 0 then v.toNat else v.toNat / 2 ^ 20 * 2 ^ 20 + Config.devClkKhz % 2 ^ 20)
  else if inRange a (Reg.tmr_TMR_STATUS 0) (Reg.tmr_TMR_STATUS 31) && decide (a % 0x40 = 0x1C) then
    let n := (a - Reg.tmr_TMR_STATUS 0) / 0x40
    BitVec.ofNat 32 (setBitN v.toNat 1 (isSet s (Reg.tmr_TMR_CFG_EN n) && gateOpen s n))
  else if inRange a (Reg.pdma_PDMA_STATUS 0) (Reg.pdma_PDMA_STATUS 7) && decide (a % 0x1000 = 0x14) then
    BitVec.ofNat 32 (setBitN v.toNat 0 (pdmaRunning s ((a - Reg.pdma_PDMA_STATUS 0) / 0x1000)))
  else if inRange a (Reg.sdma_SDMA_STATUS 0) (Reg.sdma_SDMA_STATUS 15) && decide (a % 0x1000 = 0x14) then
    BitVec.ofNat 32 (setBitN v.toNat 0 (sdmaRunning s ((a - Reg.sdma_SDMA_STATUS 0) / 0x1000)))
  else if a = Reg.tmr_TMR_ACTIVE then flagWord (fun n => isSet s (Reg.tmr_TMR_CFG_EN n)) 0
  else if inRange a (Reg.rtr_RTR_STATUS 0) (Reg.rtr_RTR_STATUS 1023) && decide (a % 0x1000 = 0x80) then
    BitVec.ofNat 32 (v.toNat % 256 + portsPresent s ((a - Reg.rtr_RTR_STATUS 0) / 0x1000) * 256 + v.toNat / 2 ^ 14 * 2 ^ 14)
  else if a = Reg.clk_CLK_ALIGN then   -- TB_CLK is in the locked family while TB_RATE_ADJ is zero (R458)
    if getF s Reg.aet_TB_RATE_ADJ_ADJ = 0 then v else v &&& 0xFFFFFFFD#32
  else if a = Reg.tb_TB_STATE then BitVec.ofNat 32 (v.toNat / 2 ^ 30 * 2 ^ 30 + (pendingCtxs s).length)
  else if a = Reg.ctt_RECOV_STATUS then
    BitVec.ofNat 32 ((recoveringCtxs s).length + bnat (!(recoveringCtxs s).isEmpty) * 2 ^ 31)
  else if a = Reg.jrn_JRN_STATUS then BitVec.ofNat 32 (v.toNat % 8 + s.journal.length * 2 ^ 16)
  else if a = Reg.vol_VOL_STATUS then
    BitVec.ofNat 32 (s.aet.windows.foldl (fun n w => n + w.data.length) 0)
  else if a = Reg.trig_TRIG_IN_STATUS then BitVec.ofNat 32 (v.toNat / 16 * 16 + s.pins.trigIn % 16)
  else if inRange a 0x0004000000 0x0004002FFF then liveSic s (a - 0x0004000000) v
  else if inRange a (Reg.msix_PBA 0) (Reg.msix_PBA 63 + 3) then
    flagWord (fun n => s.sic.pba.contains n) ((a - Reg.msix_PBA 0) / 4 * 32)
  else if a = Reg.rec_REC_STATUS then
    BitVec.ofNat 32 (v.toNat % 2 ^ 16 + s.recorder.pend.length * 2 ^ 16 + v.toNat / 2 ^ 21 % 2 * 2 ^ 21)
  else if a = Reg.rec_REC_NOW then BitVec.ofNat 32 (recTime s)
  else if a = Reg.rec_REC_NOW + 4 then BitVec.ofNat 32 (recTime s / 2 ^ 32)
  else if inRange a 0x01F02000 0x01F02FFF then BitVec.ofNat 32 ((protWords s.sec.live).getD ((a - 0x01F02000) / 4) 0)
  else v

/-! ### Reading a word -/

/-- RESULT of the last reset request of `p`; 0 where it has made none (R465). -/
def rstResult (s : State) (p : Party) : Nat :=
  match s.rstResults.find? (fun x => x.1 == requester p) with
  | some x => x.2
  | none => 0

/-- REC_SW_ARG0 or REC_SW_ARG1 of `p`, kept per requester (R449). -/
def recArg (s : State) (p : Party) (i : Nat) : Nat :=
  match s.recorder.args.find? (fun x => x.1 == requester p && x.2.1 == i) with
  | some x => x.2.2
  | none => 0

/-- The word at `a`, whose held value is `v`, as `p` sees it. -/
def partyWord (s : State) (p : Party) (a : Nat) (v : Word) : Word :=
  if a = Reg.rst_RST_STATUS then liveRst s (rstResult s p) v
  else if a = Reg.rec_REC_SW_ARG0 then BitVec.ofNat 32 (recArg s p 0)
  else if a = Reg.rec_REC_SW_ARG0 + 4 then BitVec.ofNat 32 (recArg s p 0 / 2 ^ 32)
  else if a = Reg.rec_REC_SW_ARG1 then BitVec.ofNat 32 (recArg s p 1)
  else if a = Reg.rec_REC_SW_ARG1 + 4 then BitVec.ofNat 32 (recArg s p 1 / 2 ^ 32)
  else liveOf s a v

/-- The parties that have a shadow (R37). -/
def hasShadow : Party → Bool
  | .app _ _ => true
  | .host => true
  | .sdma _ => true
  | .sec => true
  | .dbg => true
  | .core _ e => e == 5
  | _ => false

def shadowOf (s : State) (p : Party) (blk : Nat) : Option Shadow :=
  s.shadows.find? (fun h => h.p == requester p && h.blk == blockKey blk)

def latchShadow (p : Party) (blk tag : Nat) (v : List Word) (s : State) : State :=
  if hasShadow p then
    { s with shadows := ⟨requester p, blockKey blk, tag, v⟩ ::
        s.shadows.filter (fun h => !(h.p == requester p && h.blk == blockKey blk)) }
  else s

/-- The bits of a word of a register that its fields with access `acc` cover. -/
def accMask (r : RegRow) (idx : Nat) (acc : Acc) : Word :=
  BitVec.ofNat 32 (r.fields.foldl (fun n f => if f.acc == acc then n ||| ((2 ^ (f.hi + 1 - f.lo) - 1) * 2 ^ f.lo) else n) 0
    / 2 ^ (32 * idx))

/-- What the clearing read of a flag register clears beside its own RC fields: the word read at `reg` was `v`. -/
def readCoupling (reg : Nat) (v : Word) (s : State) : State :=
  if isCoreWindow reg ∧ (reg - 0x0100000000) % 0x100000 = 0x80018 then
    let c := coreOfAddr reg
    if isSet s (Reg.core_FAULT_INFO_VALID c) && v.getLsbD (getF s (Reg.core_FAULT_INFO_KIND c)) then
      clrF (Reg.core_FAULT_INFO_VALID c) s else s
  else if isBlockCsr reg ∧ (reg - 0x0240000000) % 0x10000 = 0xC then
    if v.getLsbD 0 then clrF (Reg.slice_SLICE_DENIED_INFO_VALID (blockOfAddr reg)) s else s
  else if isBlockCsr reg ∧ (reg - 0x0240000000) % 0x10000 = 0x8014 then
    if v.getLsbD 0 then clrF (Reg.bdu_BDU_FAULT_INFO_VALID (blockOfAddr reg)) s else s
  else if reg = Reg.mem_MEM_EVENTS then
    if v.getLsbD 1 then (List.range 16).foldl (fun t ch => clrF (Reg.memCh_MEM_ERR_ADDR_VALID ch) t) s else s
  else if reg = Reg.cl_CL_EVENTS then
    if v.getLsbD 16 then clrF Reg.cl_CL_BUSERR_ADDR_VALID s else s
  else if reg = Reg.tb_TB_EVENTS then
    if v.getLsbD 1 then clrF Reg.tb_OVERRUN_CTX_VALID s else s
  else if reg = Reg.sec_SEC_EVENTS then
    if v.getLsbD 2 then clrF Reg.sec_PROT_DENIED_INFO_VALID s else s
  else s

/-- The timer whose COUNT, or the low word of whose CAP, stands at `a`. -/
def timerAt (a : Nat) : Option (Nat × Bool) :=
  let o := a - Reg.tmr_TMR_COUNT 0
  if !inRange a (Reg.tmr_TMR_COUNT 0) (Reg.tmr_TMR_CAP 31) then none
  else if Reg.tmr_TMR_COUNT (o / 0x40) = a then some (o / 0x40, false)
  else if Reg.tmr_TMR_CAP (o / 0x40) = a then some (o / 0x40, true)
  else none

/-- What `p` reads of a higher member of a timer chain: its shadow, while the requester's tag names the base (R443). -/
def chainShadow (s : State) (p : Party) (a : Nat) : Option Word :=
  match timerAt a with
  | none => none
  | some (n, cap) =>
    let base := chainBase s n
    if n = base then none
    else match s.timers.shadows.find? (fun h => h.p == requester p && h.cap == cap && h.base == base) with
      | some h => h.values[n - base - 1]?
      | none => none

/-- The word `idx` of the register at `reg` as party `p` reads it through block `blk`. -/
def seenWord (s : State) (p : Party) (blk : Nat) (w : WordAt) : Word :=
  (chainShadow s p (w.reg + 4 * w.idx)).getD <|
  let wo := accMask w.row w.idx .wo
  let live := partyWord s p (w.reg + 4 * w.idx) (rdWord s (w.reg + 4 * w.idx)) &&& ~~~ wo
  match shadowOf s p blk with
  | some h => if w.idx ≠ 0 ∧ h.tag = w.reg then h.value.getD (w.idx - 1) live else live
  | none => live

/-- The RC fields of word `idx` of a register are cleared, but for the bits of `hw` that hardware sets in the cycle (R32). -/
def clearRc (w : WordAt) (idx : Nat) (hw : Word) (s : State) : State :=
  let m := accMask w.row idx .rc
  if m = 0 then s
  else wrWord (w.reg + 4 * idx) ((rdWord s (w.reg + 4 * idx) &&& ~~~ m) ||| (hw &&& m)) s

/-- Is this register a fault record, whose read of word 0 latches words 1 to 3 (R352)? -/
def isFmRec (w : WordAt) : Bool :=
  w.row.width == 128 && ((isBlockCsr w.reg && decide ((w.reg - 0x0240000000) % 0x10000 / 4096 = 4)) ||
    inRange w.reg 0x030A000000 0x030BFFFFFF)

def latchHigh (p : Party) (blk : Nat) (w : WordAt) (s : State) : State :=
  let word (i : Nat) : Word := partyWord s p (w.reg + 4 * i) (rdWord s (w.reg + 4 * i))
  if w.idx = 0 ∧ w.row.width = 64 then latchShadow p blk w.reg [word 1] s
  else if w.idx = 0 && isFmRec w then latchShadow p blk w.reg [word 1, word 2, word 3] s
  else s

/-- A read of the CSR word at `a` by `p`: its value, and the state after it (R31, R32, R37, R39). A read of QDATA is not
made here (R151). -/
def readWord (p : Party) (a : Nat) (hw : Word) (s : State) : Word × State :=
  match csrAt a with
  | .word _ blk peek w =>
    let v := seenWord s p blk w
    let s1 := latchHigh p blk w s
    if peek then (v, s1)
    else if w.idx = 0 ∧ w.row.width = 64 then (v, s1 |> clearRc w 0 hw |> clearRc w 1 0 |> readCoupling w.reg v)
    else if w.row.width = 64 then (v, s1)
    else (v, s1 |> clearRc w w.idx hw |> readCoupling w.reg v)
  | _ => (0, s)

/-- An external read of the low word of QDATA_q: the pop of R151, and its flags; `none` where an uncorrectable word makes it a bus
error (R98). A ring queue whose slice answers with a bus error reads as zero, and neither flag is set nor anything taken (DESIGN
CHOICE, log entry 16: R139 speaks of QPOP alone). -/
def popExternal (p : Party) (c q : Nat) (s : State) : Option Word × State :=
  let blk := coreBase c + 0x95000
  let latch (v : Nat) (t : State) : State := latchShadow p blk (Reg.sq_QDATA c q) [BitVec.ofNat 32 v] t
  match outsideMeet c (qWords s c q true) s with
  | none => (none, s)
  | some u =>
    if qReader u c q ≠ 6 then (some 0, u |> setF (Reg.sq_QLEVEL_DENIED c q) |> latch 0)
    else match qPop c q u with
      | .empty => (some 0, u |> setF (Reg.sq_QLEVEL_UNDERRUN c q) |> latch 0)
      | .sliceErr _ t => (some 0, latch 0 t)
      | .entry v t => (some (BitVec.ofNat 32 v), latch (v / 2 ^ 32) t)

/-- The queue whose QDATA low word stands at `a`, with its core. -/
def qdataAt (a : Nat) : Option (Nat × Nat) :=
  let o := (a - 0x0100000000) % 0x100000
  if isCoreWindow a && inRange o 0x95600 0x957FF && decide (a % 8 = 0) then some (coreOfAddr a, (o - 0x95600) / 8) else none

/-- The read of a ring queue's QDATA waits with the access to its slice, which a drain holds (R197). -/
def ringBack (s : State) (a : Nat) (op : MemOp) : Bool :=
  !memWrites op && (match qdataAt a with
    | some (c, q) => popHeld s c q
    | none => false)

/-- Any read of a CSR word; `none` where it ends in a bus error at the register itself: a peek of QDATA too reads the queue's words. -/
def readAny (p : Party) (a : Nat) (hw : Word) (s : State) : Option Word × State :=
  match qdataAt a with
  | some (c, q) => popExternal p c q s
  | none =>
    match (match qdataAt (a - 0x800) with
      | some (c, q) => outsideMeet c (qWords s c q true) s
      | none => some s) with
    | some t => let r := readWord p a hw t; (some r.1, r.2)
    | none => (none, s)

/-- The reply of a read. -/
def readReply (r : Option Word × State) : State :=
  { r.2 with reply := match r.1 with
      | some v => .data v.toNat
      | none => .busError }

end Sys2Proof.Machine
end

