-- ==== Sys2Proof/Machine/RegOps.lean ====
section
/-! DEFINITION. Writes to register words: access codes, block enable and held low words (R9, R33, R38, R40-R42), and the
writes whose effect other units share: modulation, learning sets, slice ownership. -/

namespace Sys2Proof.Machine

/-! ### One word -/

/-- The block whose BLK_CTRL governs the RWD fields of the block at `blk` (R40). -/
def governorOf (b : RegBlock) (blk : Nat) : Nat :=
  match b.gov with
  | .link => 0x0301000000 + (blk / 0x10000) % 8 * 0x10000
  | .volley => Reg.vol_BLK_CTRL
  | _ => blk

/-- The bits of a word that no field covers. -/
def rsvMask (r : RegRow) (idx : Nat) : Word :=
  BitVec.ofNat 32 (r.fields.foldl (fun n f => n - (n &&& ((2 ^ (f.hi + 1 - f.lo) - 1) * 2 ^ f.lo))) (2 ^ r.width - 1)
    / 2 ^ (32 * idx))

/-- Write `v` to word `idx` of a register under the access codes of its fields; the bits of `keep` stay as they are. RWD
fields are written only while their governing block is disabled; an ignored change sets its WRITE_IGNORED (R41, R42). A
changed reserved bit is stored and marks the state (R9). -/
def rawWrite (b : RegBlock) (blk : Nat) (w : WordAt) (idx : Nat) (v keep : Word) (s : State) : State :=
  let a := w.reg + 4 * idx
  let old := rdWord s a
  let gov := governorOf b blk
  let rwd := accMask w.row idx .rwd
  let rsv := rsvMask w.row idx
  let open' := !blkEnabled s gov
  let m := ((accMask w.row idx .rw) ||| (if open' then rwd else 0) ||| rsv) &&& ~~~ keep
  let new := (old &&& ~~~ m) ||| (v &&& m)
  let s1 := if new = old then s else wrWord a new s
  let s2 := if !open' && ((old ^^^ v) &&& rwd &&& ~~~ keep) != 0 then setIgnored gov s1 else s1
  if ((old ^^^ v) &&& rsv) != 0 then { s2 with rsvDirty := true } else s2

/-- A write of `v` to the word at `a` changes a reserved bit: it is stored, and marks the state (R9). -/
def noteRsv (a : Nat) (v : Word) (s : State) : State :=
  match csrAt a with
  | .word _ _ _ w =>
    let m := rsvMask w.row w.idx
    if ((rdWord s a ^^^ v) &&& m) = 0 then s else { wrWord a ((rdWord s a &&& ~~~ m) ||| (v &&& m)) s with rsvDirty := true }
  | _ => s

/-! ### Image copies (R342) -/

/-- The part of a CSR word that an image loads. -/
def imgBits (a : Nat) (v : Word) : Word :=
  match csrAt a with
  | .word _ _ _ w => v &&& (accMask w.row w.idx .rw ||| accMask w.row w.idx .rwd)
  | _ => 0

/-- The CSR word of a core that a requester outside it has written stands so in the core's image copy (DESIGN CHOICE, log
entry 23: the spec does not say where the copy lies). -/
def imgNote (a : Nat) (s : State) : State :=
  if isCoreWindow a then { s with imgCsr := tset a (imgBits a (rdWord s a)) s.imgCsr } else s

/-- Bytes that a requester outside core `c` has written from offset `o` of its window stand so in its image copy: those of the
kernel, queue/semaphore and instruction stores. -/
def imgStore (c o : Nat) (bs : List Byte) (s : State) : State :=
  let cut := 0x30000 - o
  { s with imgMem := setBytes (coreBase c + o + cut) (bs.drop cut) s.imgMem }

/-! ### Held low words (R38) -/

def heldLow (s : State) (p : Party) (blk : Nat) : Option HeldLow :=
  s.held.find? (fun h => h.p == requester p && h.blk == blockKey blk)

/-- Any write of `p` to the block ends the hold of its low word. -/
def dropHeld (p : Party) (blk : Nat) (s : State) : State :=
  { s with held := s.held.filter (fun h => !(h.p == requester p && h.blk == blockKey blk)) }

def holdLow (p : Party) (blk tag : Nat) (v : Word) (s : State) : State :=
  { dropHeld p blk s with held := ⟨requester p, blockKey blk, tag, v⟩ :: (dropHeld p blk s).held }

/-- The low word that `p` holds of the register at `tag`. -/
def heldFor (s : State) (p : Party) (blk tag : Nat) : Option Word :=
  match heldLow s p blk with
  | some h => if h.tag = tag then some h.value else none
  | none => none

/-- The register has a writable field. -/
def writable (r : RegRow) : Bool := r.fields.any (fun f => f.acc == .rw || f.acc == .rwd || f.acc == .wo || f.acc == .rc)

/-! ### Modulation and learning sets (R267, R275, R277, R278) -/

/-- VALUE becomes pending for SLOT, from a step if one is given; it replaces a value already pending. -/
def modSet (c : Nat) (low : Word) (step : Option Nat) (s : State) : State :=
  let slot := low.toNat / 2 ^ 16 % 512
  if 255 < slot then s
  else modCore c (fun k => { k with modPend := tset slot (low.toNat % 2 ^ 16, step) k.modPend }) s

/-- A write to a learning-set word: only while the core is quiescent, else CFG_BUSY. -/
def lsetWrite (b : RegBlock) (blk : Nat) (w : WordAt) (c : Nat) (v : Word) (s : State) : State :=
  if quiescent s c then rawWrite b blk w w.idx v 0 s else setF (Reg.pe_LRN_EVENTS_CFG_BUSY c) s

/-! ### Channel routes (R158, R159) -/

/-- A whole write of CHAN_ROUTE: CREDITS loads from CREDIT_INIT, at most 16, when VALID goes from 0 to 1 (R158, R169). -/
def chanRouteApply (b : RegBlock) (blk : Nat) (w : WordAt) (c r : Nat) (lo hi : Word) (s : State) : State :=
  let t := s |> rawWrite b blk w 0 lo 0 |> rawWrite b blk w 1 hi 0
  if !isSet s (Reg.sq_CHAN_ROUTE_VALID c r) && isSet t (Reg.sq_CHAN_ROUTE_VALID c r) then
    putF (Reg.sq_CHAN_ROUTE_CREDITS c r) (min (getF t (Reg.sq_CHAN_ROUTE_CREDIT_INIT c r)) 16) t
  else t

/-- The route whose register starts at `a` in core `c`'s SQ page. -/
def routeAt (c a : Nat) : Option Nat :=
  if Reg.sq_CHAN_ROUTE c 0 ≤ a ∧ a ≤ Reg.sq_CHAN_ROUTE c 31 then some ((a - Reg.sq_CHAN_ROUTE c 0) / 8) else none

/-! ### Slice ownership (R411, R413) -/

/-- A CLASS and INDEX of the table of R411. -/
def ownerValid (cls idx : Nat) : Bool :=
  (cls == 1 && decide (idx < 1024)) || (cls == 2 && idx == 0) || (cls == 3 && idx == 0) || (cls == 4 && decide (idx < 16)) ||
  (cls == 5 && decide (idx < 8)) || (cls == 7 && idx == 0)

/-- The write is made by the owner of the slice, under R413. -/
def mayHandOver (s : State) (b : Nat) (p : Party) : Bool :=
  if getF s (Reg.slice_SLICE_OWNER_CLASS b) = 2 then !blkEnabled s (Reg.bdu_BLK_CTRL b) else isOwner s b p

/-- The value would set a bit that FORBID names (R512). -/
def forbidden (s : State) (v : Word) : Bool := (v.toNat / 2 ^ 16 % 2 ^ 9) &&& s.sec.live.forbid != 0

/-- A write of SLICE_OWNER of block `b`. The owner is judged before the value (DEDUCED: R414 judges a write against the
owner). -/
def ownerWrite (p : Party) (b : Nat) (v : Word) (s : State) : State :=
  if !mayHandOver s b p then flagF (Reg.slice_SLICE_EVENTS_EVENTS b) 1 s
  else if !ownerValid (v.toNat / 2 ^ 12 % 16) (v.toNat % 2 ^ 12) || forbidden s v then flagF (Reg.slice_SLICE_EVENTS_EVENTS b) 2 s
  else
    let s1 := wrWord (Reg.slice_SLICE_OWNER b) (v &&& 0x1FFFFFF#32) s
    if v &&& 0xFE000000#32 = 0 then s1 else { wrWord (Reg.slice_SLICE_OWNER b) v s with rsvDirty := true }

/-! ### An access by an outside party -/

/-- A 32-bit read, and a 32-bit write of `v`. -/
def read32 : MemOp := .read 4
def write32 (v : Word) : MemOp := .write (toBytes v.toNat 4)

/-- A CSR access at `a`: a bus error where it is not permitted or not answered (R3, R24, R27, R511), else `body`. One that is held
back waits in its place and is carried out when nothing holds it any longer (R197, R477; log entry 61). -/
def csrDo (p : Party) (a : Nat) (op : MemOp) (body : State → State) (s : State) : State :=
  if csrOk s p a (memWrites op) && !ringBack s a op then body { s with reply := .done }
  else if csrReach s p a (memWrites op) then holdAccess p a op s
  else csrError p a op s

/-- A write of a 32-bit register that has an effect of its own: it ends the hold of a low word in its block (R38). `v`: the value
written, where the write may be held back. -/
def csrEffect (p : Party) (a : Nat) (body : State → State) (s : State) (v : Word := 0) : State :=
  csrDo p a (write32 v) (fun t => match csrAt a with
    | .word _ blk _ _ => t |> dropHeld p blk |> body |> imgNote a
    | _ => t) s

/-- The high-word write of `hi` to the 64-bit register at `a` by `p`: `body` on the held low word, nothing where none is held. -/
def csrPair (p : Party) (a : Nat) (hi : Word) (body : Word → State → State) (s : State) : State :=
  csrDo p (a + 4) (write32 hi) (fun t => match csrAt a with
    | .word _ blk _ _ => match heldFor t p blk a with
      | some lo => t |> dropHeld p blk |> body lo |> imgNote a |> imgNote (a + 4)
      | none => dropHeld p blk t
    | _ => t) s

/-! ### A write by an engine (R116, R117) -/

/-- CSRW of `v` to the word at `a` of the engine's own page. -/
def engineWrite (c e a : Nat) (v : Word) (s : State) : State :=
  match csrAt a with
  | .word b blk _ w =>
    let s0 := dropHeld (.core c e) blk s
    if e = 3 ∧ w.reg = Reg.pe_LRN_MOD_SET c then
      if w.idx = 1 then modCore c (fun k => { k with modStage := some v.toNat }) s0
      else modCore c (fun k => { k with modStage := none }) (modSet c v (core s c).modStage (noteRsv a v s0))
    else if e = 3 ∧ w.row.width = 256 then lsetWrite b blk w c v s0
    else if e = 5 ∧ w.reg = Reg.sq_SLICE_HANDOVER c then
      ownerWrite (.core c 5) (v.toNat % 64) (BitVec.ofNat 32 (v.toNat / 128)) (noteRsv a v s0)
    else if w.row.width = 64 then
      if !writable w.row then rawWrite b blk w w.idx v 0 s0
      else if w.idx = 0 then holdLow (.core c e) blk w.reg v s
      else match heldFor s (.core c e) blk w.reg with
        | some lo =>
          match (if e = 5 then routeAt c w.reg else none) with
          | some r => chanRouteApply b blk w c r lo v s0
          | none => s0 |> rawWrite b blk w 0 lo 0 |> rawWrite b blk w 1 v 0
        | none => s0
    else rawWrite b blk w w.idx v 0 s0
  | _ => s

end Sys2Proof.Machine
end

