-- ==== Sys2Proof/Machine/Event.lean ====
section
/-! DEFINITION. The slot of an event (R75), the step to which an emission belongs (R132), and the send queue. -/

namespace Sys2Proof.Machine

/-! ### Slots and steps -/

/-- The slot of core `c` that holds `ctx` in RUNNING, DRAINING or OVERRUN. -/
def workSlot (s : State) (c ctx : Nat) : Option Nat :=
  (slotsInUse s c).find? (fun k => atWork (slotState s c k) && slotCtx s c k == ctx)

/-- The step of the last wicket that the core has taken for the slot; unstated before the first (a free value). -/
def lastTaken (s : State) (c slot : Nat) : Nat :=
  match tget 0 slot (core s c).taken with
  | 0 => (freeWord s).toNat
  | n + 1 => n

def spendIfNone (c slot : Nat) (s : State) : State := if tget 0 slot (core s c).taken = 0 then spendFree s else s

/-! ### The send queue (R73) -/

def sendCap : Nat := 16
def retxCap : Nat := 64

/-- The retransmit entries that source endpoint `ep` holds (R190). -/
def retxHeld (s : State) (ep : Nat) : Nat := s.fab.retx.countP (fun r => r.pkt.src == ep)

/-- The core's sends stall: its retransmit buffer is full (R162). -/
def sendBlocked (s : State) (c : Nat) : Bool := decide (retxCap ≤ retxHeld s (4 * c))

def sendRoom (s : State) (c : Nat) : Bool := decide ((core s c).send.length < sendCap) && !sendBlocked s c

/-- The new packets that wait at a source, oldest first: resends apart. -/
def waitingAt (s : State) (src : Nat) : List Packet := s.fab.waiting.filter (fun p => p.src == src && !p.resend)

/-- A word joins the send queue, behind the packets that wait at the router stop already. -/
def pushSend (c : Nat) (it : SendItem) (s : State) : State :=
  modCore c (fun k => { k with send := k.send ++ [{ it with older := (waitingAt s (4 * c)).length }] }) s

/-- Place an EMIT's word in the send queue, under the step of R132. -/
def emitWord (c e : Nat) (v : Word64) (s : State) : State :=
  match workSlot s c (evCtx v) with
  | some k => pushSend c ⟨v, lastTaken s c k, e, 0⟩ (spendIfNone c k s)
  | none => pushSend c ⟨v, (freeWord s).toNat, e, 0⟩ (spendFree s)

/-- The EE's datapath offers a word of its own to the send queue. -/
def datapathOffers (s : State) (c : Nat) : Bool := !(core s c).fire.isEmpty && (eng s c 4).st != .halted

/-- Engine `e` has a stalled EMIT. -/
def emitStalls (s : State) (c e : Nat) : Bool :=
  match (eng s c e).wait with
  | .emit _ => true
  | _ => false

/-- The stalled EMIT of engine `e` proceeds where the send queue has room. -/
def emitStep (c e : Nat) (s : State) : State :=
  match (eng s c e).wait with
  | .emit v => if sendRoom s c && engRuns s c then s |> emitWord c e v |> resumeEng c e else s
  | _ => s

/-- Freed entries let stalled EMITs proceed, the EE before the SQ (R73, R124's order); a word of the EE's datapath enters
before them (R132). -/
def emitResume (c : Nat) (s : State) : State :=
  if datapathOffers s c then s else s |> emitStep c 4 |> emitStep c 5

end Sys2Proof.Machine
end

