-- ==== Sys2Proof/Machine/Sideband.lean ====
section
/-! DEFINITION. Packets as links carry them: the sideband of the head flit, its header check and the end-to-end check, and a
packet as it stands after bits of it have been flipped (R172-R175). -/

namespace Sys2Proof.Machine

/-- The virtual channel of a packet type (R174). -/
def vcOf : PktType → Nat
  | .event => 0
  | .memRd | .memWr => 2
  | .memRsp | .memAck => 3
  | _ => 1

def typeCode : PktType → Nat
  | .event => 0
  | .qsend => 1
  | .credit => 2
  | .ack => 3
  | .nack => 4
  | .refuse => 5
  | .csrWr => 6
  | .csrRd => 7
  | .csrRsp => 8
  | .memRd => 9
  | .memWr => 10
  | .memRsp => 11
  | .memAck => 12
  | .reserved => 13

def typeOf (n : Nat) : PktType :=
  [.event, .qsend, .credit, .ack, .nack, .refuse, .csrWr, .csrRd, .csrRsp, .memRd, .memWr, .memRsp, .memAck].getD n .reserved

/-- ACK and NACK carry no valid SEQ and are never resent (R174). -/
def sequenced (t : PktType) : Bool := t != .ack && t != .nack

/-- The packet travels by flock entries (R186): a multicast event. An ACK, NACK or REFUSE with MC = 1 belongs to a multicast
series and travels unicast. -/
def byFlock (p : Packet) : Bool := p.mc && p.ty == .event

def epRouter (ep : Nat) : Nat := ep / 4
def epCode (ep : Nat) : Nat := ep % 4

/-! ### The checks (R175) -/

/-- A cyclic redundancy check of `w` bits with a polynomial. -/
def crcBits (w poly : Nat) (bits : List Bool) (init : Nat) : Nat :=
  bits.foldl (fun c b => (2 * c % 2 ^ w) ^^^ (if (c.testBit (w - 1)) != b then poly else 0)) init

/-- HCHK: sideband bits [51:0], bit 0 first. -/
def hchk (side : Nat) : Nat := crcBits 4 3 ((List.range 52).map side.testBit) 0

/-- The CRC over bytes, each the most significant bit first. -/
def crc16 (l : List Byte) : Nat :=
  crcBits 16 0x1021 (l.flatMap (fun b => (List.range 8).map (fun i => b.toNat.testBit (7 - i)))) 0xFFFF

/-! ### The sideband (R173) -/

/-- The header bits [51:0] and EXT. -/
def sideFields (p : Packet) : Nat :=
  let r := epRouter p.dst
  let dst := if byFlock p then p.dst / 32 % 32 + p.dst % 32 * 2 ^ 5 else r % 32 + r / 32 % 32 * 2 ^ 5 + epCode p.dst * 2 ^ 10
  dst + epRouter p.src % 32 * 2 ^ 13 + epRouter p.src / 32 % 32 * 2 ^ 18 + epCode p.src * 2 ^ 23 + vcOf p.ty * 2 ^ 26
    + bnat p.mc * 2 ^ 28 + bnat p.alt * 2 ^ 29 + p.epoch % 16 * 2 ^ 30 + typeCode p.ty * 2 ^ 34 + (p.flits - 1) % 8 * 2 ^ 38
    + p.seq % 256 * 2 ^ 41 + (if p.mc then p.tr % 8 else 0) * 2 ^ 49 + p.ext % 2 ^ 32 * 2 ^ 64

/-- The bytes over which the CRC runs: sideband bits [95:0], and each flit of the payload. -/
def crcBytes (side data flits : Nat) : List Byte := toBytes side 12 ++ toBytes data (32 * flits)

/-- The 112-bit sideband with which the source sends a packet. -/
def sideband (p : Packet) : Nat :=
  let n := sideFields p
  let m := n + hchk n * 2 ^ 52
  m + crc16 (crcBytes m p.data p.flits) * 2 ^ 96

/-! ### A packet as it stands (R175) -/

/-- The sideband and the payload of a flight, with the bits that links have flipped. -/
def sideNow (f : Flight) : Nat := sideband f.pkt ^^^ f.bad % 2 ^ 112
def dataNow (f : Flight) : Nat := f.pkt.data ^^^ f.bad / 2 ^ 112

def hchkOk (f : Flight) : Bool := hchk (sideNow f) == sideNow f / 2 ^ 52 % 16
def crcOk (f : Flight) : Bool :=
  crc16 (crcBytes (sideNow f) (dataNow f) (sideNow f / 2 ^ 38 % 8 + 1)) == sideNow f / 2 ^ 96

/-- The packet that a sideband spells. -/
def readSide (n data : Nat) (p : Packet) : Packet :=
  let mc := bitN n 28
  let ty := typeOf (n / 2 ^ 34 % 16)
  { p with
      ty := ty, mc := mc, alt := bitN n 29, epoch := n / 2 ^ 30 % 16, flits := n / 2 ^ 38 % 8 + 1, seq := n / 2 ^ 41 % 256
      tr := n / 2 ^ 49 % 8, ext := n / 2 ^ 64 % 2 ^ 32, data := data
      src := 4 * (n / 2 ^ 18 % 32 * 32 + n / 2 ^ 13 % 32) + n / 2 ^ 23 % 4
      dst := if mc && ty == .event then n % 32 * 32 + n / 2 ^ 5 % 32
             else 4 * (n / 2 ^ 5 % 32 * 32 + n % 32) + n / 2 ^ 10 % 4 }

/-- The packet as routers and its destination see it. -/
def seen (f : Flight) : Packet := if f.bad = 0 then f.pkt else readSide (sideNow f) (dataNow f) f.pkt

/-- Its virtual channel and its DEP. -/
def vcNow (f : Flight) : Nat := if f.bad = 0 then vcOf f.pkt.ty else sideNow f / 2 ^ 26 % 4
def depNow (f : Flight) : Nat := if f.bad = 0 then epCode f.pkt.dst else sideNow f / 2 ^ 10 % 8

end Sys2Proof.Machine
end

