-- ==== Sys2Proof/Machine/FabricOps.lean ====
section
/-! DEFINITION. The fabric's shared operations: flock entries, series, the checks of a router stop and refusals
(R160, R161, R173-R194). -/

namespace Sys2Proof.Machine

/-! ### Chip ports (R17, R18) -/

/-- The routers of the chip ports. -/
def chipPorts : List Nat := chipRouters

/-- The chip port whose router is `r`. -/
def chipPortAt (r : Nat) : Option Nat := chipPorts.findIdx? (· == r)

/-- The destination endpoint of a unicast event (R18): an axon of 0xF000 or above at a chip-port router names the port. -/
def eventDst (w : Word64) : Nat :=
  if (chipPortAt (evCore w)).isSome && decide (0xF000 ≤ evAxon w) then 4 * evCore w + 3 else 4 * evCore w

/-! ### Flock table entries (R185) -/

def flockAddr (router f : Nat) : Nat := 0x0300000000 + router * 0x2000 + f * 8
def flockBit (s : State) (router f i : Nat) : Bool := rdBits s (flockAddr router f) i 1 == 1
def flockFepoch (s : State) (router f : Nat) : Nat := rdBits s (flockAddr router f) 8 4
def flockMepoch (s : State) (router f : Nat) : Nat := rdBits s (flockAddr router f) 12 4
def flockMembers (s : State) (router f : Nat) : Nat := rdBits s (flockAddr router f) 16 11
def flockSeqExp (s : State) (router f : Nat) : Nat := rdBits s (flockAddr router f) 32 8
def flockSeqNext (s : State) (router f : Nat) : Nat := rdBits s (flockAddr router f) 40 8

/-! ### Series (R190) -/

def uniKey (src dst : Nat) : Nat := src * 4096 + dst
def mcKey (router f : Nat) : Nat := 16777216 + router * 1024 + f

/-- The series by which an item came to the endpoint `ep`. -/
def itemKey (p : Packet) (ep : Nat) (flock : Option Nat) : Nat :=
  match flock with
  | some f => mcKey (epRouter ep) f
  | none => uniKey p.src ep

def rxOf (s : State) (k : Nat) : RxSeries := tget {} k s.fab.rx
def modRx (k : Nat) (f : RxSeries → RxSeries) (s : State) : State :=
  { s with fab := { s.fab with rx := tset k (f (rxOf s k)) s.fab.rx } }

/-- The packets that travel or wait on behalf of a series whose item is `p`. -/
def sameSeries (p q : Packet) : Bool := p.src == q.src && p.dst == q.dst && p.mc == q.mc

/-! ### Refusals (R160, R161, R194) -/

def roleEpoch (s : State) (c : Nat) : Nat := getF s (Reg.core_ROLE_EPOCH_EPOCH c)

/-- The refusal header of R161 for an item refused by core `c`. -/
def refusalHeader (s : State) (c : Nat) (p : Packet) (reason : Nat) : Nat :=
  let qs := p.ty == .qsend
  bnat qs + reason * 16 + roleEpoch s c * 2 ^ 8 + p.engine % 8 * 2 ^ 12
    + (if qs then p.ext % 2 ^ 16 else c) * 2 ^ 16
    + (if qs then p.ext / 2 ^ 16 % 32 else 0xFF) * 2 ^ 32
    + (if qs then 0 else p.step % 2 ^ 24) * 2 ^ 40

/-- A multicast member acknowledges a packet it has judged (R192). -/
def memberAck (ep f : Nat) (p : Packet) (s : State) : State :=
  post { ty := .ack, src := ep, dst := p.src, mc := true, ext := f, seq := p.seq, tr := p.tr } s

/-- The flock entry of router `r` names the core and the extra port. -/
def bothMember (s : State) (r f : Nat) : Bool := flockBit s r f 4 && flockBit s r f 5

/-- What the router keeps of the EXTRA copies at such an entry: in `expect`, how far they are ahead of SEQ_EXP modulo 256; in `held`,
SEQ and TRY of the packets that the core has judged and whose EXTRA copy has still to come. -/
def extraKey (r f : Nat) : Nat := 16777216 + 1048576 + r * 1024 + f

/-- The next SEQ of the EXTRA copies. -/
def extraExpected (s : State) (r f : Nat) : Nat := (flockSeqExp s r f + (rxOf s (extraKey r f)).expect) % 256

/-- A member with a core acknowledges a packet; where the entry names the extra port too, once its EXTRA copy has come (R192). -/
def entryAck (ep f : Nat) (p : Packet) (s : State) : State :=
  let r := epRouter ep
  if bothMember s r f && decide (128 ≤ (extraExpected s r f + 255 - p.seq) % 256) then
    modRx (extraKey r f) (fun x => { x with held := x.held.filter (fun h => h.1 != p.seq) ++ [(p.seq, p.tr)] }) s
  else memberAck ep f p s

/-- The oldest arrival that meets a test, and what is left. -/
def takeArrivalBy (f : Arrival → Bool) : List Arrival → Option (Arrival × List Arrival)
  | [] => none
  | a :: r =>
    if f a then some (a, r)
    else match takeArrivalBy f r with
      | some (b, r') => some (b, a :: r')
      | none => none

/-- Core `c` refuses an arrived item: the REFUSE packet waits at the core's router stop, and the item's series holds back
its acknowledgement (R194). -/
def refuseItem (c : Nat) (a : Arrival) (reason : Nat) (s : State) : State :=
  s |> modRx (itemKey a.pkt (4 * c) a.flock) (fun r => { r with held := r.held ++ [(a.pkt.seq, a.pkt.tr)] })
    |> post { ty := .refuse, src := 4 * c, dst := a.pkt.src, mc := a.flock.isSome,
              ext := a.pkt.seq % 256 + (a.flock.getD 0) % 1024 * 256,
              data := refusalHeader s c a.pkt reason + a.pkt.data % 2 ^ 64 * 2 ^ 64 }

/-- A refused or discarded event at core `c` (R75): counted, flagged, and the IE's REFUSED happening (R133). The table gives the
happening's reasons 1 and 2; an event of a stale epoch passes 3, the ROLE_CHANGED of R161 (DESIGN CHOICE, log entry 57). -/
def noteRefused (c reason : Nat) (w : Word64) (s : State) : State :=
  if coreSilent s c then s
  else s |> incSat (Reg.core_REFUSED_COUNT_COUNT c) |> coreFault c 7 0 7 0
    |> modEng c 0 (fun g => { g with happen := g.happen ++
        [⟨10, 0x100, 0, BitVec.ofNat 32 (evCtx w), BitVec.ofNat 32 reason, w.extractLsb' 0 32, 0⟩] })

/-- Check 1 of R160 for an item with sideband epoch: the flock's epochs for a multicast copy, else the role epoch (R187). -/
def epochStale (s : State) (c : Nat) (a : Arrival) : Bool :=
  match a.flock with
  | some f => a.pkt.epoch != flockFepoch s c f || flockMepoch s c f != roleEpoch s c
  | none => a.pkt.epoch != roleEpoch s c

/-- What R75 gives for a context at a core: its slot in a state that takes events, or the reason of refusal. -/
def slotReason (s : State) (c ctx : Nat) : Option Nat :=
  match findSlot s c ctx with
  | none => some 1
  | some k =>
    let st := slotState s c k
    if atWork st || st == stPaused then none else if st == stFaulted then some 2 else some 1

/-- The reason for which core `c` refuses an event at delivery (R75, R160). -/
def eventReason (s : State) (c : Nat) (a : Arrival) : Option Nat :=
  if coreSilent s c then some 2
  else if epochStale s c a then some 3
  else slotReason s c (evCtx (BitVec.ofNat 64 a.pkt.data))

/-! ### Acknowledgement of what has been accepted (R192, R194) -/

def portIn (s : State) (r : Nat) : List Arrival := tget [] r s.portIn
def setPortIn (r : Nat) (l : List Arrival) (s : State) : State := { s with portIn := tset r l s.portIn }

/-- The items that wait to be judged or taken at an endpoint. -/
def arrivalsAt (s : State) (ep : Nat) : List Arrival :=
  if epCode ep = 0 then (core s (epRouter ep)).arrivals else if epCode ep = 3 then portIn s (epRouter ep) else []

/-- The refused and unjudged SEQs of a unicast series, which no acknowledgement may cover (R194). -/
def uncovered (s : State) (src dst : Nat) : List Nat :=
  (rxOf s (uniKey src dst)).held.map (·.1) ++
  (arrivalsAt s dst).filterMap (fun a =>
    if a.flock = none ∧ a.pkt.src = src ∧ (a.pkt.ty = .event ∨ a.pkt.ty = .qsend) then some a.pkt.seq else none)

/-- How many of the last accepted packets the cumulative ACK must leave out. -/
def ackLag (s : State) (src dst : Nat) : Nat :=
  ((uncovered s src dst).map (fun q => ((rxOf s (uniKey src dst)).expect + 256 - q) % 256)).foldl max 0

/-- The cumulative ACK of a unicast series (R192). -/
def sendAck (src dst : Nat) (s : State) : State :=
  let k := uniKey src dst
  let lag := ackLag s src dst
  s |> post { ty := .ack, src := dst, dst := src, seq := ((rxOf s k).expect + 511 - lag) % 256 }
    |> modRx k (fun r => { r with unacked := lag, owed := r.owed && lag != 0 })

/-- Send the ACK if it covers something new. -/
def ackIfNew (src dst : Nat) (s : State) : State :=
  if ackLag s src dst < (rxOf s (uniKey src dst)).unacked then sendAck src dst s else s

/-- An acceptance may make the ACK due: the eighth since the last ACK (R192), or one that lets it cover a REFUSE (R194). -/
def ackIfDue (src dst : Nat) (s : State) : State :=
  let r := rxOf s (uniKey src dst)
  if r.owed || decide (8 + ackLag s src dst ≤ r.unacked) then ackIfNew src dst s else s

/-- A judged arrival that is not refused: a multicast copy is acknowledged now, a unicast item by the next cumulative ACK. -/
def judged (ep : Nat) (a : Arrival) (s : State) : State :=
  match a.flock with
  | some f => entryAck ep f a.pkt s
  | none => ackIfDue a.pkt.src ep s

/-! ### Events at a chip port (R18, R324) -/

/-- The endpoint code of a flock's member at router `r`: the core before the port. -/
def localMember (s : State) (r f : Nat) : Bool := flockBit s r f 4

/-- An event that its unit has taken from the chip port: the port acknowledges it, unless it is a multicast copy and the core
of the router is the flock's member there. -/
def portJudged (r : Nat) (a : Arrival) (s : State) : State :=
  match a.flock with
  | some f => if localMember s r f then s else memberAck (4 * r + 3) f a.pkt s
  | none => ackIfDue a.pkt.src (4 * r + 3) s

/-- An event reaches a chip port: those of the reserved axons are discarded (R18). -/
def chipPortEvent (r : Nat) (a : Arrival) (s : State) : State :=
  if evAxon (BitVec.ofNat 64 a.pkt.data) < 0xFC00 then setPortIn r (portIn s r ++ [a]) s else portJudged r a s

end Sys2Proof.Machine
end

