-- ==== Sys2Proof/Machine/NeuroOps.lean ====
section
/-! DEFINITION. Neuron records, classes, delay slots, kernels and traces of a neurocore (R49-R71, R77-R92, R261-R263). -/

namespace Sys2Proof.Machine

/-- The core's engines and datapath are alive: present, not held, its region running, its clock running (R475, R490). -/
def coreUp (s : State) (c : Nat) : Bool :=
  corePresent s c && !coreHeld s c && !regionHeld s (regionOfCore c) &&
    !regionDown s (regionOfCore c) && coreClocked s c

/-- Engine `e` of the core has not halted. -/
def engUp (s : State) (c e : Nat) : Bool := coreUp s c && (eng s c e).st != .halted

/-- The IE is free: the core is enabled, and the IE has placed all that an earlier event gave (R73). -/
def intakeReady (s : State) (c : Nat) : Bool :=
  engUp s c 0 && blkEnabled s (Reg.core_BLK_CTRL c) && (core s c).fanout.isNone && (core s c).forming.isEmpty

/-- The IE takes a further event: the stop sequence has not begun (R100). -/
def intakeOpen (s : State) (c : Nat) : Bool := intakeReady s c && !(core s c).intakeOff

/-! ### Neuron records (R49-R51) -/

def compact (s : State) (c : Nat) : Bool := isSet s (Reg.core_CORE_CFG_FMT c)

/-- The window offset of record `i`. An index beyond the store (8,192 and more in the standard format) wraps round it (DESIGN CHOICE,
log entry 45: NBASE and NCOUNT have 14 bits, and no rule names the record). -/
def recOff (s : State) (c i : Nat) : Nat := if compact s c then i % 16384 * 8 else i % 8192 * 16
def recLen (s : State) (c : Nat) : Nat := if compact s c then 8 else 16
def recAddr (s : State) (c i : Nat) : Nat := coreBase c + recOff s c i

/-- The protected word that holds CLASS and, in the standard format, RING of record `i`. -/
def recClassWord (s : State) (c i : Nat) : Nat := if compact s c then recOff s c i else recOff s c i + 8

structure NRec where
  v : Int
  dend : Int
  last : Nat
  cls : Nat
  refc : Nat
  trace : Nat
  ring : Nat
  deriving DecidableEq, Repr

/-- Record `i` of core `c`. A compact neuron has no dendrite, and its one slot has the neuron's index (R51). -/
def readRec (s : State) (c i : Nat) : NRec :=
  let a := recAddr s c i
  if compact s c then
    { v := sx 24 (rdBits s a 0 24), dend := 0, last := rdBits s a 24 16, cls := rdBits s a 40 4, refc := rdBits s a 44 4,
      trace := rdBits s a 48 16, ring := i % 16384 }
  else
    { v := sx 24 (rdBits s a 0 24), dend := sx 24 (rdBits s a 24 24), last := rdBits s a 48 16, cls := rdBits s a 64 4,
      refc := rdBits s a 68 4, trace := rdBits s a 80 16, ring := rdBits s a 96 14 }

/-- The SO writes V, DEND, LAST and REFC only (R52). -/
def writeSoma (c i : Nat) (r : NRec) (s : State) : State :=
  let a := recAddr s c i
  if compact s c then
    s |> wrBits a 0 24 (ux 24 r.v) |> wrBits a 24 16 r.last |> wrBits a 44 4 r.refc
  else
    s |> wrBits a 0 24 (ux 24 r.v) |> wrBits a 24 24 (ux 24 r.dend) |> wrBits a 48 16 r.last |> wrBits a 68 4 r.refc

/-- The PE writes TRACE only (R52). -/
def writeTrace (c i t : Nat) (s : State) : State :=
  wrBits (recAddr s c i) (if compact s c then 48 else 80) 16 t s

/-! ### Classes (R53, R54) -/

structure NClass where
  thr : Nat
  graded : Bool
  resetSub : Bool
  leak : Nat
  two : Bool
  dlog2 : Nat
  alpha : Nat
  leakLin : Nat
  alphaD : Nat
  couple : Nat
  csh : Nat
  refSteps : Nat
  dthr : Int
  vmin : Int
  deriving DecidableEq, Repr

def classOff (k : Nat) : Nat := 0x30000 + 32 * k

/-- The first `n` words of a class table entry, as window offsets. -/
def classWords (k n : Nat) : List Nat := (List.range n).map (fun i => classOff k + 4 * i)

/-- The class table entry `k`, with the substitutes of R54. Every engine that uses a field takes its substitute: the synapse
engine too takes that of DLOG2 for the slot index and the check of DLY (DESIGN CHOICE, log entry 44: R54 names the soma engine). -/
def classOf (s : State) (c k : Nat) : NClass :=
  let a := coreBase c + classOff k
  let f (w lo n : Nat) : Nat := rdBits s a (32 * w + lo) n
  let cmp := compact s c
  let d := f 0 29 3
  { thr := if f 0 0 24 = 0 then 1 else f 0 0 24
    graded := f 0 24 1 == 1
    resetSub := f 0 25 1 == 1 || f 0 24 1 == 1
    leak := if f 0 26 2 = 3 then 0 else f 0 26 2
    two := !cmp && f 0 28 1 == 1
    dlog2 := if cmp then 0 else if d = 7 then 6 else if d = 0 then 1 else d
    alpha := f 1 0 16
    leakLin := f 1 16 16
    alphaD := f 2 0 16
    couple := f 2 16 2
    csh := min (f 2 18 5) 23
    refSteps := f 2 24 4
    dthr := sx 24 (f 3 0 24)
    vmin := min (sx 24 (f 4 0 24)) 0 }

def ringDepth (k : NClass) : Nat := 2 ^ k.dlog2

/-- The window offset of the slot that accumulates step `m` (R58). A sum RING + (m mod D) beyond the last slot wraps to the first
(DESIGN CHOICE, log entry 45: the device does not check the constraint, and no rule names the slot). -/
def delayOff (r : NRec) (k : NClass) (m : Nat) : Nat := 0x20000 + 4 * ((r.ring + m % ringDepth k) % 16384)

/-! ### The arithmetic of a step (R66-R70) -/

/-- decay(alpha, k) (R67). -/
def decayLoop (k : Nat) : Nat → Nat → Nat → Nat → Nat
  | 0, _, f, _ => f
  | n + 1, i, f, a =>
    let f' := if bitN k i then (rdiv ((f * a : Nat) : Int) 16).toNat else f
    decayLoop k n (i + 1) f' (rdiv ((a * a : Nat) : Int) 16).toNat

def decay (alpha k : Nat) : Nat := decayLoop k 16 0 65536 alpha

/-- leak(v, c, k) (R67). -/
def leakV (v : Int) (k : NClass) (n : Nat) : Int :=
  if k.leak = 0 then v
  else if k.leak = 2 then rdiv (v * (decay k.alpha n : Nat)) 16
  else
    let amt : Int := ((n * k.leakLin : Nat) : Int)
    if 0 < v then max (v - amt) 0 else if v < 0 then min (v + amt) 0 else 0

/-- couple(d, c) (R68). -/
def coupleD (d : Int) (k : NClass) : Int :=
  if k.couple = 0 then d
  else if k.couple = 1 then rdiv d k.csh
  else if k.couple = 2 then (if k.dthr ≤ d then d else 0)
  else rdiv (max d 0) k.csh

/-- What a firing gives: the potential after it, KIND, PAY, and whether SAT_COUNT counts it (R69, R70). -/
structure Firing where
  v : Int
  kind : Nat
  pay : Nat
  sat : Bool
  deriving DecidableEq, Repr

def fireOf (k : NClass) (v : Int) : Firing :=
  let thr : Int := k.thr
  if k.graded then
    let m := min (v / thr) 15
    let v' := v - m * thr
    if thr ≤ v' then ⟨thr - 1, 1, m.toNat, true⟩ else ⟨v', 1, m.toNat, false⟩
  else
    let v' := if k.resetSub then v - thr else 0
    if thr ≤ v' then ⟨thr - 1, 0, 1, true⟩ else ⟨v', 0, 1, false⟩

/-- The soma update of R66 on a record: the new record and the firing, if any. `x` is the slot's value at step `n`. -/
def somaRec (r : NRec) (k : NClass) (n : Nat) (x : Int) : NRec × Option Firing :=
  let e0 := (n % 2 ^ 16 + 2 ^ 16 - r.last) % 2 ^ 16
  let e := if e0 = 0 then 1 else e0
  let refr := decide (e ≤ r.refc)
  let refc := r.refc - e
  let d := if k.two then sat24 (rdiv (r.dend * (decay k.alphaD e : Nat)) 16 + x) else r.dend
  let u := if k.two then coupleD d k else x
  let v := leakV r.v k e
  if refr then ({ r with v := v, dend := d, last := n % 2 ^ 16, refc := refc }, none)
  else
    let v1 := max (sat24 (v + u)) k.vmin
    if (k.thr : Int) ≤ v1 then
      let f := fireOf k v1
      ({ r with v := f.v, dend := d, last := n % 2 ^ 16, refc := k.refSteps }, some f)
    else ({ r with v := v1, dend := d, last := n % 2 ^ 16, refc := refc }, none)

/-- A neuron is updated at wicket `n` (R65). `i` is its index within the slot's range, `x` its slot's value. -/
def updatedAt (k : NClass) (n i : Nat) (x : Int) : Bool := k.two || x != 0 || i % 4096 == n % 4096

/-! ### Tables of the kernel store (R86-R91) -/

def projOff (i : Nat) : Nat := 0x30200 + 16 * i
def emitOff (i : Nat) : Nat := 0x30600 + 16 * i
def corrOff (i : Nat) : Nat := 0x30E00 + 8 * i

/-- The words of the context slot table that hold CTX, NBASE, NCOUNT, STATE and IN_USE: of one entry, and of all, which a search
compares in one cycle (R75, R92). -/
def slotWords (k : Nat) : List Nat := [0x31600 + 16 * k, 0x31604 + 16 * k]
def tableWords : List Nat := (List.range 256).flatMap slotWords

/-- Bits of the record at window offset `o` of core `c`. -/
def winBits (s : State) (c o lo w : Nat) : Nat := rdBits s (coreBase c + o) lo w

/-- The first used projection whose range holds the axon (R76). -/
def findProj (s : State) (c axon : Nat) : Option Nat :=
  (List.range 64).find? (fun i =>
    let ty := winBits s c (projOff i) 32 2
    (ty == 1 || ty == 2) && decide (winBits s c (projOff i) 0 16 ≤ axon) && decide (axon ≤ winBits s c (projOff i) 16 16))

/-- The words of the projection table that the search for an axon reads, with the rest of the entry found and its kernel
header (R76, R88, R89). -/
def projWords (s : State) (c axon : Nat) : List Nat :=
  match findProj s c axon with
  | none => (List.range 64).flatMap (fun i => [projOff i, projOff i + 4])
  | some p => (List.range (p + 1)).flatMap (fun i => [projOff i, projOff i + 4]) ++ [projOff p + 8] ++
      (if winBits s c (projOff p) 32 2 = 1 then [0x30000 + winBits s c (projOff p) 48 11 * 16] else [])

/-- The signed weight of index `j` of an array at window offset `o` (R89). An index whose place lies past the end of the kernel
store reads what stands at that window offset (DESIGN CHOICE, log entry 46: no rule says what it reads). -/
def kernelWeight (s : State) (c o : Nat) (s4 : Bool) (j : Nat) : Int :=
  if s4 then sx 4 (winBits s c (o + j / 2) (4 * (j % 2)) 4) else sx 8 (winBits s c (o + j) 0 8)

/-- The positions of the output map that an input position feeds, with kernel row and column (R77). -/
structure Tap where
  ky : Nat
  kx : Nat
  tx : Nat
  ty : Nat
  deriving DecidableEq, Repr

/-- One axis of R77: the output coordinate for input coordinate `i` and kernel coordinate `k`. -/
def tapAxis (i pad k : Nat) (stride2 : Bool) (n : Nat) : Option Nat :=
  if i + pad < k then none
  else
    let t := i + pad - k
    let u := if stride2 then t / 2 else t
    if stride2 && t % 2 == 1 then none else if u < n then some u else none

def taps (ix iy pad kh kw outW outH : Nat) (stride2 : Bool) : List Tap :=
  (List.range kh).flatMap (fun ky => (List.range kw).filterMap (fun kx =>
    match tapAxis ix pad kx stride2 outW, tapAxis iy pad ky stride2 outH with
    | some tx, some ty => some ⟨ky, kx, tx, ty⟩
    | _, _ => none))

/-- The list in groups of at most 16. -/
def groups16 {α : Type} : Nat → List α → List (List α)
  | 0, _ => []
  | _, [] => []
  | n + 1, l => l.take 16 :: groups16 n (l.drop 16)

/-- The operation groups of an event of `slot` over kernel projection `p` (R77), in order. -/
def kernelGroups (s : State) (c slot p : Nat) (ev : InEvent) : List (List SynOp) :=
  let pf (lo w : Nat) : Nat := winBits s c (projOff p) lo w
  let ko := 0x30000 + pf 48 11 * 16
  let kf (lo w : Nat) : Nat := winBits s c ko lo w
  let kw := kf 0 5 + 1
  let kh := kf 5 5 + 1
  let cin := kf 10 8 + 1
  let cout := kf 18 8 + 1
  let a := evAxon ev.word - pf 0 16
  let ci := a % cin
  let pos := a / cin
  let inW := pf 64 8 + 1
  let outW := pf 72 8 + 1
  (taps (pos % inW) (pos / inW) (pf 88 4) kh kw outW (pf 80 8 + 1) (pf 92 1 == 1)).flatMap (fun t =>
    groups16 16 ((List.range cout).map (fun co =>
      { slot := slot
        target := slotNBase s c slot + pf 34 14 + (t.ty * outW + t.tx) * cout + co
        weight := .kernel (ko + 16) (kf 26 1 == 1) (((t.ky * kw + t.kx) * cin + ci) * cout + co)
        wsh := kf 27 4
        pay := payOf ev.word
        step := ev.step + evDly ev.word
        dly := evDly ev.word })))

/-- The target lies in its slot's range (R79). -/
def targetOk (s : State) (c : Nat) (o : SynOp) : Bool :=
  decide (slotNBase s c o.slot ≤ o.target) && decide (o.target ≤ slotNBase s c o.slot + slotNCount s c o.slot)

/-- The weight that the SE takes for an operation, and the words it reads for it (R72, R89). -/
def opValue (s : State) (c : Nat) (o : SynOp) : Int :=
  match o.weight with
  | .value w => w
  | .kernel k s4 j => kernelWeight s c k s4 j
def weightWords (o : SynOp) : List Nat :=
  match o.weight with
  | .value _ => []
  | .kernel k s4 j => storeWords (if s4 then k + j / 2 else k + j) 1

/-- The contribution of an operation (R55). -/
def contribution (s : State) (c : Nat) (o : SynOp) : Int := opValue s c o * o.pay * (2 ^ o.wsh : Nat)

/-- Operations discarded for a bad target are counted and recorded (R79). -/
def badTargets (c n : Nat) (s : State) : State :=
  if n = 0 then s else s |> addSat (Reg.core_TARGET_ERR_COUNT_COUNT c) n |> coreFault c 6 0 7 0

/-- Add to the slot at a window offset, wrapping (R57). -/
def addDelay (c o : Nat) (x : Int) (s : State) : State :=
  wrNum (coreBase c + o) 4 (ux 32 (sx 32 (rdNum s (coreBase c + o) 4) + x)) s

/-! ### Traces (R259-R263) -/

/-- The set that keeps traces for the slot. -/
def tracingSet (s : State) (c slot : Nat) : Option Nat :=
  match setOf s c slot with
  | some i => if isSet s (Reg.pe_LSET_TRACE_EN c i) then some i else none
  | none => none

/-- The window offset of the pre trace of an axon in a slot of set `i` (R261). -/
def preOff (s : State) (c i slot axon : Nat) : Option Nat :=
  let lo := getF s (Reg.pe_LSET_PT_AXON_LO c i)
  let n := getF s (Reg.pe_LSET_PT_AXONS c i)
  if lo ≤ axon ∧ axon < lo + n then
    some (0x30000 + (getF s (Reg.pe_LSET_PT_BASE c i)
      + 2 * ((slot - getF s (Reg.pe_LSET_SLOT_FIRST c i)) * n + (axon - lo))) % 0x8000)
  else none

/-- R262 on one trace. -/
def decayTrace (t alpha : Nat) : Nat := (rdiv ((t * alpha : Nat) : Int) 16).toNat

/-- A step of engine `e` at one word after another: nothing once the engine has halted (R98). -/
def unlessHalted (c e : Nat) (f : State → State) (s : State) : State := if (eng s c e).st = .halted then s else f s

/-- At a wicket of a slot the PE decays its post and pre traces (R262); nothing while LEARN_EN is 0 (R260). -/
def traceDecay (c slot : Nat) (s : State) : State :=
  match (if isSet s (Reg.core_CORE_CFG_LEARN_EN c) then tracingSet s c slot else none) with
  | none => s
  | some i =>
    let ap := getF s (Reg.pe_LSET_ALPHA_POST c i)
    let ar := getF s (Reg.pe_LSET_ALPHA_PRE c i)
    let s1 := (List.range (slotNCount s c slot + 1)).foldl (fun t j =>
      let n := slotNBase s c slot + j
      unlessHalted c 3 (localWords c 3 [recClassWord t c n] (fun u => writeTrace c n (decayTrace (readRec u c n).trace ap) u)) t) s
    (List.range (getF s (Reg.pe_LSET_PT_AXONS c i))).foldl (fun t j =>
      match preOff s c i slot (getF s (Reg.pe_LSET_PT_AXON_LO c i) + j) with
      | some o => unlessHalted c 3 (localAccess c 3 o 2
          (fun u => wrNum (coreBase c + o) 2 (decayTrace (rdNum u (coreBase c + o) 2) ar) u)) t
      | none => t) s1

end Sys2Proof.Machine
end

