-- ==== Sys2Proof/Machine/Clock.lean ====
section
/-! DEFINITION. What passes on an empty queue: one cycle of AON_CLK, 10 ns, of the counters that no command advances (log
entry 5). -/

namespace Sys2Proof.Machine

/-- The recorder's clock counts one AON_CLK cycle: 100 cycles to the microsecond (R447), with MICROS, SECONDS and HOURS as
R446 bounds them; HOURS keeps its highest value. -/
def recTick (k : Recorder) : Recorder :=
  if k.cycles < 99 then { k with cycles := k.cycles + 1 }
  else if k.micros < 999999 then { k with cycles := 0, micros := k.micros + 1 }
  else if k.seconds < 3599 then { k with cycles := 0, micros := 0, seconds := k.seconds + 1 }
  else { k with cycles := 0, micros := 0, seconds := 0, hours := Nat.min (k.hours + 1) 0xFFFFF }

/-- AON_CLK runs: RST_N is high and the device is not in P4. -/
def aonRuns (s : State) : Bool := s.pins.rstN && !s.power.p4

/-- CL_MTIME counts: its main reference is present, and the device is not in P3 (R386). -/
def mtimeRuns (s : State) : Bool :=
  aonRuns s && !s.power.p3 && bitN (getF s Reg.clk_CLK_STATUS_REF_OK) 0

/-- PTP_TIME counts: PLL_TB (bit 3 of R455) is locked (R366). -/
def ptpRuns (s : State) : Bool := aonRuns s && !s.power.p3 && bitN (getF s Reg.clk_CLK_STATUS_LOCK) 3

/-- TB_RATE_ADJ as a signed number (R379). -/
def rateAdj (s : State) : Int := (BitVec.ofNat 32 (getF s Reg.aet_TB_RATE_ADJ_ADJ)).toInt

/-- What TB_CLK has run since its last whole ns, in units of 2^-42 ns, after 10 ns more at its steered rate (R366). -/
def tbRun (s : State) : Nat := s.aet.frac + (10 * (2 ^ 42 + rateAdj s)).toNat

/-- TB_CLK runs for one AON_CLK cycle: PTP_TIME and the time of the tick grid advance by the whole ns (R366). -/
def tbTick (s : State) : State :=
  let n := tbRun s / 2 ^ 42
  addWrap Reg.aet_PTP_TIME_NS n { s with aet := { s.aet with tbTime := s.aet.tbTime + n, frac := tbRun s % 2 ^ 42 } }

/-- The routers at which a packet waits at an output. -/
def waitingRouters (s : State) : List Nat := ((s.fab.flights.filter (fun f => !f.delivered && decide (f.router < 1024))).map (·.router)).eraseDups

/-- The fabric's time: 16 cycles of FAB_CLK, in which every packet that stands at a router waits at its output (R195, R201). -/
def fabTick (s : State) : State :=
  (waitingRouters s).foldl (fun t r => addWrap (Reg.rtr_RTR_STALL_CYCLES_COUNT r) 16 t)
    { s with fab := { s.fab with now := s.fab.now + 1 } }

/-- The engines that have work, of the cores whose clock runs (R94, R102). -/
def workingEngines (s : State) : List (Nat × Nat) :=
  ((List.range 1024).filter (coreUp s)).flatMap (fun c => ((List.range 6).filter (engBusy s c)).map (fun e => (c, e)))

/-- BUSY_CYCLES and STALL_CYCLES of an engine that has work gain free numbers of cycles: commands take no time, so how many cycles
of CORE_CLK saw progress is open (R102, log entry 6). -/
def engCycles (p : Nat × Nat) (s : State) : State :=
  s |> addWrap (Reg.eng_BUSY_CYCLES_COUNT p.1 p.2) (freeWord s).toNat |> spendFree
    |> (fun t => t |> addWrap (Reg.eng_STALL_CYCLES_COUNT p.1 p.2) (freeWord t).toNat |> spendFree)

/-- The cores' time, over the engines `ps` that have work. -/
def coreTick (ps : List (Nat × Nat)) (s : State) : State := ps.foldl (fun t p => engCycles p t) s

/-- One AON_CLK cycle. -/
def idle (s : State) : State :=
  s |> (fun t => if aonRuns s then { t with recorder := recTick t.recorder } else t)
    |> (fun t => if mtimeRuns s then incWrap Reg.cl_CL_MTIME_TIME t else t)
    |> (fun t => if aonRuns s && !s.power.p3 then fabTick t else t)
    |> (fun t => if aonRuns s && !s.power.p3 then coreTick (workingEngines s) t else t)
    |> (fun t => if ptpRuns s then tbTick t else t)

end Sys2Proof.Machine
end

