-- ==== Sys2Proof/Machine/AcisScalar.lean ====
section
/-! DEFINITION. ACIS scalar arithmetic and control flow (R110, R111, R115). -/

namespace Sys2Proof.Machine

/-- A Form A operation: rd := f(ra, rb) (R110). -/
def scalarOp (f : Word → Word → Word) (illegal : Bool) (c e rd ra rb : Nat) (s : State) : State :=
  issue c e [rd, ra, rb] illegal (regOf s c e ra)
    (fun t => t |> setReg c e rd (f (regOf t c e ra) (regOf t c e rb)) |> retire c e) s

/-- A Form B operation: rd := f(ra, imm) (R111). -/
def immOp (f : Word → Nat → Word) (illegal : Bool) (c e rd ra imm : Nat) (s : State) : State :=
  issue c e [rd, ra] illegal (regOf s c e ra)
    (fun t => t |> setReg c e rd (f (regOf t c e ra) imm) |> retire c e) s

/-- sext and zext of a 16-bit immediate. -/
def sext16 (imm : Nat) : Word := (BitVec.ofNat 16 imm).signExtend 32
def zext16 (imm : Nat) : Word := (BitVec.ofNat 16 imm).zeroExtend 32

/-- The shift amount rb[4:0]. -/
def amt (b : Word) : Nat := b.toNat % 32

def wSlt (a b : Word) : Word := if a.slt b then 1 else 0
def wSltu (a b : Word) : Word := if a.ult b then 1 else 0
def wMin (a b : Word) : Word := if a.slt b then a else b
def wMax (a b : Word) : Word := if a.slt b then b else a
/-- The upper half of the signed 64-bit product. -/
def wMulh (a b : Word) : Word := BitVec.ofInt 32 (a.toInt * b.toInt / 2 ^ 32)
def wRsra (a : Word) (n : Nat) : Word := BitVec.ofInt 32 (rdiv a.toInt n)
def wSat (w : Nat) (a : Word) : Word := BitVec.ofInt 32 (satS w a.toInt)

/-- ADD (R110): wrapping sum. -/
def execAdd (c e rd ra rb : Nat) (s : State) : Host.Outcome State Fault Refusal :=
  live s (scalarOp (fun a b => a + b) false c e rd ra rb s)

/-- SUB (R110): wrapping difference. -/
def execSub (c e rd ra rb : Nat) (s : State) : Host.Outcome State Fault Refusal :=
  live s (scalarOp (fun a b => a - b) false c e rd ra rb s)

/-- AND (R110): bitwise and. -/
def execAnd (c e rd ra rb : Nat) (s : State) : Host.Outcome State Fault Refusal :=
  live s (scalarOp (fun a b => a &&& b) false c e rd ra rb s)

/-- OR (R110): bitwise or. -/
def execOr (c e rd ra rb : Nat) (s : State) : Host.Outcome State Fault Refusal :=
  live s (scalarOp (fun a b => a ||| b) false c e rd ra rb s)

/-- XOR (R110): bitwise exclusive or. -/
def execXor (c e rd ra rb : Nat) (s : State) : Host.Outcome State Fault Refusal :=
  live s (scalarOp (fun a b => a ^^^ b) false c e rd ra rb s)

/-- SLL (R110): shift left by rb[4:0]. -/
def execSll (c e rd ra rb : Nat) (s : State) : Host.Outcome State Fault Refusal :=
  live s (scalarOp (fun a b => a <<< amt b) false c e rd ra rb s)

/-- SRL (R110): logical shift right by rb[4:0]. -/
def execSrl (c e rd ra rb : Nat) (s : State) : Host.Outcome State Fault Refusal :=
  live s (scalarOp (fun a b => a >>> amt b) false c e rd ra rb s)

/-- SRA (R110): arithmetic shift right by rb[4:0]. -/
def execSra (c e rd ra rb : Nat) (s : State) : Host.Outcome State Fault Refusal :=
  live s (scalarOp (fun a b => a.sshiftRight (amt b)) false c e rd ra rb s)

/-- SLT (R110): signed comparison. -/
def execSlt (c e rd ra rb : Nat) (s : State) : Host.Outcome State Fault Refusal :=
  live s (scalarOp (wSlt) false c e rd ra rb s)

/-- SLTU (R110): unsigned comparison. -/
def execSltu (c e rd ra rb : Nat) (s : State) : Host.Outcome State Fault Refusal :=
  live s (scalarOp (wSltu) false c e rd ra rb s)

/-- MIN (R110): signed minimum. -/
def execMin (c e rd ra rb : Nat) (s : State) : Host.Outcome State Fault Refusal :=
  live s (scalarOp (wMin) false c e rd ra rb s)

/-- MAX (R110): signed maximum. -/
def execMax (c e rd ra rb : Nat) (s : State) : Host.Outcome State Fault Refusal :=
  live s (scalarOp (wMax) false c e rd ra rb s)

/-- MUL (R110): low half of the product. -/
def execMul (c e rd ra rb : Nat) (s : State) : Host.Outcome State Fault Refusal :=
  live s (scalarOp (fun a b => a * b) false c e rd ra rb s)

/-- MULH (R110): high half of the signed product. -/
def execMulh (c e rd ra rb : Nat) (s : State) : Host.Outcome State Fault Refusal :=
  live s (scalarOp (wMulh) false c e rd ra rb s)

/-- RSRA (R110): rounding shift right. -/
def execRsra (c e rd ra rb : Nat) (s : State) : Host.Outcome State Fault Refusal :=
  live s (scalarOp (fun a b => wRsra a (amt b)) false c e rd ra rb s)

/-- SAT24 (R110): clamp to 24 bits; rb must be 0. -/
def execSat24 (c e rd ra rb : Nat) (s : State) : Host.Outcome State Fault Refusal :=
  live s (scalarOp (fun a _ => wSat 24 a) (rb != 0) c e rd ra rb s)

/-- ADDI (R111): ra + sext(imm). -/
def execAddi (c e rd ra imm : Nat) (s : State) : Host.Outcome State Fault Refusal :=
  live s (immOp (fun a i => a + sext16 i) (false) c e rd ra imm s)

/-- ANDI (R111): and with zext(imm). -/
def execAndi (c e rd ra imm : Nat) (s : State) : Host.Outcome State Fault Refusal :=
  live s (immOp (fun a i => a &&& zext16 i) (false) c e rd ra imm s)

/-- ORI (R111): or with zext(imm). -/
def execOri (c e rd ra imm : Nat) (s : State) : Host.Outcome State Fault Refusal :=
  live s (immOp (fun a i => a ||| zext16 i) (false) c e rd ra imm s)

/-- XORI (R111): exclusive or with zext(imm). -/
def execXori (c e rd ra imm : Nat) (s : State) : Host.Outcome State Fault Refusal :=
  live s (immOp (fun a i => a ^^^ zext16 i) (false) c e rd ra imm s)

/-- LUI (R111): imm shifted left by 16; ra must be zero. -/
def execLui (c e rd ra imm : Nat) (s : State) : Host.Outcome State Fault Refusal :=
  live s (immOp (fun _ i => zext16 i <<< 16) (ra != 0) c e rd ra imm s)

/-- SLLI (R111): shift left; imm[15:5] must be zero. -/
def execSlli (c e rd ra imm : Nat) (s : State) : Host.Outcome State Fault Refusal :=
  live s (immOp (fun a i => a <<< (i % 32)) (decide (32 ≤ imm)) c e rd ra imm s)

/-- SRLI (R111): logical shift right; imm[15:5] must be zero. -/
def execSrli (c e rd ra imm : Nat) (s : State) : Host.Outcome State Fault Refusal :=
  live s (immOp (fun a i => a >>> (i % 32)) (decide (32 ≤ imm)) c e rd ra imm s)

/-- SRAI (R111): arithmetic shift right; imm[15:5] must be zero. -/
def execSrai (c e rd ra imm : Nat) (s : State) : Host.Outcome State Fault Refusal :=
  live s (immOp (fun a i => a.sshiftRight (i % 32)) (decide (32 ≤ imm)) c e rd ra imm s)

/-- SLTI (R111): signed comparison with sext(imm). -/
def execSlti (c e rd ra imm : Nat) (s : State) : Host.Outcome State Fault Refusal :=
  live s (immOp (fun a i => wSlt a (sext16 i)) (false) c e rd ra imm s)

/-- RSRAI (R111): rounding shift right; imm[15:5] must be zero. -/
def execRsrai (c e rd ra imm : Nat) (s : State) : Host.Outcome State Fault Refusal :=
  live s (immOp (fun a i => wRsra a (i % 32)) (decide (32 ≤ imm)) c e rd ra imm s)

/-! ### Control flow (R115) -/

/-- The condition codes of R115; `none` for the reserved codes 6-14. -/
def condHolds (cond : Nat) (a b : Word) : Option Bool :=
  match cond with
  | 0 => some (a == b)
  | 1 => some (a != b)
  | 2 => some (a.slt b)
  | 3 => some (!a.slt b)
  | 4 => some (a.ult b)
  | 5 => some (!a.ult b)
  | 15 => some true
  | _ => none

/-- BR (R115): branch to `target` when the condition holds. Reserved conditions, and ALWAYS with ra or rb nonzero, are
ILLEGAL (R109). -/
def execBr (c e ra rb cond target : Nat) (s : State) : Host.Outcome State Fault Refusal :=
  live s (issue c e [ra, rb]
    ((condHolds cond 0 0).isNone || (cond == 15 && (ra != 0 || rb != 0))) (regOf s c e ra)
    (fun t => if condHolds cond (regOf t c e ra) (regOf t c e rb) = some true then retireTo c e target t else retire c e t) s)

/-- JAL (R115): s31 := pc + 1, pc := target; ra, rb and cond must be zero. -/
def execJal (c e ra rb cond target : Nat) (s : State) : Host.Outcome State Fault Refusal :=
  live s (issue c e [31] (ra != 0 || rb != 0 || cond != 0) (regOf s c e ra)
    (fun t => t |> setReg c e 31 (BitVec.ofNat 32 ((eng t c e).pc + 1)) |> retireTo c e target) s)

/-- JR (R115): pc := ra[11:0]; rb, cond and target must be zero; a nonzero ra[31:12] raises FETCH_RANGE. -/
def execJr (c e ra rb cond target : Nat) (s : State) : Host.Outcome State Fault Refusal :=
  live s (issue c e [ra] (rb != 0 || cond != 0 || target != 0) (regOf s c e ra)
    (fun t => if 4096 ≤ (regOf t c e ra).toNat then exc c e 2 (regOf t c e ra) t
      else retireTo c e (regOf t c e ra).toNat t) s)

end Sys2Proof.Machine
end

