-- ==== Sys2Proof/Machine/AcisMem.lean ====
section
/-! DEFINITION. ACIS loads and stores, to the local stores and to the slice view (R112-R114). -/

namespace Sys2Proof.Machine

/-- The address of a Form B access: ra + sext(imm). -/
def formBAddr (s : State) (c e ra imm : Nat) : Nat := (regOf s c e ra + sext16 imm).toNat

/-- A local load of `n` bytes: ALIGN, then ADDR, then the data into rd through `f` (R112). -/
def loadLocal (n : Nat) (f : Nat → Word) (c e rd ra imm upset : Nat) (s : State) : State :=
  issue c e [rd, ra] false (regOf s c e ra)
    (fun t =>
      let o := formBAddr t c e ra imm
      if o % n ≠ 0 then exc c e 3 (BitVec.ofNat 32 o) t
      else if 0x40000 ≤ o then exc c e 4 (BitVec.ofNat 32 o) t
      else localAccess c e o n (fun u => u |> setReg c e rd (f (rdNum u (coreBase c + o) n)) |> retire c e)
        (addUpset (eccWordOf c o) upset t)) s

/-- A local store of the low `n` bytes of rd (R112, R113). Where ALIGN, ADDR and STORE_DENIED meet, they are judged in that
order (DESIGN CHOICE, log entry 43: no rule orders them). A store of less than a protected word reads the word (R97). -/
def storeLocal (n : Nat) (c e rd ra imm : Nat) (s : State) : State :=
  issue c e [rd, ra] false (regOf s c e ra)
    (fun t =>
      let o := formBAddr t c e ra imm
      if o % n ≠ 0 then exc c e 3 (BitVec.ofNat 32 o) t
      else if 0x40000 ≤ o then exc c e 4 (BitVec.ofNat 32 o) t
      else if !storeOk e o n then exc c e 5 (BitVec.ofNat 32 o) t
      else localUpdate c e o n (fun u => u |> localWrite c e o n (regOf u c e rd).toNat |> retire c e) t) s

/-- LW (R112). -/
def execLw (c e rd ra imm upset : Nat) (s : State) : Host.Outcome State Fault Refusal :=
  live s (loadLocal 4 (BitVec.ofNat 32) c e rd ra imm upset s)

/-- LH (R112): sign-extended half. -/
def execLh (c e rd ra imm : Nat) (s : State) : Host.Outcome State Fault Refusal :=
  live s (loadLocal 2 (fun v => (BitVec.ofNat 16 v).signExtend 32) c e rd ra imm 0 s)

/-- LHU (R112): zero-extended half. -/
def execLhu (c e rd ra imm : Nat) (s : State) : Host.Outcome State Fault Refusal :=
  live s (loadLocal 2 (BitVec.ofNat 32) c e rd ra imm 0 s)

/-- LB (R112): sign-extended byte. -/
def execLb (c e rd ra imm : Nat) (s : State) : Host.Outcome State Fault Refusal :=
  live s (loadLocal 1 (fun v => (BitVec.ofNat 8 v).signExtend 32) c e rd ra imm 0 s)

/-- LBU (R112): zero-extended byte. -/
def execLbu (c e rd ra imm : Nat) (s : State) : Host.Outcome State Fault Refusal :=
  live s (loadLocal 1 (BitVec.ofNat 32) c e rd ra imm 0 s)

/-- SW (R112, R113). -/
def execSw (c e rd ra imm : Nat) (s : State) : Host.Outcome State Fault Refusal :=
  live s (storeLocal 4 c e rd ra imm s)

/-- SH (R112, R113). -/
def execSh (c e rd ra imm : Nat) (s : State) : Host.Outcome State Fault Refusal :=
  live s (storeLocal 2 c e rd ra imm s)

/-- SB (R112, R113). -/
def execSb (c e rd ra imm : Nat) (s : State) : Host.Outcome State Fault Refusal :=
  live s (storeLocal 1 c e rd ra imm s)

/-! ### Slice loads and stores (R114) -/

/-- The checks of a slice access at issue: alignment, and the length of the view (R112, R114). -/
def sliceIssue (n off : Nat) (c e : Nat) (body : State → State) (s : State) : State :=
  if off % n ≠ 0 then exc c e 3 (BitVec.ofNat 32 off) s
  else if viewLen s.variant ≤ off then exc c e 4 (BitVec.ofNat 32 off) s
  else body s

/-- The payload of a slice write: kind 0, bit set 1, bit clear 2, or the lane additions 3, in which a disabled lane adds zero
(R119, R121, R174). -/
def sliceData : SliceOp → Nat × List Byte
  | .read _ => (0, [])
  | .write bs => (0, bs)
  | .bits set bs => (if set then 1 else 2, bs)
  | .add ws => (3, ws.flatMap (fun w => toBytes (w.getD 0).toNat 4))

/-- The packet of a slice access (R174, R183): to the slice port of the block of R26, with the slice offset in EXT. -/
def slicePacket (s : State) (c e off : Nat) (op : SliceOp) : Packet :=
  let b := sliceOf s.variant off
  let d := sliceData op
  { ty := (if sliceOpWrites op then .memWr else .memRd), src := 4 * c, dst := 4 * centralRouter b.1 + 1
    ext := b.2 % 2 ^ 20 + (sliceOpLen op - 1) % 256 * 2 ^ 20 + d.1 * 2 ^ 29
    flits := if sliceOpWrites op then (sliceOpLen op + 31) / 32 else 1
    data := ofBytes d.2, engine := e, raw := s.fab.tag }

/-- The slice access of an engine leaves for its slice, and the next has the next number. -/
def postSlice (c e off : Nat) (op : SliceOp) (s : State) : State :=
  let t := post (slicePacket s c e off op) s
  { t with fab := { t.fab with tag := t.fab.tag + 1 } }

/-- A slice read of engine `e` is issued: its entry is the space for the response (R181). -/
def issueRead (c e : Nat) (r : SliceRead) (n : Nat) (s : State) : State :=
  s |> modEng c e (fun g => { g with reads := g.reads ++ [{ r with tag := s.fab.tag }] }) |> postSlice c e r.off (.read n)

/-- A slice store of engine `e` is issued. -/
def issueStore (c e off : Nat) (op : SliceOp) (s : State) : State :=
  s |> modEng c e (fun g => { g with posted := g.posted ++ [⟨off, op, g.pc, s.fab.tag⟩] }) |> postSlice c e off op

/-- LWS (R112, R114): the read is issued; rd is awaited until its response. -/
def execLws (c e rd ra imm : Nat) (s : State) : Host.Outcome State Fault Refusal :=
  live s (issue c e [rd, ra] false (regOf s c e ra)
    (fun t => sliceIssue 4 (formBAddr t c e ra imm) c e
      (fun u => u |> issueRead c e ⟨false, rd, formBAddr t c e ra imm, (eng t c e).pc, 0, 0, none⟩ 4 |> retire c e) t) s)

/-- The oldest read of a kind whose response has arrived, with the response, and the reads without it. -/
def takeRead (vector : Bool) : List SliceRead → Option (SliceRead × Option Nat × List SliceRead)
  | [] => none
  | r :: l =>
    match (if r.vector == vector then r.ans else none) with
    | some a => some (r, a, l)
    | none => (takeRead vector l).map (fun x => (x.1, x.2.1, r :: x.2.2))

/-- The response to a slice read is taken: `body` on its data, or SLICE_ERR with the instruction's index and slice offset. -/
def readResponse (vector : Bool) (c e : Nat) (body : SliceRead → Nat → State → State) (s : State) : State :=
  match (if engRuns s c then takeRead vector (eng s c e).reads else none) with
  | none => s
  | some (r, a, l) =>
    let t := modEng c e (fun g => { g with reads := l }) s
    match a with
    | some v => body r v t
    | none => raiseExc c e 6 r.pc false (BitVec.ofNat 32 r.off) t

/-- LWS_RESPONSE (R114): the slice's response to an LWS writes rd, or raises SLICE_ERR. -/
def execLwsResponse (c e : Nat) (s : State) : Host.Outcome State Fault Refusal :=
  live s (readResponse false c e (fun r v t => setReg c e r.dst (BitVec.ofNat 32 v) t) s)

/-- SWS (R112, R114): the store is issued; its packet leaves for the slice. -/
def execSws (c e rd ra imm : Nat) (s : State) : Host.Outcome State Fault Refusal :=
  live s (issue c e [rd, ra] false (regOf s c e ra)
    (fun t => sliceIssue 4 (formBAddr t c e ra imm) c e
      (fun u => u |> issueStore c e (formBAddr t c e ra imm) (.write (toBytes (regOf t c e rd).toNat 4)) |> retire c e) t) s)

/-- SWS_ERROR (R114): at an instruction boundary, the bus error of a slice store raises SLICE_ERR with the store's index and
offset. Until the engine is at one, the error waits. -/
def execSwsError (c e : Nat) (s : State) : Host.Outcome State Fault Refusal :=
  live s (match (eng s c e).storeErr with
    | [] => s
    | (pc, off) :: l =>
      if atBoundary s c e && engRuns s c then raiseExc c e 6 pc false (BitVec.ofNat 32 off) (modEng c e (fun g => { g with storeErr := l }) s)
      else s)

end Sys2Proof.Machine
end

