-- ==== Sys2Proof/Machine/AcisSync.lean ====
section
/-! DEFINITION. ACIS CSR access, semaphores, herds, queues and channels (R116-R128, R143-R159). -/

namespace Sys2Proof.Machine

/-! ### CSR access (R116-R118) -/

/-- The address of CSR number `n` for engine `e`. -/
def csrNum (c e n : Nat) : Nat :=
  if n < 0x400 then coreBase c + 0x90000 + e * 0x1000 + n else coreBase c + 0x80000 + (n - 0x400)

/-- CSRR (R116, R118). -/
def execCsrr (c e rd ra imm : Nat) (s : State) : Host.Outcome State Fault Refusal :=
  live s (issueFree c e [rd] (ra != 0 || decide (0x800 ≤ imm))
    (fun t => if imm % 4 ≠ 0 then exc c e 3 (BitVec.ofNat 32 imm) t
      else
        let r := readWord (.core c e) (csrNum c e imm) 0 t
        r.2 |> setReg c e rd r.1 |> retire c e) s)

/-- CSRW (R116, R117): the core page, GANDER_LIMIT and HANDLER_LIMIT are denied. A number that is both misaligned and denied raises
ALIGN (DESIGN CHOICE, log entry 43: no rule orders the two). The CSR is written before the instruction
retires; RETIRED is read-only. -/
def execCsrw (c e rd ra imm : Nat) (s : State) : Host.Outcome State Fault Refusal :=
  live s (issue c e [rd] (ra != 0 || decide (0x800 ≤ imm)) (regOf s c e rd)
    (fun t => if imm % 4 ≠ 0 then exc c e 3 (BitVec.ofNat 32 imm) t
      else if 0x400 ≤ imm ∨ imm = 0x8 ∨ imm = 0x18C then exc c e 5 (BitVec.ofNat 32 imm) t
      else t |> engineWrite c e (csrNum c e imm) (regOf t c e rd) |> retire c e) s)

/-- CSRRD (R116): both words in one access. -/
def execCsrrd (c e rd ra imm : Nat) (s : State) : Host.Outcome State Fault Refusal :=
  live s (issueFree c e [rd, rd + 1] (ra != 0 || decide (0x800 ≤ imm) || rd % 2 == 1 || rd == 0)
    (fun t => if imm % 8 ≠ 0 then exc c e 3 (BitVec.ofNat 32 imm) t
      else
        let a := csrNum c e imm
        let hi := liveOf t (a + 4) (rdWord t (a + 4))
        let r := readWord (.core c e) a 0 t
        r.2 |> setReg c e rd r.1 |> setReg c e (rd + 1) hi |> retire c e) s)

/-! ### Semaphores (R122-R124, R143-R145) -/

def semPhysical (imm8 : Nat) : Bool := bitN imm8 5

/-- The semaphore operand is invalid: a nonzero field or a physical id beyond 8 bits (R122, R123, R109). -/
def semIllegal (wait : Bool) (s : State) (c e ra imm8 : Nat) : Bool :=
  imm8 / 64 != 0 ||
  (if semPhysical imm8 then decide (256 ≤ (regOf s c e ra).toNat) else ra != 0 || (!wait && bitN imm8 4))

/-- The physical id of the semaphore an instruction names (R122). -/
def semId (s : State) (c e ra imm8 : Nat) : Nat :=
  if semPhysical imm8 then (regOf s c e ra).toNat % 256
  else semVirt s c (getF s (Reg.eng_CUR_SLOT_SLOT c e)) (imm8 % 16)

/-- A virtual id without a slot (R123). -/
def semNoSlot (s : State) (c e imm8 : Nat) : Bool := !semPhysical imm8 && decide (256 ≤ getF s (Reg.eng_CUR_SLOT_SLOT c e))

/-- The first source operand of a semaphore instruction. -/
def semSrc (s : State) (c e ra rb imm8 : Nat) : Word := if semPhysical imm8 then regOf s c e ra else regOf s c e rb

/-- The protected words that a semaphore instruction reads: of the translation table, and of the semaphore. -/
def semWords (s : State) (c e ra imm8 : Nat) : List Nat :=
  (if semPhysical imm8 then [] else storeWords (0x3B000 + 16 * getF s (Reg.eng_CUR_SLOT_SLOT c e) + imm8 % 16) 1) ++
    storeWords (0x3A400 + 2 * semId s c e ra imm8) 2

/-- A semaphore instruction: ILLEGAL, SLOT_STATE, SEM_RANGE for an operand above 65,535, then its own effect (R123). Where
SLOT_STATE and SEM_RANGE meet, SLOT_STATE is raised (DESIGN CHOICE, log entry 43: no rule orders them). -/
def semOp (wait rdUsed rbUsed : Bool) (c e rd ra rb imm8 : Nat) (body : Nat → Nat → State → State) (s : State) : State :=
  let ill := semIllegal wait s c e ra imm8 || (!rdUsed && rd != 0) || (!rbUsed && rb != 0)
  let core' (t : State) : State :=
    if semNoSlot t c e imm8 then (if rbUsed then exc c e 12 (semSrc t c e ra rb imm8) t else excFree c e 12 t)
    else if rbUsed && decide (65535 < (regOf t c e rb).toNat) then exc c e 7 (semSrc t c e ra rb imm8) t
    else localWords c e (semWords t c e ra imm8) (body (semId t c e ra imm8) (regOf t c e rb).toNat) t
  if semPhysical imm8 || rbUsed then issue c e [rd, ra, rb] ill (semSrc s c e ra rb imm8) core' s
  else issueFree c e [rd, ra, rb] ill core' s

/-- A passing SWAIT: subtract if asked, and retire (R122, R145). -/
def semPass (c e id n : Nat) (sub : Bool) (s : State) : State :=
  s |> (fun t => if sub then setSem c id (semOf t c id - n) t else t) |> resumeEng c e

/-- The order in which engines that meet in a cycle are served (R124). -/
def engineOrder : List Nat := [2, 1, 0, 4, 3, 5]

/-- An engine before `e` in the order of R124 waits with subtract on semaphore `id`, and the count covers its operand. -/
def semAhead (s : State) (c e id : Nat) : Bool :=
  (engineOrder.takeWhile (· != e)).any (fun f =>
    match (eng s c f).wait with
    | .sem id' n sub => sub && id' == id && decide (n ≤ semOf s c id)
    | _ => false)

/-- An SWAIT of engine `e` on semaphore `id` passes: the count covers it, and with subtract no earlier engine that waits is
covered (R124, R145). -/
def semPasses (s : State) (c e id n : Nat) (sub : Bool) : Bool :=
  decide (n ≤ semOf s c id) && !(sub && semAhead s c e id)

/-- SWAIT (R122, R145). -/
def execSwait (c e rd ra rb imm8 : Nat) (s : State) : Host.Outcome State Fault Refusal :=
  live s (semOp true false true c e rd ra rb imm8
    (fun id n t => if semPasses t c e id n (bitN imm8 4) then semPass c e id n (bitN imm8 4) t
      else waitFor c e .waitSync (.sem id n (bitN imm8 4)) t) s)

/-- SWAIT_PASS (R124, R145). -/
def execSwaitPass (c e : Nat) (s : State) : Host.Outcome State Fault Refusal :=
  live s (match (eng s c e).wait with
    | .sem id n sub => whileRuns c (localWords c e (storeWords (0x3A400 + 2 * id) 2)
        (fun t => if semPasses t c e id n sub then semPass c e id n sub t else t)) s
    | _ => s)

/-- SADD (R122, R123). -/
def execSadd (c e rd ra rb imm8 : Nat) (s : State) : Host.Outcome State Fault Refusal :=
  live s (semOp false false true c e rd ra rb imm8
    (fun id n t => if 65535 < semOf t c id + n then exc c e 7 (semSrc t c e ra rb imm8) t
      else t |> setSem c id (semOf t c id + n) |> retire c e) s)

/-- SSUB (R122, R123). -/
def execSsub (c e rd ra rb imm8 : Nat) (s : State) : Host.Outcome State Fault Refusal :=
  live s (semOp false false true c e rd ra rb imm8
    (fun id n t => if semOf t c id < n then exc c e 7 (semSrc t c e ra rb imm8) t
      else t |> setSem c id (semOf t c id - n) |> retire c e) s)

/-- SREAD (R122): rb must be zero. Its virtual form has no source operand. -/
def execSread (c e rd ra rb imm8 : Nat) (s : State) : Host.Outcome State Fault Refusal :=
  live s (semOp false true false c e rd ra rb imm8
    (fun id _ t => t |> setReg c e rd (BitVec.ofNat 32 (semOf t c id)) |> retire c e) s)

/-! ### Herds (R125, R126, R146, R147) -/

def setHerdMask (c h v : Nat) (s : State) : State := wrBits (herdBase c h) 0 6 v s
def setHerdArrived (c h v : Nat) (s : State) : State := wrBits (herdBase c h) 8 6 v s
def setHerdWaiting (c h v : Nat) (s : State) : State := wrBits (herdBase c h) 16 6 v s

/-- Engine `e` arrives in the current round of herd `h`, waiting or not. -/
def herdMark (c e h : Nat) (wait : Bool) (s : State) : State :=
  s |> setHerdArrived c h (herdArrived s c h ||| 2 ^ e)
    |> (fun t => if wait then setHerdWaiting c h (herdWaiting t c h ||| 2 ^ e) t else t)

/-- A stalled second arrival counts for the round that now begins (R126). -/
def herdNext (c h e : Nat) (s : State) : State :=
  match (eng s c e).wait with
  | .arrive h' wait =>
    if h' = h then
      let t := herdMark c e h wait s
      if wait then waitFor c e .waitSync (.herd h) t else resumeEng c e t
    else s
  | _ => s

/-- The round of herd `h` completes (R126, R147). -/
def herdComplete (c h : Nat) (s : State) : State :=
  let waiting := herdWaiting s c h
  let s1 := s |> setHerdArrived c h 0 |> setHerdWaiting c h 0 |> wrBits (herdBase c h) 32 32 (herdRounds s c h + 1)
  let s2 := engineOrder.foldl (fun t e => if bitN waiting e && (eng t c e).wait == .herd h then resumeEng c e t else t) s1
  engineOrder.foldl (fun t e => herdNext c h e t) s2

/-- An arrival by `e`, and the completion of the round it may be the last of. -/
def herdArrive (c e h : Nat) (wait : Bool) (s : State) : State :=
  if bitN (herdArrived s c h) e then waitFor c e .waitSync (.arrive h wait) s
  else
    let t := herdMark c e h false s
    if herdArrived t c h &&& herdMask t c h = herdMask t c h then herdComplete c h (retire c e t)
    else if wait then waitFor c e .waitSync (.herd h) (setHerdWaiting c h (herdWaiting t c h ||| 2 ^ e) t)
    else retire c e t

/-- The protected word of a herd's state. -/
def herdWords (h : Nat) : List Nat := storeWords (0x3A600 + 16 * h) 8

def herdOp (wait : Bool) (c e rd ra rb imm8 : Nat) (s : State) : State :=
  issueFree c e [] (rd != 0 || ra != 0 || rb != 0 || decide (8 ≤ imm8))
    (fun t => localWords c e (herdWords imm8)
      (fun u => if !bitN (herdMask u c imm8) e then excFree c e 8 u else herdArrive c e imm8 wait u) t) s

/-- HDEF (R125): the SQ sets a herd's mask; HERD while a round has an arrival. -/
def execHdef (c e rd ra rb imm8 : Nat) (s : State) : Host.Outcome State Fault Refusal :=
  live s (issue c e [ra] (e != 5 || rd != 0 || rb != 0 || decide (8 ≤ imm8)) (regOf s c e ra)
    (fun t => localWords c e (herdWords imm8) (fun u => if herdArrived u c imm8 ≠ 0 then exc c e 8 (regOf u c e ra) u
      else u |> setHerdMask c imm8 ((regOf u c e ra).toNat % 64) |> retire c e) t) s)

/-- HARR (R126). -/
def execHarr (c e rd ra rb imm8 : Nat) (s : State) : Host.Outcome State Fault Refusal :=
  live s (herdOp false c e rd ra rb imm8 s)

/-- HWAIT (R126). -/
def execHwait (c e rd ra rb imm8 : Nat) (s : State) : Host.Outcome State Fault Refusal :=
  live s (herdOp true c e rd ra rb imm8 s)

/-- HFREE (R125). -/
def execHfree (c e rd ra rb imm8 : Nat) (s : State) : Host.Outcome State Fault Refusal :=
  live s (issueFree c e [] (e != 5 || rd != 0 || ra != 0 || rb != 0 || decide (8 ≤ imm8))
    (fun t => localWords c e (herdWords imm8)
      (fun u => if herdArrived u c imm8 ≠ 0 then excFree c e 8 u else u |> setHerdMask c imm8 0 |> retire c e) t) s)

/-! ### Queues (R127, R128, R149, R150) -/

def queueOf (imm8 : Nat) : Nat := imm8 % 64

/-- The engine takes the entry of a pop, or its slice error (R114); `none` while nothing can be taken, or a drain holds the way to the
ring (R197). -/
def popInto (c e q rd : Nat) (s : State) : Option State :=
  match (if popHeld s c q then .empty else qPop c q s) with
  | .empty => none
  | .entry v t => some (t |> setPair c e rd (BitVec.ofNat 64 v) |> resumeEng c e)
  | .sliceErr off t => some (exc c e 6 (BitVec.ofNat 32 off) t)

/-- QPOP (R127, R128). -/
def execQpop (c e rd ra rb imm8 : Nat) (s : State) : Host.Outcome State Fault Refusal :=
  live s (issueFree c e [rd, rd + 1] (rd % 2 == 1 || rd == 0 || ra != 0 || rb != 0 || decide (64 ≤ imm8))
    (fun t => localWords c e (qWords t c (queueOf imm8) true) (fun u => if qReader u c (queueOf imm8) ≠ e then excFree c e 9 u
      else (popInto c e (queueOf imm8) rd u).getD (waitFor c e .waitQueue (.pop (queueOf imm8) rd) u)) t) s)

/-- QPOP_RESUME (R150). -/
def execQpopResume (c e : Nat) (s : State) : Host.Outcome State Fault Refusal :=
  live s (match (eng s c e).wait with
    | .pop q rd => whileRuns c (localWords c e (qWords s c q true) (fun t => (popInto c e q rd t).getD t)) s
    | _ => s)

/-- The write that engine `f` waits to make to queue `q`; `none` where it waits for nothing of the kind or must go on waiting
(R150). -/
def waitingWrite (c q : Nat) (s : State) (f : Nat) : Option State :=
  match (eng s c f).wait with
  | .push q' v => if q' = q then qWrite c q v none s else none
  | .contribute q' tag v => if q' = q then qContribute c q tag v none s else none
  | _ => none

/-- An engine before `e` in the order of R150 waits to write queue `q` and can: its write comes first. -/
def writeAhead (s : State) (c e q : Nat) : Bool :=
  (engineOrder.takeWhile (· != e)).any (fun f => (waitingWrite c q s f).isSome)

/-- Every engine that waits to write queue `q`, in the order of R150, writes while the queue takes it. -/
def settleWrites (c q : Nat) (s : State) : State :=
  engineOrder.foldl (fun t f => match waitingWrite c q t f with
    | some u => resumeEng c f u
    | none => t) s

/-- The engine may write queue `q` by QPUSH (`combining` false) or CQADD (R128, R149). A QPUSH to a combining queue, and a CQADD
to one that does not combine, raise QUEUE (DESIGN CHOICE, log entry 43: R149 lists neither as a writer of the kind, and no rule
says what the instruction does). -/
def mayWrite (s : State) (c e q : Nat) (combining : Bool) : Bool :=
  bitN (qWriters s c q) e && qKind s c q != 3 && ((qKind s c q == 1) == combining)

/-- A queue write `r` of engine `e` in state `s` takes effect, or waits as `w` (R150). -/
def queueWrite (c e q : Nat) (r : Option State) (w : Wait) (s : State) : State :=
  match (if writeAhead s c e q then none else r) with
  | some u => retire c e u
  | none => waitFor c e .waitQueue w s

/-- QPUSH (R127, R128). -/
def execQpush (c e rd ra rb imm8 : Nat) (s : State) : Host.Outcome State Fault Refusal :=
  live s (issue c e [rb, rb + 1] (rb % 2 == 1 || rd != 0 || ra != 0 || decide (64 ≤ imm8)) (regOf s c e rb)
    (fun t => localWords c e (qWords t c (queueOf imm8) false)
      (fun u => if !mayWrite u c e (queueOf imm8) false then exc c e 9 (regOf u c e rb) u
        else queueWrite c e (queueOf imm8) (qWrite c (queueOf imm8) (regPair u c e rb) none u)
          (.push (queueOf imm8) (regPair u c e rb)) u) t) s)

/-- QPUSH_RESUME (R150): a waiting QPUSH or CQADD. -/
def execQpushResume (c e : Nat) (s : State) : Host.Outcome State Fault Refusal :=
  live s (match (eng s c e).wait with
    | .push q _ | .contribute q _ _ =>
      whileRuns c (localWords c e (qWords s c q false) (fun t =>
        match (if writeAhead t c e q then none else waitingWrite c q t e) with
        | some u => resumeEng c e u
        | none => t)) s
    | _ => s)

/-- QLEN (R127). -/
def execQlen (c e rd ra rb imm8 : Nat) (s : State) : Host.Outcome State Fault Refusal :=
  live s (issueFree c e [rd] (ra != 0 || rb != 0 || decide (64 ≤ imm8))
    (fun t => localWords c e (qWords t c (queueOf imm8) false)
      (fun u => u |> setReg c e rd (BitVec.ofNat 32 (qReadable u c (queueOf imm8))) |> retire c e) t) s)

/-- CQADD (R127, R152, R153). -/
def execCqadd (c e rd ra rb imm8 : Nat) (s : State) : Host.Outcome State Fault Refusal :=
  live s (issue c e [ra, rb] (rd != 0 || decide (64 ≤ imm8) || decide (2 ^ 23 ≤ (regOf s c e ra).toNat)) (regOf s c e ra)
    (fun t => localWords c e (qWords t c (queueOf imm8) false)
      (fun u => if !mayWrite u c e (queueOf imm8) true then exc c e 9 (regOf u c e ra) u
        else queueWrite c e (queueOf imm8) (qContribute c (queueOf imm8) (regOf u c e ra).toNat (regOf u c e rb) none u)
          (.contribute (queueOf imm8) (regOf u c e ra).toNat (regOf u c e rb)) u) t) s)

/-! ### Channels (R157, R158) -/

/-- The lowest valid route whose DEST is `gid`. -/
def routeOf (s : State) (c gid : Nat) : Option Nat :=
  (List.range 32).find? (fun r => isSet s (Reg.sq_CHAN_ROUTE_VALID c r) && getF s (Reg.sq_CHAN_ROUTE_DEST c r) == gid)

/-- Engine `f` has a stalled QSEND on route `r`. -/
def stallsOn (s : State) (c r f : Nat) : Bool :=
  match (eng s c f).wait with
  | .qsend r' _ _ _ => r' == r
  | _ => false

/-- The engines with a stalled QSEND on route `r`, in order of issue (R159). -/
def stalledOn (s : State) (c r : Nat) : List Nat := (core s c).stalled.filter (stallsOn s c r)

/-- Send a pair on route `r`: a credit is spent and the pair waits for injection on VC1; `none` while it stalls. -/
def channelSend (c e r gid epoch : Nat) (v : Word64) (s : State) : Option State :=
  let cr := getF s (Reg.sq_CHAN_ROUTE_CREDITS c r)
  if cr = 0 ∨ sendBlocked s c = true then none
  else
    some (s |> putF (Reg.sq_CHAN_ROUTE_CREDITS c r) (cr - 1)
      |> post { ty := .qsend, src := 4 * c, dst := 4 * (gid / 64), epoch := epoch,
                ext := gid + r * 2 ^ 16, data := v.toNat, engine := e })

/-- A QSEND stalls: it keeps what its route held at its issue, behind those that stall already (R159). -/
def stallSend (c e r gid epoch : Nat) (v : Word64) (s : State) : State :=
  s |> waitFor c e .waitQueue (.qsend r gid epoch v) |> modCore c (fun k => { k with stalled := k.stalled.erase e ++ [e] })

/-- QSEND (R127, R128, R157-R159). -/
def execQsend (c e rd ra rb imm8 : Nat) (s : State) : Host.Outcome State Fault Refusal :=
  live s (issue c e [ra, rb, rb + 1] (rb % 2 == 1 || rd != 0 || imm8 != 0) (regOf s c e ra)
    (fun t =>
      let gid := (regOf t c e ra).toNat
      if 2 ^ 16 ≤ gid then exc c e 9 (regOf t c e ra) t
      else match routeOf t c gid with
        | none => exc c e 9 (regOf t c e ra) t
        | some r =>
          let epoch := getF t (Reg.sq_CHAN_ROUTE_EPOCH c r)
          match (if (stalledOn t c r).isEmpty then channelSend c e r gid epoch (regPair t c e rb) t else none) with
          | some u => retire c e u
          | none => stallSend c e r gid epoch (regPair t c e rb) t) s)

/-- QSEND_RESUME (R158, R159): the first that stalls on its route goes. -/
def execQsendResume (c e : Nat) (s : State) : Host.Outcome State Fault Refusal :=
  live s (match (eng s c e).wait with
    | .qsend r gid epoch v =>
      if (stalledOn s c r).head? = some e ∧ engRuns s c = true then
        match channelSend c e r gid epoch v s with
        | some u => u |> modCore c (fun k => { k with stalled := k.stalled.erase e }) |> resumeEng c e
        | none => s
      else s
    | _ => s)

end Sys2Proof.Machine
end

