-- ==== Sys2Proof/Machine/AcisStep.lean ====
section
/-! DEFINITION. ACIS step, emission and handler-end instructions, and the dispatch of handlers (R129-R141, R206, R267). -/

namespace Sys2Proof.Machine

/-! ### RET, WICKET, STEPDONE (R129, R130) -/

/-- RET (R129, R130, R136). -/
def execRet (c e rd ra rb imm8 : Nat) (s : State) : Host.Outcome State Fault Refusal :=
  live s (issueFree c e [] (rd != 0 || ra != 0 || rb != 0 || imm8 != 0)
    (fun t => t |> retire c e |> endHandler c e) s)

/-- The handler of engine `e` is of `kind` and has not performed its act. -/
def actOpen (s : State) (c e kind : Nat) : Option Handler :=
  match (eng s c e).handler with
  | some h => if h.kind = kind ∧ h.acted = false then some h else none
  | none => none

def markActed (c e : Nat) (s : State) : State :=
  modEng c e (fun g => { g with handler := g.handler.map (fun h => { h with acted := true }) }) s

/-- An act of the SQ that is valid once in a handler of `kind`; any other use raises STEP_ORDER (R130). On an engine other than
the SQ, which R129 does not permit to run it, it raises ILLEGAL (R109; DESIGN CHOICE, log entry 43: R130 gives STEP_ORDER for
"any other use", and no rule says which of the two goes first). -/
def sqAct (kind : Nat) (act : Nat → Nat → State → State) (c e rd ra rb imm8 : Nat) (s : State) : State :=
  issueFree c e [] (e != 5 || rd != 0 || ra != 0 || rb != 0 || imm8 != 0)
    (fun t => match actOpen t c e kind with
      | some h => t |> act h.slot h.step |> markActed c e |> retire c e
      | none => excFree c e 15 t) s

/-- WICKET (R129, R130). -/
def execWicket (c e rd ra rb imm8 : Nat) (s : State) : Host.Outcome State Fault Refusal :=
  live s (sqAct 2 (wicketCmds c) c e rd ra rb imm8 s)

/-- STEPDONE (R129, R130). -/
def execStepdone (c e rd ra rb imm8 : Nat) (s : State) : Host.Outcome State Fault Refusal :=
  live s (sqAct 4 (sendDone c) c e rd ra rb imm8 s)

/-! ### EMIT (R131, R132) -/

/-- The exception that an EMIT of `v` raises, in the order of R131. -/
def emitFault (s : State) (c e : Nat) (v : Word64) : Option Nat :=
  if evKind v = 3 ∨ v.toNat % 4 ≠ 0 then some 10
  else if evKind v ≤ 1 ∧ evDly v = 0 then some 10
  else if evKind v = 2 ∧ e = 4 then some 10
  else match workSlot s c (evCtx v) with
    | none => some 12
    | some k => if tget 0 k (core s c).taken ≤ tget 0 k (core s c).doneSent ∧ tget 0 k (core s c).doneSent ≠ 0
        then some 11 else none

/-- A fresh EMIT takes a free entry of the send queue: none of the EE's datapath waits for it, nor, for the SQ, a stalled EMIT of
the EE (R124, R132). -/
def mayEmit (s : State) (c e : Nat) : Bool :=
  sendRoom s c && !datapathOffers s c && (e == 4 || !emitStalls s c 4)

/-- EMIT (R129, R131, R132). -/
def execEmit (c e rd ra rb imm8 : Nat) (s : State) : Host.Outcome State Fault Refusal :=
  live s (issue c e [rb, rb + 1] ((e != 4 && e != 5) || rb % 2 == 1 || rd != 0 || ra != 0 || imm8 != 0) (regOf s c e rb)
    (fun t =>
      let v := regPair t c e rb
      match emitFault t c e v with
      | some code => exc c e code (regOf t c e rb) t
      | none => if mayEmit t c e then t |> emitWord c e v |> retire c e else waitFor c e .waitQueue (.emit v) t) s)

/-! ### FENCE (R129, R162, R194) -/

/-- Every earlier slice store, QSEND and EMIT of the engine has reached its destination, or its refusal is recorded. -/
def fenceClear (s : State) (c e : Nat) : Bool :=
  (eng s c e).posted.isEmpty &&
  (core s c).send.all (fun i => i.engine != e) &&
  s.fab.waiting.all (fun p => !(p.src == 4 * c && (p.ty == .qsend || p.ty == .event) && p.engine == e)) &&
  s.fab.retx.all (fun r => !(r.pkt.src == 4 * c && (r.pkt.ty == .qsend || r.pkt.ty == .event) && r.pkt.engine == e))

/-- FENCE (R129). -/
def execFence (c e rd ra rb imm8 : Nat) (s : State) : Host.Outcome State Fault Refusal :=
  live s (issueFree c e [] (rd != 0 || ra != 0 || rb != 0 || imm8 != 0)
    (fun t => if fenceClear t c e then retire c e t else waitFor c e .waitSync .fence t) s)

/-- FENCE_COMPLETE (R162). -/
def execFenceComplete (c e : Nat) (s : State) : Host.Outcome State Fault Refusal :=
  live s (if (eng s c e).wait = .fence ∧ fenceClear s c e = true then whileRuns c (resumeEng c e) s else s)

/-- HANDLER_TIME (R140): at an instruction boundary of a handler whose limit is on. It has no source operand. -/
def execHandlerTime (c e : Nat) (s : State) : Host.Outcome State Fault Refusal :=
  live s (if atBoundary s c e = true ∧ engRuns s c = true ∧ getF s (Reg.eng_HANDLER_LIMIT_LIMIT c e) ≠ 0 then
      spendFree (raiseExc c e 16 (eng s c e).pc true (freeWord s) s)
    else s)

/-! ### Dispatch (R133-R136) -/

/-- The STEP_END happenings that wait at the SQ, in order of arrival. -/
def stepEnds (s : State) (c : Nat) : List Happening :=
  (core s c).stepReady.map (fun p => ⟨4, p.1, p.2, BitVec.ofNat 32 p.1, 0, 0, 0⟩)

/-- The control event that waits at the SQ. -/
def controlWaits (s : State) (c : Nat) : List Happening :=
  match (core s c).ctrl with
  | [] => []
  | v :: _ =>
    let k := (findSlot s c (evCtx v.word)).getD 0x100
    [⟨3, k, v.step, BitVec.ofNat 32 k, v.word.extractLsb' 0 32, v.word.extractLsb' 32 32, 0⟩]

/-- The records of the batch at the head of a list: one slot and one step, at most 16 (R134). -/
def batchLen {α : Type} (slot step : α → Nat) : List α → Nat
  | [] => 0
  | r :: rest => ((r :: rest).take 16).takeWhile (fun x => slot x == slot r && step x == step r) |>.length

def recordWaits (s : State) (c : Nat) : List Happening :=
  (match (core s c).preReady with
   | [] => []
   | r :: rest => [⟨5, r.slot, r.step, BitVec.ofNat 32 (batchLen (·.slot) (·.step) (r :: rest)), 0, 0, 0⟩]) ++
  (match (core s c).postReady with
   | [] => []
   | r :: rest => [⟨6, r.slot, r.step, BitVec.ofNat 32 (batchLen (·.slot) (·.step) (r :: rest)), 0, 0, 0⟩])

/-- Everything that waits for dispatch at engine `e`, in order of arrival within a kind. -/
def waiting (s : State) (c e : Nat) : List Happening :=
  (eng s c e).happen ++ (if e = 5 then controlWaits s c ++ stepEnds s c else if e = 3 then recordWaits s c else [])

/-- `a` is started before `b`: the lower kind; for WICKET the lower slot (R136). -/
def startsBefore (a b : Happening) : Bool := decide (a.kind < b.kind) || (a.kind == b.kind && a.kind == 2 && decide (a.slot < b.slot))

/-- The happening to be started: the first of those that none precedes. -/
def nextHappening : List Happening → Option Happening
  | [] => none
  | h :: r =>
    match nextHappening r with
    | none => some h
    | some b => if startsBefore b h then some b else some h

/-- Take a happening out of its source. -/
def takeHappening (c e : Nat) (h : Happening) (s : State) : State :=
  if e = 5 ∧ h.kind = 3 then modCore c (fun k => { k with ctrl := k.ctrl.tail }) s
  else if e = 5 ∧ h.kind = 4 then modCore c (fun k => { k with stepReady := k.stepReady.erase (h.slot, h.step) }) s
  else if e = 3 ∧ h.kind = 5 then modCore c (fun k => { k with preReady := k.preReady.drop h.s1.toNat }) s
  else if e = 3 ∧ h.kind = 6 then modCore c (fun k => { k with postReady := k.postReady.drop h.s1.toNat }) s
  else modEng c e (fun g => { g with happen := g.happen.erase h }) s

/-- A pending modulation value of the slot becomes current at a dispatch of the PE at step `m` (R267). -/
def modTake (c slot m : Nat) (s : State) : State :=
  match tfind slot (core s c).modPend with
  | none => s
  | some (v, from') =>
    let due := match from' with
      | none => true
      | some f => decide (sub32 (m % 2 ^ 32) f < 2 ^ 31)
    if due then modCore c (fun k => { k with modNow := tset slot v k.modNow, modPend := tdel slot k.modPend }) s else s

def putLanes (c e v : Nat) (xs : List Word) (s : State) : State :=
  (List.range xs.length).foldl (fun t j => setVlane c e v j (xs.getD j 0) t) s

/-- What the PE sets beside the arguments at PRE and POST (R134), from the records of the batch in the state `s0` before
they were taken. -/
def batchArgs (c : Nat) (h : Happening) (s0 s : State) : State :=
  let n := h.s1.toNat
  let lanes := (core s0 c).preReady.take n
  let fires := (core s0 c).postReady.take n
  if h.kind = 5 then
    s |> putLanes c 3 14 (lanes.map (fun r => BitVec.ofNat 32 r.axon))
      |> putLanes c 3 15 (lanes.map (fun r => BitVec.ofNat 32 (r.slot + r.pay % 256 * 2 ^ 16)))
      |> putF (Reg.eng_VMASK_LANES c 3) (2 ^ n - 1)
  else if h.kind = 6 then
    s |> putLanes c 3 14 (fires.map (fun r => BitVec.ofNat 32 (r.neuron - slotNBase s0 c h.slot)))
      |> putLanes c 3 15 (fires.map (fun r => BitVec.ofNat 32 (r.slot + r.pay % 256 * 2 ^ 16)))
      |> putF (Reg.eng_VMASK_LANES c 3) (2 ^ n - 1)
  else s

/-- The entry of the handler for a happening, if one is bound (R133, R135). -/
def handlerEntry (s : State) (c e : Nat) (h : Happening) : Option Nat :=
  let j := h.s3.toNat / 2 ^ 14 % 16
  if e = 5 ∧ h.kind = 3 ∧ isSet s (Reg.sq_CTRL_VEC_EN c j) = true then some (getF s (Reg.sq_CTRL_VEC_ENTRY c j))
  else if handlerBound s c e h.kind then some (getF s (Reg.eng_HVEC_ENTRY c e h.kind))
  else none

/-- The behaviour of a happening whose handler is not bound (R135). -/
def unbound (c e : Nat) (h : Happening) (s : State) : State :=
  if e = 5 ∧ h.kind = 2 then wicketCmds c h.slot h.step s
  else if e = 5 ∧ h.kind = 4 then sendDone c h.slot h.step s
  else if e = 5 ∧ h.kind = 3 then raiseExc c e 13 (eng s c e).pc true h.s2 s
  else s |> boundaryEnd c |> noteStepEnds c

/-- A handler starts; an ENTRY outside the program range raises FETCH_RANGE at once (R139). -/
def dispatch (c e : Nat) (h : Happening) (s : State) : State :=
  let s1 := takeHappening c e h s
  match handlerEntry s c e h with
  | none => unbound c e h s1
  | some entry =>
    let s2 := if e = 3 ∧ h.slot < 256 then modTake c h.slot h.step s1 else s1
    let s3 := s2 |> startHandler c e entry ⟨h.kind, h.slot, h.step, false⟩ h.s1 h.s2 h.s3 |> batchArgs c h s
    let s4 := if e = 2 ∧ h.kind = 2 then putF (Reg.so_LAST_FIRES_COUNT c) h.fires s3 else s3
    if fetchOk s4 c e then s4 else exc c e 2 (BitVec.ofNat 32 entry) s4

/-- The engine is free to start a handler: nothing runs, its core is up, and for the SQ no wicket command waits for credit. -/
def engFree (s : State) (c e : Nat) : Bool :=
  decide (e < 6) && engRuns s c && (eng s c e).handler.isNone && (eng s c e).st == .idle && !sqStalls s c e

/-- The happening that the SQ or another engine starts next; the STEP_ENDs that are due have arrived. -/
def dispatchNext (c e : Nat) (s : State) : State :=
  match nextHappening (waiting s c e) with
  | some h => dispatch c e h s
  | none => s

/-- HANDLER_DISPATCH (R133-R136). -/
def execHandlerDispatch (c e : Nat) (s : State) : Host.Outcome State Fault Refusal :=
  live s (if engFree s c e then dispatchNext c e (noteStepEnds c s) else s)

end Sys2Proof.Machine
end

