-- ==== Sys2Proof/Machine/AcisVector.lean ====
section
/-! DEFINITION. ACIS vector operations of the SE and the PE (R119-R121). -/

namespace Sys2Proof.Machine

/-- Lane `j` takes part (R119). -/
def laneOn (s : State) (c e j : Nat) : Bool := bitN (getF s (Reg.eng_VMASK_LANES c e)) j

/-- The executing engine may run vector operations: the SE or the PE. -/
def vecEngine (e : Nat) : Bool := e == 1 || e == 3

/-- Write the enabled lanes of `vd`; the others keep their values (R119). -/
def setLanes (c e vd : Nat) (f : Nat → Word) (s : State) : State :=
  (List.range 16).foldl (fun t j => if laneOn s c e j then setVlane c e vd j (f j) t else t) s

/-- A vector register operation that writes lanes of `vd` (R119). The first source operand of an ILLEGAL one is taken to be rs, the one
32-bit operand, also where the instruction's own first source is a vector register or rs is its destination (DESIGN CHOICE, log
entry 43: R142 speaks of a 32-bit value). -/
def vecOp (f : State → Nat → Word) (illegal : Bool) (c e vd va vb rs : Nat) (s : State) : State :=
  issue c e [100 + vd, 100 + va, 100 + vb, rs] (!vecEngine e || illegal) (regOf s c e rs)
    (fun t => t |> setLanes c e vd (f t) |> retire c e) s

/-- VADD (R119): lane sum. -/
def execVadd (c e vd va vb rs : Nat) (s : State) : Host.Outcome State Fault Refusal :=
  live s (vecOp (fun t j => vlane t c e va j + vlane t c e vb j) (rs != 0) c e vd va vb rs s)

/-- VSUB (R119): lane difference. -/
def execVsub (c e vd va vb rs : Nat) (s : State) : Host.Outcome State Fault Refusal :=
  live s (vecOp (fun t j => vlane t c e va j - vlane t c e vb j) (rs != 0) c e vd va vb rs s)

/-- VMUL (R119): low half of the lane product. -/
def execVmul (c e vd va vb rs : Nat) (s : State) : Host.Outcome State Fault Refusal :=
  live s (vecOp (fun t j => vlane t c e va j * vlane t c e vb j) (rs != 0) c e vd va vb rs s)

/-- VMULS (R119): low half of the product with rs. -/
def execVmuls (c e vd va vb rs : Nat) (s : State) : Host.Outcome State Fault Refusal :=
  live s (vecOp (fun t j => vlane t c e va j * regOf t c e rs) (vb != 0) c e vd va vb rs s)

/-- VMIN (R119): signed minimum. -/
def execVmin (c e vd va vb rs : Nat) (s : State) : Host.Outcome State Fault Refusal :=
  live s (vecOp (fun t j => wMin (vlane t c e va j) (vlane t c e vb j)) (rs != 0) c e vd va vb rs s)

/-- VMAX (R119): signed maximum. -/
def execVmax (c e vd va vb rs : Nat) (s : State) : Host.Outcome State Fault Refusal :=
  live s (vecOp (fun t j => wMax (vlane t c e va j) (vlane t c e vb j)) (rs != 0) c e vd va vb rs s)

/-- VRSRAS (R119): rounding shift right by rs[4:0]. -/
def execVrsras (c e vd va vb rs : Nat) (s : State) : Host.Outcome State Fault Refusal :=
  live s (vecOp (fun t j => wRsra (vlane t c e va j) (amt (regOf t c e rs))) (vb != 0) c e vd va vb rs s)

/-- VSAT (R119): clamp to w = rs bits; a w other than 4, 8, 16, 24 or 32 is ILLEGAL. -/
def execVsat (c e vd va vb rs : Nat) (s : State) : Host.Outcome State Fault Refusal :=
  live s (vecOp (fun t j => wSat (regOf t c e rs).toNat (vlane t c e va j)) (vb != 0 || !([4, 8, 16, 24, 32].contains (regOf s c e rs).toNat)) c e vd va vb rs s)

/-- VBCAST (R119): rs in every lane. -/
def execVbcast (c e vd va vb rs : Nat) (s : State) : Host.Outcome State Fault Refusal :=
  live s (vecOp (fun t _ => regOf t c e rs) (va != 0 || vb != 0) c e vd va vb rs s)

/-- VAND (R119): bitwise and. -/
def execVand (c e vd va vb rs : Nat) (s : State) : Host.Outcome State Fault Refusal :=
  live s (vecOp (fun t j => vlane t c e va j &&& vlane t c e vb j) (rs != 0) c e vd va vb rs s)

/-- VOR (R119): bitwise or. -/
def execVor (c e vd va vb rs : Nat) (s : State) : Host.Outcome State Fault Refusal :=
  live s (vecOp (fun t j => vlane t c e va j ||| vlane t c e vb j) (rs != 0) c e vd va vb rs s)

/-- VADDS (R119): lane sum with rs. -/
def execVadds (c e vd va vb rs : Nat) (s : State) : Host.Outcome State Fault Refusal :=
  live s (vecOp (fun t j => vlane t c e va j + regOf t c e rs) (vb != 0) c e vd va vb rs s)

/-- VEXT (R119): rs := va[vb], whatever VMASK holds. -/
def execVext (c e vd va vb rs : Nat) (s : State) : Host.Outcome State Fault Refusal :=
  live s (issue c e [100 + va, rs] (!vecEngine e || vd != 0) (regOf s c e rs)
    (fun t => t |> setReg c e rs (vlane t c e va vb) |> retire c e) s)

/-- VRED (R119): rs := the wrapping sum over the enabled lanes of va. -/
def execVred (c e vd va vb rs : Nat) (s : State) : Host.Outcome State Fault Refusal :=
  live s (issue c e [100 + va, rs] (!vecEngine e || vd != 0 || vb != 0) (regOf s c e rs)
    (fun t => t |> setReg c e rs ((List.range 16).foldl (fun x j => if laneOn t c e j then x + vlane t c e va j else x) 0)
      |> retire c e) s)

/-- VINS (R119): vd[vb] := rs, whatever VMASK holds. -/
def execVins (c e vd va vb rs : Nat) (s : State) : Host.Outcome State Fault Refusal :=
  live s (issue c e [100 + vd, rs] (!vecEngine e || va != 0) (regOf s c e rs)
    (fun t => t |> setVlane c e vd vb (regOf t c e rs) |> retire c e) s)

/-! ### Vector memory operations (R120, R121) -/

/-- The lanes of an access of `n` bytes at `o` that lie in the protected word at `w`. -/
def lanesIn (o n w : Nat) : List Nat :=
  let bits := n / 2
  (List.range 16).filter (fun j => decide (8 * w < 8 * o + (j + 1) * bits) &&
    decide (8 * o + j * bits < 8 * (w + storeWord (storeOf o).1)))

/-- The protected words that a vector store reads, and those it writes whole: a word none of whose lanes is enabled is neither
read nor written (R97, R119). -/
def storeReads (s : State) (c e o n : Nat) : List Nat :=
  (storeWords o n).filter (fun w => (lanesIn o n w).any (laneOn s c e) &&
    !(decide ((storeOf o).1 ≠ 0) && (lanesIn o n w).all (laneOn s c e)))
def storeWhole (s : State) (c e o n : Nat) : List Nat :=
  (storeWords o n).filter (fun w => decide ((storeOf o).1 ≠ 0) && (lanesIn o n w).all (laneOn s c e))

/-- A local vector access of `n` bytes at rs, aligned to `n`. ALIGN, ADDR and STORE_DENIED are judged in that order (DESIGN
CHOICE, log entry 43). -/
def vecLocal (n : Nat) (isStore : Bool) (c e : Nat) (o : Nat) (body : State → State) (s : State) : State :=
  if o % n ≠ 0 then exc c e 3 (BitVec.ofNat 32 o) s
  else if 0x40000 ≤ o then exc c e 4 (BitVec.ofNat 32 o) s
  else if isStore then
    (if !storeOk e o n then exc c e 5 (BitVec.ofNat 32 o) s
    else localWords c e (storeReads s c e o n) (fun t => body (wroteWhole c (storeWhole s c e o n) t)) s)
  else localAccess c e o n body s

/-- A vector load: lanes of vd from the `n` bytes at rs through `f` (R120). -/
def vecLoad (n : Nat) (f : Memory → Nat → Nat → Word) (c e vd va vb rs : Nat) (s : State) : State :=
  issue c e [100 + vd, rs] (!vecEngine e || va != 0 || vb != 0) (regOf s c e rs)
    (fun t => vecLocal n false c e (regOf t c e rs).toNat
      (fun u => u |> setLanes c e vd (f u.mem (coreBase c + (regOf t c e rs).toNat)) |> retire c e) t) s

/-- A vector store: the enabled lanes of va into the `n` bytes at rs, each by `f` (R120, R121). -/
def vecStore (n : Nat) (f : Nat → Nat → Word → State → State) (c e vd va vb rs : Nat) (s : State) : State :=
  issue c e [100 + va, rs] (!vecEngine e || vd != 0 || vb != 0) (regOf s c e rs)
    (fun t => vecLocal n true c e (regOf t c e rs).toNat
      (fun u => (List.range 16).foldl
          (fun w j => if laneOn u c e j then f (regOf t c e rs).toNat j (vlane u c e va j) w else w) u |> retire c e) t) s

def laneWord (m : Memory) (a j : Nat) : Word := BitVec.ofNat 32 (getNum m (a + 4 * j) 4)
def laneByte (m : Memory) (a j : Nat) : Word := (getByte m (a + j)).signExtend 32
/-- Nibble `j`: low nibble of byte j / 2 when `j` is even, high nibble when odd (R89). -/
def laneNibble (m : Memory) (a j : Nat) : Word :=
  (BitVec.ofNat 4 ((getByte m (a + j / 2)).toNat / 2 ^ (4 * (j % 2)))).signExtend 32

/-- VLD (R120): 16 words, 64-byte aligned. -/
def execVld (c e vd va vb rs : Nat) (s : State) : Host.Outcome State Fault Refusal :=
  live s (vecLoad 64 laneWord c e vd va vb rs s)

/-- VLDB (R120): 16 sign-extended bytes, 16-byte aligned. -/
def execVldb (c e vd va vb rs : Nat) (s : State) : Host.Outcome State Fault Refusal :=
  live s (vecLoad 16 laneByte c e vd va vb rs s)

/-- VLDN (R120): 16 sign-extended nibbles, 8-byte aligned. -/
def execVldn (c e vd va vb rs : Nat) (s : State) : Host.Outcome State Fault Refusal :=
  live s (vecLoad 8 laneNibble c e vd va vb rs s)

/-- VST (R120). -/
def execVst (c e vd va vb rs : Nat) (s : State) : Host.Outcome State Fault Refusal :=
  live s (vecStore 64 (fun o j x u => localWrite c e (o + 4 * j) 4 x.toNat u) c e vd va vb rs s)

/-- VSTB (R120, R121): bytes of disabled lanes stay. -/
def execVstb (c e vd va vb rs : Nat) (s : State) : Host.Outcome State Fault Refusal :=
  live s (vecStore 16 (fun o j x u => localWrite c e (o + j) 1 (x.toNat % 256) u) c e vd va vb rs s)

/-- VSTN (R120, R121): nibbles of disabled lanes stay. -/
def execVstn (c e vd va vb rs : Nat) (s : State) : Host.Outcome State Fault Refusal :=
  live s (vecStore 8 (fun o j x u =>
    let old := rdNum u (coreBase c + o + j / 2) 1
    let v := if j % 2 = 0 then old / 16 * 16 + x.toNat % 16 else old % 16 + 16 * (x.toNat % 16)
    localWrite c e (o + j / 2) 1 v u) c e vd va vb rs s)

/-- The enabled lanes of va as the words of a slice addition; a disabled lane adds nothing (R119). -/
def addLanesOf (s : State) (c e va : Nat) : List (Option Word) :=
  (List.range 16).map (fun j => if laneOn s c e j then some (vlane s c e va j) else none)

/-- VSADD (R120, R121): the lane additions are issued to the slice. -/
def execVsadd (c e vd va vb rs : Nat) (s : State) : Host.Outcome State Fault Refusal :=
  live s (issue c e [100 + va, rs] (!vecEngine e || vd != 0 || vb != 0) (regOf s c e rs)
    (fun t => sliceIssue 64 (regOf t c e rs).toNat c e
      (fun u => u |> issueStore c e (regOf t c e rs).toNat (.add (addLanesOf t c e va)) |> retire c e) t) s)

/-- VLDS (R120): the read is issued; the enabled lanes of vd are awaited. -/
def execVlds (c e vd va vb rs : Nat) (s : State) : Host.Outcome State Fault Refusal :=
  live s (issue c e [100 + vd, rs] (!vecEngine e || va != 0 || vb != 0) (regOf s c e rs)
    (fun t => sliceIssue 64 (regOf t c e rs).toNat c e
      (fun u => u |> issueRead c e ⟨true, vd, (regOf t c e rs).toNat, (eng t c e).pc, getF t (Reg.eng_VMASK_LANES c e), 0, none⟩ 64
        |> retire c e) t) s)

/-- VLDS_RESPONSE (R120): the slice's response writes the lanes that were enabled at issue, or raises SLICE_ERR. -/
def execVldsResponse (c e : Nat) (s : State) : Host.Outcome State Fault Refusal :=
  live s (readResponse true c e (fun r v t => (List.range 16).foldl (fun u j =>
    if bitN r.mask j then setVlane c e r.dst j (BitVec.ofNat 32 (v / 2 ^ (32 * j))) u else u) t) s)

end Sys2Proof.Machine
end

