-- ==== Sys2Proof/Machine/Frames.lean ====
section
/-! DEFINITION. Frames of the Ethernet ports as bytes, without their FCS: the VLAN tag, the network header, the classing of a
received frame, PTP event messages, and the form of an AET datagram (R353-R355, R357, R358, R371; log entries 58 and 59). -/

namespace Sys2Proof.Machine

/-- The port is present in the variant (R1, R353). -/
def portPresent (s : State) (n : Nat) : Bool := decide (n < 2) && bitN (ethMask s.variant) n
def portUp (s : State) (n : Nat) : Bool := portPresent s n && bitN (getF s (Reg.eth_ETH_STATUS_STATE n)) 0

/-- `n` bytes of a number, the most significant first. -/
def be (v n : Nat) : List Byte := (toBytes v n).reverse

/-- The number that bytes spell, the most significant first. -/
def ofBe (l : List Byte) : Nat := l.foldl (fun n b => n * 256 + b.toNat) 0

/-- The number in bytes `i` to `i + n - 1` of a frame. -/
def beAt (l : List Byte) (i n : Nat) : Nat := ofBe ((l.drop i).take n)

/-! ### Sending (R353) -/

/-- The 16-bit words of a header, added in ones' complement. -/
def onesSum : List Byte → Nat
  | a :: b :: r => a.toNat * 256 + b.toNat + onesSum r
  | [a] => a.toNat * 256
  | [] => 0

/-- The Internet checksum: the complement of the ones' complement sum, the carries folded in. -/
def checksum (l : List Byte) : Nat :=
  let n := onesSum l
  let f := n % 65536 + n / 65536
  65535 - (f % 65536 + f / 65536)

/-- The Ethernet header, with the port's 802.1Q tag when TAGGED = 1. -/
def ethHeader (s : State) (port dst ethertype : Nat) : List Byte :=
  be dst 6 ++ be (getF s (Reg.eth_ETH_MAC_MAC port)) 6 ++
    (if isSet s (Reg.eth_ETH_CFG_TAGGED port) then
      be 0x8100 2 ++ be (getF s (Reg.eth_ETH_CFG_PCP port) * 2 ^ 13 + getF s (Reg.eth_ETH_CFG_VID port)) 2 else []) ++
    be ethertype 2

/-- The port's local address (R378). -/
def localIp (s : State) (port : Nat) : Nat :=
  (List.range 4).foldl (fun n w => n + getF s (Reg.eth_ETH_IP_IP port w) * 2 ^ (32 * w)) 0

def peerMac (s : State) (port p : Nat) : Nat :=
  getF s (if port = 0 then Reg.aet_PEER_MAC0 p else Reg.aet_PEER_MAC1 p)
def peerIp (s : State) (port p : Nat) : Nat :=
  getF s (if port = 0 then Reg.aet_PEER_IP0 p else Reg.aet_PEER_IP1 p)

/-- A UDP datagram between two addresses of `n` bytes, its checksum over the pseudo-header. -/
def udp (src dst n srcPort dstPort : Nat) (data : List Byte) : List Byte :=
  let len := data.length + 8
  let ports := be srcPort 2 ++ be dstPort 2 ++ be len 2
  let c := checksum (be src n ++ be dst n ++ be len 4 ++ be 17 4 ++ ports ++ data)
  ports ++ be (if c = 0 then 65535 else c) 2 ++ data

/-- An IPv4 header for a UDP datagram of `len` bytes (log entry 59). -/
def ipv4 (src dst len : Nat) : List Byte :=
  let a := be 0x4500 2 ++ be (len + 20) 2 ++ be 0x4000 4 ++ be 0x4011 2
  let b := be src 4 ++ be dst 4
  a ++ be (checksum (a ++ b)) 2 ++ b

/-- An IPv6 header for a UDP datagram of `len` bytes (log entry 59). -/
def ipv6 (src dst len : Nat) : List Byte := be 0x60000000 4 ++ be len 2 ++ be 0x1140 2 ++ be src 16 ++ be dst 16

/-- The frame that carries AET bytes to peer `p` from a port. -/
def aetFrame (s : State) (port p : Nat) (data : List Byte) : List Byte :=
  let v6 := isSet s (Reg.aet_PEER_V6 p)
  let src := localIp s port
  let dst := peerIp s port p
  let u := udp (if v6 then src else src % 2 ^ 32) (if v6 then dst else dst % 2 ^ 32) (if v6 then 16 else 4)
    (getF s Reg.aet_AET_CFG_UDP_PORT) (getF s (Reg.aet_PEER_UDP_PORT p)) data
  if v6 then ethHeader s port (peerMac s port p) 0x86DD ++ ipv6 src dst u.length ++ u
  else ethHeader s port (peerMac s port p) 0x0800 ++ ipv4 (src % 2 ^ 32) (dst % 2 ^ 32) u.length ++ u

/-- A frame as it leaves: padded to 60 bytes, and with its FCS (R402), least significant byte first (log entry 58). -/
def wireFrame (frame : List Byte) : List Byte :=
  let padded := frame ++ List.replicate (60 - frame.length) 0
  padded ++ toBytes (crc32 padded) 4

/-- A frame leaves through a port whose link is up, and is counted. -/
def emitFrame (port : Nat) (frame : List Byte) (s : State) : State :=
  { s with outside := { s.outside with frames := s.outside.frames ++ [(port, wireFrame frame)] } }
    |> addWrap (Reg.eth_TX_FRAMES_COUNT port) 1

/-! ### Receiving (R354, R355) -/

/-- The largest frame of a port (R353; log entry 58). -/
def frameLimit (s : State) (port : Nat) : Nat := if isSet s (Reg.eth_ETH_CFG_JUMBO port) then 9216 else 1518

/-- The VID of a frame's 802.1Q tag. -/
def frameVid (f : List Byte) : Option Nat := if beAt f 12 2 = 0x8100 then some (beAt f 14 2 % 2 ^ 12) else none

/-- The place of a frame's EtherType: behind its tag. -/
def typeAt (f : List Byte) : Nat := if beAt f 12 2 = 0x8100 then 16 else 12

/-- The UDP datagram of an unfragmented IPv4 or IPv6 frame: the version, the destination address, and the place of the UDP
header. -/
def frameUdp (f : List Byte) : Option (Nat × Nat × Nat) :=
  let i := typeAt f + 2
  if beAt f (typeAt f) 2 = 0x0800 ∧ beAt f i 1 / 16 = 4 ∧ beAt f (i + 9) 1 = 17 ∧ beAt f (i + 6) 2 % 2 ^ 14 = 0 then
    some (4, beAt f (i + 16) 4, i + beAt f i 1 % 16 * 4)
  else if beAt f (typeAt f) 2 = 0x86DD ∧ beAt f i 1 / 16 = 6 ∧ beAt f (i + 6) 1 = 17 then some (6, beAt f (i + 24) 16, i + 40)
  else none

/-- The frame is addressed to the port's MAC and IP address and to the AET UDP port: the place of its AET header. -/
def aetAt (s : State) (port : Nat) (f : List Byte) : Option Nat :=
  match frameUdp f with
  | some (v, ip, u) =>
    let v6 := isSet s (Reg.eth_ETH_CFG_V6 port)
    if beAt f 0 6 = getF s (Reg.eth_ETH_MAC_MAC port) ∧ v = (if v6 then 6 else 4) ∧
        ip = (if v6 then localIp s port else localIp s port % 2 ^ 32) ∧
        beAt f (u + 2) 2 = getF s Reg.aet_AET_CFG_UDP_PORT then some (u + 8) else none
  | none => none

/-- The frame is a PTP event message: Sync, Delay_Req, Pdelay_Req or Pdelay_Resp, by EtherType 88F7 or UDP port 319 (PRESUMED
from IEEE 1588, which R353 names; log entry 58). -/
def ptpEvent (f : List Byte) : Bool :=
  if beAt f (typeAt f) 2 = 0x88F7 then decide (beAt f (typeAt f + 2) 1 % 16 < 4)
  else match frameUdp f with
    | some (_, _, u) => beAt f (u + 2) 2 == 319 && decide (beAt f (u + 8) 1 % 16 < 4)
    | none => false

/-- The time stamp of a frame that passes a port now: PTP_TIME for a PTP event message (R355). -/
def frameStamp (s : State) (f : List Byte) : Option Nat := if ptpEvent f then some (getF s Reg.aet_PTP_TIME_NS) else none

/-! ### The bytes of an AET datagram (R357, R358, R371) -/

/-- The bytes of a VOLLEY segment: its header, then a prefix with the sender's chip id and the event word for each event. -/
def segBytes (chip : Nat) (g : Segment) : List Byte :=
  toBytes (g.expert % 2 ^ 12 + g.choice % 2 * 2 ^ 12 + bnat g.last * 2 ^ 13 + g.score % 256 * 2 ^ 16 + g.part % 16 * 2 ^ 24
      + g.offset % 2 ^ 12 * 2 ^ 32 + g.events.length % 2 ^ 10 * 2 ^ 44) 8 ++ toBytes g.wicket 8 ++
    g.events.flatMap (fun w => toBytes (chip % 32 * 2 ^ 11) 2 ++ toBytes w.toNat 8)

def bodyBytes (chip : Nat) : AetBody → List Byte
  | .volley g => segBytes chip g
  | .close w => toBytes w 8
  | .refuse recs => recs.flatMap (fun r => toBytes r.1.toNat 8 ++ toBytes r.2.toNat 8)

/-- The payload of a datagram (R358). -/
def loadBytes (chip : Nat) : AetLoad → List Byte
  | .empty => []
  | .hello lo hi features uid => toBytes (lo % 16 + hi % 16 * 16 + features % 2 ^ 32 * 2 ^ 32) 8 ++ toBytes uid 8
  | .accept gen features uid => toBytes (gen % 16 + features % 2 ^ 32 * 2 ^ 32) 8 ++ toBytes uid 8
  | .reject reason => toBytes (reason % 16) 8
  | .body b => bodyBytes chip b

/-- The 24-byte header of R357. -/
def aetHeader (o : AetOut) (len : Nat) : Nat :=
  0xAE + o.ty % 16 * 2 ^ 8 + o.gen % 16 * 2 ^ 12 + o.src % 32 * 2 ^ 16 + o.peer % 32 * 2 ^ 21 + o.port % 2 * 2 ^ 26
    + o.seq % 2 ^ 32 * 2 ^ 32 + o.ack % 2 ^ 32 * 2 ^ 64 + o.sack % 2 ^ 32 * 2 ^ 96 + o.credit % 2 ^ 16 * 2 ^ 128
    + len % 2 ^ 16 * 2 ^ 144 + o.incarnation % 2 ^ 32 * 2 ^ 160

def aetBytes (o : AetOut) : List Byte :=
  let p := loadBytes o.src o.load
  toBytes (aetHeader o p.length) 24 ++ p

end Sys2Proof.Machine
end

