-- ==== Sys2Proof/Machine/AetOps.lean ====
section
/-! DEFINITION. The sending side of the Aedene Event Transport and its refusal ring (R356-R362, R375), which other units
use. -/

namespace Sys2Proof.Machine

def ownChip (s : State) : Nat := getF s Reg.aet_AET_CFG_CHIP_ID
def sess (s : State) (p : Nat) : Sess := tget {} p s.aet.sess
def modSess (p : Nat) (f : Sess → Sess) (s : State) : State :=
  { s with aet := { s.aet with sess := tset p (f (sess s p)) s.aet.sess } }
def sessState (s : State) (p : Nat) : Nat := getF s (Reg.aet_SESS_STATUS_STATE p)
def sessPort (s : State) (p : Nat) : Nat := getF s (Reg.aet_SESS_STATUS_PORT p)
def sessOpen (s : State) (p : Nat) : Bool := sessState s p == 2
def setSessState (p v : Nat) (s : State) : State := putF (Reg.aet_SESS_STATUS_STATE p) v s
def aetEvent (i : Nat) (s : State) : State := flagF Reg.aet_AET_EVENTS_EVENTS i s

/-- A datagram is handed to its port: it leaves as a frame while the port's link is up (R357). -/
def aetSend (o : AetOut) (s : State) : State :=
  let t := { s with aet := { s.aet with out := s.aet.out ++ [o] } }
  if portUp s o.port then emitFrame o.port (aetFrame s o.port o.peer (aetBytes o)) t else t

/-- SACK (R357): bit `i` for SEQ ACK + 1 + i held. -/
def sackOf (g : Sess) : Nat :=
  (List.range 32).foldl (fun n i => n + bnat ((tfind ((g.rxNext + 1 + i) % 2 ^ 32) g.rxHeld).isSome) * 2 ^ i) 0

/-- CREDIT (R357, R361): the 256 receive entries, less those that delivered packets still fill. -/
def creditOf (g : Sess) : Nat := 256 - g.rxUsed

/-- A datagram of type `ty` to peer `p` on the session's active port, with the session's acknowledgement (R357). -/
def dgram (s : State) (p ty seq : Nat) (load : AetLoad) : AetOut :=
  let g := sess s p
  { port := sessPort s p, peer := p, ty := ty, gen := g.gen, src := ownChip s, seq := seq, ack := g.rxNext, sack := sackOf g,
    credit := creditOf g, incarnation := g.incarnation, load := load }

/-- A datagram that belongs to no session yet: GEN, SEQ, ACK, SACK and CREDIT are 0. -/
def bareDgram (s : State) (port p ty inc : Nat) (load : AetLoad) : AetOut :=
  { port := port, peer := p, ty := ty, src := ownChip s, incarnation := inc, load := load }

/-- The sender may send `seq`: CREDIT admits it (R361). -/
def creditAdmits (g : Sess) (seq : Nat) : Bool := decide ((seq + 2 ^ 32 - g.peerAck) % 2 ^ 32 < g.peerCredit)

def bodyType : AetBody → Nat
  | .volley _ => 4
  | .close _ => 5
  | .refuse _ => 6

/-- Send the next queued packet while the peer's CREDIT admits its SEQ (R361). It carries the acknowledgement. -/
def sessPump (p : Nat) : Nat → State → State
  | 0, s => s
  | n + 1, s =>
    let g := sess s p
    match g.queue with
    | [] => s
    | b :: rest =>
      if sessOpen s p && creditAdmits g g.txNext then
        sessPump p n (s |> aetSend (dgram s p (bodyType b) g.txNext (.body b))
          |> modSess p (fun h => { h with queue := rest, txNext := (h.txNext + 1) % 2 ^ 32, rxSince := 0
                                          unacked := h.unacked ++ [{ seq := g.txNext, body := b }] }))
      else s

/-- A sequenced packet for peer `p` joins the session's order. -/
def sessSend (p : Nat) (b : AetBody) (s : State) : State :=
  let t := modSess p (fun g => { g with queue := g.queue ++ [b] }) s
  sessPump p (sess t p).queue.length t

/-- A record of a refusal ring of `size` records at `base`, with counters PROD and CONS, is written, or `lost` counts it (R551). -/
def ringPut (base size : Nat) (prod cons : FieldRef) (rec : Nat) (lost : State → State) (s : State) : State :=
  let p := getF s prod
  if sub32 p (getF s cons) < size then
    let w := mainWrite (base + 16 * (p % size)) (toBytes rec 16) s
    if w.2 then addWrap prod 1 w.1 else lost w.1
  else lost s

/-- The ring's next record meets a channel in training, or one before it does: it waits. -/
def ringWaits (s : State) (aet : Bool) (base size : Nat) (prod : FieldRef) : Bool :=
  s.ringIn.any (fun r => r.aet == aet) || mainWaits s (base + 16 * (getF s prod % size)) 16

/-- A record of the AET refusal ring (R375, R551). -/
def aetRingWrite (hdr word : Word64) (s : State) : State :=
  let size := 256 * 2 ^ min (getF s Reg.aet_AET_REF_BASE_LOG2) 16
  let base := getF s Reg.aet_AET_REF_BASE_BASE * 4096
  if ringWaits s true base size Reg.aet_AET_REF_PROD_PROD then { s with ringIn := s.ringIn ++ [⟨true, hdr.toNat, word.toNat⟩] }
  else ringPut base size Reg.aet_AET_REF_PROD_PROD Reg.aet_AET_REF_CONS_CONS (hdr.toNat + word.toNat * 2 ^ 64)
    (fun t => t |> incSat Reg.aet_AET_REF_LOST_COUNT |> aetEvent 4) s

/-- The header of R375. -/
def aetRefusal (reason coreReason chip expert w : Nat) : Word64 :=
  BitVec.ofNat 64 (reason % 16 + coreReason % 16 * 2 ^ 4 + chip % 32 * 2 ^ 8 + expert % 2 ^ 12 * 2 ^ 16 + w % 2 ^ 32 * 2 ^ 32)

/-- A refused volley event returns to its sender: by a REFUSE packet on an open session, or into the device's own ring. -/
def aetReturn (reason coreReason : Nat) (o : AetOrg) (word : Word64) (s : State) : State :=
  let hdr := aetRefusal reason coreReason (ownChip s) o.expert o.wicket
  if o.chip = ownChip s then aetRingWrite hdr word s
  else if sessOpen s o.chip then sessSend o.chip (.refuse [(hdr, word)]) s
  else s

end Sys2Proof.Machine
end

