-- ==== Sys2Proof/Machine/Admission.lean ====
section
/-! DEFINITION. Admission control: checks, attribution, the hold buffer, injection, refusals, close marks and step-done
(R205-R216, R22). -/

namespace Sys2Proof.Machine

def admEvent (f : FieldRef) (s : State) : State := setF f s

/-! ### Refusals (R215, R216) -/

/-- The 16-byte record of a refusal goes to the admission refusal ring, or is counted lost (R216, R551). -/
def admRingWrite (hdr word : Nat) (s : State) : State :=
  let size := 256 * 2 ^ getF s Reg.adm_ADM_CFG_RING_LOG2
  let base := getF s Reg.adm_ADM_RING_BASE_BASE * 4096
  if ringWaits s false base size Reg.adm_ADM_RING_PROD_PROD then { s with ringIn := s.ringIn ++ [⟨false, hdr, word⟩] }
  else ringPut base size Reg.adm_ADM_RING_PROD_PROD Reg.adm_ADM_RING_CONS_CONS (hdr + word * 2 ^ 64)
    (fun t => t |> incSat Reg.adm_ADM_RING_LOST_COUNT |> setF Reg.adm_ADM_EVENTS_RING_OVERFLOW) s

/-- The records that waited for a channel are written, in order, as far as their places take accesses again. -/
def ringSettle (s : State) : State :=
  s.ringIn.foldl (fun t r => if r.aet then aetRingWrite (BitVec.ofNat 64 r.hdr) (BitVec.ofNat 64 r.word) t else admRingWrite r.hdr r.word t)
    { s with ringIn := [] }

/-- The header word of R215. -/
def admHeader (reason source coreReason ctx step : Nat) : Nat :=
  reason % 16 + source % 16 * 2 ^ 4 + coreReason % 16 * 2 ^ 8 + ctx % 2 ^ 16 * 2 ^ 16 + step % 2 ^ 32 * 2 ^ 32

/-- Admission control refuses an event: the counts of R215, the record, and for an AET event its return (R375). -/
def admRefuse (reason source coreReason ctx step : Nat) (word : Word64) (org : Option AetOrg) (s : State) : State :=
  let t := s |> dPut ctx 384 32 (min (dRefusals s ctx + 1) (2 ^ 32 - 1))
    |> (fun u => if source < 10 then incSat (Reg.adm_ADM_SRC_REFUSED_COUNT source) u else u)
    |> incWrap Reg.adm_ADM_REFUSED_COUNT |> setF Reg.adm_ADM_EVENTS_REFUSED
    |> (fun u => if reason = 3 then flagF Reg.jrn_JRN_EVENTS_EVENTS 1 u else u)
    |> (fun u => if reason = 6 then setF Reg.adm_ADM_EVENTS_HOLD_FULL u else u)
    |> admRingWrite (admHeader reason source coreReason ctx step) word.toNat
  match org with
  | some o => aetReturn reason coreReason o word t
  | none => t

/-! ### Injection (R21, R22, R213, R214) -/

/-- The chip-port router at which an event enters; `none` for a flock without a ROOT entry at a chip port. -/
def entryPort (s : State) (ctx : Nat) (w : Word64) : Option Nat :=
  if evMc w then chipPorts.find? (fun r => flockBit s r (evFlock w) 7 && flockBit s r (evFlock w) 6)
  else chipPorts[2 * regionOfCore (evCore w) + (ctx + evCore w) % 2]?

/-- Admission control injects an event attributed to a step: its packet waits at the chip port. A multicast event of a flock
without a ROOT entry at a chip port has nowhere to enter: it stays in the hold buffer. The spec has Bexnel fail such an image
(R186) and says nothing of the event (DESIGN CHOICE, log entry 49). -/
def injectEvent (h : HeldEvent) (s : State) : State :=
  match entryPort s h.ctx h.word with
  | none => { s with hold := s.hold ++ [h] }
  | some r =>
    post { ty := .event, src := 4 * r + 3, dst := (if evMc h.word then evFlock h.word else eventDst h.word),
           mc := evMc h.word, epoch := evEpoch h.word, data := h.word.toNat, step := h.step, engine := h.source,
           raw := h.raw.toNat, org := h.org } s

/-- DX, DY, MC and EPOCH come from the context's ingress route (R213). -/
def routedWord (s : State) (ctx : Nat) (w : Word64) : Word64 :=
  mkEvent (dRouteDx s ctx) (dRouteDy s ctx) (dRouteEpoch s ctx) (evAxon w) ctx (evPay w) (evDly w) (evKind w) (dRouteMc s ctx)

/-! ### The checks of R212 -/

/-- The step to which a live-ingress event belongs now (R205). -/
def openStep (s : State) (ctx : Nat) : Nat := max (s.admTick - dStart s ctx) (ctxRun s ctx).closed

/-- The step an event would belong to. -/
def admStep (s : State) (ctx : Nat) (step : Option Nat) : Nat :=
  match step with
  | some n => n
  | none => openStep s ctx

/-- Check 1. A STOPPED timebase refuses live ingress (R210); a disabled or stopping block refuses everything (R43, R228). -/
def admRuns (s : State) (ctx : Nat) : Bool :=
  let st := dState s ctx
  blkEnabled s Reg.adm_BLK_CTRL && isSet s Reg.adm_BLK_CTRL_EN && chipState s != 5 && (st == stRunning || st == stOverrun) && !(ctxRun s ctx).shut &&
    (dMarked s ctx || (decide (dStart s ctx ≤ s.admTick) && getF s Reg.tb_TB_STATE_STATE != 0))

/-- Check 2. -/
def stepOk (s : State) (ctx : Nat) (step : Option Nat) : Bool :=
  match dMarked s ctx, step with
  | true, some n => decide ((ctxRun s ctx).closed ≤ n) && decide (dStart s ctx + n ≤ tbWicket s + 2)
  | false, none => true
  | _, _ => false

/-- Records each journal ring holds (R330, R351). -/
def jrnSize (s : State) : Nat := 131072 * 2 ^ min (getF s Reg.jrn_JRN_CFG_SIZE_LOG2) 11

/-- The journal engine has a free entry (R332). -/
def jrnFree (s : State) : Bool :=
  blkEnabled s Reg.jrn_BLK_CTRL && decide (s.journal.length < 4096) &&
    decide (65536 + (getF s Reg.jrn_JRN_HEAD_INDEX - getF s Reg.jrn_JRN_TAIL_INDEX) < jrnSize s)

/-- The event must wait for its wicket (R214). -/
def mustHold (s : State) (ctx n : Nat) : Bool := decide ((ctxRun s ctx).released ≤ n)

/-- A held event may leave the buffer: its wicket is released, and it has a port to enter at. -/
def mayGo (s : State) (h : HeldEvent) : Bool :=
  decide (h.step < (ctxRun s h.ctx).released) && !dRecovering s h.ctx && (entryPort s h.ctx h.word).isSome

/-- The oldest events of a context, up to the first that may not leave, and what stays: the events of a context leave in the
order they entered (R214). -/
def takeLead (f : HeldEvent → Bool) (ctx : Nat) : List HeldEvent → List HeldEvent × List HeldEvent
  | [] => ([], [])
  | h :: r =>
    if h.ctx ≠ ctx then ((takeLead f ctx r).1, h :: (takeLead f ctx r).2)
    else if f h then (h :: (takeLead f ctx r).1, (takeLead f ctx r).2)
    else ([], h :: r)

/-- The held events of a context that may leave are injected. -/
def letGo (ctx : Nat) (s : State) : State :=
  let q := takeLead (mayGo s) ctx s.hold
  q.1.foldl (fun t h => injectEvent h t) { s with hold := q.2 }

/-- The first check of R212 that fails. -/
def admReason (s : State) (ctx : Nat) (step : Option Nat) : Option Nat :=
  let n := admStep s ctx step
  if !admRuns s ctx then some 1
  else if !stepOk s ctx step then some 4
  else if isSet s Reg.adm_ADM_CFG_ENFORCE && decide (dBudget s ctx ≤ tget 0 n (ctxRun s ctx).counts) then some 2
  else if dProt s ctx && !jrnFree s then some 3
  else if !dRecovering s ctx && mustHold s ctx n && decide (8192 ≤ s.hold.length) then some 6
  else none

/-- An accepted event (R212-R214): counted, journaled, and held, or injected after the older events of its context; while
RECOVERING is 1 it is not injected (R343). -/
def admAccept (source ctx n : Nat) (w : Word64) (org : Option AetOrg) (s : State) : State :=
  let word := routedWord s ctx w
  let iseq := dIseq s ctx
  let t := s |> modCtx ctx (fun r => { r with counts := tset n (tget 0 n r.counts + 1) r.counts, highest := max r.highest (n + 1) })
    |> incWrap Reg.adm_ADM_ACCEPTED_COUNT |> dPut ctx 192 64 (iseq + 1)
    |> (fun u => if dProt s ctx then { u with journal := u.journal ++ [⟨ctx, n, false, word.toNat, iseq⟩] } else u)
  let h : HeldEvent := ⟨ctx, n, source, word, w, org⟩
  if dRecovering s ctx then t
  else if mustHold s ctx n then { t with hold := t.hold ++ [h] }
  else injectEvent h (letGo ctx t)

/-- An event of `source` reaches admission control (R212). -/
def takeEvent (source : Nat) (w : Word64) (step : Option Nat) (org : Option AetOrg) (s : State) : State :=
  let ctx := evCtx w
  match admReason s ctx step with
  | some r => admRefuse r source 0 ctx (admStep s ctx step) w org s
  | none => admAccept source ctx (admStep s ctx step) w org s

/-! ### Close of a step (R205, R331) -/

/-- Step `n` of the context, and every earlier open one, closes to ingress; a step with accepted events of a protected
context gets its close record. ISEQ and the journal index at the close are kept for a checkpoint (R336). -/
def closeStep (ctx n : Nat) (s : State) : State :=
  let r := ctxRun s ctx
  let due := (List.range (n + 1 - r.closed)).map (r.closed + ·)
  let recs : List JrnRec := (due.filter (fun m => tget 0 m r.counts != 0)).map
    (fun m => ⟨ctx, m, true, 3 * 2 ^ 3 + ctx * 2 ^ 18, m⟩)
  let t := if dProt s ctx then { s with journal := s.journal ++ recs } else s
  if n < r.closed then s
  else modCtx ctx (fun r => { r with closed := n + 1, counts := r.counts.filter (fun p => decide (n < p.1))
                                     cuts := due.foldl (fun l m => tset (m + 1) (dIseq s ctx, jrnIndex t) l) r.cuts }) t

/-- A close mark of AET; one for a live-ingress context is ignored, and so is one for a step closed already (R205, R377). -/
def closeMark (ctx step : Nat) (s : State) : State :=
  if dMarked s ctx && running s ctx then closeStep ctx step s else s

/-! ### Hold buffer and events that leave it -/

/-- The events of a context still in the hold buffer are removed and recorded with NOT_RUNNING (R214). -/
def dropHold (ctx : Nat) (s : State) : State :=
  (s.hold.filter (fun h => h.ctx == ctx)).foldl (fun u h => admRefuse 1 h.source 0 ctx h.step h.raw h.org u)
    { s with hold := s.hold.filter (fun h => h.ctx != ctx) }

/-- The context leaves its running states for LOADED, FREE or FAULTED: its held events are recorded (R214), and its
contributions are discarded (R547). -/
def leaveRun (ctx : Nat) (s : State) : State := if running s ctx then s |> discardContribs ctx |> dropHold ctx else s

/-- A device transition or a command moves the context to a state outside its running states. -/
def leaveTo (ctx v : Nat) (s : State) : State := s |> leaveRun ctx |> enterState ctx v

/-- The context becomes FAULTED with a cause (R317, R321). A recovery of it does not complete (R348). -/
def faultCtx (ctx cause : Nat) (s : State) : State :=
  s |> leaveRecov ctx |> (fun t => if dRecovering t ctx then setDRecovering ctx false t else t)
    |> leaveTo ctx stFaulted |> dPut ctx 10 3 cause

/-- A descriptor that neither copy can give (R317): both copies are written FAULTED with FAULT 2 and zero elsewhere, its slots
become FAULTED, and what R214, R337 and R547 say of a context that becomes FAULTED follows. -/
def descCheck (ctx : Nat) (s : State) : State :=
  if descLost s ctx then
    s |> leaveRecov ctx |> discardContribs ctx |> flagF Reg.ctt_CTX_EVENTS_EVENTS 2
      |> descWrite ctx (toBytes (stFaulted + 2 * 2 ^ 10) 64) |> putSlots ctx stFaulted |> dropHold ctx |> tailUpdate
  else s

/-! ### The commands -/

/-- A receive entry of the session with `p` is free again, unless the session has changed since (R361, R364). -/
def freeEntry (p inc : Nat) (s : State) : State :=
  if sessOpen s p && (sess s p).incarnation == inc then modSess p (fun g => { g with rxUsed := g.rxUsed - 1 }) s else s

/-- The events, marks and entries of AET at the front of what it has handed on: marks are taken, and entries freed, at once. -/
def takeMarks : Nat → State → State
  | 0, s => s
  | n + 1, s =>
    match s.admIn.find? (fun i => match i with
      | .event src _ _ _ => src == 9
      | .mark _ _ => true
      | .entry _ _ => true) with
    | some (.mark c m) => takeMarks n (closeMark c m { s with admIn := s.admIn.erase (.mark c m) })
    | some (.entry p inc) => takeMarks n (freeEntry p inc { s with admIn := s.admIn.erase (.entry p inc) })
    | _ => s

/-- Take the marks that no event of AET precedes. -/
def settleMarks (s : State) : State := takeMarks s.admIn.length s

/-- A unit hands an event on to admission control. -/
def handOn (source : Nat) (w : Word64) (step : Option Nat) (org : Option AetOrg) (s : State) : State :=
  { s with admIn := s.admIn ++ [.event source w step org] }

def isFrom (source : Nat) : AdmIn → Bool
  | .event src _ _ _ => src == source
  | .mark _ _ => false
  | .entry _ _ => false

/-- ADMISSION_EVENT (R211, R212). -/
def execAdmissionEvent (source : Nat) (s : State) : Host.Outcome State Fault Refusal :=
  live s (match s.admIn.find? (isFrom source) with
    | some (.event src w step org) =>
      { s with admIn := s.admIn.eraseP (isFrom source) } |> descCheck (evCtx w) |> takeEvent src w step org |> settleMarks
    | _ => s)

/-- TICK_AT_ADMISSION (R205): step k - 1 of every live-ingress context closes. -/
def execTickAtAdmission (s : State) : Host.Outcome State Fault Refusal :=
  live s (
    let k := tbWicket s
    if s.admTick < k then
      (ctxList s).foldl (fun t c =>
        if inHold t c && !dMarked t c && decide (dStart t c ≤ k) then
          let u := modCtx c (fun r => { r with started := true }) t
          if dStart t c < k then closeStep c (k - dStart t c - 1) u else u
        else t) { s with admTick := k }
    else s)

/-- HOLD_INJECT (R214): the oldest held event of the context, if its wicket has been released. -/
def execHoldInject (ctx : Nat) (s : State) : Host.Outcome State Fault Refusal :=
  live s (match s.hold.find? (fun h => h.ctx == ctx) with
    | some h => if mayGo s h then injectEvent h { s with hold := s.hold.erase h } else s
    | none => s)

/-- The retransmit entry that a refusal of admission control's event names. -/
def refusedPkt (s : State) (b : BackRefusal) : Option Packet :=
  (s.fab.retx.find? (fun e => e.pkt.src == b.src && e.pkt.dst == b.r.dst && e.pkt.seq == b.r.seq && e.pkt.mc == b.r.mc
    && (e.pkt.ty == .event || e.pkt.ty == .qsend))).map (·.pkt)

/-- The refusal has been recorded at admission control: the entry is free unless another refusal of the item waits. -/
def backDone (b : BackRefusal) (rest : List BackRefusal) (s : State) : State :=
  let hit (e : Retx) : Bool := e.pkt.src == b.src && e.pkt.dst == b.r.dst && e.pkt.seq == b.r.seq && e.pkt.mc == b.r.mc
    && (e.pkt.ty == .event || e.pkt.ty == .qsend)
  let more := rest.any (fun o => o.src == b.src && o.r.dst == b.r.dst && o.r.seq == b.r.seq && o.r.mc == b.r.mc)
  let need (e : Retx) : Nat := if e.pkt.mc then flockMembers s (epRouter e.pkt.src) e.pkt.dst else 1
  let l := s.fab.retx.map (fun e => if hit e then { e with refused := more } else e)
  { s with fab := { s.fab with retx := l.filter (fun e => !(hit e && !e.refused && decide (need e ≤ e.acks))) } }

/-- DELIVERY_REFUSED (R163, R216). A refused status pair goes to the AET refusal ring (R375). -/
def execDeliveryRefused (s : State) : Host.Outcome State Fault Refusal :=
  live s (match s.admRefused with
    | [] => s
    | b :: rest =>
      let t := { s with admRefused := rest }
      match refusedPkt s b with
      | some p =>
        if p.ty = .qsend then
          t |> aetRingWrite (aetRefusal 5 (bitsN b.r.hdr.toNat 4 4) (ownChip s) 0 (p.data / 2 ^ 32)) (BitVec.ofNat 64 p.data)
            |> backDone b rest
        else
          let w := BitVec.ofNat 64 p.data
          t |> descCheck (evCtx w)
            |> admRefuse 5 p.engine (bitsN b.r.hdr.toNat 4 4) (evCtx w) p.step (BitVec.ofNat 64 p.raw) p.org
            |> backDone b rest
      | none => t)

/-- The ring's consumer index takes a value that R216 and R328 permit. -/
def consOk (prod cons v : Nat) : Bool := decide (sub32 prod v ≤ sub32 prod cons)

/-- ADM_RING_CONS_WRITE (R216). -/
def execAdmRingConsWrite (p : Party) (v : Word) (s : State) : Host.Outcome State Fault Refusal :=
  live s (csrEffect p Reg.adm_ADM_RING_CONS (fun t =>
    if consOk (getF t Reg.adm_ADM_RING_PROD_PROD) (getF t Reg.adm_ADM_RING_CONS_CONS) v.toNat then
      putF Reg.adm_ADM_RING_CONS_CONS v.toNat t
    else setF Reg.adm_ADM_EVENTS_CONS_ERR t) s)

/-- Every event that admission control injected for the step has been delivered (R194, R207). -/
def stepDelivered (s : State) (ctx n : Nat) : Bool :=
  let mine (p : Packet) : Bool := epCode p.src == 3 && p.ty == .event && decide (p.engine ≤ 10) &&
    evCtx (BitVec.ofNat 64 p.data) == ctx && p.step == n
  s.hold.all (fun h => !(h.ctx == ctx && h.step == n)) &&
  s.fab.waiting.all (fun p => !mine p) && s.fab.retx.all (fun e => !mine e.pkt)

/-- ADMISSION_STEP_DONE (R207): during a replay, only for steps whose events have been injected (R343). -/
def execAdmissionStepDone (ctx : Nat) (s : State) : Host.Outcome State Fault Refusal :=
  live s (
    let r := ctxRun s ctx
    let n := r.admDone
    if running s ctx && blkEnabled s Reg.adm_BLK_CTRL && decide (n < r.closed) && stepDelivered s ctx n &&
        (!dRecovering s ctx || decide (n < r.replayed)) then
      { modCtx ctx (fun r => { r with admDone := n + 1 }) s with contribs := s.contribs ++ [⟨ctx, n⟩] }
    else s)

/-- CONTRIBUTIONS_DISCARD (R547): what still carries the number of a context that is not running, or whose recovery has
begun and has not reached replay. -/
def execContributionsDiscard (ctx : Nat) (s : State) : Host.Outcome State Fault Refusal :=
  live s (if !running s ctx || (dRecovering s ctx && (ctxRun s ctx).replay.isNone) then discardContribs ctx s else s)

end Sys2Proof.Machine
end

