-- ==== Sys2Proof/Machine/Time.lean ====
section
/-! DEFINITION. The timebase: ticks, holds and overrun (R202-R219), and the trigger outputs, which act at ticks
(R309, R310, R222). -/

namespace Sys2Proof.Machine

/-! ### Trigger outputs (R309, R310) -/

/-- A field of a TRIG_OUT register as the last tick found it: a write takes effect from the next tick (R316). -/
def trigF (s : State) (f : FieldRef) : Nat := (tget (resetWord f.addr) f.addr s.trigLive).toNat / 2 ^ f.lo % 2 ^ f.width

/-- The fields of the TRIG_OUT registers take effect. -/
def trigLatch (s : State) : State :=
  { s with trigLive := s.csr.filter (fun p => decide (Reg.trig_TRIG_OUT_CFG 0 ≤ p.1) && decide (p.1 < Reg.trig_TRIG_OUT_CFG 8)) }

/-- Drive the balls: P above N during a pulse, or outside it where POL is 1. -/
def driveTrig (s : State) : State :=
  let pol := (List.range 8).foldl (fun m n => m + trigF s (Reg.trig_TRIG_OUT_CFG_POL n) * 2 ^ n) 0
  { s with pins := { s.pins with trigOut := s.trigActive ^^^ pol } }

def setTrig (n : Nat) (v : Bool) (s : State) : State := driveTrig { s with trigActive := setBitN s.trigActive n v }

def trigCfg (s : State) (n : Nat) : Bool := trigF s (Reg.trig_TRIG_OUT_CFG_EN n) == 1

/-- Output `n` is enabled and matches the context and axon offset of a result (R309). -/
def trigMatches (s : State) (ctx off n : Nat) : Bool :=
  let cm := trigF s (Reg.trig_TRIG_OUT_MATCH_CTX_MASK n)
  let am := trigF s (Reg.trig_TRIG_OUT_AXON_AX_MASK n)
  trigCfg s n && (ctx &&& cm) == (trigF s (Reg.trig_TRIG_OUT_MATCH_CTX_MATCH n) &&& cm) &&
    (off &&& am) == (trigF s (Reg.trig_TRIG_OUT_AXON_AX_MATCH n) &&& am)

def requestPulse (r : TrigReq) (s : State) : State := { s with trigReqs := s.trigReqs ++ [r] }

/-- The pulse of output `n` at tick `k` is dropped: holdoff, or an unmet qualification. -/
def pulseHeld (s : State) (n k : Nat) : Bool :=
  (match tfind n s.trigLast with
   | some l => decide (k ≤ l + trigF s (Reg.trig_TRIG_OUT_HOLD_HOLDOFF n))
   | none => false) ||
  (trigF s (Reg.trig_TRIG_OUT_CFG_QUAL_EN n) == 1 &&
    bitN s.pins.trigIn (trigF s (Reg.trig_TRIG_OUT_CFG_QUAL_IN n)) != (trigF s (Reg.trig_TRIG_OUT_CFG_QUAL_LVL n) == 1))

/-- Output `n` sends its pulse; one still active is extended, without a new edge. -/
def sendPulse (n k : Nat) (s : State) : State :=
  let t := { s with trigLast := tset n k s.trigLast }
  if bitN s.trigActive n then flagF Reg.trig_TRIG_EVENTS_STRETCHED n t
  else t |> setTrig n true |> incSat (Reg.trig_TRIG_PULSES_COUNT n)

/-- The requests of output `n` that are due at tick `k`. -/
def dueFor (s : State) (n k : Nat) : List TrigReq := s.trigReqs.filter (fun r => r.out == n && decide (r.tick ≤ k))

/-- TRIG_STEP of the context of a released request (R318): the last step, by number, whose pulses have been released, so that a
recovery releases none twice (R344). -/
def noteTrigStep (r : TrigReq) (s : State) : State :=
  match r.src with
  | some (ctx, m) =>
    if (ctxRun s ctx).trigRel && decide ((dTrigStep s ctx + 2 ^ 32 - m % 2 ^ 32) % 2 ^ 32 < 2 ^ 31) then s
    else s |> dPut ctx 416 32 m |> modCtx ctx (fun r => { r with trigRel := true })
  | none => s

/-- TRIGGER_TICK (R310): what output `n` does at tick `k`. -/
def trigTick (k : Nat) (s : State) (n : Nat) : State :=
  match dueFor s n k with
  | [] => s
  | r :: rest =>
    let t := (r :: rest).foldl (fun u q => noteTrigStep q u)
      ({ s with trigReqs := s.trigReqs.filter (fun q => !(q.out == n && decide (q.tick ≤ k))) } |>
        addSat (Reg.trig_TRIG_MERGED_COUNT n) rest.length)
    if !trigCfg s n then t
    else if pulseHeld s n k then t |> incSat (Reg.trig_TRIG_HELD_COUNT n) |> flagF Reg.trig_TRIG_EVENTS_HELD n
    else sendPulse n k t

/-- PULSE_END (R310): WIDTH after its last leading edge the pulse of output `n` ends. -/
def execPulseEnd (n : Nat) (s : State) : Host.Outcome State Fault Refusal :=
  live s (if n < 8 then setTrig n false s else s)

/-! ### Ticks (R202-R204, R217, R219) -/

/-- A RESUME takes effect at the tick, and its command is complete (R320, R549). -/
def resumeAt (s : State) (c : Nat) : State :=
  if (ctxRun s c).resuming && dState s c == stPaused && !dRecovering s c then
    let t := s |> modCtx c (fun r => { r with resuming := false, shut := false, limit := none }) |> enterState c stRunning
    if t.cttCmd = some (5, c) then
      { t with cttCmd := none } |> clrF Reg.ctt_CTX_CMD_STATUS_BUSY |> putF Reg.ctt_CTX_CMD_STATUS_RESULT 0
        |> flagF Reg.ctt_CTX_EVENTS_EVENTS 0
    else t
  else s

/-- START of a context that is outside its hold set at tick `k` (R204). -/
def startAdvance (k : Nat) (s : State) (c : Nat) : State :=
  if inHold s c || dRecovering s c || dState s c == stFree then s
  else
    let v := k + 1 - (ctxRun s c).released
    if dStart s c < v then setDStart c v s else s

/-- Each tick returns one run-ahead credit to a context that has spent any (R219). -/
def creditBack (s : State) (c : Nat) : State := modCtx c (fun r => { r with credits := min (r.credits + 1) 2 }) s

/-- Tick `k` is issued (R202, R204, R210, R217, R310): the transitions that take effect at it come first. -/
def issueTick (s : State) : State :=
  let k := tbWicket s + 1
  let s1 := (ctxList s).foldl resumeAt s
  let s2 := (ctxList s1).foldl (startAdvance k) s1
  let s3 := (List.range 8).foldl (trigTick k) (s2 |> trigLatch |> driveTrig)
  let s4 := (ctxList s3).foldl creditBack s3
  { s4 with aet := { s4.aet with tickTime := s4.aet.tbTime } }
    |> putF Reg.tb_TB_WICKET_WICKET k |> putF Reg.tb_TB_STATE_STATE 1

/-- The stretch of a held tick (R217, R227). -/
def stretched (held : Nat) (s : State) : State :=
  let v := min held (2 ^ 32 - 1)
  s |> putF Reg.tb_STEP_STRETCH_VALUE v |> putF Reg.tb_STRETCH_MAX_VALUE (max (getF s Reg.tb_STRETCH_MAX_VALUE) v)
    |> incSat Reg.tb_STRETCH_COUNT_COUNT |> setF Reg.tb_TB_EVENTS_STRETCH

/-- The timebase runs and no stop is in progress. -/
def tbRuns (s : State) : Bool := blkEnabled s Reg.tb_BLK_CTRL && isSet s Reg.tb_BLK_CTRL_EN

/-- The first tick after an enable comes at once, at an edge of SYSREF, or at an edge of PPS (R202). -/
def startSrc (s : State) : Nat := getF s Reg.tb_TB_CFG_START_SRC

/-- An edge that the first tick waits for issues it. -/
def edgeStart (src : Nat) (s : State) : State :=
  if tbRuns s && getF s Reg.tb_TB_STATE_STATE == 0 && startSrc s == src then issueTick s else s

/-- TICK (R202, R217). A first tick that waits for an edge is issued by that edge. -/
def execTick (held : Nat) (s : State) : Host.Outcome State Fault Refusal :=
  live s (
    let st := getF s Reg.tb_TB_STATE_STATE
    if tbRuns s && decide (s.admTick = tbWicket s) && (pendingCtxs s).isEmpty &&
        (st != 0 || startSrc s == 0 || startSrc s == 3) then
      (if st = 2 then stretched held s else s) |> issueTick
    else s)

/-- TICK_HOLD (R210, R217): the nominal time of the next tick passes with a wicket unreleased. -/
def execTickHold (s : State) : Host.Outcome State Fault Refusal :=
  live s (if blkEnabled s Reg.tb_BLK_CTRL && getF s Reg.tb_TB_STATE_STATE == 1 && !(pendingCtxs s).isEmpty then
    putF Reg.tb_TB_STATE_STATE 2 s else s)

/-- STEP_SLIP_EXPIRY (R218). -/
def execStepSlipExpiry (s : State) : Host.Outcome State Fault Refusal :=
  live s (if getF s Reg.tb_TB_STATE_STATE = 2 then
    let late := (pendingCtxs s).filter (fun c => dState s c == stRunning)
    let t := late.foldl (fun u c => enterState c stOverrun u) s |> setF Reg.tb_TB_EVENTS_OVERRUN
    match late with
    | [] => t
    | c :: _ =>
      (if isSet s Reg.tb_OVERRUN_CTX_VALID then t
        else t |> setF Reg.tb_OVERRUN_CTX_VALID |> putF Reg.tb_OVERRUN_CTX_CTX c)
        |> record 1 1 c late.length
  else s)

end Sys2Proof.Machine
end

