-- ==== Sys2Proof/Machine/Volley.lean ====
section
/-! DEFINITION. The volley egress: streams, windows, the choice of experts, volleys, and the marks that close expert steps
(R368-R374, R376). -/

namespace Sys2Proof.Machine

/-! ### Streams (R369) -/

/-- The VALID stream entries, in order. -/
def validStreams (s : State) : List Nat :=
  s.csr.filterMap (fun p =>
    if Reg.volTab_VSTREAM 0 ≤ p.1 ∧ p.1 ≤ Reg.volTab_VSTREAM 1023 ∧ p.1 % 16 = 0 ∧ p.2.getLsbD 16 = true
    then some ((p.1 - Reg.volTab_VSTREAM 0) / 16) else none)

/-- The lowest-numbered VALID entry whose SRC_CTX is the context. -/
def streamOf (s : State) (ctx : Nat) : Option Nat :=
  (validStreams s).find? (fun i => getF s (Reg.volTab_VSTREAM_SRC_CTX i) == ctx)

def volEvent (i : Nat) (s : State) : State := flagF Reg.vol_VOL_EVENTS_EVENTS i s
def badAxon (n : Nat) (s : State) : State :=
  if n = 0 then s else s |> addSat Reg.vol_BAD_AXON_COUNT_COUNT n |> volEvent 1

/-- The event's place in a stream's window: change the window of a stream and step, making it if there is none. -/
def modWindow (stream step : Nat) (f : VolWindow → VolWindow) (s : State) : State :=
  let hit (w : VolWindow) : Bool := w.stream == stream && w.step == step
  let ws := if s.aet.windows.any hit then s.aet.windows else s.aet.windows ++ [{ stream := stream, step := step }]
  { s with aet := { s.aet with windows := ws.map (fun w => if hit w then f w else w) } }

/-- The egress takes events of the context's present step: it is enabled, or it is stopping and the step is not later than
the chip wicket (R43). -/
def egressOpen (s : State) (ctx : Nat) : Bool :=
  isSet s Reg.vol_BLK_CTRL_EN ||
    (blkEnabled s Reg.vol_BLK_CTRL && decide (dStart s ctx + (ctxRun s ctx).complete ≤ tbWicket s))

/-- An event at the volley egress (R369). It belongs to the lowest step of its context that is not complete, as a result
event does (R323). -/
def egressEvent (w : Word64) (s : State) : State :=
  match (if egressOpen s (evCtx w) then streamOf s (evCtx w) else none) with
  | none => s |> incSat Reg.vol_NO_STREAM_COUNT_COUNT |> volEvent 0
  | some i =>
    let a := evAxon w - 0xF800
    let step := (ctxRun s (evCtx w)).complete
    if evKind w ≤ 1 ∧ a < 0x200 then modWindow i step (fun v => { v with data := v.data ++ [w] }) s
    else if evKind w = 1 ∧ 0x200 ≤ a ∧ a < 0x300 ∧ a - 0x200 ≤ getF s (Reg.volTab_VSTREAM_CAND i) then
      modWindow i step (fun v => { v with gates := tset (a - 0x200) (max (tget 0 (a - 0x200) v.gates) (evPay w)) v.gates }) s
    else badAxon 1 s

/-! ### Close of a window (R370, R371) -/

/-- The candidate of highest score among those admitted, ties to the lower one. -/
def bestGate (lo : Nat) (skip : Option Nat) (gates : Tab Nat) : Option (Nat × Nat) :=
  gates.foldl (fun best p =>
    if p.2 < lo ∨ skip = some p.1 then best
    else match best with
      | none => some p
      | some b => if b.2 < p.2 then some p else some b) none

/-- The list in pieces of `n`. -/
def pieces {α : Type} (n : Nat) : Nat → List α → List (List α)
  | 0, _ => []
  | _, [] => []
  | k + 1, l => l.take n :: pieces n k (l.drop n)

/-- An event rewritten for an expert (R371). -/
def expertWord (s : State) (e : Nat) (w : Word64) : Word64 :=
  mkEvent 0 0 0 (getF s (Reg.volTab_DIR_AXON_BASE e) + (evAxon w - 0xF800)) (getF s (Reg.volTab_DIR_CTX e)) (evPay w) (evDly w)
    (evKind w) 0

/-- LAG, 0 and 3 taken as 1 (R368). -/
def lagOf (s : State) (e : Nat) : Nat := if getF s (Reg.volTab_DIR_LAG e) = 2 then 2 else 1

/-- The home device checks a volley event and attributes it (R372); one that fails is refused with BAD_EXPERT: recorded here, and
returned to its sender (R375). -/
def homeEvent (chip expert wicket : Nat) (w : Word64) (s : State) : State :=
  let ctx := getF s (Reg.volTab_DIR_CTX expert)
  let org : AetOrg := ⟨chip, expert, wicket⟩
  if isSet s (Reg.volTab_DIR_VALID expert) && getF s (Reg.volTab_DIR_CHIP expert) == ownChip s && evCtx w == ctx then
    handOn 9 w (some ((wicket + lagOf s expert + 2 ^ 64 - dStart s ctx) % 2 ^ 64)) (some org) s
  else
    s |> descCheck (evCtx w)
      |> admRefuse 8 9 0 (evCtx w) (wicket + lagOf s expert - dStart s (evCtx w)) w (some org)

/-- Events of a segment: fewer when either port has JUMBO = 0 (R371). -/
def segLen (s : State) : Nat := if isSet s (Reg.eth_ETH_CFG_JUMBO 0) && isSet s (Reg.eth_ETH_CFG_JUMBO 1) then 896 else 140

/-- The segments of one volley, in order. -/
def segments (n expert choice score part w : Nat) (lastVolley : Bool) (evs : List Word64) : List Segment :=
  let ps := pieces n evs.length evs
  ps.zipIdx.map (fun q => { expert := expert, choice := choice, last := lastVolley && q.2 + 1 == ps.length,
                            score := score, part := part, offset := n * q.2, wicket := w, events := q.1 })

/-- Send a window to a chosen expert: to its home device, or straight to admission control here (R371). -/
def sendWindow (e choice score w : Nat) (evs : List Word64) (s : State) : State :=
  let kept := (evs.take 65536).map (expertWord s e)
  let vols := pieces 4096 16 kept
  let chip := getF s (Reg.volTab_DIR_CHIP e)
  let t := addWrap Reg.vol_VOLLEYS_SENT_COUNT vols.length s
  if chip = ownChip s then kept.foldl (fun u x => homeEvent (ownChip s) e w x u) t
  else
    let segs := vols.zipIdx.flatMap (fun q => segments (segLen s) e choice score q.2 w (q.2 + 1 == vols.length) q.1)
    if sessOpen s chip then segs.foldl (fun u g => sessSend chip (.volley g) u) t
    else kept.foldl (fun u x => aetRingWrite (aetRefusal 7 0 (ownChip s) e w) x u) t

/-- The status pair of R370, sent as a QSEND on VC1. -/
def sendStatus (i w : Nat) (first second : Option Nat) (s : State) : State :=
  if isSet s (Reg.volTab_VSTREAM_STATUS_EN i) then
    let gid := getF s (Reg.volTab_VSTREAM_STATUS_Q i)
    let half (x : Option Nat) : Nat := match x with
      | some e => e % 2 ^ 12 + 2 ^ 12
      | none => 0
    post { ty := .qsend, src := 4 * (chipPorts.getD (2 * regionOfCore (gid / 64)) 294) + 3, dst := 4 * (gid / 64)
           epoch := getF s (Reg.volTab_VSTREAM_STATUS_EPOCH i), ext := gid
           data := half first + half second * 2 ^ 16 + w % 2 ^ 32 * 2 ^ 32, engine := 11 } s
  else s

/-- The window of stream `i` for step `n` closes (R370, R376). -/
def closeWindow (ctx n : Nat) (s : State) (i : Nat) : State :=
  let w := dStart s ctx + n
  let win := (s.aet.windows.find? (fun v => v.stream == i && v.step == n)).getD { stream := i, step := n }
  let t := { s with aet := { s.aet with windows := s.aet.windows.filter (fun v => !(v.stream == i && v.step == n)) } }
    |> badAxon (win.data.length - 65536)
  if dRecovering s ctx && decide (w < tget 0 i s.aet.sentW) then t |> incSat Reg.vol_SUPPRESSED_COUNT_COUNT |> volEvent 3
  else
    let lo := getF s (Reg.volTab_VSTREAM_MIN_SCORE i)
    let expert (c : Nat) : Nat := (getF s (Reg.volTab_VSTREAM_EXPERT_BASE i) + c) % 4096
    match bestGate lo none win.gates with
    | none => t |> incSat Reg.vol_UNGATED_COUNT_COUNT |> volEvent 2 |> sendStatus i w none none
    | some (c1, p1) =>
      let second := if isSet s (Reg.volTab_VSTREAM_K2 i) then bestGate lo (some c1) win.gates else none
      let u := sendWindow (expert c1) 0 p1 w win.data t
      let v := match second with
        | some (c2, p2) => sendWindow (expert c2) 1 p2 w win.data u
        | none => u
      { v with aet := { v.aet with sentW := tset i (w + 1) v.aet.sentW } }
        |> sendStatus i w (some (expert c1)) (second.map (fun q => expert q.1))

/-- WINDOW_CLOSE (R370): at the release of wicket `n + 1` every stream of the context closes its window of step `n`. -/
def closeWindows (ctx n : Nat) (s : State) : State :=
  if blkEnabled s Reg.vol_BLK_CTRL then
    ((validStreams s).filter (fun i => getF s (Reg.volTab_VSTREAM_SRC_CTX i) == ctx)).foldl (closeWindow ctx n) s |> settleMarks
  else s

/-! ### Marks (R373, R374) -/

/-- The VALID directory entries. -/
def validExperts (s : State) : List Nat :=
  s.csr.filterMap (fun p =>
    if Reg.volTab_DIR 0 ≤ p.1 ∧ p.1 ≤ Reg.volTab_DIR 4095 ∧ p.1 % 16 = 0 ∧ p.2.getLsbD 0 = true
    then some ((p.1 - Reg.volTab_DIR 0) / 16) else none)

/-- Chip wicket `w` is marked by feeder `c`; a peer without an OPEN session, or before its first CLOSE, is not required. -/
def feederMarked (s : State) (w c : Nat) : Bool :=
  if c = ownChip s then decide (w < tget 0 c s.aet.closedW)
  else !sessOpen s c || (match (sess s c).marksFrom with
    | none => true
    | some m => decide (w ≤ m) || decide (w < (sess s c).marked))

/-- The expert holds every mark for chip wicket `w` that R374 requires. -/
def expertMarked (s : State) (w e : Nat) : Bool :=
  (List.range 32).all (fun c => !bitN (getF s (Reg.volTab_DIR_FEEDERS e)) c || feederMarked s w c)

/-- Expert steps that the marks for `w` close join the order of what AET hands on (R374). -/
def closeExperts (w : Nat) (s : State) : State :=
  ((validExperts s).filter (fun e => getF s (Reg.volTab_DIR_CHIP e) == ownChip s && expertMarked s w e)).foldl (fun t e =>
    let ctx := getF s (Reg.volTab_DIR_CTX e)
    if dStart s ctx ≤ w + lagOf s e then
      { t with admIn := t.admIn ++ [.mark ctx (w + lagOf s e - dStart s ctx)] }
    else t) s |> settleMarks

/-! ### The command -/

/-- VOLLEY_EGRESS_EVENT (R18, R369): the oldest event for the egress at chip port `port`. -/
def execVolleyEgressEvent (port : Nat) (s : State) : Host.Outcome State Fault Refusal :=
  live s (
    let r := chipPorts.getD port 0
    match takeArrivalBy (fun a => decide (0xF800 ≤ evAxon (BitVec.ofNat 64 a.pkt.data))) (portIn s r) with
    | some (a, rest) => s |> setPortIn r rest |> portJudged r a |> egressEvent (BitVec.ofNat 64 a.pkt.data)
    | none => s)

end Sys2Proof.Machine
end

