-- ==== Sys2Proof/Machine/Aet.lean ====
section
/-! DEFINITION. The receiving side of the Aedene Event Transport: sessions, acknowledgement, failover, marks; and the PPS
input (R356-R366, R372-R377). -/

namespace Sys2Proof.Machine

/-! ### Peers -/

def peerValid (s : State) (p : Nat) : Bool :=
  decide (p < 32) && p != ownChip s && isSet s (Reg.aet_PEER_VALID p)

/-- The AET is enabled, and no stop is in progress. -/
def aetOn (s : State) : Bool := blkEnabled s Reg.aet_BLK_CTRL && isSet s Reg.aet_BLK_CTRL_EN

def setAet (f : Aet → Aet) (s : State) : State := { s with aet := f s.aet }

/-- A datagram is discarded and counted (R357). -/
def aetStale (s : State) : State := s |> incSat Reg.aet_STALE_COUNT_COUNT |> aetEvent 6

/-! ### Sessions (R359-R364) -/

/-- The last wicket that this device has completed (R373, R374). -/
def lastClosed (s : State) : Nat := tget 0 (ownChip s) s.aet.closedW - 1

/-- The session opens with an incarnation and a generation; its first sequenced packet is a CLOSE (R360, R374). -/
def sessUp (p inc gen : Nat) (s : State) : State :=
  let w := lastClosed s
  s |> modSess p (fun g => { incarnation := inc, pref := g.pref, gen := gen })
    |> setSessState p 2 |> putF (Reg.aet_SESS_STATUS_INCARNATION p) (inc % 65536) |> aetEvent 0
    |> setAet (fun a => { a with closedW := tset p (w + 1) a.closedW })
    |> sessSend p (.close w)

/-- The events of a packet that is not delivered are recorded with PEER_DOWN (R364). -/
def bodyLost (s : State) (b : AetBody) : State :=
  match b with
  | .volley g => g.events.foldl (fun t w => aetRingWrite (aetRefusal 7 0 (ownChip s) g.expert g.wicket) w t) s
  | _ => s

/-- The bodies that the peer has not acknowledged, in order. -/
def unsent (g : Sess) : List AetBody := g.unacked.map (·.body) ++ g.queue

/-- The session ends in a state: its undelivered packets are handled as R364 gives. -/
def sessEnd (p st : Nat) (s : State) : State :=
  let g := sess s p
  (unsent g).foldl (fun t b => bodyLost t b) (modSess p (fun g => { incarnation := g.incarnation, pref := g.pref }) s)
    |> setSessState p st |> putF (Reg.aet_SESS_STATUS_PORT p) g.pref

/-- Marks that the end of a session has made sufficient take effect (R374, R377). -/
def reclose (s : State) : State :=
  let ms := (List.range 32).map (fun c => if c = ownChip s then tget 0 c s.aet.closedW else (sess s c).marked)
  let hi := ms.foldl max 0
  let lo := ms.foldl (fun m x => if x = 0 then m else min m x) hi
  ((List.range (hi - lo)).map (lo + ·)).foldl (fun t w => closeExperts w t) s

/-- The session is lost (R363, R364). -/
def sessLost (p : Nat) (s : State) : State := s |> sessEnd p 1 |> aetEvent 1 |> reclose

/-- Resend a packet on the active port, and count the send. One that CREDIT does not admit is not sent (R361). -/
def resendPkt (p seq : Nat) (s : State) : State :=
  match (sess s p).unacked.find? (fun k => k.seq == seq) with
  | none => s
  | some k =>
    if creditAdmits (sess s p) seq then
      s |> aetSend (dgram s p (bodyType k.body) seq (.body k.body)) |> incSat Reg.aet_RETX_COUNT_COUNT
        |> modSess p (fun g => { g with rxSince := 0
                                        unacked := g.unacked.map (fun q => if q.seq = seq then { q with sends := q.sends + 1 } else q) })
    else s

/-- The session's active port is another: sends are counted anew on it (R363). -/
def toPort (p n : Nat) (s : State) : State :=
  s |> putF (Reg.aet_SESS_STATUS_PORT p) n
    |> modSess p (fun g => { g with unacked := g.unacked.map (fun k => { k with sends := 0 }) })

/-- The session leaves its active port: failover, or the session is lost (R363). -/
def leavePort (p : Nat) (s : State) : State :=
  let other := 1 - sessPort s p
  if portUp s other then
    let t := s |> toPort p other |> aetEvent 2 |> incSat Reg.aet_FAILOVER_COUNT_COUNT
    (sess t p).unacked.foldl (fun u k => resendPkt p k.seq u) t
  else sessLost p s

def retryLimit (s : State) : Nat := max 1 (getF s Reg.aet_AET_TIMERS_RETRY_LIMIT)

/-- A packet is due for a resend: one that has been sent RETRY_LIMIT times makes the session leave its port. -/
def resendDue (p seq : Nat) (s : State) : State :=
  match (sess s p).unacked.find? (fun k => k.seq == seq) with
  | none => s
  | some k =>
    if retryLimit s ≤ k.sends then leavePort p s else resendPkt p seq s

/-- ACK, SACK and CREDIT of a datagram of an open session (R357, R361, R362). -/
def applyAck (p : Nat) (h : AetHdr) (s : State) : State :=
  let behind (q : Nat) : Bool := decide (0 < (h.ack + 2 ^ 32 - q) % 2 ^ 32) && decide ((h.ack + 2 ^ 32 - q) % 2 ^ 32 < 2 ^ 31)
  let old := sess s p
  let newer := h.ack == old.peerAck || decide ((h.ack + 2 ^ 32 - old.peerAck) % 2 ^ 32 < 2 ^ 31)
  if !newer then s
  else
    let t := modSess p (fun g => { g with peerAck := h.ack, peerCredit := min h.credit 256
                                          unacked := g.unacked.filter (fun k => !behind k.seq) }) s
    let held (k : TxPkt) : Bool :=
      let i := (k.seq + 2 ^ 32 - h.ack) % 2 ^ 32
      decide (0 < i) && decide (i ≤ 32) && bitN h.sack (i - 1)
    let miss := (sess t p).unacked.filter (fun k => !held k && (sess t p).unacked.any (fun q =>
      held q && decide ((q.seq + 2 ^ 32 - k.seq) % 2 ^ 32 < 2 ^ 31)))
    let u := miss.foldl (fun v k => if sessOpen v p then resendDue p k.seq v else v) t
    sessPump p (sess u p).queue.length u

/-- ACKONLY (R361). -/
def ackNow (p : Nat) (s : State) : State :=
  s |> aetSend (dgram s p 7 0 .empty) |> modSess p (fun g => { g with rxSince := 0 })

/-! ### Marks received (R374) -/

/-- CLOSE for `w` from peer `p`. -/
def peerMark (p w : Nat) (s : State) : State :=
  match (sess s p).marksFrom with
  | none => s |> modSess p (fun g => { g with marksFrom := some w, marked := w + 1 }) |> closeExperts w
  | some _ => s |> modSess p (fun g => { g with marked := max g.marked (w + 1) }) |> closeExperts w

/-- A delivered packet fills its receive entry until what it holds has been handed on (R361, R364). -/
def holdEntry (p : Nat) (s : State) : State :=
  settleMarks { modSess p (fun g => { g with rxUsed := g.rxUsed + 1 }) s with
    admIn := s.admIn ++ [.entry p (sess s p).incarnation] }

/-- A packet is delivered in order (R372, R374, R375). -/
def deliverBody (p : Nat) (s : State) (b : AetBody) : State :=
  match b with
  | .volley g => holdEntry p (g.events.foldl (fun t w => homeEvent p g.expert g.wicket w t) s)
  | .close w => holdEntry p (peerMark p w s)
  | .refuse recs => recs.foldl (fun t r => aetRingWrite r.1 r.2 t) s

/-- Deliver held packets in SEQ order (R361). -/
def deliverHeld (p : Nat) : Nat → State → State
  | 0, s => s
  | n + 1, s =>
    let g := sess s p
    match tfind g.rxNext g.rxHeld with
    | some b =>
      deliverHeld p n (deliverBody p (modSess p (fun h => { h with rxNext := (h.rxNext + 1) % 2 ^ 32
                                                                   rxHeld := tdel g.rxNext h.rxHeld }) s) b)
    | none => s

/-- A sequenced packet of an open session (R361). -/
def takeSeq (p seq : Nat) (b : AetBody) (s : State) : State :=
  let g := sess s p
  let d := (seq + 2 ^ 32 - g.rxNext) % 2 ^ 32
  if 2 ^ 31 ≤ d then ackNow p s
  else if creditOf g ≤ d then s
  else
    let t := s |> modSess p (fun h => { h with rxHeld := tset seq b h.rxHeld, rxSince := h.rxSince + 1 }) |> deliverHeld p 257
    if sessOpen t p && decide (8 ≤ (sess t p).rxSince) then ackNow p t else t

/-! ### Datagrams (R354, R357) -/

/-- MAGIC and LEN of a datagram with a payload of `n` bytes are right (R357). -/
def hdrRight (h : AetHdr) (n : Nat) : Bool := h.magic == 0xAE && h.len == n

/-- A datagram with `n` bytes of payload reaches the AET: wrong ones, and all while the AET is disabled, are stale. -/
def aetArrive (h : AetHdr) (n : Nat) (body : State → State) (s : State) : State :=
  if !portUp s h.port then s
  else if !hdrRight h n || h.dst != ownChip s || !aetOn s then aetStale s
  else body s

/-- A datagram of an open session; one of another incarnation is stale. -/
def aetOpen (h : AetHdr) (n : Nat) (body : State → State) (s : State) : State :=
  aetArrive h n (fun t =>
    if !sessOpen t h.src then t
    else if h.incarnation != (sess t h.src).incarnation then aetStale t
    else body (applyAck h.src h t)) s

/-- A sequenced packet arrives. -/
def aetSequenced (h : AetHdr) (b : AetBody) (s : State) : State :=
  aetOpen h (bodyBytes h.src b).length (fun t => if sessOpen t h.src then takeSeq h.src h.seq b t else t) s

/-- An unsequenced answer that belongs to no session. -/
def answer (h : AetHdr) (ty : Nat) (load : AetLoad) (s : State) : State :=
  aetSend (bareDgram s h.port h.src ty h.incarnation load) s

/-- REJECT with a reason of R358. -/
def reject (h : AetHdr) (reason : Nat) (s : State) : State := answer h 3 (.reject reason) s

/-- The features of this device (R359): VOLLEY, CLOSE and REFUSE. -/
def ownFeatures : Nat := 7

/-- ACCEPT (R359): GEN is the lower of the two GEN_MAX, FEATURES what both sets hold. -/
def acceptWith (h : AetHdr) (genMax features : Nat) (s : State) : State :=
  answer h 2 (.accept (min genMax 1) (features &&& ownFeatures) (fused s Config.serial)) s

/-- The session takes the HELLO: ACCEPT is sent and it is OPEN. -/
def acceptHello (h : AetHdr) (genMax features : Nat) (s : State) : State :=
  s |> putF (Reg.aet_SESS_STATUS_PORT h.src) h.port |> acceptWith h genMax features |> sessUp h.src h.incarnation (min genMax 1)

/-- A HELLO with a new INCARNATION on an OPEN session: the old session is lost (R377). -/
def helloLoss (h : AetHdr) (s : State) : State :=
  if sessOpen s h.src && (sess s h.src).incarnation != h.incarnation then sessLost h.src s else s

/-- A HELLO from a valid peer that may be answered. Two that cross: the lower chip id keeps its own attempt (R359). -/
def helloTaken (h : AetHdr) (genMax features : Nat) (s : State) : State :=
  match sessState s h.src with
  | 2 => acceptWith h genMax features s
  | 3 => s
  | _ => if (sess s h.src).hello && decide (ownChip s < h.src) then s else acceptHello h genMax features s

/-- HELLO (R359, R377). A HELLO for another device is stale, and is answered REJECT 3 (R358). -/
def execHello (h : AetHdr) (genMin genMax features : Nat) (s : State) : Host.Outcome State Fault Refusal :=
  live s (
    if portUp s h.port && aetOn s && hdrRight h 16 && h.dst != ownChip s then s |> aetStale |> reject h 3
    else aetArrive h 16 (fun u =>
      let t := helloLoss h u
      if !peerValid t h.src then reject h 4 t
      else if min genMax 1 < max genMin 1 then reject h 1 t
      else if features &&& ownFeatures ≠ ownFeatures then reject h 2 t
      else helloTaken h genMax features t) s)

/-- ACCEPT (R360): the answer to this device's HELLO. -/
def execAccept (h : AetHdr) (gen : Nat) (s : State) : Host.Outcome State Fault Refusal :=
  live s (aetArrive h 16 (fun t =>
    let g := sess t h.src
    if sessOpen t h.src then (if h.incarnation = g.incarnation then t else aetStale t)
    else if sessState t h.src = 1 ∧ g.hello = true ∧ h.incarnation = (g.incarnation + 1) % 2 ^ 32 then sessUp h.src h.incarnation gen t
    else t) s)

/-- REJECT (R360). -/
def execReject (h : AetHdr) (reason : Nat) (s : State) : Host.Outcome State Fault Refusal :=
  live s (aetArrive h 8 (fun t =>
    let g := sess t h.src
    if sessOpen t h.src then (if h.incarnation = g.incarnation then t else aetStale t)
    else if sessState t h.src = 1 ∧ g.hello = true ∧ h.incarnation = (g.incarnation + 1) % 2 ^ 32 then
      t |> setSessState h.src 3 |> putF (Reg.aet_SESS_STATUS_REJECT_REASON h.src) reason |> aetEvent 3
        |> modSess h.src (fun g => { g with hello := false })
    else t) s)

/-- VOLLEY (R371, R372). -/
def execVolley (h : AetHdr) (seg : Segment) (s : State) : Host.Outcome State Fault Refusal :=
  live s (aetSequenced h (.volley seg) s)

/-- CLOSE (R373, R374). -/
def execClose (h : AetHdr) (w : Nat) (s : State) : Host.Outcome State Fault Refusal := live s (aetSequenced h (.close w) s)

/-- REFUSE (R375). -/
def execRefuse (h : AetHdr) (recs : List (Word64 × Word64)) (s : State) : Host.Outcome State Fault Refusal :=
  live s (aetSequenced h (.refuse recs) s)

/-- ACKONLY (R361). -/
def execAckonly (h : AetHdr) (s : State) : Host.Outcome State Fault Refusal := live s (aetOpen h 0 (fun t => t) s)

/-- KEEPALIVE (R362). -/
def execKeepalive (h : AetHdr) (s : State) : Host.Outcome State Fault Refusal := live s (aetOpen h 0 (fun t => t) s)

/-- BYE (R360): the session goes to IDLE; what the peer has not acknowledged is handled as for a lost session. -/
def execBye (h : AetHdr) (s : State) : Host.Outcome State Fault Refusal :=
  live s (aetOpen h 0 (fun t => t |> sessEnd h.src 0 |> reclose) s)

/-- HELLO_RETRY (R359, R360): an IDLE session of a valid peer is CONNECTING again. -/
def execHelloRetry (peer : Nat) (s : State) : Host.Outcome State Fault Refusal :=
  live s (if aetOn s && peerValid s peer && decide (sessState s peer ≤ 1) then
    s |> setSessState peer 1 |> putF (Reg.aet_SESS_STATUS_PORT peer) (sess s peer).pref
      |> modSess peer (fun g => { g with hello := true })
      |> aetSend (bareDgram s (sess s peer).pref peer 1 (((sess s peer).incarnation + 1) % 2 ^ 32)
          (.hello 1 1 ownFeatures (fused s Config.serial)))
  else s)

/-- AET_ACK_DELAY (R361). -/
def execAetAckDelay (peer : Nat) (s : State) : Host.Outcome State Fault Refusal :=
  live s (if sessOpen s peer && decide (0 < (sess s peer).rxSince) then ackNow peer s else s)

/-- AET_RTO (R362). -/
def execAetRto (peer seq : Nat) (s : State) : Host.Outcome State Fault Refusal :=
  live s (if sessOpen s peer then resendDue peer seq s else s)

/-- KEEPALIVE_SEND (R362). -/
def execKeepaliveSend (peer : Nat) (s : State) : Host.Outcome State Fault Refusal :=
  live s (if sessOpen s peer then
    s |> aetSend (dgram s peer 8 0 .empty) |> modSess peer (fun g => { g with rxSince := 0 }) else s)

/-- DEAD_TIMEOUT (R363). -/
def execDeadTimeout (peer : Nat) (s : State) : Host.Outcome State Fault Refusal :=
  live s (if sessOpen s peer then leavePort peer s else s)

/-! ### Software's commands (R360, R363, R375, R379) -/

/-- SESS_CTRL of a peer: the preferred port, RETRY, SWITCH. -/
def sessCtrl (c : Nat) (v : Word) (s : State) : State :=
  let t := modSess c (fun g => { g with pref := bnat (v.getLsbD 2) }) s
  let u := if v.getLsbD 0 = true ∧ sessState t c = 3 then
      t |> setSessState c 1 |> putF (Reg.aet_SESS_STATUS_PORT c) (bnat (v.getLsbD 2)) else t
  if v.getLsbD 1 = true ∧ sessState u c = 2 ∧ portUp u (1 - sessPort u c) = true then
    toPort c (1 - sessPort u c) u
  else u

/-- RETRY (R360). -/
def execRetry (p : Party) (peer : Nat) (v : Word) (s : State) : Host.Outcome State Fault Refusal :=
  live s (if peer < 32 then csrEffect p (Reg.aet_SESS_CTRL peer) (fun t => sessCtrl peer (v ||| 1) (noteRsv (Reg.aet_SESS_CTRL peer) v t)) s v else s)

/-- SWITCH (R363). -/
def execSwitch (p : Party) (peer : Nat) (v : Word) (s : State) : Host.Outcome State Fault Refusal :=
  live s (if peer < 32 then csrEffect p (Reg.aet_SESS_CTRL peer) (fun t => sessCtrl peer (v ||| 2) (noteRsv (Reg.aet_SESS_CTRL peer) v t)) s v else s)

/-- AET_REF_CONS_WRITE (R375). -/
def execAetRefConsWrite (p : Party) (v : Word) (s : State) : Host.Outcome State Fault Refusal :=
  live s (csrEffect p Reg.aet_AET_REF_CONS (fun t =>
    if consOk (getF t Reg.aet_AET_REF_PROD_PROD) (getF t Reg.aet_AET_REF_CONS_CONS) v.toNat then
      putF Reg.aet_AET_REF_CONS_CONS v.toNat t
    else aetEvent 5 t) s v)

/-! ### Marks sent (R373) -/

/-- The chip has done wicket `w`. A context whose first step lies beyond it, and a stream whose context is not running, has
nothing to wait for. Where no context of the hold set has a wicket `w` + 1, the chip wicket stands for it (DESIGN CHOICE, log entry
67). -/
def wicketDone (s : State) (w : Nat) : Bool :=
  ((ctxList s).any (fun c => inHold s c && decide (dStart s c ≤ w + 1)) || decide (w + 1 ≤ tbWicket s)) &&
  (ctxList s).all (fun c => !inHold s c || decide (w + 1 < dStart s c) || decide (w + 2 ≤ dStart s c + (ctxRun s c).released)) &&
  (validStreams s).all (fun i =>
    let c := getF s (Reg.volTab_VSTREAM_SRC_CTX i)
    !running s c || decide (w < dStart s c) || decide (w < dStart s c + (ctxRun s c).complete)) &&
  s.aet.windows.all (fun v => decide (w < dStart s (getF s (Reg.volTab_VSTREAM_SRC_CTX v.stream)) + v.step))

/-- A device to which this one owes marks: it homes an expert whose FEEDERS includes this device. -/
def owesMark (s : State) (p : Nat) : Bool :=
  (validExperts s).any (fun e => getF s (Reg.volTab_DIR_CHIP e) == p && bitN (getF s (Reg.volTab_DIR_FEEDERS e)) (ownChip s))

/-- CLOSE_SEND (R373): the next wicket in order. The mark for the device's own experts needs no session. -/
def execCloseSend (s : State) : Host.Outcome State Fault Refusal :=
  live s (
    let own := ownChip s
    let w := tget 0 own s.aet.closedW
    if wicketDone s w then
      let t := ((List.range 32).filter (fun p => aetOn s && p != own && sessOpen s p && owesMark s p && decide (tget 0 p s.aet.closedW ≤ w))).foldl
        (fun u p => u |> sessSend p (.close w) |> setAet (fun a => { a with closedW := tset p (w + 1) a.closedW })) s
      t |> setAet (fun a => { a with closedW := tset own (w + 1) a.closedW }) |> closeExperts w
    else s)

/-! ### PPS (R202, R366) -/

/-- Signed time from the nearest nominal tick to an edge at time `t` of TB_CLK; unstated while no tick grid runs (a free value). -/
def ppsPhase (s : State) (t : Nat) : Word :=
  if getF s Reg.tb_TB_STATE_STATE = 0 then freeWord s
  else
    let i := max 1 (getF s Reg.tb_TB_INTERVAL_NS)
    let r := (t - s.aet.tickTime) % i
    BitVec.ofInt 32 (if 2 * r ≤ i then (r : Int) else (r : Int) - i)

/-- PPS_EDGE (R366), which may start the timebase (R202). -/
def execPpsEdge (s : State) : Host.Outcome State Fault Refusal :=
  live s (
    let t := getF s Reg.aet_PTP_TIME_NS
    (if getF s Reg.tb_TB_STATE_STATE = 0 then spendFree s else s)
      |> putF Reg.aet_PPS_CAPTURE_NS t |> putF Reg.aet_PPS_PHASE_PHASE (ppsPhase s s.aet.tbTime).toNat |> edgeStart 2)

/-! ### Enable, stop and reset -/

/-- EN := 1 in the AET: sessions of valid peers are CONNECTING (R360). -/
def aetEnable (s : State) : State :=
  ((List.range 32).filter (peerValid s)).foldl (fun t p => setSessState p 1 t) s

/-- EN := 0: BYE on every OPEN session, and every session goes to IDLE (R43). -/
def aetStop (s : State) : State :=
  (List.range 32).foldl (fun t p =>
    if sessOpen t p then t |> aetSend (dgram t p 9 0 .empty) |> sessEnd p 0
    else if sessState t p = 0 then t else setSessState p 0 t) s |> reclose

/-- The egress buffer is cleared at a compute reset, and its windows are recorded with PEER_DOWN (R377). -/
def egressClear (s : State) : State :=
  s.aet.windows.foldl (fun t v =>
    let ctx := getF s (Reg.volTab_VSTREAM_SRC_CTX v.stream)
    v.data.foldl (fun u w => aetRingWrite (aetRefusal 7 0 (ownChip s) 0 (dStart s ctx + v.step)) w u) t)
    (setAet (fun a => { a with windows := [] }) s)

end Sys2Proof.Machine
end

