-- ==== Sys2Proof/Machine/Formats.lean ====
section
/-! DEFINITION. The number formats of the BDU, their values and the conversion into them (R229-R233). -/

namespace Sys2Proof.Machine

/-- Bits of a format code; 0 for S24, which the BDU does not use, and for reserved codes (R229, R230). -/
def fmtBits (f : Nat) : Nat :=
  match f with
  | 0 => 4
  | 1 => 8
  | 2 => 8
  | 3 => 16
  | 5 => 32
  | 6 => 8
  | 7 => 16
  | _ => 0

def fmtFloat (f : Nat) : Bool := f == 6 || f == 7

/-- The range of an integer format. -/
def fmtMin (f : Nat) : Int := if f = 2 then 0 else -((2 ^ (fmtBits f - 1) : Nat) : Int)
def fmtMax (f : Nat) : Int := if f = 2 then 255 else ((2 ^ (fmtBits f - 1) : Nat) : Int) - 1
def fmtClamp (f : Nat) (x : Int) : Int := clampInt (fmtMin f) (fmtMax f) x

/-- An exact value `m * 2^e`. -/
structure Exact where
  m : Int
  e : Int
  deriving DecidableEq, Repr

/-- The value of a float encoding with `p` mantissa bits and `x` exponent bits whose least subnormal is `2^emin`; `none` for
a NaN or an infinity (R231). -/
def floatValue (p x : Nat) (emin : Int) (top : Nat → Bool) (v : Nat) : Option Exact :=
  let m := v % 2 ^ p
  let e := v / 2 ^ p % 2 ^ x
  let s := v / 2 ^ (p + x) % 2
  if top v then none
  else
    let mag : Int := if e = 0 then m else m + 2 ^ p
    some ⟨if s = 1 then -mag else mag, if e = 0 then emin else emin + (e - 1)⟩

/-- E4M3: 0x7F and 0xFF are NaN. BF16: exponent field 255 is an infinity or NaN. -/
def e4m3Value (v : Nat) : Option Exact := floatValue 3 4 (-9) (fun v => v % 128 == 127) v
def bf16Value (v : Nat) : Option Exact := floatValue 7 8 (-133) (fun v => v / 128 % 256 == 255) v

/-- The value of an element, and whether it was a NaN or an infinity, which is taken as zero (R232). -/
def fmtValue (f v : Nat) : Exact × Bool :=
  if f = 6 then (match e4m3Value v with
    | some x => (x, false)
    | none => (⟨0, 0⟩, true))
  else if f = 7 then (match bf16Value v with
    | some x => (x, false)
    | none => (⟨0, 0⟩, true))
  else (⟨if f = 2 then v else sx (fmtBits f) v, 0⟩, false)

/-- `x` rounded to a multiple of `2^q`, in units of it (R7). -/
def roundAt (x : Exact) (q : Int) : Int := if q ≤ x.e then x.m * 2 ^ (x.e - q).toNat else rdiv x.m (q - x.e).toNat

/-- The conversion of R233: encoding, and whether the largest finite value replaced the result. -/
def floatEncode (p x : Nat) (emin : Int) (maxEnc : Nat) (r : Exact) : Nat × Bool :=
  let mag : Exact := ⟨r.m.natAbs, r.e⟩
  let len : Int := if r.m = 0 then 0 else (Nat.log2 r.m.natAbs : Int)
  let q := max emin (len + r.e - p)
  let n := (roundAt mag q).toNat
  let exp := (q - emin).toNat
  let enc := if n < 2 ^ p then n else if n = 2 ^ (p + 1) then (exp + 2) * 2 ^ p else (exp + 1) * 2 ^ p + (n - 2 ^ p)
  let s := if r.m < 0 then 2 ^ (p + x) else 0
  if n = 0 then (0, false) else if maxEnc < enc then (maxEnc + s, true) else (enc + s, false)

def e4m3Encode (r : Exact) : Nat × Bool := floatEncode 3 4 (-9) 0x7E r
def bf16Encode (r : Exact) : Nat × Bool := floatEncode 7 8 (-133) 0x7F7F r

end Sys2Proof.Machine
end

