-- ==== Sys2Proof/Machine/Bdu.lean ====
section
/-! DEFINITION. The Block Dense Units: triggers, layers, accumulation, rescale, encoders, completion and refusals
(R234-R258). -/

namespace Sys2Proof.Machine

def bduOf (s : State) (b : Nat) : Bdu := tget {} b s.bdus
def modBdu (b : Nat) (f : Bdu → Bdu) (s : State) : State := { s with bdus := tset b (f (bduOf s b)) s.bdus }
def bduEp (b : Nat) : Nat := 4 * centralRouter b + 2

/-- The BDU is enabled, in a region that is present, up and not held. -/
def bduOn (s : State) (b : Nat) : Bool :=
  blockPresent s b && !regionHeld s (regionOfBlock b) && !regionDown s (regionOfBlock b) && blkEnabled s (Reg.bdu_BLK_CTRL b)

/-- The BDU works: it is on, and has a clock (R476, R490). -/
def bduUp (s : State) (b : Nat) : Bool := bduOn s b && blockClocked s b

/-- BDU_STATUS follows the queue. -/
def bduStatus (b : Nat) (s : State) : State :=
  let k := bduOf s b
  let t := s |> putF (Reg.bdu_BDU_STATUS_QUEUED b) k.queue.length |> putF (Reg.bdu_BDU_STATUS_RUNNING b) (bnat k.run.isSome)
  match k.run with
  | some r => putF (Reg.bdu_BDU_STATUS_LAYER b) r.layer t
  | none => t

/-- A read of `n` bytes at slice-local offset `o` of the BDU's own slice (R235). -/
def bduRead (b o n : Nat) (s : State) : Option Nat × State :=
  let a := sliceDo (.bdu b) (viewOff s.variant b o) (.read n) 0 s
  (a.data.map ofBytes, a.st)

def bduWrite (b o n v : Nat) (s : State) : State × Bool :=
  let a := sliceDo (.bdu b) (viewOff s.variant b o) (.write (toBytes v n)) 0 s
  (a.st, a.data.isSome)

/-! ### Trigger words (R247-R249) -/

def layerAt (s : State) (b l : Nat) : Nat := getF s (Reg.bdu_BDU_CFG_LAYER_BASE b) * 64 + 64 * l

/-- After a write to the word at `addr`, the lowest layer that watches it is judged. -/
def examine (b addr : Nat) (s : State) : State :=
  match (bduOf s b).watch.find? (fun w => w.2.1 == addr) with
  | none => s
  | some (l, _, cnt) =>
    match bduRead b addr 4 s with
    | (some v, t) =>
      if cnt ≤ v ∧ (bduOf s b).queue.length < 64 then
        (sliceDo (.bdu b) (viewOff s.variant b addr) (.add [some (0 - BitVec.ofNat 32 cnt)]) 0 t).st
          |> modBdu b (fun k => { k with queue := k.queue ++ [l] }) |> bduStatus b
      else t
    | (none, t) => t

def watched (s : State) (b : Nat) : List Nat := ((bduOf s b).watch.map (fun w => w.2.1)).eraseDups

/-- The layers with VALID = 1 and a trigger count are watched from the enable on, and each word is examined once (R249). -/
def bduEnable (b : Nat) (s : State) : State :=
  let step (acc : List (Nat × Nat × Nat) × State) (l : Nat) : List (Nat × Nat × Nat) × State :=
    match bduRead b (layerAt s b l) 64 acc.2 with
    | (some d, t) =>
      if bitN d 2 && decide (bitsN d (32 * 13) 16 ≠ 0) then (acc.1 ++ [(l, bitsN d (32 * 12) 20, bitsN d (32 * 13) 16)], t)
      else (acc.1, t)
    | (none, t) => (acc.1, t)
  let r := (List.range 64).foldl step ([], s)
  let t := modBdu b (fun k => { k with watch := r.1, runs := [] }) r.2
  (watched t b).foldl (fun u a => examine b a u) t

/-- The write of a watched word wakes a BDU without a clock; its slice holds the result of the comparison meanwhile (R477). -/
def holdTrigger (b addr : Nat) (s : State) : State :=
  if (watched s b).contains addr then s |> modBdu b (fun k => { k with held := k.held.filter (· != addr) ++ [addr] }) |> wakeBlock b
  else s

/-- The clock of block `b` is back: the results that its slice held are acted on. -/
def trigAwake (b : Nat) (s : State) : State :=
  if bduUp s b then (bduOf s b).held.foldl (fun t a => examine b a t) (modBdu b (fun k => { k with held := [] }) s) else s

/-- TRIGGER_WORD_WRITE (R247, R477). -/
def execTriggerWordWrite (b addr : Nat) (s : State) : Host.Outcome State Fault Refusal :=
  live s (if bduUp s b then examine b addr s else if bduOn s b then holdTrigger b addr s else s)

/-- TRIGGER_RECHECK (R248). -/
def execTriggerRecheck (b : Nat) (s : State) : Host.Outcome State Fault Refusal :=
  live s (if bduUp s b then (watched s b).foldl (fun t a => examine b a t) s else s)

/-! ### Descriptors (R254, R258) -/

/-- A layer descriptor as a number of 64 bytes. -/
abbrev Desc := Nat

def dWord (d : Desc) (w lo n : Nat) : Nat := bitsN d (32 * w + lo) n
def lOp (d : Desc) : Nat := dWord d 0 0 2
def lClear (d : Desc) : Bool := bitN d 3
def lAfmt (d : Desc) : Nat := dWord d 0 4 4
def lWfmt (d : Desc) : Nat := dWord d 0 8 4
def lOfmt (d : Desc) : Nat := dWord d 0 12 4
def lEnc (d : Desc) : Nat := dWord d 0 24 2
def lA (d : Desc) : Nat := dWord d 2 0 20
def lW (d : Desc) : Nat := dWord d 3 0 20
def lO (d : Desc) : Nat := dWord d 4 0 20
def lRs (d : Desc) : Nat := dWord d 5 0 20
def lN (d : Desc) : Nat := dWord d 6 16 16 + 1
def lCin (d : Desc) : Nat := dWord d 7 0 16 + 1
def lAcc (d : Desc) : Int := sx 9 (dWord d 7 16 9)
def lInW (d : Desc) : Nat := dWord d 8 0 8 + 1
def lOutW (d : Desc) : Nat := dWord d 8 8 8 + 1
def lOutH (d : Desc) : Nat := dWord d 8 16 8 + 1
def lKw (d : Desc) : Nat := dWord d 8 24 5 + 1
def lKh (d : Desc) : Nat := dWord d 9 0 5 + 1
def lPad (d : Desc) : Nat := dWord d 9 5 4
def lStride2 (d : Desc) : Bool := dWord d 9 9 1 == 1
def lInH (d : Desc) : Nat := dWord d 9 10 8 + 1
def lZa (d : Desc) : Int := sx 16 (dWord d 10 0 16)
def lZw (d : Desc) : Int := sx 16 (dWord d 10 16 16)
def lIqMul (d : Desc) : Nat := dWord d 11 0 16
def lIqSh (d : Desc) : Nat := dWord d 11 16 6
def lIqFmt (d : Desc) : Nat := dWord d 11 22 4
def lThr (d : Desc) : Int := sx 16 (dWord d 14 0 16)
def lEncFirst (d : Desc) : Nat := dWord d 14 16 6
def lEncCnt (d : Desc) : Nat := dWord d 14 22 7
/-- Rows: M, or OUT_H x OUT_W for CONV (R240). -/
def lRows (d : Desc) : Nat := if lOp d = 1 then lOutH d * lOutW d else dWord d 6 0 16 + 1
/-- The format of an operand after the input quantiser (R246). -/
def lQfmt (d : Desc) : Nat := if lAfmt d = 5 then lIqFmt d else lAfmt d

/-- Elements of the input tensor, the weights and the output (R238). -/
def inElems (d : Desc) : Nat := if lOp d = 1 then lInH d * lInW d * lCin d else if lOp d = 0 then lRows d * lCin d else lRows d * lN d
def wElems (d : Desc) : Nat := if lOp d = 1 then lKh d * lKw d * lCin d * lN d else lCin d * lN d
def outElems (d : Desc) : Nat := lRows d * lN d

/-- A permitted pair of R239; COPY takes any activation format of the table. -/
def pairOk (d : Desc) : Bool :=
  let a := lQfmt d
  let w := lWfmt d
  let iq := lAfmt d != 5 || (a == 0 || a == 1 || a == 2 || a == 3)
  let act := a == 0 || a == 1 || a == 2 || a == 3 || a == 6 || a == 7
  let pair := ((a == 1 || a == 2) && (w == 1 || w == 0)) || (a == 0 && w == 0) || (a == 6 && w == 6) ||
    (a == 3 && (w == 3 || w == 1)) || (a == 7 && w == 7)
  let out := lOfmt d == 0 || lOfmt d == 1 || lOfmt d == 2 || lOfmt d == 3 || lOfmt d == 5 || lOfmt d == 6 || lOfmt d == 7
  iq && out && (if lOp d = 2 then act else pair)

/-- A zero point may be nonzero only for S4, S8 and U8, within the range (R241). -/
def zeroOk (f : Nat) (z : Int) : Bool :=
  z == 0 || ((f == 0 || f == 1 || f == 2) && decide (fmtMin f ≤ z) && decide (z ≤ fmtMax f))

/-- An output zero point (R243). -/
def zoOk (f : Nat) (z : Int) : Bool :=
  if f = 5 ∨ f = 6 ∨ f = 7 then z == 0 else decide (fmtMin f ≤ z) && decide (z ≤ fmtMax f)

def extentOk (base elems bits : Nat) : Bool := decide (base + (elems * bits + 7) / 8 ≤ 0x100000)

/-- Reserved fields of R258 hold zero. -/
def reservedOk (d : Desc) : Bool :=
  dWord d 0 26 6 == 0 && (lOp d != 2 || lWfmt d == 0) && dWord d 1 20 12 == 0 && dWord d 2 20 12 == 0 && dWord d 3 20 12 == 0 &&
  dWord d 4 20 12 == 0 && dWord d 5 20 12 == 0 && (lOp d != 1 || dWord d 6 0 16 == 0) && (lOp d != 2 || dWord d 7 0 16 == 0) &&
  dWord d 7 25 7 == 0 && dWord d 8 29 3 == 0 && dWord d 9 18 14 == 0 && dWord d 11 26 6 == 0 && dWord d 12 20 12 == 0 &&
  dWord d 14 29 3 == 0 && dWord d 15 0 32 == 0

/-- The case of R254 that a descriptor meets, counted from 1; `zos`: the output zero points of its rescale entries. -/
def badCase (s : State) (b : Nat) (d : Desc) (zos : List Int) : Option Nat :=
  let routes := (List.range (lEncCnt d)).map (lEncFirst d + ·)
  if lOp d = 3 then some 1
  else if !pairOk d then some 2
  else if !zeroOk (lQfmt d) (lZa d) || (lOp d != 2 && !zeroOk (lWfmt d) (lZw d)) || zos.any (fun z => !zoOk (lOfmt d) z) then some 3
  else if lAcc d != 0 && !fmtFloat (lQfmt d) then some 4
  else if lClear d && lAfmt d != 5 then some 5
  else if lEnc d = 3 ∨ (lEnc d ≠ 0 ∧ 3 < lOfmt d) then some 6
  else if (lA d) % 64 != 0 || lRs d % 64 != 0 || lW d % 64 != 0 || lO d % 64 != 0 ||
      !extentOk (lA d) (inElems d) (fmtBits (lAfmt d)) || !extentOk (lRs d) (lN d) 128 ||
      (lOp d != 2 && !extentOk (lW d) (wElems d) (fmtBits (lWfmt d))) ||
      (bitN d 23 && !extentOk (lO d) (outElems d) (fmtBits (lOfmt d))) then some 7
  else if 64 < lEncFirst d + lEncCnt d then some 8
  else if routes.any (fun i => isSet s (Reg.bdu_ENC_ROUTE_VALID b i) && getF s (Reg.bdu_ENC_ROUTE_DLY b i) == 0) then some 9
  else if !reservedOk d then some 10
  else none

/-! ### Elements and terms (R230, R232, R242, R246) -/

/-- What a run has done so far: its state, whether a read has failed, and its counts. -/
structure Run where
  st : State
  failed : Bool := false
  nan : Nat := 0
  accSat : Nat := 0
  outSat : Nat := 0
  macs : Nat := 0
  events : Nat := 0

/-- Element `j` of the tensor at `base` in format `f`: its bits. -/
def readElem (b base f j : Nat) (r : Run) : Nat × Run :=
  if r.failed then (0, r)
  else
    let o := base + j * fmtBits f / 8
    match bduRead b o ((fmtBits f + 7) / 8) r.st with
    | (some v, t) => (if f = 0 then v / 2 ^ (4 * (j % 2)) % 16 else v, { r with st := t })
    | (none, t) => (0, { r with st := t, failed := true })

/-- Write `n` bytes; a write that ends in a bus error abandons the run (R412, R255). -/
def writeAt (b o n v : Nat) (r : Run) : Run :=
  let w := bduWrite b o n v r.st
  { r with st := w.1, failed := !w.2 }

/-- The last row of a CONV that reads input row or column `i`: `stride` apart, `out` of them. -/
def lastConv (stride out i : Nat) : Nat := min (out - 1) (i / stride)

/-- The read of input element `ja` for output element `e` is its last of the run (R246). Outputs are formed in ascending `e`:
after a run that is abandoned, the order decides which elements are zero already (DESIGN CHOICE, log entry 53). -/
def lastRead (d : Desc) (e ja : Nat) : Bool :=
  let stride := if lStride2 d then 2 else 1
  if lOp d = 0 then e % lN d == lN d - 1
  else if lOp d = 1 then
    let iy := ja / lCin d / lInW d + lPad d
    let ix := ja / lCin d % lInW d + lPad d
    e == (lastConv stride (lOutH d) iy * lOutW d + lastConv stride (lOutW d) ix) * lN d + (lN d - 1)
  else true

/-- Input element `j` is read for output element `e`; with CLEAR_IN its last read writes zero, as one operation (R246). -/
def readInput (b : Nat) (d : Desc) (e j : Nat) (r : Run) : Nat × Run :=
  let v := readElem b (lA d) (lAfmt d) j r
  if lClear d && !v.2.failed && lastRead d e j then (v.1, writeAt b (lA d + 4 * j) 4 0 v.2) else v

/-- An activation after the input quantiser, and a weight, as exact values. -/
def activation (b : Nat) (d : Desc) (out j : Nat) (r : Run) : Exact × Run :=
  let e := readInput b d out j r
  if lAfmt d = 5 then (⟨fmtClamp (lIqFmt d) (rdiv (sx 32 e.1 * lIqMul d) (lIqSh d)), 0⟩, e.2)
  else
    let v := fmtValue (lAfmt d) e.1
    (v.1, { e.2 with nan := e.2.nan + bnat v.2 })

def weightAt (b : Nat) (d : Desc) (j : Nat) (r : Run) : Exact × Run :=
  let e := readElem b (lW d) (lWfmt d) j r
  let v := fmtValue (lWfmt d) e.1
  (v.1, { e.2 with nan := e.2.nan + bnat v.2 })

/-- A sum in progress: the exact sum, and whether a term was clamped. -/
structure Sum where
  run : Run
  sum : Int
  clamped : Bool

/-- Add an exact value in accumulator units, rounded and clamped to S32 for a float (R242). -/
def addTerm (flt : Bool) (x : Exact) (k : Sum) : Sum :=
  if flt then
    let v := roundAt x 0
    { k with sum := k.sum + satS 32 v, clamped := k.clamped || satS 32 v != v }
  else { k with sum := k.sum + x.m }

/-- term(a, w) for output element `e`. A multiplication whose operands have not been read is not performed. -/
def macTerm (b : Nat) (d : Desc) (e ja jw : Nat) (k : Sum) : Sum :=
  if k.run.failed then k
  else
    let a := activation b d e ja k.run
    let w := weightAt b d jw a.2
    let k' := { k with run := { w.2 with macs := w.2.macs + 1 } }
    if w.2.failed then { k with run := w.2 }
    else if fmtFloat (lQfmt d) then addTerm true ⟨a.1.m * w.1.m, a.1.e + w.1.e - lAcc d⟩ k'
    else addTerm false ⟨(a.1.m - lZa d) * (w.1.m - lZw d), 0⟩ k'

/-- term1(a) of a COPY. -/
def copyTerm (b : Nat) (d : Desc) (ja : Nat) (k : Sum) : Sum :=
  let a := activation b d ja ja k.run
  let k' := { k with run := a.2 }
  if a.2.failed then k'
  else if fmtFloat (lQfmt d) then addTerm true ⟨a.1.m, a.1.e - lAcc d⟩ k'
  else addTerm false ⟨a.1.m - lZa d, 0⟩ k'

/-- The input and weight elements of an output element of a CONV (R237). -/
def convTerms (d : Desc) (oy ox co : Nat) : List (Nat × Nat) :=
  let ty := if lStride2 d then 2 * oy else oy
  let tx := if lStride2 d then 2 * ox else ox
  (List.range (lKh d)).flatMap (fun ky => (List.range (lKw d)).flatMap (fun kx =>
    let iy := ty + ky
    let ix := tx + kx
    if lPad d ≤ iy ∧ iy - lPad d < lInH d ∧ lPad d ≤ ix ∧ ix - lPad d < lInW d then
      (List.range (lCin d)).map (fun ci =>
        (((iy - lPad d) * lInW d + (ix - lPad d)) * lCin d + ci, ((ky * lKw d + kx) * lCin d + ci) * lN d + co))
    else []))

/-- The sum of output element `e` in column or channel `n`, from its bias on (R237). -/
def sumOf (b : Nat) (d : Desc) (e : Nat) (bias : Int) (r : Run) : Sum :=
  let n := e % lN d
  let row := e / lN d
  let k : Sum := { run := r, sum := bias, clamped := false }
  if lOp d = 0 then (List.range (lCin d)).foldl (fun k i => macTerm b d e (row * lCin d + i) (i * lN d + n) k) k
  else if lOp d = 1 then
    (convTerms d (row / lOutW d) (row % lOutW d) n).foldl (fun k p => macTerm b d e p.1 p.2 k) k
  else copyTerm b d e k

/-! ### Rescale and output (R243, R244) -/

structure Rescale where
  bias : Int
  mul : Nat
  sh : Nat
  act : Nat
  zo : Int

def rescaleOf (v : Nat) : Rescale := ⟨sx 32 v, bitsN v 32 16, bitsN v 48 6, bitsN v 54 2, sx 16 (bitsN v 64 16)⟩

/-- An output element from acc: its value for the encoder, its bits, and whether it was clamped (R244). -/
def outputOf (d : Desc) (q : Rescale) (acc : Int) : Int × Nat × Bool :=
  let f := lOfmt d
  if fmtFloat f then
    let m := acc * q.mul
    let m' := if q.act = 1 then max m 0 else m
    let r : Exact := ⟨m', lAcc d - q.sh⟩
    let c := if f = 6 then e4m3Encode r else bf16Encode r
    (0, c.1, c.2)
  else
    let y0 := rdiv (acc * q.mul) q.sh + (if f = 5 then 0 else q.zo)
    let y1 := if q.act = 1 ∧ f ≠ 5 then max y0 q.zo else y0
    let y := fmtClamp f y1
    (y, ux (fmtBits f) y, y != y1)

/-- Write output element `e`; an S4 shares its byte. -/
def writeElem (b : Nat) (d : Desc) (e v : Nat) (r : Run) : Run :=
  let f := lOfmt d
  let o := lO d + e * fmtBits f / 8
  if f = 0 then
    match bduRead b o 1 r.st with
    | (some old, t) =>
      let new := if e % 2 = 0 then old / 16 * 16 + v % 16 else v % 16 * 16 + old % 16
      writeAt b o 1 new { r with st := t }
    | (none, t) => { r with st := t, failed := true }
  else writeAt b o (fmtBits f / 8) v r

/-! ### The threshold encoder (R250, R251) -/

/-- PAY and KIND of the event that an element gives, if any. -/
def encoded (d : Desc) (y : Int) : Option (Nat × Nat) :=
  if lEnc d = 1 then (if lThr d ≤ y then some (1, 0) else none)
  else if lEnc d = 2 then
    let p := (clampInt 0 255 y).toNat
    if p = 0 then none else some (p, 1)
  else none

/-- The route entry of element `e`. -/
def encRoute (s : State) (b : Nat) (d : Desc) (e : Nat) : Option Nat :=
  ((List.range (lEncCnt d)).map (lEncFirst d + ·)).find? (fun i =>
    isSet s (Reg.bdu_ENC_ROUTE_VALID b i) && decide (getF s (Reg.bdu_ENC_ROUTE_FIRST b i) ≤ e) &&
    decide (e ≤ getF s (Reg.bdu_ENC_ROUTE_LAST b i)))

def encWord (s : State) (b : Nat) (d : Desc) (i e pay kind : Nat) : Word64 :=
  mkEvent (getF s (Reg.bdu_ENC_ROUTE_DX b i)) (getF s (Reg.bdu_ENC_ROUTE_DY b i)) (getF s (Reg.bdu_ENC_ROUTE_EPOCH b i))
    (getF s (Reg.bdu_ENC_ROUTE_AXON_BASE b i) + (e - getF s (Reg.bdu_ENC_ROUTE_FIRST b i))) (dWord d 1 0 16) pay
    (getF s (Reg.bdu_ENC_ROUTE_DLY b i)) kind (getF s (Reg.bdu_ENC_ROUTE_MC b i))

/-- The step whose contributions triggered a run (R251): the lowest of the descriptor's context that is not complete, since the
step cannot complete before the run has ended (R252). -/
def runStep (s : State) (d : Desc) : Nat := (ctxRun s (dWord d 1 0 16)).complete

/-- The encoder sees an output element; `run` is the RUN number, which a refusal carries (R253). -/
def encodeElem (b : Nat) (d : Desc) (run e : Nat) (y : Int) (r : Run) : Run :=
  match encoded d y, encRoute r.st b d e with
  | some (pay, kind), some i =>
    let w := encWord r.st b d i e pay kind
    { r with events := r.events + 1
             st := post { ty := .event, src := bduEp b, dst := (if evMc w then evFlock w else eventDst w), mc := evMc w
                          epoch := evEpoch w, data := w.toNat, step := runStep r.st d, engine := 6, raw := run } r.st }
  | _, _ => r

/-! ### A run (R237, R249, R254, R255) -/

/-- Output element `e`: sum, rescale, write, encode. Nothing follows a failed read. -/
def runElem (b : Nat) (d : Desc) (run : Nat) (rs : List Rescale) (r : Run) (e : Nat) : Run :=
  if r.failed then r
  else
    let q := rs.getD (e % lN d) ⟨0, 0, 0, 0, 0⟩
    let k := sumOf b d e q.bias r
    if k.run.failed then k.run
    else
      let acc := satS 32 k.sum
      let y := outputOf d q acc
      let r1 := { k.run with accSat := k.run.accSat + bnat (k.clamped || acc != k.sum), outSat := k.run.outSat + bnat y.2.2 }
      let r2 := if bitN d 23 then writeElem b d e y.2.1 r1 else r1
      if r2.failed then r2 else encodeElem b d run e y.1 r2

/-- The rescale entries of a layer; `none` where a read fails. -/
def readRescale (b : Nat) (d : Desc) (s : State) : Option (List Rescale) × State :=
  (List.range (if extentOk (lRs d) (lN d) 128 then lN d else 0)).foldl (fun acc n =>
    match acc.1, bduRead b (lRs d + 16 * n) 16 acc.2 with
    | some l, (some v, t) => (some (l ++ [rescaleOf v]), t)
    | some _, (none, t) => (none, t)
    | none, _ => acc) (some [], s)

/-- BUSY_CYCLES counts the cycles of a run, which lie between bounds that the delays of R235 leave open. -/
def busyCycles (b : Nat) (s : State) : State := s |> addWrap (Reg.bdu_BUSY_CYCLES_COUNT b) (freeWord s).toNat |> spendFree

/-- The counts of a run enter the registers (R242, R244, R257). -/
def bduCounts (b : Nat) (r : Run) : State :=
  r.st |> addSat (Reg.bdu_NAN_IN_COUNT_COUNT b) r.nan |> addSat (Reg.bdu_ACC_SAT_COUNT_COUNT b) r.accSat
    |> addSat (Reg.bdu_OUT_SAT_COUNT_COUNT b) r.outSat |> addWrap (Reg.bdu_MAC_COUNT_COUNT b) r.macs
    |> (fun t => if r.nan = 0 then t else setF (Reg.bdu_BDU_EVENTS_NAN_IN b) t)
    |> (fun t => if r.accSat + r.outSat = 0 then t else setF (Reg.bdu_BDU_EVENTS_SAT b) t)
    |> busyCycles b

/-- What a run that begins takes from descriptor `d`: its end is given by NEXT_EN, NEXT, DONE_Q and DONE_EPOCH (R249). -/
def startOf (layer run : Nat) (d : Desc) : BduRun :=
  ⟨layer, 0, 0, run, if bitN d 22 then some (dWord d 0 16 6) else none, dWord d 13 16 16, dWord d 1 16 4⟩

/-- A run whose descriptor cannot be read: no rule says what its end uses, so it is a free value. -/
def startLost (layer run : Nat) (s : State) : BduRun :=
  let v := (freeWord s).toNat
  ⟨layer, 0, 0, run, if bitN v 0 then some (bitsN v 1 6) else none, bitsN v 7 16, bitsN v 23 4⟩

/-- The run in hand ends its work with a STATUS; RUN_END follows. -/
def runStatus (b status events : Nat) (r : BduRun) (s : State) : State :=
  s |> modBdu b (fun k => { k with run := some { r with status := status, events := events } }) |> bduStatus b

/-- A slice read of the run has failed (R255). -/
def bduSliceError (b events : Nat) (r : BduRun) (s : State) : State :=
  s |> setF (Reg.bdu_BDU_EVENTS_ECC b) |> raiseUp 1 1 5 b r.layer |> runStatus b 2 events r

/-- A bad descriptor (R254). -/
def badDescriptor (b cse : Nat) (r : BduRun) (s : State) : State :=
  (if isSet s (Reg.bdu_BDU_FAULT_INFO_VALID b) then s
   else s |> setF (Reg.bdu_BDU_FAULT_INFO_VALID b) |> putF (Reg.bdu_BDU_FAULT_INFO_CASE b) cse
     |> putF (Reg.bdu_BDU_FAULT_INFO_LAYER b) r.layer)
    |> setF (Reg.bdu_BDU_EVENTS_BAD_DESC b) |> runStatus b 1 0 r

/-- The front layer leaves the queue, and a NEXT layer that waited for an entry takes the one that frees. -/
def takeLayer (b l run : Nat) (s : State) : State :=
  modBdu b (fun k => { k with queue := k.queue.tail ++ k.next.toList, next := none, runs := tset l (run % 2 ^ 32) k.runs }) s

/-- The descriptor is read and checked, and the layer computed. -/
def runLayer (b l : Nat) (s : State) : State :=
  let run := tget 0 l (bduOf s b).runs + 1
  let s0 := takeLayer b l run s
  match bduRead b (layerAt s b l) 64 s0 with
  | (none, t) => spendFree t |> busyCycles b |> bduSliceError b 0 (startLost l run t)
  | (some d, t) =>
    match readRescale b d t with
    | (none, u) => u |> busyCycles b |> bduSliceError b 0 (startOf l run d)
    | (some rs, u) =>
      match badCase u b d (rs.map (·.zo)) with
      | some c => u |> busyCycles b |> badDescriptor b c (startOf l run d)
      | none =>
        let r := (List.range (outElems d)).foldl (runElem b d run rs) { st := u }
        let v := bduCounts b r
        if r.failed then bduSliceError b r.events (startOf l run d) v else runStatus b 0 r.events (startOf l run d) v

/-- LAYER_RUN (R237). -/
def execLayerRun (b : Nat) (s : State) : Host.Outcome State Fault Refusal :=
  live s (match (bduOf s b).queue, (bduOf s b).run with
    | l :: _, none => if bduUp s b then runLayer b l s else s
    | _, _ => s)

/-- Every event that the BDU has emitted has been delivered, or its refusal recorded (R194, R250). -/
def bduDelivered (s : State) (b : Nat) : Bool :=
  let mine (p : Packet) : Bool := p.src == bduEp b && p.ty == .event
  s.fab.waiting.all (fun p => !mine p) && s.fab.retx.all (fun e => !mine e.pkt) && s.bduRefused.all (fun r => r.src != bduEp b)

/-- The completion pair of R252. -/
def completion (r : BduRun) : Nat := r.layer % 64 + r.status * 2 ^ 6 + r.events % 2 ^ 16 * 2 ^ 16 + r.run % 2 ^ 32 * 2 ^ 32

/-- NEXT is appended to the run queue; one that finds 64 entries waits for the first that frees (R248; log entry 54). -/
def queueNext (l : Nat) (k : Bdu) : Bdu :=
  if k.queue.length < 64 then { k with queue := k.queue ++ [l] } else { k with next := some l }

/-- RUN_END (R247, R250, R252): the completion pair, and the NEXT layer. -/
def execRunEnd (b : Nat) (s : State) : Host.Outcome State Fault Refusal :=
  live s (match (bduOf s b).run with
    | none => s
    | some r =>
      if bduUp s b && bduDelivered s b then
        s |> modBdu b (fun k => (r.next.elim id queueNext) { k with run := none }) |> bduStatus b
          |> post { ty := .qsend, src := bduEp b, dst := 4 * (r.doneQ / 64), epoch := r.doneEpoch, ext := r.doneQ
                    data := completion r, engine := 6, raw := r.run }
      else s)

/-! ### Refusals (R253) -/

/-- BDU_REFUSAL (R161, R253, R551). -/
def execBduRefusal (b : Nat) (s : State) : Host.Outcome State Fault Refusal :=
  live s (match s.bduRefused.find? (fun r => r.src == bduEp b) with
    | none => s
    | some k =>
      let rest := s.bduRefused.erase k
      let t := { s with bduRefused := rest } |> incSat (Reg.bdu_REFUSED_COUNT_COUNT b) |> setF (Reg.bdu_BDU_EVENTS_REFUSED b)
      let run := match refusedPkt s k with
        | some p => p.raw
        | none => 0
      let hdr := k.r.hdr.toNat % 2 ^ 40 + run % 2 ^ 24 * 2 ^ 40
      let prod := getF s (Reg.bdu_REF_RING_PROD_PROD b)
      let size := 256 * 2 ^ min (getF s (Reg.bdu_BDU_REF_LOG2 b)) 6
      let o := getF s (Reg.bdu_BDU_REF_BASE b) * 4096 + 16 * (prod % size)
      (if sub32 prod (getF s (Reg.bdu_REF_RING_CONS_CONS b)) < size then
        let w := bduWrite b o 16 (hdr + k.r.word.toNat * 2 ^ 64) t
        if w.2 then addWrap (Reg.bdu_REF_RING_PROD_PROD b) 1 w.1 else incSat (Reg.bdu_REF_LOST_COUNT_COUNT b) w.1
       else incSat (Reg.bdu_REF_LOST_COUNT_COUNT b) t) |> backDone k rest)

/-- REF_RING_CONS_WRITE (R253). -/
def execRefRingConsWrite (p : Party) (b : Nat) (v : Word) (s : State) : Host.Outcome State Fault Refusal :=
  live s (if b < 64 then csrEffect p (Reg.bdu_REF_RING_CONS b) (fun t =>
    if consOk (getF t (Reg.bdu_REF_RING_PROD_PROD b)) (getF t (Reg.bdu_REF_RING_CONS_CONS b)) v.toNat then
      putF (Reg.bdu_REF_RING_CONS_CONS b) v.toNat t
    else setF (Reg.bdu_BDU_EVENTS_CONS_ERR b) t) s v else s)

end Sys2Proof.Machine
end

