-- ==== Sys2Proof/Machine/Queues.lean ====
section
/-! DEFINITION. Queues seen from outside a core: the external port, QSEND arrivals, rings, credits, routes, refusal
records, mailboxes and doorbells (R151-R169). -/

namespace Sys2Proof.Machine

/-! ### The external port (R151) -/

/-- QDATA_READ. -/
def execQdataRead (p : Party) (c q : Nat) (s : State) : Host.Outcome State Fault Refusal :=
  live s (if q < 64 then
    csrDo p (Reg.sq_QDATA c q) read32 (fun t => readReply (popExternal p c q t)) s
  else s)

/-! ### Arrivals, rings, credits and routes (R152, R155, R158-R160) -/

/-- The sender to which the credit of an arrived pair goes back: a core that sent it on a channel. The pairs of a BDU and of AET
spend no credit (R158). -/
def pairOrigin (p : Packet) : Option (Nat × Nat) :=
  if epCode p.src = 0 then some (epRouter p.src, p.ext / 2 ^ 16 % 32) else none

/-- The reason for which core `c` refuses a QSEND pair (R160, R188). -/
def pairReason (s : State) (c : Nat) (a : Arrival) : Option Nat :=
  if coreSilent s c then some 2
  else if epochStale s c a then some 3
  else queueRefuses s c (a.pkt.ext % 64)

/-- The oldest pair at the core's router stop is refused or written; it waits while the queue cannot take it, or an engine's
write to the queue goes first (R150). -/
def deliverPair (c : Nat) (s : State) : State :=
  match takeArrivalBy (fun a => a.pkt.ty == .qsend) (core s c).arrivals with
  | none => s
  | some (a, rest) =>
    let s1 := modCore c (fun k => { k with arrivals := rest }) s
    match pairReason s c a with
    | some reason => refuseItem c a reason s1
    | none =>
      if !coreClocked s c || writeAhead s c 8 (a.pkt.ext % 64) then s
      else match qWrite c (a.pkt.ext % 64) (BitVec.ofNat 64 a.pkt.data) (pairOrigin a.pkt) s1 with
        | some t => judged (4 * c) a t
        | none => s

/-- QSEND_ARRIVAL (R149, R150, R152, R160): a pair that finds the queue full waits. -/
def execQsendArrival (c : Nat) (s : State) : Host.Outcome State Fault Refusal := live s (deliverPair c s)

/-- The oldest pair at the core's router stop is for queue `q`. -/
def pairFor (s : State) (c q : Nat) : Bool :=
  match takeArrivalBy (fun a => a.pkt.ty == .qsend) (core s c).arrivals with
  | some (a, _) => a.pkt.ext % 64 == q
  | none => false

/-- The writes that R150 puts before one by the external port: those that engines wait to make, then an arrival. -/
def earlierWrites (c q : Nat) (s : State) : State :=
  let t := settleWrites c q s
  if pairFor t c q then deliverPair c t else t

/-- The external port writes a pair to queue `q`: DENIED, OVERRUN, or the write (R149-R151). An uncorrectable word of the store makes
it a bus error (R98). -/
def externalPush (c q : Nat) (v : Word64) (s : State) : State :=
  match outsideMeet c (qWords s c q false) s with
  | none => { s with reply := .busError }
  | some m =>
    if !bitN (qWriters m c q) 6 || qKind m c q == 3 then setF (Reg.sq_QLEVEL_DENIED c q) m
    else
      let t := earlierWrites c q m
      match qWrite c q v none t with
      | some u => u
      | none => setF (Reg.sq_QLEVEL_OVERRUN c q) t

/-- QDATA_WRITE: `p` completes a write by its high word. -/
def execQdataWrite (p : Party) (c q : Nat) (hi : Word) (s : State) : Host.Outcome State Fault Refusal :=
  live s (if q < 64 then csrPair p (Reg.sq_QDATA c q) hi (fun lo t => externalPush c q (hi ++ lo) t) s else s)

/-- RING_RECORD_WRITE (R155): the staged words that may go move into the ring. -/
def execRingRecordWrite (c q : Nat) (s : State) : Host.Outcome State Fault Refusal :=
  live s (if q < 64 ∧ engRuns s c = true ∧ qKind s c q = 2 then ringMoveAll c q 16 s else s)

/-- CREDIT_RETURN (R158; CREDITS stays at its largest value, 31, where a further credit returns: DESIGN CHOICE, log entry 17): an arrived CREDIT packet returns one credit to `route`. -/
def execCreditReturn (c route : Nat) (s : State) : Host.Outcome State Fault Refusal :=
  live s (match takeArrivalBy (fun a => a.pkt.ty == .credit && a.pkt.ext % 32 == route) (core s c).arrivals with
    | none => s
    | some (_, rest) =>
      s |> modCore c (fun k => { k with arrivals := rest })
        |> (fun t => if coreSilent t c then t else addSat (Reg.sq_CHAN_ROUTE_CREDITS c route) 1 t))

/-- CHAN_ROUTE_VALID (R158): `p` writes both words of CHAN_ROUTE, and VALID goes from 0 to 1. -/
def execChanRouteValid (p : Party) (c route : Nat) (lo hi : Word) (s : State) : Host.Outcome State Fault Refusal :=
  live s (if route < 32 ∧ isSet s (Reg.sq_CHAN_ROUTE_VALID c route) = false ∧ lo.getLsbD 31 = true then
    csrDo p (Reg.sq_CHAN_ROUTE c route) (.write (toBytes ((hi ++ lo).toNat) 8)) (fun t => match csrAt (Reg.sq_CHAN_ROUTE c route) with
      | .word b blk _ w => chanRouteApply b blk w c route lo hi (dropHeld p blk t)
      | _ => t) s
  else s)

/-! ### Refusal records (R161, R162, R194) -/

/-- The retransmit entry of the item that a refusal names. -/
def refusedEntry (src : Nat) (r : RefuseRec) (e : Retx) : Bool :=
  e.pkt.src == src && e.pkt.dst == r.dst && e.pkt.seq == r.seq && e.pkt.mc == r.mc
    && (e.pkt.ty == .event || e.pkt.ty == .qsend)

/-- An entry whose item is acknowledged and has no refusal to record is free (R190, R194). -/
def entryFree (s : State) (e : Retx) : Bool :=
  !e.refused && decide ((if e.pkt.mc then flockMembers s (epRouter e.pkt.src) e.pkt.dst else 1) ≤ e.acks)

/-- The refusal `r` of an item of `src` is recorded: its entry is free unless another member's refusal waits, or the item is
not yet acknowledged. `others`: the refusals that still wait at the source. -/
def refusalDone (src : Nat) (r : RefuseRec) (others : List RefuseRec) (s : State) : State :=
  let more := others.any (fun o => o.dst == r.dst && o.seq == r.seq && o.mc == r.mc)
  { s with fab := { s.fab with retx := (s.fab.retx.map (fun e =>
      if refusedEntry src r e then { e with refused := more } else e)).filter (fun e =>
        !(refusedEntry src r e && entryFree s e)) } }

/-- REFUSAL_RECORD (R161, R162): two entries of queue 63 in one cycle, and the credit of a refused pair (R158). -/
def execRefusalRecord (c : Nat) (s : State) : Host.Outcome State Fault Refusal :=
  live s (match (core s c).refusals with
    | [] => s
    | r :: rest =>
      if engRuns s c = true ∧ qCount s c 63 ≤ 14 then
        let t := s |> modCore c (fun k => { k with refusals := rest })
          |> qAppend c 63 r.hdr.toNat none |> qAppend c 63 r.word.toNat none
          |> refusalDone (4 * c) r rest
        let u := if r.hdr.toNat % 4 = 1 then addSat (Reg.sq_CHAN_ROUTE_CREDITS c (bitsN r.hdr.toNat 32 5)) 1 t else t
        watchQueue s c 63 u |> emitResume c |> noteStepEnds c
      else s)

/-! ### Mailboxes (R165-R168) -/

/-- The endpoint code of a requester (R165); the SQ writes only through the mailbox unit. -/
def mbxParty : Party → Option Nat
  | .app n _ => some n
  | .host => some 8
  | .sec => some 9
  | _ => none

def cfgSender (w : Word) : Nat := w.toNat % 16
def cfgReceiver (w : Word) : Nat := w.toNat / 16 % 16
def cfgDoorbell (w : Word) : Nat := w.toNat / 2 ^ 8 % 32
def cfgCore (w : Word) : Nat := w.toNat / 2 ^ 16 % 1024

/-- The configuration under which the word in mailbox `n` travels: that of its data write (R167). An acknowledgement that comes while
the mailbox is empty is judged by the configuration that the next word will have (DESIGN CHOICE, log entry 64: R167 speaks of words). -/
def mbxCfg (s : State) (n : Nat) : Word :=
  if isSet s (Reg.mbx_MBX_STATUS_FULL n) then tget (rdWord s (Reg.mbx_MBX_CFG n)) n s.mbx else rdWord s (Reg.mbx_MBX_CFG n)

/-- An entry of local queue 61 of a core (R168), which the write wakes where it sleeps (R477). -/
def pushSq (c n ty data : Nat) (s : State) : State :=
  if coreSilent s c then s
  else { externalPush c 61 (BitVec.ofNat 64 (data % 2 ^ 32 + n % 64 * 2 ^ 32 + ty * 2 ^ 38)) (wakeCore c s) with reply := s.reply }

/-- The write of a word by endpoint `from'` (R165, R166, R168). `c`: the core, for endpoint 10. A wrong party sets WRONG_PARTY alone,
whether or not the mailbox is full; so in an acknowledgement (DESIGN CHOICE, log entry 64: R165 and R166 both apply). -/
def mbxSend (from' : Option Nat) (c n : Nat) (v : Word) (s : State) : State :=
  let cfg := rdWord s (Reg.mbx_MBX_CFG n)
  if from' ≠ some (cfgSender cfg) ∨ 11 ≤ cfgSender cfg ∨ (cfgSender cfg = 10 ∧ cfgCore cfg ≠ c) then
    setF (Reg.mbx_MBX_STATUS_WRONG_PARTY n) s
  else if isSet s (Reg.mbx_MBX_STATUS_FULL n) then setF (Reg.mbx_MBX_STATUS_BUSY_WRITE n) s
  else
    let t := { s with mbx := tset n cfg s.mbx } |> wrWord (Reg.mbx_MBX_DATA n) v |> setF (Reg.mbx_MBX_STATUS_FULL n)
    if cfgReceiver cfg < 10 then flagF (Reg.mbx_DB_PEND_PEND (cfgReceiver cfg)) (cfgDoorbell cfg) t
    else if cfgReceiver cfg = 10 then pushSq (cfgCore cfg) n 0 v.toNat t
    else t

/-- The acknowledgement of a word by endpoint `from'` (R165, R166, R168). -/
def mbxAck (from' : Option Nat) (c n code : Nat) (s : State) : State :=
  let cfg := mbxCfg s n
  if from' ≠ some (cfgReceiver cfg) ∨ 11 ≤ cfgReceiver cfg ∨ (cfgReceiver cfg = 10 ∧ cfgCore cfg ≠ c) then
    setF (Reg.mbx_MBX_STATUS_WRONG_PARTY n) s
  else if !isSet s (Reg.mbx_MBX_STATUS_FULL n) then setF (Reg.mbx_MBX_STATUS_LATE_ACK n) s
  else
    let t := { s with fw := if n = 1 then { s.fw with reply := none } else s.fw } |> clrF (Reg.mbx_MBX_STATUS_FULL n)
      |> setF (Reg.mbx_MBX_STATUS_ACKED n) |> putF (Reg.mbx_MBX_STATUS_CODE n) code
    if cfgSender cfg = 10 then pushSq (cfgCore cfg) n 1 (code % 256) t else t

/-- MBX_ACK_WRITE (R165-R167). -/
def execMbxAckWrite (p : Party) (n code : Nat) (s : State) : Host.Outcome State Fault Refusal :=
  live s (if n < 64 then csrEffect p (Reg.mbx_MBX_ACK n) (mbxAck (mbxParty p) 0 n (code % 256)) s else s)

/-- A reply of the firmware on mailbox 1 has timed out: it is sent again, up to three times; then it is given up, with a
record (R405, R449). -/
def fwTimeout (s : State) : State :=
  let lead := getF s Reg.cl_CL_CFG_LEAD
  match s.fw.reply with
  | none => s
  | some (w, k) =>
    if k ≤ 3 then mbxSend (some lead) 0 1 w { s with fw := { s.fw with reply := some (w, k + 1) } }
    else record 0x8001 8 (recArg s (.app lead true) 0) (recArg s (.app lead true) 1) { s with fw := { s.fw with reply := none } }

/-- MBX_TIMEOUT (R167, R168): an SQ sender learns of it by an entry of TYPE 2, whose DATA the spec does not give. -/
def execMbxTimeout (n : Nat) (s : State) : Host.Outcome State Fault Refusal :=
  live s (if n < 64 ∧ isSet s (Reg.mbx_MBX_STATUS_FULL n) = true then
    let cfg := mbxCfg s n
    let t := s |> clrF (Reg.mbx_MBX_STATUS_FULL n) |> setF (Reg.mbx_MBX_STATUS_TIMEOUT n)
    if cfgSender cfg = 10 then spendFree (pushSq (cfgCore cfg) n 2 (freeWord s).toNat t)
    else if n = 1 then fwTimeout t else t
  else s)

/-- The word that the SQ of core `c` has placed in queue 62 (R168). -/
def mbxFromSq (c v : Nat) (s : State) : State :=
  let n := bitsN v 32 6
  if bitsN v 38 2 = 0 then mbxSend (some 10) c n (BitVec.ofNat 32 v) s
  else if bitsN v 38 2 = 1 then mbxAck (some 10) c n (bitsN v 0 8) s
  else s

/-- MBX_QUEUE_TAKE (R168): through the external port of queue 62. Entries that READER does not let the port read stay, and the
attempt sets DENIED (R151). -/
def execMbxQueueTake (c : Nat) (s : State) : Host.Outcome State Fault Refusal :=
  live s (if !engRuns s c || popHeld s c 62 then s
    else if qReader s c 62 ≠ 6 then (if qReadable s c 62 = 0 then s else setF (Reg.sq_QLEVEL_DENIED c 62) s)
    else match qPop c 62 s with
      | .entry v t => mbxFromSq c v t
      | .sliceErr _ t => t
      | .empty => s)

end Sys2Proof.Machine
end

