-- ==== Sys2Proof/Machine/Results.lean ====
section
/-! DEFINITION. The Output Collector: entries, records, latest results, output rings and trigger requests (R323-R329,
R344, R23). -/

namespace Sys2Proof.Machine

/-! ### Entries (R323, R324) -/

/-- The context is in use, so that the entry belongs to one of its steps. -/
def enterResult (src : Nat) (w : Word64) (s : State) : State :=
  let ctx := evCtx w
  if (ctxList s).contains ctx then
    { s with results := s.results ++
      [{ ctx := ctx, step := (ctxRun s ctx).complete, axonOff := evAxon w - 0xF000, pay := evPay w, kind := evKind w, src := src }] }
  else s

/-- RESULT_EVENT (R18, R323, R324): the oldest event for the Collector at chip port `port`. -/
def execResultEvent (port : Nat) (s : State) : Host.Outcome State Fault Refusal :=
  live s (
    let r := chipPorts.getD port 0
    match takeArrivalBy (fun a => decide (evAxon (BitVec.ofNat 64 a.pkt.data) < 0xF800)) (portIn s r) with
    | some (a, rest) =>
      if collectorLoad s < 16384 then
        s |> setPortIn r rest |> portJudged r a |> enterResult (epRouter a.pkt.src) (BitVec.ofNat 64 a.pkt.data)
      else flagF Reg.oc_OC_EVENTS_EVENTS 4 s
    | none => s)

/-! ### The record of a step (R325, R326) -/

/-- The order of item 1 of R325. -/
def entryBefore (a b : ResEntry) : Bool :=
  decide (a.axonOff < b.axonOff) || (a.axonOff == b.axonOff && (decide (a.src < b.src) || (a.src == b.src && decide (b.pay ≤ a.pay))))

def insertEntry (e : ResEntry) : List ResEntry → List ResEntry
  | [] => [e]
  | x :: r => if entryBefore x e then x :: insertEntry e r else e :: x :: r

def sortEntries (l : List ResEntry) : List ResEntry := l.foldl (fun acc e => insertEntry e acc) []

/-- The entry of highest PAY, the first of them (R325). -/
def bestEntry (l : List ResEntry) : Option ResEntry :=
  l.foldl (fun best e => match best with
    | none => some e
    | some b => if b.pay < e.pay then some e else some b) none

/-- The 64 bits of an entry (R326). -/
def entryWord (e : ResEntry) : Nat := e.axonOff % 2 ^ 11 + e.pay % 256 * 2 ^ 16 + e.kind % 4 * 2 ^ 24 + e.src % 1024 * 2 ^ 32

/-- The words of a record (R326). -/
def recordWords (prot trunc : Bool) (ctx oseq step : Nat) (l : List ResEntry) : List Nat :=
  let odd := l.length % 2
  [1 + (l.length + 1) / 2 + bnat trunc * 2 ^ 9 + bnat prot * 2 ^ 10 + odd * 2 ^ 11 + ctx % 2 ^ 16 * 2 ^ 16
      + oseq % 2 ^ 32 * 2 ^ 32, step % 2 ^ 64] ++ l.map entryWord ++ (if odd = 1 then [0] else [])

/-- The latest-result register as a number (R329). -/
def resultWord (step : Nat) (e : ResEntry) : Nat :=
  e.axonOff % 2 ^ 11 + e.pay % 256 * 2 ^ 11 + e.kind % 4 * 2 ^ 19 + 2 ^ 21 + 2 ^ 22 + step / 2 ^ 32 % 256 * 2 ^ 24
    + step % 2 ^ 32 * 2 ^ 32

def latestAt (ctx : Nat) : Nat := Reg.latest_LATEST (ctx / 256) (ctx % 256)

/-- RESULT takes an entry; after a recovery, only for a step later than the one it holds (R325, R344). -/
def putResult (ctx step : Nat) (e : ResEntry) (s : State) : State :=
  let old := dResult s ctx
  let held := old / 2 ^ 32 + old / 2 ^ 24 % 256 * 2 ^ 32
  if (ctxRun s ctx).recovered && bitN old 21 && decide (step % 2 ^ 40 ≤ held) then s
  else s |> dPut ctx 448 64 (resultWord step e) |> wrWords (latestAt ctx) (resultWord step e) 2

/-- One entry's requests for trigger pulses at tick START + m + 2 (R222, R309); after a recovery none for a step whose
pulses have been released, and a late one at the next tick (R344). -/
def requestFor (ctx m : Nat) (e : ResEntry) (s : State) : State :=
  ((List.range 8).filter (trigMatches s ctx e.axonOff)).foldl (fun t n =>
    let due := dStart s ctx + m + 2
    if (ctxRun s ctx).recovered && decide ((dTrigStep s ctx + 2 ^ 32 - m % 2 ^ 32) % 2 ^ 32 < 2 ^ 31)
        && (ctxRun s ctx).trigRel then t
    else if due ≤ tbWicket s then
      t |> requestPulse ⟨n, tbWicket s + 1, some (ctx, m)⟩ |> incSat Reg.oc_LATE_PULSE_COUNT_COUNT
    else requestPulse ⟨n, due, some (ctx, m)⟩ t) s

/-- OUTPUT_RECORD_FORM (R325): at the completion of step `m`. -/
def formRecord (ctx m : Nat) (s : State) : State :=
  let all := sortEntries (s.results.filter (fun e => e.ctx == ctx && e.step == m))
  match bestEntry all with
  | none => s
  | some best =>
    let kept := all.take 508
    let lost := all.length - kept.length
    let oseq := dOseq s ctx
    let t := { s with results := s.results.filter (fun e => !(e.ctx == ctx && e.step == m)) }
      |> dPut ctx 256 32 (oseq + 1)
      |> (fun u => if lost = 0 then u else u |> addSat Reg.oc_TRUNC_COUNT_COUNT lost |> flagF Reg.oc_OC_EVENTS_EVENTS 1)
      |> putResult ctx m best
    let u := all.foldl (fun v e => requestFor ctx m e v) t
    if dRingEn s ctx then
      { u with records := u.records ++
        [{ ctx := ctx, step := m, ring := dRing s ctx, prot := dProt s ctx, oseq := oseq
           words := recordWords (dProt s ctx) (decide (lost ≠ 0)) ctx oseq m kept }] }
    else u

/-! ### Output rings (R23, R327, R344, R551) -/

def ocrCfg (s : State) (r i : Nat) : Bool := bitN (getF s (Reg.oc_OCR_CFG_CFG r)) i
def ocrSize (s : State) (r : Nat) : Nat := 256 * 2 ^ min (getF s (Reg.oc_OCR_CFG_CFG r) % 32) 18

def ocrBase (s : State) (r : Nat) : Nat := getF s (Reg.oc_OCR_BASE_BASE r) * 4096
def ocrMirror (s : State) (r : Nat) : Nat := getF s (Reg.oc_OCR_MIRROR_MIRROR r) * 4096

/-- The channels of `[lo, hi)` of a range of R425: sixteen granules in a row visit every channel of their range. -/
def channelsIn (s : State) (lo hi : Nat) : List Nat :=
  if hi ≤ lo then [] else (List.range (min 16 ((hi + 255) / 256 - lo / 256))).filterMap (fun i => channelOf s ((lo / 256 + i) * 256))

/-- The memory channels that a copy of ring `r` at `base` lies on (R425). -/
def copyChannels (s : State) (r base : Nat) : List Nat :=
  let lo := base - mainBase
  let hi := lo + 16 * ocrSize s r
  let inter := memChannels s.variant * (channelBytes s - localBytes s)
  let grp := memChannels s.variant / 2 * localBytes s
  if base < mainBase then []
  else channelsIn s lo (min hi inter) ++ channelsIn s (max lo inter) (min hi (inter + grp)) ++ channelsIn s (max lo (inter + grp)) hi

/-- Every copy of the ring lies only in channel group `g` (R339). -/
def ringOnlyIn (s : State) (r g : Nat) : Bool :=
  let cs := copyChannels s r (ocrBase s r) ++ (if ocrCfg s r 6 then copyChannels s r (ocrMirror s r) else [])
  ocrCfg s r 7 && !cs.isEmpty && cs.all (fun ch => groupOf s.variant ch == g)

/-- The Collector writes the mirror of ring `r` alone from now on (R328). -/
def ocrSwitched (s : State) (r : Nat) : Bool := bitN (getF s (Reg.oc_OCR_STATUS_STATUS r)) 0
def switchRing (r : Nat) (s : State) : State := s |> flagF (Reg.oc_OCR_STATUS_STATUS r) 0 |> flagF Reg.oc_OC_EVENTS_EVENTS 3

/-- A failed channel under the primary copy of a ring with a mirror switches the ring (R328). -/
def switchRings (ch : Nat) (s : State) : State :=
  ((List.range 256).filter (fun r => ocrCfg s r 7 && ocrCfg s r 6 && !ocrSwitched s r &&
    (copyChannels s r (ocrBase s r)).contains ch)).foldl (fun t r => switchRing r t) s

/-- The two numbers of R327. -/
def ocrFree (s : State) (r : Nat) : Nat :=
  ocrSize s r - sub32 (getF s (Reg.oc_OCR_PROD_PROD r)) (getF s (Reg.oc_OCR_CONS_CONS r))
def ocrTail (s : State) (r : Nat) : Nat := ocrSize s r - getF s (Reg.oc_OCR_PROD_PROD r) % ocrSize s r

def recUnits (o : OutRec) : Nat := o.words.length / 2

/-- Units the record takes in its ring, pad included; `none` while it does not fit (R327). -/
def ocrNeed (s : State) (o : OutRec) : Option Nat :=
  let n := recUnits o
  if n ≤ ocrTail s o.ring then (if n ≤ ocrFree s o.ring then some n else none)
  else if ocrTail s o.ring + n ≤ ocrFree s o.ring then some (ocrTail s o.ring + n) else none

/-- Every event accepted for the context up to the step is in the journal (R23, R333). -/
def journaled (s : State) (o : OutRec) : Bool := s.journal.all (fun j => !(j.ctx == o.ctx && decide (j.step ≤ o.step)))

/-- A record at or below OSEQ_HIGH is not written again after a recovery (R344). -/
def suppressed (s : State) (o : OutRec) : Bool :=
  (ctxRun s o.ctx).recovered && (ctxRun s o.ctx).wrote && decide (sub32 (dOseqHigh s o.ctx) o.oseq < 2 ^ 31)

def recordBytes (o : OutRec) : List Byte := o.words.flatMap (fun w => toBytes w 8)

/-- The writes of the record's units to the copy of the ring at `base`, with a pad record before it where it wraps. -/
def ocrWrites (s : State) (base n : Nat) (o : OutRec) : List (Nat × List Byte) :=
  let at' := base + 16 * (getF s (Reg.oc_OCR_PROD_PROD o.ring) % ocrSize s o.ring)
  if n = recUnits o then [(at', recordBytes o)] else [(at', toBytes (2 ^ 8) 16), (base, recordBytes o)]

/-- Write the record's units to one copy; `false` where a write ends in a bus error. -/
def ocrCopy (base n : Nat) (o : OutRec) (s : State) : State × Bool :=
  let ws := ocrWrites s base n o
  if ws.all (fun w => mainTakes s w.1 w.2.length) then
    ws.foldl (fun acc w => let r := mainWrite w.1 w.2 acc.1; (r.1, acc.2 && r.2)) (s, true)
  else (s, false)

/-- A copy that the record is to be written to meets a channel in training: the write waits (R426). -/
def ocrHeld (s : State) (n : Nat) (o : OutRec) : Bool :=
  ((if ocrSwitched s o.ring then [] else ocrWrites s (ocrBase s o.ring) n o) ++
    (if ocrCfg s o.ring 6 then ocrWrites s (ocrMirror s o.ring) n o else [])).any (fun w => mainWaits s w.1 w.2.length)

/-- The oldest record of ring `r` waits no longer: WAITING, bit 1 of OCR_STATUS, falls (R350). -/
def waitOver (r : Nat) (s : State) : State := putF (Reg.oc_OCR_STATUS_STATUS r) (getF s (Reg.oc_OCR_STATUS_STATUS r) &&& 1) s

/-- The record cannot be written to any copy, or is discarded: it is counted. -/
def ocrLost (o : OutRec) (s : State) : State := s |> addWrap (Reg.oc_OCR_LOST_LOST o.ring) 1 |> waitOver o.ring

/-- PROD moves past the units written (R327, R390). -/
def ocrAdvance (n : Nat) (o : OutRec) (s : State) : State :=
  let t := s |> addWrap (Reg.oc_OCR_PROD_PROD o.ring) n |> dPut o.ctx 288 32 o.oseq
    |> modCtx o.ctx (fun c => { c with wrote := true })
    |> waitOver o.ring
  if ocrCfg s o.ring 8 then sicEdge (128 + o.ring) t else t

def ringError (r : Nat) (s : State) : State := s |> flagF (Reg.oc_RING_ERR_RING (r / 32)) (r % 32) |> flagF Reg.oc_OC_EVENTS_EVENTS 0

/-- Write a record of `n` units to its ring and the mirror, or to the mirror alone (R327, R328, R551). -/
def ocrWrite (n : Nat) (o : OutRec) (s : State) : State :=
  let a := if ocrSwitched s o.ring then (s, false) else ocrCopy (ocrBase s o.ring) n o s
  if ocrCfg s o.ring 6 then
    let b := ocrCopy (ocrMirror s o.ring) n o a.1
    if a.2 then ocrAdvance n o b.1
    else if b.2 then
      (if ocrSwitched s o.ring then b.1 else switchRing o.ring b.1) |> ocrAdvance n o
    else b.1 |> ocrLost o |> ringError o.ring
  else if a.2 then ocrAdvance n o a.1
  else a.1 |> ocrLost o |> ringError o.ring

/-- What becomes of a record at the head of its ring. -/
inductive RecFate where
  | waits
  | suppress
  | discard
  | write (n : Nat)
  deriving DecidableEq, Repr

def fateOf (s : State) (o : OutRec) : RecFate :=
  if suppressed s o then .suppress
  else if !ocrCfg s o.ring 7 then .discard
  else if o.prot && !journaled s o then .waits
  else match ocrNeed s o with
    | some n => if ocrHeld s n o then .waits else .write n
    | none => if ocrCfg s o.ring 5 && !o.prot then .discard else .waits

/-- The record is the oldest of its ring. -/
def ringHead (l : List OutRec) (o : OutRec) : Bool := (l.find? (fun q => q.ring == o.ring)) == some o

/-- A record that begins to wait for space (R327). -/
def markWaiting (o : OutRec) (s : State) : State :=
  if (ocrNeed s o).isNone && !bitN (getF s (Reg.oc_OCR_STATUS_STATUS o.ring)) 1 then
    s |> flagF (Reg.oc_OCR_STATUS_STATUS o.ring) 1 |> flagF Reg.oc_OC_EVENTS_EVENTS 2
  else s

/-- The oldest records of the rings that must wait. -/
def markWaits (s : State) : State :=
  (s.records.filter (fun o => ringHead s.records o && fateOf s o == .waits)).foldl (fun t o => markWaiting o t) s

/-- OUTPUT_RECORD_WRITE (R23, R327, R344): the oldest record, of those that are first for their ring, that need not wait. -/
def execOutputRecordWrite (s : State) : Host.Outcome State Fault Refusal :=
  live s (markWaits (match s.records.find? (fun o => ringHead s.records o && fateOf s o != .waits) with
    | some o =>
      let t := { s with records := s.records.erase o }
      match fateOf s o with
      | .suppress => t |> incSat Reg.oc_SUPPRESSED_COUNT_COUNT |> waitOver o.ring
      | .discard => ocrLost o t
      | .write n => ocrWrite n o t
      | .waits => s
    | none => s))

/-- OCR_CONS_WRITE (R328). -/
def execOcrConsWrite (p : Party) (r : Nat) (v : Word) (s : State) : Host.Outcome State Fault Refusal :=
  live s (if r < 256 then csrEffect p (Reg.oc_OCR_CONS r) (fun t =>
    if consOk (getF t (Reg.oc_OCR_PROD_PROD r)) (getF t (Reg.oc_OCR_CONS_CONS r)) v.toNat then
      putF (Reg.oc_OCR_CONS_CONS r) v.toNat t
    else ringError r t) s else s)

/-- LATEST_RESULT_READ (R32, R329): an update in the same cycle leaves FRESH set. -/
def execLatestResultRead (p : Party) (ctx : Nat) (hwUpdate : Bool) (s : State) : Host.Outcome State Fault Refusal :=
  live s (if ctx < 65536 then csrDo p (latestAt ctx) read32 (fun t =>
    readReply (readAny p (latestAt ctx) (BitVec.ofNat 32 (bnat hwUpdate * 2 ^ 22)) t)) s else s)

end Sys2Proof.Machine
end

