-- ==== Sys2Proof/Machine/Fabric.lean ====
section
/-! DEFINITION. The fabric: injection, hops, arrival, acknowledgement, resend, refusal, drain and route tables
(R171-R201). One command sends one packet, all its flits, by one router, so that an output starts a packet only when the one
before has gone; outputs grant in the order of R177. -/

namespace Sys2Proof.Machine

/-! ### Routes (R171, R178, R179, R186) -/

/-- The routers of a flock's tree, from `r` on. -/
def treePath (s : State) (f : Nat) : Nat → Nat → List Nat
  | 0, r => [r]
  | n + 1, r =>
    if !flockBit s r f 7 then [r]
    else r :: ((List.range 4).filter (flockBit s r f)).flatMap (fun o => treePath s f n (neighbour r o))

/-- The routers a packet takes from its source. -/
def packetPath (s : State) (p : Packet) : List Nat :=
  if byFlock p then treePath s p.dst 64 (epRouter p.src) else routePath (epRouter p.dst) p.alt 64 (epRouter p.src)

/-! ### Injection (R179-R181, R188, R190, R197) -/

def slotCap (vc : Nat) : Nat := if vc < 2 then 8 else 4

/-- Packets in the slots of a router's input port and channel (R176). -/
def slotLoad (s : State) (router port vc : Nat) : Nat :=
  s.fab.flights.countP (fun f => f.router == router && f.port == port && !f.delivered && vcNow f == vc)

def slotFree (s : State) (router port vc : Nat) : Nat := slotCap vc - slotLoad s router port vc

/-- The input port by which an endpoint injects. -/
def injectPort (ep : Nat) : Nat := if epCode ep = 0 then 4 else 5

/-- What a drain request does not hold: acknowledgements, refusals, responses and resends (R197). -/
def drainExempt (p : Packet) : Bool :=
  p.resend || p.ty == .ack || p.ty == .nack || p.ty == .refuse || p.ty == .csrRsp || p.ty == .memRsp || p.ty == .memAck

/-- ALT from the RTR_ALT map of the injecting router (R179). -/
def altOf (s : State) (p : Packet) : Bool := !byFlock p && altMap s (epRouter p.src) (epRouter p.dst)

def mayInject (s : State) (p : Packet) : Bool :=
  let q := { p with alt := altOf s p }
  decide (0 < slotFree s (epRouter p.src) (injectPort p.src) (vcOf p.ty)) &&
  (!sequenced p.ty || p.resend || decide (retxHeld s p.src < retxCap)) &&
  (drainExempt p || getF s Reg.fab_FAB_DRAIN_REQ = 0 ||
    (packetPath s q).all (fun r => !bitN (getF s Reg.fab_FAB_DRAIN_REQ) (regionOfCore r)))

/-- The packet of a core's event word (R20, R188). -/
def sendPacket (c : Nat) (i : SendItem) : Packet :=
  { ty := .event, src := 4 * c, dst := if evMc i.word then evFlock i.word else eventDst i.word, mc := evMc i.word,
    epoch := evEpoch i.word, data := i.word.toNat, step := i.step, engine := i.engine }

def retxLimit (s : State) : Nat := if getF s Reg.fab_FAB_CFG_RETX_LIMIT = 0 then 16 else getF s Reg.fab_FAB_CFG_RETX_LIMIT

/-- The destination core index of an item, for a fault record. -/
def itemCore (p : Packet) : Nat := if byFlock p then 0 else epRouter p.dst

/-- A packet has been sent RETX_LIMIT times: the event, and the report through the chain of R13 (R195). -/
def exhausted (p : Packet) (s : State) : State :=
  s |> setF Reg.fab_FAB_EVENTS_RETX_EXHAUSTED |> raiseUp 1 0 7 (epRouter p.src) (p.seq + itemCore p * 2 ^ 16)

/-- The entry has been sent RETX_LIMIT times, and that is not reported yet. -/
def tells (s : State) (e : Retx) : Bool := !e.told && decide (retxLimit s ≤ e.sends)

/-- The packet enters its router's input port, with its SEQ and a retransmit entry (R190). -/
def enter (p : Packet) (s : State) : State :=
  let q := { p with alt := altOf s p }
  let fly (x : Packet) (t : State) : State :=
    { t with fab := { t.fab with flights := t.fab.flights ++ [{ pkt := x, router := epRouter x.src, port := injectPort x.src }] } }
  if !sequenced q.ty || q.resend then fly q s
  else
    let r := epRouter q.src
    let seq := if byFlock q then flockSeqNext s r q.dst else tget 0 (uniKey q.src q.dst) s.fab.seqNext
    let x := { q with seq := seq }
    let t := if byFlock q then wrBits (flockAddr r q.dst) 40 8 (seq + 1) s
      else { s with fab := { s.fab with seqNext := tset (uniKey q.src q.dst) ((seq + 1) % 256) s.fab.seqNext } }
    let e : Retx := { pkt := x, told := tells s { pkt := x } }
    fly x { t with fab := { t.fab with retx := t.fab.retx ++ [e] } } |> (fun u => if e.told then exhausted x u else u)

/-- Remove the first waiting packet equal to `p`: words of the core's send queue behind it have one packet less before them. -/
def unwait (p : Packet) (s : State) : State :=
  let i := (waitingAt s p.src).idxOf p
  let t := { s with fab := { s.fab with waiting := s.fab.waiting.erase p } }
  if epCode p.src = 0 ∧ p.resend = false then
    modCore (epRouter p.src) (fun k => { k with send := k.send.map (fun x => if i < x.older then { x with older := x.older - 1 } else x) }) t
  else t

/-- Inject the head of a core's send queue. -/
def injectSend (c : Nat) (s : State) : Option State :=
  match (core s c).send with
  | [] => none
  | i :: rest =>
    if mayInject s (sendPacket c i) then
      some (s |> modCore c (fun k => { k with send := rest }) |> enter (sendPacket c i) |> emitResume c)
    else none

/-- The oldest packet that waits at a source, resends apart, and may enter; `n`: among the oldest `n` alone. -/
def oldestReady (s : State) (src n : Nat) : Option Packet := ((waitingAt s src).take n).find? (mayInject s)

/-- How many waiting packets of a source are older than the word at the front of its send queue. -/
def olderThanSend (s : State) (src : Nat) : Nat :=
  if epCode src = 0 then (match (core s (epRouter src)).send with
    | x :: _ => x.older
    | [] => 0) else 0

/-- PACKET_INJECT (R180, R186, R190, R197, R199): the oldest resend, else the oldest packet that may enter, words of the send
queue among them. -/
def execPacketInject (src : Nat) (s : State) : Host.Outcome State Fault Refusal :=
  live s (
    match s.fab.waiting.find? (fun p => p.src == src && p.resend && mayInject s p) with
    | some p => s |> unwait p |> enter p
    | none =>
      match oldestReady s src (olderThanSend s src) with
      | some p => s |> unwait p |> enter p
      | none =>
        match (if epCode src = 0 then injectSend (epRouter src) s else none) with
        | some t => t
        | none =>
          match oldestReady s src (waitingAt s src).length with
          | some p => s |> unwait p |> enter p
          | none => s)

/-! ### Hops (R175-R180, R186, R195) -/

def dropFlight (i : Nat) (s : State) : State := { s with fab := { s.fab with flights := s.fab.flights.eraseIdx i } }
def addFlight (f : Flight) (s : State) : State := { s with fab := { s.fab with flights := s.fab.flights ++ [f] } }

/-- FAB_CLK cycles to one cycle of AON_CLK, and the window of R195 in cycles of AON_CLK. -/
def hchkWindow : Nat := 65536 / 16

/-- The HCHK failures of an input port within the window that ends now, this one among them (R195). -/
def hchkRecent (s : State) (key : Nat) : List Nat :=
  (tget [] key s.fab.hchk).filter (fun t => decide (s.fab.now < t + hchkWindow)) ++ [s.fab.now]

/-- A header check fails at an input port: the packet is discarded and counted; the sixteenth failure within the window marks
the port (R195). -/
def hchkFail (i : Nat) (f : Flight) (s : State) : State :=
  let key := f.router * 8 + f.port
  let l := hchkRecent s key
  let t := s |> dropFlight i |> flagF (Reg.rtr_RTR_EVENTS_HCHK f.router) f.port
    |> setF Reg.fab_FAB_EVENTS_HCHK_DROP |> incSat Reg.fab_HCHK_DROP_COUNT_COUNT
  let u := { t with fab := { t.fab with hchk := tset key l t.fab.hchk } }
  if 16 ≤ l.length ∧ bitN (getF s (Reg.rtr_RTR_STATUS_PORT_FAILED f.router)) f.port = false then
    u |> flagF (Reg.rtr_RTR_STATUS_PORT_FAILED f.router) f.port |> raiseUp 1 0 8 f.router (2 ^ f.port)
  else u

/-- The block of a central router. -/
def centralBlock (r : Nat) : Option Nat := (List.range 64).find? (fun b => centralRouter b == r)

/-- The router has the endpoint that a code names (R178, R201). -/
def hasEndpoint (s : State) (r code : Nat) : Bool :=
  if code = 0 then true
  else if code = 3 then (chipPortAt r).isSome && regionPresent s.variant (regionOfCore r)
  else if code < 3 then (match centralBlock r with
    | some b => blockPresent s b
    | none => false)
  else false

/-- The endpoint of a router's extra port to which a multicast copy goes. -/
def extraCode (r : Nat) : Nat := if (chipPortAt r).isSome then 3 else 2

/-- Events that wait at the chip ports, or are on their way to one, for the Collector, or for the volley egress. -/
def portLoad (s : State) (volley : Bool) : Nat :=
  let mine (p : Packet) : Bool := decide (0xF800 ≤ evAxon (BitVec.ofNat 64 p.data)) == volley
  s.portIn.foldl (fun n q => n + q.2.countP (fun a => mine a.pkt)) 0 +
    s.fab.flights.countP (fun f => f.delivered && f.port == 5 && (chipPortAt f.router).isSome && f.pkt.ty == .event && mine f.pkt)

/-- The unit behind a chip port takes the event: a free entry of the Collector, or of the egress (R324, R369). -/
def portRoom (s : State) (p : Packet) : Bool :=
  if evAxon (BitVec.ofNat 64 p.data) < 0xF800 then decide (collectorLoad s + portLoad s false < 16384)
  else decide (s.aet.windows.foldl (fun n w => n + w.data.length) 0 + portLoad s true < 65536)

/-- The pairs that wait at core `r`'s router stop, or on their way from the router. -/
def pairLoad (s : State) (r : Nat) : Nat :=
  (core s r).arrivals.countP (fun a => a.pkt.ty == .qsend) +
    s.fab.flights.countP (fun f => f.router == r && f.delivered && f.port == 4 && f.pkt.ty == .qsend)

/-- The credits that wait at core `r`'s router stop, or on their way from the router. -/
def creditLoad (s : State) (r : Nat) : Nat :=
  (core s r).arrivals.countP (fun a => a.pkt.ty == .credit) +
    s.fab.flights.countP (fun f => f.router == r && f.delivered && f.port == 4 && f.pkt.ty == .credit)

/-- Events that an ingress queue holds or that are on their way to it. -/
def ingressLoad (s : State) (r : Nat) : Nat :=
  (core s r).ingress.length + (core s r).arrivals.countP (fun a => a.pkt.ty == .event)
    + s.fab.flights.countP (fun f => f.router == r && f.delivered && f.port == 4 && f.pkt.ty == .event)

/-- Requests that wait at a block port, or on their way to it. -/
def blockLoad (s : State) (r : Nat) : Nat :=
  (tget [] r s.fab.ports).length +
    s.fab.flights.countP (fun f => f.router == r && f.delivered && f.port == 5 && vcOf f.pkt.ty == 2)

/-- A free entry at the endpoint (R180): of a core's ingress queue (R74), of the unit behind a chip port, and of the entries that
the model gives the other packets (DESIGN CHOICE, log entry 60): one pair at a router stop, and as many credits there and requests at
a block port as a port has slots. Responses, ACK, NACK and REFUSE packets wait for nothing (R181). -/
def endpointRoom (s : State) (r code : Nat) (p : Packet) : Bool :=
  match code, p.ty with
  | 0, .event => coreSilent s r || decide (ingressLoad s r < 32)
  | 0, .qsend => coreSilent s r || decide (pairLoad s r < 1)
  | 0, .credit => coreSilent s r || decide (creditLoad s r < slotCap 1)
  | 1, .memRd | 1, .memWr => decide (blockLoad s r < slotCap 2)
  | 3, .event => portRoom s p
  | _, _ => true

/-- A chip port that takes no packet for its unit: BACKPRESSURE of the Collector, or FULL of the egress (R324, R369). -/
def noteFull (code : Nat) (p : Packet) (s : State) : State :=
  if code ≠ 3 ∨ p.ty ≠ .event then s
  else if evAxon (BitVec.ofNat 64 p.data) < 0xF800 then flagF Reg.oc_OC_EVENTS_EVENTS 4 s
  else flagF Reg.vol_VOL_EVENTS_EVENTS 4 s

/-- The flight may leave its router by ring output `o`: one free slot along a ring, two to enter one (R180). -/
def mayLeave (s : State) (f : Flight) (o : Nat) : Bool :=
  decide ((if f.port = oppositePort o then 1 else 2) ≤ slotFree s (neighbour f.router o) (oppositePort o) (vcNow f))

/-- The outputs to which a flight still has to go (0-3 the rings, 4 LOCAL, 5 EXTRA). -/
def outputs (s : State) (f : Flight) : List Nat :=
  let p := seen f
  (if byFlock p then
    (List.range 6).filter (flockBit s f.router p.dst)
  else match nextPort f.router (epRouter p.dst) p.alt with
    | some o => [o]
    | none => [if depNow f = 0 then 4 else 5]).filter (fun o => !f.gone.contains o)

/-- The endpoint codes to which a flight goes by output 4 or 5. -/
def codesAt (f : Flight) (o : Nat) : List Nat :=
  let p := seen f
  if byFlock p then [if o = 4 then 0 else extraCode f.router] else [depNow f]

/-- The router discards the packet: an invalid flock entry, or an endpoint that it lacks (R178, R186). -/
def misroutes (s : State) (f : Flight) : Bool :=
  let p := seen f
  if byFlock p then !flockBit s f.router p.dst 7
  else (nextPort f.router (epRouter p.dst) p.alt).isNone && !hasEndpoint s f.router (depNow f)

/-- The endpoints by output `o` that the router has. -/
def reached (s : State) (f : Flight) (o : Nat) : List Nat := (codesAt f o).filter (hasEndpoint s f.router)

/-- The flight may advance to output `o` (R180). -/
def mayGoTo (s : State) (f : Flight) (o : Nat) : Bool :=
  if o < 4 then mayLeave s f o else (reached s f o).all (fun code => endpointRoom s f.router code (seen f))

/-- The flights that stand at a router's input port and channel and may advance to output `o`, by index. -/
def ready (s : State) (r o vc port : Nat) : Option Nat :=
  (List.range s.fab.flights.length).find? (fun i => match s.fab.flights[i]? with
    | some f => f.router == r && !f.delivered && f.port == port && vcNow f == vc && (outputs s f).contains o && mayGoTo s f o
    | none => false)

def grantKey (r o vc : Nat) : Nat := (r * 8 + o) * 4 + vc

/-- The flight that output `o` of a router grants: among those that may advance, of the highest channel in the order VC0, VC1,
VC3, VC2; within a channel the input ports in turn, and from a port the oldest (R177; log entry 60). -/
def granted (s : State) (r o : Nat) : Option Nat :=
  [0, 1, 3, 2].findSome? (fun vc => (List.range 6).findSome? (fun k =>
    ready s r o vc ((tget 5 (grantKey r o vc) s.fab.grants + 1 + k) % 6)))

/-- Flight `i` leaves by output `o`, and the output has granted its input port. -/
def sendCopy (i : Nat) (f : Flight) (s : State) (o : Nat) : State :=
  if granted s f.router o = some i then
    let g : Flight := if o < 4 then { f with router := neighbour f.router o, port := oppositePort o, gone := [] }
      else { f with port := o, delivered := true, gone := [] }
    let lost := decide (4 ≤ o) && reached s f o != codesAt f o
    let t := { s with fab := { s.fab with
      flights := s.fab.flights.modify i (fun x => { x with gone := x.gone ++ [o] }) ++ (if 4 ≤ o ∧ reached s f o = [] then [] else [g])
      grants := tset (grantKey f.router o (vcNow f)) f.port s.fab.grants } }
    if lost then setF (Reg.rtr_RTR_EVENTS_MISROUTE f.router) t else t
  else if 4 ≤ o ∧ mayGoTo s f o = false then (reached s f o).foldl (fun t code => noteFull code (seen f) t) s
  else s

/-- The copies of flight `i` that outputs grant leave; its slot is free when the last has left (R186). -/
def hop (i : Nat) (f : Flight) (s : State) : State :=
  let t := (outputs s f).foldl (sendCopy i f) s
  match t.fab.flights[i]? with
  | some g => if outputs t g = [] then dropFlight i t else t
  | none => t

/-- PACKET_HOP (R175, R177, R178, R180, R186, R191, R195). -/
def execPacketHop (i flips : Nat) (s : State) : Host.Outcome State Fault Refusal :=
  live s (match s.fab.flights[i]? with
    | none => s
    | some g =>
      let f := { g with bad := g.bad ^^^ flips }
      let t := { s with fab := { s.fab with flights := s.fab.flights.set i f } }
      if f.delivered then s
      else if !hchkOk f then hchkFail i f t
      else if misroutes t f then t |> dropFlight i |> setF (Reg.rtr_RTR_EVENTS_MISROUTE f.router)
      else hop i f t)

/-! ### Arrival (R190-R192) -/

/-- The endpoint at which a delivered flight stands. -/
def flightEp (f : Flight) : Nat :=
  if byFlock (seen f) then 4 * f.router + (if f.port = 4 then 0 else extraCode f.router) else (seen f).dst

def flightFlock (f : Flight) : Option Nat := if byFlock (seen f) then some (seen f).dst else none

/-- The SEQ next expected by the series of a packet at an endpoint. -/
def expectedSeq (s : State) (ep : Nat) (p : Packet) (fl : Option Nat) : Nat :=
  match fl with
  | some f => flockSeqExp s (epRouter ep) f
  | none => (rxOf s (uniKey p.src ep)).expect

def sendNack (ep : Nat) (p : Packet) (fl : Option Nat) (s : State) : State :=
  let k := itemKey p ep fl
  if (rxOf s k).nack then s
  else s |> modRx k (fun r => { r with nack := true })
    |> post { ty := .nack, src := ep, dst := p.src, mc := fl.isSome, ext := fl.getD 0, seq := expectedSeq s ep p fl }

/-- A resend of a multicast item that the member has accepted and not acknowledged: its acknowledgement will carry the new TRY
(R192, R193). -/
def retried (ep f : Nat) (p : Packet) (s : State) : State :=
  let hit (a : Arrival) : Bool := a.flock == some f && a.pkt.seq == p.seq
  let again (l : List Arrival) : List Arrival := l.map (fun a => if hit a then { a with pkt := { a.pkt with tr := p.tr } } else a)
  let t := modRx (mcKey (epRouter ep) f) (fun r => { r with held := r.held.map (fun h => if h.1 = p.seq then (h.1, p.tr) else h) }) s
  if epCode ep = 0 then modCore (epRouter ep) (fun k => { k with arrivals := again k.arrivals }) t
  else if epCode ep = 3 then setPortIn (epRouter ep) (again (portIn t (epRouter ep))) t
  else t

/-- The destination's judgement of a sequenced packet (R191). -/
inductive SeqAns where
  | inOrder (t : State)
  | done (t : State)

def seqJudge (ep : Nat) (p : Packet) (fl : Option Nat) (crcBad : Bool) (s : State) : SeqAns :=
  if crcBad then
    .done (s |> setF Reg.fab_FAB_EVENTS_CRC_FAIL |> incSat Reg.fab_CRC_FAIL_COUNT_COUNT |> sendNack ep p fl)
  else
    let d := (p.seq + 256 - expectedSeq s ep p fl) % 256
    if d = 0 then
      match fl with
      | some f => .inOrder (s |> wrBits (flockAddr (epRouter ep) f) 32 8 (p.seq + 1)
          |> modRx (itemKey p ep fl) (fun r => { r with nack := false })
          |> (fun t => if bothMember s (epRouter ep) f then
              modRx (extraKey (epRouter ep) f) (fun r => { r with expect := (r.expect + 255) % 256 }) t else t))
      | none => .inOrder (modRx (uniKey p.src ep)
          (fun r => { r with expect := (r.expect + 1) % 256, unacked := r.unacked + 1, nack := false }) s)
    else if d ≤ 127 then .done (sendNack ep p fl s)
    else
      let t := incSat Reg.fab_DUP_COUNT_COUNT s
      match fl with
      | none => .done (sendAck p.src ep t)
      | some f =>
        if (rxOf s (itemKey p ep fl)).held.any (fun h => h.1 == p.seq) ||
            (arrivalsAt s ep).any (fun a => a.flock == fl && a.pkt.seq == p.seq) then .done (retried ep f p t)
        else .done (entryAck ep f p t)

/-- The response to a slice access of core `c` (R78, R114): a read's entry holds it until its engine takes it, or the IE; a store is done, or its
bus error waits for the engine. -/
def sliceResponse (c : Nat) (p : Packet) (s : State) : State :=
  let bad := p.ext % 2 = 1
  let ans : Option Nat := if bad then none else some p.data
  if p.ty = .memRsp then
    s |> modEng c p.engine (fun g => { g with reads := g.reads.map (fun r =>
          if r.tag = p.raw ∧ r.ans = none then { r with ans := some ans } else r) })
      |> modCore c (fun k => { k with fanout := k.fanout.map (fun f =>
          if f.tag = p.raw ∧ f.ans = none then { f with ans := some ans } else f) })
  else match (eng s c p.engine).posted.find? (fun q => q.tag == p.raw) with
    | some q => modEng c p.engine (fun g => { g with posted := g.posted.erase q
                                                     storeErr := g.storeErr ++ (if bad then [(q.pc, q.off)] else []) }) s
    | none => s

/-- A multicast item that a member without a core refuses for its flock's epoch (R187). -/
def refuseExtra (ep f : Nat) (p : Packet) (s : State) : State :=
  s |> modRx (mcKey (epRouter ep) f) (fun r => { r with held := r.held ++ [(p.seq, p.tr)] })
    |> post { ty := .refuse, src := ep, dst := p.src, mc := true, ext := p.seq % 256 + f % 1024 * 256,
              data := refusalHeader s (epRouter ep) p 3 + p.data % 2 ^ 64 * 2 ^ 64 }

/-- Delivery through EXTRA, which checks FEPOCH alone (R187): to the chip port of router `r`; a BDU has no use for an event. -/
def extraEvent (r f : Nat) (p : Packet) (s : State) : State :=
  if p.epoch = flockFepoch s r f ∧ extraCode r = 3 ∧ hasEndpoint s r 3 then chipPortEvent r ⟨p, some f⟩ s else s

/-- The EXTRA copy of a packet at a router whose flock entry has LOCAL too (R186, R190): the entry's SEQ_EXP goes on with the LOCAL
copy, and the EXTRA copies have their own expected SEQ beside it. The entry's acknowledgement waits for both copies (log entry 60). -/
def extraArrival (r f : Nat) (p : Packet) (crcBad : Bool) (s : State) : State :=
  let k := extraKey r f
  let ep := 4 * r + extraCode r
  let nack (t : State) : State :=
    if (rxOf t k).nack then t
    else t |> modRx k (fun x => { x with nack := true })
      |> post { ty := .nack, src := ep, dst := p.src, mc := true, ext := f, seq := extraExpected t r f }
  let d := (p.seq + 256 - extraExpected s r f) % 256
  if crcBad then s |> setF Reg.fab_FAB_EVENTS_CRC_FAIL |> incSat Reg.fab_CRC_FAIL_COUNT_COUNT |> nack
  else if d = 0 then
    let t := modRx k (fun x => { x with expect := (x.expect + 1) % 256, nack := false, held := x.held.filter (fun h => h.1 != p.seq) }) s
    (match (rxOf s k).held.find? (fun h => h.1 == p.seq) with
      | some h => memberAck (4 * r) f { p with tr := h.2 } t
      | none => t) |> extraEvent r f p
  else if d ≤ 127 then nack s
  else incSat Reg.fab_DUP_COUNT_COUNT s

/-- An accepted packet at a core's router stop. -/
def acceptAtCore (c : Nat) (p : Packet) (fl : Option Nat) (s : State) : State :=
  if p.ty = .event ∨ p.ty = .qsend ∨ p.ty = .credit then modCore c (fun k => { k with arrivals := k.arrivals ++ [⟨p, fl⟩] }) s
  else if p.ty = .memRsp ∨ p.ty = .memAck then (if coreSilent s c then s else sliceResponse c p s)
  else s

/-- An accepted packet at its endpoint. CSR accesses, and accesses of chip-level units, are commands of their own (log entry
60). -/
def acceptPacket (ep : Nat) (p : Packet) (fl : Option Nat) (s : State) : State :=
  if epCode ep = 0 then acceptAtCore (epRouter ep) p fl s
  else if epCode ep = 1 then
    if p.ty = .memRd ∨ p.ty = .memWr then
      { s with fab := { s.fab with ports := tset (epRouter ep) (tget [] (epRouter ep) s.fab.ports ++ [p]) s.fab.ports } }
    else s
  else match fl with
    | some f =>
      if p.epoch ≠ flockFepoch s (epRouter ep) f then refuseExtra ep f p s
      else if epCode ep = 3 then chipPortEvent (epRouter ep) ⟨p, fl⟩ s
      else memberAck ep f p s
    | none => if epCode ep = 3 ∧ p.ty = .event then chipPortEvent (epRouter ep) ⟨p, fl⟩ s else s

/-- PACKET_ARRIVAL (R191, R192): ACK, NACK and REFUSE packets without a CRC failure are taken by rows of their own. A packet
whose type no rule names is discarded. -/
def execPacketArrival (i : Nat) (s : State) : Host.Outcome State Fault Refusal :=
  live s (match s.fab.flights[i]? with
    | none => s
    | some f =>
      let p := seen f
      if !f.delivered then s
      else if !crcOk f && (!sequenced p.ty || p.ty == .reserved) then
        s |> dropFlight i |> setF Reg.fab_FAB_EVENTS_CRC_FAIL |> incSat Reg.fab_CRC_FAIL_COUNT_COUNT
      else if p.ty = .reserved then dropFlight i s
      else if crcOk f && (!sequenced p.ty || p.ty == .refuse) then s
      else if byFlock p && f.port == 5 && bothMember s f.router p.dst then extraArrival f.router p.dst p (!crcOk f) (dropFlight i s)
      else
        let ep := flightEp f
        match seqJudge ep p (flightFlock f) (!crcOk f) (dropFlight i s) with
        | .done t => t
        | .inOrder t => t |> acceptPacket ep p (flightFlock f) |> (fun u => if (flightFlock f).isNone then ackIfDue p.src ep u else u))

/-- The delivered flight `i` of a type, whole (R191). -/
def answerAt (s : State) (i : Nat) (ty : PktType) : Option Packet :=
  match s.fab.flights[i]? with
  | some f => if f.delivered && (seen f).ty == ty && crcOk f then some (seen f) else none
  | none => none

/-- ACK_SEND (R192, R194): 64 cycles after the oldest unacknowledged acceptance. -/
def execAckSend (src dst : Nat) (s : State) : Host.Outcome State Fault Refusal := live s (ackIfNew src dst s)

/-! ### Acknowledgement and resend at the source (R193-R195) -/

/-- The REFUSE of an item has been acknowledged: the ACK that its series held back is sent (R194). -/
def refuseAcked (p : Packet) (s : State) : State :=
  let seq := p.ext % 256
  if p.mc then
    let f := p.ext / 256 % 1024
    let k := mcKey (epRouter p.src) f
    match (rxOf s k).held.find? (fun h => h.1 == seq) with
    | some h => s |> modRx k (fun r => { r with held := r.held.erase h })
        |> entryAck p.src f { p with src := p.dst, seq := seq, tr := h.2 }
    | none => s
  else
    s |> modRx (uniKey p.dst p.src) (fun r => { r with held := r.held.filter (fun h => h.1 != seq) }) |> ackIfNew p.dst p.src

/-- Entries of the unicast series from `src` to `dst`. -/
def inSeries (src dst : Nat) (mc : Bool) (e : Retx) : Bool := e.pkt.src == src && e.pkt.dst == dst && e.pkt.mc == mc
  && (mc == byFlock e.pkt)

/-- A unicast entry is in the series of endpoint pair, whatever its `mc` mark. -/
def inUnicast (src dst : Nat) (e : Retx) : Bool := e.pkt.src == src && e.pkt.dst == dst && !byFlock e.pkt

/-- The cumulative acknowledgement up to `seq`. -/
def ackUnicast (src dst seq : Nat) (s : State) : State :=
  let hit (e : Retx) : Bool := inUnicast src dst e && decide ((seq + 256 - e.pkt.seq) % 256 < 128)
  let refs := (s.fab.retx.filter (fun e => hit e && e.pkt.ty == .refuse)).map (·.pkt)
  let l := s.fab.retx.map (fun e => if hit e then { e with acks := 1 } else e)
  let t := { s with fab := { s.fab with retx := l.filter (fun e => !(hit e && !e.refused)) } }
  refs.foldl (fun u p => refuseAcked p u) t

/-- A member's acknowledgement with its TRY (R193). -/
def ackFlock (src f seq tr : Nat) (s : State) : State :=
  let hit (e : Retx) : Bool := inSeries src f true e && e.pkt.seq == seq && e.pkt.tr == tr
  let l := s.fab.retx.map (fun e => if hit e then { e with acks := e.acks + 1 } else e)
  { s with fab := { s.fab with
      retx := l.filter (fun e => !(hit e && !e.refused && decide (flockMembers s (epRouter src) f ≤ e.acks))) } }

/-- Entries of a source have been freed: what waited for one, and the steps whose last event they held, go on (R162, R206). -/
def entriesFreed (ep : Nat) (s : State) : State :=
  if epCode ep = 0 then s |> emitResume (epRouter ep) |> noteStepEnds (epRouter ep) else s

/-- ACK (R193, R194). -/
def execAck (i : Nat) (s : State) : Host.Outcome State Fault Refusal :=
  live s (match answerAt s i .ack with
    | none => s
    | some p =>
      (if p.mc then s |> dropFlight i |> ackFlock p.dst (p.ext % 1024) p.seq p.tr
      else s |> dropFlight i |> ackUnicast p.dst p.src p.seq) |> entriesFreed p.dst)

/-- The entry after one more send; a multicast resend reaches the whole flock with the next TRY (R193). -/
def resent (e : Retx) : Retx :=
  { e with sends := e.sends + 1, acks := if byFlock e.pkt then 0 else e.acks,
           pkt := { e.pkt with tr := if byFlock e.pkt then (e.pkt.tr + 1) % 8 else 0 } }

/-- Resend every packet of a series from `seq` on, in order; one that reaches RETX_LIMIT is reported (R193, R195). -/
def resendFrom (hit : Retx → Bool) (seq : Nat) (s : State) : State :=
  let due (e : Retx) : Bool := hit e && decide ((e.pkt.seq + 256 - seq) % 256 < 128)
  let es := (s.fab.retx.filter due).map resent
  let mark (e : Retx) : Retx := { e with told := e.told || tells s e }
  let t := { s with fab := { s.fab with
      retx := s.fab.retx.map (fun e => if due e then mark (resent e) else e)
      waiting := s.fab.waiting.filter (fun p => !(p.resend && es.any (fun e =>
        e.pkt.src == p.src && e.pkt.dst == p.dst && e.pkt.mc == p.mc && e.pkt.seq == p.seq)))
        ++ es.map (fun e => { e.pkt with resend := true }) } }
  let u := addSat Reg.fab_RETX_COUNT_COUNT es.length t
  es.foldl (fun v e => if tells s e then exhausted e.pkt v else v) u

/-- The series of a source's entries: unicast to an endpoint, or of a flock. -/
def seriesHit (src dst : Nat) (mc : Bool) (e : Retx) : Bool := if mc then inSeries src dst true e else inUnicast src dst e

/-- NACK (R193). -/
def execNack (i : Nat) (s : State) : Host.Outcome State Fault Refusal :=
  live s (match answerAt s i .nack with
    | none => s
    | some p => s |> dropFlight i |> resendFrom (seriesHit p.dst (if p.mc then p.ext % 1024 else p.src) p.mc) p.seq)

/-- RETX_TIMEOUT (R193, R195): the packet `seq` of the series is still unacknowledged. -/
def execRetxTimeout (src dst : Nat) (mc : Bool) (seq : Nat) (s : State) : Host.Outcome State Fault Refusal :=
  live s (if s.fab.retx.any (fun e => seriesHit src dst mc e && e.pkt.seq == seq &&
      decide (e.acks < (if mc then flockMembers s (epRouter src) dst else 1))) then
    resendFrom (seriesHit src dst mc) seq s else s)

/-- NACK_TIMEOUT (R191): a NACK outstanding for RETX_TIMEOUT ends. With `mc`, `src` is the flock and `dst` the member's
router. -/
def execNackTimeout (src dst : Nat) (mc : Bool) (s : State) : Host.Outcome State Fault Refusal :=
  let ended (k : Nat) (t : State) : State := if (rxOf t k).nack then modRx k (fun r => { r with nack := false }) t else t
  live s (if mc then s |> ended (mcKey dst src) |> ended (extraKey dst src) else ended (uniKey src dst) s)

/-- A refusal at the item's sender: its core, its BDU, or admission control (R162, R163). -/
def keepRefusal (ep : Nat) (r : RefuseRec) (s : State) : State :=
  if epCode ep = 0 then modCore (epRouter ep) (fun k => { k with refusals := k.refusals ++ [r] }) s
  else if epCode ep = 3 then { s with admRefused := s.admRefused ++ [⟨ep, r⟩] }
  else { s with bduRefused := s.bduRefused ++ [⟨ep, r⟩] }

/-- The REFUSE is acknowledged at once, by an ACK that carries its SEQ (R194). An earlier item of the series that the same rule, or
an unjudged arrival, keeps from being covered lets the ACK reach only so far; it covers the REFUSE as soon as it may (log entry
60). -/
def ackRefuse (src dst : Nat) (s : State) : State :=
  s |> modRx (uniKey src dst) (fun r => { r with owed := true }) |> ackIfNew src dst

/-- FABRIC_REFUSE (R194): acknowledged at once; the refusal takes over the item's retransmit entry. -/
def execFabricRefuse (i : Nat) (s : State) : Host.Outcome State Fault Refusal :=
  live s (match answerAt s i .refuse with
    | none => s
    | some p =>
      let ep := p.dst
      match seqJudge ep { p with mc := false } none false (dropFlight i s) with
      | .done t => t
      | .inOrder t =>
        let r : RefuseRec :=
          { hdr := BitVec.ofNat 64 p.data, word := BitVec.ofNat 64 (p.data / 2 ^ 64),
            dst := if p.mc then p.ext / 256 % 1024 else p.src, seq := p.ext % 256, mc := p.mc }
        t |> ackRefuse p.src ep |> keepRefusal ep r
          |> (fun u => { u with fab := { u.fab with retx := u.fab.retx.map (fun e =>
              if refusedEntry ep r e then { e with refused := true } else e) } }))

/-! ### Back-pressure, drain, tables and epochs (R189, R196-R198) -/

/-- Flight `i` waits at an output: one that it may not advance to, or that grants another. -/
def waitsAt (s : State) (i : Nat) (f : Flight) : Bool :=
  !f.delivered && (outputs s f).any (fun o => granted s f.router o != some i)

/-- STALL_LIMIT (R196). -/
def execStallLimit (i : Nat) (s : State) : Host.Outcome State Fault Refusal :=
  live s (match s.fab.flights[i]? with
    | none => s
    | some f => if waitsAt s i f then s |> setF (Reg.rtr_RTR_EVENTS_STALL f.router) |> setF Reg.fab_FAB_EVENTS_STALL else s)

/-- Router `x` holds a member entry of the flock: LOCAL or EXTRA set (R185). -/
def isMember (s : State) (x f : Nat) : Bool := flockBit s x f 7 && (flockBit s x f 4 || flockBit s x f 5)

/-- Region `r` is empty of packets and of retransmit entries that name it (R197). -/
def regionEmpty (s : State) (r : Nat) : Bool :=
  s.fab.flights.all (fun f => regionOfCore f.router != r) &&
  s.fab.retx.all (fun e => regionOfCore (epRouter e.pkt.src) != r &&
    (if byFlock e.pkt then (packetPath s e.pkt).all (fun x => regionOfCore x != r || !isMember s x e.pkt.dst)
     else regionOfCore (epRouter e.pkt.dst) != r))

/-- REGION_DRAINED (R197). -/
def execRegionDrained (r : Nat) (s : State) : Host.Outcome State Fault Refusal :=
  live s (if r < 4 ∧ bitN (getF s Reg.fab_FAB_DRAIN_REQ) r = true ∧ regionEmpty s r = true then
    flagF Reg.fab_FAB_DRAIN_STATUS_DRAINED r s else s)

/-- The router whose flock table or RTR_ALT map holds an address. -/
def tableRouter (a : Nat) : Option Nat :=
  if inRange a 0x0300000000 0x03007FFFFF then some ((a - 0x0300000000) / 0x2000)
  else if inRange a 0x0300800000 0x0300BFFFFF && decide (a % 0x1000 < 0x80) then some ((a - 0x0300800000) / 0x1000)
  else none

/-- ROUTE_TABLE_WRITE (R198, R201). -/
def execRouteTableWrite (p : Party) (addr : Nat) (v : Word) (s : State) : Host.Outcome State Fault Refusal :=
  live s (match tableRouter addr with
    | none => s
    | some r =>
      csrDo p addr (write32 v) (fun t =>
        if bitN (getF t Reg.fab_FAB_DRAIN_STATUS_DRAINED) (regionOfCore r) then
          (if addr < 0x0300800000 then wrNum addr 4 v.toNat t else wrWord addr v t)
        else setF Reg.fab_FAB_EVENTS_TABLE_WRITE_IGNORED t) s)

/-- An item, an event or a pair, addressed to core `c`, or to a flock with a member entry at its router (R189). -/
def addressesCore (s : State) (c : Nat) (p : Packet) : Bool :=
  if byFlock p then isMember s c p.dst else (p.ty == .event || p.ty == .qsend) && p.dst == 4 * c

/-- The conditions of R189. -/
def epochSettled (s : State) (c : Nat) : Bool :=
  s.fab.retx.all (fun e => !addressesCore s c e.pkt) &&
  s.hold.all (fun h => if evMc h.word then !isMember s c (evFlock h.word) else evCore h.word != c) &&
  s.fab.retx.all (fun e => !(e.pkt.ty == .refuse && e.pkt.src == 4 * c)) &&
  s.fab.waiting.all (fun p => !(p.ty == .refuse && p.src == 4 * c))

/-- ROLE_EPOCH_ADVANCE (R189): modulo 16, once no item of an earlier epoch can still arrive. -/
def execRoleEpochAdvance (c : Nat) (s : State) : Host.Outcome State Fault Refusal :=
  live s (if corePresent s c && epochSettled s c then addWrap (Reg.core_ROLE_EPOCH_EPOCH c) 1 s else s)

end Sys2Proof.Machine
end

