-- ==== Sys2Proof/Machine/Neuro.lean ====
section
/-! DEFINITION. The datapath of a neurocore: delivery, intake, synapses, soma, emission, scrubbing and the gander
(R60-R100, R160, R209). A command whose condition does not hold changes nothing. -/

namespace Sys2Proof.Machine

/-! ### Delivery (R75, R100, R160) -/

def deliverEvent (c : Nat) (s : State) : State :=
  match takeArrivalBy (fun a => a.pkt.ty == .event) (core s c).arrivals with
  | none => s
  | some (a, rest) =>
    let s1 := modCore c (fun k => { k with arrivals := rest }) s
    match eventReason s c a with
    | some reason => s1 |> refuseItem c a reason |> noteRefused c reason (BitVec.ofNat 64 a.pkt.data)
    | none =>
      if (core s c).ingress.length < 32 ∧ coreClocked s c = true then
        s1 |> modCore c (fun k => { k with ingress := k.ingress ++ [⟨BitVec.ofNat 64 a.pkt.data, a.pkt.step⟩] }) |> judged (4 * c) a
      else s

/-- EVENT_DELIVERY (R75, R160, R187): with the ingress queue full, or the core asleep, the event waits (R74, R477). -/
def execEventDelivery (c : Nat) (s : State) : Host.Outcome State Fault Refusal := live s (deliverEvent c s)

/-! ### Intake (R75-R79, R138) -/

/-- Raise an exception that no instruction raised, with the event's low half (R138, R139). -/
def badKind (c : Nat) (w : Word64) (s : State) : State := raiseExc c 0 14 (eng s c 0).pc true (w.extractLsb' 0 32) s

/-- The record for the PE of an event that the IE processes (R73, R84, R260). -/
def pushPre (c slot : Nat) (ev : InEvent) (s : State) : State :=
  if learnOn s c then
    modCore c (fun k => { k with pre := k.pre ++ [⟨evAxon ev.word, slot, payOf ev.word, ev.step⟩] }) s
  else s

/-- The IE places operation groups in the operation queue while that has credit (R73); an operation whose target lies outside
its slot's range is discarded (R79). Groups that find no credit stay with the IE. -/
def placeGroups (c : Nat) : List (List SynOp) → State → State
  | [], s => modCore c (fun k => { k with forming := [] }) s
  | g :: r, s =>
    let good := g.filter (targetOk s c)
    let bad := g.countP (fun o => !targetOk s c o)
    if good.isEmpty then placeGroups c r (badTargets c bad s)
    else if (core s c).ops.length < 32 then
      placeGroups c r (s |> modCore c (fun k => { k with ops := k.ops ++ [good] }) |> badTargets c bad)
    else modCore c (fun k => { k with forming := g :: r }) s

/-- The IE's fan-out read leaves for its slice as a packet (R78, R174, R183). -/
def fanoutRead (c : Nat) (f : Fanout) (n : Nat) (s : State) : State :=
  s |> modCore c (fun k => { k with fanout := some { f with tag := s.fab.tag, ans := none } }) |> postSlice c 0 f.off (.read n)

/-- Begin a fan-out projection: the index entry is read first (R78). -/
def startFanout (c slot p : Nat) (ev : InEvent) (s : State) : State :=
  let base := winBits s c (projOff p) 64 18 * 256
  let f : Fanout :=
    { ev := ev, slot := slot, s4 := winBits s c (projOff p) 82 1 == 1, wsh := winBits s c (projOff p) 83 4,
      off := base + (evAxon ev.word - winBits s c (projOff p) 0 16) * 8, left := none, base := base }
  fanoutRead c f 8 s

/-- A spike or graded event of a slot at work (R76-R79); `none` while a queue has no room. -/
def processSpike (c slot : Nat) (ev : InEvent) (s : State) : Option State :=
  if learnOn s c && decide (32 ≤ (core s c).pre.length + (core s c).preReady.length) then none
  else match findProj s c (evAxon ev.word) with
    | none => some (s |> incSat (Reg.core_AXON_MISS_COUNT_COUNT c) |> coreFault c 5 0 7 0)
    | some p =>
      if winBits s c (projOff p) 32 2 = 2 then some (s |> startFanout c slot p ev |> pushPre c slot ev)
      else some (s |> placeGroups c (kernelGroups s c slot p ev) |> pushPre c slot ev)

/-- An event of a slot at work, by its KIND (R75, R138). -/
def processEvent (c slot : Nat) (ev : InEvent) (s : State) : Option State :=
  if evKind ev.word = 2 then
    if (core s c).ctrl.length < 8 then some (modCore c (fun k => { k with ctrl := k.ctrl ++ [ev] }) s) else none
  else processSpike c slot ev s

/-- The words of the kernel store that the IE reads for an event: the slot table, and the projection of a spike of a slot at
work. -/
def intakeWords (s : State) (c : Nat) (ev : InEvent) : List Nat :=
  if evKind ev.word = 3 then []
  else tableWords ++ (match findSlot s c (evCtx ev.word) with
    | some k => if atWork (slotState s c k) && evKind ev.word != 2 then projWords s c (evAxon ev.word) else []
    | none => [])

/-- The IE takes an event: process, hold or discard (R75); `none` while it must wait. One of KIND 11 is discarded with BAD_KIND,
whatever its slot (R138). -/
def intake (c : Nat) (ev : InEvent) (s : State) : Option State :=
  if evKind ev.word = 3 then some (badKind c ev.word s)
  else match findSlot s c (evCtx ev.word) with
  | none => some (noteRefused c 1 ev.word s)
  | some k =>
    let st := slotState s c k
    if atWork st then processEvent c k ev s
    else if st = stPaused then
      if (core s c).hold.length < 32 then some (modCore c (fun q => { q with hold := q.hold ++ [ev] }) s) else none
    else some (noteRefused c (if st = stFaulted then 2 else 1) ev.word s)

/-- An innings boundary keeps the IE from taking a further event: all that arrived before the last release are taken (R269). -/
def boundaryShut (s : State) (c : Nat) : Bool :=
  ((core s c).applying.isSome && (core s c).applyIn == 0) || (core s c).dueIn.any (fun p => p.2 == 0 && (boundaryDue s c p.1).isSome)

/-- INTAKE_EVENT (R75, R138): while the hold queue or the control queue to the SQ is full the IE takes nothing. -/
def execIntakeEvent (c : Nat) (s : State) : Host.Outcome State Fault Refusal :=
  live s (match (core s c).ingress with
    | [] => s
    | ev :: rest =>
      if intakeOpen s c && !boundaryShut s c && decide ((core s c).hold.length < 32) && decide ((core s c).ctrl.length < 8) then
        localWords c 0 (intakeWords s c ev) (fun t =>
          ((intake c ev t).map (modCore c (fun k => { k with
            ingress := rest, applyIn := k.applyIn - 1, dueIn := k.dueIn.map (fun p => (p.1, p.2 - 1)) }))).getD t) s
      else s)

/-- The first held event whose slot is not paused, and what is left. -/
def takeHeld (s : State) (c : Nat) : List InEvent → Option (InEvent × List InEvent)
  | [] => none
  | ev :: r =>
    if ((findSlot s c (evCtx ev.word)).map (slotState s c)) = some stPaused then
      match takeHeld s c r with
      | some (x, r') => some (x, ev :: r')
      | none => none
    else some (ev, r)

/-- The IE may process the held event: while a boundary shuts the intake, one of a step whose wicket has been taken, for which the
sequence waits, or one that is discarded (R269). -/
def heldMay (s : State) (c : Nat) (ev : InEvent) : Bool :=
  !boundaryShut s c || (match findSlot s c (evCtx ev.word) with
    | some k => !atWork (slotState s c k) || decide (ev.step < tget 0 k (core s c).taken)
    | none => true)

/-- HOLD_QUEUE_RELEASE (R75): a held event is processed when its slot is at work again, or discarded. The stop sequence empties the
queue too (R100). -/
def execHoldQueueRelease (c : Nat) (s : State) : Host.Outcome State Fault Refusal :=
  live s (match takeHeld s c (core s c).hold with
    | none => s
    | some (ev, rest) =>
      if intakeReady s c && heldMay s c ev then
        localWords c 0 (intakeWords s c ev) (fun t => (intake c ev (modCore c (fun k => { k with hold := rest }) t)).getD t) s
      else s)

/-! ### Fan-out (R78, R90) -/

/-- A fan-out read ends in a bus error: the event forms no further operation (R78). -/
def fanoutError (c : Nat) (s : State) : State :=
  s |> modCore c (fun k => { k with fanout := none }) |> incSat (Reg.core_SLICE_ERR_COUNT_COUNT c) |> coreFault c 9 0 7 0

/-- The operation of a synapse entry (R78, R90). -/
def fanoutOp (s : State) (c : Nat) (f : Fanout) (w : Nat) : SynOp :=
  { slot := f.slot, target := slotNBase s c f.slot + bitsN w 0 14,
    weight := .value (if f.s4 then sx 4 (bitsN w 16 4) else sx 8 (bitsN w 16 8)),
    wsh := f.wsh, pay := payOf f.ev.word, step := f.ev.step + evDly f.ev.word, dly := evDly f.ev.word }

/-- The operation joins the operation queue, or is discarded for a bad target (R79). -/
def pushFanoutOp (c : Nat) (o : SynOp) (s : State) : State :=
  if targetOk s c o then modCore c (fun k => { k with ops := k.ops ++ [[o]] }) s else badTargets c 1 s

/-- The fan-out goes on: its next synapse entry is read, `n` of them left, or it ends. -/
def fanoutOn (c : Nat) (f : Fanout) (off n : Nat) (s : State) : State :=
  if n = 0 then modCore c (fun k => { k with fanout := none }) s else fanoutRead c { f with off := off, left := some n } 4 s

/-- The answer to a fan-out read is taken: the index entry, or one synapse entry. -/
def fanoutAnswer (c : Nat) (f : Fanout) (a : Option Nat) (s : State) : State :=
  match a, f.left with
  | none, _ => fanoutError c s
  | some v, none => fanoutOn c f (f.base + bitsN v 0 32 * 4) (bitsN v 32 16) s
  | some v, some n => s |> pushFanoutOp c (fanoutOp s c f v) |> fanoutOn c f (f.off + 4) (n - 1)

/-- FANOUT_READ_RESPONSE (R78): one entry for each response; the IE stalls while the operation queue is full (R73). -/
def execFanoutReadResponse (c : Nat) (s : State) : Host.Outcome State Fault Refusal :=
  live s (match (core s c).fanout with
    | none => s
    | some f => match f.ans with
      | some a => if engUp s c 0 && decide ((core s c).ops.length < 32) then fanoutAnswer c f a s else s
      | none => s)

/-! ### Synapses (R60-R62, R80, R81) -/

/-- DLY is permitted for a ring of depth `d` (R60). -/
def dlyOk (d dly : Nat) : Bool :=
  if d = 1 then dly == 1 else if d = 64 then decide (1 ≤ dly) && decide (dly ≤ 31) else decide (1 ≤ dly) && decide (dly < d)

/-- The record and class of an operation's target. -/
def opClass (s : State) (c : Nat) (o : SynOp) : NRec × NClass :=
  let r := readRec s c o.target
  (r, classOf s c r.cls)

/-- Wickets of the slot that the SO has finished: steps below this number. -/
def somaDone (s : State) (c slot : Nat) : Nat := tget 0 slot (core s c).soma

/-- The SO has read the delay slot of neuron `i` for step `m`: that wicket is finished, or the update in progress is past the
neuron. -/
def slotRead (s : State) (c slot i m : Nat) : Bool :=
  decide (m < somaDone s c slot) ||
  ((core s c).soCmd.head? == some (slot, m) && (match (core s c).somaAt with
    | some (j, _) => decide (i < slotNBase s c slot + j)
    | none => false))

/-- The operation must wait under R61. -/
def opWaits (s : State) (c : Nat) (o : SynOp) : Bool :=
  let d := ringDepth (opClass s c o).2
  dlyOk d o.dly && decide (d ≤ o.step) && !slotRead s c o.slot o.target (o.step - d)

/-- An operation that need not wait: discarded for its delay (R60) or as late (R62), or added to its slot (R57). One that is both
counts for its delay alone (DESIGN CHOICE, log entry 44: no rule says which of the two it takes). -/
def applyOp (c : Nat) (o : SynOp) (s : State) : State :=
  let rk := opClass s c o
  if !dlyOk (ringDepth rk.2) o.dly then s |> incSat (Reg.core_DELAY_ERR_COUNT c) |> coreFault c 2 1 7 0
  else if slotRead s c o.slot o.target o.step then s |> incSat (Reg.core_LATE_COUNT_COUNT c) |> coreFault c 3 1 7 0
  else
    let off := delayOff rk.1 rk.2 o.step
    localAccess c 1 off 4 (fun t =>
      t |> addDelay c off (contribution t c o) |> addWrap (Reg.core_SYN_OPS_COUNT c) 1) s

/-- The operation with its weight read. -/
def withWeight (s : State) (c : Nat) (o : SynOp) : SynOp := { o with weight := .value (opValue s c o) }

/-- The words that the SE reads to place an operation: its weight, CLASS and RING of its target, and DLOG2 of the class (R72,
R81). -/
def opWords (s : State) (c : Nat) (o : SynOp) : List Nat :=
  weightWords o ++ recClassWord s c o.target :: classWords (readRec s c o.target).cls 1

/-- One operation of a group: late wait or apply. -/
def takeOp (c : Nat) (o : SynOp) (s : State) : State :=
  localWords c 1 (opWords s c o) (fun t =>
    if opWaits t c o then modCore c (fun k => { k with late := k.late ++ [withWeight t c o] }) t else applyOp c (withWeight t c o) t) s

/-- The group at the head of the operation queue is done with; the IE places what it still holds. -/
def groupDone (c : Nat) (s : State) : State :=
  let t := modCore c (fun k => { k with ops := k.ops.tail }) s
  placeGroups c (core t c).forming t

/-- The SE takes the operations left of the group at the head of its queue, one after another. It stops where it halts (R98),
and where its late-wait queue is full (R74). -/
def takeGroup (c : Nat) : List SynOp → State → State
  | [], s => groupDone c s
  | o :: r, s =>
    if (eng s c 1).st = .halted ∨ 16 ≤ (core s c).late.length then modCore c (fun k => { k with ops := (o :: r) :: k.ops.tail }) s
    else takeGroup c r (takeOp c o s)

/-- A group waits while the correction entries of its slot for its target step are still to be added (R82). -/
def groupBehind (s : State) (c : Nat) (g : List SynOp) : Bool :=
  g.any (fun o => (core s c).seCmd.any (fun w => w.1 == o.slot && w.2 + 1 == o.step))

/-- OPERATION_GROUP (R80, R74): with its late-wait queue full the SE stalls, whatever the group holds, until the slot that the
oldest waiting operation needs has been read and LATE_WAIT_RELEASE has made room. -/
def execOperationGroup (c : Nat) (s : State) : Host.Outcome State Fault Refusal :=
  live s (match (core s c).ops with
    | [] => s
    | g :: _ => if engUp s c 1 && !groupBehind s c g then takeGroup c g s else s)

/-- The first late operation that may go, and what is left. -/
def takeLate (s : State) (c : Nat) : List SynOp → Option (SynOp × List SynOp)
  | [] => none
  | o :: r =>
    if opWaits s c o then
      match takeLate s c r with
      | some (x, r') => some (x, o :: r')
      | none => none
    else some (o, r)

/-- The late operation that goes next: the first that may, or the oldest alone while the queue is full (R74). -/
def nextLate (s : State) (c : Nat) : Option (SynOp × List SynOp) :=
  let l := (core s c).late
  if l.length < 16 then takeLate s c l
  else match l with
    | [] => none
    | o :: r => if opWaits s c o then none else some (o, r)

/-- LATE_WAIT_RELEASE (R61). -/
def execLateWaitRelease (c : Nat) (s : State) : Host.Outcome State Fault Refusal :=
  live s (match nextLate s c with
    | none => s
    | some (o, rest) => if engUp s c 1 then applyOp c o (modCore c (fun k => { k with late := rest }) s) else s)

/-! ### Wickets (R63, R65, R66, R82-R84, R209) -/

/-- An event, operation or control word for the slot from before step `n` is still in the IE or SE (R209). -/
def intakeBehind (s : State) (c slot n : Nat) : Bool :=
  let ctx := slotCtx s c slot
  let k := core s c
  (k.ingress ++ k.hold).any (fun e => evCtx e.word == ctx && decide (e.step < n)) ||
  (match k.fanout with
   | some f => f.slot == slot && decide (f.ev.step < n)
   | none => false) ||
  (k.ops ++ k.forming).any (fun g => g.any (fun o => o.slot == slot && decide (o.step < n + o.dly))) ||
  k.late.any (fun o => o.slot == slot && decide (o.step < n + o.dly))

/-- The slot's next wicket may be taken (R95, R100, R209, R268, R335). -/
def mayTake (s : State) (c slot : Nat) : Bool :=
  let n := tget 0 slot (core s c).taken
  coreUp s c && blkEnabled s (Reg.core_BLK_CTRL c) && !(core s c).stopped && !(core s c).intakeOff &&
  decide (n < tget 0 slot (core s c).released) && atWork (slotState s c slot) &&
  !(core s c).ckptHold.contains slot &&
  !(learnOn s c && (match setOf s c slot with
    | some i => (boundaryOf s c i slot).isSome
    | none => false)) &&
  !intakeBehind s c slot n

/-- No lower slot of the core may take a wicket now: slots that take the same wicket do so in ascending order (R83). -/
def lowestTaker (s : State) (c slot : Nat) : Bool := (core s c).released.all (fun p => decide (slot ≤ p.1) || !mayTake s c p.1)

/-- WICKET_TAKEN (R83, R209): the SQ's WICKET happening, and the PE's trace decay (R262). The wicket commands follow from the
handler or in its place (R130, R135). -/
def execWicketTaken (c slot : Nat) (s : State) : Host.Outcome State Fault Refusal :=
  live s (
    if mayTake s c slot && lowestTaker s c slot then
      let n := tget 0 slot (core s c).taken
      s |> modCore c (fun k => { k with taken := tset slot (n + 1) k.taken })
        |> modEng c 5 (fun g => { g with happen := g.happen ++ [⟨2, slot, n, BitVec.ofNat 32 slot, 0, 0, 0⟩] })
        |> traceDecay c slot
    else s)

/-- Record a firing: one fire record and, with learning on, one postsynaptic record (R71, R84). -/
def pushFire (c slot n i : Nat) (f : Firing) (s : State) : State :=
  let r : FireRec := ⟨i, slot, f.kind, f.pay, n⟩
  let learn := learnOn s c
  s |> modCore c (fun k => { k with fire := k.fire ++ [r], post := if learn then k.post ++ [r] else k.post })
    |> (fun t => if f.sat then incSat (Reg.core_SAT_COUNT_COUNT c) t else t)

/-- The SO at one neuron of a slot at wicket `n` (R65, R66): the scan reads CLASS, RING and the class's TWO; an update reads the
rest. An uncorrectable word halts the SO at that access (R98). -/
def somaNeuron (c slot n j : Nat) (s : State) : State :=
  let i := slotNBase s c slot + j
  localWords c 2 (recClassWord s c i :: classWords (readRec s c i).cls 1) (fun t =>
    let r := readRec t c i
    let k := classOf t c r.cls
    let off := delayOff r k n
    let x := sx 32 (rdNum t (coreBase c + off) 4)
    if updatedAt k n j x then
      localWords c 2 (storeWords (recOff t c i) (recLen t c) ++ classWords r.cls 5 ++ [off]) (fun u =>
        let res := somaRec r k n x
        let u1 := u |> wrNum (coreBase c + off) 4 0 |> writeSoma c i res.1
        match res.2 with
        | some f => pushFire c slot n i f u1
        | none => u1) t
    else t) s

/-- The value of a correction entry is added to the slot of neuron `i` for step `m` (R63). -/
def corrAdd (c i m : Nat) (v : Int) (s : State) : State :=
  localWords c 1 (recClassWord s c i :: classWords (readRec s c i).cls 1) (fun t =>
    let off := delayOff (readRec t c i) (classOf t c (readRec t c i).cls) m
    localAccess c 1 off 4 (addDelay c off v) t) s

/-- One correction entry, if it belongs to the slot (R63, R64, R82). -/
def correction (c slot n : Nat) (s : State) (e : Nat) : State :=
  let base := winBits s c (corrOff e) 32 14
  let lo := slotNBase s c slot
  let hi := slotNBase s c slot + slotNCount s c slot
  let outside (i : Nat) : Bool := decide (i < lo) || decide (hi < i)
  localWords c 1 [corrOff e + 4] (fun s0 =>
    if outside base then s0
    else localWords c 1 [corrOff e] (fun s1 =>
      let v := sx 32 (winBits s c (corrOff e) 0 32)
      let ns := (List.range (winBits s c (corrOff e) 46 14 + 1)).map (fun j => base + j * 2 ^ winBits s c (corrOff e) 60 4)
      let t := ns.foldl (fun t i => if outside i then t else unlessHalted c 1 (corrAdd c i (n + 1) v) t) s1
      if ns.any outside then incSat (Reg.core_TARGET_ERR_COUNT_COUNT c) t else t) s0) s

/-- The SO finishes the update of step `n`: STEP (R92), whose words it writes whole, and its WICKET happening. -/
def somaEnd (c slot n fires : Nat) (s : State) : State :=
  s |> setSlotStep c slot n |> wroteWhole c [0x31608 + 16 * slot, 0x3160C + 16 * slot]
    |> modCore c (fun k => { k with soma := tset slot (n + 1) k.soma, soCmd := k.soCmd.tail, somaAt := none })
    |> modEng c 2 (fun g => { g with happen := g.happen ++ [⟨2, slot, n, BitVec.ofNat 32 slot, 0, 0, fires⟩] })

/-- The SE adds the slot's correction entries after the SO has read the slots of step `n` (R63), and its WICKET happening. -/
def correctionEnd (c slot n : Nat) (s : State) : State :=
  let t := localWords c 1 (slotWords slot)
    (fun u => (List.range 256).foldl (fun w e => unlessHalted c 1 (fun x => correction c slot n x e) w) u) s
  if (eng t c 1).st = .halted then t
  else
    t |> modCore c (fun k => { k with corr := tset slot (n + 1) k.corr, seCmd := k.seCmd.erase (slot, n) })
      |> modEng c 1 (fun g => { g with happen := g.happen ++ [⟨2, slot, n, BitVec.ofNat 32 slot, 0, 0, 0⟩] })

/-- The fire queue, or with learning on the postsynaptic queue, has no credit (R73, R84). -/
def fireFull (s : State) (c : Nat) : Bool :=
  decide (64 ≤ (core s c).fire.length) || (learnOn s c && decide (64 ≤ (core s c).post.length + (core s c).postReady.length))

/-- The SO has updated its slot: the SE adds the corrections, and the SQ places further wicket commands. -/
def updateDone (c slot n fires : Nat) (s : State) : State :=
  let u := somaEnd c slot n fires s
  (if engUp u c 1 && (core u c).seCmd.contains (slot, n) then correctionEnd c slot n u else u) |> sqDrain c |> noteStepEnds c

/-- The SO at the neurons left of its update, `fires` of which have fired: it stops where it halts, and stalls where a queue it
writes is full, when the neurons left wait (R84). -/
def somaRun (c slot n : Nat) : List Nat → Nat → State → State
  | [], fires, s => updateDone c slot n fires s
  | j :: r, fires, s =>
    if (eng s c 2).st = .halted then s
    else if fireFull s c then modCore c (fun k => { k with somaAt := some (j, fires) }) s
    else
      let t := somaNeuron c slot n j s
      if (eng t c 2).st = .halted then modCore c (fun k => { k with somaAt := some (j, fires) }) t
      else somaRun c slot n r (fires + ((core t c).fire.length - (core s c).fire.length)) t

/-- SOMA_UPDATE (R65-R71, R82-R84): the SO carries out the wicket command at the head of its queue, when that is for `slot`, or
goes on with it after a stall; the SE then adds the corrections. -/
def execSomaUpdate (c slot : Nat) (s : State) : Host.Outcome State Fault Refusal :=
  live s (match (core s c).soCmd with
    | [] => s
    | (k, n) :: _ =>
      if k = slot ∧ engUp s c 2 = true then
        match (core s c).somaAt with
        | some (j, fires) => somaRun c slot n ((List.range (slotNCount s c slot + 1)).drop j) fires s
        | none => localWords c 2 (slotWords slot) (fun t => somaRun c slot n (List.range (slotNCount t c slot + 1)) 0 t) s
      else s)

/-! ### Emission (R85) -/

/-- The first four valid emit entries whose range holds a neuron index relative to NBASE. -/
def emitMatches (s : State) (c rel : Nat) : List Nat :=
  ((List.range 128).filter (fun i => winBits s c (emitOff i) 29 1 == 1 && decide (winBits s c (emitOff i) 0 14 ≤ rel)
    && decide (rel ≤ winBits s c (emitOff i) 14 14))).take 4

/-- The event of a fire record for emit entry `i`. -/
def emitEvent (s : State) (c i rel : Nat) (f : FireRec) : Word64 :=
  let e (lo w : Nat) : Nat := winBits s c (emitOff i) lo w
  mkEvent (e 32 5) (e 37 5) (e 42 4) (e 46 16 + (rel - e 0 14)) (slotCtx s c f.slot) f.pay (e 64 5) f.kind (e 28 1)

/-- The engine code of an item of the datapath: the EE in a refusal header, apart from the EE's own program. -/
def datapathEngine : Nat := 12

/-- The index of a fire record's neuron, relative to NBASE. -/
def fireRel (s : State) (c : Nat) (f : FireRec) : Nat := f.neuron - slotNBase s c f.slot

/-- The words that the EE reads for a fire record: the slot entry, the emit entries up to the fourth that matches, and the rest
of those that match (R85, R91, R92). -/
def emitWords (s : State) (c : Nat) (f : FireRec) : List Nat :=
  let ms := emitMatches s c (fireRel s c f)
  let n := if ms.length = 4 then ms.getLastD 127 + 1 else 128
  slotWords f.slot ++ (List.range n).map emitOff ++ ms.flatMap (fun i => [emitOff i + 4, emitOff i + 8])

/-- The send queue's free entries, none while sends stall (R73, R162). -/
def sendFree (s : State) (c : Nat) : Nat := if sendBlocked s c then 0 else sendCap - (core s c).send.length

/-- The fire record at the head of the queue: its words go to the send queue as far as that has room, and the record leaves with
its last. -/
def fireEmit (c : Nat) (f : FireRec) (rest : List FireRec) (s : State) : State :=
  let rel := fireRel s c f
  let ms := emitMatches s c rel
  if ms.isEmpty then
    s |> modCore c (fun k => { k with fire := rest, firePos := 0 })
      |> modEng c 4 (fun g => { g with happen := g.happen ++
          [⟨9, f.slot, f.step, BitVec.ofNat 32 f.slot, BitVec.ofNat 32 rel, BitVec.ofNat 32 (f.pay + f.kind * 256), 0⟩] })
  else
    let left := ms.drop (core s c).firePos
    let now := left.take (sendFree s c)
    let all := decide (left.length ≤ sendFree s c)
    modCore c (fun k => { k with
      send := k.send ++ now.map (fun i => ⟨emitEvent s c i rel f, f.step, datapathEngine, (waitingAt s (4 * c)).length⟩)
      fire := if all then rest else k.fire
      firePos := if all then 0 else k.firePos + now.length }) s

/-- FIRE_EMIT (R71, R85, R132): a fire record that matches no entry raises NO_ROUTE (R133). An EMIT that stalls may then go. -/
def execFireEmit (c : Nat) (s : State) : Host.Outcome State Fault Refusal :=
  live s (match (core s c).fire with
    | [] => s
    | f :: rest =>
      if engUp s c 4 then localWords c 4 (emitWords s c f) (fun t => t |> fireEmit c f rest |> emitResume c |> noteStepEnds c) s
      else s)

/-! ### Scrubbing (R97-R99) -/

/-- The window offset of scrub word `i`, in the order of R86. -/
def scrubOff (i : Nat) : Nat :=
  if i < 16384 then 8 * i
  else if i < 32768 then 0x20000 + 4 * (i - 16384)
  else if i < 40960 then 0x30000 + 4 * (i - 32768)
  else if i < 43008 then 0x38000 + 8 * (i - 40960)
  else 0x3C000 + 4 * (i - 43008)

def scrubWord (c upset : Nat) (s : State) : State :=
  let o := scrubOff (core s c).scrub
  let s1 := addUpset (eccWordOf c o) upset s
  if eccAt s1 (eccWordOf c o) = 2 then
    s1 |> coreFaultUp c 1 7 (storeOf o).1 (o - (storeOf o).2) 1 |> modCore c (fun k => { k with scrubStop := true })
  else
    s1 |> coreEccFix c 7 o |> modCore c (fun k => { k with scrub := (k.scrub + 1) % 47104 })

/-- SCRUB_READ (R97-R99). -/
def execScrubRead (c upset : Nat) (s : State) : Host.Outcome State Fault Refusal :=
  live s (if coreUp s c && isSet s (Reg.core_SCRUB_CTRL_EN c) && !(core s c).scrubStop && !(core s c).asleep then
    scrubWord c upset s else s)

/-! ### The gander (R94, R95), and the stop sequence (R100) -/

/-- GANDER_EXPIRY: engine `e` has had work and made no progress for GANDER_LIMIT cycles. -/
def execGanderExpiry (c e : Nat) (s : State) : Host.Outcome State Fault Refusal :=
  live s (if e < 6 ∧ engUp s c e = true ∧ engBusy s c e = true ∧ getF s (Reg.eng_GANDER_LIMIT_LIMIT c e) ≠ 0 then
    s |> haltEng c e |> setF (Reg.eng_GANDER_EVENTS_EXPIRED c e) |> coreFaultUp c 4 e 7 0 2
  else s)

/-- CORE_STOP_START (R100): the IE takes no further event. -/
def execCoreStopStart (c : Nat) (s : State) : Host.Outcome State Fault Refusal :=
  live s (if coreUp s c && blkEnabled s (Reg.core_BLK_CTRL c) && !isSet s (enRef (Reg.core_BLK_CTRL c)) && quiescent s c then
    modCore c (fun k => { k with intakeOff := true }) s else s)

end Sys2Proof.Machine
end

