-- ==== Sys2Proof/Machine/Contexts.lean ====
section
/-! DEFINITION. The context table controller: commands and states (R317-R322, R549), the release of wickets and the
completion of steps (R208, R209, R219). -/

namespace Sys2Proof.Machine

/-! ### Results of commands (R349, R549) -/

def resDone : Nat := 0
def resBadState : Nat := 1
def resBadArg : Nat := 2
def resCheckFailed : Nat := 3
def resNoCheckpoint : Nat := 4
def resBadOp : Nat := 5

/-- BUSY falls, RESULT is written and CMD_DONE is set (R549). -/
def finish (res : Nat) (s : State) : State :=
  { s with cttCmd := none, cttWaits := false } |> clrF Reg.ctt_CTX_CMD_STATUS_BUSY |> putF Reg.ctt_CTX_CMD_STATUS_RESULT res
    |> flagF Reg.ctt_CTX_EVENTS_EVENTS 0
    |> (fun t => if res = resCheckFailed then flagF Reg.ctt_CTX_EVENTS_EVENTS 4 t else t)

def cmdArg (s : State) : Nat := getF s Reg.ctt_CTX_CMD_ARG_ARG

/-- The command in hand is `op` for context `ctx`. -/
def inHand (s : State) (op ctx : Nat) : Bool := s.cttCmd == some (op, ctx) && !s.cttWaits

/-! ### LOAD (R320) -/

/-- The staged descriptor, or one of an image, keeps the rules of R318 and of LOAD. -/
def descOk (s : State) (ctx d : Nat) : Bool :=
  let k := bitsN d 24 12 + 1
  decide (16 ≤ k) && decide (bitsN d 36 12 < k) && bitsN d 13 3 == 0 && bitsN d 59 5 == 0 && bitsN d 175 17 == 0 &&
  bitsN d 48 11 == (coresOfCtx s ctx).length + 1 &&
  (!bitN d 3 || blkEnabled s Reg.jrn_BLK_CTRL) &&
  (bitN d 170 || corePresent s (bitsN d 165 5 * 32 + bitsN d 160 5))

/-- LOAD writes the descriptor: STATE LOADED, the zeroed fields, every other field as given. -/
def writeDesc (ctx d : Nat) (s : State) : State :=
  { s with ctxs := tset ctx {} s.ctxs, results := s.results.filter (fun e => e.ctx != ctx) }
    |> descWrite ctx (toBytes d 64) |> dPut ctx 0 3 stLoaded |> zeroLoadFields ctx |> wrWords (latestAt ctx) 0 2 |> putSlots ctx stLoaded

def stagedDesc (s : State) : Nat := rdWords s (Reg.ctt_CTX_STAGE 0) 16

def doLoad (ctx : Nat) (s : State) : State :=
  if descOk s ctx (stagedDesc s) then s |> writeDesc ctx (stagedDesc s) |> finish resDone else finish resBadArg s

/-- The contexts that a LOAD_IMAGE names in its argument: how many, and the first. -/
def imageCount (s : State) : Nat := bitsN (cmdArg s) 32 16 + 1
def imageFirst (s : State) : Nat := bitsN (cmdArg s) 48 16
def imageIds (s : State) : List Nat := (List.range (imageCount s)).map (imageFirst s + ·)

/-- LOAD_IMAGE: the check word is judged first, then every descriptor; an image that passes clears CFG_DEFAULTED (R320, R517).
A read that meets a channel in training waits, and the command with it (R426). -/
def doLoadImage (s : State) : State :=
  let n := imageCount s
  let first := imageFirst s
  let a := bitsN (cmdArg s) 0 32 * 4096
  if first + n ≤ 65536 ∧ (imageIds s).any (fun c => dState s c != stFree) then finish resBadState s
  else if 65536 < first + n then finish resBadArg s
  else if mainWaits s a (64 * n + 8) then { s with cttWaits := true }
  else
    let r := mainRead a (64 * n + 8) s
    match r.data with
    | none => finish resBadArg r.st
    | some bs =>
      let t := r.st
      let desc (i : Nat) : Nat := ofBytes ((bs.drop (64 * i)).take 64)
      if crc32c (bs.take (64 * n + 4)) ≠ ofBytes (bs.drop (64 * n + 4)) then
        t |> setDefaulted Reg.ctt_BLK_CTRL |> finish resCheckFailed
      else if (List.range n).all (fun i => descOk t (first + i) (desc i)) then
        (List.range n).foldl (fun u i => writeDesc (first + i) (desc i) u) t |> clrF (defaultedRef Reg.ctt_BLK_CTRL) |> finish resDone
      else finish resBadArg t

/-! ### START, PAUSE, DRAIN, CLEAR, RESET, FREE (R320) -/

/-- The counters of a context's slot on its core begin again. -/
def slotFresh (n : Nat) (s : State) (p : Nat × Nat) : State :=
  modCore p.1 (fun k => { k with released := tset p.2 n k.released, taken := tset p.2 n k.taken, soma := tset p.2 n k.soma
                                 corr := tset p.2 n k.corr, doneSent := tset p.2 n k.doneSent
                                 endRaised := tset p.2 n k.endRaised, stepReady := k.stepReady.filter (fun r => r.1 != p.2)
                                 ckptHold := k.ckptHold.filter (· != p.2)
                                 innDone := tset p.2 0 k.innDone }) s

def doStart (ctx : Nat) (s : State) : State :=
  if dProt s ctx && (!dRingEn s ctx || !ocrCfg s (dRing s ctx) 6) then finish resBadArg s
  else
    let at' := if tbWicket s < cmdArg s then cmdArg s else tbWicket s + 1
    (slotsOf s ctx).foldl (slotFresh 0) s |> discardContribs ctx |> setDStart ctx at' |> enterState ctx stRunning
      |> (fun t => { t with results := t.results.filter (fun e => e.ctx != ctx) })
      |> modCtx ctx (fun r => { wrote := r.wrote, cuts := [(0, dIseq s ctx, jrnIndex s)] }) |> finish resDone

/-- The steps up to and with the `m` of PAUSE, as a number of steps (R320). A step-marked context has the step of the current
chip wicket as its open step, whatever marks have come (DEDUCED). -/
def pauseLimit (s : State) (ctx : Nat) : Nat :=
  let r := ctxRun s ctx
  let open' := if s.admTick < dStart s ctx then 0 else if dMarked s ctx then s.admTick - dStart s ctx + 1
    else if r.started then openStep s ctx + 1 else 0
  max open' (max r.highest r.released)

/-- Work of a context's slot on its core is dropped: happenings, operations, records and queue words. -/
def dropSlotWork (s : State) (p : Nat × Nat) : State :=
  let slot := p.2
  let keepF (f : FireRec) : Bool := f.slot != slot
  let s1 := modCore p.1 (fun k => { k with
    ops := (k.ops.map (·.filter (fun o => o.slot != slot))).filter (fun g => !g.isEmpty)
    late := k.late.filter (fun o => o.slot != slot), pre := k.pre.filter (fun r => r.slot != slot)
    preReady := k.preReady.filter (fun r => r.slot != slot), fire := k.fire.filter keepF, post := k.post.filter keepF
    postReady := k.postReady.filter keepF, soCmd := k.soCmd.filter (fun c => c.1 != slot)
    forming := (k.forming.map (·.filter (fun o => o.slot != slot))).filter (fun g => !g.isEmpty)
    sqOut := k.sqOut.filter (fun c => c.1 != slot), stepReady := k.stepReady.filter (fun c => c.1 != slot)
    somaAt := if (k.soCmd.head?.map (·.1)) = some slot then none else k.somaAt
    firePos := if (k.fire.head?.map (·.slot)) = some slot then 0 else k.firePos
    seCmd := k.seCmd.filter (fun c => c.1 != slot), ckptHold := k.ckptHold.filter (· != slot)
    fanout := (match k.fanout with
      | some f => if f.slot = slot then none else some f
      | none => none) }) s
  let s2 := (List.range 6).foldl (fun t e =>
    modEng p.1 e (fun g => { g with happen := g.happen.filter (fun h => h.slot != slot) }) t) (sqDrain p.1 s1)
  placeGroups p.1 (core s2 p.1).forming s2

/-- The first part of a CLEAR: the context stops, and its items in flight are refused with READER_RESET, which the judge of
R160 gives for a FAULTED slot. Until the zeroing the descriptor's STATE reads as its slots' does (R322; DEDUCED, log
entry 51). -/
def doClear (ctx : Nat) (s : State) : State :=
  (slotsOf s ctx).foldl dropSlotWork s |> leaveRun ctx |> setDState ctx stFaulted |> putSlots ctx stFaulted
    |> modCtx ctx (fun r => { r with clearing := true, shut := true })

/-- Item 1 of R342 for one context: RECOVERING, FAULTED slots, the held events removed without a record (R214), the
contributions discarded (R547), and a checkpoint in hand discarded (R348). -/
def beginRecovery (ctx : Nat) (s : State) : State :=
  let dropped := s.ckpts.filter (fun k => k.ctx == ctx)
  (slotsOf s ctx).foldl dropSlotWork s |> setDRecovering ctx true |> putSlots ctx stFaulted |> discardContribs ctx
    |> (fun t => { t with hold := t.hold.filter (fun h => h.ctx != ctx), ckpts := t.ckpts.filter (fun k => k.ctx != ctx),
                          results := t.results.filter (fun e => e.ctx != ctx) })
    |> (fun t => if dropped.isEmpty then t else t |> addSat Reg.jrn_CKPT_DISCARD_COUNT_COUNT dropped.length
        |> flagF Reg.jrn_JRN_EVENTS_EVENTS 2)
    |> modCtx ctx (fun r => { r with recovered := true, replay := none })

def doReset (ctx : Nat) (s : State) : State :=
  if dCkptValid s ctx = 0 then finish resNoCheckpoint s
  else
    let t := if dState s ctx = stFaulted then
        s |> setDState ctx stRunning
          |> modCtx ctx (fun r => { r with shut := false, limit := none, resuming := false, pausing := false })
      else s
    t |> leaveRecov ctx |> beginRecovery ctx |> startRecov ⟨[ctx], [], false⟩ |> finish resDone

def doDrain (ctx : Nat) (s : State) : State :=
  let n := cmdArg s % 2 ^ 16
  if n = 0 then finish resBadArg s
  else s |> modCtx ctx (fun r => { r with shut := true, limit := some (r.released + n) }) |> enterState ctx stDraining
    |> finish resDone

def doFree (ctx : Nat) (s : State) : State :=
  s |> leaveTo ctx stFree |> zeroLoadFields ctx |> (fun t => { t with ctxs := tdel ctx t.ctxs }) |> tailUpdate |> finish resDone

/-- From-states of a command (R320). -/
def fromOk (s : State) (op ctx : Nat) : Bool :=
  let st := dState s ctx
  let clr := st == stLoaded || st == stPaused || st == stOverrun || st == stFaulted || st == stRunning
  match op with
  | 1 => st == stFree
  | 2 => true
  | 3 => st == stLoaded
  | 4 => st == stRunning || st == stOverrun
  | 5 => st == stPaused
  | 6 => st == stOverrun
  | 7 => st == stRunning || st == stOverrun
  | 8 => if dProt s ctx then st == stRunning || st == stOverrun || st == stPaused || st == stFaulted else clr
  | 9 => clr
  | _ => st == stLoaded || st == stFaulted

/-- The effect of a command in a state it may be given in. -/
def runCmd (op ctx : Nat) (s : State) : State :=
  match op with
  | 1 => doLoad ctx s
  | 2 => doLoadImage s
  | 3 => doStart ctx s
  | 4 => modCtx ctx (fun r => { r with shut := true, limit := some (pauseLimit s ctx) }) s
  | 5 => modCtx ctx (fun r => { r with resuming := true }) s
  | 6 => s |> enterState ctx stRunning |> finish resDone
  | 7 => doDrain ctx s
  | 8 => if dProt s ctx then doReset ctx s else doClear ctx s
  | 9 => doClear ctx s
  | _ => doFree ctx s

/-- A context that the command names has RECOVERING = 1 (R322). -/
def namesRecovering (s : State) (op ctx : Nat) : Bool :=
  if op = 2 then imageFirst s + imageCount s ≤ 65536 && (imageIds s).any (dRecovering s) else dRecovering s ctx

/-- A command is judged: BAD_STATE, with nothing else changed, while a region is in P2 or on its way (R480); it waits while RECOVERING
is 1 (R322). -/
def judgeCmd (op ctx : Nat) (s : State) : State :=
  if (List.range 4).any (fun r => regionPresent s.variant r && regionDown s r) then finish resBadState s
  else
    let t := descCheck ctx s
    if namesRecovering t op ctx then { t with cttWaits := true }
    else if fromOk t op ctx then runCmd op ctx { t with cttWaits := false }
    else finish resBadState t

/-- A write of CTX_CMD (R319, R549). A stopping or disabled controller takes no command (R43). -/
def ctxCmd (p : Party) (op ctx : Nat) (s : State) : State :=
  csrEffect p Reg.ctt_CTX_CMD (fun t =>
    if isSet t Reg.ctt_CTX_CMD_STATUS_BUSY || !blkEnabled t Reg.ctt_BLK_CTRL || !isSet t Reg.ctt_BLK_CTRL_EN then
      flagF Reg.ctt_CTX_EVENTS_EVENTS 1 t
    else
      let u := { t with cttCmd := some (op, ctx) } |> setF Reg.ctt_CTX_CMD_STATUS_BUSY
        |> putF Reg.ctt_CTX_CMD_STATUS_LAST (op % 16 * 2 ^ 16 + ctx % 2 ^ 16)
      if op = 0 ∨ 10 < op then finish resBadOp u else judgeCmd op ctx u) s

/-- LOAD (R320). -/
def execLoad (p : Party) (ctx : Nat) (s : State) : Host.Outcome State Fault Refusal := live s (ctxCmd p 1 (ctx % 65536) s)
/-- LOAD_IMAGE (R320). -/
def execLoadImage (p : Party) (ctx : Nat) (s : State) : Host.Outcome State Fault Refusal := live s (ctxCmd p 2 (ctx % 65536) s)
/-- START (R320). -/
def execStart (p : Party) (ctx : Nat) (s : State) : Host.Outcome State Fault Refusal := live s (ctxCmd p 3 (ctx % 65536) s)
/-- PAUSE (R320). -/
def execPause (p : Party) (ctx : Nat) (s : State) : Host.Outcome State Fault Refusal := live s (ctxCmd p 4 (ctx % 65536) s)
/-- RESUME (R320). -/
def execResume (p : Party) (ctx : Nat) (s : State) : Host.Outcome State Fault Refusal := live s (ctxCmd p 5 (ctx % 65536) s)
/-- CLEAR_OVERRUN (R320). -/
def execClearOverrun (p : Party) (ctx : Nat) (s : State) : Host.Outcome State Fault Refusal := live s (ctxCmd p 6 (ctx % 65536) s)
/-- DRAIN (R320). -/
def execDrain (p : Party) (ctx : Nat) (s : State) : Host.Outcome State Fault Refusal := live s (ctxCmd p 7 (ctx % 65536) s)
/-- RESET (R320). -/
def execReset (p : Party) (ctx : Nat) (s : State) : Host.Outcome State Fault Refusal := live s (ctxCmd p 8 (ctx % 65536) s)
/-- CLEAR (R320). -/
def execClear (p : Party) (ctx : Nat) (s : State) : Host.Outcome State Fault Refusal := live s (ctxCmd p 9 (ctx % 65536) s)
/-- FREE (R320). -/
def execFree (p : Party) (ctx : Nat) (s : State) : Host.Outcome State Fault Refusal := live s (ctxCmd p 10 (ctx % 65536) s)
/-- CTX_CMD_BAD_OP (R320). -/
def execCtxCmdBadOp (p : Party) (op ctx : Nat) (s : State) : Host.Outcome State Fault Refusal :=
  live s (if op % 16 = 0 ∨ 10 < op % 16 then ctxCmd p (op % 16) (ctx % 65536) s else s)

/-- CTX_CMD_WAIT_END (R322): the wait for a recovery, or of a LOAD_IMAGE for a channel in training, is over. -/
def execCtxCmdWaitEnd (s : State) : Host.Outcome State Fault Refusal :=
  live s (match s.cttCmd with
    | some (op, ctx) => if s.cttWaits && !namesRecovering s op ctx then judgeCmd op ctx s else s
    | none => s)

/-- The pausing context has completed step `m`, and none of its cores applies an innings boundary (R275). -/
def pauseReady (s : State) (ctx : Nat) : Bool :=
  (match (ctxRun s ctx).limit with
   | some n => decide (n ≤ (ctxRun s ctx).complete)
   | none => false) && (coresOfCtx s ctx).all (fun c => (core s c).applying.isNone)

/-- PAUSE_COMPLETE (R320, R389). -/
def execPauseComplete (ctx : Nat) (s : State) : Host.Outcome State Fault Refusal :=
  live s (if (inHand s 4 ctx || (ctxRun s ctx).pausing) && (dState s ctx == stRunning || dState s ctx == stOverrun) &&
      !dRecovering s ctx && pauseReady s ctx then
    let t := s |> enterState ctx stPaused |> modCtx ctx (fun r => { r with pausing := false })
    if inHand s 4 ctx then finish resDone t else t
  else s)

/-- DRAIN_COMPLETE (R321). -/
def execDrainComplete (ctx : Nat) (s : State) : Host.Outcome State Fault Refusal :=
  live s (if dState s ctx == stDraining && !dRecovering s ctx && (match (ctxRun s ctx).limit with
      | some n => decide (n ≤ (ctxRun s ctx).complete)
      | none => false) then
    s |> leaveTo ctx stLoaded |> modCtx ctx (fun r => { r with limit := none }) else s)

/-! ### The zeroing of a CLEAR (R320) -/

/-- An event of the context, or a pair for a queue of one of its slots. -/
def itemOf (s : State) (ctx : Nat) (p : Packet) : Bool :=
  (p.ty == .event && evCtx (BitVec.ofNat 64 p.data) == ctx) ||
  (p.ty == .qsend && (slotsOf s ctx).any (fun q => p.dst == 4 * q.1 && qSlot s q.1 (p.ext % 64) == q.2))

/-- An item of the context is still in flight, unjudged, or refused and not yet recorded by its sender. -/
def itemsInFlight (s : State) (ctx : Nat) : Bool :=
  s.fab.waiting.any (itemOf s ctx) || s.fab.retx.any (fun e => itemOf s ctx e.pkt) ||
  s.fab.flights.any (fun f => itemOf s ctx f.pkt) ||
  s.cores.any (fun k => k.2.send.any (fun i => evCtx i.word == ctx) || k.2.ingress.any (fun v => evCtx v.word == ctx) ||
    k.2.hold.any (fun v => evCtx v.word == ctx) || k.2.arrivals.any (fun a => itemOf s ctx a.pkt))

/-- The delay slots of neuron `i` of a core, as window offsets. -/
def ringOffs (s : State) (c i : Nat) : List Nat :=
  let r := readRec s c i
  let k := classOf s c r.cls
  (List.range (ringDepth k)).map (delayOff r k)

/-- Zero V, DEND, LAST, REFC and TRACE of a neuron, and its delay slots. -/
def zeroNeuron (c : Nat) (s : State) (i : Nat) : State :=
  (ringOffs s c i).foldl (fun t o => zeroMem (coreBase c + o) 4 t)
    (s |> writeSoma c i { readRec s c i with v := 0, dend := 0, last := 0, refc := 0 } |> writeTrace c i 0)

/-- The local queues whose SLOT is the slot. -/
def queuesOf (s : State) (c slot : Nat) : List Nat := (List.range 64).filter (fun q => qSlot s c q == slot)

/-- Zero a queue: its entries and its pointers; what configures it stays. -/
def zeroQueue (c : Nat) (s : State) (q : Nat) : State :=
  s |> zeroMem (qEntry c q 0) 128 |> wrBits (qDesc c q) 64 9 0 |> setQProd c q 0 |> setQCons c q 0 |> setOrigins c q []
    |> modCore c (fun k => { k with ringLeft := tdel q k.ringLeft, ringTake := tdel q k.ringTake })

def zeroSlot (s : State) (p : Nat × Nat) : State :=
  let s1 := ((List.range (slotNCount s p.1 p.2 + 1)).map (slotNBase s p.1 p.2 + ·)).foldl (zeroNeuron p.1) s
  (queuesOf s1 p.1 p.2).foldl (zeroQueue p.1) s1

/-- CLEAR_ZEROING (R320, R549). -/
def execClearZeroing (ctx : Nat) (s : State) : Host.Outcome State Fault Refusal :=
  live s (if (ctxRun s ctx).clearing && !itemsInFlight s ctx then
    (slotsOf s ctx).foldl (fun t p => dropSlotWork (zeroSlot t p) p) s
      |> zeroLoadFields ctx |> wrWords (latestAt ctx) 0 2 |> enterState ctx stLoaded |> tailUpdate
      |> (fun t => { t with ctxs := tset ctx {} t.ctxs, results := t.results.filter (fun e => e.ctx != ctx) })
      |> (fun t => if t.cttCmd = some (8, ctx) ∨ t.cttCmd = some (9, ctx) then finish resDone t else t)
  else s)

/-! ### Field updates (R318) -/

/-- DESCRIPTOR_FIELD_UPDATE (R317, R318): one update of one field, in both copies. They continue when the block is stopped
(R43). -/
def execDescriptorFieldUpdate (ctx : Nat) (u : FieldUpdate) (s : State) : Host.Outcome State Fault Refusal :=
  live s (if 65536 ≤ ctx then s else
    let t := descCheck ctx s
    match u with
    | .state v =>
      if v = stFaulted then leaveTo ctx stFaulted t
      else if v = stOverrun ∧ dState t ctx = stRunning then enterState ctx stOverrun t else t
    | .startAt v => setDStart ctx v t
    | .recovering v => setDRecovering ctx v t
    | .fault v => dPut ctx 10 3 v t
    | .iseq v => dPut ctx 192 64 v t
    | .refusals v => dPut ctx 384 32 v t
    | .oseq v => dPut ctx 256 32 v t
    | .oseqHigh v => dPut ctx 288 32 v t
    | .trigStep v => dPut ctx 416 32 v t
    | .result v => dPut ctx 448 64 v t
    | .ckptNew v => dPut ctx 7 1 v t
    | .ckptValid v => t |> dPut ctx 8 2 v |> tailUpdate)

/-! ### Wickets (R209, R219, R335) -/

/-- The released wicket reaches every core of the context. -/
def releaseTo (ctx n : Nat) (s : State) : State :=
  (slotsOf s ctx).foldl (fun t p => modCore p.1 (fun k => { k with released := tset p.2 (n + 1) k.released }) t) s
    |> modCtx ctx (fun r => { r with released := n + 1 }) |> boundariesDue ctx

/-- A checkpoint is due at wicket `n` (R335). -/
def ckptDue (s : State) (ctx n : Nat) : Bool := dProt s ctx && (n == 0 || (n + dPhase s ctx) % dK s ctx == 0)

/-- Each core holds wicket `n` for the slots of the context until they have been read out. -/
def holdForCkpt (ctx : Nat) (s : State) : State :=
  (slotsOf s ctx).foldl (fun t p => modCore p.1 (fun k => { k with ckptHold := p.2 :: k.ckptHold }) t) s

/-- A wicket ahead of the chip wicket: a step-marked context with a credit, at most two steps ahead (R219). -/
def aheadOk (s : State) (ctx n : Nat) : Bool :=
  dMarked s ctx && decide (0 < (ctxRun s ctx).credits) && decide (dStart s ctx + n ≤ tbWicket s + 2)

/-- The next wicket of the context may be released. -/
def mayRelease (s : State) (ctx : Nat) : Bool :=
  let r := ctxRun s ctx
  inHold s ctx && !dRecovering s ctx && decide (r.released ≤ r.complete) &&
  (match r.limit with
   | some l => decide (r.released < l)
   | none => true) &&
  (decide (dStart s ctx + r.released ≤ tbWicket s) || aheadOk s ctx r.released)

/-- WICKET_RELEASE (R209, R219, R370). -/
def execWicketRelease (ctx : Nat) (s : State) : Host.Outcome State Fault Refusal :=
  live s (if mayRelease s ctx then
    let n := (ctxRun s ctx).released
    let t := if dStart s ctx + n ≤ tbWicket s then s else modCtx ctx (fun r => { r with credits := r.credits - 1 }) s
    let u := if ckptDue s ctx n then holdForCkpt ctx t else t
    let v := releaseTo ctx n u
    if n = 0 then v else closeWindows ctx (n - 1) v
  else s)

/-! ### Step-done (R208) -/

/-- STEP_DONE_COMBINE (R208, R325): a contribution reaches the chip stage and is added, with wrapping, to the sum of its tag. At
the contributor count the context's open step of that tag is complete. The adder has the width of CONTRIB, and a sum that
reaches the count under the tag of another step is spent (DESIGN CHOICE, log entry 52). -/
def execStepDoneCombine (s : State) : Host.Outcome State Fault Refusal :=
  live s (match s.contribs with
    | [] => s
    | k :: rest =>
      let t := { s with contribs := rest }
      let sum := (tget 0 (sumKey k.ctx k.step) s.sums + 1) % 2 ^ 11
      if sum = dContrib s k.ctx then
        let u := { t with sums := tdel (sumKey k.ctx k.step) t.sums }
        if k.step % 4 = (ctxRun s k.ctx).complete % 4 then
          u |> formRecord k.ctx (ctxRun s k.ctx).complete |> modCtx k.ctx (fun r => { r with complete := r.complete + 1 })
        else u
      else { t with sums := tset (sumKey k.ctx k.step) sum t.sums })

end Sys2Proof.Machine
end

