-- ==== Sys2Proof/Machine/Timers.lean ====
section
/-! DEFINITION. The timers (R433-R445) and the event recorder's commands (R446-R453). -/

namespace Sys2Proof.Machine

/-! ### Counting, matches and overflows (R433-R441, R444) -/

def tmrCount (s : State) (n : Nat) : Nat := getF s (Reg.tmr_TMR_COUNT_COUNT n)
def setTmrCount (n v : Nat) (s : State) : State := putF (Reg.tmr_TMR_COUNT_COUNT n) v s
def tmrOn (s : State) (n : Nat) : Bool := isSet s (Reg.tmr_TMR_CFG_EN n)

/-- The last happening on COUNT of timer `n` was a match no longer. -/
def unmatch (n : Nat) (s : State) : State := { s with timers := { s.timers with matched := s.timers.matched.filter (· != n) } }

/-- An event of master `m` (0 match, 1 overflow, 2 OUT rising) waits for the next cycle if a timer is linked to it. -/
def masterHas (m kind : Nat) (s : State) : State :=
  if (List.range 32).any (fun n => masterOf s n == some m && mevent s n == kind) then
    { s with timers := { s.timers with events := s.timers.events ++ [(m, kind)] } }
  else s

/-- A happening of timer `n`: bit `i` of TMR_EVENTS, and an occurrence of its SIC source where IRQ_EN selects it (R444). -/
def tmrHappens (n i : Nat) (s : State) : State :=
  let t := flagF (Reg.tmr_TMR_EVENTS_EVENTS n) i s
  if bitN (getF s (Reg.tmr_TMR_CFG_IRQ_EN n)) i then sicEdge (65 + n) t else t

/-- A match of timer `n` (R439, R441). EN of a one-shot timer falls with it. -/
def tmrMatch (n : Nat) (s : State) : State :=
  let out := getF s (Reg.tmr_TMR_STATUS_OUT n)
  s |> tmrHappens n 0 |> masterHas n 0 |> putF (Reg.tmr_TMR_STATUS_OUT n) (1 - out)
    |> (fun t => if out = 0 then masterHas n 2 t else t)
    |> (fun t => if isSet t (Reg.tmr_TMR_CFG_ONESHOT n) then clrF (Reg.tmr_TMR_CFG_EN n) t else t)
    |> (fun t => { t with timers := { t.timers with matched := n :: t.timers.matched.filter (· != n) } })

/-- Count and compare value of the group of timers `low` to `low + k`, as numbers. -/
def groupNum (f : Nat → Nat) (low : Nat) : Nat → Nat
  | 0 => f low
  | k + 1 => f low + 2 ^ 32 * groupNum f (low + 1) k

def groupCount (s : State) (low top : Nat) : Nat := groupNum (tmrCount s) low (top - low)
def groupCompare (s : State) (low top : Nat) : Nat :=
  groupNum (fun n => getF s (Reg.tmr_TMR_COMPARE_COMPARE n)) low (top - low)

/-- One count enters timer `n` and carries run up to timer `n + k` at most; whether it leaves that one (R433, R436). A timer of `rs`
has taken a reset in the cycle, in place of its increment (R437). -/
def countMembers (rs : List Nat) (n : Nat) : Nat → State → State × Bool
  | 0, s =>
    if !tmrOn s n || rs.contains n then (s, false)
    else if tmrCount s n = 0xFFFFFFFF then (s |> setTmrCount n 0 |> tmrHappens n 1 |> masterHas n 1, true)
    else (setTmrCount n (tmrCount s n + 1) s, false)
  | k + 1, s =>
    if !tmrOn s n || rs.contains n then (s, false)
    else if tmrCount s n = 0xFFFFFFFF then countMembers rs (n + 1) k (s |> setTmrCount n 0 |> tmrHappens n 1 |> masterHas n 1)
    else (setTmrCount n (tmrCount s n + 1) s, false)

/-- An increment of the group whose lowest member is `low`, and the carries above it (R436, R439, R440). -/
def countGroup (rs : List Nat) (low : Nat) : Nat → State → State
  | 0, s => s
  | fuel + 1, s =>
    if !tmrOn s low || rs.contains low then s
    else
      let top := groupTop s low
      let clear := s.timers.matched.contains top && isSet s (Reg.tmr_TMR_CFG_CLR_ON_MATCH top)
      let r := countMembers rs low (top - low) s
      let s1 := if clear then (List.range (top - low + 1)).foldl (fun t i => setTmrCount (low + i) 0 t) r.1 else r.1
      let s2 := unmatch top s1
      let s3 := if groupCount s2 low top = groupCompare s2 low top then tmrMatch top s2 else s2
      if r.2 && decide (top + 1 < 32) && chained s (top + 1) then countGroup rs (top + 1) fuel s3 else s3

/-- One event of the clock source of timer `n`, the base of a chain, while the timers of `rs` take a reset. -/
def tmrClock (rs : List Nat) (n : Nat) (s : State) : State := if tmrOn s n && gateOpen s n then countGroup rs n 32 s else s

/-- TIMER_EVENT (R433): a cycle of AON_CLK or a tick; overflows and master events come to a timer from the other one. -/
def execTimerEvent (n : Nat) (s : State) : Host.Outcome State Fault Refusal :=
  live s (if n < 32 ∧ (clkSrc s n = 0 ∨ clkSrc s n = 2) then tmrClock [] n s else s)

/-! ### Captures (R442) -/

def tmrCapture (n : Nat) (s : State) : State :=
  let t := if isSet s (Reg.tmr_TMR_CAP_NEW n) then flagF (Reg.tmr_TMR_EVENTS_EVENTS n) 3 s else s
  t |> putF (Reg.tmr_TMR_CAP_VALUE n) (tmrCount s n) |> setF (Reg.tmr_TMR_CAP_NEW n) |> tmrHappens n 2

/-- The capture source of a timer, with its edge where it has one. -/
def capSource (s : State) (n : Nat) : Nat × Nat :=
  let c := getF s (Reg.tmr_TMR_CFG_CAP_SRC n)
  (c, if 1 ≤ c ∧ c ≤ 4 then getF s (Reg.tmr_TMR_CFG_CAP_EDGE n) else 0)

/-- The timers that capture with timer `n`: itself and those of its chain that share its source. -/
def captureWith (s : State) (n : Nat) : List Nat :=
  let b := chainBase s n
  ((List.range (chainLen s b)).map (b + ·)).filter (fun k => k == n || capSource s k == capSource s n)

/-- CAPTURE (R442): an edge of a trigger input, or a tick. -/
def execCapture (n : Nat) (s : State) : Host.Outcome State Fault Refusal :=
  let c := (capSource s n).1
  live s (if n < 32 ∧ (1 ≤ c ∧ c ≤ 4 ∨ c = 6) then (captureWith s n).foldl (fun t k => tmrCapture k t) s else s)

/-! ### Master events (R438) -/

/-- A master's reset of timer `n`. -/
def tmrReset (n : Nat) (s : State) : State := s |> setTmrCount n 0 |> unmatch (groupTop s n)

/-- What the slaves `ns` do at an event of their master, in the order of R437: resets stand in place of increments, those of a carry
too; the others count; then the starts, and the captures of the resulting counts. -/
def slavesReact (ns : List Nat) (s : State) : State :=
  let rs := ns.filter (fun n => isSet s (Reg.tmr_TMR_LINK_RST n))
  let s1 := rs.foldl (fun t n => tmrReset n t) s
  let s2 := (ns.filter (fun n => !rs.contains n && clkSrc s n == 3)).foldl (fun t n => tmrClock rs n t) s1
  let s3 := (ns.filter (fun n => isSet s (Reg.tmr_TMR_LINK_START n))).foldl (fun t n => setF (Reg.tmr_TMR_CFG_EN n) t) s2
  (ns.filter (fun n => getF s (Reg.tmr_TMR_CFG_CAP_SRC n) == 5)).foldl (fun t n => tmrCapture n t) s3

/-- MASTER_EVENT (R438). -/
def execMasterEvent (s : State) : Host.Outcome State Fault Refusal :=
  live s (match s.timers.events with
    | [] => s
    | (m, kind) :: rest =>
      slavesReact ((List.range 32).filter (fun n => masterOf s n == some m && mevent s n == kind))
        { s with timers := { s.timers with events := rest } })

/-! ### Writes and reads (R439, R440, R443, R445) -/

/-- A write of COMPARE takes effect on the group `low` to `top`: held values first, then the match of R439. -/
def compareApply (low top : Nat) (v : Word) (s : State) : State :=
  let t := (List.range (top - low)).foldl (fun u i => match tfind (low + i) u.timers.heldCmp with
      | some h => putF (Reg.tmr_TMR_COMPARE_COMPARE (low + i)) h.toNat
          { u with timers := { u.timers with heldCmp := tdel (low + i) u.timers.heldCmp } }
      | none => u) s
    |> putF (Reg.tmr_TMR_COMPARE_COMPARE top) v.toNat
  let m := 2 ^ (32 * (top - low + 1))
  if 2 * ((groupCount t low top + m - groupCompare t low top) % m) < m then tmrMatch top t else t

def compareWrite (n : Nat) (v : Word) (s : State) : State :=
  if groupTop s n = n then compareApply (groupLow s n) n v s
  else { s with timers := { s.timers with heldCmp := tset n v s.timers.heldCmp } }

/-- COMPARE_WRITE (R439, R440). -/
def execCompareWrite (p : Party) (n : Nat) (v : Word) (s : State) : Host.Outcome State Fault Refusal :=
  live s (if n < 32 then csrEffect p (Reg.tmr_TMR_COMPARE n) (compareWrite n v) s v else s)

/-- Bit `n` of `v` puts EN of timer `n`. -/
def putEns (b : Nat) (v : Word) (s : State) : State :=
  (List.range 32).foldl (fun t n => if v.getLsbD n then putF (Reg.tmr_TMR_CFG_EN n) b t else t) s

/-- TMR_START (R445). -/
def execTmrStart (p : Party) (v : Word) (s : State) : Host.Outcome State Fault Refusal :=
  live s (csrEffect p Reg.tmr_TMR_START (putEns 1 v) s)

/-- TMR_STOP (R445). -/
def execTmrStop (p : Party) (v : Word) (s : State) : Host.Outcome State Fault Refusal :=
  live s (csrEffect p Reg.tmr_TMR_STOP (putEns 0 v) s)

/-- The requester's shadows of chain counts, or captures, are replaced (R443). -/
def latchTimers (p : Party) (cap : Bool) (base : Nat) (s : State) : State :=
  if hasShadow p then
    let f (i : Nat) : Word := rdWord s (if cap then Reg.tmr_TMR_CAP (base + 1 + i) else Reg.tmr_TMR_COUNT (base + 1 + i))
    let rest := s.timers.shadows.filter (fun h => !(h.p == requester p && h.cap == cap))
    let new : TmrShadow := ⟨requester p, cap, base, (List.range (chainLen s base - 1)).map f⟩
    { s with timers := { s.timers with shadows := new :: rest } }
  else s

/-- A read of the COUNT, or of the low word of CAP, of timer `n` at `a`, its register or the peek alias: a read of a chain's
base latches the shadows, through the alias too (R31, R443). -/
def timerRead (p : Party) (a n : Nat) (cap : Bool) (hw : Word) (s : State) : Word × State :=
  let r := readWord p a hw s
  (r.1, if n = chainBase s n then latchTimers p cap n r.2 else r.2)

/-- TIMER_CHAIN_READ (R443). -/
def execTimerChainRead (p : Party) (n : Nat) (cap : Bool) (s : State) : Host.Outcome State Fault Refusal :=
  live s (if n < 32 then csrDo p (if cap then Reg.tmr_TMR_CAP n else Reg.tmr_TMR_COUNT n) read32 (fun t =>
      let r := timerRead p (if cap then Reg.tmr_TMR_CAP n else Reg.tmr_TMR_COUNT n) n cap 0 t
      { r.2 with reply := .data r.1.toNat }) s
    else s)

/-! ### The recorder's commands -/

/-- REC_SEED (R447): the clock takes the seed, and a record holds bits [31:0] of its time before and after. -/
def seedClock (lo hi : Word) (s : State) : State :=
  let before := recTime s
  let t := { s with recorder := { s.recorder with hours := lo.toNat % 2 ^ 20, seconds := lo.toNat / 2 ^ 20
                                                  powerCycles := hi.toNat % 2 ^ 24, micros := 0, cycles := 0 } }
    |> setF Reg.rec_REC_STATUS_SEEDED
  record 0x20 4 (before % 2 ^ 32) (recTime t % 2 ^ 32) t

/-- REC_SEED: the write of its high word (R38, R447). -/
def execRecSeed (p : Party) (hi : Word) (s : State) : Host.Outcome State Fault Refusal :=
  live s (csrPair p Reg.rec_REC_SEED hi (fun lo t => t |> noteRsv (Reg.rec_REC_SEED + 4) hi |> seedClock lo hi) s)

/-- REC_SW_CODE (R449). -/
def execRecSwCode (p : Party) (v : Word) (s : State) : Host.Outcome State Fault Refusal :=
  live s (csrEffect p Reg.rec_REC_SW_CODE (fun t =>
    let u := noteRsv Reg.rec_REC_SW_CODE v t
    if v.toNat % 2 ^ 16 < 0x8000 then flagF Reg.rec_REC_EVENTS_EVENTS 2 u
    else record v.toNat 8 (recArg u p 0) (recArg u p 1) u) s)

/-- RECORDER_FREEZE (R452). -/
def execRecorderFreeze (p : Party) (s : State) : Host.Outcome State Fault Refusal :=
  live s (csrEffect p Reg.rec_REC_CMD (setF Reg.rec_REC_STATUS_FROZEN) s)

/-- The pending records are written in SEQ order. -/
def thaw (s : State) : State :=
  s.recorder.pend.foldl (fun t w => recWrite w t)
    (clrF Reg.rec_REC_STATUS_FROZEN { s with recorder := { s.recorder with pend := [] } })

/-- RECORDER_THAW (R452). -/
def execRecorderThaw (p : Party) (s : State) : Host.Outcome State Fault Refusal :=
  live s (csrEffect p Reg.rec_REC_CMD thaw s)

/-- RECORDER_CLEAR (R452). -/
def execRecorderClear (p : Party) (s : State) : Host.Outcome State Fault Refusal :=
  live s (csrEffect p Reg.rec_REC_CMD (fun t =>
    t |> putF Reg.rec_REC_STATUS_INDEX 0
      |> putF Reg.rec_REC_EVENTS_EVENTS (getF t Reg.rec_REC_EVENTS_EVENTS / 2 * 2)) s)

end Sys2Proof.Machine
end

