-- ==== Sys2Proof/Machine/Cluster.lean ====
section
/-! DEFINITION. The application cluster and the System Interrupt Controller (R381-R392). -/

namespace Sys2Proof.Machine

def modCluster (f : Cluster → Cluster) (s : State) : State := { s with cluster := f s.cluster }

def clEvent (i : Nat) (s : State) : State := flagF Reg.cl_CL_EVENTS_EVENTS i s

/-- CLUSTER_UP has changed (R388): a fall sets its event and starts the grace timer, a rise stops it. -/
def clusterNote (s : State) : State :=
  let up := clusterUp s
  if s.cluster.up = up then s
  else if up then modCluster (fun k => { k with up := true, grace := false }) s
  else s |> modCluster (fun k => { k with up := false, grace := true }) |> clEvent 18

def coreRuns (s : State) (n : Nat) : Bool := bitN (getF s Reg.cl_CL_CORE_STATUS_RUN) n

/-- Application core `n` runs from CL_RESET_VEC, in machine mode; it has not kicked since. -/
def releaseApp (n : Nat) (s : State) : State :=
  s |> modHart n (fun h => { h with pc := 4 * getF s Reg.cl_CL_RESET_VEC_VEC }) |> putF Reg.cl_CL_CORE_STATUS_RUN (setBitN (getF s Reg.cl_CL_CORE_STATUS_RUN) n true)
    |> putF Reg.cl_CL_CORE_STATUS_HELD (setBitN (getF s Reg.cl_CL_CORE_STATUS_HELD) n false)
    |> modCluster (fun k => { k with kicked := k.kicked.filter (· != n) })

/-- Application core `n` is reset and held (its registers take the values of `Hart`, log entry 63). -/
def holdApp (n : Nat) (s : State) : State :=
  s |> modHart n (fun _ => {}) |> putF Reg.cl_CL_CORE_STATUS_RUN (setBitN (getF s Reg.cl_CL_CORE_STATUS_RUN) n false)
    |> putF Reg.cl_CL_CORE_STATUS_HELD (setBitN (getF s Reg.cl_CL_CORE_STATUS_HELD) n true)
    |> modCluster (fun k => { k with kicked := k.kicked.filter (· != n) })

/-- The lead core is released, and no other (R382). -/
def releaseLead (s : State) : State := s |> releaseApp (getF s Reg.cl_CL_CFG_LEAD) |> clusterNote

/-- CL_RELEASE (R382): a core that runs already runs on. -/
def execClRelease (p : Party) (v : Word) (s : State) : Host.Outcome State Fault Refusal :=
  live s (csrEffect p Reg.cl_CL_RELEASE (fun t =>
    (List.range 8).foldl (fun u n => if v.getLsbD n && !coreRuns u n then releaseApp n u else u)
      (noteRsv Reg.cl_CL_RELEASE v t) |> clusterNote) s v)

/-- The watchdog of core `n` counts: EN, and the core is out of reset. -/
def wdogOn (s : State) (n : Nat) : Bool := decide (n < 8) && isSet s (Reg.cl_CL_WDOG_EN n) && coreRuns s n

/-- CL_KICK (R387, R388). -/
def execClKick (p : Party) (n : Nat) (s : State) : Host.Outcome State Fault Refusal :=
  live s (if n < 8 then csrEffect p (Reg.cl_CL_KICK n) (fun t =>
    if wdogOn t n then t |> modCluster (fun k => { k with kicked := n :: k.kicked.filter (· != n) }) |> clusterNote else t) s
  else s)

/-- WDOG_WARN (R387). -/
def execWdogWarn (n : Nat) (s : State) : Host.Outcome State Fault Refusal :=
  live s (if wdogOn s n then clEvent (8 + n) s else s)

/-- WDOG_RESET (R387): the core restarts, or stays held. -/
def execWdogReset (n : Nat) (s : State) : Host.Outcome State Fault Refusal :=
  live s (if wdogOn s n then
    let t := s |> clEvent n |> record 2 2 n 0 |> raiseUp 3 3 13 n 0 |> holdApp n
    (if bitN (getF t Reg.cl_CL_CFG_RESTART) n then releaseApp n t else t) |> clusterNote
  else s)

/-- L2_UNCORR (R385): the whole cluster is reset and restarts as at R382. CLUSTER_UP falls with the reset, and the lead core
is released again. -/
def execL2Uncorr (s : State) : Host.Outcome State Fault Refusal :=
  live s (clEvent 17 s |> (fun t => (List.range 8).foldl (fun u n => holdApp n u) t) |> clusterNote
    |> (fun t => { t with fw := {} }) |> releaseLead)

/-- POSTED_STORE_ERROR (R384). -/
def execPostedStoreError (n addr : Nat) (s : State) : Host.Outcome State Fault Refusal :=
  live s (storeFailed n addr s)

/-- A rise of CLUSTER_UP by a register write of CL_CFG or CL_WDOG (R388). -/
def clusterRise (s : State) : State := if clusterUp s then clusterNote s else s

/-- CLUSTER_DOWN (R388): a register write, of CL_CFG or CL_WDOG, has ended the condition of CLUSTER_UP. -/
def execClusterDown (s : State) : Host.Outcome State Fault Refusal := live s (clusterNote s)

/-- The PAUSE that the chip fault manager gives (R389). -/
def givePause (s : State) (ctx : Nat) : State :=
  modCtx ctx (fun r => { r with shut := true, pausing := true, limit := some (pauseLimit s ctx) }) s

/-- GRACE_EXPIRED (R389). -/
def execGraceExpired (s : State) : Host.Outcome State Fault Refusal :=
  live s (if s.cluster.grace && !clusterUp s then
    let paused := (ctxList s).filter (fun c => dState s c == stRunning || dState s c == stOverrun)
    paused.foldl givePause (modCluster (fun k => { k with grace := false }) s)
      |> clEvent 19 |> record 3 2 paused.length 0 |> raiseUp 3 3 14 0 paused.length
  else s)

/-! ### The System Interrupt Controller (R391, R392) -/

/-- The machine timer and software interrupts of application core `n` (R386), and MEIP or SEIP of a delivery context (R391). -/
def timerIrq (s : State) (n : Nat) : Bool := decide (getF s (Reg.cl_CL_MTIMECMP_TIME n) ≤ getF s Reg.cl_CL_MTIME_TIME)
def softIrq (s : State) (n : Nat) : Bool := isSet s (Reg.cl_CL_MSIP_MSIP n)
def extIrq (s : State) (x : Nat) : Bool := (sicBest s x).isSome

/-- A claim of delivery context `x`: the source it returns, pending no longer and in service. -/
def sicTake (x : Nat) (s : State) : Nat × State :=
  match sicBest s x with
  | none => (0, s)
  | some n =>
    let k := { s.sic with edge := s.sic.edge.filter (· != n), inService := n :: s.sic.inService.filter (· != n) }
    (2 ^ 31 + n, { s with sic := k })

/-- SIC_CLAIM (R391). -/
def execSicClaim (p : Party) (x : Nat) (s : State) : Host.Outcome State Fault Refusal :=
  live s (if x < 16 then csrDo p (Reg.sic_SIC_CLAIM x) read32 (fun t =>
      let r := sicTake x t
      { r.2 with reply := .data r.1 }) s
    else s)

/-- SIC_COMPLETE (R391). -/
def execSicComplete (p : Party) (x n : Nat) (s : State) : Host.Outcome State Fault Refusal :=
  live s (if x < 16 then csrEffect p (Reg.sic_SIC_CLAIM x) (fun t =>
      { t with sic := { t.sic with inService := t.sic.inService.filter (· != n) } }) s
    else s)

/-- SIC_HOST_DONE (R392). -/
def execSicHostDone (p : Party) (n : Nat) (s : State) : Host.Outcome State Fault Refusal :=
  live s (csrEffect p Reg.sic_SIC_HOST_DONE (hostDone (n % 1024)) s)

/-- Vector `v` is masked no longer, and the function is not: its message is sent if its PBA bit is set and a source on it is still
host-pending (R392). -/
def unmaskVec (v : Nat) (s : State) : State :=
  if s.sic.pba.contains v && !vecMasked s v then
    let t := { s with sic := { s.sic with pba := s.sic.pba.filter (· != v) } }
    if s.sic.host.any (fun n => getF s (Reg.sic_SIC_SRC_VECTOR n) == v) then msixSend v t else t
  else s

/-- MSIX_UNMASK (R392, R397). -/
def execMsixUnmask (p : Party) (vec : Nat) (s : State) : Host.Outcome State Fault Refusal :=
  live s (if vec < 2048 then
    csrEffect p (Reg.msix_MSIX vec + 12) (fun t => t |> clrF (Reg.msix_MSIX_MASK vec) |> unmaskVec vec) s
  else s)

end Sys2Proof.Machine
end

