-- ==== Sys2Proof/Machine/Journal.lean ====
section
/-! DEFINITION. The journal and checkpoint engine: journal rings, checkpoints and their restore, and replay (R330-R337,
R342-R344, R550, R551). -/

namespace Sys2Proof.Machine

/-! ### Journal rings (R330-R334) -/

def jrnState (s : State) (i : Nat) : Bool := bitN (getF s Reg.jrn_JRN_STATUS_STATE) i
def setJrnState (i : Nat) (v : Bool) (s : State) : State :=
  putF Reg.jrn_JRN_STATUS_STATE (setBitN (getF s Reg.jrn_JRN_STATUS_STATE) i v) s
def degraded (s : State) : Bool := jrnState s 0
def resyncing (s : State) : Bool := jrnState s 1
/-- The failed group: 0 A, 1 B. -/
def failedGroup (s : State) : Nat := bnat (jrnState s 2)

/-- A channel of group `g` is failed or being retrained, so that the engine cannot use it (R334, R426). -/
def groupBroken (s : State) (g : Nat) : Bool :=
  (List.range (memChannels s.variant)).any (fun ch =>
    groupOf s.variant ch == g && (chState s ch == chRetraining || chState s ch == chFailed))

/-- The copy of group `g` is usable. Once a copy has failed, the other carries the journal until it fails as well. -/
def groupUsable (s : State) (g : Nat) : Bool := !(degraded s && (failedGroup s == g || s.jrnOff || groupBroken s g))

def jrnBase (s : State) (g : Nat) : Nat :=
  2 ^ 21 * (if g = 0 then getF s Reg.jrn_JRN_BASE_A_BASE else getF s Reg.jrn_JRN_BASE_B_BASE)

/-- The address of record `i` in the ring of group `g`. -/
def jrnAt (s : State) (g i : Nat) : Nat := jrnBase s g + 16 * (i % jrnSize s)

/-- Checkpoints being written into a buffer are discarded (R335, R348). -/
def discardCkpts (f : Ckpt → Bool) (s : State) : State :=
  let n := s.ckpts.countP f
  if n = 0 then s
  else { s with ckpts := s.ckpts.filter (fun k => !f k) } |> addSat Reg.jrn_CKPT_DISCARD_COUNT_COUNT n
    |> flagF Reg.jrn_JRN_EVENTS_EVENTS 2

/-- Every checkpoint in group `g` is invalid, and one being written there is discarded (item 2 of R334). -/
def dropGroup (g : Nat) (s : State) : State :=
  (ctxList s).foldl (fun u c => if bitN (dCkptValid u c) g then dPut c 8 2 (setBitN (dCkptValid u c) g false) u else u) s
    |> discardCkpts (fun k => k.buf == g) |> tailUpdate

/-- JOURNAL_DEGRADE (R334): the copy of group `g` becomes unusable. A copy into a returned ring that was in progress ends. With
the other group failed already, that one stays the failed group of JRN_STATUS, and neither ring is written until one returns. -/
def degrade (g : Nat) (s : State) : State :=
  let second := degraded s && failedGroup s != g
  (if second then { s with jrnOff := true }
    else { s with jrnBack := false, jrnOff := degraded s && s.jrnOff
                  jrnMark := if degraded s then s.jrnMark else getF s Reg.jrn_JRN_HEAD_INDEX })
    |> setJrnState 0 true |> setJrnState 1 false |> setJrnState 2 (if degraded s then jrnState s 2 else g == 1)
    |> flagF Reg.jrn_JRN_EVENTS_EVENTS 0 |> dropGroup g

/-- A channel of group `g` has been retrained and the group is whole: the copy into the returned ring begins (item 3 of R334).
With both copies unusable it is that from the ring that holds every record: a ring that has missed records waits for the other,
and one that has missed none carries the journal on (DESIGN CHOICE, log entry 66). -/
def jrnReturn (g : Nat) (s : State) : State :=
  if !degraded s then s
  else if failedGroup s == g then
    if !s.jrnOff then setJrnState 1 true { s with jrnBack := true }
    else if s.jrnMark == getF s Reg.jrn_JRN_HEAD_INDEX then
      setJrnState 2 (g == 0) { s with jrnOff := false, jrnBack := false }
    else { s with jrnBack := true }
  else setJrnState 1 s.jrnBack { s with jrnOff := false }

def recBytes (j : JrnRec) : List Byte := toBytes (j.w0 + j.w1 * 2 ^ 64) 16

/-- Write a record to the ring of a group; `false` where the write ends in a bus error. -/
def jrnPut (g i : Nat) (j : JrnRec) (s : State) : State × Bool := mainWrite (jrnAt s g i) (recBytes j) s

/-- The ring of group `g` is written: its copy is usable, or the copy into it runs (R333, R334). -/
def jrnTaken (s : State) (g : Nat) : Bool :=
  !degraded s || (if failedGroup s = g then resyncing s else !s.jrnOff)

/-- A ring that is written holds every record. -/
def jrnWhole (s : State) (g : Nat) : Bool := jrnTaken s g && !(degraded s && failedGroup s == g)

/-- The next record's write meets a channel in training in a ring that takes part: it waits (R426). -/
def jrnHeld (s : State) : Bool :=
  (List.range 2).any (fun g => jrnTaken s g && mainWaits s (jrnAt s g (getF s Reg.jrn_JRN_HEAD_INDEX)) 16)

/-- A record is offered to ring `g`; `true` where the ring has taken it. -/
def jrnOffer (g i : Nat) (j : JrnRec) (s : State) : State × Bool := if jrnTaken s g then jrnPut g i j s else (s, false)

/-- A ring that was offered a record and has not taken it fails (R551). -/
def jrnFails (was : State) (g : Nat) (took : Bool) (s : State) : State := if jrnTaken was g && !took then degrade g s else s

/-- JOURNAL_RECORD_WRITE (R331-R334, R551): the oldest buffered record goes to both rings, or to the surviving one; it stays in the
buffer where no ring that holds every record can be written. -/
def execJournalRecordWrite (s : State) : Host.Outcome State Fault Refusal :=
  live s (match s.journal with
    | [] => s
    | j :: rest =>
      if blkEnabled s Reg.jrn_BLK_CTRL = false ∨ jrnHeld s then s
      else
        let i := getF s Reg.jrn_JRN_HEAD_INDEX
        let a := jrnOffer 0 i j s
        let b := jrnOffer 1 i j a.1
        let t := b.1 |> jrnFails s 0 a.2 |> jrnFails s 1 b.2
        if (jrnWhole s 0 && a.2) || (jrnWhole s 1 && b.2) then
          { t with journal := rest } |> putF Reg.jrn_JRN_HEAD_INDEX (i + 1)
        else t)

/-- Copy records from one ring to the other; `false` where a read or a write of it ends in a bus error. -/
def jrnCopy (src dst first : Nat) : Nat → State → State × Bool
  | 0, s => (s, true)
  | n + 1, s =>
    let r := mainRead (jrnAt s src first) 16 s
    match r.data with
    | none => (r.st, false)
    | some bs =>
      let w := mainWrite (jrnAt s dst first) bs r.st
      if w.2 then jrnCopy src dst (first + 1) n w.1 else w

/-- The copy into the returned ring waits for a channel in training. -/
def copyHeld (s : State) : Bool :=
  let tail := getF s Reg.jrn_JRN_TAIL_INDEX
  (List.range (getF s Reg.jrn_JRN_HEAD_INDEX - tail)).any (fun k =>
    mainWaits s (jrnAt s 0 (tail + k)) 16 || mainWaits s (jrnAt s 1 (tail + k)) 16)

/-- JOURNAL_RESYNC_DONE (R334): the copy has ended. A returned ring that cannot be written fails once more (R551), and so does one
whose source cannot be read (DESIGN CHOICE, log entry 66). -/
def execJournalResyncDone (s : State) : Host.Outcome State Fault Refusal :=
  live s (if degraded s && resyncing s && groupUsable s (1 - failedGroup s) && !copyHeld s then
    let tail := getF s Reg.jrn_JRN_TAIL_INDEX
    let r := jrnCopy (1 - failedGroup s) (failedGroup s) tail (getF s Reg.jrn_JRN_HEAD_INDEX - tail) s
    if r.2 then r.1 |> setJrnState 0 false |> setJrnState 1 false |> flagF Reg.jrn_JRN_EVENTS_EVENTS 3
    else degrade (failedGroup s) r.1
  else s)

/-! ### Slot state (R550) -/

/-- The places of a slot's state, part by part: address and length. -/
def slotParts (s : State) (c k : Nat) : List (List (Nat × Nat)) :=
  let ns := (List.range (slotNCount s c k + 1)).map (slotNBase s c k + ·)
  [ns.map (fun i => (recAddr s c i, recLen s c)),
   ns.flatMap (fun i => (ringOffs s c i).map (fun o => (coreBase c + o, 4))),
   (List.range 16).map (fun v => (semAddr c (semVirt s c k v), 2)),
   (queuesOf s c k).flatMap (fun q => [(qDesc c q, 16), (qEntry c q 0, 128)]),
   [(slotBase c k + 8, 8)]]

def pad16 (bs : List Byte) : List Byte := bs ++ List.replicate ((16 - bs.length % 16) % 16) 0

/-- One section of the slot state. -/
def sectionBytes (s : State) (p : Nat × Nat) : List Byte :=
  let body := (slotParts s p.1 p.2).flatMap (fun part => pad16 (part.flatMap (fun q => getBytes s.mem q.1 q.2)))
  toBytes (p.1 + p.2 * 2 ^ 16 + body.length * 2 ^ 32) 16 ++ body

def insertPair (p : Nat × Nat) : List (Nat × Nat) → List (Nat × Nat)
  | [] => [p]
  | q :: r => if q.1 < p.1 ∨ (q.1 = p.1 ∧ q.2 ≤ p.2) then q :: insertPair p r else p :: q :: r

/-- The slots of a context in ascending core index and slot number. -/
def slotsSorted (s : State) (ctx : Nat) : List (Nat × Nat) := (slotsOf s ctx).foldl (fun l p => insertPair p l) []

/-- The header of R336 and the slot state, with the check word. -/
def ckptImage (k : Ckpt) : List Byte :=
  let head := k.step % 2 ^ 64 + k.iseq % 2 ^ 64 * 2 ^ 64 + k.jpos % 2 ^ 64 * 2 ^ 128 + k.oseq % 2 ^ 32 * 2 ^ 192
    + k.slots % 2 ^ 16 * 2 ^ 224 + k.bytes.length % 2 ^ 32 * 2 ^ 256
  toBytes (head + crc32c (toBytes head 64 ++ k.bytes) * 2 ^ 480) 64 ++ k.bytes

/-! ### Checkpoints (R335) -/

/-- Every slot of the context stands at the cut: it is held, and but for that its core would take the wicket. -/
def atCut (s : State) (ctx : Nat) : Bool :=
  let ps := slotsOf s ctx
  !ps.isEmpty && ps.all (fun p => (core s p.1).ckptHold.contains p.2 &&
    mayTake (modCore p.1 (fun k => { k with ckptHold := [] }) s) p.1 p.2)

/-- CHECKPOINT (R335, R336): the slots are read out and released; a checkpoint into an unusable group, or one too large, is
discarded when it ends. -/
def execCheckpoint (ctx : Nat) (s : State) : Host.Outcome State Fault Refusal :=
  live s (if dProt s ctx && !dRecovering s ctx && atCut s ctx then
    let n := (ctxRun s ctx).released - 1
    let buf := 1 - dCkptNew s ctx
    let ps := slotsSorted s ctx
    let bytes := ps.flatMap (sectionBytes s)
    let cut := tget (dIseq s ctx, jrnIndex s) n (ctxRun s ctx).cuts
    let k : Ckpt := { ctx := ctx, buf := buf, step := n, iseq := cut.1, jpos := cut.2, oseq := dOseq s ctx
                      slots := ps.length, bytes := bytes
                      discard := !groupUsable s buf || decide (dCkptSize s ctx < 64 + bytes.length) }
    ps.foldl (fun t p => modCore p.1 (fun c => { c with ckptHold := c.ckptHold.filter (· != p.2) }) t)
      { s with ckpts := s.ckpts ++ [k] }
      |> modCtx ctx (fun r => { r with cuts := r.cuts.filter (fun q => decide (n < q.1)) })
  else s)

/-- CHECKPOINT_DONE (R335, R551). -/
def execCheckpointDone (ctx : Nat) (s : State) : Host.Outcome State Fault Refusal :=
  live s (match s.ckpts.find? (fun k => k.ctx == ctx) with
    | none => s
    | some k =>
      let w := mainWrite (dCkpt s ctx k.buf) (ckptImage k) s
      if mainWaits s (dCkpt s ctx k.buf) (ckptImage k).length then s
      else if k.discard || !w.2 || !groupUsable s k.buf then discardCkpts (fun q => q == k) s
      else
        { w.1 with ckpts := w.1.ckpts.erase k } |> dPut ctx 8 2 (setBitN (dCkptValid s ctx) k.buf true)
          |> dPut ctx 7 1 k.buf |> incSat Reg.jrn_CKPT_COUNT_COUNT |> tailUpdate)

/-! ### Restore (item 4 of R342, R550) -/

/-- The checkpoint in buffer `b` as it is read; no data where a read ends in a bus error, or its length or CRC is wrong. -/
def ckptRead (ctx b : Nat) (s : State) : MainAns :=
  let a := dCkpt s ctx b
  if !bitN (dCkptValid s ctx) b then ⟨s, none⟩
  else
    let h := mainRead a 64 s
    match h.data with
    | none => h
    | some head =>
      let len := ofBytes ((head.drop 32).take 4)
      let r := mainRead (a + 64) len h.st
      if dCkptSize s ctx < 64 + len then ⟨h.st, none⟩
      else ⟨r.st, r.data.bind (fun body =>
        if crc32c (toBytes (ofBytes (head.take 60)) 64 ++ body) == ofBytes (head.drop 60) then some (head ++ body) else none)⟩

/-- The checkpoint in buffer `b` can be read, and its CRC holds. -/
def ckptGood (s : State) (ctx b : Nat) : Bool := (ckptRead ctx b s).data.isSome

/-- A read of a valid checkpoint of the context waits for a channel in training (R426). -/
def ckptWaits (s : State) (ctx : Nat) : Bool :=
  (List.range 2).any (fun b => bitN (dCkptValid s ctx) b && mainWaits s (dCkpt s ctx b) (dCkptSize s ctx))

/-- The buffer to restore from: CKPT_NEW, or the other if that one's CRC fails. -/
def ckptChoice (s : State) (ctx : Nat) : Option Nat :=
  if ckptGood s ctx (dCkptNew s ctx) then some (dCkptNew s ctx)
  else if ckptGood s ctx (1 - dCkptNew s ctx) then some (1 - dCkptNew s ctx) else none

/-- What the reads of item 4 of R342 leave of the main memory they meet: corrected words, and counts (R424). -/
def ckptTried (ctx : Nat) (s : State) : State :=
  let t := (ckptRead ctx (dCkptNew s ctx) s).st
  if ckptGood s ctx (dCkptNew s ctx) then t else (ckptRead ctx (1 - dCkptNew s ctx) t).st

/-- Write bytes over places of a core store; the words written have valid check bits. -/
def putStore (a : Nat) (bs : List Byte) (s : State) : State :=
  { wrBytes a bs s with ecc := s.ecc.filter (fun p => !(decide (a / 8 * 8 ≤ p.1) && decide (p.1 < a + bs.length))) }

/-- Write the places of one part from the bytes at `src`. -/
def restorePart (src : Nat) : List (Nat × Nat) → State → State
  | [], s => s
  | (a, n) :: r, s => restorePart (src + n) r (putStore a (getBytes s.mem src n) s)

def partLen (l : List (Nat × Nat)) : Nat := (l.foldl (fun n p => n + p.2) 0 + 15) / 16 * 16

/-- Restore the numbered parts of slot `k` of core `c` in order: the places of a part are judged once the parts before it
are restored, since a neuron record names its delay slots. -/
def restoreParts (c k : Nat) : List Nat → Nat → State → State
  | [], _, s => s
  | i :: r, src, s =>
    let part := (slotParts s c k).getD i []
    restoreParts c k r (src + partLen part) (restorePart src part s)

/-- Restore `n` sections from `src` on. -/
def restoreSections (src : Nat) : Nat → State → State
  | 0, s => s
  | n + 1, s =>
    let c := rdNum s src 2 % 1024
    let k := rdNum s (src + 2) 1
    restoreSections (src + 16 + rdNum s (src + 4) 4) n (restoreParts c k [0, 1, 2, 3, 4] (src + 16) s)

/-- A context is restored from buffer `b`; its slots run, and its replay starts (items 4 and 5 of R342). -/
def restoreCtx (ctx b : Nat) (s : State) : State :=
  let a := dCkpt s ctx b
  let n := rdNum s a 8
  let t := s |> restoreSections (a + 64) (rdNum s (a + 28) 2) |> dPut ctx 256 32 (rdNum s (a + 24) 4)
  (slotsOf t ctx).foldl (slotFresh n) t |> putSlots ctx stRunning
    |> modCtx ctx (fun r => { r with released := n, complete := n, admDone := n, replay := some (rdNum s (a + 16) 8)
                                     replayed := n, replayIn := [], cuts := tset n (rdNum s (a + 8) 8, rdNum s (a + 16) 8) r.cuts })
    |> (fun u => { u with trigReqs := u.trigReqs.filter (fun q => match q.src with
        | some (c, m) => c != ctx || decide (m < n)
        | none => true) })

/-! ### Replay (R343) -/

/-- Where record `i` of the journal lies, in a ring that holds it. -/
def jrnPlace (s : State) (i : Nat) : Nat := jrnAt s (if degraded s && failedGroup s == 0 then 1 else 0) i

/-- Record `i` of the journal, from a ring or from the input buffer; `none` where its read ends in a bus error. -/
def jrnRead (s : State) (i : Nat) : Option (Nat × Nat) :=
  let head := getF s Reg.jrn_JRN_HEAD_INDEX
  if i < head then (mainRead (jrnPlace s i) 16 s).data.map (fun bs => (ofBytes (bs.take 8), ofBytes (bs.drop 8)))
  else (s.journal[i - head]?).map (fun j => (j.w0, j.w1))

/-- The context's records from index `i` on, `n` of them read. A record whose read ends in a bus error is passed over (DESIGN
CHOICE, log entry 66). -/
def jrnRecords (s : State) (ctx i : Nat) : Nat → List (Nat × Nat)
  | 0 => []
  | n + 1 =>
    match jrnRead s i with
    | some r => if bitsN r.1 18 16 = ctx then r :: jrnRecords s ctx (i + 1) n else jrnRecords s ctx (i + 1) n
    | none => jrnRecords s ctx (i + 1) n

/-- The ring records that a replay from `jpos` reads. -/
def replayPlaces (s : State) (jpos : Nat) : List Nat :=
  (List.range (getF s Reg.jrn_JRN_HEAD_INDEX - jpos)).map (fun k => jrnPlace s (jpos + k))

/-- What the replay's reads leave of the main memory they meet (R424). -/
def replayTried (jpos : Nat) (s : State) : State := (replayPlaces s jpos).foldl (fun t a => (mainRead a 16 t).st) s

/-- A read of the replay waits for a channel in training (R426). -/
def replayWaits (s : State) (jpos : Nat) : Bool := (replayPlaces s jpos).any (fun a => mainWaits s a 16)

/-- A close record: KIND 11 and every other bit but CTX zero (R331). -/
def isClose (r : Nat × Nat) : Bool := r.1 == 3 * 2 ^ 3 + bitsN r.1 18 16 * 2 ^ 18

/-- Each event with its step: that of the next close record, and after the last one the open step (item 2 of R343). -/
def eventSteps : List (Nat × Nat) → List Nat → Nat → List (Nat × Nat)
  | [], acc, openAt => acc.map (fun w => (openAt, w))
  | r :: rest, acc, openAt =>
    if isClose r then acc.map (fun w => (r.2, w)) ++ eventSteps rest [] openAt else eventSteps rest (acc ++ [r.1]) openAt

/-- The context's journaled events from its JPOS, each with its step. -/
def replayEvents (s : State) (ctx jpos : Nat) : List (Nat × Nat) :=
  eventSteps (jrnRecords s ctx jpos (jrnIndex s - jpos)) [] (openStep s ctx)

/-- The last wicket that replay releases: the chip wicket less START, but none beyond the limit of a PAUSE or DRAIN. -/
def replayTarget (s : State) (ctx : Nat) : Nat :=
  let n := tbWicket s - dStart s ctx
  match (ctxRun s ctx).limit with
  | some l => min n (l - 1)
  | none => n

/-- The journaled events of step `n` that have not been injected yet are (items 3 and 4 of R343). -/
def injectStep (ctx jpos n : Nat) (s : State) : State :=
  let evs := ((replayEvents s ctx jpos).filter (fun e => e.1 == n)).drop (tget 0 n (ctxRun s ctx).replayIn)
  evs.foldl (fun x e => injectEvent ⟨ctx, n, 10, BitVec.ofNat 64 e.2, BitVec.ofNat 64 e.2, none⟩ x) s
    |> modCtx ctx (fun r => { r with replayIn := tset n (tget 0 n r.replayIn + evs.length) r.replayIn })

/-- Events accepted since their step was replayed, while it was still open to ingress, are injected. -/
def injectLate (ctx jpos : Nat) (s : State) : State :=
  let steps := (((replayEvents s ctx jpos).map (·.1)).filter (fun n => decide (n < (ctxRun s ctx).replayed))).eraseDups
  steps.foldl (fun t n => injectStep ctx jpos n t) s

/-- REPLAY_END (R343): every journaled event has been injected, RECOVERING clears, the slots take the descriptor's state, and events
of later steps wait for their wickets. -/
def replayEnd (ctx jpos : Nat) (s : State) : State :=
  let later := (replayEvents s ctx jpos).filter (fun e => decide ((ctxRun s ctx).replayed ≤ e.1))
  let held : List HeldEvent := later.map (fun e => ⟨ctx, e.1, 10, BitVec.ofNat 64 e.2, BitVec.ofNat 64 e.2, none⟩)
  let t := injectLate ctx jpos s
  { t with hold := t.hold ++ held }
    |> setDRecovering ctx false |> putSlots ctx (dState s ctx) |> modCtx ctx (fun r => { r with replay := none })
    |> flagF Reg.ctt_CTX_EVENTS_EVENTS 3
    |> endRecov ctx

/-- The replay of a context has reached its last wicket. -/
def replayOver (s : State) (ctx : Nat) : Bool :=
  decide (tbWicket s < dStart s ctx) || decide (replayTarget s ctx < (ctxRun s ctx).replayed)

/-- REPLAY_WICKET (R343, R344): replayed wicket `n` when step `n - 1` is complete, with the journaled events of step `n`. -/
def execReplayWicket (ctx : Nat) (s : State) : Host.Outcome State Fault Refusal :=
  live s (match (ctxRun s ctx).replay with
    | none => s
    | some jpos =>
      if dRecovering s ctx = false ∨ replayWaits s jpos then s
      else if replayOver s ctx then replayEnd ctx jpos (replayTried jpos s)
      else
        let n := (ctxRun s ctx).replayed
        let r := injectLate ctx jpos (replayTried jpos s)
        if n ≤ (ctxRun s ctx).complete then
          let t := releaseTo ctx n r |> modCtx ctx (fun r => { r with replayed := n + 1 })
          let v := injectStep ctx jpos n (if n = 0 then t else closeWindows ctx (n - 1) t)
          if replayOver v ctx then replayEnd ctx jpos v else v
        else r)

end Sys2Proof.Machine
end

