-- ==== Sys2Proof/Machine/Slices.lean ====
section
/-! DEFINITION. The slices and main memory as outside requesters meet them: R27, ownership, aliases, scrubbing, retention,
refresh, retraining and channel failure (R411-R427). -/

namespace Sys2Proof.Machine

/-! ### Permitted accesses (R27) -/

/-- A single access or a burst at `a` of `n` bytes. -/
def sizeOk (a n : Nat) : Bool :=
  ((n == 1 || n == 2 || n == 4 || n == 8) && a % n == 0) ||
  (decide (16 ≤ n) && decide (n ≤ 256) && n % 8 == 0 && a % 8 == 0 && decide (a % 256 + n ≤ 256))

/-- How an access ends: the state, and its data, a bus error, or that it waits: for a channel in training (R426), or for the end of
the drain of its region (R197). -/
inductive MemAns where
  | ok (t : State) (data : List Byte)
  | error (t : State)
  | waits

def MemAns.ofSlice (a : SliceAns) : MemAns :=
  match a.data with
  | some bs => .ok a.st bs
  | none => .error a.st

/-! ### The context table behind an access (R317) -/

/-- A read of a descriptor's words that failed in one copy is judged against the other (R317). -/
def tableCheck (lo hi : Nat) (s : State) : State :=
  let t := if viewBase + cttBase s ≤ lo ∧ lo < viewBase + cttBase s + 0x400000 then descCheck ((lo - viewBase - cttBase s) / 64) s else s
  let m := getF s Reg.ctt_CTT_MIRROR_ADDR * 4096
  if m ≤ lo ∧ hi ≤ m + 0x400000 ∧ m ≠ 0 then descCheck ((lo - m) / 64) t else t

/-! ### Slices (R412-R421) -/

/-- The bit-set and bit-clear aliases of the view (R24). -/
def setBase : Nat := 0x0210000000
def clearBase : Nat := 0x0220000000

/-- The slice operation of a plain access. -/
def sliceOpOf : MemOp → SliceOp
  | .write bs | .sc bs | .amo _ bs => .write bs
  | op => .read (memLen op)

/-- An outside access to the view at `off`. The firewall judges the address of the view or of the alias, which starts at `base`. -/
def viewDo (p : Party) (base off : Nat) (op : SliceOp) (upset : Nat) (s : State) : MemAns :=
  let a := viewBase + off
  if !sizeOk a (sliceOpLen op) then .error s
  else if !firewallOk s p (base + off) (sliceOpWrites op) then .error (firewallDeny p (base + off) (sliceOpWrites op) s)
  else if !answers s a then .error s
  else if drainHolds s a then .waits
  else match sliceDo p off op upset s with
    | ⟨t, some bs⟩ => .ok t bs
    | ⟨t, none⟩ => .error (tableCheck a (a + sliceOpLen op) t)

/-- A load-reserved of an application core that completes holds its line (PRESUMED, log entry 63: RISC-V). -/
def lrTakes (p : Party) (a : Nat) (op : MemOp) (s : State) : State :=
  match p, op with
  | .app n _, .lr _ => modHart n (fun h => { h with resv := some (a / 64 * 64) }) s
  | _, _ => s

/-- The answer of an access of `p` at `a`, as it sees it. A store-conditional that stores answers 0. A unit of the device takes no
answer to a write that has waited. -/
def answerTo (p : Party) (a : Nat) (op : MemOp) (r : MemAns) (s : State) : State :=
  match r with
  | .ok t bs =>
    if !busParty p then t
    else { lrTakes p a op t with reply := match op with
      | .write _ => .done
      | .sc _ => .data 0
      | _ => .data (ofBytes bs) }
  | .error t => busFail p a op t
  | .waits => s

/-- The plain access that spells a slice operation at the view or at an alias. Outside requesters make no lane additions. -/
def memOpOf : SliceOp → MemOp
  | .read n => .read n
  | .write bs | .bits _ bs => .write bs
  | .add ws => .write (ws.flatMap (fun w => toBytes (w.getD 0).toNat 4))

/-- An access of `p` to the view, or to the alias that starts at `base`: it is answered, or waits where a drain holds it. -/
def viewAccess (p : Party) (base off : Nat) (op : SliceOp) (upset : Nat) (s : State) : State :=
  match viewDo p base off op upset s with
  | .waits => holdAccess p (base + off) (memOpOf op) s
  | r => answerTo p (base + off) (memOpOf op) r s

/-! ### The block ports (R16, R183, R184) -/

/-- The slice operation of a packet (R174). -/
def packetOp (p : Packet) : SliceOp :=
  let n := p.ext / 2 ^ 20 % 256 + 1
  if p.ty = .memRd then .read n
  else match p.ext / 2 ^ 29 % 8 with
    | 1 => .bits true (toBytes p.data n)
    | 2 => .bits false (toBytes p.data n)
    | 3 => .add ((List.range (n / 4)).map (fun j => some (BitVec.ofNat 32 (p.data / 2 ^ (32 * j)))))
    | _ => .write (toBytes p.data n)

/-- The packet that a block port grants: of the next source endpoint in turn, the oldest (R184). -/
def blockGrant (s : State) (r : Nat) : Option Packet :=
  let l := tget [] r s.fab.ports
  let turn (p : Packet) : Nat := (p.src + 4095 - tget 4095 r s.fab.lastSrc) % 4096
  l.find? (fun p => l.all (fun q => decide (turn p ≤ turn q)))

/-- The slice of block `b` carries out the packet that its port grants, and answers it (R174, R183). -/
def serveSlice (b upset : Nat) (p : Packet) (s : State) : State :=
  let r := centralRouter b
  let op := packetOp p
  let t := { s with fab := { s.fab with ports := tset r ((tget [] r s.fab.ports).erase p) s.fab.ports
                                        lastSrc := tset r p.src s.fab.lastSrc } }
  let a := sliceDo (.core (epRouter p.src) p.engine) (viewOff s.variant b (p.ext % 2 ^ 20)) op upset t
  let answer (bad data flits : Nat) : Packet :=
    { ty := (if p.ty = .memRd then .memRsp else .memAck), src := 4 * r + 1, dst := p.src, ext := bad, flits := flits, data := data
      engine := p.engine, raw := p.raw }
  match a.data with
  | some bs => post (if p.ty = .memRd then answer 0 (ofBytes bs) ((bs.length + 31) / 32) else answer 0 0 1) a.st
  | none => post (answer 1 0 1) a.st

/-- The block port of the slice at a view offset grants a packet of core `c`, if it is its turn. -/
def blockPort (c off upset : Nat) (s : State) : State :=
  let b := (sliceOf s.variant off).1
  match blockGrant s (centralRouter b) with
  | some p => if epRouter p.src = c then serveSlice b upset p s else s
  | none => s

/-- SLICE_ACCESS (R184, R412). An engine's access has come to the block port as a packet, which holds its operation. -/
def execSliceAccess (p : Party) (off : Nat) (op : SliceOp) (upset : Nat) (s : State) : Host.Outcome State Fault Refusal :=
  live s (match p with
    | .core c _ => blockPort c off upset s
    | _ => match op with
      | .read _ | .write _ => viewAccess p viewBase off op upset s
      | .bits set _ => viewAccess p (if set then setBase else clearBase) off op upset s
      | .add _ => s)

/-- BIT_SET_WRITE (R416). -/
def execBitSetWrite (p : Party) (off : Nat) (bytes : List Byte) (s : State) : Host.Outcome State Fault Refusal :=
  live s (viewAccess p setBase off (.bits true bytes) 0 s)

/-- BIT_CLEAR_WRITE (R416). -/
def execBitClearWrite (p : Party) (off : Nat) (bytes : List Byte) (s : State) : Host.Outcome State Fault Refusal :=
  live s (viewAccess p clearBase off (.bits false bytes) 0 s)

/-- SLICE_OWNER_WRITE (R411, R413, R414). -/
def execSliceOwnerWrite (p : Party) (b : Nat) (v : Word) (s : State) : Host.Outcome State Fault Refusal :=
  live s (csrEffect p (Reg.slice_SLICE_OWNER b) (ownerWrite p b v) s v)

/-- SLICE_HANDOVER (R413). -/
def execSliceHandover (c : Nat) (v : Word) (s : State) : Host.Outcome State Fault Refusal :=
  live s (if coreSilent s c then s else engineWrite c 5 (Reg.sq_SLICE_HANDOVER c) v s)

/-- SLICE_SCRUB_READ (R418, R420). -/
def execSliceScrubRead (b upset : Nat) (s : State) : Host.Outcome State Fault Refusal :=
  live s (if blockPresent s b && isSet s (Reg.slice_SLICE_SCRUB_EN b) && !sliceRetained s b && !regionDown s (regionOfBlock b) then
    let i := tget 0 b s.sliceScrub
    let a := viewBase + viewOff s.variant b (8 * i)
    let t := addUpset a upset { s with sliceScrub := tset b ((i + 1) % 131072) s.sliceScrub }
    match eccAt t a with
    | 0 => t
    | 1 => sliceCorr b a t
    | _ => sliceUncorr b (8 * i) t
  else s)

def slicePwr (s : State) (b : Nat) : Nat := getF s (Reg.slice_SLICE_STATUS_PWR b)
def setSlicePwr (b v : Nat) (s : State) : State := putF (Reg.slice_SLICE_STATUS_PWR b) v s

/-- RETAIN := 1: entry starts; a wake that waited for the end of an earlier entry is dropped. -/
def retainSlice (b : Nat) (s : State) : State :=
  let t := { s with sliceWake := s.sliceWake.filter (· != b) } |> setF (Reg.slice_SLICE_PWR_RETAIN b)
  if slicePwr s b = 0 ∨ slicePwr s b = 3 then setSlicePwr b 1 t else t

/-- RETAIN := 0. -/
def wakeSlice (b : Nat) (s : State) : State :=
  let t := clrF (Reg.slice_SLICE_PWR_RETAIN b) s
  if slicePwr s b = 2 then setSlicePwr b 3 t
  else if slicePwr s b = 1 then { t with sliceWake := b :: t.sliceWake.filter (· != b) }
  else t

/-- SLICE_PWR with RETAIN and with its other fields as they stand. -/
def slicePwrWord (s : State) (b : Nat) (retain : Bool) : Word :=
  BitVec.ofNat 32 (setBitN (rdWord s (Reg.slice_SLICE_PWR b)).toNat 0 retain)

/-- SLICE_RETAIN (R421). -/
def execSliceRetain (p : Party) (b : Nat) (s : State) : Host.Outcome State Fault Refusal :=
  live s (csrEffect p (Reg.slice_SLICE_PWR b) (retainSlice b) s (slicePwrWord s b true))

/-- SLICE_RETAINED (R421). -/
def execSliceRetained (b : Nat) (s : State) : Host.Outcome State Fault Refusal :=
  live s (if slicePwr s b = 1 then
    if s.sliceWake.contains b then { s with sliceWake := s.sliceWake.filter (· != b) } |> setSlicePwr b 3 else setSlicePwr b 2 s
  else s)

/-- SLICE_WAKE (R421). -/
def execSliceWake (p : Party) (b : Nat) (s : State) : Host.Outcome State Fault Refusal :=
  live s (csrEffect p (Reg.slice_SLICE_PWR b) (wakeSlice b) s (slicePwrWord s b false))

/-- SLICE_WAKE_DONE (R421). -/
def execSliceWakeDone (b : Nat) (s : State) : Host.Outcome State Fault Refusal :=
  live s (if slicePwr s b = 3 then setSlicePwr b 0 s else s)

/-! ### Main memory (R422-R427) -/

/-- The channel carries out an outside access; a failed read of a descriptor's words in the context table is noted (R317). -/
def channelDo (ch a : Nat) (op : MemOp) (upset : Nat) (s : State) : MemAns :=
  match channelAcc ch a op upset s with
  | ⟨t, some bs⟩ => .ok t bs
  | ⟨t, none⟩ => .error (tableCheck a (a + memLen op) t)

/-- An access to main memory that R27 permits lies in one channel. -/
def mainDo (a : Nat) (op : MemOp) (upset : Nat) (s : State) : MemAns :=
  match channelOf s (a - mainBase) with
  | none => .error s
  | some ch =>
    if !memOpen s then .error s
    else if chState s ch = chUp then channelDo ch a op upset s
    else if chTrains s ch then .waits
    else .error s

/-! ### The channels -/

def chanOn (s : State) (ch : Nat) : Bool := decide (ch < memChannels s.variant) && blkEnabled s Reg.mem_BLK_CTRL

/-- MEMORY_REFRESH (R423). -/
def execMemoryRefresh (ch bank : Nat) (s : State) : Host.Outcome State Fault Refusal :=
  live s (if chanOn s ch && chState s ch == chUp then { s with refresh := tset ch bank s.refresh } else s)

/-- MR4_POLL (R423). -/
def execMr4Poll (ch factor : Nat) (s : State) : Host.Outcome State Fault Refusal :=
  live s (if chanOn s ch && chState s ch == chUp then { s with mr4 := tset ch factor s.mr4 } else s)

def setChState (ch v : Nat) (s : State) : State := putF (Reg.memCh_MEM_CH_STATUS_STATE ch) v s

/-- A retrain starts from UP; in any other state nothing starts. -/
def retrainStart (ch : Nat) (s : State) : State :=
  if chanOn s ch && chState s ch == chUp then
    let t := setChState ch chRetraining s
    if blkEnabled t Reg.jrn_BLK_CTRL then degrade (groupOf t.variant ch) t else t
  else s

/-- RETRAIN (R426): by a write, or by drift. -/
def execRetrain (p : Option Party) (ch : Nat) (s : State) : Host.Outcome State Fault Refusal :=
  live s (match p with
    | some q => if ch < 16 then csrEffect q (Reg.memCh_MEM_CH_CTRL ch) (retrainStart ch) s else s
    | none => retrainStart ch s)

/-- The waiting accesses of a channel, in order; the rest stay. -/
def takeWaits (ch : Nat) (s : State) : List MemWait × List MemWait :=
  let mine (w : MemWait) : Bool := decide (mainBase ≤ w.addr) && channelOf s (w.addr - mainBase) == some ch
  (s.memWait.filter mine, s.memWait.filter (fun w => !mine w))

/-- The group's copy of the journal may return once every channel of the group is up (R334, R551). -/
def groupUp (s : State) (g : Nat) : Bool :=
  (List.range (memChannels s.variant)).all (fun ch => groupOf s.variant ch != g || chState s ch == chUp)

/-- A store-conditional whose core holds no reservation of the line: it stores nothing and answers 1 (PRESUMED, log entry 63). -/
def scLost (s : State) (p : Party) (a : Nat) (op : MemOp) : Bool :=
  match p, op with
  | .app n _, .sc _ => (hart s n).resv != some (a / 64 * 64)
  | _, _ => false

/-- A store-conditional ends its core's reservation. -/
def scEnds (p : Party) (op : MemOp) (s : State) : State :=
  match p, op with
  | .app n _, .sc _ => modHart n (fun h => { h with resv := none }) s
  | _, _ => s

/-- The answer `r` of the access, unless it is a store-conditional that fails. -/
def answerAll (p : Party) (a : Nat) (op : MemOp) (r : MemAns) (s : State) : State :=
  scEnds p op (if scLost s p a op then { s with reply := .data 1 } else answerTo p a op r s)

/-- The waiting accesses of a channel are carried out, in order (R426). -/
def runWaits (ch : Nat) (s : State) : State :=
  (takeWaits ch s).1.foldl (fun t w => answerAll w.p w.addr w.op (mainDo w.addr w.op 0 t) t) { s with memWait := (takeWaits ch s).2 }

/-- The training of a channel ends (R426). -/
def retrainDone (ch : Nat) (s : State) : State :=
  if chanOn s ch && (chState s ch == chRetraining || chState s ch == chTraining) then
    let t := runWaits ch (setChState ch chUp s)
    (if chState s ch == chRetraining then t |> incSat (Reg.memCh_MEM_RETRAIN_COUNT_COUNT ch) |> flagF Reg.mem_MEM_EVENTS_EVENTS 2 else t)
      |> (fun v => if groupUp v (groupOf v.variant ch) then jrnReturn (groupOf v.variant ch) v else v)
  else s

/-- The channel is FAILED: waiting accesses end in bus errors, the journal degrades, output rings switch, and the fault goes to the chip fault
manager as KIND 9. -/
def failChannel (ch : Nat) (s : State) : State :=
  (takeWaits ch s).1.foldl (fun t w => busFail w.p w.addr w.op t) (setChState ch chFailed { s with memWait := (takeWaits ch s).2 })
    |> flagF Reg.mem_MEM_EVENTS_EVENTS 0
    |> (fun u => if blkEnabled u Reg.jrn_BLK_CTRL then degrade (groupOf u.variant ch) u else u)
    |> switchRings ch |> raiseUp 3 3 9 ch chFailed

/-- The third training of a channel in a row has failed (R427). -/
def channelFailed (ch : Nat) (s : State) : State :=
  if chanOn s ch && (chState s ch == chRetraining || chState s ch == chTraining) then
    s |> flagF Reg.mem_MEM_EVENTS_EVENTS 3 |> failChannel ch
  else s

/-- OFFLINE of a channel by `p` (R427). -/
def offline (p : Party) (ch : Nat) (s : State) : State :=
  if ch < 16 then
    csrEffect p (Reg.memCh_MEM_CH_CTRL ch) (fun t => if ch < memChannels t.variant ∧ chState t ch ≠ chFailed then failChannel ch t else t) s
  else s

/-! ### Core stores, AON SRAM and the boot ROM -/

/-- The protected words of core `c` that `n` bytes at window offset `o` touch. -/
def outsideWords (c o n : Nat) : List Nat := ((List.range n).map (fun i => eccWordOf c (o + i))).eraseDups

/-- An outside access to a core store (R28, R97, R98). A write that covers a whole protected word does not read it. -/
def storeDo (c o : Nat) (op : MemOp) (upset : Nat) (s : State) : MemAns :=
  if !quiescent s c then .error s
  else
    let a := coreBase c + o
    let n := memLen op
    let s1 := addUpset (eccWordOf c o) upset s
    let read (w : Nat) : Bool := !memWrites op || decide (w < a) || decide (a + n < w + storeWord (storeOf o).1)
    match (outsideWords c o n).find? (fun w => read w && eccAt s1 w == 2) with
    | some _ => .error s1
    | none =>
      let s2 := (outsideWords c o n).foldl (fun t w => if read w then coreEccFix c 7 (w - coreBase c) t else clearEcc w t) s1
      match op with
      | .write bs => .ok (s2 |> wrBytes a bs |> imgStore c o bs |> queuesLoaded c o bs.length) []
      | _ => .ok s2 (getBytes s2.mem a n)

/-- Bytes of no stated content. -/
def freeBytes (s : State) (n : Nat) : List Byte :=
  (List.range n).map (fun i => (Config.freeValue (s.free + i)).extractLsb' 0 8)

/-- An outside access to memory at a physical address (R24-R29). -/
def memDo (p : Party) (a : Nat) (op : MemOp) (upset : Nat) (s : State) : MemAns :=
  let n := memLen op
  let wr := memWrites op
  let bits (set : Bool) : SliceOp := match op with
    | .write bs => .bits set bs
    | _ => sliceOpOf op
  if inRange a viewBase (viewBase + 0x3FFFFFF) then viewDo p viewBase (a - viewBase) (sliceOpOf op) upset s
  else if inRange a setBase (setBase + 0x3FFFFFF) then viewDo p setBase (a - setBase) (bits true) upset s
  else if inRange a clearBase (clearBase + 0x3FFFFFF) then viewDo p clearBase (a - clearBase) (bits false) upset s
  else if !sizeOk a n || !inMap a then .error s
  else if !firewallOk s p a wr then .error (firewallDeny p a wr s)
  else if !answers s a || unitDown s a then .error s
  else if heldBack s a then .waits
  else if isCoreWindow a && decide ((a - 0x0100000000) % 0x100000 + n ≤ 0x40000) then
    storeDo (coreOfAddr a) ((a - 0x0100000000) % 0x100000) op upset s
  else if inRange a 0x0002100000 0x000213FFFF && !wr then .ok s (getBytes s.mem a n)
  else if inRange a 0 0x3FFFF && !wr then .ok { s with free := s.free + n } (freeBytes s n)
  else if inRange a mainBase (mainBase + 0xFFFFFFFFF) then mainDo a op upset s
  else .error s

end Sys2Proof.Machine
end

