-- ==== Sys2Proof/Machine/Pcie.lean ====
section
/-! DEFINITION. The PCIe endpoint as the host meets it: its configuration space, its BARs, and how a TLP is split (R393-R397,
R466; log entry 62). -/

namespace Sys2Proof.Machine

/-! ### The configuration space (R393, R395, R466) -/

/-- The reset value of a word that the host can change. -/
def cfgReset (o : Nat) : Word :=
  match o with
  | 0x68 => 0x2810
  | 0x148 => 0x0A00
  | _ => 0

/-- The bits of a word that the host can change. -/
def cfgMask (o : Nat) : Word :=
  match o with
  | 0x04 => 0x546
  | 0x0C | 0x3C => 0xFF
  | 0x10 => 0xFC000000
  | 0x18 => 0xC0000000
  | 0x14 | 0x1C | 0x108 | 0x10C | 0x114 => 0xFFFFFFFF
  | 0x40 => 0xC0000000
  | 0x68 => 0x79FF
  | 0x70 => 0xFFF
  | 0x148 => 0x3F00
  | _ => 0

/-- What a word holds of the host's writes. -/
def cfgReg (s : State) (o : Nat) : Word := tget (cfgReset o) o s.outside.cfg

/-- The Resizable BAR control: the size of BAR2 is 2^n MiB (PRESUMED, log entry 62). -/
def bar2Code (s : State) : Nat := (cfgReg s 0x148).toNat / 2 ^ 8 % 2 ^ 6

/-- The size of BAR2 in GiB: 1, 2, 4, 8, 16, 32 or 64 (R395). -/
def bar2Gib (s : State) : Nat := 2 ^ (bar2Code s - 10)

/-- A read of a configuration word. -/
def cfgRead (s : State) (o : Nat) : Word :=
  let r := cfgReg s o
  match o with
  | 0x00 => 0xA4000000 ||| (Config.cfgSpace 0 &&& 0xFFFF)
  | 0x04 => r ||| 0x00100000
  | 0x08 => 0x12000000 ||| (Config.cfgSpace 8 &&& 0xFF)
  | 0x0C | 0x14 | 0x3C | 0x68 | 0x108 | 0x10C | 0x114 => r
  | 0x10 => r ||| 4
  | 0x18 => (r &&& BitVec.ofNat 32 (2 ^ 32 - bar2Gib s * 2 ^ 30 % 2 ^ 32)) ||| 0xC
  | 0x1C => BitVec.ofNat 32 (r.toNat / max 1 (bar2Gib s / 4) * max 1 (bar2Gib s / 4))
  | 0x34 => 0x40
  | 0x40 => r ||| 0x07FF6011
  | 0x44 => 0x03F00000
  | 0x48 => 0x03F80000
  | 0x60 => 0x00020010
  | 0x64 => 0x10008002
  | 0x6C => 0x84
  | 0x70 => r ||| BitVec.ofNat 32 (getF s Reg.pcie_PCIE_STATUS_STATE % 2 ^ 9 * 2 ^ 16)
  | 0x100 => 0x14020001
  | 0x140 => 0x00010015
  | 0x144 => 0x001FC000
  | 0x148 => r ||| 0x22
  | _ => Config.cfgSpace o

/-- The host's writes take the values that a reset of the function gives, and PCIE_STATUS shows them. -/
def cfgClear (s : State) : State :=
  { s with outside := { s.outside with cfg := [] } }
    |> putF Reg.pcie_PCIE_STATUS_STATE (getF s Reg.pcie_PCIE_STATUS_STATE % 2 ^ 10)

/-- The enabled bytes of a write in place of those of a word. -/
def mergeBytes (old : Word) (bs : List Byte) (enabled : List Bool) : Word :=
  BitVec.ofNat 32 (ofBytes (List.zipWith (fun (p : Byte × Bool) (b : Byte) => if p.2 then b else p.1)
    ((toBytes old.toNat 4).zip (enabled.take 4 ++ List.replicate (4 - enabled.length) true)) bs))

/-- A write of a configuration word. A size of BAR2 that is not supported is not taken. BME and MSIX_EN stand in PCIE_STATUS, and
messages that are masked no longer are sent (R392). -/
def cfgPut (o : Nat) (v : Word) (s : State) : State :=
  let keep := o == 0x148 && !(decide (10 ≤ v.toNat / 2 ^ 8 % 2 ^ 6) && decide (v.toNat / 2 ^ 8 % 2 ^ 6 ≤ 16))
  if cfgMask o = 0 ∨ keep then s
  else
    let t := { s with outside := { s.outside with cfg := tset o ((v &&& cfgMask o) ||| (cfgReg s o &&& ~~~ cfgMask o)) s.outside.cfg } }
    let st := getF t Reg.pcie_PCIE_STATUS_STATE % 2 ^ 10
    let u := putF Reg.pcie_PCIE_STATUS_STATE
      (st + bnat (busMaster t) * 2 ^ 10 + bnat ((cfgHeld t cfgMsix).getLsbD 31) * 2 ^ 11) t
    u.sic.pba.foldl (fun w n => unmaskVec n w) u

/-! ### The BARs (R394, R395) -/

/-- The physical address of a host access at an offset of BAR0 or BAR2; `none`: a segment that is not valid (R394, R395). -/
def hostAddr (s : State) (bar2 : Bool) (off : Nat) : Option Nat :=
  if bar2 then some (mainBase + getF s Reg.pcie_PCIE_BAR2_BASE_GIB / bar2Gib s * bar2Gib s * 2 ^ 30 + off)
  else
    let i := off / 0x100000
    if isSet s (Reg.pcie_PCIE_SEG_VALID i) then some (getF s (Reg.pcie_PCIE_SEG_BASE i) * 0x100000 + off % 0x100000) else none

/-- The length of BAR0 or BAR2. -/
def barLen (s : State) (bar2 : Bool) : Nat := if bar2 then bar2Gib s * 2 ^ 30 else 0x4000000

/-- The link is up. -/
def linkUp (s : State) : Bool := bitN (getF s Reg.pcie_PCIE_STATUS_STATE) 9

/-- A TLP that PCIe permits: to a BAR, within 4 KiB and at most 512 bytes written; to the configuration space, one word (R393). -/
def tlpOk (s : State) (space : TlpSpace) (off : Nat) (op : MemOp) : Bool :=
  let plain := match op with
    | .read _ | .write _ => true
    | _ => false
  linkUp s && plain && (match space with
    | .config => memLen op == 4 && off % 4 == 0 && decide (off < 4096)
    | _ => decide (0 < memLen op) && decide (off % 4096 + memLen op ≤ 4096) && decide (off + memLen op ≤ barLen s (space == .bar2)) &&
      (!memWrites op || decide (memLen op ≤ 512)))

/-! ### Splitting (R27, R396, R399) -/

/-- The longest access at `a` of at most `n` bytes that R27 permits. -/
def pieceLen (a n : Nat) : Nat :=
  if a % 8 = 0 ∧ 16 ≤ n ∧ a % 256 ≤ 240 then min (n / 8 * 8) (256 - a % 256)
  else if a % 8 = 0 ∧ 8 ≤ n then 8
  else if a % 4 = 0 ∧ 4 ≤ n then 4
  else if a % 2 = 0 ∧ 2 ≤ n then 2
  else 1

/-- The accesses that cover `n` bytes from `a`, in ascending order (R27, R399). -/
def splits : Nat → Nat → Nat → List (Nat × Nat)
  | 0, _, _ => []
  | fuel + 1, a, n => if n = 0 then [] else (a, pieceLen a n) :: splits fuel (a + pieceLen a n) (n - pieceLen a n)

/-- The runs of enabled bytes: offset and length. -/
def enabledRuns : Nat → List Bool → List (Nat × Nat)
  | _, [] => []
  | o, false :: r => enabledRuns (o + 1) r
  | o, true :: r =>
    match enabledRuns (o + 1) r with
    | (q, n) :: t => if q = o + 1 then (o, n + 1) :: t else (o, 1) :: (q, n) :: t
    | [] => [(o, 1)]

/-- The accesses that cover the enabled bytes of a TLP (R396). -/
def tlpParts (w : Tlp) : List (Nat × MemOp) :=
  (enabledRuns 0 (w.enabled.take (memLen w.op) ++ List.replicate (memLen w.op - w.enabled.length) true)).flatMap (fun r =>
    (splits r.2 (w.addr + r.1) r.2).map (fun q => (q.1, match w.op with
      | .write bs => .write ((bs.drop (q.1 - w.addr)).take q.2)
      | _ => .read q.2)))

def pcieEvent (i : Nat) (s : State) : State := flagF Reg.pcie_PCIE_EVENTS_EVENTS i s

/-- A TLP that is not carried out: Completer Abort, or a posted write discarded (R396). -/
def tlpAbort (write : Bool) (s : State) : State :=
  if write then s |> incSat Reg.pcie_DROP_COUNT_COUNT |> pcieEvent 3
  else { s with reply := .completerAbort } |> incSat Reg.pcie_CA_COUNT_COUNT |> pcieEvent 2

/-- The waiting TLPs that meet a unit which `f` selects end in bus errors: its reset, or its entry to P2, begins (R29). -/
def cutTlps (f : Nat → Bool) (s : State) : State :=
  let hit (w : Tlp) : Bool := f w.addr || (tlpParts w).any (fun q => f q.1)
  (s.outside.tlps.filter hit).foldl (fun t w => tlpAbort (memWrites w.op) t)
    { s with outside := { s.outside with tlps := s.outside.tlps.filter (fun w => !hit w) } }

/-- The accesses and the TLPs that wait for a unit which `f` selects end in bus errors (R29). -/
def cutHeld (f : Nat → Bool) (s : State) : State := s |> cutWaits f |> cutTlps f

/-- The link is gone, or the function is reset: reads of the host that wait have nowhere to return to (DESIGN CHOICE, log entry
62: writes that the endpoint has taken are still carried out). -/
def dropReads (s : State) : State :=
  { s with outside := { s.outside with tlps := s.outside.tlps.filter (fun w => memWrites w.op) } }

end Sys2Proof.Machine
end

