-- ==== Sys2Proof/Machine/Dma.lean ====
section
/-! DEFINITION. The PCIe link and the DMA channels of the endpoint and of the system (R393, R398-R400, R428, R429). -/

namespace Sys2Proof.Machine

/-! ### Moving bytes -/

/-- A move that ends: the state, the bytes moved, and whether all were; `none`: an access waits for its channel. -/
structure Moved where
  st : State
  bytes : List Byte
  ok : Bool

def putSplits (p : Party) : List (Nat × Nat) → List Byte → List Byte → State → Option Moved
  | [], _, acc, s => some ⟨s, acc, true⟩
  | (a, n) :: r, bs, acc, s =>
    match memDo p a (.write (bs.take n)) 0 s with
    | .ok t _ => putSplits p r (bs.drop n) (acc ++ bs.take n) t
    | .error t => some ⟨t, acc, false⟩
    | .waits => none

def getSplits (p : Party) : List (Nat × Nat) → List Byte → State → Option Moved
  | [], acc, s => some ⟨s, acc, true⟩
  | (a, n) :: r, acc, s =>
    match memDo p a (.read n) 0 s with
    | .ok t bs => getSplits p r (acc ++ bs) t
    | .error t => some ⟨t, acc, false⟩
    | .waits => none

/-- Write bytes from `a` up. -/
def moveIn (p : Party) (a : Nat) (bs : List Byte) (s : State) : Option Moved :=
  putSplits p (splits bs.length a bs.length) bs [] s

/-- Read `n` bytes from `a` up. -/
def moveOut (p : Party) (a n : Nat) (s : State) : Option Moved := getSplits p (splits n a n) [] s

/-- Bytes sent to host memory. -/
def hostWrite (addr : Nat) (bs : List Byte) (s : State) : State :=
  if bs.isEmpty then s else { s with outside := { s.outside with host := s.outside.host ++ [(addr, bs)] } }

/-- A range a descriptor may name: main memory, a slice view or alias, AON SRAM or a core store (R398, R428). -/
def dmaRange (a n : Nat) : Bool :=
  let within (lo hi : Nat) : Bool := decide (lo ≤ a) && decide (a + n ≤ hi + 1)
  within mainBase (mainBase + 0xFFFFFFFFF) || within 0x0200000000 0x0203FFFFFF || within 0x0210000000 0x0213FFFFFF ||
    within 0x0220000000 0x0223FFFFFF || within 0x0002100000 0x000213FFFF ||
    (isCoreWindow a && decide (a % 0x100000 + n ≤ 0x40000))

/-! ### Channels -/

/-- The register fields of a channel. -/
structure Chan where
  base : FieldRef
  lg : FieldRef
  head : FieldRef
  err : FieldRef
  halted : FieldRef
  events : FieldRef
  bytes : FieldRef

def pdmaChan (c : Nat) : Chan :=
  ⟨Reg.pdma_PDMA_RING_BASE c, Reg.pdma_PDMA_RING_LOG2 c, Reg.pdma_PDMA_HEAD_HEAD c, Reg.pdma_PDMA_STATUS_LAST_ERR c,
   Reg.pdma_PDMA_STATUS_HALTED c, Reg.pdma_PDMA_EVENTS_EVENTS c, Reg.pdma_PDMA_BYTES_COUNT c⟩

def sdmaChan (c : Nat) : Chan :=
  ⟨Reg.sdma_SDMA_RING_BASE c, Reg.sdma_SDMA_RING_LOG2 c, Reg.sdma_SDMA_HEAD_HEAD c, Reg.sdma_SDMA_STATUS_LAST_ERR c,
   Reg.sdma_SDMA_STATUS_HALTED c, Reg.sdma_SDMA_EVENTS_EVENTS c, Reg.sdma_SDMA_BYTES_COUNT c⟩

/-- The address of the descriptor that the channel takes next. A LOG2 above 12 is taken as 12. -/
def dmaDesc (s : State) (ch : Chan) : Nat :=
  getF s ch.base * 256 + 32 * (getF s ch.head % (16 * 2 ^ min (getF s ch.lg) 12))

/-- A descriptor ends: DONE and ERR in memory, then HEAD, then the events (R399). `at'`: its address, if it could be read. -/
def dmaEnd (ch : Chan) (at' : Option Nat) (irq : Bool) (err moved : Nat) (s : State) : State :=
  let s1 := match at' with
    | some a => (mainWrite (a + 20) (toBytes (rdBits s a 160 8 / 16 * 16 + err % 8 * 2 + 1) 1) s).1
    | none => s
  let s2 := s1 |> addWrap ch.bytes moved |> incWrap ch.head
  let s3 := if irq then flagF ch.events 1 s2 else s2
  if err = 0 then s3 else s3 |> flagF ch.events 0 |> putF ch.err err |> setF ch.halted

/-- What a PCIe DMA descriptor `d` at `a` does (R398, R399). -/
def pdmaDo (c a d : Nat) (host : List Byte) (hostErr : Bool) (s : State) : State :=
  let ch := pdmaChan c
  let dev := bitsN d 64 40
  let len := bitsN d 128 24 + 1
  let irq := bitN d 153
  let fin (err moved : Nat) (t : State) : State := dmaEnd ch (some a) irq err moved t
  if bitsN d 104 24 ≠ 0 ∨ bitsN d 154 6 ≠ 0 ∨ bitsN d 164 92 ≠ 0 ∨ dmaRange dev len = false then fin 5 0 s
  else if linkUp s = false then fin 3 0 s
  else if busMaster s = false then fin 4 0 s
  else if bitN d 152 then
    match moveOut (.pdma c) dev len s with
    | none => wakeUnit dev s
    | some m => fin (if m.ok then 0 else 1) m.bytes.length (hostWrite (bitsN d 0 64) m.bytes m.st)
  else
    let data := host.take len
    match moveIn (.pdma c) dev data s with
    | none => wakeUnit dev s
    | some m => fin (if !m.ok then 1 else if hostErr || decide (data.length < len) then 2 else 0) m.bytes.length m.st

/-- PDMA_DESCRIPTOR (R399). A descriptor that cannot be read ends with ERR 1, which only LAST_ERR shows. -/
def execPdmaDescriptor (c : Nat) (host : List Byte) (hostErr : Bool) (s : State) : Host.Outcome State Fault Refusal :=
  live s (if c < 8 ∧ pdmaRunning s c = true then
    let a := dmaDesc s (pdmaChan c)
    match memDo (.pdma c) a (.read 32) 0 s with
    | .ok t bs => pdmaDo c a (ofBytes bs) host hostErr t
    | .error t => dmaEnd (pdmaChan c) none false 1 0 t
    | .waits => s
  else s)

/-- What a system DMA descriptor `d` at `a` does (R428, R429). -/
def sdmaDo (c a d : Nat) (host : List Byte) (hostErr : Bool) (s : State) : State :=
  let ch := sdmaChan c
  let src := bitsN d 0 64
  let dst := bitsN d 64 64
  let len := bitsN d 128 24 + 1
  let srcBus := bitN d 152
  let dstBus := bitN d 153
  let fin (err moved : Nat) (t : State) : State := dmaEnd ch (some a) (bitN d 154) err moved t
  if bitsN d 155 5 ≠ 0 ∨ bitsN d 164 92 ≠ 0 ∨ (srcBus && dstBus) = true ∨ (!srcBus && decide (2 ^ 40 ≤ src)) = true
      ∨ (!dstBus && decide (2 ^ 40 ≤ dst)) = true then fin 4 0 s
  else if (srcBus || dstBus) && !(linkUp s && busMaster s) then fin 3 0 s
  else if !srcBus && !dmaRange src len then fin 1 0 s
  else if !dstBus && !dmaRange dst len then fin 2 0 s
  else
    let r : Option Moved := if srcBus then some ⟨s, host.take len, !hostErr && decide (len ≤ host.length)⟩
      else moveOut (.sdma c) src len s
    match r with
    | none => wakeUnit src s
    | some m =>
      let readErr := if m.ok then 0 else 1
      if dstBus then fin readErr m.bytes.length (hostWrite dst m.bytes m.st)
      else match moveIn (.sdma c) dst m.bytes m.st with
        | none => wakeUnit dst s
        | some w => fin (if w.ok then readErr else 2) w.bytes.length w.st

/-- SDMA_DESCRIPTOR (R429). -/
def execSdmaDescriptor (c : Nat) (host : List Byte) (hostErr : Bool) (s : State) : Host.Outcome State Fault Refusal :=
  live s (if c < 16 ∧ sdmaRunning s c = true then
    let a := dmaDesc s (sdmaChan c)
    match memDo (.sdma c) a (.read 32) 0 s with
    | .ok t bs => sdmaDo c a (ofBytes bs) host hostErr t
    | .error t => dmaEnd (sdmaChan c) none false 1 0 t
    | .waits => s
  else s)

/-- A control word of a DMA channel as it stands, with RESUME set. -/
def ctrlResume (s : State) (a : Nat) : Word := rdWord s a ||| 1

/-- PDMA_RESUME (R399). -/
def execPdmaResume (p : Party) (c : Nat) (s : State) : Host.Outcome State Fault Refusal :=
  live s (if c < 8 then csrEffect p (Reg.pdma_PDMA_CTRL c) (clrF (Reg.pdma_PDMA_STATUS_HALTED c)) s (ctrlResume s (Reg.pdma_PDMA_CTRL c)) else s)

/-- SDMA_RESUME (R429). -/
def execSdmaResume (p : Party) (c : Nat) (s : State) : Host.Outcome State Fault Refusal :=
  live s (if c < 16 then csrEffect p (Reg.sdma_SDMA_CTRL c) (clrF (Reg.sdma_SDMA_STATUS_HALTED c)) s (ctrlResume s (Reg.sdma_SDMA_CTRL c)) else s)

/-! ### The link (R393, R400) -/

/-- Every running descriptor that uses PCIe ends with ERR 3 (R400, R428). -/
def dmaCut (s : State) : State :=
  let t := (List.range 8).foldl (fun u c =>
    if pdmaRunning u c then
      let a := dmaDesc u (pdmaChan c)
      dmaEnd (pdmaChan c) (some a) (rdBits u a 153 1 == 1) 3 0 u
    else u) s
  (List.range 16).foldl (fun u c =>
    let a := dmaDesc u (sdmaChan c)
    if sdmaRunning u c && rdBits u a 152 2 != 0 then dmaEnd (sdmaChan c) (some a) (rdBits u a 154 1 == 1) 3 0 u else u) t

/-- The link goes down: the function is reset as PCIe has it. -/
def pcieDown (s : State) : State :=
  if linkUp s then
    s |> dmaCut |> cfgClear |> dropReads |> putF Reg.pcie_PCIE_STATUS_STATE 0 |> clrF Reg.glob_CHIP_STATUS_PCIE_UP |> pcieEvent 0
  else s

/-- PCIE_LINK_DOWN (R400). -/
def execPcieLinkDown (s : State) : Host.Outcome State Fault Refusal := live s (pcieDown s)

/-- Words from `lo` up to `hi` take their reset values. -/
def forgetWordsAt (lo hi : Nat) (s : State) : State :=
  { s with csr := s.csr.filter (fun p => !(decide (lo ≤ p.1) && decide (p.1 ≤ hi))) }

/-- A function-level reset: segments 2-62, BAR2, the MSI-X table and the DMA channels return to their reset values (R400), and so
does the configuration space (PRESUMED, log entry 62). -/
def flrDo (s : State) : State :=
  s |> dmaCut |> forgetWordsAt (Reg.pcie_PCIE_SEG 2) (Reg.pcie_PCIE_SEG 62)
    |> forgetWordsAt Reg.pcie_PCIE_BAR2_BASE Reg.pcie_PCIE_BAR2_BASE
    |> forgetWordsAt (Reg.msix_MSIX 0) (Reg.msix_MSIX 2047 + 12)
    |> forgetWordsAt 0x0307010000 0x0307017FFF
    |> cfgClear |> dropReads |> pcieEvent 1

/-- FLR (R400). -/
def execFlr (s : State) : Host.Outcome State Fault Refusal := live s (flrDo s)

/-- PCIE_LINK_UP (R393, R548): speed 1-4, 1, 2, 4 or 8 lanes; the configuration space is at its reset values. -/
def execPcieLinkUp (speed width : Nat) (s : State) : Host.Outcome State Fault Refusal :=
  live s (if !s.power.p3 && !s.power.p4 && !linkUp s && decide (1 ≤ speed) && decide (speed ≤ 4) &&
      (width == 1 || width == 2 || width == 4 || width == 8) then
    { s with pins := { s.pins with perstN := true } } |> lockPll 10 |> cfgClear
      |> putF Reg.pcie_PCIE_STATUS_STATE (speed + width * 16 + 512) |> setF Reg.glob_CHIP_STATUS_PCIE_UP
  else s)

/-! ### Accesses to the configuration space -/

/-- A configuration request: with Retry Status until AWAIT_FIRMWARE (R466). Bit 15 of the device control starts a function-level
reset. -/
def cfgDo (off : Nat) (op : MemOp) (enabled : List Bool) (s : State) : State :=
  if chipState s ≤ 2 then { s with reply := .retry }
  else match op with
    | .write bs =>
      let v := mergeBytes (cfgReg s off) bs enabled
      let t := { cfgPut off v s with reply := .done }
      if off = 0x68 ∧ v.getLsbD 15 = true then flrDo t else t
    | _ => { s with reply := .data (cfgRead s off).toNat }

end Sys2Proof.Machine
end

