-- ==== Sys2Proof/Machine/Eth.lean ====
section
/-! DEFINITION. The Ethernet ports: links, the classing of received frames, and the software rings (R353-R355, R363, R401,
R402, R548). -/

namespace Sys2Proof.Machine

/-! ### Links -/

def ethUpRef (n : Nat) : FieldRef := if n = 0 then Reg.glob_CHIP_STATUS_ETH0_UP else Reg.glob_CHIP_STATUS_ETH1_UP

/-- The port is enabled, and no stop is in progress. -/
def ethOn (s : State) (n : Nat) : Bool :=
  portPresent s n && blkEnabled s (Reg.eth_BLK_CTRL n) && isSet s (Reg.eth_BLK_CTRL_EN n)

/-- ETH_LINK_UP (R548): LINK_UP, FEC_LOCK and ALIGNED, with the four lanes locked. -/
def execEthLinkUp (port : Nat) (s : State) : Host.Outcome State Fault Refusal :=
  live s (if ethOn s port then
    s |> putF (Reg.eth_ETH_STATUS_STATE port) 7 |> putF (Reg.eth_ETH_STATUS_LANE_LOCK port) 0xF |> setF (ethUpRef port)
      |> lockPll (11 + port)
  else s)

/-- The link of a port is down: sessions whose active port it is leave it (R363). -/
def ethDown (n : Nat) (s : State) : State :=
  let t := s |> putF (Reg.eth_ETH_STATUS_STATE n) 0 |> putF (Reg.eth_ETH_STATUS_LANE_LOCK n) 0 |> clrF (ethUpRef n)
    |> flagF (Reg.eth_ETH_EVENTS_EVENTS n) 0
  (List.range 32).foldl (fun u p => if sessOpen u p && sessPort u p == n then leavePort p u else u) t

/-- ETH_LINK_DOWN (R363). -/
def execEthLinkDown (port : Nat) (s : State) : Host.Outcome State Fault Refusal :=
  live s (if portUp s port then ethDown port s else s)

/-! ### Software rings (R401, R402) -/

/-- The address of descriptor `k` of a ring. -/
def swrDesc (s : State) (base log2 : FieldRef) (k : Nat) : Nat :=
  getF s base * 256 + 32 * (k % (16 * 2 ^ min (getF s log2) 12))

/-- Write the completion of a descriptor: bits [127:64], and TS where there is a time stamp. -/
def swrComplete (a len : Nat) (tooBig : Bool) (ts : Option Nat) (s : State) : State :=
  let w1 := len % 2 ^ 14 + 2 ^ 14 + bnat tooBig * 2 ^ 15 + bnat ts.isSome * 2 ^ 16
  let t := match ts with
    | some x => (mainWrite (a + 16) (toBytes x 8) s).1
    | none => s
  (mainWrite (a + 8) (toBytes w1 8) t).1

/-- The next descriptor of a ring of port `n` that has one posted: its address. -/
def swrNext (s : State) (n : Nat) (rx : Bool) : Option Nat :=
  let on := if rx then Reg.swr_SWR_RX_RING_EN n else Reg.swr_SWR_TX_RING_EN n
  let k := getF s (if rx then Reg.swr_SWR_RX_DONE_DONE n else Reg.swr_SWR_TX_DONE_DONE n)
  let posted := getF s (if rx then Reg.swr_SWR_RX_POST_POST n else Reg.swr_SWR_TX_POST_POST n)
  let base := if rx then Reg.swr_SWR_RX_RING_BASE n else Reg.swr_SWR_TX_RING_BASE n
  let log2 := if rx then Reg.swr_SWR_RX_RING_LOG2 n else Reg.swr_SWR_TX_RING_LOG2 n
  if isSet s on && k != posted then some (swrDesc s base log2 k) else none

/-- The descriptor or the `n` bytes of its buffer meet a channel in training (R426). -/
def swrHeld (s : State) (a n : Nat) : Bool := mainWaits s a 32 || mainWaits s (rdBits s a 0 40) n

/-- SWR_RX_STORE: a frame goes to the next posted receive descriptor, or is discarded. One whose descriptor cannot be read finds
none posted (DESIGN CHOICE, log entry 58). -/
def swrStore (n : Nat) (frame : List Byte) (ts : Option Nat) (s : State) : State :=
  let lost (t : State) : State := t |> incSat (Reg.swr_RX_NOBUF_COUNT_COUNT n) |> flagF (Reg.swr_SWR_EVENTS_EVENTS n) 2
  match swrNext s n true with
  | none => lost s
  | some a =>
    let d := mainRead a 32 s
    match d.data with
    | none => lost d.st
    | some bs =>
      let w := ofBytes bs
      let big := decide (bitsN w 64 14 < frame.length)
      (if big then flagF (Reg.swr_SWR_EVENTS_EVENTS n) 3 d.st else (mainWrite (bitsN w 0 40) frame d.st).1)
        |> swrComplete a frame.length big ts |> addWrap (Reg.swr_SWR_RX_DONE_DONE n) 1 |> flagF (Reg.swr_SWR_EVENTS_EVENTS n) 0

/-- A frame that must wait for main memory does so at its port, behind those before it (R426). -/
def swrTake (f : RxFrame) (s : State) : State :=
  let waits := match swrNext s f.port true with
    | some a => swrHeld s a f.frame.length
    | none => false
  if s.rxIn.any (fun g => g.port == f.port) || waits then { s with rxIn := s.rxIn ++ [f] } else swrStore f.port f.frame f.ts s

/-- The frames that waited for main memory are stored, in order, as far as it takes accesses again. -/
def rxSettle (s : State) : State := s.rxIn.foldl (fun t f => swrTake f t) { s with rxIn := [] }

/-- A received frame is discarded and counted (R354). -/
def rxDrop (port : Nat) (s : State) : State :=
  s |> incSat (Reg.eth_RX_DROP_COUNT_COUNT port) |> flagF (Reg.eth_ETH_EVENTS_EVENTS port) 2

/-- The header bytes at `u` of a frame, up to LEN, are right for this device (R357). -/
def aetRight (s : State) (f : List Byte) (u : Nat) : Bool :=
  let h := ofBytes ((f.drop u).take 24)
  decide (u + 24 ≤ f.length) && h % 256 == 0xAE && h / 2 ^ 21 % 32 == ownChip s && decide (u + 24 + h / 2 ^ 144 % 2 ^ 16 ≤ f.length)

/-- An AET datagram that no packet type names: one too short for its header or its LEN is stale, and so is a wrong one of a
reserved TYPE; a right one of a reserved TYPE is discarded (R357, R358). Every other datagram has a command of its type. -/
def aetFrameRx (f : List Byte) (u : Nat) (s : State) : State :=
  let ty := ofBytes ((f.drop u).take 2) / 2 ^ 8 % 16
  if f.length < u + 24 || ((ty == 0 || decide (9 < ty)) && !(aetRight s f u && aetOn s)) then aetStale s else s

/-- The FEC of the port has met codewords since the frame before (R378). -/
def fecNote (port corr uncorr : Nat) (s : State) : State :=
  let t := s |> addSat (Reg.eth_FEC_CORR_COUNT_COUNT port) corr |> addSat (Reg.eth_FEC_UNCORR_COUNT_COUNT port) uncorr
  if uncorr = 0 then t else flagF (Reg.eth_ETH_EVENTS_EVENTS port) 1 t

/-- ETH_FRAME_RX (R354): the frame is classed by its bytes. One over the port's size is dropped like one whose FCS fails (DESIGN
CHOICE, log entry 58). The content of an AET datagram arrives by the command of its packet type. -/
def execEthFrameRx (port : Nat) (frame : List Byte) (fcsOk : Bool) (fecCorr fecUncorr : Nat) (s : State) :
    Host.Outcome State Fault Refusal :=
  live s (if portUp s port && blkEnabled s (Reg.eth_BLK_CTRL port) then
    let u := fecNote port fecCorr fecUncorr s
    let tagged := isSet s (Reg.eth_ETH_CFG_TAGGED port)
    let mine := frameVid frame == some (getF s (Reg.eth_ETH_CFG_VID port))
    let other := tagged && (frameVid frame).isSome && !mine
    if !fcsOk || other || decide (frameLimit s port < frame.length) then rxDrop port u
    else
      let t := addWrap (Reg.eth_RX_FRAMES_COUNT port) 1 u
      match (if !tagged || mine then aetAt s port frame else none) with
      | some u => aetFrameRx frame u t
      | none => swrTake ⟨port, frame, frameStamp s frame⟩ t
  else s)

/-- SWR_TX_POST (R402). -/
def execSwrTxPost (p : Party) (port : Nat) (v : Word) (s : State) : Host.Outcome State Fault Refusal :=
  live s (if port < 2 then csrEffect p (Reg.swr_SWR_TX_POST port) (putF (Reg.swr_SWR_TX_POST_POST port) v.toNat) s v else s)

/-- The frame of `len` bytes that a transmit descriptor at `a` with content `w` names leaves, if its length is right and it can be
read; its completion is written. -/
def transmit (port a w : Nat) (s : State) : State :=
  let len := bitsN w 64 14
  let r : MainAns := if 14 ≤ len ∧ len ≤ frameLimit s port then mainRead (bitsN w 0 40) len s else ⟨s, none⟩
  (match r.data with
    | some bs => emitFrame port bs r.st
    | none => r.st)
    |> swrComplete a len false (r.data.bind (frameStamp s)) |> addWrap (Reg.swr_SWR_TX_DONE_DONE port) 1
    |> flagF (Reg.swr_SWR_EVENTS_EVENTS port) 1

/-- FRAME_TRANSMIT_DONE (R355, R402): the oldest posted frame leaves; DONE and the time stamp are written, then SWR_TX_DONE
advances. A frame whose LEN is not 14 to the port's size, or that main memory does not return, completes without leaving, and a
descriptor that cannot be read stays posted (R353, R401; DESIGN CHOICE, log entry 58). -/
def execFrameTransmitDone (port : Nat) (s : State) : Host.Outcome State Fault Refusal :=
  live s (match swrNext s port false with
    | none => s
    | some a =>
      if ethOn s port && portUp s port && !swrHeld s a (rdBits s a 64 14) then
        let d := mainRead a 32 s
        match d.data with
        | some bs => transmit port a (ofBytes bs) d.st
        | none => d.st
      else s)

end Sys2Proof.Machine
end

