-- ==== Sys2Proof/Machine/Ingest.lean ====
section
/-! DEFINITION. Converter links, the signal encoder front, the Event Ingress Port, and the trigger inputs (R279-R309,
R312). -/

namespace Sys2Proof.Machine

/-! ### Parameters of a link (R280, R282, R290, R292) -/

def link (s : State) (l : Nat) : Link := tget {} l s.links
def modLink (l : Nat) (f : Link → Link) (s : State) : State := { s with links := tset l (f (link s l)) s.links }

def lkB (s : State) (l : Nat) : Bool := isSet s (Reg.link_JESD_CFG0_STD l)
def lkL (s : State) (l : Nat) : Nat := getF s (Reg.link_JESD_CFG0_L_M1 l) + 1
def lkM (s : State) (l : Nat) : Nat := getF s (Reg.link_JESD_CFG0_M_M1 l) + 1
def lkF (s : State) (l : Nat) : Nat := getF s (Reg.link_JESD_CFG0_F_M1 l) + 1
def lkS (s : State) (l : Nat) : Nat := getF s (Reg.link_JESD_CFG0_S_M1 l) + 1
def lkN (s : State) (l : Nat) : Nat := getF s (Reg.link_JESD_CFG0_N_M1 l) + 1
def lkK (s : State) (l : Nat) : Nat := getF s (Reg.link_JESD_CFG1_K_M1 l) + 1
def lkE (s : State) (l : Nat) : Nat := getF s (Reg.link_JESD_CFG1_E_M1 l) + 1
def lkNP (s : State) (l : Nat) : Nat :=
  match getF s (Reg.link_JESD_CFG0_NP l) with
  | 0 => 8
  | 1 => 12
  | _ => 16
def lkChan (s : State) (l : Nat) : Bool := isSet s (Reg.link_SEF_CFG_CHAN l)
def lkCplx (s : State) (l : Nat) : Bool := isSet s (Reg.link_SEF_CFG_CPLX l)
/-- B, P, TAPS and DEC of R290. -/
def lkBins (s : State) (l : Nat) : Nat := 2 ^ getF s (Reg.link_SEF_CFG_BINS_LOG2 l)
def lkP (s : State) (l : Nat) : Nat := if lkCplx s l then lkBins s l else 2 * lkBins s l
def lkTaps (s : State) (l : Nat) : Nat := 4 * (getF s (Reg.link_SEF_CFG_TAPS l) + 1)
def lkDec (s : State) (l : Nat) : Nat :=
  if !lkChan s l then 1 else if isSet s (Reg.link_SEF_CFG_OS2 l) then lkP s l / 2 else lkP s l
def lkWin (s : State) (l : Nat) : Nat := 2 ^ getF s (Reg.link_SEF_CFG_WIN_LOG2 l)
/-- The physical lane of logical lane `i` (R284). -/
def lkLane (s : State) (l i : Nat) : Nat := getF s (Reg.link_LANE_MAP_LANE l (i / 6)) / 2 ^ (5 * (i % 6)) % 32
def lkState (s : State) (l : Nat) : Nat := getF s (Reg.link_LINK_STATUS_STATE l)
def setLkState (l v : Nat) (s : State) : State := putF (Reg.link_LINK_STATUS_STATE l) v s
def instValid (s : State) (l i : Nat) : Bool := isSet s (Reg.linkInst_INST_VALID l i)

/-- SLOTS (R292): the sample rate is S × 8 (JESD204C) or S × 4 (JESD204B) octets per JES_CLK cycle over F. -/
def lkSlots (s : State) (l : Nat) : Nat :=
  lkWin s l * lkDec s l * lkF s l * 1600000 / (lkS s l * (if lkB s l then 4 else 8) * Config.devClkKhz)

/-- T_base in ns (R293). -/
def lkTBase (s : State) (l : Nat) : Nat := if lkChan s l then 136 + 20 * Nat.log2 (lkP s l) + 4 * lkTaps s l else 150

/-- The VALID instances of a link. -/
def validInsts (s : State) (l : Nat) : List Nat :=
  s.csr.filterMap (fun p =>
    if Reg.linkInst_INST l 0 ≤ p.1 ∧ p.1 ≤ Reg.linkInst_INST l 1023 ∧ p.1 % 16 = 0 ∧ p.2.getLsbD 2 = true
    then some ((p.1 - Reg.linkInst_INST l 0) / 16) else none)

/-! ### The configuration check (R300) -/

/-- The physical lanes of a link. -/
def lkLanes (s : State) (l : Nat) : List Nat := (List.range (lkL s l)).map (lkLane s l)

/-- Code 6. A link in CFG_ERR uses no lane (R286). -/
def lanesBad (s : State) (l : Nat) : Bool :=
  let mine := lkLanes s l
  mine.any (fun p => decide (23 < p)) || mine.eraseDups.length != mine.length ||
    (List.range 8).any (fun k => k != l && blkEnabled s (Reg.link_BLK_CTRL k) && lkState s k != 4 &&
      (lkLanes s k).any (fun p => mine.contains p))

def instWord (s : State) (l i k : Nat) : Nat := (rdWord s (Reg.linkInst_INST l i + 4 * k)).toNat

/-- A reserved field of an instance entry is nonzero, for its encoder (R299). -/
def instReserved (s : State) (l i : Nat) : Bool :=
  let enc := getF s (Reg.linkInst_INST_ENC l i)
  let p3 := getF s (Reg.linkInst_INST_P3 l i)
  let p4 := getF s (Reg.linkInst_INST_P4 l i)
  (enc != 0 && isSet s (Reg.linkInst_INST_GRADED l i)) || bitsN (instWord s l i 0) 14 2 != 0 ||
    bitsN (instWord s l i 1) 21 11 != 0 || (enc == 0 && p3 != 0) || (enc == 1 && p3 / 256 != 0) ||
    (if enc = 3 then p4 / 256 != 0 else p4 != 0)

/-- The parameters of a VALID instance that code 12 names. -/
def instParamBad (s : State) (l i : Nat) : Bool :=
  let enc := getF s (Reg.linkInst_INST_ENC l i)
  getF s (Reg.linkInst_INST_DLY l i) == 0 || (enc == 0 && getF s (Reg.linkInst_INST_P1 l i) == 0) ||
    (enc == 2 && decide (getF s (Reg.linkInst_INST_P1 l i) < getF s (Reg.linkInst_INST_P2 l i))) ||
    (enc == 3 && getF s (Reg.linkInst_INST_P4 l i) % 16 == 0)

/-- The first code of R300 that applies. N above N′ counts as a parameter outside R280, and BINS_LOG2 or WIN_LOG2 outside its
range as a reserved value (DEDUCED). -/
def cfgCode (s : State) (l : Nat) : Option Nat :=
  let vs := validInsts s l
  let rate := (if lkB s l then 40 else 66) * Config.devClkKhz
  if !([1, 2, 3, 4, 6, 8, 12].contains (lkL s l)) then some 1
  else if lkN s l < 8 ∨ lkNP s l < lkN s l ∨ getF s (Reg.link_JESD_CFG0_NP l) = 3 ∨
      lkF s l * 8 * lkL s l ≠ lkM s l * lkS s l * lkNP s l then some 2
  else if lkB s l = false ∧ 256 * lkE s l % lkF s l ≠ 0 then some 3
  else if lkB s l = true ∧ (lkF s l * lkK s l < 17 ∨ 1024 < lkF s l * lkK s l ∨ lkF s l * lkK s l % 4 ≠ 0) then some 4
  else if (if lkB s l then rate < 1500000 ∨ 16000000 < rate else rate < 6500000 ∨ 32500000 < rate) then some 5
  else if lanesBad s l then some 6
  else if lkChan s l = true ∧ lkM s l ≠ 1 + bnat (lkCplx s l) then some 7
  else if lkChan s l = true ∧ 32768 < lkP s l * lkTaps s l then some 8
  else if vs.any (fun i => decide (lkSlots s l ≤ i)) then some 9
  else if vs.any (fun i => decide ((if lkChan s l then lkBins s l else lkM s l) ≤ getF s (Reg.linkInst_INST_SRC l i))) then some 10
  else if lkChan s l = true ∧ vs.any (fun i => getF s (Reg.linkInst_INST_ENC l i) == 3) = true then some 11
  else if vs.any (instParamBad s l) then some 12
  else if vs.any (instReserved s l) = true ∨ 12 < getF s (Reg.link_SEF_CFG_WIN_LOG2 l) ∨
      (lkChan s l = true ∧ (lkBins s l < 16 ∨ 1024 < lkBins s l)) then some 13
  else none

/-! ### Bring-up (R286-R289) -/

/-- Channeliser and encoder state is cleared; `keepOut`: events already formed are still released. -/
def sefClear (l : Nat) (keepOut : Bool) (s : State) : State :=
  modLink l (fun k => { k with hist := [], taken := [], values := 0, encs := [], out := if keepOut then k.out else [] }) s

/-- No lane of the link is locked. -/
def unlockLanes (l : Nat) (s : State) : State :=
  (lkLanes s l).foldl (fun t p => if p < 24 then putF ⟨Reg.jesd_LANE_LOCK, p, 1⟩ 0 t else t)
    (putF (Reg.link_LINK_STATUS_LANE_LOCK l) 0 s)

def setSync (l : Nat) (low : Bool) (s : State) : State :=
  { s with pins := { s.pins with syncLow := setBitN s.pins.syncLow l low } }

/-- Bring-up from item 2 of R286: lanes lock anew. -/
def linkRestart (l : Nat) (s : State) : State :=
  s |> sefClear l true |> modLink l (fun k => { k with aligned := false }) |> unlockLanes l |> setLkState l 1
    |> (fun t => if lkB t l then setSync l true t else t)

/-- EN := 1 in a link block (R286, items 1 and 2). -/
def linkEnable (l : Nat) (s : State) : State :=
  let t := putF (Reg.link_SEF_TIMING_SLOTS l) (min (lkSlots s l) 65535) s
  match cfgCode s l with
  | some c => t |> setLkState l 4 |> putF (Reg.link_CFG_ERR_INFO_CODE l) c |> setF (Reg.link_LINK_EVENTS_CFG_ERR l)
  | none => linkRestart l t

/-- The link is enabled and in bring-up or UP. -/
def linkOn (s : State) (l : Nat) : Bool :=
  decide (l < 8) && blkEnabled s (Reg.link_BLK_CTRL l) && decide (1 ≤ lkState s l) && decide (lkState s l ≤ 3)

/-- LANE_LOCK. -/
def execLaneLock (l lane : Nat) (s : State) : Host.Outcome State Fault Refusal :=
  live s (if linkOn s l && lkState s l == 1 && decide (lane < lkL s l) then
    let t := s |> flagF (Reg.link_LINK_STATUS_LANE_LOCK l) lane |> putF ⟨Reg.jesd_LANE_LOCK, lkLane s l lane, 1⟩ 1
    if getF t (Reg.link_LINK_STATUS_LANE_LOCK l) = 2 ^ lkL s l - 1 then setLkState l 2 t else t
  else s)

/-- LINK_ALIGN: a JESD204B link's JESD_SYNC_N is released at an LEMC boundary, so once the LEMC phase is set. -/
def execLinkAlign (l : Nat) (ilasOk : Bool) (s : State) : Host.Outcome State Fault Refusal :=
  live s (if linkOn s l && lkState s l == 2 && (!lkB s l || isSet s Reg.jesd_SYSREF_STATUS_LOCKED) then
    let t := s |> modLink l (fun k => { k with aligned := true }) |> setSync l false
    if lkB s l && !ilasOk then setF (Reg.link_LINK_EVENTS_ILAS_MISMATCH l) t else t
  else s)

/-- LINK_UP: at an LEMC boundary, so once the LEMC phase is set. -/
def execLinkUp (l skew margin : Nat) (s : State) : Host.Outcome State Fault Refusal :=
  live s (if linkOn s l && lkState s l == 2 && (link s l).aligned && isSet s Reg.jesd_SYSREF_STATUS_LOCKED then
    s |> setLkState l 3 |> putF (Reg.link_LINK_MARGIN_SKEW l) (min skew 255)
      |> putF (Reg.link_LINK_MARGIN_MARGIN l) (min margin 255) |> putF (Reg.link_SEF_TIMING_T_BASE l) (lkTBase s l)
      |> sefClear l true
  else s)

/-- BUF_OVF (R287). -/
def execBufOvf (l : Nat) (s : State) : Host.Outcome State Fault Refusal :=
  live s (if linkOn s l && lkState s l == 3 then s |> setF (Reg.link_LINK_EVENTS_BUF_OVF l) |> linkRestart l else s)

/-- LANE_LOCK_LOSS (R288). -/
def execLaneLockLoss (l lane : Nat) (s : State) : Host.Outcome State Fault Refusal :=
  live s (if linkOn s l && bitN (getF s (Reg.link_LINK_STATUS_LANE_LOCK l)) lane then
    s |> setF (Reg.link_LINK_EVENTS_LINK_DOWN l) |> incSat (Reg.link_RESYNC_COUNT_COUNT l) |> linkRestart l
  else s)

/-- MULTIBLOCK_CRC_ERROR (R288). -/
def execMultiblockCrcError (l : Nat) (s : State) : Host.Outcome State Fault Refusal :=
  live s (if linkOn s l && decide (2 ≤ lkState s l) then
    s |> incSat (Reg.link_CRC_ERR_COUNT_COUNT l) |> setF (Reg.link_LINK_EVENTS_CRC l)
  else s)

/-- Links in bring-up or UP restart it at item 2. -/
def restartAll (s : State) : State := (List.range 8).foldl (fun t l => if linkOn t l then linkRestart l t else t) s

/-- An admitted edge: it sets the LEMC phase, or is checked against it while a link is UP in continuous mode (R285, R289). -/
def sysrefAdmitted (mismatch : Bool) (s : State) : State :=
  let up := (List.range 8).filter (fun l => linkOn s l && lkState s l == 3)
  if isSet s Reg.jesd_SYSREF_STATUS_LOCKED && getF s Reg.jesd_SYSREF_CFG_MODE == 0 && !up.isEmpty then
    if mismatch then
      let t := up.foldl (fun u l => setF (Reg.link_LINK_EVENTS_SYSREF_MISALIGN l) u) s
      if isSet s Reg.jesd_SYSREF_CFG_REALIGN then restartAll t else t
    else s
  else setF Reg.jesd_SYSREF_STATUS_LOCKED s

/-- SYSREF_EDGE (R285, R289): an edge that the timebase waits for issues its first tick (R202). -/
def execSysrefEdge (mismatch : Bool) (s : State) : Host.Outcome State Fault Refusal :=
  live s (
    let t := setF Reg.jesd_SYSREF_STATUS_SEEN s
    let u := match getF s Reg.jesd_SYSREF_CFG_MODE with
      | 0 => sysrefAdmitted mismatch t
      | 1 => if s.sysrefArmed then sysrefAdmitted mismatch { t with sysrefArmed := false } else t
      | _ => t
    edgeStart 1 u)

/-- SYSREF_ARM (R285). -/
def execSysrefArm (p : Party) (s : State) : Host.Outcome State Fault Refusal :=
  live s (csrEffect p Reg.jesd_SYSREF_CFG (fun t => { t with sysrefArmed := true }) s)

/-! ### The channeliser (R283, R290, R291) -/

/-- A container as a sample (R283). -/
def sampleOf (s : State) (l v : Nat) : Int := sx (lkN s l) (v / 2 ^ (lkNP s l - lkN s l)) * 2 ^ (16 - lkN s l)

/-- 2π scaled by 2^96, and the terms of a cosine series of an angle scaled by 2^96. -/
def twoPi : Int := 497805226624462170461043889244

def cosTerms (x2 : Int) : Nat → Int → Nat → Int
  | 0, _, _ => 0
  | n + 1, t, k => t + cosTerms x2 n (-(t * x2) / (2 ^ 96 * ((2 * k + 1) * (2 * k + 2) : Nat))) (k + 1)

/-- The nearest integer to 2^17 × cos(2πj/P) (R290). -/
def twCos (p j : Nat) : Int :=
  let x := twoPi * (j % p : Nat) / (p : Nat)
  rdiv (cosTerms (x * x / 2 ^ 96) 40 (2 ^ 96) 0) 79

def twRe (p j : Nat) : Int := twCos p j
/-- −2^17 × sin(2πj/P), the cosine a quarter turn on. -/
def twIm (p j : Nat) : Int := twCos p (j + p / 4)

/-- Coefficient h[j] of a link (R313). -/
def coefOf (s : State) (l j : Nat) : Int := sx 16 (getF s (Reg.linkCoef_COEF_H l (j / 2)) / 2 ^ (16 * (j % 2)))

def sumInt (n : Nat) (f : Nat → Int) : Int := (List.range n).foldl (fun t i => t + f i) 0

/-- y[0 .. P-1] of R290 for one part of the input. -/
def prefilter (s : State) (l : Nat) (xs : List Int) : List Int :=
  (List.range (lkP s l)).map (fun n =>
    sumInt (lkTaps s l) (fun q => coefOf s l (q * lkP s l + n) * xs.getD (q * lkP s l + n) 0))

/-- Bin `k`: its two rounded parts. -/
def binOf (s : State) (l : Nat) (yr yi : List Int) (k : Nat) : Int × Int :=
  let p := lkP s l
  let sh := 17 + getF s (Reg.link_SEF_CFG_CH_SH l)
  let re := sumInt p (fun n => yr.getD n 0 * twRe p (n * k) - yi.getD n 0 * twIm p (n * k))
  let im := sumInt p (fun n => yr.getD n 0 * twIm p (n * k) + yi.getD n 0 * twRe p (n * k))
  (satS 16 (rdiv re sh), satS 16 (rdiv im sh))

/-! ### Encoders (R294-R298) -/

/-- lm of a power (R294). -/
def logMag (pw : Nat) : Nat :=
  if pw = 0 then 0
  else
    let e := Nat.log2 pw
    32 * e + (if 5 ≤ e then pw / 2 ^ (e - 5) else pw * 2 ^ (5 - e)) % 32

def enc (s : State) (l i : Nat) : Enc := tget {} i (link s l).encs
def setEnc (l i : Nat) (e : Enc) (s : State) : State := modLink l (fun k => { k with encs := tset i e k.encs }) s

/-- Level-crossing (R295). -/
def crossing (delta hyst v : Int) (g : Enc) : Enc :=
  if !g.started then { g with started := true, r := v, dir := false, n := 0 }
  else
    let hu := if g.dir then hyst else 0
    let hd := if g.dir then 0 else hyst
    let d := v - g.r
    if delta + hu ≤ d then
      let k := (d - hu) / delta
      { g with r := g.r + hu + k * delta, dir := false, n := g.n + k }
    else if delta + hd ≤ -d then
      let k := (-d - hd) / delta
      { g with r := g.r - hd - k * delta, dir := true, n := g.n - k }
    else g

/-- Onset/offset, per value (R297). -/
def smooth (beta : Nat) (lm : Nat) (g : Enc) : Enc :=
  if beta = 0 then { g with a := lm * 256 } else { g with a := g.a + rdiv (((lm : Int) * 256 - g.a) * beta) 16 }

/-- Slope-edge, per sample (R298): the encoder, and whether an edge was merged. -/
def slope (level hyst : Int) (slopeMin lag : Nat) (x : Int) (g : Enc) : Enc × Bool :=
  if g.past.length < lag then ({ g with past := x :: g.past }, false)
  else
    let prev := g.past.headD 0
    let sl := x - g.past.getD (lag - 1) 0
    let offUp := g.offUp && decide (level - hyst < x)
    let offDown := g.offDown && decide (x < level + hyst)
    let up := decide (prev < level) && decide (level ≤ x) && decide ((slopeMin : Int) ≤ sl) && !offUp
    let down := decide (level ≤ prev) && decide (x < level) && decide ((slopeMin : Int) ≤ -sl) && !offDown
    let hit := up || down
    ({ g with past := (x :: g.past).take 15, offUp := offUp || up, offDown := offDown || down
              edge := if hit then some (g.edge.getD (up, sl.natAbs)) else g.edge }, hit && g.edge.isSome)

/-- ENCODER_VALUE: instance `i` evaluates a value of its source: `x` a raw sample, `pw` the power. -/
def encValue (l i : Nat) (x : Int) (pw : Nat) (s : State) : State :=
  let g := enc s l i
  let p1 := getF s (Reg.linkInst_INST_P1 l i)
  let p2 := getF s (Reg.linkInst_INST_P2 l i)
  let p3 := getF s (Reg.linkInst_INST_P3 l i)
  match getF s (Reg.linkInst_INST_ENC l i) with
  | 0 => setEnc l i (crossing p1 p2 (if lkChan s l then (logMag pw : Int) else x) g) s
  | 1 => setEnc l i { g with m := max g.m (logMag pw) } s
  | 2 => setEnc l i (smooth p3 (logMag pw) g) s
  | _ =>
    let r := slope (sx 16 p1) p2 p3 (getF s (Reg.linkInst_INST_P4 l i) % 16) x g
    (if r.2 then incSat (Reg.link_EDGE_MERGED_COUNT_COUNT l) s else s) |> setEnc l i r.1

/-- One value per bin or converter, to every VALID instance. -/
def deliverValues (l : Nat) (vals : List (Int × Int)) (s : State) : State :=
  (validInsts s l).foldl (fun t i =>
    let v := vals.getD (getF t (Reg.linkInst_INST_SRC l i)) (0, 0)
    encValue l i v.1 (v.1 * v.1 + v.2 * v.2).toNat t) s
    |> modLink l (fun k => { k with values := k.values + 1 })

/-- The physical lanes whose LANE_POL bit is not that of the board's wiring. -/
def wrongLanes (s : State) : Nat := s.pins.laneSwap ^^^ getF s Reg.jesd_LANE_POL_INV

/-- The bits of a container that a lane of the wrong polarity carries (R284). A frame is the containers of the converters in order,
converter by converter, and lane `i` carries its octets `i F` to `i F + F - 1` (PRESUMED, log entry 56). -/
def swappedBits (s : State) (l m pos : Nat) : Nat :=
  (List.range (lkNP s l)).foldl (fun a j =>
    let lane := ((m * lkS s l + pos % lkS s l) * lkNP s l + j) / (8 * lkF s l)
    if bitN (wrongLanes s) (lkLane s l lane) then a + 2 ^ (lkNP s l - 1 - j) else a) 0

/-- Container `v` of converter `m` as the receiver finds it, its `pos`-th since UP. On a JESD204C lane a wrong polarity inverts the
bits; what the 8B/10B code of a JESD204B lane then gives is open (a free value, log entry 56). -/
def received (l m pos v : Nat) (s : State) : Nat × State :=
  if wrongLanes s = 0 then (v, s)
  else
    let mask := swappedBits s l m pos
    if mask = 0 then (v, s)
    else if lkB s l then (v - (v &&& mask) + ((freeWord s).toNat &&& mask), spendFree s)
    else (v ^^^ mask, s)

/-- The samples of converter `m` that come, after `pos` since UP. -/
def receiveAll (l m : Nat) : Nat → List Nat → State → List Int × State
  | _, [], s => ([], s)
  | pos, v :: r, s =>
    let a := received l m pos v s
    let b := receiveAll l m (pos + 1) r a.2
    (sampleOf s l a.1 :: b.1, b.2)

/-- Samples of converters `m` on are added to what the link holds. -/
def addSamples (l : Nat) (xs : List (List Nat)) : List Nat → State → State
  | [], s => s
  | m :: r, s =>
    let k := link s l
    let got := receiveAll l m (k.taken.getD m 0) (xs.getD m []) s
    addSamples l xs r (modLink l (fun k => { k with hist := k.hist.set m (k.hist.getD m [] ++ got.1)
                                                    taken := k.taken.set m (k.taken.getD m 0 + (xs.getD m []).length) }) got.2)

/-- A list for each converter. -/
def openHist (l : Nat) (s : State) : State :=
  modLink l (fun k => { k with hist := (List.range (lkM s l)).map (fun m => k.hist.getD m [])
                               taken := (List.range (lkM s l)).map (fun m => k.taken.getD m 0) }) s

/-- CHANNELISER_FRAME (R283, R290, R291). The samples are taken as received; a frame is computed when its last sample is
there and the window before it has ended. -/
def execChanneliserFrame (l : Nat) (samples : List (List Nat)) (s : State) : Host.Outcome State Fault Refusal :=
  live s (if linkOn s l && lkState s l == 3 && isSet s (Reg.link_BLK_CTRL_EN l) then
    let t := addSamples l samples (List.range (lkM s l)) (openHist l s)
    let h := (link t l).hist
    let need := if lkChan s l then lkTaps s l * lkP s l else 1
    if lkWin s l ≤ (link s l).values ∨ h.any (fun xs => decide (xs.length < need)) = true then t
    else
      let vals := if lkChan s l then
          let yr := prefilter s l (h.getD 0 [])
          let yi := if lkCplx s l then prefilter s l (h.getD 1 []) else []
          (List.range (lkBins s l)).map (binOf s l yr yi)
        else h.map (fun xs => (xs.headD 0, 0))
      t |> modLink l (fun k => { k with hist := h.map (fun xs => xs.drop (lkDec s l)) }) |> deliverValues l vals
  else s)

/-- The event word of an instance (R299). -/
def sefWord (s : State) (l i add kind pay : Nat) : Word64 :=
  mkEvent 0 0 0 (getF s (Reg.linkInst_INST_AXON_BASE l i) + add) (getF s (Reg.linkInst_INST_CTX l i)) pay
    (getF s (Reg.linkInst_INST_DLY l i)) kind 0

/-- What instance `i` emits at the window's end, and its state after it (R295-R298). -/
def windowEvent (s : State) (l i : Nat) : Option Word64 × Enc :=
  let g := enc s l i
  let p1 := getF s (Reg.linkInst_INST_P1 l i)
  let p2 := getF s (Reg.linkInst_INST_P2 l i)
  let p3 := getF s (Reg.linkInst_INST_P3 l i)
  match getF s (Reg.linkInst_INST_ENC l i) with
  | 0 =>
    if g.n = 0 then (none, g)
    else
      let add := if g.n < 0 then 1 else 0
      (some (if isSet s (Reg.linkInst_INST_GRADED l i) then sefWord s l i add 1 (min g.n.natAbs 255) else sefWord s l i add 0 1),
        { g with n := 0 })
  | 1 =>
    let q := (clampInt 0 255 (rdiv (((g.m : Int) - p1) * p2) 8)).toNat
    (if 1 ≤ q ∧ p3 % 256 ≤ q then some (sefWord s l i 0 1 q) else none, { g with m := 0 })
  | 2 =>
    if g.on = false ∧ (p1 : Int) * 256 ≤ g.a then (some (sefWord s l i 0 0 1), { g with on := true })
    else if g.on = true ∧ g.a < (p2 : Int) * 256 then (some (sefWord s l i 1 0 1), { g with on := false })
    else (none, g)
  | _ =>
    match g.edge with
    | none => (none, g)
    | some (up, sl) =>
      let sh := getF s (Reg.linkInst_INST_P4 l i) / 16 % 16
      (some (sefWord s l i (if up then 0 else 1) 1 (max 1 (min (sl / 2 ^ sh) 255))), { g with edge := none })

/-- WINDOW_END (R292): the window has its values. -/
def execWindowEnd (l : Nat) (s : State) : Host.Outcome State Fault Refusal :=
  live s (if linkOn s l && lkState s l == 3 && decide ((link s l).values = lkWin s l) then
    (validInsts s l).foldl (fun t i =>
      let r := windowEvent t l i
      let u := setEnc l i r.2 t
      match r.1 with
      | some w => modLink l (fun k => { k with out := k.out ++ [w] }) u
      | none => u) s |> modLink l (fun k => { k with values := 0 })
  else s)

/-- SEF_RELEASE (R293). -/
def execSefRelease (l : Nat) (s : State) : Host.Outcome State Fault Refusal :=
  live s (match (link s l).out with
    | w :: rest =>
      s |> modLink l (fun k => { k with out := rest }) |> addWrap (Reg.link_EVENTS_OUT_COUNT l) 1 |> handOn l w none none
    | [] => s)

/-! ### The Event Ingress Port (R301-R307) -/

def modEip (f : Eip → Eip) (s : State) : State := { s with eip := f s.eip }
def eipState (s : State) : Nat := getF s Reg.eip_EIP_STATUS_STATE
def eipLanes (s : State) : Nat := 2 ^ getF s Reg.eip_EIP_CFG_LANES
def eipOn (s : State) : Bool := blkEnabled s Reg.eip_BLK_CTRL

/-- A back-channel message leaves, with the credits that are due; a stopping port returns none (R43). -/
def eipSend (seq status : Nat) (s : State) : State :=
  let due := if isSet s Reg.eip_BLK_CTRL_EN then s.eip.owed else 0
  modEip (fun e => { e with sent := e.sent ++ [⟨due, seq % 256, status⟩], owed := e.owed - due }) s

/-- INIT grants 64 credits (R304); a port that is being stopped returns none (R43). -/
def eipInit (s : State) : State :=
  let due := if isSet s Reg.eip_BLK_CTRL_EN then 64 else 0
  modEip (fun e => { e with sent := e.sent ++ [⟨due, (e.expect + 255) % 256, 2⟩], owed := 0 }) s

/-- A NAK with the expected SEQ (R306). -/
def eipNak (s : State) : State :=
  s |> modEip (fun e => { e with nak := true }) |> eipSend s.eip.expect 1
    |> incSat Reg.eip_NAK_COUNT_COUNT |> setF Reg.eip_EIP_EVENTS_NAK_SENT

/-- EN := 1 in the EIP: bring-up starts with lane lock. -/
def eipEnable (s : State) : State :=
  s |> putF Reg.eip_EIP_STATUS_STATE 1 |> putF Reg.eip_EIP_STATUS_LANE_LOCK 0

/-- EIP_LANE_LOCK (R304). -/
def execEipLaneLock (lane : Nat) (s : State) : Host.Outcome State Fault Refusal :=
  live s (if eipOn s && eipState s == 1 && decide (lane < eipLanes s) then
    let t := flagF Reg.eip_EIP_STATUS_LANE_LOCK lane s
    if getF t Reg.eip_EIP_STATUS_LANE_LOCK = 2 ^ eipLanes s - 1 then putF Reg.eip_EIP_STATUS_STATE 2 t else t
  else s)

/-- EIP_ALIGN (R304). A stopping port grants no credit, so it does not come up (R43). -/
def execEipAlign (s : State) : Host.Outcome State Fault Refusal :=
  live s (if eipOn s && isSet s Reg.eip_BLK_CTRL_EN && eipState s == 2 then s |> putF Reg.eip_EIP_STATUS_STATE 3 |> lockPll 9 |> eipInit else s)

/-- Code errors are noted, in a group or outside one (R301). -/
def codeErrors (n : Nat) (s : State) : State :=
  if n = 0 then s else s |> addSat Reg.eip_CODE_ERR_COUNT_COUNT n |> setF Reg.eip_EIP_EVENTS_CODE_ERR

/-- EIP_LINK_DOWN (R304): bring-up restarts; groups already checked stay. `errs`: the code errors that took the link down. -/
def execEipLinkDown (errs : Nat) (s : State) : Host.Outcome State Fault Refusal :=
  live s (if eipOn s && decide (2 ≤ eipState s) then s |> codeErrors errs |> setF Reg.eip_EIP_EVENTS_LINK_DOWN |> eipEnable else s)

/-- CRC-8 of R303, most significant bit first. -/
def crc8 (bs : List Nat) : Nat :=
  bs.foldl (fun c b => (List.range 8).foldl (fun d _ => if 128 ≤ d then (2 * d % 256) ^^^ 7 else 2 * d) (c ^^^ (b % 256))) 0xFF

def groupCrc (words : List Word64) (trailer : Word64) : Nat :=
  crc8 ((words.flatMap (fun w => (List.range 8).map (fun i => w.toNat / 256 ^ i % 256))) ++
    (List.range 7).map (fun i => trailer.toNat / 256 ^ (i + 1) % 256))

/-- The valid words of a group, in word order. -/
def validWords (words : List Word64) (valid : Nat) : List Word64 :=
  (words.zipIdx.filter (fun q => bitN valid q.2)).map (·.1)

/-- A group is discarded; the credit it stood for is due. -/
def eipDiscard (s : State) : State := modEip (fun e => { e with owed := e.owed + 1 }) s

/-- A sound group of SEQ `seq`. With RELIABLE = 1 an older one is dropped, a later one asks for the expected SEQ. -/
def eipAccept (seq : Nat) (ws : List Word64) (s : State) : State :=
  let d := (seq + 256 - s.eip.expect) % 256
  let take (t : State) : State :=
    t |> modEip (fun e => { e with groups := e.groups ++ [ws], expect := (seq + 1) % 256, nak := false })
      |> addWrap Reg.eip_GROUPS_OK_COUNT 1
  if isSet s Reg.eip_EIP_CFG_RELIABLE then
    if d = 0 then take s
    else if s.eip.nak || decide (128 ≤ d) then eipDiscard s
    else s |> eipDiscard |> eipNak
  else if d = 0 then take s
  else s |> addSat Reg.eip_LOST_GROUPS_COUNT_COUNT d |> setF Reg.eip_EIP_EVENTS_SEQ_GAP |> take

/-- The bytes of a unit that lanes of the wrong polarity carry (EIP_CFG.POL): byte `b` travels on lane `b` mod LANES (R302). -/
def eipSwapped (s : State) : Nat :=
  let wrong := s.pins.eipSwap ^^^ getF s Reg.eip_EIP_CFG_POL
  (List.range 8).foldl (fun a b => if bitN wrong (b % eipLanes s) then a + 255 * 256 ^ b else a) 0

/-- A unit as the port finds it. What the 8B/10B code gives on a lane of the wrong polarity is open (a free value, log entry 56). -/
def eipUnit (w : Word64) (s : State) : Word64 × State :=
  let mask := BitVec.ofNat 64 (eipSwapped s)
  if mask = 0 then (w, s)
  else ((w &&& ~~~ mask) ||| ((freeWord (spendFree s) ++ freeWord s) &&& mask), s |> spendFree |> spendFree)

def eipUnits : List Word64 → State → List Word64 × State
  | [], s => ([], s)
  | w :: r, s =>
    let a := eipUnit w s
    let b := eipUnits r a.2
    (a.1 :: b.1, b.2)

/-- A group as received is judged, and buffered or discarded; `errs`: code errors in it. -/
def eipTake (words : List Word64) (trailer : Word64) (errs : Nat) (s : State) : State :=
  let crcBad := groupCrc words trailer != trailer.toNat % 256
  let full := decide (64 ≤ s.eip.groups.length)
  if crcBad || decide (errs ≠ 0) || full then
    s |> (fun t => if crcBad then t |> incSat Reg.eip_CRC_ERR_COUNT_COUNT |> setF Reg.eip_EIP_EVENTS_CRC else t)
      |> codeErrors errs
      |> (fun t => if full then t |> incSat Reg.eip_OVERFLOW_COUNT_COUNT |> setF Reg.eip_EIP_EVENTS_OVERFLOW else t)
      |> eipDiscard |> (fun t => if isSet t Reg.eip_EIP_CFG_RELIABLE then eipNak t else t)
  else eipAccept (bitsN trailer.toNat 8 8) (validWords words (bitsN trailer.toNat 16 8)) s

/-- EIP_GROUP (R302, R303, R306): a group arrives at the link that is UP. `errs`: code errors in it; `idle`: those outside groups
since the group before it (R301). -/
def execEipGroup (words : List Word64) (trailer : Word64) (errs idle : Nat) (s : State) : Host.Outcome State Fault Refusal :=
  live s (if eipOn s && isSet s Reg.eip_BLK_CTRL_EN && eipState s == 3 && decide (words.length = 8) then
    let a := eipUnits words s
    let b := eipUnit trailer a.2
    b.2 |> codeErrors idle |> eipTake a.1 b.1 errs
  else s)

/-- EIP_HANDOFF (R305, R307). A stopping port returns no further credit (R43). -/
def execEipHandoff (s : State) : Host.Outcome State Fault Refusal :=
  live s (match s.eip.groups with
    | [] => s
    | ws :: rest =>
      ws.foldl (fun t w => handOn 8 w none none t) (modEip (fun e => { e with groups := rest
                                                                              owed := e.owed + bnat (isSet s Reg.eip_BLK_CTRL_EN) }) s)
        |> addWrap Reg.eip_WORDS_IN_COUNT ws.length)

/-- BACKCHANNEL_MESSAGE (R304, R305): credits, the SEQ of the last group accepted in order, and LINK_ERR while not UP. -/
def execBackchannelMessage (s : State) : Host.Outcome State Fault Refusal :=
  live s (if eipOn s then
    let down := eipState s != 3 || !isSet s Reg.eip_BLK_CTRL_EN
    eipSend (s.eip.expect + 255) (if down then 4 else 0) s
  else s)

/-- NAK_REPEAT (R306). -/
def execNakRepeat (s : State) : Host.Outcome State Fault Refusal :=
  live s (if eipOn s && eipState s == 3 && s.eip.nak then eipNak s else s)

/-- What a compute reset clears (R312): the link layers stay up, and the EIP sends a fresh INIT. -/
def ingestClear (s : State) : State :=
  (List.range 8).foldl (fun t l => sefClear l false t) s |> modEip (fun e => { e with groups := [] })
    |> (fun t => if eipOn t && eipState t == 3 then eipInit t else t)

/-! ### Trigger inputs and forced pulses (R308, R309) -/

/-- TRIG_IN_EDGE (R308): EDGE bit `i` = 0 captures rising edges. -/
def execTrigInEdge (i : Nat) (level : Bool) (ns : Nat) (s : State) : Host.Outcome State Fault Refusal :=
  live s (if i < 4 ∧ bitN s.pins.trigIn i ≠ level then
    let t := { s with pins := { s.pins with trigIn := setBitN s.pins.trigIn i level } }
    if bitN (getF s Reg.trig_TRIG_IN_CFG_EDGE) i = level then t
    else t |> putF (Reg.trig_TRIG_IN_TS_TICK i) (tbWicket s) |> putF (Reg.trig_TRIG_IN_TS_NS i) (min ns (2 ^ 30 - 1))
      |> flagF Reg.trig_TRIG_IN_STATUS_NEW i
  else s)

/-- TRIG_FORCE (R309): each bit requests a pulse at the next tick. -/
def execTrigForce (p : Party) (v : Word) (s : State) : Host.Outcome State Fault Refusal :=
  live s (csrEffect p Reg.trig_TRIG_FORCE (fun t =>
    (List.range 8).foldl (fun u n => if v.getLsbD n then requestPulse ⟨n, tbWicket u + 1, none⟩ u else u)
      (noteRsv Reg.trig_TRIG_FORCE v t)) s v)

end Sys2Proof.Machine
end

