-- ==== Sys2Proof/Machine/Resets.lean ====
section
/-! DEFINITION. Compute, region and core resets, the warm reset, cold bring-up, and the clocks (R14, R44, R454-R473,
R548). -/

namespace Sys2Proof.Machine

/-! ### Registers under a reset (R44) -/

/-- F, T and K fields keep their value at a reset below warm. -/
def resetKeeps : ResetEntry → Bool
  | .fuse | .train | .keep => true
  | .num _ | .dash => false

def keepMask (r : RegRow) (idx : Nat) : Word :=
  BitVec.ofNat 32 (r.fields.foldl (fun n f => if resetKeeps f.reset then n ||| ((2 ^ (f.hi + 1 - f.lo) - 1) * 2 ^ f.lo) else n) 0
    / 2 ^ (32 * idx))

def afterReset (a : Nat) (v : Word) : Word :=
  match csrAt a with
  | .word _ _ _ w => (v &&& keepMask w.row w.idx) ||| (resetWord a &&& ~~~ keepMask w.row w.idx)
  | _ => v

/-- The register words that `f` selects take their reset values; shadows and held low words of those blocks end. -/
def resetWords (f : Nat → Bool) (s : State) : State :=
  { s with csr := s.csr.map (fun p => if f p.1 then (p.1, afterReset p.1 p.2) else p),
           shadows := s.shadows.filter (fun h => !f h.blk), held := s.held.filter (fun h => !f h.blk) }

/-! ### Cores -/

/-- Words of a core's CSRs that its reset clears: all but ROLE_EPOCH, since no assignment changes (R342). -/
def coreWord (f : Nat → Bool) (a : Nat) : Bool :=
  isCoreWindow a && f (coreOfAddr a) && a != Reg.core_ROLE_EPOCH (coreOfAddr a)

/-- What a core keeps through its reset beside its stores: its place, its router stop and what belongs to its queues. -/
def coreAfter (all : Bool) (k : Core) : Core :=
  { arrivals := if all then [] else k.arrivals, refusals := if all then [] else k.refusals, remap := k.remap
    origins := k.origins, ringLeft := k.ringLeft, ringTake := k.ringTake }

/-- Engines, registers and CSRs of the cores that `f` selects are reset (R462); `all`: the fabric is reset too. -/
def clearCores (f : Nat → Bool) (all : Bool) (s : State) : State :=
  let t := resetWords (coreWord f) s
  { t with engs := t.engs.filter (fun p => !f (p.1 / 8))
           cores := t.cores.map (fun p => if f p.1 then (p.1, coreAfter all p.2) else p) }

/-- The physical core at the coordinates has failed and has been exchanged out (R339): it stays held. -/
def deadCore (s : State) (c : Nat) : Bool := (core s c).remap == some 17

/-- RST_CORE_HELD of the cores that `f` selects; a failed core is not released. -/
def holdCores (f : Nat → Bool) (v : Bool) (s : State) : State :=
  let dead := (s.cores.filter (fun p => p.2.remap == some 17)).map (·.1)
  (List.range 32).foldl (fun t w =>
    let m := flagWord (fun c => f c && (v || !dead.contains c)) (32 * w)
    if m = 0 then t
    else
      let old := rdWord t (Reg.rst_RST_CORE_HELD w)
      wrWord (Reg.rst_RST_CORE_HELD w) (if v then old ||| m else old &&& ~~~ m) t) s

/-- Credits of a loaded CHAN_ROUTE (R158). -/
def loadRoutes (c : Nat) (s : State) : State :=
  (List.range 32).foldl (fun t r =>
    if isSet t (Reg.sq_CHAN_ROUTE_VALID c r) then
      putF (Reg.sq_CHAN_ROUTE_CREDITS c r) (min (getF t (Reg.sq_CHAN_ROUTE_CREDIT_INIT c r)) 16) t
    else t) s

/-- The kernel, queue/semaphore and instruction stores of core `c` hold what its image copy holds, and its queues are as the
image gives them. -/
def loadStores (c : Nat) (s : State) : State :=
  let mine (p : Host.Cell) : Bool := decide (coreBase c + 0x30000 ≤ p.1) && decide (p.1 < coreBase c + 0x40000)
  let t := zeroMem (coreBase c + 0x30000) 0x10000 s
  { t with mem := (s.imgMem.filter mine).foldl (fun m p => setByte p.1 p.2 m) t.mem
           ecc := t.ecc.filter (fun p => !(decide (coreBase c + 0x30000 ≤ p.1) && decide (p.1 < coreBase c + 0x40000))) }
    |> queuesLoaded c 0x3A000 0x400

/-- Core `c` has an image copy. -/
def hasImage (s : State) (c : Nat) : Bool := s.imgCsr.any (fun p => coreOfAddr p.1 == c)

/-- Item 3 of R342: the core's stores and CSRs are loaded from its image copy. -/
def loadCore (c : Nat) (s : State) : State :=
  if !hasImage s c then s
  else
    let ws := s.imgCsr.filter (fun p => coreOfAddr p.1 == c)
    let t := ws.foldl (fun u p => wrWord p.1 ((rdWord u p.1 &&& ~~~ imgBits p.1 0xFFFFFFFF) ||| p.2) u) (loadStores c s)
    let en := isSet t (enRef (Reg.core_BLK_CTRL c))
    t |> loadRoutes c |> putF (enabledRef (Reg.core_BLK_CTRL c)) (bnat en)
      |> (fun u => if en && !isSet s (enRef (Reg.core_BLK_CTRL c)) then raiseStart c u else u)

/-! ### The contexts of a reset's scope (R347, R463, R464) -/

/-- The contexts in a running state with a slot on a core that `f` selects. -/
def ctxsOn (s : State) (f : Nat → Bool) : List Nat :=
  (ctxList s).filter (fun c => running s c && (coresOfCtx s c).any f)

/-- Protected contexts are to be recovered together, with no remap; unprotected ones become FAULTED with FAULT 6. -/
def handleScope (f : Nat → Bool) (s : State) : State :=
  let cs := ctxsOn s f
  let prot := cs.filter (dProt s)
  let cores := ((prot.flatMap (coresOfCtx s)).filter f).eraseDups
  let t := (cs.filter (fun c => !dProt s c)).foldl (fun u c => faultCtx c 6 u) s
  let u := prot.foldl (fun v c => v |> leaveRecov c |> beginRecovery c) t
  if prot.isEmpty then u else startRecov ⟨prot, cores, false⟩ u

/-! ### Requests (R14, R461, R465) -/

def rstEvent (i : Nat) (s : State) : State := flagF Reg.rst_RST_EVENTS_EVENTS i s

/-- RESULT of a requester (R465). -/
def setResult (p : Party) (code : Nat) (s : State) : State :=
  { s with rstResults := (requester p, code) :: s.rstResults.filter (fun x => x.1 != requester p) }

def resultTo (p : Option Party) (code : Nat) (s : State) : State :=
  match p with
  | some q => setResult q code s
  | none => s

/-- A reset of kind `hk` and target `ht` covers a lower one. -/
def covers (hk ht lk lt : Nat) : Bool :=
  decide (hk < lk) && (decide (hk ≤ 2) || (hk == 3 && lk == 4 && regionOfCore lt == ht))

/-- The target exists in the variant. -/
def resetTarget (s : State) (kind target : Nat) : Bool :=
  if kind = 3 then decide (target < 4) && regionPresent s.variant target
  else if kind = 4 then corePresent s target else true

/-- A cold bring-up or P3 is in progress, or bring-up has stopped for the fuses (R47), which covers every request. -/
def coldRuns (s : State) : Bool := decide (chipState s ≤ 2) || chipState s == 8 || s.power.p3 || s.power.p4

/-- A higher reset abandons the lower ones in its scope; a region that a rail fault holds stays held (R542). -/
def supersede (kind target : Nat) (s : State) : State :=
  let hit (r : RunningReset) : Bool :=
    covers kind target r.kind r.target && !(decide (2 ≤ kind) && r.kind == 3 && s.power.railHeld.contains r.target)
  let gone := s.resets.filter hit
  let t := { s with resets := s.resets.filter (fun r => !hit r) }
  (gone.foldl (fun u r => resultTo r.by' 2 u) t) |> (fun u => if gone.isEmpty then u else rstEvent 0 u)

/-- A reset joins those in progress, the highest first. -/
def addReset (r : RunningReset) (s : State) : State :=
  { s with resets := s.resets.filter (fun q => decide (q.kind ≤ r.kind)) ++ r :: s.resets.filter (fun q => decide (r.kind < q.kind)) }

/-- What becomes of a request: its result, or `none` where the reset starts. -/
def requestResult (s : State) (by' : Option Party) (kind target : Nat) : Option Nat :=
  if by' = some .host ∧ bitN s.sec.live.rstHost (kind - 1) = false then some 5
  else if !resetTarget s kind target then some 4
  else if coldRuns s || (chipState s == 6 && decide (2 ≤ kind)) || s.resets.any (fun r => covers r.kind r.target kind target) then some 2
  else if s.resets.any (fun r => r.kind == kind && (decide (kind ≤ 2) || r.target == target)) then some 3
  else none

/-- A request meets the resets in progress; `start` begins it. -/
def request (by' : Option Party) (kind target : Nat) (start : State → State) (s : State) : State :=
  match requestResult s by' kind target with
  | none => start (supersede kind target s)
  | some code =>
    if by' = none then s
    else s |> resultTo by' code |> (fun t => if code = 2 then rstEvent 0 t else if code = 5 then rstEvent 1 t else t)

/-- Only application cores, the host and the security controller request through RST_CMD. -/
def mayRequest : Party → Bool
  | .app _ _ | .host | .sec => true
  | _ => false

/-- A request of R461, by register or by the device. -/
def requestBy (r : ResetBy) (kind target : Nat) (start : Option Party → State → State) (s : State) : State :=
  match r with
  | .cmd p => csrEffect p Reg.rst_RST_CMD (fun t =>
      if mayRequest p then request (some p) kind target (start (some p)) t else t) s
  | .device _ => request none kind target (start none) s

/-! ### Core and region resets (R461, R462, R464, R484) -/

/-- The core is held and reset; accesses that wait for it end in bus errors (R29). -/
def coreBegin (c : Nat) (s : State) : State :=
  s |> cutHeld (fun a => isCoreWindow a && coreOfAddr a == c) |> clearCores (· == c) false |> holdCores (· == c) true

def setRegionHeld (r : Nat) (v : Bool) (s : State) : State :=
  putF Reg.rst_RST_STATUS_REGION_HELD (setBitN (getF s Reg.rst_RST_STATUS_REGION_HELD) r v) s
def setRegionReady (r : Nat) (v : Bool) (s : State) : State :=
  putF Reg.glob_CHIP_STATUS_REGION_READY (setBitN (getF s Reg.glob_CHIP_STATUS_REGION_READY) r v) s

/-- Block CSRs and BDUs of the blocks that `f` selects are reset; SLICE_OWNER keeps its value (R415). -/
def clearBlocks (f : Nat → Bool) (s : State) : State :=
  let t := resetWords (fun a => isBlockCsr a && f (blockOfAddr a)) s
  { t with bdus := t.bdus.filter (fun p => !f p.1), sliceScrub := t.sliceScrub.filter (fun p => !f p.1)
           sliceWake := t.sliceWake.filter (fun b => !f b)
           fmOrder := t.fmOrder.filter (fun p => !(isBlockCsr p.1 && f (blockOfAddr p.1)))
           bduRefused := t.bduRefused.filter (fun b => !(List.range 64).any (fun n => f n && bduEp n == b.src)) }

/-- A core store or a CSR of the cores and blocks of region `r`: what a region reset closes to accesses. -/
def regionUnit (r a : Nat) : Bool :=
  (isCoreWindow a && regionOfCore (coreOfAddr a) == r) || (isBlockCsr a && regionOfBlock (blockOfAddr a) == r)

/-- The region's cores, BDUs and block fault controllers are held and reset; accesses that wait for them end in bus errors
(R29). -/
def regionBegin (r : Nat) (s : State) : State :=
  let inR (c : Nat) : Bool := regionOfCore c == r
  let t := s |> cutHeld (regionUnit r) |> clearCores inR false |> holdCores inR true |> clearBlocks (fun b => regionOfBlock b == r)
    |> setRegionHeld r true |> setRegionReady r false
  { t with power := { t.power with gov := t.power.gov.filter (fun a => (if a.block then regionOfBlock a.unit else regionOfCore a.unit) != r)
                                   blocksAsleep := t.power.blocksAsleep.filter (fun b => regionOfBlock b != r) } }

/-- REGION_STATE of region `r` (R495). -/
def setRegionPwr (r v : Nat) (s : State) : State := putF ⟨Reg.pwr_PWR_STATUS, 4 * r, 4⟩ v s

def inP2 (s : State) (r : Nat) : Bool := regionPwr s r == 2 || regionPwr s r == 3

def setVcoreEn (r : Nat) (v : Bool) (s : State) : State :=
  { s with pins := { s.pins with vcoreEn := setBitN s.pins.vcoreEn r v } }

/-- The exit of region `r` from P2 begins (R481). -/
def startExit (r : Nat) (s : State) : State := s |> setVcoreEn r true |> setRegionPwr r 4

/-- A reset of a region in P2 waits for it to leave (R484). -/
def wakeFor (r : Nat) (s : State) : State :=
  if inP2 s r then startExit r s
  else if regionPwr s r = 1 then
    { s with power := { s.power with exitNext := r :: s.power.exitNext.filter (· != r) } }
  else s

def regionStart (r : Nat) (by' : Option Party) (s : State) : State :=
  if regionDown s r then s |> addReset ⟨3, r, by', true⟩ |> wakeFor r
  else s |> addReset ⟨3, r, by', false⟩ |> regionBegin r

def coreStart (c : Nat) (by' : Option Party) (s : State) : State :=
  if regionDown s (regionOfCore c) then s |> addReset ⟨4, c, by', true⟩ |> wakeFor (regionOfCore c)
  else s |> addReset ⟨4, c, by', false⟩ |> coreBegin c

/-- REGION_RESET (R461). -/
def execRegionReset (r : ResetBy) (region : Nat) (s : State) : Host.Outcome State Fault Refusal :=
  live s (requestBy r 3 region (regionStart region) s)

/-- CORE_RESET (R461). -/
def execCoreReset (r : ResetBy) (c : Nat) (s : State) : Host.Outcome State Fault Refusal :=
  live s (requestBy r 4 c (coreStart c) s)

/-- The region resets that the chip fault manager's records of kind 10 and 11 name have ended: DONE is set (R341). -/
def regionActsDone (r : Nat) (s : State) : State := actsEnd (fun k => k == 10 || k == 11) 10 (· == r) s

/-- The release of region `r` (R456, R464): its PLL has relocked. -/
def regionRelease (r : Nat) (s : State) : State :=
  s |> regionActsDone r |> holdCores (fun c => regionOfCore c == r) false |> setRegionHeld r false |> setRegionReady r true |> lockPll (5 + r)
    |> rstEvent 3 |> handleScope (fun c => regionOfCore c == r)

def coreRelease (c : Nat) (s : State) : State :=
  s |> holdCores (· == c) false |> rstEvent 4 |> handleScope (· == c)

/-- The reset that `RESET_RELEASE` ends. -/
def findReset (s : State) (kind target : Nat) : Option RunningReset :=
  s.resets.find? (fun r => r.kind == kind && r.target == target && !r.waits)

/-- RESET_RELEASE (R464). A region that a rail fault holds waits for its rail (R542), and one that has gone to P2 meanwhile until it leaves; a core that the chip fault manager has
reset leaves reset with RECOVERY (R342). -/
def execResetRelease (region : Bool) (n : Nat) (s : State) : Host.Outcome State Fault Refusal :=
  live s (match findReset s (if region then 3 else 4) n with
    | none => s
    | some q =>
      if region && s.power.railHeld.contains n || s.resets.any (fun r => r.kind == 2) ||
          regionDown s (if region then n else regionOfCore n) ||
          !region && s.recovs.any (fun r => r.reset && r.cores.contains n) then s
      else { s with resets := s.resets.erase q } |> (if region then regionRelease n else coreRelease n) |> resultTo q.by' 1)

/-! ### Compute reset (R463) -/

/-- The state of an effect that a meaning gives. -/
def ran (o : Host.Outcome State Fault Refusal) (s : State) : State :=
  match o with
  | .next t => t
  | _ => s

/-- The journal engine writes every record it holds. -/
def drainJournal : Nat → State → State
  | 0, s => s
  | n + 1, s => drainJournal n (ran (execJournalRecordWrite s) s)

/-- SEQ_EXP and SEQ_NEXT of every flock entry return to zero (R190). -/
def clearFlockSeq (s : State) : State :=
  setMem (s.mem.filter (fun c => !(inRange c.1 0x0300000000 0x03007FFFFF && (c.1 % 8 == 4 || c.1 % 8 == 5)))) s

/-- Fabric buffers, retransmit and sequence state and PORT_FAILED are reset (R462). -/
def clearFabric (s : State) : State :=
  (List.range 1024).foldl (fun t r => if getF t (Reg.rtr_RTR_STATUS_PORT_FAILED r) = 0 then t
      else putF (Reg.rtr_RTR_STATUS_PORT_FAILED r) 0 t)
    (clearFlockSeq { s with fab := {}, portIn := [], admRefused := [], bduRefused := [] })

/-- The buffers that a compute reset empties beside the fabric and the cores. -/
def clearBuffers (s : State) : State :=
  { s with hold := [], results := [], records := []
           admIn := s.admIn.filter (fun i => match i with
             | .event src _ _ _ => decide (8 < src)
             | .mark _ _ => true
             | .entry _ _ => true) }
    |> egressClear |> ingestClear

/-- The regions present. -/
def regions (s : State) : List Nat := (List.range 4).filter (regionPresent s.variant)

/-- Items 3 and 4 of R463, once the journal engine holds no record (R347): the contexts of the scope are handled, and the units
are held. -/
def computeHold (s : State) : State :=
  let here (c : Nat) : Bool := corePresent s c
  let t := { s with resets := s.resets.map (fun q => if q.kind = 2 then { q with waits := false } else q) }
    |> handleScope (fun _ => true) |> cutHeld (fun a => (fabricRegion s a).isSome)
    |> clearCores here true |> holdCores here true |> clearBlocks (fun _ => true) |> clearFabric |> clearBuffers
  (regions s).foldl (fun u r => u |> setRegionHeld r true |> setRegionReady r false) t

/-- A compute reset that waits for the journal goes on when every record is written. -/
def computeGo (s : State) : State :=
  if s.resets.any (fun q => q.kind == 2 && q.waits) && s.journal.isEmpty then computeHold s else s

/-- Items 1 and 2 of R463: STATE reads COMPUTE_RESET, whatever it read before, and the journal engine writes its records. A record
that no ring can take yet keeps the reset from beginning (R347; log entry 25). -/
def computeBegin (by' : Option Party) (s : State) : State :=
  { s with stateWas := chipState s } |> addReset ⟨2, 0, by', true⟩ |> setChipState 5 |> drainJournal s.journal.length |> computeGo

/-- COMPUTE_RESET (R463). -/
def execComputeReset (r : ResetBy) (s : State) : Host.Outcome State Fault Refusal :=
  live s (requestBy r 2 0 computeBegin s)

/-- The regions that may run. -/
def freeRegions (s : State) : List Nat := (regions s).filter (fun r => !s.power.railHeld.contains r)

/-- A region leaves the compute reset. Its PLL is locked (R456) and it is ready, unless it is in P2. -/
def computeFree (s : State) (r : Nat) : State :=
  let t := s |> setRegionHeld r false |> regionActsDone r
  if regionDown s r then t else t |> setRegionReady r true |> lockPll (5 + r)

/-- COMPUTE_RESET_RELEASE (item 5 of R463): the units are released, and STATE returns to what it was (READY; DESIGN CHOICE for
another, log entry 25). While the journal still holds records, it has another try at item 2. -/
def execComputeResetRelease (s : State) : Host.Outcome State Fault Refusal :=
  live s (match s.resets.find? (fun r => r.kind == 2) with
    | none => s
    | some q =>
      if q.waits then s |> drainJournal s.journal.length |> computeGo
      else
        let t := { s with resets := s.resets.erase q } |> holdCores (fun c => !s.power.railHeld.contains (regionOfCore c)) false
        (freeRegions s).foldl computeFree t |> setChipState s.stateWas |> resultTo q.by' 1)

/-! ### Warm reset (R461, R462, R470, R484, R508) -/

/-- Register words that a warm reset keeps: the AON domain, the spare map, the fuse summary, MEM_CFG and what the security
controller has latched; the states of the channels are judged by `warmChannels`. -/
def warmWord (p : Nat × Word) : Option (Nat × Word) :=
  if isAon p.1 || p.1 == Reg.glob_SPARE_USED || p.1 == Reg.glob_SPARE_USED + 4 || p.1 == Reg.glob_FUSE_STATUS ||
      p.1 == Reg.mem_MEM_CFG || (List.range 16).any (fun ch => p.1 == Reg.memCh_MEM_CH_STATUS ch) then some p
  else if p.1 = Reg.sec_SEC_STATUS then some (p.1, p.2 &&& ~~~ 0x20#32)
  else none

/-- Memory that a warm reset keeps: main memory and the AON SRAM. -/
def warmMem (s : State) : Memory := s.mem.filter (fun c => decide (mainBase ≤ c.1) || inRange c.1 0x0002100000 0x000213FFFF)

/-- The LOCK bits of the PLLs on the main reference that are in use: not those of regions in P2 (R479). -/
def mainLocks (s : State) : Nat := ((regions s).filter (fun r => !regionDown s r)).foldl (fun n r => n + 2 ^ (5 + r)) 0x21F

/-- The LOCK bits of every PLL of the variant: one of an absent region or port stays off. -/
def allLocks (s : State) : Nat := mainLocks s + 0x400 + ethMask s.variant * 0x800

/-- The locked family is aligned; not while a core clock changes, whose end aligns it again (R458). -/
def align (s : State) : State := if (regions s).any (clockStands s) then s else setF Reg.clk_CLK_ALIGN_ALIGNED s

/-- REGION_STATE of a device whose present regions are all on. -/
def regionsOn (s : State) : Nat := (List.range 4).foldl (fun n r => n + (if regionPresent s.variant r then 0 else 5) * 2 ^ (4 * r)) 0

/-- Bring-up sets the slices' owners and the place of the context table (R415, R317). -/
def placeSlices (s : State) : State :=
  ((List.range 64).filter (blockPresent s)).foldl (fun t b => wrWord (Reg.slice_SLICE_OWNER b) (BitVec.ofNat 32 t.sec.live.defOwner) t) s
    |> putF Reg.ctt_CTT_CFG_BASE (nSlices s.variant / 4 - 1)

/-- The memory controller is enabled, with its map as MEM_CFG has it. Channels that were up, or in self-refresh since the controller
stopped, keep their training if MEM_CFG has not changed since; the others train in full (R43, R470). -/
def warmChannels (s : State) : State :=
  let same : Bool := match s.memCfg with
    | some w => w == rdWord s Reg.mem_MEM_CFG
    | none => true
  let keeps (ch : Nat) : Bool := same &&
    (chState s ch == chUp || chState s ch == chRetraining || (chState s ch == chDown && s.memCfg.isSome))
  (List.range (memChannels s.variant)).foldl (fun t ch =>
      putF (Reg.memCh_MEM_CH_STATUS_STATE ch) (if keeps ch then chUp else chTraining) t)
    (s |> putF (enRef Reg.mem_BLK_CTRL) 1 |> putF (enabledRef Reg.mem_BLK_CTRL) 1 |> memMapOn)

/-- Every region and core present is held (item 1 of R470). -/
def holdAll (s : State) : State :=
  (List.range 32).foldl (fun t w => wrWord (Reg.rst_RST_CORE_HELD w) (flagWord (corePresent s) (32 * w)) t)
    (s |> putF Reg.rst_RST_STATUS_REGION_HELD (regionMask s.variant) |> putF Reg.glob_CHIP_STATUS_REGION_READY 0)

/-- Bring-up releases every region but those that a rail fault holds, and every core but those exchanged out. -/
def releaseAll (s : State) : State :=
  let heldR (r : Nat) : Bool := s.power.railHeld.contains r
  let t := (List.range 32).foldl (fun v w => wrWord (Reg.rst_RST_CORE_HELD w)
      (flagWord (fun c => corePresent s c && (heldR (regionOfCore c) || deadCore s c)) (32 * w)) v)
    (putF Reg.rst_RST_STATUS_REGION_HELD (((regions s).filter heldR).foldl (fun n r => n + 2 ^ r) 0) s)
  (freeRegions s).foldl (fun u r => setRegionReady r true u) t

/-- The end of the hold of a warm reset. -/
def warmRelease (s : State) : State := if chipState s = 6 then releaseAll s else s

/-- The balls during a cold or warm reset (R535). -/
def resetPins (p : Pins) : Pins :=
  { p with trigOut := 0, syncLow := 255, spiClk := false, spiCsN := true, dbgTdo := none, eipCr := false }

/-- What outlives a warm reset and an entry to P3 (R462, R482). Accesses that wait end in bus errors (R29). -/
def warmState (s : State) : State :=
  { State.reset with
    pending := s.pending, variant := s.variant, free := s.free
    reply := if s.memWait.isEmpty && s.outside.tlps.isEmpty then s.reply else .busError
    csr := s.csr.filterMap warmWord, mem := warmMem s, ecc := s.ecc.filter (fun p => decide (mainBase ≤ p.1))
    shadows := s.shadows.filter (fun h => isAon h.blk), held := s.held.filter (fun h => isAon h.blk)
    cores := (s.cores.filter (fun p => p.2.remap.isSome)).map (fun p => (p.1, { remap := p.2.remap })), rows := s.rows
    mbx := s.mbx, rstResults := s.rstResults, holdover := s.holdover, measuring := s.measuring, memCfg := s.memCfg
    power := { s.power with blocksAsleep := [], gov := [], compat := false, compatRegions := [], exitNext := [], cmdRegion := none }
    pins := resetPins s.pins
    sec := { keyRevoke := s.sec.keyRevoke, unwrapDue := s.sec.unwrapDue, idKey := s.sec.idKey }
    recorder := s.recorder, timers := s.timers, outside := { s.outside with cfg := [], tlps := [] } }

/-- The regions stand on, each held until bring-up releases it; a region that a rail fault holds has its reset in progress. -/
def warmRegions (s : State) : State :=
  { s with pins := { s.pins with vcoreEn := (regions s).foldl (fun n r => n + 2 ^ r) 0 }
           resets := ((regions s).filter s.power.railHeld.contains).map (fun r => ⟨3, r, none, false⟩) }
    |> putF Reg.pwr_PWR_STATUS_REGION_STATE (regionsOn s) |> clrF Reg.pwr_PWR_STATUS_BUSY |> clrF Reg.pwr_PWR_STATUS_FROM_P3
    |> holdAll

/-- The warm reset has ended (R465). -/
def warmDone (s : State) : State :=
  match s.resets.find? (fun r => r.kind == 1) with
  | some q => { s with resets := s.resets.erase q } |> resultTo q.by' 1
  | none => s

/-- Without a verified image the device enters RECOVERY (DEDUCED, R507, R508). -/
def noImage (s : State) : State := s |> warmRelease |> setChipState 7 |> warmDone

/-- Items 2 to 4 of R470, once the main reference is there: the PLLs in `locks` have locked, and the image at BOOT_IMAGE is to be
verified. -/
def warmVerify (locks : Nat) (s : State) : State :=
  let t := s |> putF Reg.clk_CLK_STATUS_LOCK (getF s Reg.clk_CLK_STATUS_LOCK ||| locks) |> align
    |> putF Reg.clk_CLK_ALIGN_TB_LOCKED 1
  if isSet t Reg.boot_BOOT_IMAGE_VALID then
    { t with sec := { t.sec with verify := some ⟨getF t Reg.boot_BOOT_IMAGE_OFFSET * 0x10000, none⟩ } }
  else noImage t

/-- Items 1 to 4 of R470; `q`: the reset in progress, or none for an exit from P3, which relocks every PLL (R483). `hold`: until
the main reference returns (R456). -/
def warmPath (hold : Bool) (q : Option RunningReset) (s : State) : State :=
  let t := s |> setChipState 6 |> warmRegions |> placeSlices |> warmChannels
  let u := match q with
    | some r => addReset r t
    | none => t
  if hold then { u with warmHeld := true } else warmVerify (if q.isSome then mainLocks u else allLocks u) u

/-- A warm reset begins, with its cause as bit `cause` of RST_CAUSE. -/
def warmBegin (cause : Nat) (hold : Bool) (by' : Option Party) (s : State) : State :=
  s |> warmState |> putF Reg.rst_RST_CAUSE_CAUSE (2 ^ cause) |> warmPath hold (some ⟨1, 0, by', false⟩)

/-- The bit of RST_CAUSE for a request. -/
def warmCause : ResetBy → Nat
  | .cmd _ => 2
  | .device 5 => 5
  | .device _ => 4

/-- WARM_RESET (R461, R470). -/
def execWarmReset (r : ResetBy) (s : State) : Host.Outcome State Fault Refusal :=
  live s (requestBy r 1 0 (warmBegin (warmCause r) false) s)

/-! ### Cold bring-up (R466-R469, R548) -/

/-- Everything but the fuses is lost. -/
def coldBegin (cause : Nat) (pins : Pins) (s : State) : State :=
  { State.reset with pending := s.pending, variant := s.variant, free := s.free, outside := { s.outside with cfg := [], tlps := [] }
                     pins := pins }
    |> putF Reg.rst_RST_CAUSE_CAUSE (2 ^ cause)

/-- The balls while RST_N is low: the supplies stay as they are (R535, R539). -/
def coldPins (p : Pins) : Pins :=
  { resetPins p with rstN := false, thermTripN := true, sysPwrEn := true, memPwrEn := true, vcoreEn := if p.sysPg then 15 else 0 }

/-- BOOT_SRC is sampled as RST_N is released (R500). -/
def sampleSrc (s : State) : State := putF Reg.sec_SEC_STATUS_BOOT_SRC s.pins.bootSrc s

/-- COLD_RESET (R461, R466): power-on, taken as the whole of R540, the release of RST_N with it, or RST_N driven low. -/
def execColdReset (rstN : Bool) (s : State) : Host.Outcome State Fault Refusal :=
  live s (if rstN then
    (if s.power.p4 then s else coldBegin 1 (coldPins s.pins) s)
  else s |> coldBegin 0 { trigIn := s.pins.trigIn, laneSwap := s.pins.laneSwap, eipSwap := s.pins.eipSwap, bootSrc := s.pins.bootSrc }
    |> sampleSrc)

/-- RST_N_RELEASE (R466, R500). -/
def execRstNRelease (src : Nat) (s : State) : Host.Outcome State Fault Refusal :=
  live s (if !s.pins.rstN && !s.power.p4 then
    sampleSrc { s with pins := { s.pins with rstN := true, bootSrc := src % 4 } }
  else s)

/-- The condition of step 7 of R540. -/
def suppliesUp (s : State) : Bool := s.pins.sysPg && (regions s).all (fun r => bitN s.pins.vcorePg r)

/-- Core clocks and rails as they come up (R490, R533). -/
def coresAtPowerUp (s : State) : State :=
  (List.range 4).foldl (fun t r => t |> putF (Reg.clk_CLK_CORE_MULT r) 15 |> putF (Reg.pwr_PWR_VF_STATUS_CUR_MULT r) 15
      |> putF (Reg.pwr_PWR_VF_STATUS_CUR_VMV r) 800) s

/-- COLD_INIT_DONE (R46, R47, R466, R498, R529). -/
def execColdInitDone (eccCorrected eccFailed : Bool) (s : State) : Host.Outcome State Fault Refusal :=
  live s (if chipState s = 0 ∧ s.pins.rstN = true ∧ suppliesUp s = true ∧ s.power.p3 = false ∧ s.power.p4 = false then
    let t := { s with sec := { s.sec with keyRevoke := Config.keyRevoke % 16 }
                      pins := { s.pins with vcoreEn := (regions s).foldl (fun n r => n + 2 ^ r) 0 } }
      |> setF Reg.glob_FUSE_STATUS_LOADED |> putF Reg.glob_FUSE_STATUS_ECC_CORRECTED (bnat eccCorrected)
      |> putF Reg.glob_FUSE_STATUS_ECC_FAILED (bnat eccFailed)
      |> putF Reg.pwr_PWR_STATUS_REGION_STATE (regionsOn s)
      |> (fun u => putF Reg.clk_CLK_STATUS_LOCK (allLocks u) u) |> putF Reg.clk_CLK_STATUS_REF_OK 15
      |> (fun u => if isSet u Reg.pwr_PWR_STATUS_FROM_P3 then u else coresAtPowerUp u)
    let u := if getF t Reg.rst_RST_CAUSE_CAUSE = 0 ∧ isSet t Reg.pwr_PWR_STATUS_FROM_P3 = false then
        putF Reg.rst_RST_CAUSE_CAUSE 1 t else t
    setChipState (if eccFailed then 8 else 1) u
  else s)

/-- The failing rows of block `b`'s slice, each once. -/
def badRows (rows : List (Nat × Nat)) (b : Nat) : List (Nat × Nat) :=
  (rows.filter (fun q => q.1 == b && decide (q.2 < 256))).eraseDups

/-- What stops bring-up: the failure that BIST reports, or a slice with more failing rows than its 2 spare rows (R468). -/
def bistStop (s : State) (rows : List (Nat × Nat)) (failure : Option (Bool × Nat)) : Option (Bool × Nat) :=
  match failure with
  | some f => some f
  | none => ((List.range 64).find? (fun b => blockPresent s b && decide (2 < (badRows rows b).length))).map (true, ·)

/-- The spare map as BIST makes it: SPARE_USED, and each failing row on a spare row of its slice. -/
def spareMap (spares : Nat) (rows : List (Nat × Nat)) (s : State) : State :=
  { s with rows := ((List.range 64).filter (blockPresent s)).flatMap (fun b => (badRows rows b).map (fun q => ⟨b, q.2, false⟩)) }
    |> putF Reg.glob_SPARE_USED_BLOCK spares

/-- BIST_DONE (R467, R468). An exit from P3 keeps the spare map (R483). -/
def execBistDone (spares : Nat) (rows : List (Nat × Nat)) (failure : Option (Bool × Nat)) (s : State) :
    Host.Outcome State Fault Refusal :=
  live s (if chipState s = 1 ∧ isSet s Reg.rst_BIST_INFO_VALID = false then
    match bistStop s rows failure with
    | some (slice, b) =>
      s |> rstEvent 2 |> setF Reg.rst_BIST_INFO_VALID |> putF Reg.rst_BIST_INFO_SLICE (bnat slice) |> putF Reg.rst_BIST_INFO_BLOCK b
        |> setF Reg.glob_CHIP_EVENTS_FAULT_RAISED
    | none => s |> (fun t => if isSet t Reg.pwr_PWR_STATUS_FROM_P3 then t else spareMap spares rows t) |> setChipState 2
  else s)

/-- Mailbox `n` joins a sender and a receiver (R501). -/
def setMailbox (n sender receiver : Nat) (s : State) : State :=
  s |> putF (Reg.mbx_MBX_CFG_SENDER n) sender |> putF (Reg.mbx_MBX_CFG_RECEIVER n) receiver |> putF (Reg.mbx_MBX_CFG_DOORBELL n) 0

/-- TRAINING_DONE (R466, R501, R548): the device enters AWAIT_FIRMWARE. -/
def execTrainingDone (rate density ranks : Nat) (s : State) : Host.Outcome State Fault Refusal :=
  live s (if chipState s = 2 then
    let t := s |> putF Reg.mem_MEM_CFG_RATE rate |> putF Reg.mem_MEM_CFG_DENSITY density |> putF Reg.mem_MEM_CFG_RANKS ranks
      |> putF (enRef Reg.mem_BLK_CTRL) 1 |> putF (enabledRef Reg.mem_BLK_CTRL) 1
      |> (fun u => (List.range (memChannels s.variant)).foldl (fun v ch => putF (Reg.memCh_MEM_CH_STATUS_STATE ch) chUp v) u)
      |> align |> putF Reg.clk_CLK_ALIGN_TB_LOCKED 1 |> placeSlices |> releaseAll
    t |> setMailbox 63 8 9 |> setMailbox 62 9 8 |> putF (Reg.mbx_DB_MASK_MASK 8) (getF t (Reg.mbx_DB_MASK_MASK 8) ||| 1)
      |> setChipState 3
  else s)

/-! ### Clocks (R456, R472) -/

def clkLost (bit : Nat) (s : State) : State := putF Reg.clk_CLK_EVENTS_LOCK_LOST (getF s Reg.clk_CLK_EVENTS_LOCK_LOST ||| 2 ^ bit) s
def clkEvents (s : State) : Nat := (rdWord s Reg.clk_CLK_EVENTS).toNat
def unlockPll (bit : Nat) (s : State) : State :=
  putF Reg.clk_CLK_STATUS_LOCK (setBitN (getF s Reg.clk_CLK_STATUS_LOCK) bit false) s

/-- Every enabled link in bring-up or UP goes DOWN (R288). -/
def jesdDown (s : State) : State :=
  (List.range 8).foldl (fun t l => if linkOn t l then
    t |> setF (Reg.link_LINK_EVENTS_LINK_DOWN l) |> incSat (Reg.link_RESYNC_COUNT_COUNT l) |> linkRestart l else t) s

def ethLost (n : Nat) (s : State) : State := if portUp s n then ethDown n s else s

/-- The EIP's link goes down (R304). -/
def eipLost (s : State) : State := ran (execEipLinkDown 0 s) s

/-- A fault of the clocks is reported to the chip fault manager, as KIND 12 with UNIT `unit`. -/
def clockFault (unit : Nat) (s : State) : State := raiseUp 3 3 12 unit (clkEvents s) s

/-- REFERENCE_LOST (R456): `ref` 0 main, 1 PCIe, 2 Ethernet, 3 JESD. -/
def execReferenceLost (ref : Nat) (s : State) : Host.Outcome State Fault Refusal :=
  live s (if ref < 4 ∧ bitN (getF s Reg.clk_CLK_STATUS_REF_OK) ref = true then
    let t := s |> putF Reg.clk_CLK_STATUS_REF_OK (setBitN (getF s Reg.clk_CLK_STATUS_REF_OK) ref false)
      |> putF Reg.clk_CLK_EVENTS_REF_LOST (getF s Reg.clk_CLK_EVENTS_REF_LOST ||| 2 ^ ref)
    let u := clockFault (13 + ref) t
    match ref with
    | 0 => { u with holdover := true }
    | 1 => pcieDown u
    | 2 => u |> ethLost 0 |> ethLost 1
    | _ => jesdDown u
  else s)

/-- A record of the chip fault manager in the recorder (R449). -/
def recordFault (kind unit : Nat) (s : State) : State :=
  record 0x10 3 (if kind = 1 ∨ kind = 2 ∨ kind = 3 ∨ kind = 6 then 1 else if kind = 4 ∨ kind = 5 then 2
    else if kind = 7 ∨ kind = 8 then 3 else if kind = 9 then 4 else if kind = 10 ∨ kind = 11 then 6 else 0) unit s

/-- A warm reset by a cause of R456; within a warm or cold reset it is already under way. -/
def clockReset (hold : Bool) (s : State) : State :=
  if s.power.p3 then s
  else if chipState s = 6 then (if hold then { s with warmHeld := true, sec := { s.sec with verify := none } } else s)
  else request none 1 0 (warmBegin 4 hold none) s

/-- REF_HOLDOVER_EXPIRY (R456): the warm reset is held until the PLLs on the main reference have locked again. -/
def execRefHoldoverExpiry (s : State) : Host.Outcome State Fault Refusal :=
  live s (if s.holdover then
    clockReset true { s with holdover := false }
      |> (fun t => putF Reg.clk_CLK_STATUS_LOCK (getF t Reg.clk_CLK_STATUS_LOCK / 2 ^ 10 * 2 ^ 10) t)
      |> clrF Reg.clk_CLK_ALIGN_ALIGNED |> clrF Reg.clk_CLK_ALIGN_TB_LOCKED
  else s)

/-- REFERENCE_RETURN (R456). -/
def execReferenceReturn (ref : Nat) (s : State) : Host.Outcome State Fault Refusal :=
  live s (if ref < 4 ∧ bitN (getF s Reg.clk_CLK_STATUS_REF_OK) ref = false ∧ getF s Reg.glob_FUSE_STATUS_LOADED = 1 then
    let t := putF Reg.clk_CLK_STATUS_REF_OK (setBitN (getF s Reg.clk_CLK_STATUS_REF_OK) ref true) s
    if ref = 0 then
      let u := { t with holdover := false } |> putF Reg.clk_CLK_STATUS_LOCK
        (getF s Reg.clk_CLK_STATUS_LOCK ||| (if s.power.p3 then 1 else mainLocks s))
      if u.warmHeld then warmVerify (if u.resets.any (fun q => q.kind == 1) then mainLocks u else allLocks u) { u with warmHeld := false } else u
    else t
  else s)

/-- PLL_LOCK_LOST (R456). -/
def execPllLockLost (pll : Nat) (s : State) : Host.Outcome State Fault Refusal :=
  live s (if pll < 13 ∧ bitN (getF s Reg.clk_CLK_STATUS_LOCK) pll = true then
    let t := s |> unlockPll pll |> clkLost pll
    if pll ≤ 4 then t |> recordFault 12 pll |> clockReset false
    else if pll ≤ 8 then t |> raiseUp 2 2 10 (pll - 5) (clkEvents t) |> request none 3 (pll - 5) (regionStart (pll - 5) none)
    else if pll = 9 then t |> clockFault 9 |> eipLost
    else if pll = 10 then t |> clockFault 10 |> pcieDown
    else t |> clockFault pll |> ethLost (pll - 11)
  else s)

/-- PERST_N (R461). -/
def execPerstN (s : State) : Host.Outcome State Fault Refusal :=
  live s (
    let t := { s with pins := { s.pins with perstN := false } }
    if isSet s Reg.rst_RST_CFG_PERST_WARM then request none 1 0 (warmBegin 3 false none) t
    else t |> flrDo |> pcieDown)

/-- CLK_MEAS_START (R472). -/
def execClkMeasStart (p : Party) (domain : Nat) (s : State) : Host.Outcome State Fault Refusal :=
  live s (csrEffect p Reg.clk_CLK_MEAS_SEL (fun t =>
    { t with measuring := true } |> putF Reg.clk_CLK_MEAS_SEL_DOMAIN domain |> clrF Reg.clk_CLK_MEAS_DONE) s)

/-- CLK_MEAS_DONE (R472). -/
def execClkMeasDone (khz : Nat) (s : State) : Host.Outcome State Fault Refusal :=
  live s (if s.measuring then
    { s with measuring := false } |> putF Reg.clk_CLK_MEAS_KHZ khz |> setF Reg.clk_CLK_MEAS_DONE else s)

end Sys2Proof.Machine
end

