-- ==== Sys2Proof/Machine/Faults.lean ====
section
/-! DEFINITION. Fault records and their handlers, the acts of the chip fault manager, and recovery (R13, R338-R348,
R352). -/

namespace Sys2Proof.Machine

/-! ### Fault records (R340, R341) -/

/-- The block and the region at which a fault's part lies. -/
def faultBlock (f : FaultRep) : Nat := if f.kind = 4 ∨ f.kind = 5 then f.unit else blockOfCore f.unit
def faultRegion (f : FaultRep) : Nat :=
  if f.kind = 10 ∨ f.kind = 11 ∨ f.kind = 15 then f.unit else regionOfBlock (faultBlock f)

/-- The page of the handler at which a report stands, and the records it holds. -/
def faultPage (f : FaultRep) : Nat × Nat :=
  if f.level ≤ 1 then (Reg.fmBlk_FM_STATUS (faultBlock f), 16)
  else if f.level = 2 then (Reg.fmReg_FM_STATUS (faultRegion f), 16)
  else (Reg.fmChip_FM_STATUS, 64)

def fmRecAt (page i : Nat) : Nat := page + 0x100 + 16 * i

/-- The lowest free entry of a page. -/
def fmFree (s : State) (page cap : Nat) : Option Nat := (List.range cap).find? (fun i => !(fmUsed s page).contains i)

/-- A record as a number of 16 bytes. -/
def fmRecord (f : FaultRep) (done passed : Bool) (action wicket : Nat) : Nat :=
  1 + bnat done * 2 + bnat passed * 2 ^ 2 + f.origin % 4 * 2 ^ 4 + f.kind % 256 * 2 ^ 8 + action % 256 * 2 ^ 16
    + f.unit % 1024 * 2 ^ 32 + f.detail % 2 ^ 32 * 2 ^ 64 + wicket % 2 ^ 32 * 2 ^ 96

def fmEvent (page i : Nat) (s : State) : State := flagF ⟨page + 4, 0, 3⟩ i s

/-- A handler makes a record, or counts the fault that finds no free entry; the entry it took. -/
def makeRecord (f : FaultRep) (done passed : Bool) (action : Nat) (s : State) : Option Nat × State :=
  let page := (faultPage f).1
  match fmFree s page (faultPage f).2 with
  | none => (none, s |> incSat ⟨page + 0xC, 0, 32⟩ |> fmEvent page 1)
  | some i =>
    let t := if faultAny s then s else setF Reg.glob_CHIP_EVENTS_FAULT_RAISED s
    (some i, { t with fmOrder := tset page (fmUsed t page ++ [i]) t.fmOrder }
      |> wrWords (fmRecAt page i) (fmRecord f done passed action (tbWicket s)) 4 |> fmEvent page 0)

/-- The handler of a report is out of reset. -/
def handlerUp (s : State) (f : FaultRep) : Bool := decide (2 ≤ f.level) || !regionHeld s (faultRegion f)

/-- FAULT_REPORT (R13, R341, R449): a block or region handler passes the fault up; the chip fault manager keeps it. -/
def execFaultReport (s : State) : Host.Outcome State Fault Refusal :=
  live s (match s.faultsUp.find? (handlerUp s) with
    | none => s
    | some f =>
      let t := { s with faultsUp := s.faultsUp.erase f }
      if f.level ≤ 2 then
        let r := (makeRecord f true true 2 t).2
        { r with faultsUp := r.faultsUp ++ [{ f with level := max f.level 1 + 1 }] }
      else
        let r := makeRecord f false false 0 t
        let u := { r.2 with chipFaults := r.2.chipFaults ++ [{ f with entry := r.1 }] }
        if r.1.isSome then recordFault f.kind f.unit u else u)

/-- CORRECTED_MONITOR_EVENT (R341): recorded by the region fault manager, which contains it. -/
def execCorrectedMonitorEvent (r : Nat) (s : State) : Host.Outcome State Fault Refusal :=
  live s (if r < 4 ∧ regionPresent s.variant r = true then
    (makeRecord ⟨2, 2, 15, r, 0, none⟩ true false 1 s).2 else s)

/-- The page is that of a handler of the device, and the number of its records. -/
def pageCap (s : State) (base : Nat) : Option Nat :=
  if base = Reg.fmChip_FM_STATUS then some 64
  else if (regions s).any (fun r => base == Reg.fmReg_FM_STATUS r) then some 16
  else if (List.range 64).any (fun b => blockPresent s b && base == Reg.fmBlk_FM_STATUS b) then some 16
  else none

/-- FM_ACK (R341). -/
def execFmAck (p : Party) (base : Nat) (index : Nat) (s : State) : Host.Outcome State Fault Refusal :=
  live s (match pageCap s base with
    | none => s
    | some cap => csrEffect p (base + 8) (v := BitVec.ofNat 32 index) (fun t =>
      if cap ≤ index ∨ (fmUsed t base).contains index = false then t
      else if (rdWord t (fmRecAt base index)).getLsbD 1 = false then fmEvent base 2 t
      else { t with fmOrder := tset base ((fmUsed t base).filter (· != index)) t.fmOrder } |> wrWords (fmRecAt base index) 0 4) s)

/-! ### The acts of the chip fault manager (R339) -/

/-- The record of a fault shows the action taken; `ended`: DONE too. -/
def actionShown (ended : Bool) (f : FaultRep) (action : Nat) (s : State) : State :=
  match f.entry with
  | none => s
  | some i =>
    let a := fmRecAt Reg.fmChip_FM_STATUS i
    let t := putF ⟨a, 16, 8⟩ action s
    if ended then putF ⟨a, 1, 1⟩ 1 t else t

def actionDone (f : FaultRep) (action : Nat) (s : State) : State := actionShown true f action s

/-- Affected contexts: protected ones are to be recovered, the others become FAULTED with FAULT `cause`. -/
def affect (cs : List Nat) (cause : Nat) (cores : List Nat) (reset : Bool) (s : State) : State :=
  let prot := cs.filter (dProt s)
  let t := (cs.filter (fun c => !dProt s c)).foldl (fun u c => faultCtx c cause u) s
  let u := prot.foldl (fun v c => v |> leaveRecov c |> beginRecovery c) t
  if prot.isEmpty && !reset then u else startRecov ⟨prot, cores, reset⟩ u

/-- Contexts of a list that run. -/
def runningOf (s : State) (cs : List Nat) : List Nat := (ctxList s).filter (fun c => cs.contains c && running s c)

/-- A core of the block that is free to be exchanged: it has no slot in use and is not held. -/
def freeCore (s : State) (c : Nat) : Option Nat :=
  (coresOfBlock (blockOfCore c)).find? (fun k => k != c && (slotsInUse s k).isEmpty && !coreHeld s k)

/-- The check bits of a core's stores are valid again. -/
def freshStores (c : Nat) (s : State) : State :=
  { s with ecc := s.ecc.filter (fun p => !(decide (coreBase c ≤ p.1) && decide (p.1 < coreBase c + 0x40000))) }

def setRemap (c p : Nat) (s : State) : State := modCore c (fun k => { k with remap := some p }) s

/-- Soma and delay stores of core `c`, which the exchange brings with the other physical core. -/
def moveNeurons (src dst : Nat) (s : State) : State :=
  let moved := (s.mem.filter (fun q => decide (coreBase src ≤ q.1) && decide (q.1 < coreBase src + 0x30000)))
  moved.foldl (fun t q => setMem (setByte (q.1 - coreBase src + coreBase dst) q.2 t.mem) t) (zeroMem (coreBase dst) 0x30000 s)

/-- Core `c` is reset by the chip fault manager, as a request of its own under R14: a higher reset in progress covers it, and
one that begins later supersedes it. -/
def faultReset (c : Nat) (s : State) : State := request none 4 c (coreStart c none) s

/-- The core fault of R339. -/
def coreFaultAct (f : FaultRep) (s : State) : State :=
  let c := f.unit
  let b := blockOfCore c
  let cs := ctxsOn s (· == c)
  if !bitN (getF s Reg.glob_SPARE_USED_BLOCK) b then
    s |> flagF Reg.glob_SPARE_USED_BLOCK b |> affect cs 1 [c] true |> faultReset c |> setRemap c 16 |> freshStores c
      |> zeroMem (coreBase c) 0x30000 |> actionDone f 3
  else match freeCore s c with
    | some k =>
      s |> affect cs 1 [c] true |> faultReset c |> coreBegin k |> moveNeurons k c |> freshStores c
        |> setRemap c (coreInBlock k) |> setRemap k 17 |> actionDone f 4
    | none => cs.foldl (fun t x => faultCtx x 5 t) s |> actionDone f 5

/-- The row of a slice word at address `w` of the view. -/
def rowOfWord (s : State) (w : Nat) : Nat × Nat :=
  let p := sliceOf s.variant (w - viewBase)
  (p.1, p.2 / 4096)

/-- The words of a row that hold wrong bits. -/
def rowErrors (s : State) (b row : Nat) : List (Nat × Nat) :=
  s.ecc.filter (fun p => decide (viewBase ≤ p.1) && decide (p.1 < viewBase + viewLen s.variant) && rowOfWord s p.1 == (b, row))

/-- A word that cannot be corrected takes the content of the image copy, for those that `copies` names with the main-memory
offset of their copy, and zero otherwise (R339). A copy that main memory does not return leaves zero (DESIGN CHOICE, log entry
66). -/
def restoreWord (copies : List (Nat × Nat)) (w : Nat) (s : State) : State :=
  match copies.find? (fun q => viewBase + q.1 == w) with
  | some q => let r := mainRead (mainBase + q.2) 8 s; wrBytes w (r.data.getD (List.replicate 8 0)) r.st
  | none => wrNum w 8 0 s

/-- A slice row fault (R339): `listed` are the contexts that use the row, `copies` its words that hold image content. -/
def rowFaultAct (f : FaultRep) (listed : List Nat) (copies : List (Nat × Nat)) (s : State) : State :=
  let b := f.unit
  let row := f.detail / 4096
  let cs := runningOf s listed
  if (s.rows.filter (fun r => r.slice == b && !r.retired)).length < 2 then
    let es := rowErrors s b row
    let t := es.foldl (fun u p => clearEcc p.1 (if 2 ≤ p.2 then restoreWord copies p.1 u else u))
      { s with rows := s.rows ++ [⟨b, row, false⟩] }
    t |> affect cs 2 [] false |> actionDone f 6
  else cs.foldl (fun t c => faultCtx c 2 t) { s with rows := s.rows ++ [⟨b, row, true⟩] } |> actionDone f 7

/-- The contexts that a failed channel affects: those `listed`, whose image copy lies only in its group, and those whose
output ring does (R339). -/
def channelUsers (s : State) (ch : Nat) (listed : List Nat) : List Nat :=
  (ctxList s).filter (fun c => running s c &&
    (listed.contains c || (dRingEn s c && ringOnlyIn s (dRing s c) (groupOf s.variant ch))))

/-- A region clock or rail fault: the region is reset, which the fault has started; DONE waits for its release (R341). -/
def regionAct (f : FaultRep) (s : State) : State :=
  actionShown (!(regionHeld s f.unit || s.resets.any (fun r => r.kind == 3 && r.target == f.unit))) f 10 s

/-- What the chip fault manager does with a fault. A fabric fault's action ends when the alternate routes stand (R199), a pause of the
contexts when they are PAUSED (R389). -/
def faultAct (f : FaultRep) (listed : List Nat) (copies : List (Nat × Nat)) (s : State) : State :=
  match f.kind with
  | 4 => rowFaultAct f listed copies s
  | 5 => actionDone f 1 s
  | 7 | 8 => actionShown false f 8 s
  | 9 => s |> affect (channelUsers s f.unit listed) 4 [] false |> actionDone f 9
  | 10 | 11 => regionAct f s
  | 12 => actionDone f 1 s
  | 13 => actionDone f 12 s
  | 14 => actionShown (!pausesOn s) f 13 s
  | _ => coreFaultAct f s

/-- The fault may be acted on: a lost main reference is judged once it has returned (R456). -/
def actNow (s : State) (f : FaultRep) : Bool := !(f.kind == 12 && f.unit == 13 && s.holdover)

/-- CHIP_FAULT_ACTION (R339). A read of an image copy waits for a channel in training (R426). -/
def execChipFaultAction (listed : List Nat) (copies : List (Nat × Nat)) (s : State) : Host.Outcome State Fault Refusal :=
  live s (match s.chipFaults.find? (actNow s) with
    | none => s
    | some f =>
      if f.kind == 4 && copies.any (fun q => mainWaits s (mainBase + q.2) 8) then s
      else faultAct f listed copies { s with chipFaults := s.chipFaults.erase f })

/-! ### Recovery (R342, R347, R348) -/

/-- An item of the context waits at a chip port. -/
def atPort (s : State) (ctx : Nat) : Bool := s.portIn.any (fun q => q.2.any (fun a => itemOf s ctx a.pkt))

/-- The chip fault manager's own reset of core `c` is in progress: no higher reset has superseded it. -/
def ownReset (s : State) (r : Recov) (c : Nat) : Bool :=
  r.reset && s.resets.any (fun q => q.kind == 4 && q.target == c && q.by' == none && !q.waits)

/-- Item 1 of R342 has ended: no item names the contexts' slots or the failed core, no contribution of the contexts from before
is under way (R547), and the cores are out of reset, or in the reset that this recovery ends. -/
def isolated (s : State) (r : Recov) : Bool :=
  chipState s != 5 && r.ctxs.all (fun c => !itemsInFlight s c && !atPort s c && !ckptWaits s c) &&
  r.cores.all (fun c => if ownReset s r c then s.fab.retx.all (fun e => !addressesCore s c e.pkt) else !coreHeld s c)

/-- Items 4 and 5 of R342 for one context. What its cores and admission control have sent to the step-done network since the
recovery began is discarded before them (R547). -/
def recoverCtx (s : State) (ctx : Nat) : State :=
  if !dRecovering s ctx then s
  else
    let t := { s with results := s.results.filter (fun e => e.ctx != ctx) } |> discardContribs ctx
    let u := ckptTried ctx t
    match ckptChoice t ctx with
    | some b => restoreCtx ctx b u
    | none => faultCtx ctx 5 u

/-- RECOVERY (R342): the oldest recovery that is isolated. -/
def execRecovery (s : State) : Host.Outcome State Fault Refusal :=
  live s (match s.recovs.find? (isolated s) with
    | none => s
    | some r =>
      let t := { s with recovs := s.recovs.erase r }
      let own := r.cores.filter (ownReset s r)
      let u := if own.isEmpty then t else
        { t with resets := t.resets.filter (fun q => !(q.kind == 4 && own.contains q.target && q.by' == none)) }
          |> holdCores (fun c => own.contains c) false |> rstEvent 4
      r.ctxs.foldl recoverCtx (r.cores.foldl (fun v c => loadCore c v) u))

end Sys2Proof.Machine
end

