-- ==== Sys2Proof/Machine/Power.lean ====
section
/-! DEFINITION. Power states, the wake governor, voltage and frequency, and the supplies (R474-R491, R539-R543). -/

namespace Sys2Proof.Machine

def modPins (f : Pins → Pins) (s : State) : State := { s with pins := f s.pins }
def pwrEvent (i : Nat) (s : State) : State := flagF Reg.pwr_PWR_EVENTS_EVENTS i s

/-! ### Automatic idle (R475-R477, R484) and the governor (R486) -/

def p1On (s : State) (r : Nat) : Bool := bitN (getF s Reg.pwr_PWR_P1_CFG_P1_EN) r

/-- Every engine is IDLE, every queue of R73 is empty, and no released wicket waits. -/
def coreIdle (s : State) (c : Nat) : Bool :=
  let k := core s c
  (List.range 6).all (fun e => (eng s c e).st == .idle && (eng s c e).happen.isEmpty) &&
  k.ingress.isEmpty && k.hold.isEmpty && k.ops.isEmpty && k.late.isEmpty && k.pre.isEmpty && k.fire.isEmpty && k.post.isEmpty &&
  k.preReady.isEmpty && k.postReady.isEmpty && k.send.isEmpty && k.ctrl.isEmpty && k.soCmd.isEmpty && k.seCmd.isEmpty &&
  k.forming.isEmpty && k.sqOut.isEmpty && k.stepReady.isEmpty &&
  k.fanout.isNone && k.arrivals.isEmpty && k.refusals.isEmpty && k.applying.isNone &&
  (slotsInUse s c).all (fun p => tget 0 p k.released == tget 0 p k.taken)

/-- All cores of the block sleep, and its BDU has nothing to do. -/
def blockIdle (s : State) (b : Nat) : Bool :=
  (coresOfBlock b).all (fun c => (core s c).asleep) && (bduOf s b).queue.isEmpty && (bduOf s b).run.isNone

def regionRuns (s : State) (r : Nat) : Bool :=
  decide (r < 4) && regionPresent s.variant r && !regionDown s r && !regionHeld s r && !s.power.p3 && !s.power.p4

/-- CORE_SLEEP (R475). -/
def execCoreSleep (c : Nat) (s : State) : Host.Outcome State Fault Refusal :=
  live s (if corePresent s c && regionRuns s (regionOfCore c) && !coreHeld s c && p1On s (regionOfCore c) && !(core s c).asleep
      && coreIdle s c then govAdd ⟨false, c, false⟩ s else s)

/-- BLOCK_SLEEP (R476). -/
def execBlockSleep (b : Nat) (s : State) : Host.Outcome State Fault Refusal :=
  live s (if blockPresent s b && regionRuns s (regionOfBlock b) && p1On s (regionOfBlock b) && !blockAsleep s b && blockIdle s b then
    govAdd ⟨true, b, false⟩ s else s)

/-- WAKE_CAUSE (R477). -/
def execWakeCause (block : Bool) (n : Nat) (s : State) : Host.Outcome State Fault Refusal :=
  live s (if block then (if blockPresent s n then wakeBlock n s else s) else if corePresent s n then wakeCore n s else s)

/-- P1_EN of region `r` cleared: every core and block of it wakes, the blocks before their cores, and those in ascending order
(R486). -/
def wakeRegion (r : Nat) (s : State) : State :=
  ((List.range 1024).filter (fun c => regionOfCore c == r)).foldl (fun t c => wakeCore c t)
    ((blocksOfRegion r).foldl (fun t b => wakeBlock b t) s)

/-- The admitted act is done. An entry whose condition no longer holds is dropped. A block that wakes sees the trigger words that its
slice has held for it (R477). -/
def govDo (a : GovAct) (s : State) : State :=
  match a.block, a.wake with
  | true, true => trigAwake a.unit (modPower (fun p => { p with blocksAsleep := p.blocksAsleep.filter (· != a.unit) }) s)
  | true, false => if blockIdle s a.unit then modPower (fun p => { p with blocksAsleep := a.unit :: p.blocksAsleep.filter (· != a.unit) }) s else s
  | false, true => modCore a.unit (fun k => { k with asleep := false }) s
  | false, false => if coreIdle s a.unit then modCore a.unit (fun k => { k with asleep := true }) s else s

def govRegion (a : GovAct) : Nat := if a.block then regionOfBlock a.unit else regionOfCore a.unit

/-- The first act of region `r` that waits is admitted after `waited` ns (R486). -/
def govAdmit (r waited : Nat) (s : State) : State :=
  match s.power.gov.find? (fun a => govRegion a == r) with
  | none => s
  | some a =>
    modPower (fun p => { p with gov := p.gov.erase a }) s |> govDo a
      |> putF (Reg.pwr_GOV_MAX_WAIT_NS r) (max (getF s (Reg.pwr_GOV_MAX_WAIT_NS r)) (min waited 0xFFFFFFFF))

/-! ### P2 (R478-R481, R484) -/

def pwrResult (v : Nat) (s : State) : State := putF Reg.pwr_PWR_STATUS_RESULT v s

/-- The case of R478 in which ENTER_P2 is refused. -/
def p2Why (s : State) (r : Nat) (compat : Bool) : Option Nat :=
  if (ctxList s).any (fun c => inHold s c || dRecovering s c) then some 1
  else if (blocksOfRegion r).any (fun b => blkEnabled s (Reg.bdu_BLK_CTRL b)) then some 2
  else if (List.range 8).any (pdmaRunning s) || (List.range 16).any (sdmaRunning s) then some 3
  else if compat && (coresOfRegion r).any (fun c => (slotsInUse s c).any (fun k => slotState s c k != stFree)) then some 4
  else if regionPwr s r != 0 || regionHeld s r then some 5
  else none

/-- The command of region `r` is in progress. -/
def pwrBusy (r : Nat) (s : State) : State :=
  s |> setF Reg.pwr_PWR_STATUS_BUSY |> pwrResult 0 |> modPower (fun p => { p with cmdRegion := some r })

/-- The command in progress has ended. -/
def pwrDone (r : Nat) (s : State) : State :=
  if s.power.cmdRegion = some r then
    s |> clrF Reg.pwr_PWR_STATUS_BUSY |> pwrResult 1 |> modPower (fun p => { p with cmdRegion := none })
  else s

/-- A P2 command for region `r`: BUSY or BAD_TARGET, or it is taken. -/
def p2Cmd (r : Nat) (body : State → State) (s : State) : State :=
  if isSet s Reg.pwr_PWR_STATUS_BUSY then pwrResult 4 s
  else if !(decide (r < 4) && regionPresent s.variant r) then pwrResult 3 s
  else body s

/-- ENTER_P2 (R478, R479). Accesses that wait for a unit of the region end in bus errors (R29). -/
def execEnterP2 (p : Party) (r : Nat) (compat : Bool) (s : State) : Host.Outcome State Fault Refusal :=
  live s (csrEffect p Reg.pwr_PWR_CMD (p2Cmd r (fun t =>
    match p2Why t r compat with
    | some w => t |> pwrResult 2 |> putF Reg.pwr_PWR_STATUS_WHY w |> pwrEvent 7
    | none => t |> cutHeld (fun a => fabricRegion t a == some r) |> pwrBusy r |> setRegionPwr r 1 |> setRegionReady r false |> modPower (fun q => { q with compat := compat }))) s)

/-- P2_ENTRY_DONE (R479, R484). -/
def execP2EntryDone (r : Nat) (s : State) : Host.Outcome State Fault Refusal :=
  live s (if r < 4 ∧ regionPwr s r = 1 then
    let t := s |> setVcoreEn r false |> setRegionPwr r (if s.power.compat then 3 else 2) |> pwrEvent 6 |> pwrDone r
      |> unlockPll (5 + r)
      |> modPower (fun p => { p with compatRegions := if p.compat then r :: p.compatRegions.filter (· != r) else p.compatRegions
                                     exitNext := p.exitNext.filter (· != r) })
    if s.power.exitNext.contains r then startExit r t else t
  else s)

/-- EXIT_P2 (R481). A region that is not in P2 has nothing to leave (DESIGN CHOICE). -/
def execExitP2 (p : Party) (r : Nat) (s : State) : Host.Outcome State Fault Refusal :=
  live s (csrEffect p Reg.pwr_PWR_CMD (p2Cmd r (fun t =>
    if inP2 t r then t |> pwrBusy r |> startExit r
    else if regionPwr t r = 4 then pwrBusy r t
    else pwrResult 1 t)) s)

/-- The stores of the region's cores and its slices without KEEP lose their contents (R474, R481). -/
def loseRegion (r : Nat) (s : State) : State :=
  let keeps (b : Nat) : Bool := isSet s (Reg.slice_SLICE_PWR_KEEP b)
  let lost (a : Nat) : Bool :=
    (isCoreWindow a && regionOfCore (coreOfAddr a) == r) ||
    (decide (viewBase ≤ a) && decide (a < viewBase + viewLen s.variant) &&
      regionOfBlock (sliceOf s.variant (a - viewBase)).1 == r && !keeps (sliceOf s.variant (a - viewBase)).1)
  { s with mem := s.mem.filter (fun c => !lost c.1), ecc := s.ecc.filter (fun p => !lost p.1) }

/-- A region leaves AY96-compatible P2 as from a region reset (item 3 of R481). -/
def compatExit (r : Nat) (s : State) : State :=
  let dropRings (s : State) : State := { s with cores := s.cores.map (fun p =>
    if regionOfCore p.1 == r then (p.1, { p.2 with origins := [], ringLeft := [], ringTake := [] }) else p) }
  s |> loseRegion r |> clearCores (fun c => regionOfCore c == r) false |> dropRings |> clearBlocks (fun b => regionOfBlock b == r)
    |> modPower (fun p => { p with compatRegions := p.compatRegions.filter (· != r)
                                   blocksAsleep := p.blocksAsleep.filter (fun b => regionOfBlock b != r) })

/-- The resets that waited for region `r` begin (R484). -/
def beginWaiting (r : Nat) (s : State) : State :=
  let mine (q : RunningReset) : Bool := q.waits && ((q.kind == 3 && q.target == r) || (q.kind == 4 && regionOfCore q.target == r))
  let qs := s.resets.filter mine
  qs.foldl (fun t q => if q.kind = 3 then regionBegin q.target t else coreBegin q.target t)
    { s with resets := s.resets.map (fun q => if mine q then { q with waits := false } else q) }

/-- P2_EXIT_DONE (R481, R542). A region that a reset holds is ready when that releases it. -/
def execP2ExitDone (r : Nat) (s : State) : Host.Outcome State Fault Refusal :=
  live s (if r < 4 ∧ regionPwr s r = 4 ∧ bitN s.pins.vcorePg r = true then
    (if s.power.compatRegions.contains r then compatExit r s else s)
      |> setRegionPwr r 0 |> setRegionReady r (!regionHeld s r) |> lockPll (5 + r) |> align |> pwrDone r
      |> beginWaiting r
  else s)

/-! ### P3 (R482, R483) and the I2C wake (R485) -/

/-- The device goes down to its AON domain, with every unit held and the outputs on VDDIO off (R482, R535, R539); `lost`: main memory is
abandoned. -/
def p3Enter (lost : Bool) (s : State) : State :=
  let t := s |> supersede 1 0 |> warmState
  let m := if lost then t.mem.filter (fun c => decide (c.1 < mainBase)) else t.mem
  { t with mem := m, ecc := if lost then [] else t.ecc }
    |> modPower (fun p => { p with p3 := true, memLost := lost, waking := false, railHeld := [] })
    |> modPins (fun p => { p with vcoreEn := 0, sysPwrEn := false, memPwrEn := isSet s Reg.pwr_PWR_CFG_P3_MEM_SR, ioZ := true })
    |> (fun u => { u with sec := { u.sec with unwrapDue := true, idKey := none } }) |> clrF Reg.sec_SEC_STATUS_ID_OK
    |> putF Reg.clk_CLK_STATUS_LOCK (getF s Reg.clk_CLK_STATUS_LOCK % 2) |> clrF Reg.clk_CLK_ALIGN_ALIGNED |> clrF Reg.clk_CLK_ALIGN_TB_LOCKED
    |> holdAll |> clrF Reg.pwr_PWR_STATUS_BUSY |> setChipState 6

/-- ENTER_P3 (R482). -/
def execEnterP3 (p : Party) (s : State) : Host.Outcome State Fault Refusal :=
  live s (csrEffect p Reg.pwr_PWR_CMD (fun t =>
    if t.power.p3 then t else t |> p3Enter (!isSet t Reg.pwr_PWR_CFG_P3_MEM_SR) |> pwrResult 1) s)

/-- I2C_WAKE (R485). -/
def execI2cWake (addr : Nat) (s : State) : Host.Outcome State Fault Refusal :=
  live s (if !s.power.p4 && isSet s Reg.pwr_PWR_WAKE_CFG_EN && getF s Reg.pwr_PWR_WAKE_CFG_ADDR == addr && decide (8 ≤ addr) &&
      decide (addr < 0x78) then
    let t := pwrEvent 5 s
    if t.power.p3 then t |> modPower (fun p => { p with waking := true }) |> modPins (fun p => { p with memPwrEn := true, sysPwrEn := true })
    else ((List.range 4).filter (bitN (getF t Reg.pwr_PWR_WAKE_CFG_P2_MASK))).foldl (fun u r => wakeFor r u) t
  else s)

/-- VCORE_EN of the regions that the variant has, once the fuses are loaded (R529, R539). -/
def vcoreOn (s : State) : Nat :=
  if isSet s Reg.glob_FUSE_STATUS_LOADED then (regions s).foldl (fun n r => n + 2 ^ r) 0 else 15

/-- The exit from P3 with main memory abandoned: COLD_INIT, with the AON domain and the spare map kept (R483). -/
def p3Cold (s : State) : State :=
  { s with csr := s.csr.filter (fun p => isAon p.1 || p.1 == Reg.glob_SPARE_USED || p.1 == Reg.glob_SPARE_USED + 4
      || p.1 == Reg.sec_SEC_STATUS) } |> putF Reg.clk_CLK_STATUS_REF_OK 0

/-- P3_EXIT (R483). -/
def execP3Exit (s : State) : Host.Outcome State Fault Refusal :=
  live s (if s.power.p3 && s.power.waking && suppliesUp s && s.pins.rstN then
    modPower (fun p => { p with p3 := false, waking := false, memLost := false }) s
      |> (fun t => if s.power.memLost then p3Cold t else warmPath (!bitN (getF t Reg.clk_CLK_STATUS_REF_OK) 0) none t)
      |> setF Reg.pwr_PWR_STATUS_FROM_P3 |> pwrEvent 8
  else s)

/-! ### Supplies (R539-R543) -/

/-- SYS_PG_RISE (R535, R539): the outputs on VDDIO drive their levels. It ends the P3 that a fall of SYS_PG began (R542). -/
def execSysPgRise (s : State) : Host.Outcome State Fault Refusal :=
  live s (if !s.power.p4 && !s.pins.sysPg then
    let up := !s.power.p3 || s.power.waking
    modPins (fun p => { p with sysPg := true, vcoreEn := vcoreOn s, ioZ := false
                               sysPwrEn := p.sysPwrEn || up, memPwrEn := p.memPwrEn || up }) s
  else s)

/-- SYS_PG_FALL (R539, R542): while the device has SYS_PWR_EN released it is an entry to P3 with main memory abandoned, which ends when
SYS_PG rises again. In COLD_INIT the device waits (R540). -/
def execSysPgFall (s : State) : Host.Outcome State Fault Refusal :=
  live s (if s.pins.sysPg then
    let t := modPins (fun p => { p with sysPg := false, vcoreEn := 0 }) s
    if !s.pins.sysPwrEn || s.power.p4 || chipState s == 0 then t
    else t |> p3Enter true |> modPower (fun p => { p with waking := true })
  else s)

/-- VDD_AON_RISE (R539, R540): power-up, with RST_N held low. -/
def execVddAonRise (s : State) : Host.Outcome State Fault Refusal :=
  live s (if s.power.p4 then
    coldBegin 0 { resetPins s.pins with rstN := false, sysPwrEn := true, memPwrEn := true, vcoreEn := 0, vcorePg := 0, sysPg := false
                                        thermTripN := true, ioZ := true } s
  else s)

/-- The levels with every supply off. -/
def pinsOff (p : Pins) : Pins :=
  { vcoreEn := 0, sysPwrEn := false, memPwrEn := false, rstN := false, vcorePg := 0, sysPg := false, thermTripN := false, ioZ := true
    trigIn := p.trigIn, perstN := p.perstN, laneSwap := p.laneSwap, eipSwap := p.eipSwap, bootSrc := p.bootSrc }

/-- SUPPLY_REMOVAL (R474, R520): P4, in which nothing is kept. -/
def execSupplyRemoval (s : State) : Host.Outcome State Fault Refusal :=
  live s ({ State.reset with pending := s.pending, variant := s.variant, free := s.free, outside := { s.outside with cfg := [], tlps := [] }
                             pins := pinsOff s.pins } |> modPower (fun p => { p with p4 := true }))

/-- A rail fault of region `r`: it is held as in a region reset (R339, R542). -/
def railFault (r : Nat) (s : State) : State :=
  let t := s |> raiseUp 2 2 11 r 0 |> modPower (fun p => { p with railHeld := r :: p.railHeld.filter (· != r) })
  if t.resets.any (fun q => q.kind == 3 && q.target == r) then t
  else t |> supersede 3 r |> addReset ⟨3, r, none, false⟩ |> regionBegin r

/-- VCORE_PG_FALL (R542): with VCORE_EN released, as it is but in P2, it is a rail fault. -/
def execVcorePgFall (r : Nat) (s : State) : Host.Outcome State Fault Refusal :=
  live s (if r < 4 ∧ bitN s.pins.vcorePg r = true then
    let t := modPins (fun p => { p with vcorePg := setBitN p.vcorePg r false }) s
    if regionPresent s.variant r && bitN s.pins.vcoreEn r && !inP2 s r && chipState s != 0 && !s.power.p3 && !s.power.p4 then
      railFault r t
    else t
  else s)

/-- VCORE_PG_RISE (R542). -/
def execVcorePgRise (r : Nat) (s : State) : Host.Outcome State Fault Refusal :=
  live s (if r < 4 then
    s |> modPins (fun p => { p with vcorePg := setBitN p.vcorePg r true })
      |> modPower (fun p => { p with railHeld := p.railHeld.filter (· != r) })
  else s)

/-- THERM_TRIP (R543). -/
def execThermTrip (_sensor : Nat) (s : State) : Host.Outcome State Fault Refusal :=
  live s (if s.power.p4 then s else modPins (fun p => { p with thermTripN := false }) s)

/-! ### Voltage and frequency (R488-R490) -/

/-- The minimum voltage in mV for a MULT (R488). A MULT below 4 is taken as 4. -/
def minVmv (mult : Nat) : Nat := [550, 570, 590, 610, 630, 650, 670, 690, 720, 750, 770, 800].getD (max mult 4 - 4) 800

def vfMult (s : State) (r : Nat) : Nat := max 4 (getF s (Reg.pwr_PWR_VF_MULT r))
def curMult (s : State) (r : Nat) : Nat := tget (getF s (Reg.pwr_PWR_VF_STATUS_CUR_MULT r)) r s.power.mPending
def curVmv (s : State) (r : Nat) : Nat := getF s (Reg.pwr_PWR_VF_STATUS_CUR_VMV r)

/-- The mantissa of VOUT_COMMAND: VMV × 2^(-e) / 1,000, rounded (R490). -/
def voutMantissa (vmv : Nat) (e : Int) : Int :=
  if e < 0 then rquot (vmv * 2 ^ e.natAbs) 1000 else rquot vmv (1000 * 2 ^ e.natAbs)

/-- A voltage change has been acknowledged: it settles. -/
def sendVmv (r vmv : Nat) (s : State) : State :=
  s |> modPower (fun p => { p with vPending := tset r vmv p.vPending, vCmd := tset r (voutMantissa vmv (tget 0 r p.vExp)) p.vCmd })
    |> setF (Reg.pwr_PWR_VF_STATUS_SETTLING r) |> clrF (Reg.pwr_PWR_VF_STATUS_V_OK r)

/-- A change of the core clock begins. -/
def sendMult (r mult : Nat) (s : State) : State :=
  s |> modPower (fun p => { p with mPending := tset r mult p.mPending }) |> setF (Reg.clk_CLK_CORE_CHANGING r)
    |> clrF Reg.clk_CLK_ALIGN_ALIGNED

/-- The flags of R489 and R490 that refuse a write of PWR_VF_r. It raises MULT above the requested one, or, where a cap has lowered
the clock, by bringing that back up (R491). -/
def vfFlags (s : State) (r vmv mult : Nat) : List Nat :=
  let v0 := getF s (Reg.pwr_PWR_VF_VMV r)
  let m0 := vfMult s r
  let order := (mult != m0 && vmv != v0) ||
    ((decide (m0 < mult) || (vmv == v0 && decide (curMult s r < mult))) && (isSet s (Reg.pwr_PWR_VF_STATUS_SETTLING r) || decide (curVmv s r < minVmv mult))) ||
    decide (vmv < minVmv mult)
  let range := decide (vmv < 550) || decide (800 < vmv)
  let pmbus := vmv != v0 && !isSet s (Reg.pwr_PWR_VF_STATUS_MODE_OK r)
  (if order then [0] else []) ++ (if range then [1] else []) ++ (if pmbus then [2] else [])

/-- A region that runs at its ceiling is lowered by the cap no longer (R491). -/
def capTidy (s : State) : State := modPower (fun p => { p with capped := p.capped.filter (fun r => decide (curMult s r < vfMult s r)) }) s

/-- Software has set the point of region `r`: what the cap still had to do to its voltage falls away. -/
def capDrop (r : Nat) (s : State) : State := modPower (fun p => { p with vDue := tdel r p.vDue }) s

/-- A write of PWR_VF_r. Its VOUT_COMMAND, if the regulator does not acknowledge it, is abandoned: the requested point stands, and CUR_VMV
keeps its value (R490). -/
def vfWrite (r vmv mult : Nat) (acked : Bool) (s : State) : State :=
  let m := max 4 mult
  if regionDown s r then pwrEvent 9 s
  else match vfFlags s r vmv m with
    | [] =>
      let t := s |> putF (Reg.pwr_PWR_VF_VMV r) vmv |> putF (Reg.pwr_PWR_VF_MULT r) mult |> capDrop r
      capTidy (if vmv != getF s (Reg.pwr_PWR_VF_VMV r) then (if acked then sendVmv r vmv t else pwrEvent 2 t)
      else if m != curMult s r then sendMult r m t
      else t)
    | fs => fs.foldl (fun t i => pwrEvent i t) s

/-- PWR_VF_WRITE (R480, R489, R490). -/
def execPwrVfWrite (p : Party) (r vmv mult : Nat) (acked : Bool) (s : State) : Host.Outcome State Fault Refusal :=
  live s (if r < 4 then csrEffect p (Reg.pwr_PWR_VF r) (vfWrite r (vmv % 1024) (mult % 16) acked) s else s)

/-- MULT_CHANGE_DONE (R458, R490). The BDUs go on with the trigger words that came meanwhile. -/
def execMultChangeDone (r : Nat) (s : State) : Host.Outcome State Fault Refusal :=
  live s (match tfind r s.power.mPending with
    | none => s
    | some m =>
      modPower (fun p => { p with mPending := tdel r p.mPending }) s |> putF (Reg.pwr_PWR_VF_STATUS_CUR_MULT r) m
        |> putF (Reg.clk_CLK_CORE_MULT r) m |> clrF (Reg.clk_CLK_CORE_CHANGING r) |> align
        |> (fun t => (blocksOfRegion r).foldl (fun u b => trigAwake b u) t))

/-- A write of PWR_PMBUS_r reads VOUT_MODE from the regulator. -/
def pmbusWrite (r addr vramp : Nat) (vout : Option Nat) (s : State) : State :=
  let t := s |> putF (Reg.pwr_PWR_PMBUS_ADDR r) addr |> putF (Reg.pwr_PWR_PMBUS_VRAMP_US r) vramp
  match vout with
  | some v =>
    if v / 32 % 8 = 0 then
      t |> setF (Reg.pwr_PWR_VF_STATUS_MODE_OK r) |> modPower (fun p => { p with vExp := tset r (sx 5 (v % 32)) p.vExp })
    else t |> clrF (Reg.pwr_PWR_VF_STATUS_MODE_OK r) |> pwrEvent 2
  | none => t |> clrF (Reg.pwr_PWR_VF_STATUS_MODE_OK r) |> pwrEvent 2

/-- PMBUS_ADDR_WRITE (R490). -/
def execPmbusAddrWrite (p : Party) (r addr vramp : Nat) (vout : Option Nat) (s : State) : Host.Outcome State Fault Refusal :=
  live s (if r < 4 then csrEffect p (Reg.pwr_PWR_PMBUS r) (pmbusWrite r addr vramp vout) s else s)

/-! ### The power cap (R491) -/

def capFloor (s : State) (r : Nat) : Nat := max 4 (bitsN (getF s Reg.pwr_PWR_CAP_FLOOR_FLOOR) (4 * r) 4)

/-- A voltage change by the cap; whether the regulator acknowledges is not the device's to say (a free value). One that meets a change
in hand waits for it to settle. -/
def capVmv (r vmv : Nat) (s : State) : State :=
  if !isSet s (Reg.pwr_PWR_VF_STATUS_MODE_OK r) then s
  else if isSet s (Reg.pwr_PWR_VF_STATUS_SETTLING r) then modPower (fun p => { p with vDue := tset r vmv p.vDue }) s
  else
    let t := spendFree (capDrop r s)
    if (freeWord s).getLsbD 0 then sendVmv r vmv t else pwrEvent 2 t

/-- The voltage of region `r` has settled at `v`; a lowering by the cap that has waited follows, to what the clock then needs. -/
def settled (r v : Nat) (s : State) : State :=
  let t := modPower (fun p => { p with vPending := tdel r p.vPending }) s |> putF (Reg.pwr_PWR_VF_STATUS_CUR_VMV r) v
    |> clrF (Reg.pwr_PWR_VF_STATUS_SETTLING r) |> setF (Reg.pwr_PWR_VF_STATUS_V_OK r)
  match tfind r s.power.vDue with
  | some _ => if minVmv (curMult t r) < v then capVmv r (minVmv (curMult t r)) (capDrop r t) else capDrop r t
  | none => t

/-- VF_SETTLED (R490). -/
def execVfSettled (r : Nat) (s : State) : Host.Outcome State Fault Refusal :=
  live s (match tfind r s.power.vPending with
    | none => s
    | some v => settled r v s)

/-- The region that comes first by `f`, the lowest of equals. -/
def pickRegion (f : Nat → Nat) (rs : List Nat) : Option Nat :=
  rs.foldl (fun best r => match best with
    | none => some r
    | some b => if f b < f r then some r else some b) none

def capped (r : Nat) (s : State) : State := modPower (fun p => { p with capped := r :: p.capped.filter (· != r) }) s

/-- Above the cap: CUR_MULT of the region with the highest estimate falls by one. -/
def capLower (est : Nat → Nat) (s : State) : State :=
  match pickRegion est ((regions s).filter (fun r => regionPwr s r == 0 && decide (capFloor s r < curMult s r))) with
  | none => pwrEvent 4 s
  | some r =>
    let m := curMult s r - 1
    let t := s |> sendMult r m |> capped r
    if isSet s Reg.pwr_PWR_CAP_AUTO_V && (decide (minVmv m < curVmv s r) || isSet s (Reg.pwr_PWR_VF_STATUS_SETTLING r)) then capVmv r (minVmv m) t else t

/-- Below 95 % for 1 ms: CUR_MULT of the lowest region below its ceiling rises by one, once its voltage admits that. -/
def capRaise (s : State) : State :=
  match pickRegion (fun r => 15 - curMult s r) ((regions s).filter (fun r => regionPwr s r == 0 && s.power.capped.contains r
      && decide (curMult s r < vfMult s r))) with
  | none => s
  | some r =>
    let m := curMult s r + 1
    if curVmv s r < minVmv m then
      if isSet s (Reg.pwr_PWR_VF_STATUS_SETTLING r) then modPower (fun p => { p with below := 9 }) (capDrop r s)
      else modPower (fun p => { p with below := 9 }) (capVmv r (getF s (Reg.pwr_PWR_VF_VMV r)) s)
    else if isSet s (Reg.pwr_PWR_VF_STATUS_SETTLING r) then modPower (fun p => { p with below := 9 }) s
    else
      s |> capDrop r |> sendMult r m

/-- POWER_CAP_CHECK (R491, R495). -/
def execPowerCapCheck (e0 e1 e2 e3 total : Nat) (s : State) : Host.Outcome State Fault Refusal :=
  let est (r : Nat) : Nat := [e0, e1, e2, e3].getD r 0
  live s (if s.power.p3 || s.power.p4 then s
  else
    let t := (List.range 4).foldl (fun u r => putF (Reg.pwr_PWR_EST_R_MILLIWATTS r) (min (est r) 0x3FFFF) u)
      (putF Reg.pwr_PWR_EST_MILLIWATTS (min total 0x3FFFF) s)
    let cap := getF t Reg.pwr_PWR_CAP_WATTS * 1000
    if !isSet t Reg.pwr_PWR_CAP_EN then modPower (fun p => { p with below := 0 }) t
    else
      let u := if cap < total then t |> modPower (fun p => { p with below := 0 }) |> capLower est
        else if total * 100 < cap * 95 then
          if 10 ≤ t.power.below + 1 then t |> modPower (fun p => { p with below := 0 }) |> capRaise
          else modPower (fun p => { p with below := p.below + 1 }) t
        else modPower (fun p => { p with below := 0 }) t
      let w := capTidy u
      if w.power.capped.isEmpty then w else pwrEvent 3 w)

end Sys2Proof.Machine
end

