-- ==== Sys2Proof/Machine/Security.lean ====
section
/-! DEFINITION. The security controller: identity, the requests on its mailboxes, the boot sources, attestation, the
two-party change of the protection set-up and the command of the configuration loader (R497-R519). -/

namespace Sys2Proof.Machine

/-! ### Main memory as a unit of the device reads it -/

/-- Bytes of fitted main memory that programs may use (R424). -/
def fittedBytes (s : State) : Nat := memChannels s.variant * channelBytes s

/-- Write bytes to main memory where it can be written. -/
def putMain (a : Nat) (bs : List Byte) (s : State) : State := (mainWrite a bs s).1

/-- Write several runs of bytes in order; `false` where one of them ends in a bus error. -/
def putRuns (runs : List (Nat × List Byte)) (s : State) : State × Bool :=
  runs.foldl (fun acc r => if acc.2 then mainWrite r.1 r.2 acc.1 else acc) (s, true)

/-! ### Identity (R498, R499) -/

/-- K. -/
def pufKey : List Byte := Config.shakeBytes (Config.pufResponse Config.pufHelper ++ [1]) 32

/-- The wrapped key and its tag, which stand in ID_WRAPPED in this order (DESIGN CHOICE, log entry 27: R498 gives their sizes). -/
def idCipher : List Byte := Config.idWrapped.take 2305
def idTag : List Byte := (Config.idWrapped.drop 2305).take 32

/-- The identity key, if the tag holds. -/
def idUnwrapped : Option (List Byte) :=
  if idTag = Config.shakeBytes (pufKey ++ idCipher) 32 then
    some (List.zipWith (· ^^^ ·) idCipher (Config.shakeBytes (pufKey ++ [2]) 2305))
  else none

/-- PUF_UNWRAP. -/
def execPufUnwrap (s : State) : Host.Outcome State Fault Refusal :=
  live s (if s.sec.unwrapDue && !s.power.p3 && !s.power.p4 then
    { s with sec := { s.sec with unwrapDue := false, idKey := idUnwrapped } } |> putF Reg.sec_SEC_STATUS_ID_OK (bnat idUnwrapped.isSome)
  else s)

/-! ### Requests on the mailboxes (R501) -/

/-- The mailbox that reports the result of a request on mailbox `n`. -/
def resultBox (n : Nat) : Nat := if n = 61 then 60 else 62

/-- The security controller sends a result. -/
def sendResult (box op code : Nat) (s : State) : State :=
  mbxSend (some 9) 0 box (BitVec.ofNat 32 (op * 2 ^ 28 + code % 16)) s

/-- A source is served in AWAIT_FIRMWARE and RECOVERY (R500). -/
def served (s : State) : Bool := !s.power.p3 && (chipState s == 3 || chipState s == 7)

/-- The acknowledgement of an OFFER of the image at byte offset `off` (R501). -/
def offerCode (s : State) (off : Nat) : Nat :=
  if !served s then 2 else if s.sec.verify.isSome || s.sec.attest.isSome then 3
  else if fittedBytes s ≤ off then 4 else 0

/-- The verification of the image at byte offset `off` begins. -/
def beginVerify (off : Nat) (box : Option Nat) (s : State) : State :=
  { s with sec := { s.sec with verify := some ⟨off, box⟩ } }

def attestCode (s : State) (off : Nat) : Nat :=
  if s.sec.verify.isSome || s.sec.attest.isSome then 3 else if fittedBytes s ≤ off then 4 else 0

/-- The report of R510 up to the signature: bytes 0x000 to 0x0BF. -/
def reportBody (s : State) (nonce : List Byte) : List Byte :=
  let word (a : Nat) : Nat := (liveOf s a (rdWord s a)).toNat
  let st := chipState s + 16 * bnat s.sec.live.dbgUnlock + 32 * bnat Config.debugDisable
    + 64 * getF s Reg.sec_SEC_STATUS_KEY_SLOT + 256 * s.sec.keyRevoke
  nonce ++ toBytes 1 4 ++ toBytes (word Reg.glob_DEVICE_ID) 4
    ++ toBytes (word Reg.glob_UNIQUE_ID) 4 ++ toBytes (word (Reg.glob_UNIQUE_ID + 4)) 4
    ++ toBytes (word Reg.glob_FEATURE) 4 ++ toBytes st 4 ++ toBytes (getF s Reg.boot_BOOT_COUNT_COUNT) 8
    ++ toBytes s.sec.root 64 ++ toBytes (Config.shake256 ((protWords s.sec.live).flatMap (fun w => toBytes w 4))) 64

/-- ATTEST with the buffer at byte offset `off`: the report and its result code (R510). Bytes of the buffer that the table
does not name stay. -/
def attestRun (off : Nat) (s : State) : State × Nat :=
  let a := mainBase + off
  match s.sec.idKey with
  | none => (s, 1)
  | some key =>
    let r := mainRead a 32 s
    match r.data with
    | none => (r.st, 2)
    | some nonce =>
      if !mainTakes s a 4096 then (r.st, 2)
      else
        let body := reportBody s nonce
        let sig := (Config.falconSign key (Config.shake256 body)).take 1532
        let w := putRuns [(a, body ++ toBytes sig.length 4), (a + 0x100, sig), (a + 0x700, Config.idPub.take 1793)] r.st
        (w.1, if w.2 then 0 else 2)

/-- An ATTEST is carried out and its result sent, once its buffer's channels are not in training (R426). -/
def attestDo (off box : Nat) (s : State) : State :=
  if mainWaits s (mainBase + off) 4096 then { s with sec := { s.sec with attest := some (off, box) } }
  else let r := attestRun off { s with sec := { s.sec with attest := none } }; sendResult box 9 r.2 r.1

/-- An ATTEST that waited goes on. -/
def attestSettle (s : State) : State :=
  match s.sec.attest with
  | some (off, box) => attestDo off box s
  | none => s

/-- The controller answers the word `w` that stands in mailbox `n`. -/
def secAnswer (n : Nat) (w : Word) (s : State) : State :=
  let op := w.toNat / 2 ^ 28
  let arg := w.toNat % 2 ^ 28
  if op = 1 then
    let code := offerCode s (arg * 0x10000)
    let t := mbxAck (some 9) 0 n code s
    if code = 0 then beginVerify (arg * 0x10000) (some (resultBox n)) t else t
  else if op = 2 then
    let code := attestCode s (arg * 0x1000)
    let t := mbxAck (some 9) 0 n code s
    if code = 0 then attestDo (arg * 0x1000) (resultBox n) t else t
  else mbxAck (some 9) 0 n 1 s

/-- Mailboxes 63 and 61 carry requests to the security controller while their receiver is endpoint 9. -/
def secTakes (s : State) (n : Nat) : Bool :=
  (n == 63 || n == 61) && cfgReceiver (mbxCfg s n) == 9 && isSet s (Reg.mbx_MBX_STATUS_FULL n) && !s.power.p3 && !s.power.p4

/-- The word that a requester has just placed in mailbox `n` is answered at once (R501). -/
def secMailbox (n : Nat) (s : State) : State := if secTakes s n then secAnswer n (rdWord s (Reg.mbx_MBX_DATA n)) s else s

/-- The requester of mailbox `n`: the host on 63, the application core that it names as sender on 61. -/
def boxSender (s : State) (n : Nat) : Party :=
  if n = 61 then .app (cfgSender (rdWord s (Reg.mbx_MBX_CFG 61)) % 8) true else .host

/-- A request word on mailbox 63 or 61. -/
def secRequest (n : Nat) (w : Word) (s : State) : State :=
  if n = 61 ∨ n = 63 then
    csrEffect (boxSender s n) (Reg.mbx_MBX_DATA n) (fun t =>
      if isSet t (Reg.mbx_MBX_STATUS_FULL n) then mbxSend (mbxParty (boxSender s n)) 0 n w t
      else secMailbox n (mbxSend (mbxParty (boxSender s n)) 0 n w t)) s
  else s

/-- OFFER (R501). -/
def execOffer (n offset : Nat) (s : State) : Host.Outcome State Fault Refusal :=
  live s (secRequest n (BitVec.ofNat 32 (2 ^ 28 + offset % 2 ^ 28)) s)

/-- ATTEST (R501, R510). -/
def execAttest (n offset : Nat) (s : State) : Host.Outcome State Fault Refusal :=
  live s (secRequest n (BitVec.ofNat 32 (2 * 2 ^ 28 + offset % 2 ^ 28)) s)

/-! ### Boot sources (R500, R502, R503) -/

def bootSrc (s : State) : Nat := getF s Reg.sec_SEC_STATUS_BOOT_SRC

/-- SPI_READ_DONE (R502): the header is read from flash address 0, and then the TOTAL_LEN bytes that it names go to main-memory
offset 0; a flash that ends before gives what it holds (DESIGN CHOICE, log entry 27). -/
def execSpiReadDone (flash : List Byte) (s : State) : Host.Outcome State Fault Refusal :=
  live s (if bootSrc s = 1 ∧ served s = true ∧ s.sec.verify = none then
    s |> putMain mainBase (flash.take (ofBytes ((flash.drop 0x10).take 4))) |> beginVerify 0 none
  else s)

/-- The AET source is served. -/
def aetBoot (s : State) : Bool := decide (2 ≤ bootSrc s) && served s

/-- The MAC of port 0 as the AET source brings it up, and the IPv6 link-local address by EUI-64 (R503). -/
def bootMac (s : State) : Nat :=
  let word (a : Nat) : Nat := (liveOf s a (rdWord s a)).toNat
  0x02 * 2 ^ 40 + (word Reg.glob_UNIQUE_ID + word (Reg.glob_UNIQUE_ID + 4) * 2 ^ 32) % 2 ^ 40
def bootIp (s : State) : Nat :=
  0xFE80 * 2 ^ 112 + ((bootMac s / 2 ^ 24) ^^^ 0x020000) * 2 ^ 40 + 0xFFFE * 2 ^ 24 + bootMac s % 2 ^ 24

/-- A boot datagram: where its UDP header stands, OP, OFFSET, and its data. -/
structure BootMsg where
  u : Nat
  op : Nat
  offset : Nat
  data : List Byte

/-- The boot datagram that a frame holds: an untagged one for the port's MAC and IPv6 address and UDP port 46501, with a whole header. -/
def bootMsg (s : State) (f : List Byte) : Option BootMsg :=
  match frameUdp f with
  | some (6, ip, u) =>
    let n := beAt f (u + 4) 2
    if typeAt f = 12 ∧ beAt f 0 6 = bootMac s ∧ ip = bootIp s ∧ beAt f (u + 2) 2 = 46501 ∧ 24 ≤ n ∧ u + n ≤ f.length then
      let h := ofBytes ((f.drop (u + 8)).take 16)
      some ⟨u, h % 2 ^ 8, h / 2 ^ 32 % 2 ^ 32, (f.drop (u + 24)).take (n - 24)⟩
    else none
  | _ => none

/-- The answer to the boot datagram in a frame: its own header with STATUS, to its sender (R503). -/
def bootReply (s : State) (f : List Byte) (m : BootMsg) (status : Nat) : List Byte :=
  let h := (f.drop (m.u + 8)).take 16
  let u := udp (bootIp s) (beAt f 22 16) 16 46501 (beAt f m.u 2) (h.take 1 ++ toBytes status 1 ++ h.drop 2)
  be (beAt f 6 6) 6 ++ be (bootMac s) 6 ++ be 0x86DD 2 ++ ipv6 (bootIp s) (beAt f 22 16) u.length ++ u

/-- The answer leaves by port 0. -/
def bootAnswer (f : List Byte) (m : BootMsg) (status : Nat) (s : State) : State :=
  { s with outside := { s.outside with frames := s.outside.frames ++ [(0, wireFrame (bootReply s f m status))] } }

/-- The datagram of OP `op` that a frame brings to the AET source. -/
def bootTake (op : Nat) (f : List Byte) (act : BootMsg → State → State) (s : State) : State :=
  match (if aetBoot s then bootMsg s f else none) with
  | some m => if m.op = op then act m s else s
  | none => s

/-- DATA: at most 8,192 bytes, within the first 256 MiB. -/
def bootStore (f : List Byte) (m : BootMsg) (s : State) : State :=
  if m.data.length ≤ 8192 ∧ m.offset + m.data.length ≤ 0x10000000 then
    let w := mainWrite (mainBase + m.offset) m.data s
    bootAnswer f m (bnat (!w.2)) w.1
  else bootAnswer f m 1 s

/-- BOOT_DATA (R503). -/
def execBootData (frame : List Byte) (s : State) : Host.Outcome State Fault Refusal := live s (bootTake 1 frame (bootStore frame) s)

/-- DONE: handled as an OFFER. BOOT_IMAGE holds offsets in 64 KiB units, so that another offset is refused. -/
def bootOffer (f : List Byte) (m : BootMsg) (s : State) : State :=
  if m.offset % 0x10000 = 0 ∧ offerCode s m.offset = 0 then s |> beginVerify m.offset none |> bootAnswer f m 0
  else bootAnswer f m 1 s

/-- BOOT_DONE (R503). -/
def execBootDone (frame : List Byte) (s : State) : Host.Outcome State Fault Refusal := live s (bootTake 2 frame (bootOffer frame) s)

/-! ### The protection set-up (R511-R515) -/

/-- One window of a set-up whose words are `g`. -/
def windowOf (g : Nat → Nat) (w : Nat) : Window where
  base := g (4 * w) % 2 ^ 28
  last := g (4 * w + 1) % 2 ^ 28
  rd := g (4 * w + 2) % 256
  wr := g (4 * w + 2) / 256 % 256
  valid := bitN (g (4 * w + 2)) 16

/-- The set-up in the layout of R512. A part whose DEBUG_DISABLE is blown is never unlocked (R498). -/
def protOf (g : Nat → Nat) : Prot where
  windows := (List.range 64).map (windowOf g)
  hostEn := bitN (g 256) 0
  bar2En := bitN (g 256) 1
  segHost := bitN (g 256) 2
  rstHost := g 256 / 8 % 16
  defOwner := g 258 % 2 ^ 25
  forbid := g 259 % 2 ^ 9
  dbgUnlock := bitN (g 260) 0 && !Config.debugDisable
  dbgScope := g 260 / 2 % 8

/-- The bits of word `i` of the layout that are not reserved. -/
def protBits (i : Nat) : Nat :=
  if i < 256 then (if i % 4 < 2 then 0x0FFFFFFF else if i % 4 = 2 then 0x1FFFF else 0)
  else if i = 256 then 0x7F else if i = 258 then 0x1FFFFFF else if i = 259 then 0x1FF else if i = 260 then 0xF else 0

/-- REASON 3: a window with BASE > LAST, a reserved bit, a forbidden DEF_OWNER, or an unlock that the fuses deny. -/
def protInvalid (g : Nat → Nat) : Bool :=
  (List.range 262).any (fun i => g i &&& (0xFFFFFFFF - protBits i) != 0) ||
  (List.range 64).any (fun w => decide (g (4 * w + 1) < g (4 * w))) ||
  (g 258 / 2 ^ 16 % 2 ^ 9) &&& (g 259 % 2 ^ 9) != 0 ||
  (bitN (g 260) 0 && Config.debugDisable)

/-- The words of PROT_SHADOW. -/
def shadowWords (s : State) (i : Nat) : Nat := (rdWord s (Reg.protShadow_PROT_SHADOW i)).toNat

/-- Every SLICE_OWNER takes DEF_OWNER (R514, R415). -/
def giveOwners (s : State) : State :=
  ((List.range 64).filter (blockPresent s)).foldl
    (fun t b => wrWord (Reg.slice_SLICE_OWNER b) (BitVec.ofNat 32 s.sec.live.defOwner) t) s

/-- A set-up becomes live. -/
def setLive (p : Prot) (s : State) : State :=
  { s with sec := { s.sec with live := p } } |> putF Reg.sec_SEC_STATUS_DBG (bnat p.dbgUnlock) |> giveOwners

def protIgnored (s : State) : State := setF Reg.sec_PROT_STATUS_IGNORED s

/-- The shadow is unsealed. -/
def protUnseal (s : State) : State :=
  { s with sec := { s.sec with staged := none } } |> clrF Reg.sec_PROT_STATUS_STATE

/-- A change is rejected (R515). -/
def protReject (reason : Nat) (s : State) : State :=
  s |> protUnseal |> putF Reg.sec_PROT_REJECT_VALID 1 |> putF Reg.sec_PROT_REJECT_REASON reason
    |> flagF Reg.sec_SEC_EVENTS_EVENTS 1

/-- The requester that may propose a change: an application core in S- or M-mode (R514). -/
def mayPropose (p : Party) : Bool := partyClass p == some 1

def shadowWrite (p : Party) (w : Nat) (v : Word) (s : State) : State :=
  if !mayPropose p || s.sec.staged.isSome then protIgnored s else wrWord (Reg.protShadow_PROT_SHADOW w) v s

/-- PROT_SHADOW_WRITE. -/
def execProtShadowWrite (p : Party) (w : Nat) (v : Word) (s : State) : Host.Outcome State Fault Refusal :=
  live s (if w < 262 then csrEffect p (Reg.protShadow_PROT_SHADOW w) (shadowWrite p w v) s else s)

def stageWrite (p : Party) (nonce : Word) (s : State) : State :=
  if !mayPropose p || s.sec.staged.isSome then protIgnored s
  else { s with sec := { s.sec with staged := some nonce } } |> setF Reg.sec_PROT_STATUS_STATE

/-- PROT_STAGE. -/
def execProtStage (p : Party) (nonce : Word) (s : State) : Host.Outcome State Fault Refusal :=
  live s (csrEffect p Reg.sec_PROT_STAGE (stageWrite p nonce) s)

/-- A commit is judged: no stage, the nonce, then the set-up (R514, R515). -/
def commitWrite (p : Party) (nonce : Word) (s : State) : State :=
  if p ≠ .sec then protIgnored s
  else match s.sec.staged with
    | none => protReject 5 s
    | some n =>
      if n ≠ nonce then protReject 1 s
      else if protInvalid (shadowWords s) then protReject 3 s
      else s |> protUnseal |> setLive (protOf (shadowWords s)) |> incWrap Reg.sec_PROT_GEN_COUNT

/-- PROT_COMMIT. -/
def execProtCommit (p : Party) (nonce : Word) (s : State) : Host.Outcome State Fault Refusal :=
  live s (csrEffect p Reg.sec_PROT_COMMIT (commitWrite p nonce) s)

/-- A decline by the controller; another requester's write has no stated effect. -/
def declineWrite (p : Party) (s : State) : State := if p = .sec then protReject 4 s else s

/-- PROT_DECLINE. -/
def execProtDecline (p : Party) (_v : Word) (s : State) : Host.Outcome State Fault Refusal :=
  live s (csrEffect p Reg.sec_PROT_DECLINE (declineWrite p) s)

/-- PROT_EXPIRED. -/
def execProtExpired (s : State) : Host.Outcome State Fault Refusal :=
  live s (if s.sec.staged.isSome then protReject 2 s else s)

/-! ### The configuration loader's command (R519) -/

def loaderStart (s : State) : State :=
  if isSet s Reg.sec_CFGLOAD_STATUS_BUSY then setF Reg.sec_CFGLOAD_STATUS_IGNORED s
  else setF Reg.sec_CFGLOAD_STATUS_BUSY s

/-- CFGLOAD_CMD. -/
def execCfgloadCmd (p : Party) (s : State) : Host.Outcome State Fault Refusal :=
  live s (csrEffect p Reg.sec_CFGLOAD_CMD loaderStart s)

end Sys2Proof.Machine
end

