-- ==== Sys2Proof/Machine/Firmware.lean ====
section
/-! DEFINITION. The host-firmware protocol on mailboxes 0 and 1, as R403 to R405 give it, and the write of a mailbox
word. -/

namespace Sys2Proof.Machine

/-- The lead core, which runs the firmware (R403). -/
def leadCore (s : State) : Nat := getF s Reg.cl_CL_CFG_LEAD

/-- Firmware answers: FW_STATE.STATE is READY (R403, R406). -/
def fwReady (s : State) : Bool := getF s Reg.pcie_FW_STATE_STATE == 2

/-- A word of the protocol: OP [31:26], SEQ [25:20], ARG [19:0]. -/
def fwWord (op seq arg : Nat) : Word := BitVec.ofNat 32 (op % 64 * 2 ^ 26 + seq % 64 * 2 ^ 20 + arg % 2 ^ 20)

/-- The highest version within the host's range and the firmware's; 0 where there is none (R405). -/
def chooseVersion (s : State) (lo hi : Nat) : Nat :=
  let v := min hi (getF s Reg.pcie_FW_STATE_VER_HI)
  if max lo (getF s Reg.pcie_FW_STATE_VER_LO) ≤ v then v else 0

/-- The acknowledgement code of a request (R404, R405). HELLO opens a session whatever the earlier one. -/
def fwCode (s : State) (op seq arg : Nat) : Nat :=
  if op = 1 then (if seq = 0 then 0 else 5)
  else if op < 1 ∨ 4 < op then 1
  else if !s.fw.session then 2
  else if s.fw.req.isSome then 3
  else if seq ≠ (s.fw.seq + 1) % 64 then 5
  else if (op = 3 ∧ fittedBytes s ≤ arg * 0x10000) ∨ (op = 4 ∧ arg ≠ 0) then 4
  else 0

/-- Firmware takes the word in mailbox 0: the acknowledgement, and the request that now awaits its reply. -/
def fwAnswer (w : Word) (s : State) : State :=
  let op := w.toNat / 2 ^ 26
  let seq := w.toNat / 2 ^ 20 % 64
  let arg := w.toNat % 2 ^ 20
  let code := fwCode s op seq arg
  let t := mbxAck (some (leadCore s)) 0 0 code s
  if code ≠ 0 then t
  else
    let carry := if op = 1 then chooseVersion s (arg % 256) (arg / 256 % 256) else arg
    { t with fw := { t.fw with session := true, seq := seq, req := some (op, seq, carry),
                               reply := if op = 1 then none else t.fw.reply } }

/-- The word that a sender has just placed in mailbox `n` reaches a unit that answers at once. -/
def mailboxTaken (n : Nat) (s : State) : State :=
  if n = 0 then
    (if isSet s (Reg.mbx_MBX_STATUS_FULL 0) && fwReady s && cfgReceiver (mbxCfg s 0) == leadCore s then
      fwAnswer (rdWord s (Reg.mbx_MBX_DATA 0)) s else s)
  else secMailbox n s

/-- The whole of a data write by endpoint `from'`: a word that is taken is answered by the unit it reaches. -/
def mailboxWrite (from' : Option Nat) (n : Nat) (v : Word) (s : State) : State :=
  if isSet s (Reg.mbx_MBX_STATUS_FULL n) then mbxSend from' 0 n v s else mailboxTaken n (mbxSend from' 0 n v s)

/-- MBX_DATA_WRITE (R165, R166). -/
def execMbxDataWrite (p : Party) (n : Nat) (v : Word) (s : State) : Host.Outcome State Fault Refusal :=
  live s (if n < 64 then csrEffect p (Reg.mbx_MBX_DATA n) (mailboxWrite (mbxParty p) n v) s else s)

/-- A request of the host on mailbox 0. -/
def hostRequest (w : Word) (s : State) : State :=
  csrEffect .host (Reg.mbx_MBX_DATA 0) (mailboxWrite (some 8) 0 w) s

/-- HOST_HELLO. -/
def execHostHello (seq lo hi : Nat) (s : State) : Host.Outcome State Fault Refusal :=
  live s (hostRequest (fwWord 1 seq (lo % 256 + hi % 256 * 256)) s)

/-- PING. -/
def execPing (seq arg : Nat) (s : State) : Host.Outcome State Fault Refusal := live s (hostRequest (fwWord 2 seq arg) s)

/-- HOST_LOAD_IMAGE. -/
def execHostLoadImage (seq offset : Nat) (s : State) : Host.Outcome State Fault Refusal :=
  live s (hostRequest (fwWord 3 seq offset) s)

/-- QUIESCE. -/
def execQuiesce (seq arg : Nat) (s : State) : Host.Outcome State Fault Refusal := live s (hostRequest (fwWord 4 seq arg) s)

/-- Firmware writes a word to mailbox 1, when it is free and it is the mailbox's sender (R403). -/
def fwSend (w : Word) (s : State) : State :=
  csrEffect (.app (leadCore s) true) (Reg.mbx_MBX_DATA 1) (mbxSend (some (leadCore s)) 0 1 w) s

def fwMaySend (s : State) : Bool := fwReady s && !isSet s (Reg.mbx_MBX_STATUS_FULL 1)

/-- The reply to the request in hand, which must be `op`: FW_STATE.LAST_SEQ takes its SEQ (R404, R405). -/
def fwReply (op rop : Nat) (arg : Nat → Nat) (s : State) : State :=
  match s.fw.req with
  | none => s
  | some (o, seq, carry) =>
    if o = op ∧ fwMaySend s = true then
      let w := fwWord rop seq (arg carry)
      { s with fw := { s.fw with req := none, reply := some (w, 1) } }
        |> fwSend w |> putF Reg.pcie_FW_STATE_LAST_SEQ seq
    else s

/-- HELLO_REPLY. -/
def execHelloReply (s : State) : Host.Outcome State Fault Refusal := live s (fwReply 1 0x21 (fun v => v % 256) s)

/-- PONG. -/
def execPong (s : State) : Host.Outcome State Fault Refusal := live s (fwReply 2 0x22 id s)

/-- LOADED. -/
def execLoaded (result : Nat) (s : State) : Host.Outcome State Fault Refusal :=
  live s (fwReply 3 0x23 (fun _ => result % 16) s)

/-- Every context that a PAUSE applies to is PAUSED (none is RUNNING, OVERRUN or DRAINING), and the timebase is STOPPED. -/
def allPaused (s : State) : Bool := (ctxList s).all (fun c => !atWork (dState s c)) && getF s Reg.tb_TB_STATE_STATE == 0

/-- QUIESCED. -/
def execQuiesced (s : State) : Host.Outcome State Fault Refusal :=
  live s (if allPaused s then fwReply 4 0x24 (fun _ => 0) s else s)

/-- NOTICE: SEQ 0. -/
def execNotice (n : Nat) (s : State) : Host.Outcome State Fault Refusal :=
  live s (if fwMaySend s then
    let w := fwWord 0x30 0 (n % 16)
    fwSend w { s with fw := { s.fw with reply := some (w, 1) } }
  else s)

end Sys2Proof.Machine
end

