-- ==== Sys2Proof/Machine/Blocks.lean ====
section
/-! DEFINITION. Enabling and stopping the register blocks that have RWD fields (R40, R43, and the rules it names). -/

namespace Sys2Proof.Machine

/-- Every channel leaves self-refresh with its stored training, or is trained afresh where MEM_CFG has changed (R43). -/
def memStart (s : State) : State :=
  let fresh := match s.memCfg with
    | some w => w != rdWord s Reg.mem_MEM_CFG
    | none => true
  (List.range (memChannels s.variant)).foldl (fun t ch =>
    if chState t ch = chFailed then t else setChState ch (if fresh then chTraining else chUp) t) (memMapOn s)

/-- What begins in instance `k` of the blocks at `base` when EN goes from 0 to 1. `stopped`: ENABLED read 0, so that no stop
sequence is abandoned. -/
def blkStart (base k : Nat) (stopped : Bool) (s : State) : State :=
  if base = Reg.core_BLK_CTRL 0 then s |> modCore k (fun c => { c with intakeOff := false }) |> raiseStart k
  else if base = Reg.bdu_BLK_CTRL 0 then bduEnable k s
  else if base = Reg.link_BLK_CTRL 0 then linkEnable k s
  else if base = Reg.eip_BLK_CTRL then eipEnable s
  else if base = Reg.aet_BLK_CTRL then aetEnable s
  else if base = Reg.mem_BLK_CTRL then (if stopped then memStart s else s)
  else s

/-- A link block stops: no further sample, no lock, channeliser and encoder state cleared; what is formed is still released. -/
def linkStop (l : Nat) (s : State) : State :=
  s |> sefClear l true |> unlockLanes l |> setLkState l 0 |> (fun t => if lkB t l then setSync l true t else t)

/-- Windows of steps beyond the chip wicket are discarded, and their events counted. -/
def volStop (s : State) : State :=
  let late (v : VolWindow) : Bool := decide (tbWicket s < dStart s (getF s (Reg.volTab_VSTREAM_SRC_CTX v.stream)) + v.step)
  let n := (s.aet.windows.filter late).foldl (fun a v => a + v.data.length) 0
  let t := { s with aet := { s.aet with windows := s.aet.windows.filter (fun v => !late v) } }
  if n = 0 then t else t |> addSat Reg.vol_NO_STREAM_COUNT_COUNT n |> volEvent 0

/-- What a write of EN := 0 starts at once in the block (R43). -/
def blkStop (base k : Nat) (s : State) : State :=
  if base = Reg.bdu_BLK_CTRL 0 then modBdu k (fun b => { b with watch := [] }) s
  else if base = Reg.link_BLK_CTRL 0 then linkStop k s
  else if base = Reg.eip_BLK_CTRL then eipSend (s.eip.expect + 255) 4 s   -- without credits, since EN is 0
  else if base = Reg.eth_BLK_CTRL 0 then ethLost k s
  else if base = Reg.aet_BLK_CTRL then aetStop s
  else if base = Reg.vol_BLK_CTRL then volStop s
  else s

/-- The internal queues of the core's engines are empty, and its programs rest (R100). -/
def coreEmpty (s : State) (c : Nat) : Bool :=
  let k := core s c
  k.ops.isEmpty && k.pre.isEmpty && k.fire.isEmpty && k.post.isEmpty && k.send.isEmpty && k.ctrl.isEmpty &&
  k.hold.isEmpty && k.late.isEmpty && k.forming.isEmpty && k.sqOut.isEmpty && k.stepReady.isEmpty &&
  k.soCmd.isEmpty && k.seCmd.isEmpty && k.preReady.isEmpty && k.postReady.isEmpty && k.fanout.isNone && k.applying.isNone &&
  (List.range 6).all (fun e => (eng s c e).handler.isNone && (eng s c e).happen.isEmpty && (eng s c e).posted.isEmpty)

/-- The journal engine still has work that its stop sequence waits for (R43). -/
def jrnNeeded (s : State) : Bool :=
  (ctxList s).any (fun c => dProt s c && (running s c || dRecovering s c)) || !s.journal.isEmpty || !s.ckpts.isEmpty

/-- The condition at which ENABLED falls to 0 (R43). -/
def stopReady (s : State) (base k : Nat) : Bool :=
  if base = Reg.core_BLK_CTRL 0 then (core s k).intakeOff && coreEmpty s k
  else if base = Reg.tb_BLK_CTRL then (pendingCtxs s).isEmpty
  else if base = Reg.adm_BLK_CTRL then s.hold.isEmpty
  else if base = Reg.bdu_BLK_CTRL 0 then (bduOf s k).queue.isEmpty && (bduOf s k).run.isNone
  else if base = Reg.eip_BLK_CTRL then s.eip.groups.isEmpty
  else if base = Reg.ctt_BLK_CTRL then s.cttCmd.isNone
  else if base = Reg.jrn_BLK_CTRL then !jrnNeeded s
  else if base = Reg.vol_BLK_CTRL then s.aet.windows.isEmpty
  else if base = Reg.mem_BLK_CTRL then !blkEnabled s Reg.jrn_BLK_CTRL && s.memWait.all (fun w => decide (w.addr < mainBase))
  else true

/-- What the end of a stop sequence leaves: the timebase STOPPED, with the trigger outputs inactive (R310), the EIP's link DOWN,
every channel in self-refresh. -/
def stopEnd (base : Nat) (s : State) : State :=
  if base = Reg.tb_BLK_CTRL then driveTrig { putF Reg.tb_TB_STATE_STATE 0 s with trigActive := 0 }
  else if base = Reg.eip_BLK_CTRL then putF Reg.eip_EIP_STATUS_STATE 0 s
  else if base = Reg.mem_BLK_CTRL then
    (List.range (memChannels s.variant)).foldl (fun t ch => if chState t ch = chFailed then t else setChState ch chDown t)
      { s with memCfg := some (rdWord s Reg.mem_MEM_CFG) }
  else s

/-- The block whose BLK_CTRL stands at `a`: its base and instance. -/
def ctrlAt (a : Nat) : Option (Nat × Nat) :=
  match csrAt a with
  | .word b blk false w => if b.gov == .own && w.reg == blk && decide (a = blk) then some (b.base, (blk - b.base) / b.stride) else none
  | _ => none

/-- The unit of the block is absent in the variant, so that no setting enables it (R1). -/
def blkAbsent (s : State) (base k : Nat) : Bool := base == Reg.eth_BLK_CTRL 0 && !portPresent s k

/-- The effect of a write of EN := `en` in the BLK_CTRL at `a`. -/
def putEnable (a base k : Nat) (en : Bool) (s : State) : State :=
  if en = isSet s (enRef a) then s
  else if en then
    (if blkAbsent s base k then setF (enRef a) s
    else s |> setF (enRef a) |> setF (enabledRef a) |> blkStart base k (!blkEnabled s a))
  else s |> clrF (enRef a) |> blkStop base k

/-- A write of the word at a BLK_CTRL. -/
def ctrlWrite (p : Party) (a : Nat) (v : Word) (s : State) : State :=
  match ctrlAt a with
  | some (base, k) => csrEffect p a (fun t => t |> noteRsv a v |> putEnable a base k (v.getLsbD 0)) s v
  | none => s

/-- BLK_ENABLE (R40). -/
def execBlkEnable (p : Party) (addr : Nat) (s : State) : Host.Outcome State Fault Refusal := live s (ctrlWrite p addr 1 s)

/-- BLK_DISABLE (R43). -/
def execBlkDisable (p : Party) (addr : Nat) (s : State) : Host.Outcome State Fault Refusal := live s (ctrlWrite p addr 0 s)

/-- STOP_SEQUENCE_DONE (R43). -/
def execStopSequenceDone (addr : Nat) (s : State) : Host.Outcome State Fault Refusal :=
  live s (match ctrlAt addr with
    | some (base, k) =>
      if blkEnabled s addr && !isSet s (enRef addr) && stopReady s base k then
        s |> clrF (enabledRef addr) |> stopEnd base
      else s
    | none => s)

end Sys2Proof.Machine
end

