-- ==== Sys2Proof/Machine/Bus.lean ====
section
/-! DEFINITION. Accesses by outside requesters: every register write and read, and every memory access, with the effects of
the registers that have rules of their own (R9, R27-R39, R393-R396). -/

namespace Sys2Proof.Machine

/-! ### Writes of words whose effect has a rule of its own -/

/-- Clamp TB_INTERVAL.NS to 200 ns and 1 s (R202). -/
def clampInterval (v : Word) : Word :=
  let n := v.toNat % 2 ^ 30
  BitVec.ofNat 32 (v.toNat / 2 ^ 30 * 2 ^ 30 + min (max n 200) 1000000000)

/-- A write of TB_INTERVAL: a value it clamps sets CLAMPED where it is accepted. -/
def intervalWrite (b : RegBlock) (blk : Nat) (w : WordAt) (v : Word) (s : State) : State :=
  let t := rawWrite b blk w 0 (clampInterval v) 0 s
  if clampInterval v != v && !blkEnabled s blk then setF Reg.tb_TB_EVENTS_CLAMPED t else t

/-- Clamp TB_RATE_ADJ to 200 ppm in units of 2^-42 (R366). -/
def clampRate (v : Word) : Word := BitVec.ofInt 32 (min (max v.toInt (-879609302)) 879609302)

/-- CTT_CFG and CTT_MIRROR are written only while every descriptor is FREE (R43). -/
def cttWrite (b : RegBlock) (blk : Nat) (w : WordAt) (idx : Nat) (v : Word) (s : State) : State :=
  if blkEnabled s blk || (ctxList s).all (fun c => dState s c == stFree) then rawWrite b blk w idx v 0 s
  else
    let m := accMask w.row idx .rwd
    let t := rawWrite b blk w idx v m s
    if ((rdWord s (w.reg + 4 * idx) ^^^ v) &&& m) = 0 then t else setIgnored blk t

/-- SLICE_PWR: KEEP is stored, RETAIN starts an entry or a wake (R421). -/
def slicePwrWrite (b : RegBlock) (blk : Nat) (w : WordAt) (n : Nat) (v : Word) (s : State) : State :=
  let t := rawWrite b blk w 0 v 1 s
  if v.getLsbD 0 then retainSlice n t else if isSet s (Reg.slice_SLICE_PWR_RETAIN n) then wakeSlice n t else t

/-- PWR_P1_CFG: a region whose P1_EN falls is woken. -/
def p1Write (b : RegBlock) (blk : Nat) (w : WordAt) (v : Word) (s : State) : State :=
  let old := getF s Reg.pwr_PWR_P1_CFG_P1_EN
  (List.range 4).foldl (fun t r => if bitN old r && !v.getLsbD r then wakeRegion r t else t) (rawWrite b blk w 0 v 0 s)

/-- Whether the regulator acknowledges, and its VOUT_MODE, are not the device's to say (free values). -/
def vfByBus (r : Nat) (v : Word) (s : State) : State :=
  spendFree (vfWrite r (v.toNat / 2 ^ 16 % 1024) (v.toNat % 16) ((freeWord s).getLsbD 0) s)

def pmbusByBus (r : Nat) (v : Word) (s : State) : State :=
  let f := freeWord s
  spendFree (pmbusWrite r (v.toNat % 128) (v.toNat / 2 ^ 8 % 2 ^ 16) (if f.getLsbD 8 then some (f.toNat % 256) else none) s)

/-- RST_CMD (R461); other KINDs are ignored. -/
def rstWrite (p : Party) (v : Word) (s : State) : State :=
  let k := v.toNat % 16
  let target := v.toNat / 16 % 1024
  if k = 1 then ran (execWarmReset (.cmd p) s) s
  else if k = 2 then ran (execComputeReset (.cmd p) s) s
  else if k = 3 then ran (execRegionReset (.cmd p) target s) s
  else if k = 4 then ran (execCoreReset (.cmd p) target s) s
  else s

/-- PWR_CMD (R478); other OPs are ignored. -/
def pwrWrite (p : Party) (v : Word) (s : State) : State :=
  let r := v.toNat / 16 % 4
  if v.toNat % 16 = 1 then ran (execEnterP2 p r (v.getLsbD 8) s) s
  else if v.toNat % 16 = 2 then ran (execExitP2 p r s) s
  else if v.toNat % 16 = 3 then ran (execEnterP3 p s) s
  else s

/-- REC_CMD (R452); other values are ignored. -/
def recWriteCmd (p : Party) (v : Word) (s : State) : State :=
  if v.toNat % 4 = 1 then ran (execRecorderFreeze p s) s
  else if v.toNat % 4 = 2 then ran (execRecorderThaw p s) s
  else if v.toNat % 4 = 3 then ran (execRecorderClear p s) s
  else s

/-- REC_SW_ARG0 or REC_SW_ARG1 of a requester (R449). -/
def putRecArg (p : Party) (i v : Nat) (s : State) : State :=
  { s with recorder := { s.recorder with
      args := (requester p, i, v) :: s.recorder.args.filter (fun x => !(x.1 == requester p && x.2.1 == i)) } }

/-- PCIE_SEG: segments 0, 1 and 63 are fixed; the host may be kept from the rest (R394, R512). -/
def segWrite (b : RegBlock) (blk : Nat) (w : WordAt) (p : Party) (i : Nat) (v : Word) (s : State) : State :=
  if p = .host ∧ s.sec.live.segHost = false then { firewallDeny p w.reg true s with reply := .busError }
  else if i = 0 ∨ i = 1 ∨ i = 63 then pcieEvent 4 s
  else rawWrite b blk w 0 v 0 s

/-- A DMA channel's control word: EN, and RESUME (R399, R429). -/
def dmaCtrlWrite (b : RegBlock) (blk : Nat) (w : WordAt) (v : Word) (resume : State → State) (s : State) : State :=
  let t := rawWrite b blk w 0 v 0 s
  if v.getLsbD 0 then resume t else t

def isApp : Party → Bool
  | .app _ _ => true
  | _ => false

/-- BOOT_IMAGE or BOOT_COUNT as the security controller writes it (R521); a changed reserved bit marks the state. -/
def bootWrite (a : Nat) (v : Word) (s : State) : State := wrWord a v (noteRsv a v s)

/-- A write that has no effect at all for its requester: BOOT_IMAGE and BOOT_COUNT by others than the security controller (R521), FW_STATE
by others than an application core, and CL_WDOG by its own core while EN is 1 (R387). -/
def writeIgnored (s : State) (p : Party) (a n : Nat) : Bool :=
  ((a == Reg.boot_BOOT_IMAGE || a == Reg.boot_BOOT_COUNT) && p != .sec) || (a == Reg.pcie_FW_STATE && !isApp p) ||
    (a == Reg.cl_CL_WDOG n && requester p == .app n false && isSet s (Reg.cl_CL_WDOG_EN n))

/-- MEM_CH_CTRL (R426, R427). -/
def chanWrite (p : Party) (ch : Nat) (v : Word) (s : State) : State :=
  let t := if v.getLsbD 0 then ran (execRetrain (some p) ch s) s else s
  if v.getLsbD 1 then offline p ch t else t

/-- A write of FAB_DRAIN: a region whose request is withdrawn is no longer drained (R197). With the last request the change of the route
tables ends, and with it the action that the records of fabric faults show (R199, R341; DESIGN CHOICE, log entry 65). -/
def drainWrite (mask : Nat) (s : State) : State :=
  let t := s |> putF Reg.fab_FAB_DRAIN_REQ mask
    |> putF Reg.fab_FAB_DRAIN_STATUS_DRAINED (getF s Reg.fab_FAB_DRAIN_STATUS_DRAINED &&& mask)
  if getF s Reg.fab_FAB_DRAIN_REQ ≠ 0 ∧ mask % 16 = 0 then actsEnd (fun k => k == 7 || k == 8) 8 (fun _ => true) t else t

/-- Registers of the blocks below address 0x01_0000_0000 in the AON domain, the security window and the cluster; `n`: the
index of the register in its row. -/
def lowWrite (p : Party) (b : RegBlock) (blk : Nat) (w : WordAt) (n : Nat) (v : Word) (s : State) : Option State :=
  let a := w.reg + 4 * w.idx
  if a = Reg.mbx_MBX_DATA n then some (ran (execMbxDataWrite p n v s) s)
  else if a = Reg.mbx_MBX_ACK n then some (ran (execMbxAckWrite p n (v.toNat % 256) s) s)
  else if a = Reg.cl_CL_RELEASE then some (ran (execClRelease p v s) s)
  else if a = Reg.cl_CL_KICK n then some (if v.getLsbD 0 then ran (execClKick p n s) s else s)
  else if a = Reg.cl_CL_CFG then some (rawWrite b blk w 0 v 0 s |> clusterRise)
  else if a = Reg.cl_CL_WDOG n then some (rawWrite b blk w 0 v 0 s |> clusterRise)
  else if a = Reg.sic_SIC_HOST_DONE then some (ran (execSicHostDone p v.toNat s) s)
  else if a = Reg.sic_SIC_CLAIM n then some (ran (execSicComplete p n (v.toNat % 1024) s) s)
  else if a = Reg.tmr_TMR_COUNT n then some (s |> rawWrite b blk w 0 v 0 |> unmatch (groupTop s n))
  else if a = Reg.tmr_TMR_COMPARE n then some (ran (execCompareWrite p n v s) s)
  else if a = Reg.tmr_TMR_START then some (ran (execTmrStart p v s) s)
  else if a = Reg.tmr_TMR_STOP then some (ran (execTmrStop p v s) s)
  else if a = Reg.rec_REC_CMD then some (recWriteCmd p v s)
  else if a = Reg.rec_REC_SW_CODE then some (ran (execRecSwCode p v s) s)
  else if a = Reg.boot_BOOT_IMAGE ∨ a = Reg.boot_BOOT_COUNT then some (bootWrite a v s)
  else if a = Reg.clk_CLK_MEAS_SEL then
    some (let t := rawWrite b blk w 0 v 0 s
      if v.getLsbD 31 then ran (execClkMeasStart p (v.toNat % 32) t) t else t)
  else if a = Reg.rst_RST_CMD then some (rstWrite p v s)
  else if a = Reg.pwr_PWR_CMD then some (pwrWrite p v s)
  else if a = Reg.pwr_PWR_P1_CFG then some (p1Write b blk w v s)
  else if a = Reg.pwr_PWR_VF n then some (vfByBus n v s)
  else if a = Reg.pwr_PWR_PMBUS n then some (pmbusByBus n v s)
  else if a = Reg.sec_PROT_STAGE then some (stageWrite p v s)
  else if a = Reg.sec_PROT_COMMIT then some (commitWrite p v s)
  else if a = Reg.sec_PROT_DECLINE then some (declineWrite p s)
  else if a = Reg.sec_CFGLOAD_CMD then some (if v.getLsbD 0 then loaderStart s else s)
  else if a = Reg.protShadow_PROT_SHADOW n then some (shadowWrite p n v s)
  else none

/-- Registers of the chip-level units, the blocks and the routers; `k`: the instance of the block. -/
def highWrite (p : Party) (b : RegBlock) (blk : Nat) (w : WordAt) (k i : Nat) (v : Word) (s : State) : Option State :=
  let a := w.reg + 4 * w.idx
  if a = Reg.fab_FAB_DRAIN then some (drainWrite (v.toNat % 16) s)
  else if a = Reg.tb_TB_INTERVAL then some (intervalWrite b blk w v s)
  else if a = Reg.adm_ADM_RING_CONS then some (ran (execAdmRingConsWrite p v s) s)
  else if a = Reg.bdu_REF_RING_CONS k then some (ran (execRefRingConsWrite p k v s) s)
  else if a = Reg.fmBlk_FM_ACK k ∨ a = Reg.fmReg_FM_ACK k ∨ a = Reg.fmChip_FM_ACK then some (ran (execFmAck p blk (v.toNat % 64) s) s)
  else if a = Reg.jesd_SYSREF_CFG then
    some (let t := rawWrite b blk w 0 v 0 s
      if v.getLsbD 2 then ran (execSysrefArm p t) t else t)
  else if a = Reg.trig_TRIG_FORCE then some (ran (execTrigForce p v s) s)
  else if a = Reg.ctt_CTT_CFG then some (cttWrite b blk w 0 v s)
  else if a = Reg.ctt_CTX_CMD then some (ctxCmd p (v.toNat / 2 ^ 16 % 16) (v.toNat % 2 ^ 16) s)
  else if a = Reg.oc_OCR_CONS i then some (ran (execOcrConsWrite p i v s) s)
  else if a = Reg.swr_SWR_TX_POST k then some (ran (execSwrTxPost p k v s) s)
  else if a = Reg.aet_AET_REF_CONS then some (ran (execAetRefConsWrite p v s) s)
  else if a = Reg.aet_TB_RATE_ADJ then some (rawWrite b blk w 0 (clampRate v) 0 s)
  else if a = Reg.aet_SESS_CTRL i then some (sessCtrl i v s)
  else if a = Reg.pcie_FW_STATE then some (rawWrite b blk w 0 v 0 s)
  else if a = Reg.pcie_PCIE_SEG i then some (segWrite b blk w p i v s)
  else if a = Reg.pdma_PDMA_CTRL k then some (dmaCtrlWrite b blk w v (fun t => ran (execPdmaResume p k t) t) s)
  else if a = Reg.sdma_SDMA_CTRL k then some (dmaCtrlWrite b blk w v (fun t => ran (execSdmaResume p k t) t) s)
  else if a = Reg.msix_MSIX i + 12 then
    some (let t := rawWrite b blk w 3 v 0 s
      if v.getLsbD 0 then t else ran (execMsixUnmask p i t) t)
  else if a = Reg.slice_SLICE_OWNER k then some (ownerWrite p k v s)
  else if a = Reg.slice_SLICE_PWR k then some (slicePwrWrite b blk w k v s)
  else if a = Reg.memCh_MEM_CH_CTRL k then some (chanWrite p k v s)
  else if a = Reg.sq_SLICE_HANDOVER k then some s
  else if isCoreWindow a ∧ w.row.width = 256 then some (lsetWrite b blk w k v s)
  else none

/-- The 64-bit registers whose write has a rule of its own: both words, in one cycle. -/
def pairWrite (p : Party) (b : RegBlock) (blk : Nat) (w : WordAt) (k i : Nat) (lo hi : Word) (s : State) : State :=
  if w.reg = Reg.sq_QDATA k i then externalPush k i (hi ++ lo) s
  else if w.reg = Reg.sq_CHAN_ROUTE k i then chanRouteApply b blk w k i lo hi s
  else if w.reg = Reg.pe_LRN_MOD_SET k then modSet k lo (some hi.toNat) s
  else if w.reg = Reg.ctt_CTT_MIRROR then s |> cttWrite b blk w 0 lo |> cttWrite b blk w 1 hi
  else if w.reg = Reg.rec_REC_SEED then seedClock lo hi s
  else if w.reg = Reg.rec_REC_SW_ARG0 then putRecArg p 0 (lo.toNat + hi.toNat * 2 ^ 32) s
  else if w.reg = Reg.rec_REC_SW_ARG1 then putRecArg p 1 (lo.toNat + hi.toNat * 2 ^ 32) s
  else s |> rawWrite b blk w 0 lo 0 |> rawWrite b blk w 1 hi 0

/-! ### Any register write -/

/-- The instance of its block, and the index in its row, of a register. -/
def instOf (b : RegBlock) (blk : Nat) : Nat := (blk - b.base) / b.stride
def indexOf (blk : Nat) (w : WordAt) : Nat := (w.reg - blk - w.row.off) / w.row.stride

/-- A write of word `w` that is carried out. -/
def regWrite (p : Party) (b : RegBlock) (blk : Nat) (w : WordAt) (v : Word) (s : State) : State :=
  let k := instOf b blk
  let i := indexOf blk w
  if w.row.width = 64 then
    if !writable w.row then rawWrite b blk w w.idx v 0 (dropHeld p blk s)
    else if w.idx = 0 then holdLow p blk w.reg v s
    else match heldFor s p blk w.reg with
      | some lo => pairWrite p b blk w k i lo v (dropHeld p blk s |> noteRsv w.reg lo |> noteRsv (w.reg + 4) v)
      | none => dropHeld p blk s
  else
    let t := dropHeld p blk s
    if writeIgnored t p (w.reg + 4 * w.idx) i then t
    else match (if w.reg < 0x0100000000 then lowWrite p b blk w i v t else highWrite p b blk w k i v t) with
    | some u => if u.reply = .busError then u else noteRsv (w.reg + 4 * w.idx) v u
    | none => rawWrite b blk w w.idx v 0 t

/-- The words of the register that a write of word `w` has reached stand in the core's image copy. -/
def imgRow (w : WordAt) (s : State) : State :=
  if w.row.width = 64 then s |> imgNote w.reg |> imgNote (w.reg + 4) else imgNote (w.reg + 4 * w.idx) s

/-- A 32-bit write by `p` at a CSR address or in a routing table (R9, R27, R31, R34, R546). -/
def writeAny (p : Party) (a : Nat) (v : Word) (s : State) : State :=
  if (tableRouter a).isSome then ran (execRouteTableWrite p a v s) s
  else match csrAt a with
    | .outside => csrError p a (write32 v) s
    | .unlisted blk => csrDo p a (write32 v) (dropHeld p blk) s
    | .word b blk peek w =>
      if peek then csrDo p a (write32 v) (dropHeld p blk) s
      else match ctrlAt a with
        | some _ => ctrlWrite p a v s
        | none => csrDo p a (write32 v) (fun t => imgRow w (regWrite p b blk w v t)) s

/-! ### Reads -/

/-- The index of the register among those `f` places `n` of, if `a` is one of them. -/
def placeOf (f : Nat → Nat) (n a : Nat) : Option Nat :=
  if f 0 ≤ a ∧ a ≤ f (n - 1) ∧ f ((a - f 0) / (f 1 - f 0)) = a then some ((a - f 0) / (f 1 - f 0)) else none

/-- A normal read of the word at `a`, with the effects of the registers that have rules of their own. -/
def busRead (p : Party) (a : Nat) (hw : Word) (s : State) : Option Word × State :=
  match placeOf Reg.sic_SIC_CLAIM 16 a with
  | some x => let r := sicTake x s; (some (BitVec.ofNat 32 r.1), r.2)
  | none =>
    let timer (n : Nat) (cap : Bool) : Option Word × State := let r := timerRead p a n cap hw s; (some r.1, r.2)
    match timerAt a, timerAt (a - 0x800) with
    | some (n, cap), _ => timer n cap
    | _, some (n, cap) => timer n cap
    | _, _ => readAny p a hw s

/-- A 32-bit read by `p`: its value is the reply (R31, R34, R37, R39, R546). -/
def readBus (p : Party) (a : Nat) (hw : Word) (s : State) : State :=
  if (tableRouter a).isSome && decide (a < 0x0300800000) then
    csrDo p a read32 (fun t => { t with reply := .data (rdNum t a 4) }) s
  else match csrAt a with
    | .outside => csrError p a read32 s
    | _ => csrDo p a read32 (fun t => readReply (busRead p a hw t)) s

/-- `a` is the low word of a 64-bit register. -/
def isLowWord (a : Nat) : Bool :=
  match csrAt a with
  | .word _ _ _ w => w.row.width == 64 && w.idx == 0 && decide (a % 4 = 0)
  | _ => false

/-- RC_READ (R32, R39). -/
def execRcRead (p : Party) (addr : Nat) (hwSet : Word) (s : State) : Host.Outcome State Fault Refusal :=
  live s (readBus p addr hwSet s)

/-- LOW_WORD_READ (R37, R39). -/
def execLowWordRead (p : Party) (addr : Nat) (s : State) : Host.Outcome State Fault Refusal :=
  live s (if isLowWord addr then readBus p addr 0 s else s)

/-! ### Memory (R27, R383-R385) -/

/-- A register or a routing table stands at `a`. -/
def isCsr (a : Nat) : Bool := (tableRouter a).isSome || csrAt a != .outside

/-- The ranges that application cores cache: main memory and the boot ROM (R383). -/
def isMain (a : Nat) : Bool := inRange a mainBase 0x8FFFFFFFFF
def isBootRom (a : Nat) : Bool := inRange a 0 0x3FFFF

/-- An access of a kind that the range permits: loads and stores anywhere, an application core's fetches from cached ranges, and its
load-reserved, store-conditional and atomic accesses of 4 or 8 bytes to main memory (R383). -/
def kindOk (p : Party) (a : Nat) (op : MemOp) : Bool :=
  match op with
  | .read _ | .write _ => true
  | .fetch _ => isApp p && (isMain a || isBootRom a)
  | .lr _ | .sc _ | .amo _ _ => isApp p && isMain a && (memLen op == 4 || memLen op == 8)
  | .fence => isApp p

/-- An upset that an application core's access to a cached range meets stands in a cache: one of a single bit is corrected and counted,
and another is in a clean line, which is fetched again (R385); the dirty L2 line is L2_UNCORR's. -/
def cacheMeets (p : Party) (a upset : Nat) (s : State) : State :=
  if isApp p && (isMain a || isBootRom a) && upset == 1 then incSat Reg.cl_CL_ECC_CORR_COUNT_COUNT s else s

/-- A FENCE completes, or waits for the core's posted stores (R384). -/
def fenceDo (p : Party) (a : Nat) (s : State) : State :=
  match p with
  | .app n _ => if fenceMayComplete s n then { s with reply := .done } else { s with memWait := s.memWait ++ [⟨p, a, .fence⟩] }
  | _ => s

/-- An access to memory: carried out, or waiting for its channel or its unit. -/
def memAccess (p : Party) (a : Nat) (op : MemOp) (upset : Nat) (s : State) : State :=
  match memDo p a op upset s with
  | .waits => if scLost s p a op then answerAll p a op .waits s else holdAccess p a op s
  | r => answerAll p a op r s

/-- One access under R27 by an outside requester. -/
def access (p : Party) (a : Nat) (op : MemOp) (upset : Nat) (s : State) : State :=
  if !busParty p then s
  else if op = .fence then fenceDo p a s
  else if !kindOk p a op then busFail p a op s
  else if isCsr a then
    match op with
    | .write bs => if bs.length = 4 ∧ a % 4 = 0 then writeAny p a (BitVec.ofNat 32 (ofBytes bs)) s else csrError p a op s
    | _ => if memLen op = 4 ∧ a % 4 = 0 then readBus p a 0 s else csrError p a op s
  else if isApp p && (isMain a || isBootRom a) then memAccess p a op 0 (cacheMeets p a upset s)
  else if !isMain a && behind s p a then holdAccess p a op s
  else memAccess p a op upset s

/-! ### The host's TLPs (R394-R396) -/

/-- The access ends in an error. -/
def partFails (s : State) (q : Nat × MemOp) : Option State :=
  match memDo .host q.1 q.2 0 s with
  | .error t => some t
  | _ => none

def partWaits (s : State) (q : Nat × MemOp) : Bool :=
  match memDo .host q.1 q.2 0 s with
  | .waits => true
  | _ => false

/-- A TLP to memory: whole, or not at all. -/
def tlpMemory (w : Tlp) (s : State) : State :=
  match (tlpParts w).findSome? (partFails s) with
  | some t => tlpAbort (memWrites w.op) t
  | none =>
    let step (acc : State × List Byte) (q : Nat × MemOp) : State × List Byte :=
      match memDo .host q.1 q.2 0 acc.1 with
      | .ok t bs => (t, acc.2 ++ bs)
      | .error t => (t, acc.2)
      | .waits => acc
    let r := (tlpParts w).foldl step (s, [])
    { r.1 with reply := if memWrites w.op then .done else .data (ofBytes r.2) }

/-- A TLP to a register is one whole 32-bit access. -/
def tlpWord (w : Tlp) : Bool := memLen w.op == 4 && w.addr % 4 == 0 && (w.enabled.take 4).all id

def tlpRegister (w : Tlp) (s : State) : State :=
  if tlpWord w then
    let t := access .host w.addr w.op 0 s
    if t.reply = .busError then tlpAbort (memWrites w.op) t else t
  else tlpAbort (memWrites w.op) s

/-- The TLP meets a unit that holds it back: then it waits whole (R197, R426, R477). -/
def tlpHeld (s : State) (w : Tlp) : Bool :=
  if isCsr w.addr then
    tlpWord w && csrReach s .host w.addr (memWrites w.op) &&
      (heldBack s w.addr || behind s .host w.addr || ringBack s w.addr w.op)
  else (tlpParts w).all (fun q => (partFails s q).isNone) && (tlpParts w).any (partWaits s)

/-- A TLP waits behind those of the host that wait for the same block, in its place at the endpoint. -/
def tlpTake (w : Tlp) (s : State) : State :=
  if s.outside.tlps.any (fun v => orderClass v.addr == orderClass w.addr) || tlpHeld s w then
    (w.addr :: (tlpParts w).map (·.1)).foldl (fun t a => wakeUnit a t)
      { s with outside := { s.outside with tlps := s.outside.tlps ++ [w] } }
  else if isCsr w.addr then tlpRegister w s else tlpMemory w s

/-- A TLP that PCIe permits reaches the device. Configuration requests do not wait. -/
def tlpDo (space : TlpSpace) (off : Nat) (op : MemOp) (enabled : List Bool) (s : State) : State :=
  if space = .config then cfgDo off op enabled s
  else match hostAddr s (space == .bar2) off with
    | none => tlpAbort (memWrites op) s
    | some a =>
      if space = .bar2 ∧ s.sec.live.bar2En = false then tlpAbort (memWrites op) (firewallDeny .host a (memWrites op) s)
      else tlpTake ⟨a, op, enabled⟩ s

/-! ### What has waited (R197, R426, R477) -/

/-- An access that waited for its unit is made again. A write of CHAN_ROUTE brings both words. -/
def retry (w : MemWait) (s : State) : State :=
  match w.op with
  | .write bs =>
    if isCsr w.addr && bs.length == 8 then
      s |> access w.p w.addr (.write (bs.take 4)) 0 |> access w.p (w.addr + 4) (.write (bs.drop 4)) 0
    else access w.p w.addr w.op 0 s
  | _ => access w.p w.addr w.op 0 s

/-- Whatever waits is tried again, in its order: accesses and TLPs, refusal records, received frames, an attestation, and a compute
reset that waits for the journal. What still may not go on waits on. -/
def settle (s : State) : State :=
  let low (w : MemWait) : Bool := decide (w.addr < mainBase)
  let t := (s.memWait.filter low).foldl (fun u w => retry w u) { s with memWait := s.memWait.filter (fun w => !low w) }
  t.outside.tlps.foldl (fun u w => tlpTake w u) { t with outside := { t.outside with tlps := [] } }
    |> ringSettle |> rxSettle |> attestSettle |> computeGo

/-- A write at `a` may have let something go on: of FAB_DRAIN, or of a MEM_CH_CTRL. -/
def opens (a : Nat) : Bool := a == Reg.fab_FAB_DRAIN || (placeOf Reg.memCh_MEM_CH_CTRL 16 a).isSome
def settleAt (a : Nat) (s : State) : State := if opens a then settle s else s

/-! ### The commands -/

/-- REGISTER_WRITE (R9). -/
def execRegisterWrite (p : Party) (addr : Nat) (v : Word) (s : State) : Host.Outcome State Fault Refusal :=
  live s (settleAt addr (writeAny p addr v s))

/-- PEEK_WRITE (R31). -/
def execPeekWrite (p : Party) (addr : Nat) (v : Word) (s : State) : Host.Outcome State Fault Refusal :=
  live s (match csrAt addr with
    | .word _ _ true _ => writeAny p addr v s
    | _ => s)

/-- LOW_WORD_WRITE (R38). -/
def execLowWordWrite (p : Party) (addr : Nat) (v : Word) (s : State) : Host.Outcome State Fault Refusal :=
  live s (if isLowWord addr then writeAny p addr v s else s)

/-- HIGH_WORD_WRITE (R38). -/
def execHighWordWrite (p : Party) (addr : Nat) (v : Word) (s : State) : Host.Outcome State Fault Refusal :=
  live s (if isLowWord addr then writeAny p (addr + 4) v s else s)

/-- MEMORY_ACCESS (R27-R29, R383, R384, R426). -/
def execMemoryAccess (p : Party) (addr : Nat) (op : MemOp) (upset : Nat) (s : State) : Host.Outcome State Fault Refusal :=
  live s (settleAt addr (access p addr op upset s))

/-- HOST_TLP (R394-R396). -/
def execHostTlp (space : TlpSpace) (off : Nat) (op : MemOp) (enabled : List Bool) (s : State) : Host.Outcome State Fault Refusal :=
  live s (if tlpOk s space off op then
      settleAt (if space = .config then 0 else (hostAddr s (space == .bar2) off).getD 0) (tlpDo space off op enabled s)
    else s)

/-- FAB_DRAIN_REQUEST (R197): what a withdrawn request held goes on. -/
def execFabDrainRequest (p : Party) (mask : Nat) (s : State) : Host.Outcome State Fault Refusal :=
  live s (settle (csrEffect p Reg.fab_FAB_DRAIN (drainWrite mask) s (BitVec.ofNat 32 mask)))

/-- RETRAIN_DONE (R426): the channel takes its waiting accesses in order. -/
def execRetrainDone (ch : Nat) (s : State) : Host.Outcome State Fault Refusal := live s (settle (retrainDone ch s))

/-- CHANNEL_FAILED (R427). -/
def execChannelFailed (ch : Nat) (s : State) : Host.Outcome State Fault Refusal := live s (settle (channelFailed ch s))

/-- OFFLINE (R427). -/
def execOffline (p : Party) (ch : Nat) (s : State) : Host.Outcome State Fault Refusal := live s (settle (offline p ch s))

/-- GOVERNOR_ADMIT (R486): an act is done, and what waited for a unit that wakes goes on (R477). -/
def execGovernorAdmit (r waited : Nat) (s : State) : Host.Outcome State Fault Refusal := live s (settle (govAdmit r waited s))

end Sys2Proof.Machine
end

