-- ==== Sys2Proof/Machine/Learning.lean ====
section
/-! DEFINITION. On-chip learning: trace increments, record batches, the innings boundary and the learning registers
(R259-R278). -/

namespace Sys2Proof.Machine

/-! ### Records (R263, R264) -/

/-- The payload of a record under R56. -/
def firePay (r : FireRec) : Nat := if r.kind = 1 then r.pay else 1

/-- Increment the post trace of a record's neuron (R263). -/
def postIncrement (c : Nat) (r : FireRec) (s : State) : State :=
  match tracingSet s c r.slot with
  | none => s
  | some i =>
    localWords c 3 [recClassWord s c r.neuron] (fun t =>
      writeTrace c r.neuron (min ((readRec t c r.neuron).trace + getF s (Reg.pe_LSET_INC_POST c i) * firePay r) 65535) t) s

/-- POST_RECORD (R263, R264): the record joins what waits for a POST batch. -/
def execPostRecord (c : Nat) (s : State) : Host.Outcome State Fault Refusal :=
  live s (match (core s c).post with
    | [] => s
    | r :: rest =>
      if engUp s c 3 then
        s |> postIncrement c r |> unlessHalted c 3 (modCore c (fun k => { k with post := rest, postReady := k.postReady ++ [r] }))
      else s)

/-- Increment the pre trace of a record's axon, if it has one (R261, R263). -/
def preIncrement (c : Nat) (r : PreRec) (s : State) : State :=
  match tracingSet s c r.slot with
  | none => s
  | some i =>
    match preOff s c i r.slot r.axon with
    | none => s
    | some o =>
      localAccess c 3 o 2 (fun t =>
        wrNum (coreBase c + o) 2 (min (rdNum t (coreBase c + o) 2 + getF s (Reg.pe_LSET_INC_PRE c i) * r.pay) 65535) t) s

/-- Item 3 of R264: the SO has finished the slot's update of the record's step, and every POST handler of it has ended. -/
def preDue (s : State) (c : Nat) (r : PreRec) : Bool :=
  decide (r.step < somaDone s c r.slot) &&
  (core s c).post.all (fun q => !(q.slot == r.slot && q.step == r.step)) &&
  (core s c).postReady.all (fun q => !(q.slot == r.slot && q.step == r.step)) &&
  handlerClear s c 3 r.slot r.step [6]

/-- PRE_RECORD (R263, R264). -/
def execPreRecord (c : Nat) (s : State) : Host.Outcome State Fault Refusal :=
  live s (match (core s c).pre with
    | [] => s
    | r :: rest =>
      if engUp s c 3 && preDue s c r then
        s |> preIncrement c r |> unlessHalted c 3 (modCore c (fun k => { k with pre := rest, preReady := k.preReady ++ [r] }))
      else s)

/-! ### The learned weights of a set (R259, R266, R271, R272) -/

/-- Where a learned weight lies: a byte of the kernel store or of the slice view, or one of its nibbles. -/
structure WLoc where
  view : Bool
  off : Nat
  s4 : Bool
  hi : Bool
  deriving DecidableEq, Repr

/-- A read of a slice by the PE in the boundary sequence: the data, or `none` where it ends in a bus error (R275). -/
def lrnRead (c off n : Nat) (s : State) : Option Nat × State :=
  let a := sliceDo (.core c 3) off (.read n) 0 s
  (a.data.map ofBytes, a.st)

def lrnWrite (c off n v : Nat) (s : State) : State := (sliceDo (.core c 3) off (.write (toBytes v n)) 0 s).st

/-- A read of the kernel store by the PE in the sequence: `none` where an uncorrectable word halts it (R98). -/
def storeRead (c o : Nat) (s : State) : Option Nat × State :=
  let t := localAccess c 3 o 1 id s
  (if (eng t c 3).st = .halted then none else some (rdNum t (coreBase c + o) 1), t)

def readW (c : Nat) (l : WLoc) (s : State) : Option Int × State :=
  let r := if l.view then lrnRead c l.off 1 s else storeRead c l.off s
  (r.1.map (fun b => if l.s4 then sx 4 (if l.hi then b / 16 else b) else sx 8 b), r.2)

def writeW (c : Nat) (l : WLoc) (x : Int) (s : State) : State :=
  if l.view then lrnWrite c l.off 1 (if l.s4 then ux 4 x else ux 8 x) s
  else if l.s4 then wrBits (coreBase c + l.off) (if l.hi then 4 else 0) 4 (ux 4 x) s
  else wrNum (coreBase c + l.off) 1 (ux 8 x) s

/-- Clamp a weight to its format; the clamp is counted (R271, R272). -/
def clampW (c : Nat) (l : WLoc) (x : Int) (s : State) : Int × State :=
  let y := satS (if l.s4 then 4 else 8) x
  (y, if y = x then s else s |> incSat (Reg.pe_LRN_SAT_COUNT_COUNT c) |> setF (Reg.pe_LRN_EVENTS_SAT c))

/-- A learned weight: its place, its index j in the delta area, and its group (output channel or target). -/
structure LWeight where
  loc : WLoc
  j : Nat
  group : Nat
  deriving DecidableEq, Repr

def kernelWeights (s : State) (c i : Nat) : List LWeight :=
  let ko := 0x30000 + getF s (Reg.pe_LSET_W_REF c i) % 2048 * 16
  let kf (lo w : Nat) : Nat := winBits s c ko lo w
  let cout := kf 18 8 + 1
  let n := (kf 0 5 + 1) * (kf 5 5 + 1) * (kf 10 8 + 1) * cout
  let s4 := kf 26 1 == 1
  (List.range n).map (fun j =>
    ⟨⟨false, ko + 16 + (if s4 then j / 2 else j), s4, s4 && j % 2 == 1⟩, j, j % cout⟩)

/-- The fan-out projection whose table is the set's (R259). -/
def fanoutProj (s : State) (c tbase : Nat) : Option Nat :=
  (List.range 64).find? (fun p => winBits s c (projOff p) 32 2 == 2 && winBits s c (projOff p) 64 18 == tbase)

/-- The synapse entries of `n` index entries from axon `a`, read in order; `none` where a read fails. `f0` is FIRST of the
first of them. -/
def fanoutEntries (c tb axlo : Nat) (s4 : Bool) : Nat → Nat → Option Nat → State → Option (List LWeight) × State
  | 0, _, _, s => (some [], s)
  | n + 1, a, f0, s =>
    match lrnRead c (tb + (a - axlo) * 8) 8 s with
    | (none, t) => (none, t)
    | (some x, t) =>
      let first := bitsN x 0 32
      let base := f0.getD first
      let es : Option (List LWeight) × State := (List.range (bitsN x 32 16)).foldl (fun (acc : Option (List LWeight) × State) k =>
        match acc.1 with
        | none => acc
        | some l =>
          let r := lrnRead c (tb + (first + k) * 4) 4 acc.2
          (r.1.map (fun w => l ++ [⟨⟨true, tb + (first + k) * 4 + 2, s4, false⟩, first + k - base, bitsN w 0 14⟩]), r.2)) (some [], t)
      match es with
      | (none, u) => (none, u)
      | (some l, u) =>
        match fanoutEntries c tb axlo s4 n (a + 1) (some base) u with
        | (none, v) => (none, v)
        | (some l', v) => (some (l ++ l'), v)

/-- The words of the kernel store that tell where the weights of a set lie: the kernel's header, or the projection table with the
entry found (R88, R89). -/
def refWords (s : State) (c i : Nat) : List Nat :=
  if getF s (Reg.pe_LSET_WKIND c i) = 0 then [0x30000 + getF s (Reg.pe_LSET_W_REF c i) % 2048 * 16]
  else match fanoutProj s c (getF s (Reg.pe_LSET_W_REF c i)) with
    | some p => (List.range (p + 1)).flatMap (fun i => [projOff i + 4, projOff i + 8]) ++ [projOff p]
    | none => (List.range 64).flatMap (fun i => [projOff i + 4, projOff i + 8])

/-- The learned weights of set `i`, in index order; `none` where a slice read fails, or an uncorrectable word halts the PE (R98). -/
def learnedWeights (c i : Nat) (s0 : State) : Option (List LWeight) × State :=
  let s := localWords c 3 (refWords s0 c i) id s0
  if (eng s c 3).st = .halted then (none, s)
  else if getF s (Reg.pe_LSET_WKIND c i) = 0 then (some (kernelWeights s c i), s)
  else
    let tbase := getF s (Reg.pe_LSET_W_REF c i)
    match fanoutProj s c tbase with
    | none => (some [], s)
    | some p =>
      fanoutEntries c (tbase * 256) (winBits s c (projOff p) 0 16) (winBits s c (projOff p) 82 1 == 1)
        (getF s (Reg.pe_LSET_PT_AXONS c i)) (getF s (Reg.pe_LSET_PT_AXON_LO c i)) none s

def deltaOff (s : State) (c i j : Nat) : Nat := getF s (Reg.pe_LSET_DELTA_BASE c i) * 256 + 4 * j

/-- Apply one delta (R271); `false` where a slice read fails. -/
def applyDelta (c i : Nat) (acc : Bool × State) (w : LWeight) : Bool × State :=
  if !acc.1 then acc
  else
    let s := acc.2
    match lrnRead c (deltaOff s c i w.j) 4 s with
    | (none, t) => (false, t)
    | (some d, t) =>
      match readW c w.loc t with
      | (none, u) => (false, u)
      | (some x, u) =>
        let y := clampW c w.loc (x + rdiv (sx 32 d) (getF s (Reg.pe_LSET_DSH c i))) u
        (true, y.2 |> writeW c w.loc y.1 |> lrnWrite c (deltaOff s c i w.j) 4 0)

/-- Nearest integer square root of a number below 2^64 (R272). -/
def isqrt (n : Nat) : Nat :=
  let r := (List.range 32).foldl (fun r i => let t := r + 2 ^ (31 - i); if t * t ≤ n then t else r) 0
  if r * r + r < n then r + 1 else r

/-- The values of a group's weights; `none` where a slice read fails. -/
def readGroup (c : Nat) : List LWeight → State → Option (List (LWeight × Int)) × State
  | [], s => (some [], s)
  | w :: r, s =>
    match readW c w.loc s with
    | (none, t) => (none, t)
    | (some x, t) =>
      match readGroup c r t with
      | (none, u) => (none, u)
      | (some l, u) => (some ((w, x) :: l), u)

/-- A fan-out set keeps the sum of target `g` after its delta area of `n` deltas: as many sums as slot SLOT_FIRST has neurons
(R272). -/
def keepSum (c i n g sum : Nat) (s : State) : State :=
  if getF s (Reg.pe_LSET_WKIND c i) = 1 ∧ g ≤ slotNCount s c (getF s (Reg.pe_LSET_SLOT_FIRST c i)) then
    lrnWrite c (deltaOff s c i n + 8 * g) 8 sum s
  else s

/-- Normalise one group (R272). -/
def normGroup (c i n : Nat) (acc : Bool × State) (g : List LWeight) : Bool × State :=
  if !acc.1 then acc
  else
    match readGroup c g acc.2 with
    | (none, t) => (false, t)
    | (some l, t) =>
      let norm := getF t (Reg.pe_LSET_NORM c i)
      let sum := (l.map (fun p => if norm = 1 then p.2.natAbs else p.2.natAbs * p.2.natAbs)).sum
      let m := if norm = 1 then sum else isqrt sum
      let u := match g with
        | w :: _ => keepSum c i n w.group sum t
        | [] => t
      if m = 0 then (true, setF (Reg.pe_LRN_EVENTS_NORM_ZERO c) u)
      else
        let sc := min (rquot ((getF t (Reg.pe_LSET_TARGET c i) * 2 ^ 16 : Nat) : Int) m) 0xFFFFFFFF
        (true, l.foldl (fun v p =>
          let y := clampW c p.1.loc (rdiv (p.2 * sc) 16) v
          writeW c p.1.loc y.1 y.2) u)

/-- The groups of a list of weights, in rising order of group. -/
def weightGroups (l : List LWeight) : List (List LWeight) :=
  ((List.range (l.foldl (fun m w => max m (w.group + 1)) 0)).map (fun g => l.filter (·.group == g))).filter (fun g => !g.isEmpty)

/-- The sums of the targets that no synapse entry names are zero. -/
def emptySums (c i n : Nat) (ws : List LWeight) (s : State) : State :=
  ((List.range (slotNCount s c (getF s (Reg.pe_LSET_SLOT_FIRST c i)) + 1)).filter (fun g => !ws.any (·.group == g))).foldl
    (fun t g => keepSum c i n g 0 t) s

/-- Items 2 and 3 of R269; `false` where the sequence stops at a slice read. -/
def applySet (c i : Nat) (s : State) : Bool × State :=
  if getF s (Reg.pe_LSET_APPLY c i) = 1 then (true, s)
  else
    match learnedWeights c i s with
    | (none, t) => (false, t)
    | (some ws, t) =>
      let r := ws.foldl (applyDelta c i) (true, t)
      let norm := getF s (Reg.pe_LSET_NORM c i)
      if norm = 1 ∨ norm = 2 then
        let q := (weightGroups ws).foldl (normGroup c i ws.length) r
        (q.1, if q.1 then emptySums c i ws.length ws q.2 else q.2)
      else r

/-! ### The boundary sequence (R268, R269, R275) -/

/-- Item 1 of R269 is done: the IE and SE have finished what arrived before the last release. -/
def intakeDone (s : State) (c i : Nat) : Bool :=
  let k := core s c
  k.applyIn == 0 && k.fanout.isNone && k.forming.isEmpty && k.ops.isEmpty &&
    (workSlots s c i).all (fun j => !intakeBehind s c j (tget 0 j k.taken))

/-- Item 4: the INNINGS happenings of the engines that bind it. -/
def raiseInnings (c i m : Nat) (slots : List Nat) (s : State) : State :=
  [1, 3, 5].foldl (fun t e =>
    if handlerBound t c e 7 then
      modEng c e (fun g => { g with happen := g.happen ++ slots.map (fun k =>
        ⟨7, k, m * getF s (Reg.pe_LSET_INN_LEN c i) - 1, BitVec.ofNat 32 k, BitVec.ofNat 32 m, 0, 0⟩) }) t
    else t) s

/-- APPLY_ABORT (R275): the weights already written stay, and the core fault unit reports the fault. -/
def applyAbort (c i : Nat) (s : State) : State :=
  s |> setF (Reg.pe_LRN_EVENTS_APPLY_ABORT c) |> clrF (Reg.pe_LRN_STATUS_APPLYING c)
    |> modCore c (fun k => { k with stopped := true, applying := none, applied := false }) |> raiseUp 1 0 6 c i

/-- Items 2 to 4 of R269 for set `i` at innings `m`. Where an uncorrectable word of a store halts the PE, the sequence stands
there (R98). -/
def runBoundary (c i m : Nat) (s : State) : State :=
  match applySet c i s with
  | (true, u) => u |> modCore c (fun k => { k with applied := true }) |> raiseInnings c i m (workSlots s c i) |> boundaryEnd c
  | (false, u) => if (eng u c 3).st = .halted then u else applyAbort c i u

/-- INNINGS_BOUNDARY (R268-R272): the sequence of set `i`, which the last release has started, goes on to its handlers. It waits
while a drain holds the way to the slices (R197). -/
def execInningsBoundary (c i : Nat) (s : State) : Host.Outcome State Fault Refusal :=
  live s (
    let t := boundaryStart c s
    if engUp t c 3 = true ∧ (core t c).applying = some i ∧ (core t c).applied = false ∧ (core t c).stopped = false
        ∧ intakeDone t c i = true ∧ drainsAny t = false then runBoundary c i (core t c).applyInn t
    else t)

/-! ### Registers (R267, R275, R277, R278) -/

/-- LRN_MOD_SET_WRITE: `p` completes a write of LRN_MOD_SET by its high word. -/
def execLrnModSetWrite (p : Party) (c : Nat) (hi : Word) (s : State) : Host.Outcome State Fault Refusal :=
  live s (csrPair p (Reg.pe_LRN_MOD_SET c) hi (fun lo t => t |> noteRsv (Reg.pe_LRN_MOD_SET c) lo |> modSet c lo (some hi.toNat)) s)

/-- LSET_WRITE: `p` writes word `w` of LSET_i. -/
def execLsetWrite (p : Party) (c i w : Nat) (v : Word) (s : State) : Host.Outcome State Fault Refusal :=
  live s (
    let a := Reg.pe_LSET c i + 4 * w
    if i < 4 ∧ w < 8 then
      csrDo p a (write32 v) (fun t => match csrAt a with
        | .word b blk _ wa => t |> dropHeld p blk |> lsetWrite b blk wa c v |> imgNote a
        | _ => t) s
    else s)

end Sys2Proof.Machine
end

