-- ==== Sys2Proof/Machine/Loader.lean ====
section
/-! DEFINITION. The configuration loader, and the verification and application of a firmware image (R504-R508,
R517-R519). -/

namespace Sys2Proof.Machine

/-! ### The configuration loader (R518, R519) -/

/-- The target of an image: a register block, a core, or nothing that the image's format knows. -/
inductive LoadTarget where
  | block (blk len : Nat)
  | core (c : Nat)
  | none

/-- Base and extent of the register block that holds an address: the whole block of R546, with all its pages. -/
def blockExtent (a : Nat) : Option (Nat × Nat) :=
  match spanOf a, spanLen a, findBlock a with
  | some k, some n, _ => some (k, n)
  | _, _, some b => some (blockStart b a, b.len)
  | _, _, none => none

/-- The target that the header at `a` names. -/
def loadTarget (s : State) (a : Nat) : LoadTarget :=
  let t := rdNum s (a + 8) 5
  if rdNum s a 1 = 1 then
    match blockExtent t with
    | some (k, n) => if k = t then .block k n else .none
    | none => .none
  else if rdNum s a 1 = 2 ∧ t < 1024 then .core t
  else .none

/-- The BLK_CTRL that governs the target, if there is one. -/
def loadGovernor : LoadTarget → Option Nat
  | .block blk _ => (findBlock blk).bind (fun b => if b.gov == .none then none else some (governorOf b blk))
  | .core c => some (Reg.core_BLK_CTRL c)
  | .none => none

/-- The target's unit is absent, held in reset or in a region in P2: the loader's accesses to it end in bus errors (R3, R29). -/
def loadDown (s : State) : LoadTarget → Bool
  | .block blk _ => unitDown s blk
  | .core c => unitDown s (coreBase c)
  | .none => false

/-- The loader's accesses to the target wait (R197, R477). -/
def loadHeld (s : State) : LoadTarget → Bool
  | .block blk _ => heldBack s blk
  | .core c => heldBack s (coreBase c)
  | .none => false

def loadWake : LoadTarget → State → State
  | .block blk _, s => wakeUnit blk s
  | .core c, s => wakeUnit (coreBase c) s
  | .none, s => s

/-- Item 1 of R519: the target is enabled, a core is not quiescent, or the target does not answer the check (DESIGN CHOICE,
log entry 29: then BUSY, and nothing is written). -/
def loadBusy (s : State) (t : LoadTarget) : Bool :=
  loadDown s t ||
  (match loadGovernor t with
   | some g => blkEnabled s g
   | none => false) ||
  (match t with
   | .core c => !quiescent s c
   | _ => false)

/-- Bytes of a run of a store load: its header and its words, padded to 8. -/
def runBytes (s : State) (a : Nat) : Nat := 8 + (rdNum s (a + 4) 2 * 4 + 7) / 8 * 8

/-- The addresses of `n` runs from `a`, and the address after them. -/
def storeRuns (s : State) : Nat → Nat → List Nat × Nat
  | 0, a => ([], a)
  | n + 1, a => let r := storeRuns s n (a + runBytes s a); (a :: r.1, r.2)

/-- The addresses of an image's entries, and of its last 8 bytes. -/
def loadEntries (s : State) (a : Nat) : List Nat × Nat :=
  let n := rdNum s (a + 2) 2
  if rdNum s a 1 = 2 then storeRuns s n (a + 16) else ((List.range n).map (fun i => a + 16 + 8 * i), a + 16 + 8 * n)

/-- The entry at `e` lies within the target. -/
def entryOk (s : State) (t : LoadTarget) (e : Nat) : Bool :=
  match t with
  | .block _ len => decide (rdNum s e 4 + 4 ≤ len) && decide (rdNum s e 4 % 4 = 0)
  | .core _ => decide (rdBits s e 0 18 + 4 * rdNum s (e + 4) 2 ≤ 0x40000)
  | .none => false

/-- The check word of the image from `a` to the 8 bytes at `z` (R517). -/
def checkOk (s : State) (a z : Nat) : Bool := crc32c (getBytes s.mem a (z + 4 - a)) == rdNum s (z + 4) 4

/-- Bytes written to a core's stores carry valid check bits. -/
def loadStore (c o : Nat) (bs : List Byte) (s : State) : State :=
  (outsideWords c o bs.length).foldl (fun t w => clearEcc w t)
    (s |> wrBytes (coreBase c + o) bs |> imgStore c o bs |> queuesLoaded c o bs.length)

/-- An entry is written: a register by the controller's own access, or a run of a store. -/
def writeEntry (t : LoadTarget) (s : State) (e : Nat) : State :=
  match t with
  | .block blk _ => writeAny .sec (blk + rdNum s e 4) (BitVec.ofNat 32 (rdNum s (e + 4) 4)) s
  | .core c => loadStore c (rdBits s e 0 18) (getBytes s.mem (e + 8) (4 * rdNum s (e + 4) 2)) s
  | .none => s

/-- The register words of the target. -/
def loadCovers : LoadTarget → Nat → Bool
  | .block blk len, a => decide (blk ≤ a) && decide (a < blk + len)
  | .core c, a => isCoreWindow a && coreOfAddr a == c
  | .none, _ => false

/-- Factory defaults of the target: every register at its reset value, and a core's stores zero (item 4). -/
def loadDefaults (t : LoadTarget) (s : State) : State :=
  match t with
  | .block _ _ => resetWords (loadCovers t) s
  | .core c =>
    resetWords (loadCovers t) s |> zeroMem (coreBase c) 0x40000
      |> (fun u =>
        { u with ecc := u.ecc.filter (fun p => !(decide (coreBase c ≤ p.1) && decide (p.1 < coreBase c + 0x40000)))
                 imgCsr := u.imgCsr.filter (fun p => coreOfAddr p.1 != c)
                 imgMem := u.imgMem.filter (fun p => coreOfAddr p.1 != c) })
      |> queuesLoaded c 0x3A000 0x400
  | .none => s

/-- CFG_DEFAULTED of the target. -/
def markDefaulted (t : LoadTarget) (v : Bool) (s : State) : State :=
  match loadGovernor t with
  | some g => if v then setDefaulted g s else clrF (defaultedRef g) s
  | none => s

/-- Bytes of the image at `a`. -/
def loadLen (s : State) (a : Nat) : Nat := (loadEntries s a).2 + 8 - a

/-- A read of main memory returns data (R419). -/
def readable (s : State) (a n : Nat) : Bool := (mainRead a n s).data.isSome

/-- The loader's result for the image at `a` (R519): 1 DONE, 2 CHECK_FAILED, 3 BAD_ENTRY, 4 BUSY. An image that cannot be read
fails its check. -/
def loadResult (s : State) (a : Nat) : Nat :=
  if !readable s a 16 then 2
  else
    let t := loadTarget s a
    let e := loadEntries s a
    if loadBusy s t then 4
    else if !readable s a (loadLen s a) || !checkOk s a e.2 then 2
    else if (match t with
        | .none => true
        | _ => false) || !e.1.all (entryOk s t) then 3
    else 1

/-- What the loader's reads of the image leave of the main memory they meet (R424). -/
def loadTried (s : State) (a : Nat) : State :=
  let t := (mainRead a 16 s).st
  if readable s a 16 && loadResult s a != 4 then (mainRead a (loadLen s a) t).st else t

/-- The loader acts on the image at `a`. -/
def loadImage (a : Nat) (s : State) : State :=
  let code := loadResult s a
  let t := if readable s a 16 then loadTarget s a else .none
  let u := loadTried s a
  (if code = 4 then u
  else if code = 1 then markDefaulted t false ((loadEntries s a).1.foldl (writeEntry t) u)
  else u |> loadDefaults t |> markDefaulted t true |> flagF Reg.sec_SEC_EVENTS_EVENTS 3)
    |> putF Reg.sec_CFGLOAD_STATUS_RESULT code

/-- The loader waits for a channel in training (R426). -/
def loadWaits (s : State) (a : Nat) : Bool := mainWaits s a 16 || mainWaits s a (loadLen s a)

/-- CFGLOAD_DONE. The loader waits while the target does not take its accesses yet, and wakes it (R477). -/
def execCfgloadDone (s : State) : Host.Outcome State Fault Refusal :=
  let a := getF s Reg.sec_CFGLOAD_ADDR_ADDR * 8
  live s (if !isSet s Reg.sec_CFGLOAD_STATUS_BUSY || loadWaits s a then s
  else if readable s a 16 && loadHeld s (loadTarget s a) then loadWake (loadTarget s a) s
  else s |> loadImage a |> clrF Reg.sec_CFGLOAD_STATUS_BUSY)

/-! ### Firmware images (R504, R505) -/

/-- Fields of the header of the image at `a`. -/
def imgLen (s : State) (a : Nat) : Nat := rdNum s (a + 0x10) 4
def imgSections (s : State) (a : Nat) : Nat := rdNum s (a + 0x14) 4

/-- A section of an image. -/
structure ImgSection where
  ty : Nat
  off : Nat
  len : Nat
  dest : Nat

def imgSection (s : State) (a i : Nat) : ImgSection :=
  let e := a + 0x20 + 32 * i
  ⟨rdNum s e 4, rdNum s (e + 4) 4, rdNum s (e + 8) 4, rdNum s (e + 12) 8⟩

def imgTable (s : State) (a : Nat) : List ImgSection := (List.range (imgSections s a)).map (imgSection s a)

/-- Item 1 of R505. -/
def headerOk (s : State) (a : Nat) : Bool :=
  rdNum s a 4 == 0xAEF1 && rdNum s (a + 4) 4 == 1 && rdNum s (a + 8) 4 == 1 &&
  imgLen s a % 4096 == 0 && decide (0x4000 ≤ imgLen s a) && decide (imgLen s a ≤ 0x10000000) &&
  decide (1 ≤ imgSections s a) && decide (imgSections s a ≤ 64) &&
  (imgTable s a).all (fun q => q.off % 4096 == 0 && decide (q.off + q.len ≤ imgLen s a))

/-- Item 2: the signing key is that of its slot, which is not revoked. -/
def keyOk (s : State) (a : Nat) : Bool :=
  let k := rdNum s (a + 0xC) 4
  decide (k < 4) && Config.shake256 (getBytes s.mem (a + 0x820) 1793) == Config.keyHash k && !bitN s.sec.keyRevoke k

/-- The signed bytes: all but the page of the signature. -/
def signedBytes (s : State) (a : Nat) : List Byte :=
  getBytes s.mem a 0x1000 ++ getBytes s.mem (a + 0x2000) (imgLen s a - 0x2000)

/-- root: the tree digest over chunks of 1 MiB. -/
def imgRoot (s : State) (a : Nat) : Nat :=
  let leaves := (pieces 0x100000 257 (signedBytes s a)).map (fun c => Config.shake256 (0 :: c))
  Config.shake256 (1 :: leaves.flatMap (fun l => toBytes l 64))

/-- Item 3. -/
def signatureOk (s : State) (a : Nat) : Bool :=
  let n := rdNum s (a + 0x1000) 4
  decide (n ≤ 1532) && Config.falconVerify (getBytes s.mem (a + 0x820) 1793) (imgRoot s a) (getBytes s.mem (a + 0x1004) n)

/-- BOOT_RESULT of the image at `a` (R505): the first failure, 0 where there is none. A header or a body that cannot be read is
a MEMORY failure. -/
def bootResult (s : State) (a : Nat) : Nat :=
  if !readable s a 0x2000 then 4
  else if !headerOk s a then 1
  else if !keyOk s a then 2
  else if !readable s a (imgLen s a) then 4
  else if !signatureOk s a then 3
  else 0

/-- What the reads of the verification leave of the main memory they meet (R424). -/
def bootTried (s : State) (a : Nat) : State :=
  let t := (mainRead a 0x2000 s).st
  if readable s a 0x2000 && headerOk s a && keyOk s a then (mainRead a (imgLen s a) t).st else t

/-! ### Applying an image (R506, R513) -/

/-- A type 2 section: the set-up in the layout of R512. -/
def applyProt (a : Nat) (s : State) : State := setLive (protOf (fun i => rdNum s (a + 4 * i) 4)) s

/-- A section other than type 2; a type the table does not name is not applied. -/
def applySection (a : Nat) (s : State) (q : ImgSection) : State :=
  if q.ty = 1 then putMain q.dest (getBytes s.mem (a + q.off) q.len) s
  else if q.ty = 3 ∨ q.ty = 4 then loadImage (a + q.off) s
  else s

/-- The type 2 section first, then the others in table order. -/
def applySections (a : Nat) (s : State) : State :=
  let secs := imgTable s a
  let t := match secs.find? (fun q => q.ty == 2) with
    | some q => applyProt (a + q.off) s
    | none => s
  (secs.filter (fun q => q.ty != 2)).foldl (applySection a) t

/-- The image passes: STATE reads READY once its sections are applied, to units that are out of reset (R470). BOOT_US is a time, which the model does not keep (a free value). -/
def bootPass (off : Nat) (box : Nat) (s : State) : State :=
  let a := mainBase + off
  let t := s |> warmRelease |> setChipState stReady |> applySections a
  { t with sec := { t.sec with root := imgRoot s a } }
    |> wrWords Reg.cl_CL_RESET_VEC (rdNum s (a + 0x18) 8) 2 |> releaseLead
    |> putF Reg.boot_BOOT_IMAGE_VALID 1 |> putF Reg.boot_BOOT_IMAGE_OFFSET (off / 0x10000) |> incWrap Reg.boot_BOOT_COUNT_COUNT
    |> putF Reg.sec_SEC_STATUS_KEY_SLOT (rdNum s (a + 0xC) 4) |> putF Reg.sec_SEC_STATUS_RESULT 0
    |> wrWord Reg.rst_BOOT_US (freeWord s) |> spendFree |> warmDone |> sendResult box 8 0

/-- The image fails (R507): the device enters RECOVERY. -/
def bootFail (code box : Nat) (s : State) : State :=
  s |> incSat Reg.sec_BOOT_FAILS_COUNT |> flagF Reg.sec_SEC_EVENTS_EVENTS 0 |> putF Reg.sec_SEC_STATUS_RESULT code
    |> warmRelease |> setChipState 7 |> warmDone |> sendResult box 8 code

/-- A channel trains, so that reads of the image wait (R426). -/
def memTraining (s : State) : Bool :=
  (List.range (memChannels s.variant)).any (fun ch => chState s ch == chTraining || chState s ch == chRetraining)

/-- The verification in hand may complete. -/
def verifyRuns (s : State) : Bool :=
  (chipState s == 3 || chipState s == 6 || chipState s == 7) && !s.power.p3 && !s.power.p4 && !s.warmHeld && !memTraining s

/-- IMAGE_VERIFIED (R505-R508). -/
def execImageVerified (s : State) : Host.Outcome State Fault Refusal :=
  live s (match s.sec.verify with
    | none => s
    | some v =>
      if verifyRuns s then
        let t := { s with sec := { s.sec with verify := none } }
        let code := bootResult t (mainBase + v.offset)
        let u := bootTried t (mainBase + v.offset)
        if code = 0 then bootPass v.offset (v.mailbox.getD 62) u else bootFail code (v.mailbox.getD 62) u
      else s)

end Sys2Proof.Machine
end

