-- ==== Sys2Proof/Machine/Dispatch.lean ====
section
/-! DEFINITION. The dispatch: one arm for each constructor of `Instr`, each a direct call of that command's meaning. -/

namespace Sys2Proof.Machine

def exec (i : Instr) (s : State) : Host.Outcome State Fault Refusal :=
  match i with
  | .registerWrite p addr v => Sys2Proof.Machine.execRegisterWrite p addr v s
  | .rcRead p addr hwSet => Sys2Proof.Machine.execRcRead p addr hwSet s
  | .peekWrite p addr v => Sys2Proof.Machine.execPeekWrite p addr v s
  | .lowWordRead p addr => Sys2Proof.Machine.execLowWordRead p addr s
  | .lowWordWrite p addr v => Sys2Proof.Machine.execLowWordWrite p addr v s
  | .highWordWrite p addr v => Sys2Proof.Machine.execHighWordWrite p addr v s
  | .memoryAccess p addr op upset => Sys2Proof.Machine.execMemoryAccess p addr op upset s
  | .blkEnable p addr => Sys2Proof.Machine.execBlkEnable p addr s
  | .blkDisable p addr => Sys2Proof.Machine.execBlkDisable p addr s
  | .stopSequenceDone addr => Sys2Proof.Machine.execStopSequenceDone addr s
  | .coreStopStart c => Sys2Proof.Machine.execCoreStopStart c s
  | .wicketRelease ctx => Sys2Proof.Machine.execWicketRelease ctx s
  | .wicketTaken c slot => Sys2Proof.Machine.execWicketTaken c slot s
  | .somaUpdate c slot => Sys2Proof.Machine.execSomaUpdate c slot s
  | .eventDelivery c => Sys2Proof.Machine.execEventDelivery c s
  | .intakeEvent c => Sys2Proof.Machine.execIntakeEvent c s
  | .holdQueueRelease c => Sys2Proof.Machine.execHoldQueueRelease c s
  | .fanoutReadResponse c => Sys2Proof.Machine.execFanoutReadResponse c s
  | .operationGroup c => Sys2Proof.Machine.execOperationGroup c s
  | .lateWaitRelease c => Sys2Proof.Machine.execLateWaitRelease c s
  | .fireEmit c => Sys2Proof.Machine.execFireEmit c s
  | .scrubRead c upset => Sys2Proof.Machine.execScrubRead c upset s
  | .ganderExpiry c e => Sys2Proof.Machine.execGanderExpiry c e s
  | .add c e rd ra rb => Sys2Proof.Machine.execAdd c e rd ra rb s
  | .sub c e rd ra rb => Sys2Proof.Machine.execSub c e rd ra rb s
  | .and c e rd ra rb => Sys2Proof.Machine.execAnd c e rd ra rb s
  | .or c e rd ra rb => Sys2Proof.Machine.execOr c e rd ra rb s
  | .xor c e rd ra rb => Sys2Proof.Machine.execXor c e rd ra rb s
  | .sll c e rd ra rb => Sys2Proof.Machine.execSll c e rd ra rb s
  | .srl c e rd ra rb => Sys2Proof.Machine.execSrl c e rd ra rb s
  | .sra c e rd ra rb => Sys2Proof.Machine.execSra c e rd ra rb s
  | .slt c e rd ra rb => Sys2Proof.Machine.execSlt c e rd ra rb s
  | .sltu c e rd ra rb => Sys2Proof.Machine.execSltu c e rd ra rb s
  | .min c e rd ra rb => Sys2Proof.Machine.execMin c e rd ra rb s
  | .max c e rd ra rb => Sys2Proof.Machine.execMax c e rd ra rb s
  | .mul c e rd ra rb => Sys2Proof.Machine.execMul c e rd ra rb s
  | .mulh c e rd ra rb => Sys2Proof.Machine.execMulh c e rd ra rb s
  | .rsra c e rd ra rb => Sys2Proof.Machine.execRsra c e rd ra rb s
  | .sat24 c e rd ra rb => Sys2Proof.Machine.execSat24 c e rd ra rb s
  | .addi c e rd ra imm => Sys2Proof.Machine.execAddi c e rd ra imm s
  | .andi c e rd ra imm => Sys2Proof.Machine.execAndi c e rd ra imm s
  | .ori c e rd ra imm => Sys2Proof.Machine.execOri c e rd ra imm s
  | .xori c e rd ra imm => Sys2Proof.Machine.execXori c e rd ra imm s
  | .lui c e rd ra imm => Sys2Proof.Machine.execLui c e rd ra imm s
  | .slli c e rd ra imm => Sys2Proof.Machine.execSlli c e rd ra imm s
  | .srli c e rd ra imm => Sys2Proof.Machine.execSrli c e rd ra imm s
  | .srai c e rd ra imm => Sys2Proof.Machine.execSrai c e rd ra imm s
  | .slti c e rd ra imm => Sys2Proof.Machine.execSlti c e rd ra imm s
  | .rsrai c e rd ra imm => Sys2Proof.Machine.execRsrai c e rd ra imm s
  | .lw c e rd ra imm upset => Sys2Proof.Machine.execLw c e rd ra imm upset s
  | .lh c e rd ra imm => Sys2Proof.Machine.execLh c e rd ra imm s
  | .lhu c e rd ra imm => Sys2Proof.Machine.execLhu c e rd ra imm s
  | .lb c e rd ra imm => Sys2Proof.Machine.execLb c e rd ra imm s
  | .lbu c e rd ra imm => Sys2Proof.Machine.execLbu c e rd ra imm s
  | .sw c e rd ra imm => Sys2Proof.Machine.execSw c e rd ra imm s
  | .sh c e rd ra imm => Sys2Proof.Machine.execSh c e rd ra imm s
  | .sb c e rd ra imm => Sys2Proof.Machine.execSb c e rd ra imm s
  | .lws c e rd ra imm => Sys2Proof.Machine.execLws c e rd ra imm s
  | .lwsResponse c e => Sys2Proof.Machine.execLwsResponse c e s
  | .sws c e rd ra imm => Sys2Proof.Machine.execSws c e rd ra imm s
  | .swsError c e => Sys2Proof.Machine.execSwsError c e s
  | .br c e ra rb cond target => Sys2Proof.Machine.execBr c e ra rb cond target s
  | .jal c e ra rb cond target => Sys2Proof.Machine.execJal c e ra rb cond target s
  | .jr c e ra rb cond target => Sys2Proof.Machine.execJr c e ra rb cond target s
  | .csrr c e rd ra imm => Sys2Proof.Machine.execCsrr c e rd ra imm s
  | .csrw c e rd ra imm => Sys2Proof.Machine.execCsrw c e rd ra imm s
  | .csrrd c e rd ra imm => Sys2Proof.Machine.execCsrrd c e rd ra imm s
  | .vadd c e vd va vb rs => Sys2Proof.Machine.execVadd c e vd va vb rs s
  | .vsub c e vd va vb rs => Sys2Proof.Machine.execVsub c e vd va vb rs s
  | .vmul c e vd va vb rs => Sys2Proof.Machine.execVmul c e vd va vb rs s
  | .vmuls c e vd va vb rs => Sys2Proof.Machine.execVmuls c e vd va vb rs s
  | .vmin c e vd va vb rs => Sys2Proof.Machine.execVmin c e vd va vb rs s
  | .vmax c e vd va vb rs => Sys2Proof.Machine.execVmax c e vd va vb rs s
  | .vrsras c e vd va vb rs => Sys2Proof.Machine.execVrsras c e vd va vb rs s
  | .vsat c e vd va vb rs => Sys2Proof.Machine.execVsat c e vd va vb rs s
  | .vbcast c e vd va vb rs => Sys2Proof.Machine.execVbcast c e vd va vb rs s
  | .vand c e vd va vb rs => Sys2Proof.Machine.execVand c e vd va vb rs s
  | .vor c e vd va vb rs => Sys2Proof.Machine.execVor c e vd va vb rs s
  | .vadds c e vd va vb rs => Sys2Proof.Machine.execVadds c e vd va vb rs s
  | .vext c e vd va vb rs => Sys2Proof.Machine.execVext c e vd va vb rs s
  | .vred c e vd va vb rs => Sys2Proof.Machine.execVred c e vd va vb rs s
  | .vins c e vd va vb rs => Sys2Proof.Machine.execVins c e vd va vb rs s
  | .vld c e vd va vb rs => Sys2Proof.Machine.execVld c e vd va vb rs s
  | .vst c e vd va vb rs => Sys2Proof.Machine.execVst c e vd va vb rs s
  | .vldb c e vd va vb rs => Sys2Proof.Machine.execVldb c e vd va vb rs s
  | .vldn c e vd va vb rs => Sys2Proof.Machine.execVldn c e vd va vb rs s
  | .vstb c e vd va vb rs => Sys2Proof.Machine.execVstb c e vd va vb rs s
  | .vstn c e vd va vb rs => Sys2Proof.Machine.execVstn c e vd va vb rs s
  | .vsadd c e vd va vb rs => Sys2Proof.Machine.execVsadd c e vd va vb rs s
  | .vlds c e vd va vb rs => Sys2Proof.Machine.execVlds c e vd va vb rs s
  | .vldsResponse c e => Sys2Proof.Machine.execVldsResponse c e s
  | .swait c e rd ra rb imm8 => Sys2Proof.Machine.execSwait c e rd ra rb imm8 s
  | .swaitPass c e => Sys2Proof.Machine.execSwaitPass c e s
  | .sadd c e rd ra rb imm8 => Sys2Proof.Machine.execSadd c e rd ra rb imm8 s
  | .ssub c e rd ra rb imm8 => Sys2Proof.Machine.execSsub c e rd ra rb imm8 s
  | .sread c e rd ra rb imm8 => Sys2Proof.Machine.execSread c e rd ra rb imm8 s
  | .hdef c e rd ra rb imm8 => Sys2Proof.Machine.execHdef c e rd ra rb imm8 s
  | .harr c e rd ra rb imm8 => Sys2Proof.Machine.execHarr c e rd ra rb imm8 s
  | .hwait c e rd ra rb imm8 => Sys2Proof.Machine.execHwait c e rd ra rb imm8 s
  | .hfree c e rd ra rb imm8 => Sys2Proof.Machine.execHfree c e rd ra rb imm8 s
  | .qpop c e rd ra rb imm8 => Sys2Proof.Machine.execQpop c e rd ra rb imm8 s
  | .qpopResume c e => Sys2Proof.Machine.execQpopResume c e s
  | .qpush c e rd ra rb imm8 => Sys2Proof.Machine.execQpush c e rd ra rb imm8 s
  | .qpushResume c e => Sys2Proof.Machine.execQpushResume c e s
  | .qlen c e rd ra rb imm8 => Sys2Proof.Machine.execQlen c e rd ra rb imm8 s
  | .qsend c e rd ra rb imm8 => Sys2Proof.Machine.execQsend c e rd ra rb imm8 s
  | .qsendResume c e => Sys2Proof.Machine.execQsendResume c e s
  | .cqadd c e rd ra rb imm8 => Sys2Proof.Machine.execCqadd c e rd ra rb imm8 s
  | .ret c e rd ra rb imm8 => Sys2Proof.Machine.execRet c e rd ra rb imm8 s
  | .wicket c e rd ra rb imm8 => Sys2Proof.Machine.execWicket c e rd ra rb imm8 s
  | .stepdone c e rd ra rb imm8 => Sys2Proof.Machine.execStepdone c e rd ra rb imm8 s
  | .emit c e rd ra rb imm8 => Sys2Proof.Machine.execEmit c e rd ra rb imm8 s
  | .fence c e rd ra rb imm8 => Sys2Proof.Machine.execFence c e rd ra rb imm8 s
  | .fenceComplete c e => Sys2Proof.Machine.execFenceComplete c e s
  | .handlerTime c e => Sys2Proof.Machine.execHandlerTime c e s
  | .handlerDispatch c e => Sys2Proof.Machine.execHandlerDispatch c e s
  | .qdataRead p c q => Sys2Proof.Machine.execQdataRead p c q s
  | .qdataWrite p c q hi => Sys2Proof.Machine.execQdataWrite p c q hi s
  | .qsendArrival c => Sys2Proof.Machine.execQsendArrival c s
  | .ringRecordWrite c q => Sys2Proof.Machine.execRingRecordWrite c q s
  | .creditReturn c route => Sys2Proof.Machine.execCreditReturn c route s
  | .chanRouteValid p c route lo hi => Sys2Proof.Machine.execChanRouteValid p c route lo hi s
  | .refusalRecord c => Sys2Proof.Machine.execRefusalRecord c s
  | .mbxDataWrite p n v => Sys2Proof.Machine.execMbxDataWrite p n v s
  | .mbxAckWrite p n code => Sys2Proof.Machine.execMbxAckWrite p n code s
  | .mbxTimeout n => Sys2Proof.Machine.execMbxTimeout n s
  | .mbxQueueTake c => Sys2Proof.Machine.execMbxQueueTake c s
  | .packetInject src => Sys2Proof.Machine.execPacketInject src s
  | .packetHop flight flips => Sys2Proof.Machine.execPacketHop flight flips s
  | .packetArrival flight => Sys2Proof.Machine.execPacketArrival flight s
  | .ackSend src dst => Sys2Proof.Machine.execAckSend src dst s
  | .ack flight => Sys2Proof.Machine.execAck flight s
  | .nack flight => Sys2Proof.Machine.execNack flight s
  | .retxTimeout src dst mc seq => Sys2Proof.Machine.execRetxTimeout src dst mc seq s
  | .fabricRefuse flight => Sys2Proof.Machine.execFabricRefuse flight s
  | .stallLimit flight => Sys2Proof.Machine.execStallLimit flight s
  | .fabDrainRequest p mask => Sys2Proof.Machine.execFabDrainRequest p mask s
  | .regionDrained r => Sys2Proof.Machine.execRegionDrained r s
  | .routeTableWrite p addr v => Sys2Proof.Machine.execRouteTableWrite p addr v s
  | .roleEpochAdvance c => Sys2Proof.Machine.execRoleEpochAdvance c s
  | .tick held => Sys2Proof.Machine.execTick held s
  | .pulseEnd n => Sys2Proof.Machine.execPulseEnd n s
  | .tickAtAdmission => Sys2Proof.Machine.execTickAtAdmission s
  | .tickHold => Sys2Proof.Machine.execTickHold s
  | .stepSlipExpiry => Sys2Proof.Machine.execStepSlipExpiry s
  | .admissionEvent source => Sys2Proof.Machine.execAdmissionEvent source s
  | .holdInject ctx => Sys2Proof.Machine.execHoldInject ctx s
  | .deliveryRefused => Sys2Proof.Machine.execDeliveryRefused s
  | .admRingConsWrite p v => Sys2Proof.Machine.execAdmRingConsWrite p v s
  | .admissionStepDone ctx => Sys2Proof.Machine.execAdmissionStepDone ctx s
  | .stepDoneCombine => Sys2Proof.Machine.execStepDoneCombine s
  | .contributionsDiscard ctx => Sys2Proof.Machine.execContributionsDiscard ctx s
  | .triggerWordWrite b addr => Sys2Proof.Machine.execTriggerWordWrite b addr s
  | .triggerRecheck b => Sys2Proof.Machine.execTriggerRecheck b s
  | .layerRun b => Sys2Proof.Machine.execLayerRun b s
  | .runEnd b => Sys2Proof.Machine.execRunEnd b s
  | .bduRefusal b => Sys2Proof.Machine.execBduRefusal b s
  | .refRingConsWrite p b v => Sys2Proof.Machine.execRefRingConsWrite p b v s
  | .postRecord c => Sys2Proof.Machine.execPostRecord c s
  | .preRecord c => Sys2Proof.Machine.execPreRecord c s
  | .inningsBoundary c lset => Sys2Proof.Machine.execInningsBoundary c lset s
  | .lrnModSetWrite p c hi => Sys2Proof.Machine.execLrnModSetWrite p c hi s
  | .lsetWrite p c lset w v => Sys2Proof.Machine.execLsetWrite p c lset w v s
  | .laneLock l lane => Sys2Proof.Machine.execLaneLock l lane s
  | .linkAlign l ilasOk => Sys2Proof.Machine.execLinkAlign l ilasOk s
  | .linkUp l skew margin => Sys2Proof.Machine.execLinkUp l skew margin s
  | .bufOvf l => Sys2Proof.Machine.execBufOvf l s
  | .laneLockLoss l lane => Sys2Proof.Machine.execLaneLockLoss l lane s
  | .multiblockCrcError l => Sys2Proof.Machine.execMultiblockCrcError l s
  | .sysrefEdge mismatch => Sys2Proof.Machine.execSysrefEdge mismatch s
  | .sysrefArm p => Sys2Proof.Machine.execSysrefArm p s
  | .channeliserFrame l samples => Sys2Proof.Machine.execChanneliserFrame l samples s
  | .windowEnd l => Sys2Proof.Machine.execWindowEnd l s
  | .sefRelease l => Sys2Proof.Machine.execSefRelease l s
  | .eipLaneLock lane => Sys2Proof.Machine.execEipLaneLock lane s
  | .eipAlign => Sys2Proof.Machine.execEipAlign s
  | .eipLinkDown errs => Sys2Proof.Machine.execEipLinkDown errs s
  | .eipGroup words trailer errs idle => Sys2Proof.Machine.execEipGroup words trailer errs idle s
  | .eipHandoff => Sys2Proof.Machine.execEipHandoff s
  | .backchannelMessage => Sys2Proof.Machine.execBackchannelMessage s
  | .nakRepeat => Sys2Proof.Machine.execNakRepeat s
  | .trigInEdge input level ns => Sys2Proof.Machine.execTrigInEdge input level ns s
  | .trigForce p v => Sys2Proof.Machine.execTrigForce p v s
  | .resultEvent port => Sys2Proof.Machine.execResultEvent port s
  | .load p ctx => Sys2Proof.Machine.execLoad p ctx s
  | .loadImage p ctx => Sys2Proof.Machine.execLoadImage p ctx s
  | .start p ctx => Sys2Proof.Machine.execStart p ctx s
  | .pause p ctx => Sys2Proof.Machine.execPause p ctx s
  | .pauseComplete ctx => Sys2Proof.Machine.execPauseComplete ctx s
  | .resume p ctx => Sys2Proof.Machine.execResume p ctx s
  | .clearOverrun p ctx => Sys2Proof.Machine.execClearOverrun p ctx s
  | .drain p ctx => Sys2Proof.Machine.execDrain p ctx s
  | .drainComplete ctx => Sys2Proof.Machine.execDrainComplete ctx s
  | .reset p ctx => Sys2Proof.Machine.execReset p ctx s
  | .clear p ctx => Sys2Proof.Machine.execClear p ctx s
  | .clearZeroing ctx => Sys2Proof.Machine.execClearZeroing ctx s
  | .free p ctx => Sys2Proof.Machine.execFree p ctx s
  | .ctxCmdBadOp p op ctx => Sys2Proof.Machine.execCtxCmdBadOp p op ctx s
  | .ctxCmdWaitEnd => Sys2Proof.Machine.execCtxCmdWaitEnd s
  | .descriptorFieldUpdate ctx u => Sys2Proof.Machine.execDescriptorFieldUpdate ctx u s
  | .outputRecordWrite => Sys2Proof.Machine.execOutputRecordWrite s
  | .ocrConsWrite p r v => Sys2Proof.Machine.execOcrConsWrite p r v s
  | .latestResultRead p ctx hwUpdate => Sys2Proof.Machine.execLatestResultRead p ctx hwUpdate s
  | .journalRecordWrite => Sys2Proof.Machine.execJournalRecordWrite s
  | .journalResyncDone => Sys2Proof.Machine.execJournalResyncDone s
  | .checkpoint ctx => Sys2Proof.Machine.execCheckpoint ctx s
  | .checkpointDone ctx => Sys2Proof.Machine.execCheckpointDone ctx s
  | .faultReport => Sys2Proof.Machine.execFaultReport s
  | .chipFaultAction listed copies => Sys2Proof.Machine.execChipFaultAction listed copies s
  | .fmAck p base index => Sys2Proof.Machine.execFmAck p base index s
  | .recovery => Sys2Proof.Machine.execRecovery s
  | .replayWicket ctx => Sys2Proof.Machine.execReplayWicket ctx s
  | .ethFrameRx port frame fcsOk fecCorr fecUncorr => Sys2Proof.Machine.execEthFrameRx port frame fcsOk fecCorr fecUncorr s
  | .swrTxPost p port v => Sys2Proof.Machine.execSwrTxPost p port v s
  | .frameTransmitDone port => Sys2Proof.Machine.execFrameTransmitDone port s
  | .hello h genMin genMax features => Sys2Proof.Machine.execHello h genMin genMax features s
  | .accept h gen => Sys2Proof.Machine.execAccept h gen s
  | .reject h reason => Sys2Proof.Machine.execReject h reason s
  | .volley h seg => Sys2Proof.Machine.execVolley h seg s
  | .close h w => Sys2Proof.Machine.execClose h w s
  | .refuse h recs => Sys2Proof.Machine.execRefuse h recs s
  | .ackonly h => Sys2Proof.Machine.execAckonly h s
  | .keepalive h => Sys2Proof.Machine.execKeepalive h s
  | .bye h => Sys2Proof.Machine.execBye h s
  | .helloRetry peer => Sys2Proof.Machine.execHelloRetry peer s
  | .aetAckDelay peer => Sys2Proof.Machine.execAetAckDelay peer s
  | .aetRto peer seq => Sys2Proof.Machine.execAetRto peer seq s
  | .keepaliveSend peer => Sys2Proof.Machine.execKeepaliveSend peer s
  | .deadTimeout peer => Sys2Proof.Machine.execDeadTimeout peer s
  | .retry p peer v => Sys2Proof.Machine.execRetry p peer v s
  | .switch p peer v => Sys2Proof.Machine.execSwitch p peer v s
  | .aetRefConsWrite p v => Sys2Proof.Machine.execAetRefConsWrite p v s
  | .volleyEgressEvent port => Sys2Proof.Machine.execVolleyEgressEvent port s
  | .closeSend => Sys2Proof.Machine.execCloseSend s
  | .ppsEdge => Sys2Proof.Machine.execPpsEdge s
  | .wdogWarn n => Sys2Proof.Machine.execWdogWarn n s
  | .wdogReset n => Sys2Proof.Machine.execWdogReset n s
  | .clKick p n => Sys2Proof.Machine.execClKick p n s
  | .clRelease p v => Sys2Proof.Machine.execClRelease p v s
  | .l2Uncorr => Sys2Proof.Machine.execL2Uncorr s
  | .postedStoreError n addr => Sys2Proof.Machine.execPostedStoreError n addr s
  | .clusterDown => Sys2Proof.Machine.execClusterDown s
  | .graceExpired => Sys2Proof.Machine.execGraceExpired s
  | .sicClaim p x => Sys2Proof.Machine.execSicClaim p x s
  | .sicComplete p x n => Sys2Proof.Machine.execSicComplete p x n s
  | .sicHostDone p n => Sys2Proof.Machine.execSicHostDone p n s
  | .msixUnmask p vec => Sys2Proof.Machine.execMsixUnmask p vec s
  | .hostTlp space off op enabled => Sys2Proof.Machine.execHostTlp space off op enabled s
  | .pdmaDescriptor c host hostErr => Sys2Proof.Machine.execPdmaDescriptor c host hostErr s
  | .pdmaResume p c => Sys2Proof.Machine.execPdmaResume p c s
  | .pcieLinkDown => Sys2Proof.Machine.execPcieLinkDown s
  | .flr => Sys2Proof.Machine.execFlr s
  | .hostHello seq lo hi => Sys2Proof.Machine.execHostHello seq lo hi s
  | .ping seq arg => Sys2Proof.Machine.execPing seq arg s
  | .hostLoadImage seq offset => Sys2Proof.Machine.execHostLoadImage seq offset s
  | .quiesce seq arg => Sys2Proof.Machine.execQuiesce seq arg s
  | .helloReply => Sys2Proof.Machine.execHelloReply s
  | .pong => Sys2Proof.Machine.execPong s
  | .loaded result => Sys2Proof.Machine.execLoaded result s
  | .quiesced => Sys2Proof.Machine.execQuiesced s
  | .notice n => Sys2Proof.Machine.execNotice n s
  | .sliceAccess p off op upset => Sys2Proof.Machine.execSliceAccess p off op upset s
  | .bitSetWrite p off bytes => Sys2Proof.Machine.execBitSetWrite p off bytes s
  | .bitClearWrite p off bytes => Sys2Proof.Machine.execBitClearWrite p off bytes s
  | .sliceOwnerWrite p b v => Sys2Proof.Machine.execSliceOwnerWrite p b v s
  | .sliceHandover c v => Sys2Proof.Machine.execSliceHandover c v s
  | .sliceScrubRead b upset => Sys2Proof.Machine.execSliceScrubRead b upset s
  | .sliceRetain p b => Sys2Proof.Machine.execSliceRetain p b s
  | .sliceRetained b => Sys2Proof.Machine.execSliceRetained b s
  | .sliceWake p b => Sys2Proof.Machine.execSliceWake p b s
  | .sliceWakeDone b => Sys2Proof.Machine.execSliceWakeDone b s
  | .memoryRefresh ch bank => Sys2Proof.Machine.execMemoryRefresh ch bank s
  | .mr4Poll ch factor => Sys2Proof.Machine.execMr4Poll ch factor s
  | .retrain p ch => Sys2Proof.Machine.execRetrain p ch s
  | .retrainDone ch => Sys2Proof.Machine.execRetrainDone ch s
  | .channelFailed ch => Sys2Proof.Machine.execChannelFailed ch s
  | .offline p ch => Sys2Proof.Machine.execOffline p ch s
  | .sdmaDescriptor c host hostErr => Sys2Proof.Machine.execSdmaDescriptor c host hostErr s
  | .sdmaResume p c => Sys2Proof.Machine.execSdmaResume p c s
  | .timerEvent n => Sys2Proof.Machine.execTimerEvent n s
  | .masterEvent => Sys2Proof.Machine.execMasterEvent s
  | .capture n => Sys2Proof.Machine.execCapture n s
  | .compareWrite p n v => Sys2Proof.Machine.execCompareWrite p n v s
  | .tmrStart p v => Sys2Proof.Machine.execTmrStart p v s
  | .tmrStop p v => Sys2Proof.Machine.execTmrStop p v s
  | .timerChainRead p n cap => Sys2Proof.Machine.execTimerChainRead p n cap s
  | .recSeed p hi => Sys2Proof.Machine.execRecSeed p hi s
  | .recSwCode p v => Sys2Proof.Machine.execRecSwCode p v s
  | .recorderFreeze p => Sys2Proof.Machine.execRecorderFreeze p s
  | .recorderThaw p => Sys2Proof.Machine.execRecorderThaw p s
  | .recorderClear p => Sys2Proof.Machine.execRecorderClear p s
  | .referenceLost ref => Sys2Proof.Machine.execReferenceLost ref s
  | .refHoldoverExpiry => Sys2Proof.Machine.execRefHoldoverExpiry s
  | .pllLockLost pll => Sys2Proof.Machine.execPllLockLost pll s
  | .coldReset rstN => Sys2Proof.Machine.execColdReset rstN s
  | .coldInitDone eccCorrected eccFailed => Sys2Proof.Machine.execColdInitDone eccCorrected eccFailed s
  | .bistDone spares rows failure => Sys2Proof.Machine.execBistDone spares rows failure s
  | .trainingDone rate density ranks => Sys2Proof.Machine.execTrainingDone rate density ranks s
  | .warmReset r => Sys2Proof.Machine.execWarmReset r s
  | .computeReset r => Sys2Proof.Machine.execComputeReset r s
  | .computeResetRelease => Sys2Proof.Machine.execComputeResetRelease s
  | .regionReset r region => Sys2Proof.Machine.execRegionReset r region s
  | .coreReset r c => Sys2Proof.Machine.execCoreReset r c s
  | .resetRelease region n => Sys2Proof.Machine.execResetRelease region n s
  | .perstN => Sys2Proof.Machine.execPerstN s
  | .clkMeasStart p domain => Sys2Proof.Machine.execClkMeasStart p domain s
  | .clkMeasDone khz => Sys2Proof.Machine.execClkMeasDone khz s
  | .coreSleep c => Sys2Proof.Machine.execCoreSleep c s
  | .blockSleep b => Sys2Proof.Machine.execBlockSleep b s
  | .wakeCause block n => Sys2Proof.Machine.execWakeCause block n s
  | .governorAdmit r waited => Sys2Proof.Machine.execGovernorAdmit r waited s
  | .enterP2 p r compat => Sys2Proof.Machine.execEnterP2 p r compat s
  | .p2EntryDone r => Sys2Proof.Machine.execP2EntryDone r s
  | .exitP2 p r => Sys2Proof.Machine.execExitP2 p r s
  | .p2ExitDone r => Sys2Proof.Machine.execP2ExitDone r s
  | .enterP3 p => Sys2Proof.Machine.execEnterP3 p s
  | .i2cWake addr => Sys2Proof.Machine.execI2cWake addr s
  | .p3Exit => Sys2Proof.Machine.execP3Exit s
  | .pwrVfWrite p r vmv mult acked => Sys2Proof.Machine.execPwrVfWrite p r vmv mult acked s
  | .vfSettled r => Sys2Proof.Machine.execVfSettled r s
  | .multChangeDone r => Sys2Proof.Machine.execMultChangeDone r s
  | .pmbusAddrWrite p r addr vramp vout => Sys2Proof.Machine.execPmbusAddrWrite p r addr vramp vout s
  | .powerCapCheck e0 e1 e2 e3 total => Sys2Proof.Machine.execPowerCapCheck e0 e1 e2 e3 total s
  | .vcorePgFall r => Sys2Proof.Machine.execVcorePgFall r s
  | .sysPgRise => Sys2Proof.Machine.execSysPgRise s
  | .sysPgFall => Sys2Proof.Machine.execSysPgFall s
  | .vddAonRise => Sys2Proof.Machine.execVddAonRise s
  | .thermTrip sensor => Sys2Proof.Machine.execThermTrip sensor s
  | .pufUnwrap => Sys2Proof.Machine.execPufUnwrap s
  | .offer n offset => Sys2Proof.Machine.execOffer n offset s
  | .attest n offset => Sys2Proof.Machine.execAttest n offset s
  | .spiReadDone flash => Sys2Proof.Machine.execSpiReadDone flash s
  | .bootData frame => Sys2Proof.Machine.execBootData frame s
  | .bootDone frame => Sys2Proof.Machine.execBootDone frame s
  | .imageVerified => Sys2Proof.Machine.execImageVerified s
  | .protShadowWrite p w v => Sys2Proof.Machine.execProtShadowWrite p w v s
  | .protStage p nonce => Sys2Proof.Machine.execProtStage p nonce s
  | .protCommit p nonce => Sys2Proof.Machine.execProtCommit p nonce s
  | .protDecline p v => Sys2Proof.Machine.execProtDecline p v s
  | .protExpired => Sys2Proof.Machine.execProtExpired s
  | .cfgloadCmd p => Sys2Proof.Machine.execCfgloadCmd p s
  | .cfgloadDone => Sys2Proof.Machine.execCfgloadDone s
  | .ethLinkDown port => Sys2Proof.Machine.execEthLinkDown port s
  | .ethLinkUp port => Sys2Proof.Machine.execEthLinkUp port s
  | .pcieLinkUp speed width => Sys2Proof.Machine.execPcieLinkUp speed width s
  | .referenceReturn ref => Sys2Proof.Machine.execReferenceReturn ref s
  | .vcorePgRise r => Sys2Proof.Machine.execVcorePgRise r s
  | .rstNRelease src => Sys2Proof.Machine.execRstNRelease src s
  | .supplyRemoval => Sys2Proof.Machine.execSupplyRemoval s
  | .nackTimeout src dst mc => Sys2Proof.Machine.execNackTimeout src dst mc s
  | .correctedMonitorEvent r => Sys2Proof.Machine.execCorrectedMonitorEvent r s

end Sys2Proof.Machine
end

