-- ==== Sys2Proof/WellFormed.lean ====
section
/-! DEFINITION. Well-formed commands: every operand in the range that the field, the index or the address it stands for
admits. The meanings are total; what an ill-formed operand would mean, no rule says. -/

namespace Sys2Proof

/-- The requester exists: eight application cores, 8 and 16 DMA channels, 1,024 cores of 6 engines, 64 blocks. -/
def partyOk : Party → Bool
  | .app n _ => decide (n < 8)
  | .pdma c => decide (c < 8)
  | .sdma c => decide (c < 16)
  | .core c e => decide (c < 1024) && decide (e < 6)
  | .bdu b => decide (b < 64)
  | .host | .sec | .dbg | .ctt | .jrn | .cfm | .unit => true

/-- An access moves at least one byte and at most 4,096 (R27, R393); load-reserved, store-conditional and the atomic operations
move a word or a doubleword (RV64A). -/
def memOpOk : MemOp → Bool
  | .read n | .fetch n => decide (0 < n) && decide (n ≤ 4096)
  | .write bs => decide (0 < bs.length) && decide (bs.length ≤ 4096)
  | .lr n => decide (n = 4 ∨ n = 8)
  | .sc bs | .amo _ bs => decide (bs.length = 4 ∨ bs.length = 8)
  | .fence => true

/-- A TLP of the host reads or writes (R393). -/
def tlpOpOk : MemOp → Bool
  | .read n => memOpOk (.read n)
  | .write bs => memOpOk (.write bs)
  | _ => false

/-- A slice operation moves at most 256 bytes (R27, R174). -/
def sliceOpOk : SliceOp → Bool
  | .read n => decide (0 < n) && decide (n ≤ 256)
  | .write bs => decide (0 < bs.length) && decide (bs.length ≤ 256)
  | .add ws => decide (0 < ws.length) && decide (ws.length ≤ 16)
  | .bits _ bs => decide (0 < bs.length) && decide (bs.length ≤ 256)

/-- A request by register names an existing requester. -/
def resetByOk : ResetBy → Bool
  | .cmd p => partyOk p
  | .device _ => true

/-- The fields of a datagram's header fit their places (R357). -/
def hdrOk (h : AetHdr) : Bool :=
  decide (h.port < 2) && decide (h.src < 32) && decide (h.dst < 32) && decide (h.gen < 16) && decide (h.magic < 256) &&
    decide (h.len < 65536) && decide (h.seq < 2 ^ 32) && decide (h.ack < 2 ^ 32) && decide (h.sack < 2 ^ 32) &&
    decide (h.credit < 65536) && decide (h.incarnation < 2 ^ 32)

/-- The fields of a volley segment fit their places (R371). -/
def segmentOk (g : Segment) : Bool :=
  decide (g.expert < 4096) && decide (g.choice < 2) && decide (g.score < 256) && decide (g.part < 16) && decide (g.offset < 4096) &&
    decide (g.wicket < 2 ^ 64) && decide (g.events.length < 1024)

/-- Every operand is in its range. -/
def Instr.wf : Instr → Bool
  | .registerWrite p addr _ => partyOk p && decide (addr < 0x10000000000)
  | .rcRead p addr _ => partyOk p && decide (addr < 0x10000000000)
  | .peekWrite p addr _ => partyOk p && decide (addr < 0x10000000000)
  | .lowWordRead p addr => partyOk p && decide (addr < 0x10000000000)
  | .lowWordWrite p addr _ => partyOk p && decide (addr < 0x10000000000)
  | .highWordWrite p addr _ => partyOk p && decide (addr < 0x10000000000)
  | .memoryAccess p addr op _ => partyOk p && decide (addr < 0x10000000000) && memOpOk op
  | .blkEnable p addr => partyOk p && decide (addr < 0x10000000000)
  | .blkDisable p addr => partyOk p && decide (addr < 0x10000000000)
  | .stopSequenceDone addr => decide (addr < 0x10000000000)
  | .coreStopStart c => decide (c < 1024)
  | .wicketRelease ctx => decide (ctx < 0x10000)
  | .wicketTaken c slot => decide (c < 1024) && decide (slot < 256)
  | .somaUpdate c slot => decide (c < 1024) && decide (slot < 256)
  | .eventDelivery c => decide (c < 1024)
  | .intakeEvent c => decide (c < 1024)
  | .holdQueueRelease c => decide (c < 1024)
  | .fanoutReadResponse c => decide (c < 1024)
  | .operationGroup c => decide (c < 1024)
  | .lateWaitRelease c => decide (c < 1024)
  | .fireEmit c => decide (c < 1024)
  | .scrubRead c _ => decide (c < 1024)
  | .ganderExpiry c e => decide (c < 1024) && decide (e < 6)
  | .add c e rd ra rb => decide (c < 1024) && decide (e < 6) && decide (rd < 32) && decide (ra < 32) && decide (rb < 32)
  | .sub c e rd ra rb => decide (c < 1024) && decide (e < 6) && decide (rd < 32) && decide (ra < 32) && decide (rb < 32)
  | .and c e rd ra rb => decide (c < 1024) && decide (e < 6) && decide (rd < 32) && decide (ra < 32) && decide (rb < 32)
  | .or c e rd ra rb => decide (c < 1024) && decide (e < 6) && decide (rd < 32) && decide (ra < 32) && decide (rb < 32)
  | .xor c e rd ra rb => decide (c < 1024) && decide (e < 6) && decide (rd < 32) && decide (ra < 32) && decide (rb < 32)
  | .sll c e rd ra rb => decide (c < 1024) && decide (e < 6) && decide (rd < 32) && decide (ra < 32) && decide (rb < 32)
  | .srl c e rd ra rb => decide (c < 1024) && decide (e < 6) && decide (rd < 32) && decide (ra < 32) && decide (rb < 32)
  | .sra c e rd ra rb => decide (c < 1024) && decide (e < 6) && decide (rd < 32) && decide (ra < 32) && decide (rb < 32)
  | .slt c e rd ra rb => decide (c < 1024) && decide (e < 6) && decide (rd < 32) && decide (ra < 32) && decide (rb < 32)
  | .sltu c e rd ra rb => decide (c < 1024) && decide (e < 6) && decide (rd < 32) && decide (ra < 32) && decide (rb < 32)
  | .min c e rd ra rb => decide (c < 1024) && decide (e < 6) && decide (rd < 32) && decide (ra < 32) && decide (rb < 32)
  | .max c e rd ra rb => decide (c < 1024) && decide (e < 6) && decide (rd < 32) && decide (ra < 32) && decide (rb < 32)
  | .mul c e rd ra rb => decide (c < 1024) && decide (e < 6) && decide (rd < 32) && decide (ra < 32) && decide (rb < 32)
  | .mulh c e rd ra rb => decide (c < 1024) && decide (e < 6) && decide (rd < 32) && decide (ra < 32) && decide (rb < 32)
  | .rsra c e rd ra rb => decide (c < 1024) && decide (e < 6) && decide (rd < 32) && decide (ra < 32) && decide (rb < 32)
  | .sat24 c e rd ra rb => decide (c < 1024) && decide (e < 6) && decide (rd < 32) && decide (ra < 32) && decide (rb < 32)
  | .addi c e rd ra imm => decide (c < 1024) && decide (e < 6) && decide (rd < 32) && decide (ra < 32) && decide (imm < 0x10000)
  | .andi c e rd ra imm => decide (c < 1024) && decide (e < 6) && decide (rd < 32) && decide (ra < 32) && decide (imm < 0x10000)
  | .ori c e rd ra imm => decide (c < 1024) && decide (e < 6) && decide (rd < 32) && decide (ra < 32) && decide (imm < 0x10000)
  | .xori c e rd ra imm => decide (c < 1024) && decide (e < 6) && decide (rd < 32) && decide (ra < 32) && decide (imm < 0x10000)
  | .lui c e rd ra imm => decide (c < 1024) && decide (e < 6) && decide (rd < 32) && decide (ra < 32) && decide (imm < 0x10000)
  | .slli c e rd ra imm => decide (c < 1024) && decide (e < 6) && decide (rd < 32) && decide (ra < 32) && decide (imm < 0x10000)
  | .srli c e rd ra imm => decide (c < 1024) && decide (e < 6) && decide (rd < 32) && decide (ra < 32) && decide (imm < 0x10000)
  | .srai c e rd ra imm => decide (c < 1024) && decide (e < 6) && decide (rd < 32) && decide (ra < 32) && decide (imm < 0x10000)
  | .slti c e rd ra imm => decide (c < 1024) && decide (e < 6) && decide (rd < 32) && decide (ra < 32) && decide (imm < 0x10000)
  | .rsrai c e rd ra imm => decide (c < 1024) && decide (e < 6) && decide (rd < 32) && decide (ra < 32) && decide (imm < 0x10000)
  | .lw c e rd ra imm _ => decide (c < 1024) && decide (e < 6) && decide (rd < 32) && decide (ra < 32) && decide (imm < 0x10000)
  | .lh c e rd ra imm => decide (c < 1024) && decide (e < 6) && decide (rd < 32) && decide (ra < 32) && decide (imm < 0x10000)
  | .lhu c e rd ra imm => decide (c < 1024) && decide (e < 6) && decide (rd < 32) && decide (ra < 32) && decide (imm < 0x10000)
  | .lb c e rd ra imm => decide (c < 1024) && decide (e < 6) && decide (rd < 32) && decide (ra < 32) && decide (imm < 0x10000)
  | .lbu c e rd ra imm => decide (c < 1024) && decide (e < 6) && decide (rd < 32) && decide (ra < 32) && decide (imm < 0x10000)
  | .sw c e rd ra imm => decide (c < 1024) && decide (e < 6) && decide (rd < 32) && decide (ra < 32) && decide (imm < 0x10000)
  | .sh c e rd ra imm => decide (c < 1024) && decide (e < 6) && decide (rd < 32) && decide (ra < 32) && decide (imm < 0x10000)
  | .sb c e rd ra imm => decide (c < 1024) && decide (e < 6) && decide (rd < 32) && decide (ra < 32) && decide (imm < 0x10000)
  | .lws c e rd ra imm => decide (c < 1024) && decide (e < 6) && decide (rd < 32) && decide (ra < 32) && decide (imm < 0x10000)
  | .lwsResponse c e => decide (c < 1024) && decide (e < 6)
  | .sws c e rd ra imm => decide (c < 1024) && decide (e < 6) && decide (rd < 32) && decide (ra < 32) && decide (imm < 0x10000)
  | .swsError c e => decide (c < 1024) && decide (e < 6)
  | .br c e ra rb cond target =>
      decide (c < 1024) && decide (e < 6) && decide (ra < 32) && decide (rb < 32) && decide (cond < 16) && decide (target < 4096)
  | .jal c e ra rb cond target =>
      decide (c < 1024) && decide (e < 6) && decide (ra < 32) && decide (rb < 32) && decide (cond < 16) && decide (target < 4096)
  | .jr c e ra rb cond target =>
      decide (c < 1024) && decide (e < 6) && decide (ra < 32) && decide (rb < 32) && decide (cond < 16) && decide (target < 4096)
  | .csrr c e rd ra imm => decide (c < 1024) && decide (e < 6) && decide (rd < 32) && decide (ra < 32) && decide (imm < 0x10000)
  | .csrw c e rd ra imm => decide (c < 1024) && decide (e < 6) && decide (rd < 32) && decide (ra < 32) && decide (imm < 0x10000)
  | .csrrd c e rd ra imm => decide (c < 1024) && decide (e < 6) && decide (rd < 32) && decide (ra < 32) && decide (imm < 0x10000)
  | .vadd c e vd va vb rs =>
      decide (c < 1024) && decide (e < 6) && decide (vd < 16) && decide (va < 16) && decide (vb < 16) && decide (rs < 32)
  | .vsub c e vd va vb rs =>
      decide (c < 1024) && decide (e < 6) && decide (vd < 16) && decide (va < 16) && decide (vb < 16) && decide (rs < 32)
  | .vmul c e vd va vb rs =>
      decide (c < 1024) && decide (e < 6) && decide (vd < 16) && decide (va < 16) && decide (vb < 16) && decide (rs < 32)
  | .vmuls c e vd va vb rs =>
      decide (c < 1024) && decide (e < 6) && decide (vd < 16) && decide (va < 16) && decide (vb < 16) && decide (rs < 32)
  | .vmin c e vd va vb rs =>
      decide (c < 1024) && decide (e < 6) && decide (vd < 16) && decide (va < 16) && decide (vb < 16) && decide (rs < 32)
  | .vmax c e vd va vb rs =>
      decide (c < 1024) && decide (e < 6) && decide (vd < 16) && decide (va < 16) && decide (vb < 16) && decide (rs < 32)
  | .vrsras c e vd va vb rs =>
      decide (c < 1024) && decide (e < 6) && decide (vd < 16) && decide (va < 16) && decide (vb < 16) && decide (rs < 32)
  | .vsat c e vd va vb rs =>
      decide (c < 1024) && decide (e < 6) && decide (vd < 16) && decide (va < 16) && decide (vb < 16) && decide (rs < 32)
  | .vbcast c e vd va vb rs =>
      decide (c < 1024) && decide (e < 6) && decide (vd < 16) && decide (va < 16) && decide (vb < 16) && decide (rs < 32)
  | .vand c e vd va vb rs =>
      decide (c < 1024) && decide (e < 6) && decide (vd < 16) && decide (va < 16) && decide (vb < 16) && decide (rs < 32)
  | .vor c e vd va vb rs =>
      decide (c < 1024) && decide (e < 6) && decide (vd < 16) && decide (va < 16) && decide (vb < 16) && decide (rs < 32)
  | .vadds c e vd va vb rs =>
      decide (c < 1024) && decide (e < 6) && decide (vd < 16) && decide (va < 16) && decide (vb < 16) && decide (rs < 32)
  | .vext c e vd va vb rs =>
      decide (c < 1024) && decide (e < 6) && decide (vd < 16) && decide (va < 16) && decide (vb < 16) && decide (rs < 32)
  | .vred c e vd va vb rs =>
      decide (c < 1024) && decide (e < 6) && decide (vd < 16) && decide (va < 16) && decide (vb < 16) && decide (rs < 32)
  | .vins c e vd va vb rs =>
      decide (c < 1024) && decide (e < 6) && decide (vd < 16) && decide (va < 16) && decide (vb < 16) && decide (rs < 32)
  | .vld c e vd va vb rs =>
      decide (c < 1024) && decide (e < 6) && decide (vd < 16) && decide (va < 16) && decide (vb < 16) && decide (rs < 32)
  | .vst c e vd va vb rs =>
      decide (c < 1024) && decide (e < 6) && decide (vd < 16) && decide (va < 16) && decide (vb < 16) && decide (rs < 32)
  | .vldb c e vd va vb rs =>
      decide (c < 1024) && decide (e < 6) && decide (vd < 16) && decide (va < 16) && decide (vb < 16) && decide (rs < 32)
  | .vldn c e vd va vb rs =>
      decide (c < 1024) && decide (e < 6) && decide (vd < 16) && decide (va < 16) && decide (vb < 16) && decide (rs < 32)
  | .vstb c e vd va vb rs =>
      decide (c < 1024) && decide (e < 6) && decide (vd < 16) && decide (va < 16) && decide (vb < 16) && decide (rs < 32)
  | .vstn c e vd va vb rs =>
      decide (c < 1024) && decide (e < 6) && decide (vd < 16) && decide (va < 16) && decide (vb < 16) && decide (rs < 32)
  | .vsadd c e vd va vb rs =>
      decide (c < 1024) && decide (e < 6) && decide (vd < 16) && decide (va < 16) && decide (vb < 16) && decide (rs < 32)
  | .vlds c e vd va vb rs =>
      decide (c < 1024) && decide (e < 6) && decide (vd < 16) && decide (va < 16) && decide (vb < 16) && decide (rs < 32)
  | .vldsResponse c e => decide (c < 1024) && decide (e < 6)
  | .swait c e rd ra rb imm8 =>
      decide (c < 1024) && decide (e < 6) && decide (rd < 32) && decide (ra < 32) && decide (rb < 32) && decide (imm8 < 256)
  | .swaitPass c e => decide (c < 1024) && decide (e < 6)
  | .sadd c e rd ra rb imm8 =>
      decide (c < 1024) && decide (e < 6) && decide (rd < 32) && decide (ra < 32) && decide (rb < 32) && decide (imm8 < 256)
  | .ssub c e rd ra rb imm8 =>
      decide (c < 1024) && decide (e < 6) && decide (rd < 32) && decide (ra < 32) && decide (rb < 32) && decide (imm8 < 256)
  | .sread c e rd ra rb imm8 =>
      decide (c < 1024) && decide (e < 6) && decide (rd < 32) && decide (ra < 32) && decide (rb < 32) && decide (imm8 < 256)
  | .hdef c e rd ra rb imm8 =>
      decide (c < 1024) && decide (e < 6) && decide (rd < 32) && decide (ra < 32) && decide (rb < 32) && decide (imm8 < 256)
  | .harr c e rd ra rb imm8 =>
      decide (c < 1024) && decide (e < 6) && decide (rd < 32) && decide (ra < 32) && decide (rb < 32) && decide (imm8 < 256)
  | .hwait c e rd ra rb imm8 =>
      decide (c < 1024) && decide (e < 6) && decide (rd < 32) && decide (ra < 32) && decide (rb < 32) && decide (imm8 < 256)
  | .hfree c e rd ra rb imm8 =>
      decide (c < 1024) && decide (e < 6) && decide (rd < 32) && decide (ra < 32) && decide (rb < 32) && decide (imm8 < 256)
  | .qpop c e rd ra rb imm8 =>
      decide (c < 1024) && decide (e < 6) && decide (rd < 32) && decide (ra < 32) && decide (rb < 32) && decide (imm8 < 256)
  | .qpopResume c e => decide (c < 1024) && decide (e < 6)
  | .qpush c e rd ra rb imm8 =>
      decide (c < 1024) && decide (e < 6) && decide (rd < 32) && decide (ra < 32) && decide (rb < 32) && decide (imm8 < 256)
  | .qpushResume c e => decide (c < 1024) && decide (e < 6)
  | .qlen c e rd ra rb imm8 =>
      decide (c < 1024) && decide (e < 6) && decide (rd < 32) && decide (ra < 32) && decide (rb < 32) && decide (imm8 < 256)
  | .qsend c e rd ra rb imm8 =>
      decide (c < 1024) && decide (e < 6) && decide (rd < 32) && decide (ra < 32) && decide (rb < 32) && decide (imm8 < 256)
  | .qsendResume c e => decide (c < 1024) && decide (e < 6)
  | .cqadd c e rd ra rb imm8 =>
      decide (c < 1024) && decide (e < 6) && decide (rd < 32) && decide (ra < 32) && decide (rb < 32) && decide (imm8 < 256)
  | .ret c e rd ra rb imm8 =>
      decide (c < 1024) && decide (e < 6) && decide (rd < 32) && decide (ra < 32) && decide (rb < 32) && decide (imm8 < 256)
  | .wicket c e rd ra rb imm8 =>
      decide (c < 1024) && decide (e < 6) && decide (rd < 32) && decide (ra < 32) && decide (rb < 32) && decide (imm8 < 256)
  | .stepdone c e rd ra rb imm8 =>
      decide (c < 1024) && decide (e < 6) && decide (rd < 32) && decide (ra < 32) && decide (rb < 32) && decide (imm8 < 256)
  | .emit c e rd ra rb imm8 =>
      decide (c < 1024) && decide (e < 6) && decide (rd < 32) && decide (ra < 32) && decide (rb < 32) && decide (imm8 < 256)
  | .fence c e rd ra rb imm8 =>
      decide (c < 1024) && decide (e < 6) && decide (rd < 32) && decide (ra < 32) && decide (rb < 32) && decide (imm8 < 256)
  | .fenceComplete c e => decide (c < 1024) && decide (e < 6)
  | .handlerTime c e => decide (c < 1024) && decide (e < 6)
  | .handlerDispatch c e => decide (c < 1024) && decide (e < 6)
  | .qdataRead p c q => partyOk p && decide (c < 1024) && decide (q < 64)
  | .qdataWrite p c q _ => partyOk p && decide (c < 1024) && decide (q < 64)
  | .qsendArrival c => decide (c < 1024)
  | .ringRecordWrite c q => decide (c < 1024) && decide (q < 64)
  | .creditReturn c route => decide (c < 1024) && decide (route < 32)
  | .chanRouteValid p c route _ _ => partyOk p && decide (c < 1024) && decide (route < 32)
  | .refusalRecord c => decide (c < 1024)
  | .mbxDataWrite p n _ => partyOk p && decide (n < 64)
  | .mbxAckWrite p n code => partyOk p && decide (n < 64) && decide (code < 256)
  | .mbxTimeout n => decide (n < 64)
  | .mbxQueueTake c => decide (c < 1024)
  | .packetInject src => decide (src < 4096)
  | .packetHop _ _ => true
  | .packetArrival _ => true
  | .ackSend src dst => decide (src < 4096) && decide (dst < 4096)
  | .ack _ => true
  | .nack _ => true
  | .retxTimeout src dst _ seq => decide (src < 4096) && decide (dst < 4096) && decide (seq < 256)
  | .fabricRefuse _ => true
  | .stallLimit _ => true
  | .fabDrainRequest p mask => partyOk p && decide (mask < 16)
  | .regionDrained r => decide (r < 4)
  | .routeTableWrite p addr _ => partyOk p && decide (addr < 0x10000000000)
  | .roleEpochAdvance c => decide (c < 1024)
  | .tick _ => true
  | .pulseEnd n => decide (n < 8)
  | .tickAtAdmission => true
  | .tickHold => true
  | .stepSlipExpiry => true
  | .admissionEvent source => decide (source < 16)
  | .holdInject ctx => decide (ctx < 0x10000)
  | .deliveryRefused => true
  | .admRingConsWrite p _ => partyOk p
  | .admissionStepDone ctx => decide (ctx < 0x10000)
  | .stepDoneCombine => true
  | .contributionsDiscard ctx => decide (ctx < 0x10000)
  | .triggerWordWrite b addr => decide (b < 64) && decide (addr < 0x100000)
  | .triggerRecheck b => decide (b < 64)
  | .layerRun b => decide (b < 64)
  | .runEnd b => decide (b < 64)
  | .bduRefusal b => decide (b < 64)
  | .refRingConsWrite p b _ => partyOk p && decide (b < 64)
  | .postRecord c => decide (c < 1024)
  | .preRecord c => decide (c < 1024)
  | .inningsBoundary c lset => decide (c < 1024) && decide (lset < 4)
  | .lrnModSetWrite p c _ => partyOk p && decide (c < 1024)
  | .lsetWrite p c lset w _ => partyOk p && decide (c < 1024) && decide (lset < 4) && decide (w < 8)
  | .laneLock l lane => decide (l < 8) && decide (lane < 24)
  | .linkAlign l _ => decide (l < 8)
  | .linkUp l _ _ => decide (l < 8)
  | .bufOvf l => decide (l < 8)
  | .laneLockLoss l lane => decide (l < 8) && decide (lane < 24)
  | .multiblockCrcError l => decide (l < 8)
  | .sysrefEdge _ => true
  | .sysrefArm p => partyOk p
  | .channeliserFrame l _ => decide (l < 8)
  | .windowEnd l => decide (l < 8)
  | .sefRelease l => decide (l < 8)
  | .eipLaneLock lane => decide (lane < 8)
  | .eipAlign => true
  | .eipLinkDown _ => true
  | .eipGroup _ _ _ _ => true
  | .eipHandoff => true
  | .backchannelMessage => true
  | .nakRepeat => true
  | .trigInEdge input _ _ => decide (input < 4)
  | .trigForce p _ => partyOk p
  | .resultEvent port => decide (port < 8)
  | .load p ctx => partyOk p && decide (ctx < 0x10000)
  | .loadImage p ctx => partyOk p && decide (ctx < 0x10000)
  | .start p ctx => partyOk p && decide (ctx < 0x10000)
  | .pause p ctx => partyOk p && decide (ctx < 0x10000)
  | .pauseComplete ctx => decide (ctx < 0x10000)
  | .resume p ctx => partyOk p && decide (ctx < 0x10000)
  | .clearOverrun p ctx => partyOk p && decide (ctx < 0x10000)
  | .drain p ctx => partyOk p && decide (ctx < 0x10000)
  | .drainComplete ctx => decide (ctx < 0x10000)
  | .reset p ctx => partyOk p && decide (ctx < 0x10000)
  | .clear p ctx => partyOk p && decide (ctx < 0x10000)
  | .clearZeroing ctx => decide (ctx < 0x10000)
  | .free p ctx => partyOk p && decide (ctx < 0x10000)
  | .ctxCmdBadOp p op ctx => partyOk p && decide (op < 16) && decide (ctx < 0x10000)
  | .ctxCmdWaitEnd => true
  | .descriptorFieldUpdate ctx _ => decide (ctx < 0x10000)
  | .outputRecordWrite => true
  | .ocrConsWrite p r _ => partyOk p && decide (r < 256)
  | .latestResultRead p ctx _ => partyOk p && decide (ctx < 0x10000)
  | .journalRecordWrite => true
  | .journalResyncDone => true
  | .checkpoint ctx => decide (ctx < 0x10000)
  | .checkpointDone ctx => decide (ctx < 0x10000)
  | .faultReport => true
  | .chipFaultAction _ _ => true
  | .fmAck p _ index => partyOk p && decide (index < 64)
  | .recovery => true
  | .replayWicket ctx => decide (ctx < 0x10000)
  | .ethFrameRx port _ _ _ _ => decide (port < 2)
  | .swrTxPost p port _ => partyOk p && decide (port < 2)
  | .frameTransmitDone port => decide (port < 2)
  | .hello h genMin genMax features => hdrOk h && decide (genMin < 16) && decide (genMax < 16) && decide (features < 0x100000000)
  | .accept h gen => hdrOk h && decide (gen < 16)
  | .reject h reason => hdrOk h && decide (reason < 16)
  | .volley h seg => hdrOk h && segmentOk seg
  | .close h w => hdrOk h && decide (w < 0x10000000000000000)
  | .refuse h _ => hdrOk h
  | .ackonly h => hdrOk h
  | .keepalive h => hdrOk h
  | .bye h => hdrOk h
  | .helloRetry peer => decide (peer < 32)
  | .aetAckDelay peer => decide (peer < 32)
  | .aetRto peer seq => decide (peer < 32) && decide (seq < 0x100000000)
  | .keepaliveSend peer => decide (peer < 32)
  | .deadTimeout peer => decide (peer < 32)
  | .retry p peer _ => partyOk p && decide (peer < 32)
  | .switch p peer _ => partyOk p && decide (peer < 32)
  | .aetRefConsWrite p _ => partyOk p
  | .volleyEgressEvent port => decide (port < 8)
  | .closeSend => true
  | .ppsEdge => true
  | .wdogWarn n => decide (n < 8)
  | .wdogReset n => decide (n < 8)
  | .clKick p n => partyOk p && decide (n < 8)
  | .clRelease p _ => partyOk p
  | .l2Uncorr => true
  | .postedStoreError n addr => decide (n < 8) && decide (addr < 0x10000000000)
  | .clusterDown => true
  | .graceExpired => true
  | .sicClaim p x => partyOk p && decide (x < 16)
  | .sicComplete p x n => partyOk p && decide (x < 16) && decide (n < 1024)
  | .sicHostDone p n => partyOk p && decide (n < 1024)
  | .msixUnmask p vec => partyOk p && decide (vec < 2048)
  | .hostTlp _ _ op _ => tlpOpOk op
  | .pdmaDescriptor c _ _ => decide (c < 8)
  | .pdmaResume p c => partyOk p && decide (c < 8)
  | .pcieLinkDown => true
  | .flr => true
  | .hostHello seq lo hi => decide (seq < 64) && decide (lo < 256) && decide (hi < 256)
  | .ping seq arg => decide (seq < 64) && decide (arg < 0x100000)
  | .hostLoadImage seq offset => decide (seq < 64) && decide (offset < 0x100000)
  | .quiesce seq arg => decide (seq < 64) && decide (arg < 0x100000)
  | .helloReply => true
  | .pong => true
  | .loaded result => decide (result < 16)
  | .quiesced => true
  | .notice n => decide (n < 16)
  | .sliceAccess p _ op _ => partyOk p && sliceOpOk op
  | .bitSetWrite p _ _ => partyOk p
  | .bitClearWrite p _ _ => partyOk p
  | .sliceOwnerWrite p b _ => partyOk p && decide (b < 64)
  | .sliceHandover c _ => decide (c < 1024)
  | .sliceScrubRead b _ => decide (b < 64)
  | .sliceRetain p b => partyOk p && decide (b < 64)
  | .sliceRetained b => decide (b < 64)
  | .sliceWake p b => partyOk p && decide (b < 64)
  | .sliceWakeDone b => decide (b < 64)
  | .memoryRefresh ch bank => decide (ch < 16) && decide (bank < 8)
  | .mr4Poll ch _ => decide (ch < 16)
  | .retrain p ch => p.all partyOk && decide (ch < 16)
  | .retrainDone ch => decide (ch < 16)
  | .channelFailed ch => decide (ch < 16)
  | .offline p ch => partyOk p && decide (ch < 16)
  | .sdmaDescriptor c _ _ => decide (c < 16)
  | .sdmaResume p c => partyOk p && decide (c < 16)
  | .timerEvent n => decide (n < 32)
  | .masterEvent => true
  | .capture n => decide (n < 32)
  | .compareWrite p n _ => partyOk p && decide (n < 32)
  | .tmrStart p _ => partyOk p
  | .tmrStop p _ => partyOk p
  | .timerChainRead p n _ => partyOk p && decide (n < 32)
  | .recSeed p _ => partyOk p
  | .recSwCode p _ => partyOk p
  | .recorderFreeze p => partyOk p
  | .recorderThaw p => partyOk p
  | .recorderClear p => partyOk p
  | .referenceLost ref => decide (ref < 4)
  | .refHoldoverExpiry => true
  | .pllLockLost pll => decide (pll < 13)
  | .coldReset _ => true
  | .coldInitDone _ _ => true
  | .bistDone spares rows _ => decide (spares < 0x10000000000000000) && rows.all fun r => decide (r.1 < 64)
  | .trainingDone rate density ranks => decide (rate < 16) && decide (density < 16) && decide (ranks < 2)
  | .warmReset r => resetByOk r
  | .computeReset r => resetByOk r
  | .computeResetRelease => true
  | .regionReset r region => resetByOk r && decide (region < 4)
  | .coreReset r c => resetByOk r && decide (c < 1024)
  | .resetRelease _ n => decide (n < 1024)
  | .perstN => true
  | .clkMeasStart p domain => partyOk p && decide (domain < 32)
  | .clkMeasDone khz => decide (khz < 0x1000000)
  | .coreSleep c => decide (c < 1024)
  | .blockSleep b => decide (b < 64)
  | .wakeCause _ n => decide (n < 1024)
  | .governorAdmit r _ => decide (r < 4)
  | .enterP2 p r _ => partyOk p && decide (r < 4)
  | .p2EntryDone r => decide (r < 4)
  | .exitP2 p r => partyOk p && decide (r < 4)
  | .p2ExitDone r => decide (r < 4)
  | .enterP3 p => partyOk p
  | .i2cWake addr => decide (addr < 128)
  | .p3Exit => true
  | .pwrVfWrite p r vmv mult _ => partyOk p && decide (r < 4) && decide (vmv < 1024) && decide (mult < 16)
  | .vfSettled r => decide (r < 4)
  | .multChangeDone r => decide (r < 4)
  | .pmbusAddrWrite p r addr vramp _ => partyOk p && decide (r < 4) && decide (addr < 128) && decide (vramp < 0x10000)
  | .powerCapCheck _ _ _ _ _ => true
  | .vcorePgFall r => decide (r < 4)
  | .sysPgRise => true
  | .sysPgFall => true
  | .vddAonRise => true
  | .thermTrip _ => true
  | .pufUnwrap => true
  | .offer n offset => decide (n < 64) && decide (offset < 0x10000000)
  | .attest n offset => decide (n < 64) && decide (offset < 0x10000000)
  | .spiReadDone _ => true
  | .bootData _ => true
  | .bootDone _ => true
  | .imageVerified => true
  | .protShadowWrite p w _ => partyOk p && decide (w < 262)
  | .protStage p _ => partyOk p
  | .protCommit p _ => partyOk p
  | .protDecline p _ => partyOk p
  | .protExpired => true
  | .cfgloadCmd p => partyOk p
  | .cfgloadDone => true
  | .ethLinkDown port => decide (port < 2)
  | .ethLinkUp port => decide (port < 2)
  | .pcieLinkUp speed width => decide (speed < 5) && decide (width < 9)
  | .referenceReturn ref => decide (ref < 4)
  | .vcorePgRise r => decide (r < 4)
  | .rstNRelease src => decide (src < 4)
  | .supplyRemoval => true
  | .nackTimeout src dst _ => decide (src < 4096) && decide (dst < 4096)
  | .correctedMonitorEvent r => decide (r < 4)

/-- Well-formed. -/
abbrev WellFormed (i : Instr) : Prop := i.wf = true

end Sys2Proof
end

