-- ==== Sys2Proof/Safety.lean ====
section
/-! DEFINITION. What counts as a safe run, and the terms in which claims about a command are made: what it leaves unchanged,
and when an engine's instruction is the one its store holds. -/

namespace Sys2Proof.Machine

/-! ### Frames -/

/-- Every register word outside the fields `fs` reads in `t` as in `s`. -/
def CsrKept (fs : List FieldRef) (s t : State) : Prop :=
  ∀ a : Nat, (∀ f ∈ fs, ∀ j, j < fieldWords f → a ≠ f.addr + 4 * j) → rdWord t a = rdWord s a

/-- Every byte of memory that is not among the `n` bytes at `a` reads in `t` as in `s`. -/
def MemKept (a n : Nat) (s t : State) : Prop := ∀ b : Nat, (b < a ∨ a + n ≤ b) → getByte t.mem b = getByte s.mem b

/-- `s` with the interrupt controller's flags, and the messages it has written to host memory, as in `t`: what follows from
the registers at the end of every command (R392). -/
def withSic (s t : State) : State := { s with sic := t.sic, outside := { s.outside with host := t.outside.host } }

/-- Nothing differs but registers, and the interrupt controller's flags and messages that follow from them. -/
def OnlyCsr (s t : State) : Prop := t = { withSic s t with csr := t.csr }

/-- Nothing differs but registers, engines and the interrupt controller's flags and messages. -/
def OnlyEngs (s t : State) : Prop := t = { withSic s t with csr := t.csr, engs := t.engs }

/-- Nothing differs but registers, engines, packets on their way in the fabric and the interrupt controller's flags and
messages. -/
def OnlyFabric (s t : State) : Prop := t = { withSic s t with csr := t.csr, engs := t.engs, fab := t.fab }

/-- Nothing differs but registers, engines, memory with its error bits, and the interrupt controller's flags and messages. -/
def OnlyStores (s t : State) : Prop := t = { withSic s t with csr := t.csr, engs := t.engs, mem := t.mem, ecc := t.ecc }

/-- Nothing differs but registers, memory and the interrupt controller's flags and messages. -/
def OnlyMem (s t : State) : Prop := t = { withSic s t with csr := t.csr, mem := t.mem }

/-- No engine but engine `e` of core `c` differs. -/
def EngKept (c e : Nat) (s t : State) : Prop := ∀ k : Nat, k ≠ 8 * c + e → tget {} k t.engs = tget {} k s.engs

/-- Every scalar register of engine `e` of core `c` that `rs` does not name reads in `t` as in `s`. -/
def RegsKept (c e : Nat) (rs : List Nat) (s t : State) : Prop := ∀ r : Nat, r ∉ rs → regOf t c e r = regOf s c e r

/-- Engine `e` of core `c` has retired its instruction and stands at `target`: the program counter, RETIRED, and nothing of
any other engine, of its own state, vector registers or handler, or of any other register of the device. -/
def Retires (c e target : Nat) (s t : State) : Prop :=
  eng t c e = { eng s c e with pc := target, regs := (eng t c e).regs, vregs := (eng t c e).vregs } ∧
  EngKept c e s t ∧
  getF t (Reg.eng_RETIRED_COUNT c e) = (getF s (Reg.eng_RETIRED_COUNT c e) + 1) % 2 ^ 64 ∧
  CsrKept [Reg.eng_RETIRED_COUNT c e] s t

/-- Host memory takes the messages that the interrupt controller sends, each as its vector's entry says, and nothing else leaves for the
host (R392, R397). -/
def OnlyMessages (s t : State) : Prop :=
  ∃ vs : List Nat, t.sic.sent = s.sic.sent ++ vs ∧ t.outside.host = s.outside.host ++
    vs.map (fun v => (rdWords t (Reg.msix_MSIX v) 2, toBytes (rdWord t (Reg.msix_MSIX v + 8)).toNat 4))

/-- Nothing waits on its way: no access, TLP, refusal record, received frame or attestation, and no compute reset that waits for the
journal. A command that lets such things go on then does nothing more than its own effect. -/
def NothingWaits (s : State) : Prop :=
  s.memWait = [] ∧ s.outside.tlps = [] ∧ s.ringIn = [] ∧ s.rxIn = [] ∧ s.sec.attest = none ∧ ∀ q ∈ s.resets, q.waits = false

/-! ### Engine runs -/

/-- The protected words at the window offsets `ws` of core `c` hold no error (R97). -/
def WordsClean (s : State) (c : Nat) (ws : List Nat) : Prop := ∀ w ∈ ws, eccAt s (eccWordOf c w) = 0

/-- The window offset of the instruction at the engine's program counter. -/
def fetchWord (s : State) (c e : Nat) : Nat := 0x3C000 + 4 * (eng s c e).pc

/-- The instruction issues: the engine runs a handler, awaits none of the registers it names, and fetches within its program
range a word that holds no error and has an assigned opcode and function code (R87, R97, R104, R105, R109). -/
def Issues (s : State) (c e : Nat) (uses : List Nat) : Prop :=
  canIssue s c e uses = true ∧ fetchOk s c e = true ∧ WordsClean s c [fetchWord s c e] ∧ wordAssigned s c e = true

/-- The command is the instruction that stands in the instruction store at the engine's program counter. The model carries
out any ACIS command that it is given; a run is the hardware's only where this holds of each. -/
def Fetched (s : State) (i : Instr) : Prop :=
  ∃ x, acisEncode i = some x ∧ rdNum s (coreBase x.core + 0x3C000 + 4 * (eng s x.core x.eng).pc) 4 = x.word

/-! ### Safe runs -/

/-- No reserved field holds a changed value, so that the rules of the spec bind the device (R9). -/
def Bound (s : State) : Prop := s.rsvDirty = false

/-- Every asserted level source whose HOST_EN is 1 is host-pending (R392). -/
def HostPending (s : State) : Prop :=
  ∀ n : Nat, n < 1024 → hostEn s n = true → sicLevel s n = true → n ∈ s.sic.host

end Sys2Proof.Machine
end

