-- ==== Sys2Proof/Certificates/Slice0/Obligations.lean ====
section
/-! DEFINITION. The statements about the device that the provers are given. -/

open Sys2Proof Sys2Proof.Machine

/-! ### The engines' instructions (R103-R142) -/

/-- R110: what each Form A operation computes; the instruction retires, and nothing but rd, the program counter and RETIRED changes.
A write to s0 is discarded (R103). R111: what each Form B operation computes, where its unused and shift fields are as the rule
asks; nothing but rd, the program counter and RETIRED changes. -/
def Obligations.ScalarForms : Prop :=
 (∀ (s : State) (c e rd ra rb : Nat), Bound s → Issues s c e [rd, ra, rb] →
    let a := regOf s c e ra
    let b := regOf s c e rb
    let n := b.toNat % 32
    ∀ p ∈ [(Instr.add c e rd ra rb, a + b), (.sub c e rd ra rb, a - b), (.and c e rd ra rb, a &&& b), (.or c e rd ra rb, a ||| b),
        (.xor c e rd ra rb, a ^^^ b), (.sll c e rd ra rb, a <<< n), (.srl c e rd ra rb, a >>> n),
        (.sra c e rd ra rb, a.sshiftRight n), (.slt c e rd ra rb, if a.toInt < b.toInt then 1 else 0),
        (.sltu c e rd ra rb, if a.toNat < b.toNat then 1 else 0), (.min c e rd ra rb, BitVec.ofInt 32 (min a.toInt b.toInt)),
        (.max c e rd ra rb, BitVec.ofInt 32 (max a.toInt b.toInt)), (.mul c e rd ra rb, BitVec.ofNat 32 (a.toNat * b.toNat)),
        (.mulh c e rd ra rb, BitVec.ofInt 32 (a.toInt * b.toInt / 2 ^ 32)), (.rsra c e rd ra rb, BitVec.ofInt 32 (rdiv a.toInt n))]
        ++ (if rb = 0 then [(.sat24 c e rd ra rb, BitVec.ofInt 32 (max (-8388608) (min 8388607 a.toInt)))] else []),
      ∃ t, exec p.1 s = .next t ∧ regOf t c e rd = (if rd = 0 then 0 else p.2) ∧ RegsKept c e [rd] s t ∧
        Retires c e ((eng s c e).pc + 1) s t ∧ (eng t c e).vregs = (eng s c e).vregs ∧ OnlyEngs s t) ∧
  (∀ (s : State) (c e rd ra imm : Nat), Bound s → Issues s c e [rd, ra] → imm < 65536 →
    let a := regOf s c e ra
    let z := BitVec.ofNat 32 imm
    let x := BitVec.ofInt 32 (if imm < 32768 then (imm : Int) else (imm : Int) - 65536)
    ∀ p ∈ [(Instr.addi c e rd ra imm, a + x), (.andi c e rd ra imm, a &&& z), (.ori c e rd ra imm, a ||| z),
        (.xori c e rd ra imm, a ^^^ z), (.slti c e rd ra imm, if a.toInt < x.toInt then 1 else 0)]
        ++ (if ra = 0 then [(.lui c e rd ra imm, z <<< 16)] else [])
        ++ (if imm < 32 then [(.slli c e rd ra imm, a <<< imm), (.srli c e rd ra imm, a >>> imm),
          (.srai c e rd ra imm, a.sshiftRight imm), (.rsrai c e rd ra imm, BitVec.ofInt 32 (rdiv a.toInt imm))] else []),
      ∃ t, exec p.1 s = .next t ∧ regOf t c e rd = (if rd = 0 then 0 else p.2) ∧ RegsKept c e [rd] s t ∧
        Retires c e ((eng s c e).pc + 1) s t ∧ (eng t c e).vregs = (eng s c e).vregs ∧ OnlyEngs s t)

/-- R115: BR goes to target when its condition holds and to the next instruction otherwise, and writes no register; JAL puts the
return index in s31; JR goes to ra[11:0]. -/
def Obligations.ControlFlow : Prop :=
  ∀ (s : State) (c e ra rb target : Nat), Bound s →
    (Issues s c e [ra, rb] →
      let a := regOf s c e ra
      let b := regOf s c e rb
      ∀ p ∈ [(0, decide (a = b)), (1, decide (a ≠ b)), (2, decide (a.toInt < b.toInt)), (3, decide (b.toInt ≤ a.toInt)),
          (4, decide (a.toNat < b.toNat)), (5, decide (b.toNat ≤ a.toNat))]
          ++ (if ra = 0 ∧ rb = 0 then [(15, true)] else []),
        ∃ t, exec (.br c e ra rb p.1 target) s = .next t ∧
          Retires c e (if p.2 then target else (eng s c e).pc + 1) s t ∧ RegsKept c e [] s t ∧
          (eng t c e).vregs = (eng s c e).vregs ∧ OnlyEngs s t) ∧
    (Issues s c e [31] →
      ∃ t, exec (.jal c e 0 0 0 target) s = .next t ∧ regOf t c e 31 = BitVec.ofNat 32 ((eng s c e).pc + 1) ∧
        RegsKept c e [31] s t ∧ Retires c e target s t ∧ (eng t c e).vregs = (eng s c e).vregs ∧ OnlyEngs s t) ∧
    (Issues s c e [ra] → (regOf s c e ra).toNat < 4096 →
      ∃ t, exec (.jr c e ra 0 0 0) s = .next t ∧ Retires c e (regOf s c e ra).toNat s t ∧ RegsKept c e [] s t ∧
        (eng t c e).vregs = (eng s c e).vregs ∧ OnlyEngs s t)

/-- R112: a local load at an aligned offset of the five stores, whose protected words hold no error, writes rd with the word, or the
half or byte sign- or zero-extended, and changes nothing else but the program counter and RETIRED. -/
def Obligations.LocalLoads : Prop :=
  ∀ (s : State) (c e rd ra imm : Nat), Bound s → Issues s c e [rd, ra] →
    let o := formBAddr s c e ra imm
    ∀ p ∈ [(Instr.lw c e rd ra imm 0, 4, fun v => BitVec.ofNat 32 v), (.lh c e rd ra imm, 2, fun v => (BitVec.ofNat 16 v).signExtend 32),
        (.lhu c e rd ra imm, 2, fun v => BitVec.ofNat 32 v), (.lb c e rd ra imm, 1, fun v => (BitVec.ofNat 8 v).signExtend 32),
        (.lbu c e rd ra imm, 1, fun v => BitVec.ofNat 32 v)],
      o % p.2.1 = 0 → o < 0x40000 → WordsClean s c (storeWords o p.2.1) →
        ∃ t, exec p.1 s = .next t ∧ regOf t c e rd = (if rd = 0 then 0 else p.2.2 (getNum s.mem (0x0100000000 + c * 0x100000 + o) p.2.1)) ∧
          RegsKept c e [rd] s t ∧ Retires c e ((eng s c e).pc + 1) s t ∧ (eng t c e).vregs = (eng s c e).vregs ∧ OnlyEngs s t

/-- R113: a local store by a permitted engine writes the low bytes of rd: all of them in the kernel area (SE and PE), and only the
bits of V, DEND, LAST and REFC (SO) or of TRACE (PE) in the soma store, where the other bits keep their values; every byte outside
the store stays. R97: a word that the store covers is written without being read, and holds no error then; any other is read first,
and is here one without an error. R113: a local store that is not permitted raises STORE_DENIED (5) and writes nothing: EXC_CAUSE
and EXC_PC take the exception where they hold none. -/
def Obligations.LocalStores : Prop :=
 (∀ (s : State) (c e rd ra imm : Nat), Bound s → Issues s c e [rd, ra] →
    let o := formBAddr s c e ra imm
    let a := 0x0100000000 + c * 0x100000 + o
    ∀ p ∈ [(Instr.sw c e rd ra imm, 4), (.sh c e rd ra imm, 2), (.sb c e rd ra imm, 1)],
      o % p.2 = 0 → (wholeWords o p.2 = false → WordsClean s c (storeWords o p.2)) →
      (o < 0x20000 ∧ (e = 2 ∨ e = 3)) ∨ (0x32600 ≤ o ∧ o < 0x38000 ∧ (e = 1 ∨ e = 3)) →
        ∃ t, exec p.1 s = .next t ∧ MemKept a p.2 s t ∧
          (∀ i, i < 8 * p.2 → (getNum t.mem a p.2).testBit i =
            (if 0x20000 ≤ o ∨ (somaMask (isSet s (Reg.core_CORE_CFG_FMT c)) e o p.2).testBit i then (regOf s c e rd).toNat.testBit i
             else (getNum s.mem a p.2).testBit i)) ∧
          RegsKept c e [] s t ∧ Retires c e ((eng s c e).pc + 1) s t ∧ (eng t c e).vregs = (eng s c e).vregs ∧
          (∀ w, eccAt t w = (if w ∈ (storeWords o p.2).map (eccWordOf c) then 0 else eccAt s w)) ∧ OnlyStores s t) ∧
  (∀ (s : State) (c e rd ra imm : Nat), Bound s → Issues s c e [rd, ra] → isSet s (Reg.eng_EXC_CAUSE_VALID c e) = false →
    (core s c).applying = none →
    let o := formBAddr s c e ra imm
    ∀ p ∈ [(Instr.sw c e rd ra imm, 4), (.sh c e rd ra imm, 2), (.sb c e rd ra imm, 1)],
      o % p.2 = 0 → o < 0x40000 →
      ¬((o < 0x20000 ∧ (e = 2 ∨ e = 3)) ∨ (0x32600 ≤ o ∧ o < 0x38000 ∧ (e = 1 ∨ e = 3))) →
        ∃ t, exec p.1 s = .next t ∧ t.mem = s.mem ∧ getF t (Reg.eng_EXC_CAUSE_CODE c e) = 5 ∧
          isSet t (Reg.eng_EXC_CAUSE_VALID c e) = true ∧ rdWord t (Reg.eng_EXC_PC c e) = BitVec.ofNat 32 ((eng s c e).pc % 4096))

/-- R114, R174, R183: LWS and SWS at an aligned offset of the view issue, and the engine goes on: the read is outstanding and the
store on its way, each as a packet to the block port of the slice; an offset at or beyond the length of the view raises ADDR (4).
R114, R120: the answer that has come to the oldest outstanding read of its kind writes rd, or the lanes of vd that were enabled at
issue; a bus error raises SLICE_ERR (6) with the index and offset of the load. An SWS that failed raises it at an instruction
boundary with the index and offset of the store, and waits until its engine is at one. The core is one that runs; the engines of one
that is held, asleep or without a clock take no answer. -/
def Obligations.SliceLoadsAndStores : Prop :=
 (∀ (s : State) (c e rd ra imm : Nat), Bound s → Issues s c e [rd, ra] →
    let o := formBAddr s c e ra imm
    let sent := fun (op : SliceOp) => { s.fab with waiting := s.fab.waiting ++ [slicePacket s c e o op], tag := s.fab.tag + 1 }
    o % 4 = 0 →
    (o < viewLen s.variant →
      (∃ t, exec (.lws c e rd ra imm) s = .next t ∧
        (eng t c e).reads = (eng s c e).reads ++ [⟨false, rd, o, (eng s c e).pc, 0, s.fab.tag, none⟩] ∧ t.fab = sent (.read 4) ∧
        (eng t c e).posted = (eng s c e).posted ∧ (eng t c e).pc = (eng s c e).pc + 1 ∧ RegsKept c e [] s t ∧ OnlyFabric s t) ∧
      (∃ t, exec (.sws c e rd ra imm) s = .next t ∧
        (eng t c e).posted = (eng s c e).posted ++ [⟨o, .write (toBytes (regOf s c e rd).toNat 4), (eng s c e).pc, s.fab.tag⟩] ∧
        t.fab = sent (.write (toBytes (regOf s c e rd).toNat 4)) ∧ (eng t c e).reads = (eng s c e).reads ∧
        (eng t c e).pc = (eng s c e).pc + 1 ∧ RegsKept c e [] s t ∧ OnlyFabric s t)) ∧
    (viewLen s.variant ≤ o → isSet s (Reg.eng_EXC_CAUSE_VALID c e) = false → (core s c).applying = none →
      ∀ i ∈ [Instr.lws c e rd ra imm, .sws c e rd ra imm], ∃ t, exec i s = .next t ∧
        getF t (Reg.eng_EXC_CAUSE_CODE c e) = 4 ∧ t.mem = s.mem)) ∧
  (∀ (s : State) (c e : Nat), Bound s →
    (engRuns s c = false → ∀ i ∈ [Instr.lwsResponse c e, .vldsResponse c e, .swsError c e], exec i s = .next (sicSettle s)) ∧
    (engRuns s c = true →
    (∀ (r : SliceRead) (v : Nat) (l : List SliceRead),
      (takeRead false (eng s c e).reads = some (r, some v, l) → ∃ t, exec (.lwsResponse c e) s = .next t ∧
        regOf t c e r.dst = (if r.dst = 0 then 0 else BitVec.ofNat 32 v) ∧ (eng t c e).reads = l ∧ RegsKept c e [r.dst] s t ∧
        (eng t c e).pc = (eng s c e).pc ∧ (eng t c e).vregs = (eng s c e).vregs ∧ OnlyEngs s t) ∧
      (takeRead true (eng s c e).reads = some (r, some v, l) → ∃ t, exec (.vldsResponse c e) s = .next t ∧ (eng t c e).reads = l ∧
        (∀ d j, d < 16 → j < 16 → vlane t c e d j = (if d = r.dst ∧ r.mask.testBit j then
          BitVec.ofNat 32 (v / 2 ^ (32 * j)) else vlane s c e d j)) ∧
        RegsKept c e [] s t ∧ (eng t c e).pc = (eng s c e).pc ∧ OnlyEngs s t)) ∧
    (∀ (r : SliceRead) (l : List SliceRead),
      let failed := sicSettle (raiseExc c e 6 r.pc false (BitVec.ofNat 32 r.off) (modEng c e (fun g => { g with reads := l }) s))
      (takeRead false (eng s c e).reads = some (r, none, l) → exec (.lwsResponse c e) s = .next failed) ∧
      (takeRead true (eng s c e).reads = some (r, none, l) → exec (.vldsResponse c e) s = .next failed)) ∧
    (∀ (pc off : Nat) (l : List (Nat × Nat)), (eng s c e).storeErr = (pc, off) :: l →
      (atBoundary s c e = true → exec (.swsError c e) s = .next (sicSettle (raiseExc c e 6 pc false (BitVec.ofNat 32 off)
        (modEng c e (fun g => { g with storeErr := l }) s)))) ∧
      (atBoundary s c e = false → exec (.swsError c e) s = .next (sicSettle s)))))

/-- R119: what each vector register operation of the SE or the PE writes in the lanes that VMASK enables; every other lane keeps its
value, and no scalar register changes. R119: VEXT reads and VINS writes the lane that vb names, whatever VMASK holds; VRED sums the
enabled lanes, wrapping. -/
def Obligations.VectorForms : Prop :=
 (∀ (s : State) (c e vd va vb rs : Nat), Bound s → Issues s c e [100 + vd, 100 + va, 100 + vb, rs] → e = 1 ∨ e = 3 → vd < 16 →
    let x := fun j => vlane s c e va j
    let y := fun j => vlane s c e vb j
    let r := regOf s c e rs
    ∀ p ∈ (if rs = 0 then [(Instr.vadd c e vd va vb rs, fun j => x j + y j), (.vsub c e vd va vb rs, fun j => x j - y j),
          (.vmul c e vd va vb rs, fun j => x j * y j), (.vmin c e vd va vb rs, fun j => BitVec.ofInt 32 (min (x j).toInt (y j).toInt)),
          (.vmax c e vd va vb rs, fun j => BitVec.ofInt 32 (max (x j).toInt (y j).toInt)), (.vand c e vd va vb rs, fun j => x j &&& y j),
          (.vor c e vd va vb rs, fun j => x j ||| y j)] else []) ++
        (if vb = 0 then [(.vmuls c e vd va vb rs, fun j => x j * r), (.vrsras c e vd va vb rs, fun j => BitVec.ofInt 32 (rdiv (x j).toInt (r.toNat % 32))),
          (.vadds c e vd va vb rs, fun j => x j + r)] else []) ++
        (if vb = 0 ∧ r.toNat ∈ [4, 8, 16, 24, 32] then [(.vsat c e vd va vb rs,
          fun j => BitVec.ofInt 32 (max (-(2 ^ (r.toNat - 1) : Int)) (min (2 ^ (r.toNat - 1) - 1) (x j).toInt)))] else []) ++
        (if va = 0 ∧ vb = 0 then [(.vbcast c e vd va vb rs, fun _ => r)] else []),
      ∃ t, exec p.1 s = .next t ∧
        (∀ v j, v < 16 → j < 16 → vlane t c e v j =
          (if v = vd ∧ (getF s (Reg.eng_VMASK_LANES c e)).testBit j then p.2 j else vlane s c e v j)) ∧
        RegsKept c e [] s t ∧ Retires c e ((eng s c e).pc + 1) s t ∧ OnlyEngs s t) ∧
  (∀ (s : State) (c e vd va vb rs : Nat), Bound s → e = 1 ∨ e = 3 → vb < 16 → vd < 16 →
    (Issues s c e [100 + va, rs] →
      (∃ t, exec (.vext c e 0 va vb rs) s = .next t ∧ regOf t c e rs = (if rs = 0 then 0 else vlane s c e va vb) ∧
        RegsKept c e [rs] s t ∧ Retires c e ((eng s c e).pc + 1) s t ∧ (eng t c e).vregs = (eng s c e).vregs ∧ OnlyEngs s t) ∧
      (∃ t, exec (.vred c e 0 va 0 rs) s = .next t ∧ regOf t c e rs = (if rs = 0 then 0 else
          ((List.range 16).map (fun j => if (getF s (Reg.eng_VMASK_LANES c e)).testBit j then vlane s c e va j else 0)).sum) ∧
        RegsKept c e [rs] s t ∧ Retires c e ((eng s c e).pc + 1) s t ∧ (eng t c e).vregs = (eng s c e).vregs ∧ OnlyEngs s t)) ∧
    (Issues s c e [100 + vd, rs] →
      ∃ t, exec (.vins c e vd 0 vb rs) s = .next t ∧
        (∀ v j, v < 16 → j < 16 → vlane t c e v j = (if v = vd ∧ j = vb then regOf s c e rs else vlane s c e v j)) ∧
        RegsKept c e [] s t ∧ Retires c e ((eng s c e).pc + 1) s t ∧ OnlyEngs s t))

/-- R120: the local vector loads write each enabled lane of vd from its word, sign-extended byte or sign-extended nibble (R89), at
an aligned offset of the stores; VLDS at an aligned offset of the view issues a read of 64 bytes with the lanes enabled now. R120,
R121: VST, VSTB and VSTN store the word, the low byte or the low nibble of each enabled lane in the kernel area; the bytes and
nibbles of disabled lanes, and every byte outside the access, stay; a protected word that the lanes cover only in part is read first
(R97), and is here one without an error. VSADD issues the enabled lanes' additions to the slice. -/
def Obligations.VectorLoadsAndStores : Prop :=
 (∀ (s : State) (c e vd rs : Nat), Bound s → Issues s c e [100 + vd, rs] → e = 1 ∨ e = 3 → vd < 16 →
    let o := (regOf s c e rs).toNat
    let a := 0x0100000000 + c * 0x100000 + o
    (∀ p ∈ [(Instr.vld c e vd 0 0 rs, 64, fun j => BitVec.ofNat 32 (getNum s.mem (a + 4 * j) 4)),
        (.vldb c e vd 0 0 rs, 16, fun j => (getByte s.mem (a + j)).signExtend 32),
        (.vldn c e vd 0 0 rs, 8, fun j =>
          (BitVec.ofNat 4 ((getByte s.mem (a + j / 2)).toNat / (if j % 2 = 0 then 1 else 16))).signExtend 32)],
      o % p.2.1 = 0 → o < 0x40000 → WordsClean s c (storeWords o p.2.1) →
        ∃ t, exec p.1 s = .next t ∧
          (∀ v j, v < 16 → j < 16 → vlane t c e v j =
            (if v = vd ∧ (getF s (Reg.eng_VMASK_LANES c e)).testBit j then p.2.2 j else vlane s c e v j)) ∧
          RegsKept c e [] s t ∧ Retires c e ((eng s c e).pc + 1) s t ∧ OnlyEngs s t) ∧
    (o % 64 = 0 → o < viewLen s.variant →
      ∃ t, exec (.vlds c e vd 0 0 rs) s = .next t ∧
        (eng t c e).reads = (eng s c e).reads ++
          [⟨true, vd, o, (eng s c e).pc, getF s (Reg.eng_VMASK_LANES c e), s.fab.tag, none⟩] ∧
        t.fab = { s.fab with waiting := s.fab.waiting ++ [slicePacket s c e o (.read 64)], tag := s.fab.tag + 1 } ∧
        (eng t c e).pc = (eng s c e).pc + 1 ∧ RegsKept c e [] s t ∧ (eng t c e).vregs = (eng s c e).vregs ∧ OnlyFabric s t)) ∧
  (∀ (s : State) (c e va rs : Nat), Bound s → Issues s c e [100 + va, rs] → e = 1 ∨ e = 3 →
    let o := (regOf s c e rs).toNat
    let a := 0x0100000000 + c * 0x100000 + o
    let x := fun j => (vlane s c e va j).toNat
    let on := fun j => (getF s (Reg.eng_VMASK_LANES c e)).testBit j
    (0x32600 ≤ o → o < 0x38000 →
      (o % 64 = 0 → WordsClean s c (storeReads s c e o 64) →
        ∃ t, exec (.vst c e 0 va 0 rs) s = .next t ∧ MemKept a 64 s t ∧
          (∀ j, j < 16 → getNum t.mem (a + 4 * j) 4 = (if on j then x j else getNum s.mem (a + 4 * j) 4)) ∧
          RegsKept c e [] s t ∧ Retires c e ((eng s c e).pc + 1) s t ∧ OnlyStores s t) ∧
      (o % 16 = 0 → WordsClean s c (storeReads s c e o 16) →
        ∃ t, exec (.vstb c e 0 va 0 rs) s = .next t ∧ MemKept a 16 s t ∧
          (∀ j, j < 16 → (getByte t.mem (a + j)).toNat = (if on j then x j % 256 else (getByte s.mem (a + j)).toNat)) ∧
          RegsKept c e [] s t ∧ Retires c e ((eng s c e).pc + 1) s t ∧ OnlyStores s t) ∧
      (o % 8 = 0 → WordsClean s c (storeReads s c e o 8) →
        ∃ t, exec (.vstn c e 0 va 0 rs) s = .next t ∧ MemKept a 8 s t ∧
          (∀ j, j < 8 → (getByte t.mem (a + j)).toNat =
            (if on (2 * j) then x (2 * j) % 16 else (getByte s.mem (a + j)).toNat % 16) +
            16 * (if on (2 * j + 1) then x (2 * j + 1) % 16 else (getByte s.mem (a + j)).toNat / 16)) ∧
          RegsKept c e [] s t ∧ Retires c e ((eng s c e).pc + 1) s t ∧ OnlyStores s t)) ∧
    (o % 64 = 0 → o < viewLen s.variant →
      ∃ t, exec (.vsadd c e 0 va 0 rs) s = .next t ∧
        (let op := SliceOp.add ((List.range 16).map (fun j => if on j then some (vlane s c e va j) else none))
        (eng t c e).posted = (eng s c e).posted ++ [⟨o, op, (eng s c e).pc, s.fab.tag⟩] ∧
        t.fab = { s.fab with waiting := s.fab.waiting ++ [slicePacket s c e o op], tag := s.fab.tag + 1 }) ∧
        (eng t c e).pc = (eng s c e).pc + 1 ∧ RegsKept c e [] s t ∧ OnlyFabric s t))

/-- R122, R123, R145: on a semaphore id of either form, SWAIT passes when the count covers rb, subtracting if imm8[4] asks for it
and no engine before it in the order of R124 waits to subtract and is covered, and waits otherwise; SADD and SSUB change the count
by rb where it stays within 0 to 65,535, and SREAD reads it. No other byte of memory and no other register changes. SWAIT_PASS lets
a waiting SWAIT pass when the count covers its operand and no engine before it in the order of R124 does. With a physical id the
bits of imm8 that name a virtual one are not looked at (the model's choice, log 15). R125, R126: the SQ defines and frees a herd
that has no arrival in its round; HARR arrives and goes on, HWAIT arrives and waits; the arrival that fills the mask completes the
round: the arrivals and waits are cleared, the round is counted and every waiting engine is released that still stands in HWAIT. A
second arrival in one round stalls. -/
def Obligations.SemaphoreAndHerdForms : Prop :=
 (∀ (s : State) (c e : Nat), Bound s →
    (∀ rd ra rb imm8, Issues s c e [rd, ra, rb] → imm8 < 64 →
      (imm8.testBit 5 = true → (regOf s c e ra).toNat < 256) →
      (imm8.testBit 5 = false → ra = 0 ∧ getF s (Reg.eng_CUR_SLOT_SLOT c e) < 256) →
      let id := semId s c e ra imm8
      let n := (regOf s c e rb).toNat
      let k := semOf s c id
      WordsClean s c (semWords s c e ra imm8) →
      let goes := fun (i : Instr) (k' : Nat) => ∃ t, exec i s = .next t ∧ semOf t c id = k' ∧ MemKept (semAddr c id) 2 s t ∧
        (eng t c e).pc = (eng s c e).pc + 1 ∧ (eng t c e).st = .run ∧ RegsKept c e [] s t
      (rd = 0 → n ≤ 65535 →
        (n ≤ k → (imm8.testBit 4 = true → semAhead s c e id = false) →
          goes (.swait c e rd ra rb imm8) (if imm8.testBit 4 then k - n else k)) ∧
        (k < n ∨ (imm8.testBit 4 = true ∧ semAhead s c e id = true) → ∃ t, exec (.swait c e rd ra rb imm8) s = .next t ∧
          (eng t c e).wait = .sem id n (imm8.testBit 4) ∧ (eng t c e).st = .waitSync ∧ t.mem = s.mem ∧ (eng t c e).pc = (eng s c e).pc) ∧
        ((imm8.testBit 5 = true ∨ imm8.testBit 4 = false) →
          (k + n ≤ 65535 → goes (.sadd c e rd ra rb imm8) (k + n)) ∧ (n ≤ k → goes (.ssub c e rd ra rb imm8) (k - n)))) ∧
      (rb = 0 → (imm8.testBit 5 = true ∨ imm8.testBit 4 = false) →
        ∃ t, exec (.sread c e rd ra rb imm8) s = .next t ∧ regOf t c e rd = (if rd = 0 then 0 else BitVec.ofNat 32 k) ∧
          RegsKept c e [rd] s t ∧ Retires c e ((eng s c e).pc + 1) s t ∧ OnlyEngs s t)) ∧
    (∀ (id n : Nat) (sub : Bool), engRuns s c = true → (eng s c e).wait = .sem id n sub → n ≤ semOf s c id →
      (sub = true → semAhead s c e id = false) → WordsClean s c (storeWords (0x3A400 + 2 * id) 2) →
      ∃ t, exec (.swaitPass c e) s = .next t ∧ semOf t c id = (if sub then semOf s c id - n else semOf s c id) ∧
        (eng t c e).st = .run ∧ (eng t c e).pc = (eng s c e).pc + 1)) ∧
  (∀ (s : State) (c e h : Nat), Bound s → h < 8 → WordsClean s c (herdWords h) →
    (∀ ra, Issues s c 5 [ra] → herdArrived s c h = 0 →
      ∃ t, exec (.hdef c 5 0 ra 0 h) s = .next t ∧ herdMask t c h = (regOf s c 5 ra).toNat % 64 ∧ MemKept (herdBase c h) 1 s t ∧
        (eng t c 5).pc = (eng s c 5).pc + 1 ∧ RegsKept c 5 [] s t) ∧
    (Issues s c 5 [] → herdArrived s c h = 0 →
      ∃ t, exec (.hfree c 5 0 0 0 h) s = .next t ∧ herdMask t c h = 0 ∧ MemKept (herdBase c h) 1 s t ∧
        (eng t c 5).pc = (eng s c 5).pc + 1 ∧ RegsKept c 5 [] s t) ∧
    (Issues s c e [] → (herdMask s c h).testBit e = true → (herdWaiting s c h).testBit e = false →
      (∀ f, f < 6 → ∀ g w, (eng s c f).wait ≠ .arrive g w) →
      ((herdArrived s c h).testBit e = true → ∀ i ∈ [(Instr.harr c e 0 0 0 h, false), (.hwait c e 0 0 0 h, true)],
        ∃ t, exec i.1 s = .next t ∧ (eng t c e).wait = .arrive h i.2 ∧ t.mem = s.mem ∧ (eng t c e).pc = (eng s c e).pc) ∧
      ((herdArrived s c h).testBit e = false →
        ((herdArrived s c h ||| 2 ^ e) &&& herdMask s c h = herdMask s c h → ∀ i ∈ [Instr.harr c e 0 0 0 h, .hwait c e 0 0 0 h],
          ∃ t, exec i s = .next t ∧ herdArrived t c h = 0 ∧ herdWaiting t c h = 0 ∧
            herdRounds t c h = (herdRounds s c h + 1) % 2 ^ 32 ∧ herdMask t c h = herdMask s c h ∧
            (eng t c e).pc = (eng s c e).pc + 1 ∧
            (∀ f, f < 6 → (herdWaiting s c h).testBit f = true → (eng s c f).wait = .herd h → (eng t c f).st = .run ∧ (eng t c f).pc = (eng s c f).pc + 1)) ∧
        ((herdArrived s c h ||| 2 ^ e) &&& herdMask s c h ≠ herdMask s c h →
          (∃ t, exec (.harr c e 0 0 0 h) s = .next t ∧ herdArrived t c h = herdArrived s c h ||| 2 ^ e ∧
            (eng t c e).pc = (eng s c e).pc + 1 ∧ herdMask t c h = herdMask s c h) ∧
          (∃ t, exec (.hwait c e 0 0 0 h) s = .next t ∧ herdArrived t c h = herdArrived s c h ||| 2 ^ e ∧
            herdWaiting t c h = herdWaiting s c h ||| 2 ^ e ∧ (eng t c e).wait = .herd h ∧ (eng t c e).pc = (eng s c e).pc)))))

/-- R123: an rb above 65,535, an SADD whose result would exceed 65,535 and an SSUB whose result would fall below zero raise
SEM_RANGE (7), and the instruction then changes nothing. A virtual id while CUR_SLOT names no slot (0x100) raises SLOT_STATE (12).
imm8[7:6] and, for virtual ids outside SWAIT, imm8[4] must be zero, and raise ILLEGAL (1) else. What the exception writes for its
handler is s1 to s3. That SLOT_STATE is judged before SEM_RANGE (log 43) and that the other bits of imm8 are not looked at with a
physical id (log 15) are the model's choices. -/
def Obligations.SemaphoreRange : Prop :=
  ∀ (s : State) (c e rd ra rb imm8 : Nat), Bound s → Issues s c e [rd, ra, rb] → imm8 < 256 →
    let raises := fun (i : Instr) (code : Nat) => ∃ t, exec i s = .next t ∧ t.mem = s.mem ∧ RegsKept c e [1, 2, 3] s t ∧
      (eng t c e).vregs = (eng s c e).vregs ∧ isSet t (Reg.eng_EXC_CAUSE_VALID c e) = true ∧
      (isSet s (Reg.eng_EXC_CAUSE_VALID c e) = false → getF t (Reg.eng_EXC_CAUSE_CODE c e) = code)
    let n := (regOf s c e rb).toNat
    let k := semOf s c (semId s c e ra imm8)
    (64 ≤ imm8 → ∀ i ∈ [Instr.swait c e rd ra rb imm8, .sadd c e rd ra rb imm8, .ssub c e rd ra rb imm8, .sread c e rd ra rb imm8],
      raises i 1) ∧
    (imm8.testBit 5 = false → imm8.testBit 4 = true →
      ∀ i ∈ [Instr.sadd c e rd ra rb imm8, .ssub c e rd ra rb imm8, .sread c e rd ra rb imm8], raises i 1) ∧
    (imm8 < 64 → imm8.testBit 5 = false → ra = 0 → 256 ≤ getF s (Reg.eng_CUR_SLOT_SLOT c e) →
      (rd = 0 → raises (.swait c e rd ra rb imm8) 12) ∧
      (imm8.testBit 4 = false → (rd = 0 → ∀ i ∈ [Instr.sadd c e rd ra rb imm8, .ssub c e rd ra rb imm8], raises i 12) ∧
        (rb = 0 → raises (.sread c e rd ra rb imm8) 12))) ∧
    (imm8 < 64 → rd = 0 → (imm8.testBit 5 = true → (regOf s c e ra).toNat < 256) →
      (imm8.testBit 5 = false → ra = 0 ∧ getF s (Reg.eng_CUR_SLOT_SLOT c e) < 256) →
      (65535 < n → raises (.swait c e rd ra rb imm8) 7) ∧
      (imm8.testBit 5 = true ∨ imm8.testBit 4 = false →
        (65535 < n → raises (.sadd c e rd ra rb imm8) 7 ∧ raises (.ssub c e rd ra rb imm8) 7) ∧
        (WordsClean s c (semWords s c e ra imm8) →
          (65535 < k + n → raises (.sadd c e rd ra rb imm8) 7) ∧ (k < n → raises (.ssub c e rd ra rb imm8) 7))))

/-- R127, R128: on a plain queue, the reader's QPOP takes the oldest entry into the rd pair and waits while the queue is empty; a
writer's QPUSH appends the rb pair and waits while the queue is full or an engine before it in the order of R150 can write; the
waiting instruction completes in the same way when it is tried again (R150); QLEN reads the number of entries. R128: a QPOP by an
engine that the descriptor does not name as reader, and a QPUSH by one that it does not name as writer, raise QUEUE (9) and change
nothing in memory; so does a QSEND whose ra[31:16] is nonzero, and sends nothing. -/
def Obligations.PlainQueueForms : Prop :=
 (∀ (s : State) (c e q : Nat), Bound s → q < 64 → qKind s c q = 0 ∨ qKind s c q = 3 → qCount s c q ≤ 16 →
    let pops := fun (i : Instr) (rd : Nat) => ∃ t, exec i s = .next t ∧
      regPair t c e rd = BitVec.ofNat 64 (rdNum s (qEntry c q (qHead s c q)) 8) ∧ qCount t c q = qCount s c q - 1 ∧
      qHead t c q = (qHead s c q + 1) % 16 ∧ MemKept (qDesc c q + 8) 2 s t ∧ (eng t c e).pc = (eng s c e).pc + 1 ∧
      (eng t c e).st = .run ∧ RegsKept c e [rd, rd + 1] s t
    let pushes := fun (i : Instr) (v : Word64) => ∃ t, exec i s = .next t ∧ qCount t c q = qCount s c q + 1 ∧
      qHead t c q = qHead s c q ∧ rdNum t (qEntry c q (qHead s c q + qCount s c q)) 8 = v.toNat ∧
      (eng t c e).pc = (eng s c e).pc + 1 ∧ RegsKept c e [] s t ∧
      (∀ j, j < qCount s c q → rdNum t (qEntry c q (qHead s c q + j)) 8 = rdNum s (qEntry c q (qHead s c q + j)) 8)
    (∀ rd, Issues s c e [rd, rd + 1] → rd % 2 = 0 → rd ≠ 0 → qReader s c q = e → WordsClean s c (qWords s c q true) →
      (qCount s c q ≠ 0 → pops (.qpop c e rd 0 0 q) rd) ∧
      (qCount s c q = 0 → ∃ t, exec (.qpop c e rd 0 0 q) s = .next t ∧ (eng t c e).wait = .pop q rd ∧
        (eng t c e).st = .waitQueue ∧ t.mem = s.mem)) ∧
    (∀ rd, engRuns s c = true → (eng s c e).wait = .pop q rd → rd % 2 = 0 → rd ≠ 0 → qCount s c q ≠ 0 → e < 6 →
      WordsClean s c (qWords s c q true) → pops (.qpopResume c e) rd) ∧
    (∀ rb, Issues s c e [rb, rb + 1] → rb % 2 = 0 → (qWriters s c q).testBit e = true → qKind s c q = 0 →
      WordsClean s c (qWords s c q false) →
      (qCount s c q < 16 → writeAhead s c e q = false → pushes (.qpush c e 0 0 rb q) (regPair s c e rb)) ∧
      (qCount s c q = 16 ∨ writeAhead s c e q = true → ∃ t, exec (.qpush c e 0 0 rb q) s = .next t ∧ (eng t c e).wait = .push q (regPair s c e rb) ∧
        (eng t c e).st = .waitQueue ∧ t.mem = s.mem)) ∧
    (∀ v, engRuns s c = true → (eng s c e).wait = .push q v → qKind s c q = 0 → qCount s c q < 16 → e < 6 → writeAhead s c e q = false →
      WordsClean s c (qWords s c q false) → pushes (.qpushResume c e) v) ∧
    (∀ rd, Issues s c e [rd] → WordsClean s c (qWords s c q false) →
      ∃ t, exec (.qlen c e rd 0 0 q) s = .next t ∧ regOf t c e rd = (if rd = 0 then 0 else BitVec.ofNat 32 (qCount s c q)) ∧
        RegsKept c e [rd] s t ∧ Retires c e ((eng s c e).pc + 1) s t ∧ OnlyEngs s t)) ∧
  (∀ (s : State) (c e r : Nat), Bound s → isSet s (Reg.eng_EXC_CAUSE_VALID c e) = false → (core s c).applying = none →
    let denied := fun (i : Instr) => ∃ t, exec i s = .next t ∧ getF t (Reg.eng_EXC_CAUSE_CODE c e) = 9 ∧ t.mem = s.mem ∧ t.fab = s.fab
    (∀ q, q < 64 → r % 2 = 0 →
      (Issues s c e [r, r + 1] →
        (r ≠ 0 → qReader s c q ≠ e → WordsClean s c (qWords s c q true) → denied (.qpop c e r 0 0 q)) ∧
        ((qWriters s c q).testBit e = false → WordsClean s c (qWords s c q false) → denied (.qpush c e 0 0 r q)))) ∧
    (∀ ra, Issues s c e [ra, r, r + 1] → r % 2 = 0 → 65536 ≤ (regOf s c e ra).toNat → denied (.qsend c e 0 ra r 0)))

/-- R152, R153, R157, R158: a CQADD whose tag has no open entry appends a new entry with its value, tag and a count of one, and adds
to the open entry of its tag otherwise. A QSEND on a valid route that has a credit and no earlier stalled QSEND spends the credit
and sends the rb pair to its queue with the route's epoch; otherwise it stalls, keeping what its route held at its issue, and is
sent in its turn when it is tried again with a credit (R159). -/
def Obligations.CombiningAndChannels : Prop :=
  ∀ (s : State) (c e : Nat), Bound s →
    (∀ ra rb q, Issues s c e [ra, rb] → q < 64 → (regOf s c e ra).toNat < 2 ^ 23 → mayWrite s c e q true = true →
      writeAhead s c e q = false → WordsClean s c (qWords s c q false) →
      (openEntry s c q (regOf s c e ra).toNat = none → qCount s c q < 16 →
        ∃ t, exec (.cqadd c e 0 ra rb q) s = .next t ∧ qCount t c q = qCount s c q + 1 ∧
          rdNum t (qEntry c q (qHead s c q + qCount s c q)) 8 =
            (regOf s c e rb).toNat + (regOf s c e ra).toNat * 2 ^ 32 + 2 ^ 56 ∧
          (eng t c e).pc = (eng s c e).pc + 1 ∧ RegsKept c e [] s t) ∧
      (∀ i, openEntry s c q (regOf s c e ra).toNat = some i →
        ∃ t, exec (.cqadd c e 0 ra rb q) s = .next t ∧ qCount t c q = qCount s c q ∧
          rdNum t (qEntry c q (qHead s c q + i)) 8 =
            addContribution (qSat s c q) ((qEntries s c q).getD i 0) (regOf s c e rb) ∧
          MemKept (qEntry c q (qHead s c q + i)) 8 s t ∧ (eng t c e).pc = (eng s c e).pc + 1 ∧ RegsKept c e [] s t)) ∧
    (∀ (r ra rb : Nat), Issues s c e [ra, rb, rb + 1] → rb % 2 = 0 → (regOf s c e ra).toNat < 65536 →
      let gid := (regOf s c e ra).toNat
      let v := regPair s c e rb
      let epoch := getF s (Reg.sq_CHAN_ROUTE_EPOCH c r)
      routeOf s c gid = some r →
      (getF s (Reg.sq_CHAN_ROUTE_CREDITS c r) ≠ 0 → sendBlocked s c = false → stalledOn s c r = [] →
        ∃ t, exec (.qsend c e 0 ra rb 0) s = .next t ∧
          getF t (Reg.sq_CHAN_ROUTE_CREDITS c r) = getF s (Reg.sq_CHAN_ROUTE_CREDITS c r) - 1 ∧
          t.fab = { s.fab with waiting := s.fab.waiting ++
            [{ ty := .qsend, src := 4 * c, dst := 4 * (gid / 64), epoch := epoch, ext := gid + r * 2 ^ 16, data := v.toNat, engine := e }] } ∧
          (eng t c e).pc = (eng s c e).pc + 1 ∧ (eng t c e).st = .run ∧ RegsKept c e [] s t ∧ OnlyFabric s t) ∧
      (getF s (Reg.sq_CHAN_ROUTE_CREDITS c r) = 0 ∨ sendBlocked s c = true ∨ stalledOn s c r ≠ [] →
        ∃ t, exec (.qsend c e 0 ra rb 0) s = .next t ∧ (eng t c e).wait = .qsend r gid epoch v ∧ (eng t c e).st = .waitQueue ∧
          (core t c).stalled = (core s c).stalled.erase e ++ [e] ∧ t.fab = s.fab ∧ t.mem = s.mem)) ∧
    (∀ (r gid epoch : Nat) (v : Word64), engRuns s c = true → (eng s c e).wait = .qsend r gid epoch v → (stalledOn s c r).head? = some e →
      getF s (Reg.sq_CHAN_ROUTE_CREDITS c r) ≠ 0 → sendBlocked s c = false →
      ∃ t, exec (.qsendResume c e) s = .next t ∧
        getF t (Reg.sq_CHAN_ROUTE_CREDITS c r) = getF s (Reg.sq_CHAN_ROUTE_CREDITS c r) - 1 ∧
        t.fab = { s.fab with waiting := s.fab.waiting ++
          [{ ty := .qsend, src := 4 * c, dst := 4 * (gid / 64), epoch := epoch, ext := gid + r * 2 ^ 16, data := v.toNat, engine := e }] } ∧
        (core t c).stalled = (core s c).stalled.erase e ∧ (eng t c e).pc = (eng s c e).pc + 1 ∧ (eng t c e).st = .run ∧
        RegsKept c e [] s t ∧ t.mem = s.mem)

/-- R117: CSRW to the core CSR page, to GANDER_LIMIT (8) or to HANDLER_LIMIT (0x18C) raises STORE_DENIED (5) and writes nothing: the
state is that of the exception, which alone notes its cause; memory, the words of the core page but for the fault unit's
FAULT_STATUS and FAULT_INFO, and every engine's limits keep their values. R116: CSRR and CSRRD read the CSR that the number names,
aligned to its width, and CSRW writes the engine's own page elsewhere. -/
def Obligations.CsrForms : Prop :=
  ∀ (s : State) (c e rd imm : Nat), Bound s → imm < 0x800 →
    let base := 0x0100000000 + c * 0x100000
    let a := base + (if imm < 0x400 then 0x90000 + e * 0x1000 + imm else 0x80000 + (imm - 0x400))
    (Issues s c e [rd] → imm % 4 = 0 →
      exec (.csrr c e rd 0 imm) s =
        .next (sicSettle (retire c e (setReg c e rd (readWord (.core c e) a 0 s).1 (readWord (.core c e) a 0 s).2))) ∧
      (imm < 0x400 → imm ≠ 8 → imm ≠ 0x18C →
        exec (.csrw c e rd 0 imm) s = .next (sicSettle (retire c e (engineWrite c e a (regOf s c e rd) s)))) ∧
      ((0x400 ≤ imm ∨ imm = 8 ∨ imm = 0x18C) →
        ∃ t, exec (.csrw c e rd 0 imm) s = .next t ∧
          t = sicSettle (raiseExc c e 5 (eng s c e).pc false (BitVec.ofNat 32 imm) s) ∧
          isSet t (Reg.eng_EXC_CAUSE_VALID c e) = true ∧
          (isSet s (Reg.eng_EXC_CAUSE_VALID c e) = false → getF t (Reg.eng_EXC_CAUSE_CODE c e) = 5) ∧
          (isSet s (Reg.eng_EXC_CAUSE_VALID c e) = true → isSet t (Reg.eng_EXC_CAUSE_MORE c e) = true) ∧ t.mem = s.mem ∧
          ∀ o, (0x80000 ≤ o ∧ o < 0x81000) ∨ (∃ f, f < 6 ∧ (o = 0x90000 + f * 0x1000 + 8 ∨ o = 0x90000 + f * 0x1000 + 0x18C)) →
            base + o ≠ Reg.core_FAULT_STATUS c → base + o ≠ Reg.core_FAULT_INFO c → rdWord t (base + o) = rdWord s (base + o))) ∧
    (Issues s c e [rd, rd + 1] → rd % 2 = 0 → rd ≠ 0 → imm % 8 = 0 →
      ∃ t, exec (.csrrd c e rd 0 imm) s = .next t ∧ regOf t c e rd = (readWord (.core c e) a 0 s).1 ∧
        regOf t c e (rd + 1) = liveOf s (a + 4) (rdWord s (a + 4)) ∧ RegsKept c e [rd, rd + 1] s t)

/-- R129, R130, R136: RET ends the handler and frees the engine; the SQ's WICKET and STEPDONE perform the act of the handler's slot
and step once, and RET performs the act that the handler has omitted. The wicket commands go to the SO and the SE where both have
room for them (R73), and wait with the SQ otherwise: that both wait where only one of the two queues is full is the model's choice
(log 13). R131, R132, R124: an EMIT whose word passes every check enters the send queue as it stands, under the step of the last
wicket taken for its slot, where an entry is free and neither the EE's datapath nor, for the SQ, a stalled EMIT of the EE waits for
it; it stalls else; one with KIND 11 or a nonzero low bit raises EMIT_FIELD (10) and is not sent. FENCE goes on when every earlier
store and send of the engine has arrived and waits otherwise; the waiting FENCE completes when they have. -/
def Obligations.HandlerActs : Prop :=
 (∀ (s : State) (c e : Nat) (h : Handler), Bound s → Issues s c e [] → (eng s c e).handler = some h → (core s c).applying = none →
    let frees := fun (t : State) => (eng t c e).st = .idle ∧ (eng t c e).handler = none ∧ (eng t c e).pc = (eng s c e).pc + 1 ∧
      RegsKept c e [] s t ∧ t.mem = s.mem
    ((e ≠ 5 ∨ h.acted = true ∨ (h.kind ≠ 2 ∧ h.kind ≠ 4)) →
      ∃ t, exec (.ret c e 0 0 0 0) s = .next t ∧ frees t ∧ t.contribs = s.contribs ∧
        core t c = { core s c with endRaised := (core t c).endRaised, stepReady := (core t c).stepReady }) ∧
    (e = 5 → h.acted = false →
      (h.kind = 2 →
        (∀ i ∈ [Instr.wicket c 5 0 0 0 0, .ret c 5 0 0 0 0], ∃ t, exec i s = .next t ∧
          ((core s c).soCmd.length < 8 ∧ (core s c).seCmd.length < 8 →
            (core t c).soCmd = (core s c).soCmd ++ [(h.slot, h.step)] ∧ (core t c).seCmd = (core s c).seCmd ++ [(h.slot, h.step)]) ∧
          (8 ≤ (core s c).soCmd.length ∨ 8 ≤ (core s c).seCmd.length →
            (core t c).sqOut = [(h.slot, h.step)] ∧ (core t c).soCmd = (core s c).soCmd ∧ (core t c).seCmd = (core s c).seCmd)) ∧
        (∃ t, exec (.wicket c 5 0 0 0 0) s = .next t ∧ (eng t c 5).handler = some { h with acted := true } ∧
          (eng t c 5).pc = (eng s c 5).pc + 1) ∧
        (∃ t, exec (.ret c 5 0 0 0 0) s = .next t ∧ frees t)) ∧
      (h.kind = 4 →
        (∀ i ∈ [Instr.stepdone c 5 0 0 0 0, .ret c 5 0 0 0 0], ∃ t, exec i s = .next t ∧
          t.contribs = s.contribs ++ [⟨slotCtx s c h.slot, h.step⟩]) ∧
        (∃ t, exec (.stepdone c 5 0 0 0 0) s = .next t ∧ (eng t c 5).handler = some { h with acted := true } ∧
          (eng t c 5).pc = (eng s c 5).pc + 1) ∧
        (∃ t, exec (.ret c 5 0 0 0 0) s = .next t ∧ frees t))) ∧
    (e = 5 → isSet s (Reg.eng_EXC_CAUSE_VALID c 5) = false → (h.acted = true ∨ h.kind ≠ 2) →
      ∃ t, exec (.wicket c 5 0 0 0 0) s = .next t ∧ getF t (Reg.eng_EXC_CAUSE_CODE c 5) = 15)) ∧
  (∀ (s : State) (c e : Nat), Bound s →
    (∀ rb, Issues s c e [rb, rb + 1] → e = 4 ∨ e = 5 → rb % 2 = 0 →
      let v := regPair s c e rb
      (emitFault s c e v = none → mayEmit s c e = false → ∃ t, exec (.emit c e 0 0 rb 0) s = .next t ∧ (eng t c e).wait = .emit v ∧
        (eng t c e).st = .waitQueue ∧ (eng t c e).pc = (eng s c e).pc ∧ (core t c).send = (core s c).send ∧ t.mem = s.mem) ∧
      (∀ k n, emitFault s c e v = none → mayEmit s c e = true → workSlot s c (evCtx v) = some k → tget 0 k (core s c).taken = n + 1 →
        ∃ t, exec (.emit c e 0 0 rb 0) s = .next t ∧ (core t c).send = (core s c).send ++ [⟨v, n, e, (waitingAt s (4 * c)).length⟩] ∧
          Retires c e ((eng s c e).pc + 1) s t ∧ RegsKept c e [] s t ∧ t.mem = s.mem) ∧
      (v.toNat % 4 ≠ 0 ∨ v.toNat / 8 % 4 = 3 → isSet s (Reg.eng_EXC_CAUSE_VALID c e) = false → (core s c).applying = none →
        ∃ t, exec (.emit c e 0 0 rb 0) s = .next t ∧ getF t (Reg.eng_EXC_CAUSE_CODE c e) = 10 ∧
          (core t c).send = (core s c).send)) ∧
    (Issues s c e [] →
      (fenceClear s c e = true → ∃ t, exec (.fence c e 0 0 0 0) s = .next t ∧ Retires c e ((eng s c e).pc + 1) s t ∧
        RegsKept c e [] s t ∧ OnlyEngs s t) ∧
      (fenceClear s c e = false → ∃ t, exec (.fence c e 0 0 0 0) s = .next t ∧ (eng t c e).wait = .fence ∧
        (eng t c e).st = .waitSync ∧ (eng t c e).pc = (eng s c e).pc ∧ OnlyEngs s t)) ∧
    (engRuns s c = true → (eng s c e).wait = .fence → fenceClear s c e = true →
      ∃ t, exec (.fenceComplete c e) s = .next t ∧ (eng t c e).wait = .none ∧ (eng t c e).st = .run ∧
        (eng t c e).pc = (eng s c e).pc + 1 ∧ OnlyEngs s t))

/-- R133, R136, R140: a free engine starts its waiting happening of lowest kind: the handler of the kind runs from its entry with
the arguments in s1 to s3, CUR_SLOT and CUR_STEP name its slot and step, and the other registers keep their values. A handler that
has run past HANDLER_LIMIT takes exception 16, whose EXC_PC says that no instruction raised it. R140, R109: an instruction that is
fetched outside its program range (code 2) or is ILLEGAL (code 1: a fetched word without an assigned opcode or function code, whose
EXC_VALUE is a free value, or here a SAT24 whose rb is not 0) takes an exception. The engine writes EXC_CAUSE, EXC_PC and EXC_VALUE
and sets FAULT_STATUS.INSTR, abandons its handler and dispatches its EXCEPTION handler with code, EXC_PC and EXC_VALUE in s1 to s3;
other registers keep their values. Its handler here is none that owes an act (R130). -/
def Obligations.DispatchExceptionAndLimit : Prop :=
 (∀ (s : State) (c e : Nat), Bound s → e < 6 → engRuns s c = true →
    (∀ h : Happening, (eng s c e).handler = none → (eng s c e).st = .idle →
      sqStalls s c e = false → nextHappening (waiting (noteStepEnds c s) c e) = some h → e ≠ 3 → h.kind < 16 → ¬(e = 5 ∧ h.kind = 3) → isSet s (Reg.eng_HVEC_EN c e h.kind) = true →
      let entry := getF s (Reg.eng_HVEC_ENTRY c e h.kind)
      getF s (Reg.core_PROG_RANGE_FIRST c e) ≤ entry → entry ≤ getF s (Reg.core_PROG_RANGE_LAST c e) →
      ∃ t, exec (.handlerDispatch c e) s = .next t ∧ (eng t c e).pc = entry ∧ (eng t c e).st = .run ∧
        (eng t c e).handler = some ⟨h.kind, h.slot, h.step, false⟩ ∧ regOf t c e 1 = h.s1 ∧ regOf t c e 2 = h.s2 ∧ regOf t c e 3 = h.s3 ∧
        RegsKept c e [1, 2, 3] s t ∧ getF t (Reg.eng_CUR_SLOT_SLOT c e) = h.slot % 512 ∧
        getF t (Reg.eng_CUR_STEP_STEP c e) = h.step % 2 ^ 64 ∧ t.mem = s.mem) ∧
    ((eng s c e).handler.isSome = true → (eng s c e).st = .run → getF s (Reg.eng_HANDLER_LIMIT_LIMIT c e) ≠ 0 →
      isSet s (Reg.eng_EXC_CAUSE_VALID c e) = false → (core s c).applying = none →
      ∃ t, exec (.handlerTime c e) s = .next t ∧ getF t (Reg.eng_EXC_CAUSE_CODE c e) = 16 ∧
        rdWord t (Reg.eng_EXC_PC c e) = BitVec.ofNat 32 ((eng s c e).pc % 4096 + 4096) ∧ t.mem = s.mem)) ∧
  (∀ (s : State) (c e rd ra rb : Nat) (h : Handler), Bound s → canIssue s c e [rd, ra, rb] = true →
    (fetchOk s c e = true → WordsClean s c [fetchWord s c e]) →
    isSet s (Reg.eng_EXC_CAUSE_VALID c e) = false → (eng s c e).handler = some h → h.kind ≠ 1 → (e ≠ 5 ∨ h.acted = true) →
    (core s c).applying = none → isSet s (Reg.eng_HVEC_EN c e 1) = true →
    ∀ q ∈ (if fetchOk s c e then
          (if wordAssigned s c e then (if rb = 0 then [] else [(Instr.sat24 c e rd ra rb, 1, regOf s c e ra)])
          else [(Instr.add c e rd ra rb, 1, freeWord s), (.sat24 c e rd ra rb, 1, freeWord s)])
        else [(Instr.add c e rd ra rb, 2, BitVec.ofNat 32 (eng s c e).pc), (.sat24 c e rd ra rb, 2, BitVec.ofNat 32 (eng s c e).pc)]),
      ∃ t, exec q.1 s = .next t ∧ isSet t (Reg.eng_EXC_CAUSE_VALID c e) = true ∧ getF t (Reg.eng_EXC_CAUSE_CODE c e) = q.2.1 ∧
        rdWord t (Reg.eng_EXC_PC c e) = BitVec.ofNat 32 ((eng s c e).pc % 4096) ∧ rdWord t (Reg.eng_EXC_VALUE c e) = q.2.2 ∧
        getF t ⟨Reg.core_FAULT_STATUS c, 8, 1⟩ = 1 ∧
        (eng t c e).pc = getF s (Reg.eng_HVEC_ENTRY c e 1) ∧ (eng t c e).st = .run ∧
        (eng t c e).handler.map (·.kind) = some 1 ∧
        regOf t c e 1 = BitVec.ofNat 32 q.2.1 ∧ regOf t c e 2 = BitVec.ofNat 32 ((eng s c e).pc % 4096) ∧ regOf t c e 3 = q.2.2 ∧
        RegsKept c e [1, 2, 3] s t ∧ t.mem = s.mem)

/-! ### Registers, memory and blocks (R9, R27-R43) -/

/-- R9, R40-R42: a write of an ordinary 32-bit register word, whose reserved bits are written as they read, writes its RW fields,
writes its RWD fields only while the governing block's ENABLED reads 0, leaves every other bit of the word, and sets the block's
WRITE_IGNORED if an ignored RWD value differs. Memory, engines and cores do not change. R40, R43: a write of EN := 1 enables the
block and starts it, and a write of EN := 0 starts its stop sequence, where the value is another than EN holds; ENABLED stays 1
until the block's condition holds, and then falls. For the blocks whose start and stop touch no register, EN and ENABLED read as the
rule says. -/
def Obligations.RegisterWriteAndBlockEnable : Prop :=
 (∀ (s : State) (p : Party) (addr : Nat) (v : Word) (b : RegBlock) (blk : Nat) (w : WordAt), Bound s →
    csrAt addr = .word b blk false w → w.row.width ≠ 64 → addr = w.reg + 4 * w.idx → ctrlAt addr = none → tableRouter addr = none →
    csrOk s p addr true = true →
    (if w.reg < 0x0100000000 then lowWrite p b blk w (indexOf blk w) v (dropHeld p blk { s with reply := .done })
      else highWrite p b blk w (instOf b blk) (indexOf blk w) v (dropHeld p blk { s with reply := .done })) = none →
    (rdWord s addr ^^^ v) &&& rsvMask w.row w.idx = 0 → addr ≠ governorOf b blk + 4 → opens addr = false →
    let gov := governorOf b blk
    let m := accMask w.row w.idx .rw ||| (if blkEnabled s gov then 0 else accMask w.row w.idx .rwd)
    ∃ t, exec (.registerWrite p addr v) s = .next t ∧ t.reply = .done ∧
      (addr ≠ Reg.glob_CHIP_EVENTS → rdWord t addr = (rdWord s addr &&& ~~~m) ||| (v &&& m)) ∧
      (blkEnabled s gov = true → (rdWord s addr ^^^ v) &&& accMask w.row w.idx .rwd ≠ 0 → isSet t (ignoredRef gov) = true) ∧
      t.mem = s.mem ∧ t.engs = s.engs ∧ t.cores = s.cores ∧ t.rsvDirty = false) ∧
  (∀ (s : State) (p : Party) (addr base k : Nat) (b : RegBlock) (blk : Nat) (w : WordAt), Bound s → csrAt addr = .word b blk false w →
    ctrlAt addr = some (base, k) →
    let plain := base ∈ [Reg.tb_BLK_CTRL, Reg.adm_BLK_CTRL, Reg.ctt_BLK_CTRL, Reg.jrn_BLK_CTRL, Reg.core_BLK_CTRL 0]
    (csrOk s p addr true = true →
      let u := dropHeld p blk { s with reply := .done }
      exec (.blkEnable p addr) s = .next (sicSettle (imgNote addr (putEnable addr base k true (noteRsv addr 1 u)))) ∧
      exec (.blkDisable p addr) s = .next (sicSettle (imgNote addr (putEnable addr base k false (noteRsv addr 0 u)))) ∧
      (plain → rdWord s addr &&& 0xFFFFFFFE#32 = 0 →
        (isSet s (enRef addr) = false → ∃ t, exec (.blkEnable p addr) s = .next t ∧ isSet t (enRef addr) = true ∧
          isSet t (enabledRef addr) = true ∧ t.mem = s.mem ∧ CsrKept [enRef addr, enabledRef addr] s t) ∧
        (isSet s (enRef addr) = true → ∃ t, exec (.blkDisable p addr) s = .next t ∧ isSet t (enRef addr) = false ∧
          getF t (enabledRef addr) = getF s (enabledRef addr) ∧ t.mem = s.mem ∧ CsrKept [enRef addr] s t))) ∧
    (blkEnabled s addr = true → isSet s (enRef addr) = false → stopReady s base k = true →
      exec (.stopSequenceDone addr) s = .next (sicSettle (stopEnd base (clrF (enabledRef addr) s))) ∧
      (base ≠ Reg.tb_BLK_CTRL → base ≠ Reg.eip_BLK_CTRL → base ≠ Reg.mem_BLK_CTRL → ∃ t, exec (.stopSequenceDone addr) s = .next t ∧
        isSet t (enabledRef addr) = false ∧ CsrKept [enabledRef addr] s t)) ∧
    (blkEnabled s addr = true → stopReady s base k = false → ∃ t, exec (.stopSequenceDone addr) s = .next t ∧ blkEnabled t addr = true))

/-- R31, R32, R37, R39: a read of a register word answers the value it had before the cycle, without its WO fields, or what the
requester's shadow holds of a high word; the first word's read clears its RC fields but for those that hardware sets in that cycle.
Through the peek alias it clears nothing, and a write through the alias changes no register. A read of the low word of a 64-bit
register keeps the high word for the requester, who then reads it. The registers whose read has a rule of its own are apart: QDATA
and its alias, SIC_CLAIM, and the counts and captures of the timers. R38: a write of the low word of a 64-bit register with writable
fields changes no register, and the low word is held; the same requester's write of the high word then writes both words under their
access codes; where it holds none, the high word is ignored. The register here is one whose write has no rule of its own, and its
reserved bits are written as they are held. -/
def Obligations.RegisterReadsAndPairedWrites : Prop :=
 (∀ (s : State) (p : Party) (addr : Nat) (hw : Word) (b : RegBlock) (blk : Nat) (peek : Bool) (w : WordAt), Bound s →
    csrAt addr = .word b blk peek w → tableRouter addr = none →
    let a := w.reg + 4 * w.idx
    (csrOk s p addr false = true → qdataAt addr = none → qdataAt (addr - 0x800) = none → placeOf Reg.sic_SIC_CLAIM 16 addr = none →
      (∀ x ∈ [addr, addr - 0x800, a], timerAt x = none) →
      let held := (partyWord { s with reply := .done } p a (rdWord s a)) &&& ~~~ accMask w.row w.idx .wo
      ∃ t, exec (.rcRead p addr hw) s = .next t ∧
        t.reply = .data (match shadowOf s p blk with
          | some h => if w.idx ≠ 0 ∧ h.tag = w.reg then h.value.getD (w.idx - 1) held else held
          | none => held).toNat ∧
        (peek = true → t.csr = s.csr) ∧
        (peek = false → w.idx = 0 → rdWord t a = (rdWord s a &&& ~~~ accMask w.row w.idx .rc) ||| (hw &&& accMask w.row w.idx .rc)) ∧
        t.mem = s.mem ∧ t.engs = s.engs) ∧
    (csrOk s p addr true = true → peek = true → ∀ v, ∃ t, exec (.peekWrite p addr v) s = .next t ∧ t.reply = .done ∧ t.csr = s.csr ∧
      t.mem = s.mem ∧ t.engs = s.engs ∧ t.cores = s.cores) ∧
    (csrOk s p addr false = true → isLowWord addr = true → qdataAt addr = none → qdataAt (addr - 0x800) = none → placeOf Reg.sic_SIC_CLAIM 16 addr = none →
      (∀ x ∈ [addr, addr - 0x800, a], timerAt x = none) →
      ∃ t, exec (.lowWordRead p addr) s = .next t ∧
        t.reply = .data ((partyWord { s with reply := .done } p w.reg (rdWord s w.reg)) &&& ~~~ accMask w.row 0 .wo).toNat ∧
        (hasShadow p = true →
          (shadowOf t p blk).map (·.value) = some [partyWord { s with reply := .done } p (w.reg + 4) (rdWord s (w.reg + 4))]) ∧
        (peek = true → t.csr = s.csr) ∧ t.mem = s.mem ∧ t.engs = s.engs)) ∧
  (∀ (s : State) (p : Party) (addr : Nat) (v : Word) (b : RegBlock) (blk : Nat) (w wh : WordAt), Bound s →
    csrAt addr = .word b blk false w → csrAt (addr + 4) = .word b blk false wh → w.row.width = 64 → writable w.row = true →
    addr = w.reg → w.idx = 0 → wh = { w with idx := 1 } → addr % 4 = 0 → ctrlAt addr = none → ctrlAt (addr + 4) = none →
    tableRouter addr = none → tableRouter (addr + 4) = none → csrOk s p addr true = true → csrOk s p (addr + 4) true = true →
    (∃ t, exec (.lowWordWrite p addr v) s = .next t ∧ t.reply = .done ∧ t.csr = s.csr ∧ heldFor t p blk addr = some v ∧
      t.mem = s.mem ∧ t.engs = s.engs ∧ t.cores = s.cores) ∧
    (heldFor s p blk addr = none → ∃ t, exec (.highWordWrite p addr v) s = .next t ∧ t.csr = s.csr ∧ t.mem = s.mem) ∧
    (∀ lo, heldFor s p blk addr = some lo →
      let k := instOf b blk
      let i := indexOf blk wh
      let gov := governorOf b blk
      let m := fun (j : Nat) => accMask w.row j .rw ||| (if blkEnabled s gov then 0 else accMask w.row j .rwd)
      addr ∉ [Reg.sq_QDATA k i, Reg.sq_CHAN_ROUTE k i, Reg.pe_LRN_MOD_SET k, Reg.ctt_CTT_MIRROR, Reg.rec_REC_SEED,
        Reg.rec_REC_SW_ARG0, Reg.rec_REC_SW_ARG1] →
      (∀ x ∈ [addr, addr + 4], x ≠ gov + 4 ∧ x ≠ Reg.glob_CHIP_EVENTS) →
      (rdWord s addr ^^^ lo) &&& rsvMask w.row 0 = 0 → (rdWord s (addr + 4) ^^^ v) &&& rsvMask w.row 1 = 0 →
      ∃ t, exec (.highWordWrite p addr v) s = .next t ∧ t.reply = .done ∧ heldFor t p blk addr = none ∧
        rdWord t addr = (rdWord s addr &&& ~~~ m 0) ||| (lo &&& m 0) ∧
        rdWord t (addr + 4) = (rdWord s (addr + 4) &&& ~~~ m 1) ||| (v &&& m 1) ∧
        t.mem = s.mem ∧ t.engs = s.engs ∧ t.cores = s.cores ∧ t.rsvDirty = false))

/-- R24, R27, R511: a memory access, a read or a write of main memory or of the slices, that the firewall denies ends in a bus
error, changes no memory, and sets SEC_EVENTS.DENIED; where PROT_DENIED_INFO holds none, it takes the address, the class and the
direction: 1 for a write (how the three bits of WRITE say it is the model's choice, log 10). R412: an access, a read or a write,
that the slice denies has no effect on memory and sets SLICE_EVENTS.DENIED; where SLICE_DENIED_INFO holds none, it takes the
requester's class and index, the direction and the slice offset. A requester at the device's ports has a bus error. -/
def Obligations.AccessDenial : Prop :=
 (∀ (s : State) (p : Party) (a cls : Nat) (op : MemOp), Bound s → busParty p = true → partyClass p = some cls →
    (mainBase ≤ a ∧ a ≤ mainBase + 0xFFFFFFFFF) ∨ (0x0200000000 ≤ a ∧ a ≤ 0x0203FFFFFF ∧ behind s p a = false) →
    (∃ n, op = .read n) ∨ (∃ bs, op = .write bs) → sizeOk a (memLen op) = true → firewallOk s p a (memWrites op) = false →
    ∃ t, exec (.memoryAccess p a op 0) s = .next t ∧ t.reply = .busError ∧ t.mem = s.mem ∧
      (getF t Reg.sec_SEC_EVENTS_EVENTS).testBit 2 = true ∧
      (isSet s Reg.sec_PROT_DENIED_INFO_VALID = false → isSet t Reg.sec_PROT_DENIED_INFO_VALID = true ∧
        getF t Reg.sec_PROT_DENIED_INFO_ADDR = a % 2 ^ Reg.sec_PROT_DENIED_INFO_ADDR.width ∧
        getF t Reg.sec_PROT_DENIED_INFO_CLASS = cls ∧ getF t Reg.sec_PROT_DENIED_INFO_WRITE = (if memWrites op then 1 else 0))) ∧
  (∀ (s : State) (p : Party) (off : Nat) (op : SliceOp), Bound s → (∀ c e, p ≠ .core c e) →
    (∃ n, op = .read n) ∨ (∃ bs, op = .write bs) →
    let n := sliceOpLen op
    let b := (sliceOf s.variant off).1
    let lo := (sliceOf s.variant off).2
    let a := 0x0200000000 + off
    b < 64 → sizeOk a n = true → answers s a = true → firewallOk s p a (sliceOpWrites op) = true → off + n ≤ viewLen s.variant →
    regionDown s (regionOfBlock b) = false → sliceRetained s b = false → sliceAllows s b p (sliceOpWrites op) = false →
    inCtt s off n = false → drainHolds s a = false → getF s Reg.ctt_CTT_MIRROR_ADDR = 0 →
      ∃ t, exec (.sliceAccess p off op 0) s = .next t ∧ (busParty p = true → t.reply = .busError) ∧ t.mem = s.mem ∧
        (getF t (Reg.slice_SLICE_EVENTS_EVENTS b)).testBit 0 = true ∧
        (isSet s (Reg.slice_SLICE_DENIED_INFO_VALID b) = false → isSet t (Reg.slice_SLICE_DENIED_INFO_VALID b) = true ∧
          getF t (Reg.slice_SLICE_DENIED_INFO_CLASS b) = (ownerCode p).1 % 16 ∧
          getF t (Reg.slice_SLICE_DENIED_INFO_INDEX b) = (ownerCode p).2 % 4096 ∧
          getF t (Reg.slice_SLICE_DENIED_INFO_WRITE b) = (if sliceOpWrites op then 1 else 0) ∧
          getF t (Reg.slice_SLICE_DENIED_INFO_OFFSET b) = lo % 2 ^ 20))

/-! ### Slices and main memory (R411-R427) -/

/-- R412, R416: an access by a requester that is no core, which the slice admits and which meets no error: a plain write stores its
bytes, a bit-set write sets and a bit-clear write clears the bits that are 1 in the data, and a read leaves memory as it is; every
other byte stays. A requester at the device's ports has its answer: done, or the bytes. The firewall judges the address of the view
or alias. R174, R183, R184: the packet of an engine's slice access goes to the block port of the slice that R26 names, and carries
the operation and its place whole; the port grants the oldest packet of the source next in turn, the slice carries it out, and its
answer leaves for the source: a read's data, a store's completion, or a bus error. -/
def Obligations.SliceAccesses : Prop :=
 (∀ (s : State) (p : Party) (off n : Nat), Bound s → (∀ c e, p ≠ .core c e) →
    let b := (sliceOf s.variant off).1
    let lo := (sliceOf s.variant off).2
    let a := 0x0200000000 + off
    sizeOk a n = true → answers s a = true → off + n ≤ viewLen s.variant → regionDown s (regionOfBlock b) = false →
    sliceRetained s b = false → rowRetired s b lo = false → drainHolds s a = false → (∀ w, eccAt s w = 0) →
    (∀ bs : List Byte, bs.length = n → sliceAllows s b p true = true → (inCtt s off n = false ∨ p = .ctt) →
      ∀ q ∈ [(Instr.sliceAccess p off (.write bs) 0, 0x0200000000, fun _ x => x),
          (.bitSetWrite p off bs, 0x0210000000, fun old x => old ||| x),
          (.bitClearWrite p off bs, 0x0220000000, fun old x => old &&& ~~~x)],
        firewallOk s p (q.2.1 + off) true = true →
        ∃ t, exec q.1 s = .next t ∧ (busParty p = true → t.reply = .done) ∧ MemKept a n s t ∧
          (∀ i : Nat, (h : i < bs.length) → getByte t.mem (a + i) = q.2.2 (getByte s.mem (a + i)) bs[i]) ∧ t.csr = s.csr) ∧
    (firewallOk s p a false = true → sliceAllows s b p false = true →
      ∃ t, exec (.sliceAccess p off (.read n) 0) s = .next t ∧ (busParty p = true → t.reply = .data (getNum s.mem a n)) ∧
        t.mem = s.mem ∧ t.csr = s.csr)) ∧
  (∀ (s : State) (c e off : Nat) (op : SliceOp), Bound s →
    let b := (sliceOf s.variant off).1
    let r := centralRouter b
    (0 < sliceOpLen op → sliceOpLen op ≤ 256 → off + sliceOpLen op ≤ viewLen s.variant → (∀ ws, op ≠ .add ws) →
      let p := slicePacket s c e off op
      packetOp p = op ∧ viewOff s.variant b (p.ext % 2 ^ 20) = off ∧ epRouter p.dst = r ∧ epCode p.dst = 1 ∧ p.src = 4 * c) ∧
    (∀ p, blockGrant s r = some p → epRouter p.src = c →
      let left := { s with fab := { s.fab with ports := tset r ((tget [] r s.fab.ports).erase p) s.fab.ports
                                               lastSrc := tset r p.src s.fab.lastSrc } }
      let a := sliceDo (.core c p.engine) (viewOff s.variant b (p.ext % 2 ^ 20)) (packetOp p) 0 left
      p ∈ tget [] r s.fab.ports ∧
      ∃ t q, exec (.sliceAccess (.core c e) off op 0) s = .next t ∧ t.mem = a.st.mem ∧ t.engs = s.engs ∧
        t.fab = { left.fab with waiting := s.fab.waiting ++ [q] } ∧
        q.src = 4 * r + 1 ∧ q.dst = p.src ∧ q.engine = p.engine ∧ q.raw = p.raw ∧
        q.ty = (if p.ty = .memRd then .memRsp else .memAck) ∧ (q.ext = 0 ↔ a.data.isSome) ∧
        (∀ bs, a.data = some bs → p.ty = .memRd → q.data = ofBytes bs)))

/-- R413, R414: the owner's write of SLICE_OWNER, and of SLICE_HANDOVER by the SQ of the owning core, hands the slice over where the
value names an owner of R411 that FORBID admits; a write by another requester changes nothing and sets NOT_OWNER. R418, R420, R421:
the scrubber of a slice reads its next word and stands at the one after it, in a ring; RETAIN := 1 starts retention, whose entry
ends in RETAINED; RETAIN := 0 starts a wake, which ends in the slice's being active. No byte of memory changes. -/
def Obligations.SliceHandoverScrubAndPower : Prop :=
 (∀ (s : State) (p : Party) (b c : Nat) (v : Word), Bound s → b < 64 → v &&& 0xFE000000#32 = 0 →
    (csrOk s p (Reg.slice_SLICE_OWNER b) true = true →
      (mayHandOver s b p = true → ownerValid (v.toNat / 2 ^ 12 % 16) (v.toNat % 2 ^ 12) = true → forbidden s v = false →
        ∃ t, exec (.sliceOwnerWrite p b v) s = .next t ∧ rdWord t (Reg.slice_SLICE_OWNER b) = v ∧ t.mem = s.mem) ∧
      (mayHandOver s b p = false → ∃ t, exec (.sliceOwnerWrite p b v) s = .next t ∧
        rdWord t (Reg.slice_SLICE_OWNER b) = rdWord s (Reg.slice_SLICE_OWNER b) ∧
        (getF t (Reg.slice_SLICE_EVENTS_EVENTS b)).testBit 1 = true ∧ t.mem = s.mem)) ∧
    (c < 1024 → coreSilent s c = false → mayHandOver s b (.core c 5) = true → ownerValid (v.toNat / 2 ^ 12 % 16) (v.toNat % 2 ^ 12) = true →
      forbidden s v = false →
      ∃ t, exec (.sliceHandover c (BitVec.ofNat 32 (v.toNat * 128 + b))) s = .next t ∧
        rdWord t (Reg.slice_SLICE_OWNER b) = v ∧ t.mem = s.mem)) ∧
  (∀ (s : State) (p : Party) (b : Nat), Bound s → b < 64 →
    let pw := fun (t : State) => getF t (Reg.slice_SLICE_STATUS_PWR b)
    (blockPresent s b = true → isSet s (Reg.slice_SLICE_SCRUB_EN b) = true → sliceRetained s b = false →
      regionDown s (regionOfBlock b) = false → eccAt s (viewBase + viewOff s.variant b (8 * tget 0 b s.sliceScrub)) = 0 →
      ∃ t, exec (.sliceScrubRead b 0) s = .next t ∧ tget 0 b t.sliceScrub = (tget 0 b s.sliceScrub + 1) % 131072 ∧ t.csr = s.csr ∧
        t.mem = s.mem) ∧
    (csrOk s p (Reg.slice_SLICE_PWR b) true = true →
      (∃ t, exec (.sliceRetain p b) s = .next t ∧ isSet t (Reg.slice_SLICE_PWR_RETAIN b) = true ∧
        pw t = (if pw s = 0 ∨ pw s = 3 then 1 else pw s) ∧ t.mem = s.mem) ∧
      (∃ t, exec (.sliceWake p b) s = .next t ∧ isSet t (Reg.slice_SLICE_PWR_RETAIN b) = false ∧
        pw t = (if pw s = 2 then 3 else pw s) ∧ t.mem = s.mem)) ∧
    (pw s = 1 → s.sliceWake.contains b = false → ∃ t, exec (.sliceRetained b) s = .next t ∧ pw t = 2 ∧
      CsrKept [Reg.slice_SLICE_STATUS_PWR b] s t ∧ t.mem = s.mem) ∧
    (pw s = 3 → ∃ t, exec (.sliceWakeDone b) s = .next t ∧ pw t = 0 ∧ CsrKept [Reg.slice_SLICE_STATUS_PWR b] s t ∧ t.mem = s.mem))

/-- R423, R426, R427: a channel that is up is refreshed and follows MR4; a retrain, by a write or by drift, starts from UP alone and
ends UP, counted, with its waiting accesses taken; a third failed training, and OFFLINE, leave the channel FAILED and report it as a
fault of KIND 9. The controller here runs without the journal, and nothing waits but what a clause names. R27, R425: an access of an
outside requester to main memory that is of a permitted size, passes the firewall and meets a channel that is up: a write changes
its own bytes and no other, and a read answers them and changes none. R383: an application core may fetch there, and make load-
reserved, store-conditional and atomic accesses of 4 or 8 bytes; what those store and answer is RISC-V's (presumed, log 63). -/
def Obligations.MainMemory : Prop :=
 (∀ (s : State) (p : Party) (ch bank factor : Nat), Bound s → ch < 16 → chanOn s ch = true →
    let st := fun (t : State) => getF t (Reg.memCh_MEM_CH_STATUS_STATE ch)
    (st s = 2 →
      (∃ t, exec (.memoryRefresh ch bank) s = .next t ∧ tget 0 ch t.refresh = bank ∧ t.csr = s.csr ∧ t.mem = s.mem) ∧
      (∃ t, exec (.mr4Poll ch factor) s = .next t ∧ tget 0 ch t.mr4 = factor ∧ t.csr = s.csr ∧ t.mem = s.mem)) ∧
    (blkEnabled s Reg.jrn_BLK_CTRL = false →
      (∀ r ∈ [none, some p], (r = some p → csrOk s p (Reg.memCh_MEM_CH_CTRL ch) true = true) →
        ∃ t, exec (.retrain r ch) s = .next t ∧ st t = (if st s = 2 then 3 else st s) ∧ t.mem = s.mem) ∧
      (csrOk s p (Reg.memCh_MEM_CH_CTRL ch) true = true → st s ≠ 4 → NothingWaits s →
        ∃ t, exec (.offline p ch) s = .next t ∧ st t = 4 ∧ t.faultsUp = s.faultsUp ++ [⟨3, 3, 9, ch, 4, none⟩] ∧
          (getF t Reg.mem_MEM_EVENTS_EVENTS).testBit 0 = true ∧ t.mem = s.mem ∧
          ∀ r, r < 256 → ocrSwitched t r = (ocrSwitched s r ||
            (ocrCfg s r 7 && ocrCfg s r 6 && (copyChannels s r (ocrBase s r)).contains ch))) ∧
      ((st s = 1 ∨ st s = 3) → NothingWaits s →
        ∃ t, exec (.channelFailed ch) s = .next t ∧ st t = 4 ∧ t.faultsUp = s.faultsUp ++ [⟨3, 3, 9, ch, 4, none⟩] ∧
          (getF t Reg.mem_MEM_EVENTS_EVENTS).testBit 3 = true ∧ t.mem = s.mem)) ∧
    ((st s = 1 ∨ st s = 3) → NothingWaits s → degraded s = false →
      ∃ t, exec (.retrainDone ch) s = .next t ∧ st t = 2 ∧ t.mem = s.mem ∧
        getF t (Reg.memCh_MEM_RETRAIN_COUNT_COUNT ch) = (if st s = 3 then
          min (getF s (Reg.memCh_MEM_RETRAIN_COUNT_COUNT ch) + 1) (2 ^ (Reg.memCh_MEM_RETRAIN_COUNT_COUNT ch).width - 1)
          else getF s (Reg.memCh_MEM_RETRAIN_COUNT_COUNT ch)))) ∧
  (∀ (s : State) (p : Party) (a : Nat), Bound s → busParty p = true → mainBase ≤ a → a ≤ mainBase + 0xFFFFFFFFF → answers s a = true →
    memOpen s = true → (∀ ch, channelOf s (a - mainBase) = some ch → chState s ch = chUp) →
    channelOf s (a - mainBase) ≠ none → (∀ w, eccAt s w = 0) →
    let stores := fun (op : MemOp) (bs : List Byte) (r : Reply) => ∃ t, exec (.memoryAccess p a op 0) s = .next t ∧ t.reply = r ∧
      MemKept a bs.length s t ∧ (∀ i : Nat, (h : i < bs.length) → getByte t.mem (a + i) = bs[i]) ∧ t.csr = s.csr ∧ t.engs = s.engs
    (∀ bs : List Byte, sizeOk a bs.length = true → firewallOk s p a true = true → stores (.write bs) bs .done) ∧
    (∀ n : Nat, sizeOk a n = true → firewallOk s p a false = true →
      (∀ op ∈ (MemOp.read n :: if isApp p then [.fetch n] else []),
        ∃ t, exec (.memoryAccess p a op 0) s = .next t ∧ t.reply = .data (getNum s.mem a n) ∧ t.mem = s.mem ∧ t.csr = s.csr) ∧
      (∀ k sm, p = .app k sm → n = 4 ∨ n = 8 → ∃ t, exec (.memoryAccess p a (.lr n) 0) s = .next t ∧
        t.reply = .data (getNum s.mem a n) ∧ t.mem = s.mem ∧ (hart t k).resv = some (a / 64 * 64))) ∧
    (∀ (bs : List Byte) (k : Nat) (sm : Bool), p = .app k sm → bs.length = 4 ∨ bs.length = 8 → sizeOk a bs.length = true →
      firewallOk s p a true = true →
      ((hart s k).resv = some (a / 64 * 64) → stores (.sc bs) bs (.data 0)) ∧
      ((hart s k).resv ≠ some (a / 64 * 64) → ∃ t, exec (.memoryAccess p a (.sc bs) 0) s = .next t ∧ t.reply = .data 1 ∧ t.mem = s.mem) ∧
      (∀ f : AmoOp, stores (.amo f bs)
        (toBytes (amoValue f (8 * bs.length) (getNum s.mem a bs.length) (ofBytes bs)) bs.length) (.data (getNum s.mem a bs.length)))))

/-! ### Timers, recorder, cluster and interrupt controller (R381-R392, R433-R453) -/

/-- R433, R436, R439, R442, R445: for a timer outside every chain and group, a clock event with the gate open adds one to COUNT,
wrapping with an overflow event and matching at COMPARE; a capture event takes COUNT into CAP and sets NEW; TMR_START and TMR_STOP
set and clear EN of the timers whose bits are 1. R438, R439, R443: the oldest event of a master reaches its slave, here one that is
reset and started by it; a write of COMPARE takes effect, with a match where COUNT is not below it by half the range; a read of a
chain's base answers COUNT and keeps the higher counts for the requester. -/
def Obligations.TimerCountingAndLinks : Prop :=
 (∀ (s : State) (p : Party) (n : Nat) (v : Word), Bound s → n < 32 →
    let count := getF s (Reg.tmr_TMR_COUNT_COUNT n)
    let cmp := getF s (Reg.tmr_TMR_COMPARE_COMPARE n)
    (clkSrc s n = 0 ∨ clkSrc s n = 2 → tmrOn s n = true → gateOpen s n = true → groupTop s n = n → s.timers.matched.contains n = false →
      (n + 1 < 32 → chained s (n + 1) = false) →
      (count ≠ 0xFFFFFFFF → count + 1 ≠ cmp → ∃ t, exec (.timerEvent n) s = .next t ∧ getF t (Reg.tmr_TMR_COUNT_COUNT n) = count + 1 ∧
        CsrKept [Reg.tmr_TMR_COUNT_COUNT n] s t ∧ t.mem = s.mem) ∧
      (count ≠ 0xFFFFFFFF → count + 1 = cmp → ∃ t, exec (.timerEvent n) s = .next t ∧ getF t (Reg.tmr_TMR_COUNT_COUNT n) = count + 1 ∧
        (getF t (Reg.tmr_TMR_EVENTS_EVENTS n)).testBit 0 = true ∧
        getF t (Reg.tmr_TMR_STATUS_OUT n) = 1 - getF s (Reg.tmr_TMR_STATUS_OUT n)) ∧
      (count = 0xFFFFFFFF → ∃ t, exec (.timerEvent n) s = .next t ∧ getF t (Reg.tmr_TMR_COUNT_COUNT n) = 0 ∧
        (getF t (Reg.tmr_TMR_EVENTS_EVENTS n)).testBit 1 = true)) ∧
    ((1 ≤ (capSource s n).1 ∧ (capSource s n).1 ≤ 4 ∨ (capSource s n).1 = 6) → n ∈ captureWith s n →
      ∃ t, exec (.capture n) s = .next t ∧ getF t (Reg.tmr_TMR_CAP_VALUE n) = count ∧ isSet t (Reg.tmr_TMR_CAP_NEW n) = true ∧
        (getF t (Reg.tmr_TMR_EVENTS_EVENTS n)).testBit 2 = true) ∧
    (csrOk s p Reg.tmr_TMR_START true = true → ∃ t, exec (.tmrStart p v) s = .next t ∧
      ∀ k, k < 32 → isSet t (Reg.tmr_TMR_CFG_EN k) = (v.getLsbD k || isSet s (Reg.tmr_TMR_CFG_EN k))) ∧
    (csrOk s p Reg.tmr_TMR_STOP true = true → ∃ t, exec (.tmrStop p v) s = .next t ∧
      ∀ k, k < 32 → isSet t (Reg.tmr_TMR_CFG_EN k) = (!v.getLsbD k && isSet s (Reg.tmr_TMR_CFG_EN k)))) ∧
  (∀ (s : State) (p : Party) (n m kind : Nat) (rest : List (Nat × Nat)) (v : Word), Bound s → n < 32 →
    (s.timers.events = (m, kind) :: rest → (List.range 32).filter (fun k => masterOf s k == some m && mevent s k == kind) = [n] →
      isSet s (Reg.tmr_TMR_LINK_RST n) = true → isSet s (Reg.tmr_TMR_LINK_START n) = true → getF s (Reg.tmr_TMR_CFG_CAP_SRC n) ≠ 5 →
      ∃ t, exec .masterEvent s = .next t ∧ t.timers.events = rest ∧ getF t (Reg.tmr_TMR_COUNT_COUNT n) = 0 ∧
        isSet t (Reg.tmr_TMR_CFG_EN n) = true) ∧
    (csrOk s p (Reg.tmr_TMR_COMPARE n) true = true → groupTop s n = n → groupLow s n = n →
      ∃ t, exec (.compareWrite p n v) s = .next t ∧ getF t (Reg.tmr_TMR_COMPARE_COMPARE n) = v.toNat ∧
        ((getF s (Reg.tmr_TMR_COUNT_COUNT n) + 2 ^ 32 - v.toNat) % 2 ^ 32 < 2 ^ 31 →
          (getF t (Reg.tmr_TMR_EVENTS_EVENTS n)).testBit 0 = true) ∧
        (2 ^ 31 ≤ (getF s (Reg.tmr_TMR_COUNT_COUNT n) + 2 ^ 32 - v.toNat) % 2 ^ 32 → CsrKept [Reg.tmr_TMR_COMPARE_COMPARE n] s t)) ∧
    (csrOk s p (Reg.tmr_TMR_COUNT n) false = true → chainBase s n = n → hasShadow p = true →
      ∃ t, exec (.timerChainRead p n false) s = .next t ∧ t.reply = .data (getF s (Reg.tmr_TMR_COUNT_COUNT n)) ∧ t.csr = s.csr ∧
        (t.timers.shadows.find? (fun h => h.p == requester p && h.cap == false && h.base == n)).map (·.values) =
          some ((List.range (chainLen s n - 1)).map (fun i => rdWord s (Reg.tmr_TMR_COUNT (n + 1 + i))))))

/-- R451: the log does not wrap. The record that brings INDEX to 8,192 sets REC_EVENTS.FULL; each later record, of whatever
happening, is not written: LOST_COUNT counts it, its SEQ is spent, and the records stay. R446-R452: the seed loads the recorder's
clock; a software record with a free log is written and counted by INDEX; a freeze holds records back and a thaw writes them; a
clear empties the log. -/
def Obligations.Recorder : Prop :=
  ∀ (s : State) (p : Party) (v lo hi : Word), Bound s →
    let index := getF s Reg.rec_REC_STATUS_INDEX
    let lost := fun (t : State) => t.mem = s.mem ∧ getF t Reg.rec_REC_STATUS_INDEX = index ∧
      getF t Reg.rec_LOST_COUNT_COUNT = min (getF s Reg.rec_LOST_COUNT_COUNT + 1) (2 ^ 32 - 1) ∧ t.recorder.seq = s.recorder.seq + 1
    let full := fun (t : State) => (getF t Reg.rec_REC_EVENTS_EVENTS).testBit 0 = true
    (csrOk s p (Reg.rec_REC_SEED + 4) true = true → heldFor s p 0x0002001000 Reg.rec_REC_SEED = some lo →
      ∃ t, exec (.recSeed p hi) s = .next t ∧ t.recorder.hours = lo.toNat % 2 ^ 20 ∧ t.recorder.seconds = lo.toNat / 2 ^ 20 ∧
        t.recorder.powerCycles = hi.toNat % 2 ^ 24 ∧ t.recorder.micros = 0 ∧ isSet t Reg.rec_REC_STATUS_SEEDED = true ∧
        t.recorder.seq = s.recorder.seq + 1) ∧
    (csrOk s p Reg.rec_REC_SW_CODE true = true → 0x8000 ≤ v.toNat → v.toNat < 0x10000 → rdWord s Reg.rec_REC_SW_CODE &&& 0xFFFF0000#32 = 0 →
      isSet s Reg.rec_REC_STATUS_FROZEN = false →
      (recTime s < 2 ^ 64 → s.recorder.micros < 2 ^ 32 → index < 8192 →
        ∃ t, exec (.recSwCode p v) s = .next t ∧ getF t Reg.rec_REC_STATUS_INDEX = index + 1 ∧
          t.recorder.seq = s.recorder.seq + 1 ∧ MemKept (0x02100000 + 32 * index) 32 s t ∧ (index = 8191 → full t) ∧
          getBits t.mem (0x02100000 + 32 * index) 96 16 = v.toNat ∧ getBits t.mem (0x02100000 + 32 * index) 112 4 = 8) ∧
      (8192 ≤ index → ∃ t, exec (.recSwCode p v) s = .next t ∧ lost t)) ∧
    (∀ code unit arg0 arg1, isSet s Reg.rec_REC_STATUS_FROZEN = false →
      let t := record code unit arg0 arg1 s
      (index < 8192 → getF t Reg.rec_REC_STATUS_INDEX = index + 1 ∧ MemKept (0x02100000 + 32 * index) 32 s t ∧ (index = 8191 → full t)) ∧
      (8192 ≤ index → lost t)) ∧
    (csrOk s p Reg.rec_REC_CMD true = true →
      (∃ t, exec (.recorderFreeze p) s = .next t ∧ isSet t Reg.rec_REC_STATUS_FROZEN = true ∧ t.mem = s.mem) ∧
      (∃ t, exec (.recorderThaw p) s = .next t ∧ isSet t Reg.rec_REC_STATUS_FROZEN = false ∧ t.recorder.pend = [] ∧
        (index + s.recorder.pend.length ≤ 8192 → getF t Reg.rec_REC_STATUS_INDEX = index + s.recorder.pend.length)) ∧
      (∃ t, exec (.recorderClear p) s = .next t ∧ getF t Reg.rec_REC_STATUS_INDEX = 0 ∧
        (getF t Reg.rec_REC_EVENTS_EVENTS).testBit 0 = false ∧ t.mem = s.mem))

/-- R382, R384, R385, R387-R389: a released application core runs from CL_RESET_VEC; a FENCE completes when none of the core's
posted stores is under way, and waits else; a kick is noted; the watchdog warns at half its period and at its end restarts the core
or holds it, and reports a fault; an L2 error resets the cluster and releases the lead core alone; a store's bus error is latched;
CLUSTER_UP's fall starts the grace timer, whose end is reported. R391, R392: a claim returns the pending source of highest priority,
which is then in service and no longer pending; a completion ends its service; HOST_DONE of a source that is not asserted clears its
host-pending flag; unmasking a vector sends its waiting message, while the function is not masked: DATA of its entry goes to host
memory at the address it names (R397). -/
def Obligations.ClusterAndInterruptCommands : Prop :=
 (∀ (s : State) (p : Party) (n addr : Nat) (v : Word), Bound s → n < 8 →
    let run := fun (t : State) (k : Nat) => (getF t Reg.cl_CL_CORE_STATUS_RUN).testBit k
    let ev := fun (t : State) (k : Nat) => (getF t Reg.cl_CL_EVENTS_EVENTS).testBit k
    (csrOk s p Reg.cl_CL_RELEASE true = true → v.toNat < 256 → rdWord s Reg.cl_CL_RELEASE &&& 0xFFFFFF00#32 = 0 →
      ∃ t, exec (.clRelease p v) s = .next t ∧ ∀ k, k < 8 → run t k = (v.getLsbD k || run s k) ∧
        (v.getLsbD k = true → run s k = false → (hart t k).pc = 4 * getF s Reg.cl_CL_RESET_VEC_VEC)) ∧
    (∀ sm, (fenceMayComplete s n = true → ∃ t, exec (.memoryAccess (.app n sm) 0 .fence 0) s = .next t ∧ t.reply = .done ∧
        t.memWait = s.memWait ∧ t.csr = s.csr) ∧
      (fenceMayComplete s n = false → ∃ t, exec (.memoryAccess (.app n sm) 0 .fence 0) s = .next t ∧ t.reply = s.reply ∧
        t.memWait = s.memWait ++ [⟨.app n sm, 0, .fence⟩] ∧ t.csr = s.csr)) ∧
    (csrOk s p (Reg.cl_CL_KICK n) true = true → wdogOn s n = true →
      ∃ t, exec (.clKick p n) s = .next t ∧ n ∈ t.cluster.kicked) ∧
    (wdogOn s n = true → (∃ t, exec (.wdogWarn n) s = .next t ∧ ev t (8 + n) = true ∧ run t n = run s n) ∧
      (∃ t, exec (.wdogReset n) s = .next t ∧ ev t n = true ∧ t.faultsUp = s.faultsUp ++ [⟨3, 3, 13, n, 0, none⟩] ∧
        run t n = (getF s Reg.cl_CL_CFG_RESTART).testBit n)) ∧
    (∃ t, exec .l2Uncorr s = .next t ∧ ev t 17 = true ∧ t.fw = {} ∧
      ∀ k, k < 8 → run t k = decide (k = getF s Reg.cl_CL_CFG_LEAD)) ∧
    (∃ t, exec (.postedStoreError n addr) s = .next t ∧ ev t 16 = true ∧
      (isSet s Reg.cl_CL_BUSERR_ADDR_VALID = false → isSet t Reg.cl_CL_BUSERR_ADDR_VALID = true ∧
        getF t Reg.cl_CL_BUSERR_ADDR_CORE = n ∧ getF t Reg.cl_CL_BUSERR_ADDR_ADDR = addr % 2 ^ 40)) ∧
    (s.cluster.up = true → clusterUp s = false →
      ∃ t, exec .clusterDown s = .next t ∧ t.cluster.up = false ∧ t.cluster.grace = true ∧ ev t 18 = true) ∧
    (s.cluster.grace = true → clusterUp s = false →
      ∃ t, exec .graceExpired s = .next t ∧ t.cluster.grace = false ∧ ev t 19 = true ∧
        ∃ k, t.faultsUp = s.faultsUp ++ [⟨3, 3, 14, 0, k, none⟩])) ∧
  (∀ (s : State) (p : Party) (x n vec : Nat), Bound s → x < 16 →
    (∀ k, csrOk s p (Reg.sic_SIC_CLAIM x) false = true → sicBest s x = some k →
      ∃ t, exec (.sicClaim p x) s = .next t ∧ t.reply = .data (2 ^ 31 + k) ∧ k ∈ t.sic.inService ∧ k ∉ t.sic.edge ∧ t.csr = s.csr) ∧
    (csrOk s p (Reg.sic_SIC_CLAIM x) true = true →
      ∃ t, exec (.sicComplete p x n) s = .next t ∧ n ∉ t.sic.inService ∧ (∀ k, k ≠ n → (k ∈ t.sic.inService ↔ k ∈ s.sic.inService)) ∧
        t.csr = s.csr) ∧
    (csrOk s p Reg.sic_SIC_HOST_DONE true = true → n < 1024 → sicLevel s n = false → n ∉ s.sic.hostAgain →
      ∃ t, exec (.sicHostDone p n) s = .next t ∧ n ∉ t.sic.host ∧ t.csr = s.csr) ∧
    (vec < 2048 → csrOk s p (Reg.msix_MSIX vec + 12) true = true → s.sic.pba.contains vec = true →
      functionMasked s = false → (∃ k ∈ s.sic.host, getF s (Reg.sic_SIC_SRC_VECTOR k) = vec ∧ k < 1024) →
      ∃ t, exec (.msixUnmask p vec) s = .next t ∧ isSet t (Reg.msix_MSIX_MASK vec) = false ∧
        ∃ l m, t.sic.sent = s.sic.sent ++ vec :: l ∧ t.outside.host = s.outside.host ++
          (rdWords s (Reg.msix_MSIX vec) 2, toBytes (rdWord s (Reg.msix_MSIX vec + 8)).toNat 4) :: m))

/-! ### The PCIe endpoint, DMA and the host protocol (R165-R168, R393-R405, R428, R429) -/

/-- R398, R399, R428, R429: a channel that runs carries out the descriptor it has read. A reserved bit or a range it may not name,
the link down, and bus mastering off end it without moving a byte, with the error of the rule, the channel halted; a device-to-host
move that meets no error sends the bytes read to the host address, a host-to-device move writes the bytes of the host at the device
address; HEAD and the byte count advance, and DONE with ERR 0 stands in the descriptor, where its write meets no bus error and does
not wait. RESUME ends the halt. Nothing else leaves for the host but messages. -/
def Obligations.DmaDescriptors : Prop :=
  ∀ (s : State) (p : Party) (c : Nat) (bs host : List Byte) (hostErr : Bool), Bound s →
    let d := ofBytes bs
    let len := bitsN d 128 24 + 1
    let stops := fun (ch : Chan) (err : Nat) (t : State) => getF t ch.head = (getF s ch.head + 1) % 2 ^ 32 ∧ getF t ch.err = err ∧
      getF t ch.halted = 1 ∧ (getF t ch.events).testBit 0 = true ∧ getF t ch.bytes = getF s ch.bytes ∧ OnlyMessages s t
    let ends := fun (ch : Chan) (a moved : Nat) (irq : Bool) (u t : State) =>
      getF t ch.head = (getF u ch.head + 1) % 2 ^ 32 ∧ getF t ch.halted = getF u ch.halted ∧
      getF t ch.bytes = (getF u ch.bytes + moved) % 2 ^ 64 ∧ (irq = true → (getF t ch.events).testBit 1 = true) ∧
      (mainTakes u (a + 20) 1 = true → mainWaits u (a + 20) 1 = false → (∀ w, eccAt u w = 0) → getBits t.mem a 160 4 = 1)
    (c < 8 → pdmaRunning s c = true → memDo (.pdma c) (dmaDesc s (pdmaChan c)) (.read 32) 0 s = .ok s bs →
      let ch := pdmaChan c
      let bad := bitsN d 104 24 ≠ 0 ∨ bitsN d 154 6 ≠ 0 ∨ bitsN d 164 92 ≠ 0 ∨ dmaRange (bitsN d 64 40) len = false
      (bad → ∃ t, exec (.pdmaDescriptor c host hostErr) s = .next t ∧ stops ch 5 t) ∧
      (¬bad → linkUp s = false → ∃ t, exec (.pdmaDescriptor c host hostErr) s = .next t ∧ stops ch 3 t) ∧
      (¬bad → linkUp s = true → busMaster s = false → ∃ t, exec (.pdmaDescriptor c host hostErr) s = .next t ∧ stops ch 4 t) ∧
      (¬bad → linkUp s = true → busMaster s = true →
        (bitN d 152 = true → ∀ m, moveOut (.pdma c) (bitsN d 64 40) len s = some m → m.ok = true → m.bytes ≠ [] →
          ∃ t, exec (.pdmaDescriptor c host hostErr) s = .next t ∧ ends ch (dmaDesc s ch) m.bytes.length (bitN d 153) m.st t ∧
            OnlyMessages { m.st with outside := { m.st.outside with host := m.st.outside.host ++ [(bitsN d 0 64, m.bytes)] } } t) ∧
        (bitN d 152 = false → hostErr = false → len ≤ host.length → ∀ m, moveIn (.pdma c) (bitsN d 64 40) (host.take len) s = some m →
          m.ok = true → ∃ t, exec (.pdmaDescriptor c host hostErr) s = .next t ∧
            ends ch (dmaDesc s ch) m.bytes.length (bitN d 153) m.st t ∧ OnlyMessages m.st t))) ∧
    (c < 16 → sdmaRunning s c = true → memDo (.sdma c) (dmaDesc s (sdmaChan c)) (.read 32) 0 s = .ok s bs →
      let ch := sdmaChan c
      let src := bitsN d 0 64
      let dst := bitsN d 64 64
      ((bitsN d 155 5 ≠ 0 ∨ (bitN d 152 = true ∧ bitN d 153 = true)) →
        ∃ t, exec (.sdmaDescriptor c host hostErr) s = .next t ∧ stops ch 4 t) ∧
      (bitsN d 155 5 = 0 → bitsN d 164 92 = 0 → bitsN d 152 2 = 0 → src < 2 ^ 40 → dst < 2 ^ 40 →
        (dmaRange src len = false → ∃ t, exec (.sdmaDescriptor c host hostErr) s = .next t ∧ stops ch 1 t) ∧
        (dmaRange src len = true → dmaRange dst len = false → ∃ t, exec (.sdmaDescriptor c host hostErr) s = .next t ∧ stops ch 2 t) ∧
        (dmaRange src len = true → dmaRange dst len = true → ∀ m w, moveOut (.sdma c) src len s = some m → m.ok = true →
          moveIn (.sdma c) dst m.bytes m.st = some w → w.ok = true →
          ∃ t, exec (.sdmaDescriptor c host hostErr) s = .next t ∧ ends ch (dmaDesc s ch) w.bytes.length (bitN d 154) w.st t))) ∧
    (c < 8 → csrOk s p (Reg.pdma_PDMA_CTRL c) true = true →
      ∃ t, exec (.pdmaResume p c) s = .next t ∧ isSet t (Reg.pdma_PDMA_STATUS_HALTED c) = false ∧ t.mem = s.mem ∧
        CsrKept [Reg.pdma_PDMA_STATUS_HALTED c] s t) ∧
    (c < 16 → csrOk s p (Reg.sdma_SDMA_CTRL c) true = true →
      ∃ t, exec (.sdmaResume p c) s = .next t ∧ isSet t (Reg.sdma_SDMA_STATUS_HALTED c) = false ∧ t.mem = s.mem ∧
        CsrKept [Reg.sdma_SDMA_STATUS_HALTED c] s t)

/-- R393, R400: the link's rise shows its speed and width, with BAR2 at 1 GiB (R395), and its fall ends them; the host then reads
the device ID and class code in the configuration space, and sets and clears bus mastering. FLR returns segments 2 to 62, BAR2_BASE,
the MSI-X table and the channels' registers to their reset values, all of those of the channel blocks (log 31), and is reported;
that it takes the host's writes of the configuration space back is the model's choice (log 62). R394-R396: a host TLP that reads a
register through a valid segment is answered with the register's value; one through a segment that is not valid, one that is no
whole 32-bit access of a register, and one that the firewall denies, is not carried out at all: a read is aborted and counted, a
write is discarded and counted; a write of main memory through a segment writes its bytes and no other. No TLP of the host waits
before it. -/
def Obligations.HostLinkAndTransactions : Prop :=
 (∀ (s : State), Bound s →
    (∀ speed width, s.power.p3 = false → s.power.p4 = false → linkUp s = false → 1 ≤ speed → speed ≤ 4 → width ∈ [1, 2, 4, 8] →
      ∃ t, exec (.pcieLinkUp speed width) s = .next t ∧ getF t Reg.pcie_PCIE_STATUS_STATE = speed + 16 * width + 512 ∧
        isSet t Reg.glob_CHIP_STATUS_PCIE_UP = true ∧ barLen t true = 2 ^ 30 ∧ t.mem = s.mem) ∧
    (linkUp s = true → ∃ t, exec .pcieLinkDown s = .next t ∧ linkUp t = false ∧ isSet t Reg.glob_CHIP_STATUS_PCIE_UP = false ∧
      (getF t Reg.pcie_PCIE_EVENTS_EVENTS).testBit 0 = true) ∧
    (linkUp s = true → 3 ≤ chipState s →
      (∃ t v, exec (.hostTlp .config 0 (.read 4) []) s = .next t ∧ t.reply = .data v ∧ v / 2 ^ 16 = 0xA400 ∧ t.csr = s.csr) ∧
      (∃ t v, exec (.hostTlp .config 8 (.read 4) []) s = .next t ∧ t.reply = .data v ∧ v / 2 ^ 8 = 0x120000 ∧ t.csr = s.csr) ∧
      (∀ v : Word, ∃ t, exec (.hostTlp .config 4 (.write (toBytes v.toNat 4)) []) s = .next t ∧ t.reply = .done ∧
        busMaster t = v.getLsbD 2 ∧ (getF t Reg.pcie_PCIE_STATUS_STATE).testBit 10 = v.getLsbD 2 ∧ t.mem = s.mem)) ∧
    (∃ t, exec .flr s = .next t ∧ (getF t Reg.pcie_PCIE_EVENTS_EVENTS).testBit 1 = true ∧
      (∀ i, 2 ≤ i → i ≤ 62 → rdWord t (Reg.pcie_PCIE_SEG i) = resetWord (Reg.pcie_PCIE_SEG i)) ∧
      rdWord t Reg.pcie_PCIE_BAR2_BASE = resetWord Reg.pcie_PCIE_BAR2_BASE ∧
      (∀ v k, v < 2048 → k < 4 → rdWord t (Reg.msix_MSIX v + 4 * k) = resetWord (Reg.msix_MSIX v + 4 * k)) ∧
      (∀ a, 0x0307010000 ≤ a → a ≤ 0x0307017FFF → rdWord t a = resetWord a) ∧ (∀ c, c < 8 → pdmaRunning t c = false) ∧
      t.outside.cfg = [])) ∧
  (∀ (s : State) (off : Nat) (op : MemOp), Bound s → tlpOk s .bar0 off op = true → s.outside.tlps = [] →
    let seg := off / 0x100000
    let a := getF s (Reg.pcie_PCIE_SEG_BASE seg) * 0x100000 + off % 0x100000
    let refused := fun (t : State) => t.mem = s.mem ∧
      (memWrites op = true → (getF t Reg.pcie_PCIE_EVENTS_EVENTS).testBit 3 = true ∧
        getF t Reg.pcie_DROP_COUNT_COUNT = min (getF s Reg.pcie_DROP_COUNT_COUNT + 1) (2 ^ Reg.pcie_DROP_COUNT_COUNT.width - 1)) ∧
      (memWrites op = false → t.reply = .completerAbort ∧ (getF t Reg.pcie_PCIE_EVENTS_EVENTS).testBit 2 = true ∧
        getF t Reg.pcie_CA_COUNT_COUNT = min (getF s Reg.pcie_CA_COUNT_COUNT + 1) (2 ^ Reg.pcie_CA_COUNT_COUNT.width - 1))
    (isSet s (Reg.pcie_PCIE_SEG_VALID seg) = false → ∃ t, exec (.hostTlp .bar0 off op []) s = .next t ∧ refused t) ∧
    (isSet s (Reg.pcie_PCIE_SEG_VALID seg) = true → opens a = false →
      (isCsr a = true → memLen op ≠ 4 → ∃ t, exec (.hostTlp .bar0 off op []) s = .next t ∧ refused t) ∧
      (isCsr a = true → a % 4 = 0 → op = .read 4 → csrAt a ≠ .outside → tableRouter a = none → csrOk s .host a false = true →
        placeOf Reg.sic_SIC_CLAIM 16 a = none → timerAt a = none → timerAt (a - 0x800) = none → qdataAt a = none →
        qdataAt (a - 0x800) = none →
        ∃ t, exec (.hostTlp .bar0 off op []) s = .next t ∧
          t.reply = .data (readWord .host a 0 { s with reply := .done }).1.toNat ∧ t.mem = s.mem) ∧
      (isCsr a = false → mainBase ≤ a → a ≤ mainBase + 0xFFFFFFFFF → sizeOk a (memLen op) = true → tlpParts ⟨a, op, []⟩ = [(a, op)] →
        (firewallOk s .host a (memWrites op) = false → ∃ t, exec (.hostTlp .bar0 off op []) s = .next t ∧ refused t) ∧
        (answers s a = true → (∀ w, eccAt s w = 0) → memOpen s = true →
          (∃ ch, channelOf s (a - mainBase) = some ch ∧ chState s ch = chUp) → firewallOk s .host a true = true → ∀ bs, op = .write bs →
          ∃ t, exec (.hostTlp .bar0 off op []) s = .next t ∧ t.reply = .done ∧ MemKept a bs.length s t ∧
            (∀ i : Nat, (h : i < bs.length) → getByte t.mem (a + i) = bs[i]) ∧ t.csr = s.csr))))

/-- R165-R168: a write of a mailbox that is free, by its sender, fills it and rings the receiver's doorbell; by another it changes
no word and is flagged; into a full mailbox it is ignored and flagged. The receiver's acknowledgement frees it with its code. A
timeout frees it. The mailbox unit takes the SQ's entry from queue 62. R403-R405: firmware acknowledges each request of the host
with its code, and takes the request where the code is 0; it answers the request in hand with the reply that belongs to it, which
carries the request's SEQ; NOTICE carries SEQ 0. -/
def Obligations.MailboxesAndHostProtocol : Prop :=
 (∀ (s : State) (p : Party) (n code : Nat) (v : Word), Bound s → n < 64 →
    let cfg := rdWord s (Reg.mbx_MBX_CFG n)
    let full := fun (t : State) => isSet t (Reg.mbx_MBX_STATUS_FULL n)
    (csrOk s p (Reg.mbx_MBX_DATA n) true = true → n ∉ [0, 61, 63] →
      (mbxParty p = some (cfgSender cfg) → cfgSender cfg < 10 → full s = false → cfgReceiver cfg < 10 →
        ∃ t, exec (.mbxDataWrite p n v) s = .next t ∧ full t = true ∧ rdWord t (Reg.mbx_MBX_DATA n) = v ∧
          (getF t (Reg.mbx_DB_PEND_PEND (cfgReceiver cfg))).testBit (cfgDoorbell cfg) = true ∧ t.mem = s.mem) ∧
      (mbxParty p = some (cfgSender cfg) → cfgSender cfg < 10 → full s = true →
        ∃ t, exec (.mbxDataWrite p n v) s = .next t ∧ isSet t (Reg.mbx_MBX_STATUS_BUSY_WRITE n) = true ∧
          CsrKept [Reg.mbx_MBX_STATUS_BUSY_WRITE n] s t ∧ t.mem = s.mem)) ∧
    (csrOk s p (Reg.mbx_MBX_DATA n) true = true → mbxParty p ≠ some (cfgSender cfg) → full s = false → n ∉ [0, 61, 63] →
      ∃ t, exec (.mbxDataWrite p n v) s = .next t ∧ isSet t (Reg.mbx_MBX_STATUS_WRONG_PARTY n) = true ∧
        CsrKept [Reg.mbx_MBX_STATUS_WRONG_PARTY n] s t) ∧
    (csrOk s p (Reg.mbx_MBX_ACK n) true = true → mbxParty p = some (cfgReceiver (mbxCfg s n)) →
      cfgReceiver (mbxCfg s n) < 10 → cfgSender (mbxCfg s n) < 10 →
      (full s = true → ∃ t, exec (.mbxAckWrite p n code) s = .next t ∧ full t = false ∧ isSet t (Reg.mbx_MBX_STATUS_ACKED n) = true ∧
        getF t (Reg.mbx_MBX_STATUS_CODE n) = code % 256 ∧ t.mem = s.mem) ∧
      (full s = false → ∃ t, exec (.mbxAckWrite p n code) s = .next t ∧ isSet t (Reg.mbx_MBX_STATUS_LATE_ACK n) = true ∧
        CsrKept [Reg.mbx_MBX_STATUS_LATE_ACK n] s t)) ∧
    (full s = true → n ≠ 1 → cfgSender (mbxCfg s n) ≠ 10 →
      ∃ t, exec (.mbxTimeout n) s = .next t ∧ full t = false ∧ isSet t (Reg.mbx_MBX_STATUS_TIMEOUT n) = true ∧
        CsrKept [Reg.mbx_MBX_STATUS_FULL n, Reg.mbx_MBX_STATUS_TIMEOUT n] s t) ∧
    (∀ c w u, engRuns s c = true → popHeld s c 62 = false → qReader s c 62 = 6 → qPop c 62 s = .entry w u → u.csr = s.csr → bitsN w 32 6 = n →
      (bitsN w 38 2 = 0 → cfgSender cfg = 10 → cfgCore cfg = c → full s = false →
        ∃ t, exec (.mbxQueueTake c) s = .next t ∧ full t = true ∧ rdWord t (Reg.mbx_MBX_DATA n) = BitVec.ofNat 32 w) ∧
      (bitsN w 38 2 = 1 → cfgReceiver (mbxCfg u n) = 10 → cfgCore (mbxCfg u n) = c → full s = true →
        ∃ t, exec (.mbxQueueTake c) s = .next t ∧ full t = false ∧ getF t (Reg.mbx_MBX_STATUS_CODE n) = w % 256))) ∧
  (∀ (s : State) (seq arg : Nat), Bound s → seq < 64 → arg < 2 ^ 20 → fwReady s = true → leadCore s < 8 →
    let cfg0 := rdWord s (Reg.mbx_MBX_CFG 0)
    let cfg1 := rdWord s (Reg.mbx_MBX_CFG 1)
    (csrOk s .host (Reg.mbx_MBX_DATA 0) true = true → cfgSender cfg0 = 8 → cfgReceiver cfg0 = leadCore s →
      isSet s (Reg.mbx_MBX_STATUS_FULL 0) = false →
      ∀ q ∈ [(Instr.ping seq arg, 2), (.hostLoadImage seq arg, 3), (.quiesce seq arg, 4)]
          ++ (if arg < 2 ^ 16 then [(.hostHello seq (arg % 256) (arg / 256), 1)] else []),
        ∃ t, exec q.1 s = .next t ∧ isSet t (Reg.mbx_MBX_STATUS_FULL 0) = false ∧ isSet t (Reg.mbx_MBX_STATUS_ACKED 0) = true ∧
          getF t (Reg.mbx_MBX_STATUS_CODE 0) = fwCode s q.2 seq arg ∧
          (fwCode s q.2 seq arg = 0 → t.fw.session = true ∧ t.fw.seq = seq ∧
            t.fw.req = some (q.2, seq, if q.2 = 1 then chooseVersion s (arg % 256) (arg / 256) else arg)) ∧
          (fwCode s q.2 seq arg ≠ 0 → t.fw = s.fw)) ∧
    (csrOk s (.app (leadCore s) true) (Reg.mbx_MBX_DATA 1) true = true → cfgSender cfg1 = leadCore s → cfgReceiver cfg1 < 10 →
      isSet s (Reg.mbx_MBX_STATUS_FULL 1) = false →
      (∀ o carry result, s.fw.req = some (o, seq, carry) →
        ∀ q ∈ [(Instr.helloReply, 1, 0x21, carry % 256), (.pong, 2, 0x22, carry), (.loaded result, 3, 0x23, result % 16)]
            ++ (if allPaused s then [(.quiesced, 4, 0x24, 0)] else []), q.2.1 = o →
          ∃ t, exec q.1 s = .next t ∧ isSet t (Reg.mbx_MBX_STATUS_FULL 1) = true ∧
            rdWord t (Reg.mbx_MBX_DATA 1) = fwWord q.2.2.1 seq q.2.2.2 ∧ t.fw.req = none ∧
            getF t Reg.pcie_FW_STATE_LAST_SEQ = seq ∧ t.mem = s.mem) ∧
      (∃ t, exec (.notice arg) s = .next t ∧ rdWord t (Reg.mbx_MBX_DATA 1) = fwWord 0x30 0 (arg % 16) ∧
        isSet t (Reg.mbx_MBX_STATUS_FULL 1) = true ∧ t.fw.req = s.fw.req)))

/-! ### Queues from outside a core (R149-R162) -/

/-- R149, R151, R158, R160, R161: a read of QDATA pops the queue whose reader is the external port, and keeps the high half for the
requester; of another queue it returns zero and is flagged DENIED, of an empty one UNDERRUN. A completed write of QDATA to a queue
that the external port may write is made after the writes that engines, then an arrival, wait to make: it appends the pair where
there is room, and else sets OVERRUN. The queue's words hold no error here. An arrived QSEND pair that passes the checks is appended
likewise; one that fails a check is refused to its sender with the reason; one that finds the queue full, or behind an engine's
write, waits. R154, R155, R158, R161, R162: the ring writer moves a staged word into the ring at the producer index where it fits,
the header of a record with its pad bit clear; a CREDIT gives its route a credit, up to what the counter holds (that it stays there
is the model's choice, log 17); a route whose VALID goes to 1 loads its credits, at most 16; a refusal enters queue 63 as two
entries where both fit, and the credit of a refused pair returns. -/
def Obligations.ExternalQueueAccess : Prop :=
 (∀ (s : State) (p : Party) (c q : Nat) (hi lo : Word), Bound s → c < 1024 → q < 64 →
    (csrOk s p (Reg.sq_QDATA c q) false = true → popHeld s c q = false → WordsClean s c (qWords s c q true) →
      (qReader s c q = 6 → ∀ v u, qPop c q { s with reply := .done } = .entry v u →
        ∃ t, exec (.qdataRead p c q) s = .next t ∧ t.reply = .data (v % 2 ^ 32) ∧ t.mem = u.mem ∧
          (hasShadow p = true → (shadowOf t p (coreBase c + 0x95000)).map (·.value) = some [BitVec.ofNat 32 (v / 2 ^ 32)])) ∧
      (qReader s c q = 6 → qPop c q { s with reply := .done } = .empty →
        ∃ t, exec (.qdataRead p c q) s = .next t ∧ t.reply = .data 0 ∧ isSet t (Reg.sq_QLEVEL_UNDERRUN c q) = true ∧ t.mem = s.mem) ∧
      (qReader s c q ≠ 6 →
        ∃ t, exec (.qdataRead p c q) s = .next t ∧ t.reply = .data 0 ∧ isSet t (Reg.sq_QLEVEL_DENIED c q) = true ∧ t.mem = s.mem)) ∧
    (csrOk s p (Reg.sq_QDATA c q + 4) true = true → ∀ b blk pk w, csrAt (Reg.sq_QDATA c q) = .word b blk pk w →
      heldFor s p blk (Reg.sq_QDATA c q) = some lo → WordsClean s c (qWords s c q false) →
      (bitN (qWriters s c q) 6 = true → qKind s c q ≠ 3 →
        let u := earlierWrites c q (dropHeld p blk { s with reply := .done })
        (∀ w, qWrite c q (hi ++ lo) none u = some w →
          ∃ t, exec (.qdataWrite p c q hi) s = .next t ∧ t.mem = w.mem ∧ t.csr = w.csr ∧ t.engs = w.engs ∧ t.cores = w.cores) ∧
        (qWrite c q (hi ++ lo) none u = none → ∃ t, exec (.qdataWrite p c q hi) s = .next t ∧ t.mem = u.mem ∧
          isSet t (Reg.sq_QLEVEL_OVERRUN c q) = true ∧ CsrKept [Reg.sq_QLEVEL_OVERRUN c q] u t)) ∧
      (bitN (qWriters s c q) 6 = true → qKind s c q ≠ 1 → qKind s c q ≠ 3 →
        (∀ f ∈ engineOrder, waitingWrite c q s f = none) → pairFor s c q = false →
        (qCount s c q < 16 → ∃ t, exec (.qdataWrite p c q hi) s = .next t ∧ qCount t c q = qCount s c q + 1 ∧ qHead t c q = qHead s c q ∧
          rdNum t (qEntry c q (qHead s c q + qCount s c q)) 8 = (hi ++ lo).toNat ∧ t.csr = s.csr) ∧
        (16 ≤ qCount s c q → ∃ t, exec (.qdataWrite p c q hi) s = .next t ∧ isSet t (Reg.sq_QLEVEL_OVERRUN c q) = true ∧
          CsrKept [Reg.sq_QLEVEL_OVERRUN c q] s t ∧ t.mem = s.mem)) ∧
      ((bitN (qWriters s c q) 6 = false ∨ qKind s c q = 3) →
        ∃ t, exec (.qdataWrite p c q hi) s = .next t ∧ isSet t (Reg.sq_QLEVEL_DENIED c q) = true ∧
          CsrKept [Reg.sq_QLEVEL_DENIED c q] s t ∧ t.mem = s.mem)) ∧
    (∀ a rest, takeArrivalBy (fun a => a.pkt.ty == .qsend) (core s c).arrivals = some (a, rest) → a.pkt.ext % 64 = q →
      (pairReason s c a = none → coreClocked s c = true → writeAhead s c 8 q = false → qKind s c q ≠ 1 →
        (qCount s c q < 16 → ∃ t, exec (.qsendArrival c) s = .next t ∧ (core t c).arrivals = rest ∧ qCount t c q = qCount s c q + 1 ∧
          rdNum t (qEntry c q (qHead s c q + qCount s c q)) 8 = a.pkt.data % 2 ^ 64 ∧ t.csr = s.csr) ∧
        (16 ≤ qCount s c q → ∃ t, exec (.qsendArrival c) s = .next t ∧ (core t c).arrivals = (core s c).arrivals ∧ t.mem = s.mem)) ∧
      (pairReason s c a = none → writeAhead s c 8 q = true →
        ∃ t, exec (.qsendArrival c) s = .next t ∧ (core t c).arrivals = (core s c).arrivals ∧ t.mem = s.mem) ∧
      (∀ r, pairReason s c a = some r → ∃ t, exec (.qsendArrival c) s = .next t ∧ (core t c).arrivals = rest ∧ t.mem = s.mem ∧
        ∃ k ∈ t.fab.waiting, k.ty = .refuse ∧ k.src = 4 * c ∧ k.dst = a.pkt.src ∧ k.data / 2 ^ 64 = a.pkt.data % 2 ^ 64 ∧
          k.data / 16 % 16 = r))) ∧
  (∀ (s : State) (p : Party) (c : Nat), Bound s → c < 1024 →
    (∀ q w l, q < 64 → engRuns s c = true → drainsAny s = false → qKind s c q = 2 → qCount s c q = 1 → rdNum s (qEntry c q (qHead s c q)) 8 = w →
      tget 0 q (core s c).ringLeft = l →
      let words := qRingWords s c q
      let v := if l = 0 then setBitN w 15 false else w
      let a := viewBase + ringOff s c q (qProd s c q)
      (l = 0 → w % 512 + 1 ≤ words - qProd s c q % words ∧
        w % 512 + 1 ≤ words - (qProd s c q + 2 ^ 24 - qCons s c q) % 2 ^ 24) →
      (sliceDo (.core c 5) (ringOff s c q (qProd s c q)) (.write (toBytes v 8)) 0 s).data ≠ none →
      ∃ t, exec (.ringRecordWrite c q) s = .next t ∧ qCount t c q = 0 ∧ qProd t c q = (qProd s c q + 1) % 2 ^ 24 ∧ rdNum t a 8 = v ∧
        tget 0 q (core t c).ringLeft = (if l = 0 then w % 512 else l - 1)) ∧
    (∀ route a rest, route < 32 → coreSilent s c = false →
      takeArrivalBy (fun a => a.pkt.ty == .credit && a.pkt.ext % 32 == route) (core s c).arrivals = some (a, rest) →
      ∃ t, exec (.creditReturn c route) s = .next t ∧ (core t c).arrivals = rest ∧ t.mem = s.mem ∧
        getF t (Reg.sq_CHAN_ROUTE_CREDITS c route) = min (getF s (Reg.sq_CHAN_ROUTE_CREDITS c route) + 1) 31 ∧
        CsrKept [Reg.sq_CHAN_ROUTE_CREDITS c route] s t) ∧
    (∀ route lo hi, route < 32 → isSet s (Reg.sq_CHAN_ROUTE_VALID c route) = false → lo.getLsbD 31 = true →
      csrOk s p (Reg.sq_CHAN_ROUTE c route) true = true →
      ∃ t, exec (.chanRouteValid p c route lo hi) s = .next t ∧ isSet t (Reg.sq_CHAN_ROUTE_VALID c route) = true ∧
        getF t (Reg.sq_CHAN_ROUTE_DEST c route) = lo.toNat % 2 ^ 16 ∧
        getF t (Reg.sq_CHAN_ROUTE_CREDITS c route) = min (lo.toNat / 2 ^ 20 % 32) 16 ∧ t.mem = s.mem) ∧
    (∀ r rest, (core s c).refusals = r :: rest → engRuns s c = true → qCount s c 63 ≤ 14 →
      let n := qHead s c 63 + qCount s c 63
      ∃ t, exec (.refusalRecord c) s = .next t ∧ (core t c).refusals = rest ∧ qCount t c 63 = qCount s c 63 + 2 ∧
        rdNum t (qEntry c 63 n) 8 = r.hdr.toNat ∧ rdNum t (qEntry c 63 (n + 1)) 8 = r.word.toNat ∧
        (r.hdr.toNat % 4 = 1 → getF t (Reg.sq_CHAN_ROUTE_CREDITS c (bitsN r.hdr.toNat 32 5)) =
          min (getF s (Reg.sq_CHAN_ROUTE_CREDITS c (bitsN r.hdr.toNat 32 5)) + 1) 31)))

/-! ### The datapath of a core (R49-R100, R160, R209) -/

/-- R75, R76, R78, R79, R138, R160, R194: the oldest arrived event enters the ingress queue, or is refused to its sender with the
reason of the failing check. The IE takes the oldest event of the ingress queue: a paused slot's is held, a control word goes to the
SQ, one of KIND 11 raises BAD_KIND, a spike forms the operations of its projection, whose groups go to the operation queue while
that has credit, sends its fan-out read to the slice as a packet, or is counted a miss; an event without a slot is discarded and
counted. A held event is processed as one from the ingress queue. -/
def Obligations.EventPath : Prop :=
  ∀ (s : State) (c : Nat), Bound s → c < 1024 → (∀ w, eccAt s w = 0) →
    (∀ a rest, takeArrivalBy (fun a => a.pkt.ty == .event) (core s c).arrivals = some (a, rest) →
      (eventReason s c a = none → (core s c).ingress.length < 32 → coreClocked s c = true →
        ∃ t, exec (.eventDelivery c) s = .next t ∧ (core t c).arrivals = rest ∧ t.mem = s.mem ∧ t.csr = s.csr ∧
          (core t c).ingress = (core s c).ingress ++ [⟨BitVec.ofNat 64 a.pkt.data, a.pkt.step⟩]) ∧
      (∀ r, eventReason s c a = some r → ∃ t, exec (.eventDelivery c) s = .next t ∧ (core t c).arrivals = rest ∧
        (core t c).ingress = (core s c).ingress ∧ t.mem = s.mem ∧
        ∃ q ∈ t.fab.waiting, q.ty = .refuse ∧ q.src = 4 * c ∧ q.dst = a.pkt.src ∧ q.data / 2 ^ 64 = a.pkt.data % 2 ^ 64 ∧
          q.data / 16 % 16 = r)) ∧
    (∀ ev rest, (core s c).ingress = ev :: rest → intakeOpen s c = true → boundaryShut s c = false →
      (core s c).hold.length < 32 → (core s c).ctrl.length < 8 →
      let kept := fun (t : State) => (core t c).ingress = rest ∧ t.mem = s.mem
      (evKind ev.word = 3 → isSet s (Reg.eng_EXC_CAUSE_VALID c 0) = false →
        ∃ t, exec (.intakeEvent c) s = .next t ∧ (core t c).ingress = rest ∧ getF t (Reg.eng_EXC_CAUSE_CODE c 0) = 14) ∧
      (evKind ev.word ≠ 3 → findSlot s c (evCtx ev.word) = none →
        ∃ t, exec (.intakeEvent c) s = .next t ∧ kept t ∧ (core t c).ops = (core s c).ops ∧
          getF t (Reg.core_REFUSED_COUNT_COUNT c) = min (getF s (Reg.core_REFUSED_COUNT_COUNT c) + 1)
            (2 ^ (Reg.core_REFUSED_COUNT_COUNT c).width - 1)) ∧
      (∀ k, evKind ev.word ≠ 3 → findSlot s c (evCtx ev.word) = some k →
        (slotState s c k = stPaused → ∃ t, exec (.intakeEvent c) s = .next t ∧ kept t ∧ (core t c).hold = (core s c).hold ++ [ev]) ∧
        (atWork (slotState s c k) = true →
          (evKind ev.word = 2 →
            ∃ t, exec (.intakeEvent c) s = .next t ∧ kept t ∧ (core t c).ctrl = (core s c).ctrl ++ [ev]) ∧
          (evKind ev.word < 2 → (core s c).pre.length + (core s c).preReady.length < 32 →
            (findProj s c (evAxon ev.word) = none → ∃ t, exec (.intakeEvent c) s = .next t ∧ kept t ∧ (core t c).ops = (core s c).ops ∧
              getF t (Reg.core_AXON_MISS_COUNT_COUNT c) = min (getF s (Reg.core_AXON_MISS_COUNT_COUNT c) + 1)
                (2 ^ (Reg.core_AXON_MISS_COUNT_COUNT c).width - 1)) ∧
            (∀ p, findProj s c (evAxon ev.word) = some p →
              (winBits s c (projOff p) 32 2 = 2 → ∃ t, exec (.intakeEvent c) s = .next t ∧ kept t ∧ (core t c).ops = (core s c).ops ∧
                let off := winBits s c (projOff p) 64 18 * 256 + (evAxon ev.word - winBits s c (projOff p) 0 16) * 8
                (core t c).fanout.map (fun f => (f.ev, f.slot, f.off, f.left, f.ans)) = some (ev, k, off, none, none) ∧
                slicePacket s c 0 off (.read 8) ∈ t.fab.waiting) ∧
              (winBits s c (projOff p) 32 2 = 1 →
                let good := ((kernelGroups s c k p ev).map (fun g => g.filter (targetOk s c))).filter (fun g => !g.isEmpty)
                ((core s c).ops.length + good.length ≤ 32 → ∃ t, exec (.intakeEvent c) s = .next t ∧ kept t ∧
                  (core t c).ops = (core s c).ops ++ good ∧ (core t c).forming = []) ∧
                (∀ g gs, kernelGroups s c k p ev = g :: gs → g.any (targetOk s c) = true → 32 ≤ (core s c).ops.length →
                  ∃ t, exec (.intakeEvent c) s = .next t ∧ kept t ∧ (core t c).ops = (core s c).ops ∧
                    (core t c).forming = g :: gs))))))) ∧
    (∀ ev rest, takeHeld s c (core s c).hold = some (ev, rest) → intakeReady s c = true → heldMay s c ev = true →
      evKind ev.word ≠ 3 →
      (findSlot s c (evCtx ev.word) = none → ∃ t, exec (.holdQueueRelease c) s = .next t ∧ (core t c).hold = rest ∧
        (core t c).ops = (core s c).ops ∧ t.mem = s.mem) ∧
      (∀ k, findSlot s c (evCtx ev.word) = some k → atWork (slotState s c k) = true → evKind ev.word = 2 → (core s c).ctrl.length < 8 →
        ∃ t, exec (.holdQueueRelease c) s = .next t ∧ (core t c).hold = rest ∧ (core t c).ctrl = (core s c).ctrl ++ [ev] ∧
          t.mem = s.mem)) ∧
    (∀ f a, (core s c).fanout = some f → f.ans = some a → engUp s c 0 = true → (core s c).ops.length < 32 →
      let read := fun (t : State) (off left : Nat) =>
        (core t c).fanout = some { f with off := off, left := some left, tag := s.fab.tag, ans := none } ∧
          slicePacket s c 0 off (.read 4) ∈ t.fab.waiting
      ∃ t, exec (.fanoutReadResponse c) s = .next t ∧ t.mem = s.mem ∧
        (a = none → (core t c).fanout = none ∧ (core t c).ops = (core s c).ops ∧
          getF t (Reg.core_SLICE_ERR_COUNT_COUNT c) =
            min (getF s (Reg.core_SLICE_ERR_COUNT_COUNT c) + 1) (2 ^ (Reg.core_SLICE_ERR_COUNT_COUNT c).width - 1)) ∧
        (∀ v, a = some v → f.left = none → (core t c).ops = (core s c).ops ∧
          (if bitsN v 32 16 = 0 then (core t c).fanout = none else read t (f.base + bitsN v 0 32 * 4) (bitsN v 32 16))) ∧
        (∀ v n, a = some v → f.left = some (n + 1) →
          let o := fanoutOp s c f v
          (core t c).ops = (core s c).ops ++ (if targetOk s c o then [[o]] else []) ∧
          (if n = 0 then (core t c).fanout = none else read t (f.off + 4) n)))

/-- R57, R60-R62, R74, R80: the SE adds each operation of a group to the delay slot of its target step, wrapping, and counts it,
where none of them has to wait, is late or names a delay that its ring does not have; those that must wait, wait, and where the
late-wait queue is full the SE stalls, until the oldest may go. A late operation that may go is added likewise; one whose step has
been read is discarded and counted late, one with a forbidden delay is counted so. R65-R71, R83, R84, R92: the SO carries out a
wicket of step n for its slot. Where the slot's neurons have records and delay slots of their own, every neuron that R65 updates
takes the record that R66 computes from its old one and its slot's value, every other keeps its record, a firing neuron gives its
fire record in the order of the index, and the slot's STEP is n. A full fire queue stalls the SO. -/
def Obligations.SynapticOperationsAndSomaUpdate : Prop :=
 (∀ (s : State) (c : Nat), Bound s → c < 1024 → (∀ w, eccAt s w = 0) → engUp s c 1 = true →
    let good := fun (o : SynOp) => dlyOk (ringDepth (opClass s c o).2) o.dly = true ∧
      slotRead s c o.slot o.target o.step = false ∧ opWaits s c o = false
    let add := fun (u : State) (o : SynOp) => addDelay c (delayOff (opClass s c o).1 (opClass s c o).2 o.step) (contribution u c o) u
    (∀ g rest, (core s c).ops = g :: rest → groupBehind s c g = false →
      ((∀ o ∈ g, good o) → (core s c).late.length < 16 → ∃ t, exec (.operationGroup c) s = .next t ∧ rest <+: (core t c).ops ∧
        t.mem = (g.foldl add s).mem ∧ (core t c).late = (core s c).late ∧
        ((core s c).forming = [] → (core t c).ops = rest ∧ CsrKept [Reg.core_SYN_OPS_COUNT c] s t ∧
          getF t (Reg.core_SYN_OPS_COUNT c) = (getF s (Reg.core_SYN_OPS_COUNT c) + g.length) % 2 ^ (Reg.core_SYN_OPS_COUNT c).width)) ∧
      ((∀ o ∈ g, opWaits s c o = true) → (core s c).late.length + g.length ≤ 16 →
        ∃ t, exec (.operationGroup c) s = .next t ∧ rest <+: (core t c).ops ∧ t.mem = s.mem ∧
          (core t c).late = (core s c).late ++ g.map (withWeight s c) ∧
          ((core s c).forming = [] → (core t c).ops = rest ∧ t.csr = s.csr)) ∧
      (g ≠ [] → 16 ≤ (core s c).late.length → ∃ t, exec (.operationGroup c) s = .next t ∧ (core t c).ops = (core s c).ops ∧
        (core t c).late = (core s c).late ∧ t.mem = s.mem ∧ t.csr = s.csr)) ∧
    (∀ o rest, nextLate s c = some (o, rest) →
      (good o → ∃ t, exec (.lateWaitRelease c) s = .next t ∧ (core t c).late = rest ∧ t.mem = (add s o).mem ∧
        MemKept (coreBase c + delayOff (opClass s c o).1 (opClass s c o).2 o.step) 4 s t) ∧
      (dlyOk (ringDepth (opClass s c o).2) o.dly = true → slotRead s c o.slot o.target o.step = true →
        ∃ t, exec (.lateWaitRelease c) s = .next t ∧ (core t c).late = rest ∧ t.mem = s.mem ∧
          getF t (Reg.core_LATE_COUNT_COUNT c) = min (getF s (Reg.core_LATE_COUNT_COUNT c) + 1) (2 ^ (Reg.core_LATE_COUNT_COUNT c).width - 1)) ∧
      (dlyOk (ringDepth (opClass s c o).2) o.dly = false →
        ∃ t, exec (.lateWaitRelease c) s = .next t ∧ (core t c).late = rest ∧ t.mem = s.mem ∧
          getF t (Reg.core_DELAY_ERR_COUNT c) = min (getF s (Reg.core_DELAY_ERR_COUNT c) + 1) (2 ^ (Reg.core_DELAY_ERR_COUNT c).width - 1)))) ∧
  (∀ (s : State) (c slot n : Nat) (rest : List (Nat × Nat)), Bound s → c < 1024 → slot < 256 → (∀ w, eccAt s w = 0) →
    (core s c).soCmd = (slot, n) :: rest → engUp s c 2 = true → (core s c).somaAt = none →
    let count := slotNCount s c slot + 1
    let i := fun (j : Nat) => slotNBase s c slot + j
    let old := fun (j : Nat) => readRec s c (i j)
    let cls := fun (j : Nat) => classOf s c (old j).cls
    let off := fun (j : Nat) => delayOff (old j) (cls j) n
    let x := fun (j : Nat) => sx 32 (rdNum s (coreBase c + off j) 4)
    ((core s c).fire.length = 64 → ∃ t, exec (.somaUpdate c slot) s = .next t ∧ (core t c).somaAt = some (0, 0) ∧
      (core t c).soCmd = (core s c).soCmd ∧ t.mem = s.mem ∧ t.csr = s.csr) ∧
    ((core s c).fire.length + count ≤ 64 → (core s c).post.length + (core s c).postReady.length + count ≤ 64 →
      (∀ j k, j < count → k < count → j ≠ k → recOff s c (i j) ≠ recOff s c (i k) ∧ off j ≠ off k) →
      ∃ t, exec (.somaUpdate c slot) s = .next t ∧
        (∀ j, j < count → readRec t c (i j) = if updatedAt (cls j) n j (x j) then (somaRec (old j) (cls j) n (x j)).1 else old j) ∧
        (core t c).fire = (core s c).fire ++ (List.range count).filterMap (fun j =>
          if updatedAt (cls j) n j (x j) then (somaRec (old j) (cls j) n (x j)).2.map (fun f => ⟨i j, slot, f.kind, f.pay, n⟩) else none) ∧
        slotStep t c slot = n % 2 ^ 64 ∧ rest <+: (core t c).soCmd ∧ ((core s c).sqOut = [] → (core t c).soCmd = rest) ∧
        tget 0 slot (core t c).soma = n + 1 ∧
        ((core s c).seCmd.contains (slot, n) = false →
          (∀ j, j < count → updatedAt (cls j) n j (x j) = true → rdNum t (coreBase c + off j) 4 = 0) ∧ (core t c).corr = (core s c).corr) ∧
        ((core s c).seCmd.contains (slot, n) = true → engUp s c 1 = true → tget 0 slot (core t c).corr = n + 1)))

/-- R85, R94, R95, R97-R100, R133, R209: the next wicket of a context is released to its cores; a core takes a released wicket and
its SQ is told; a fire record gives the events of its emit entries, or NO_ROUTE; the scrubber stands at the next word after a read,
counts a corrected word and stops at an uncorrectable one; a gander that expires halts its engine and reports a fault; the stop
sequence ends intake. -/
def Obligations.CoreEvents : Prop :=
  ∀ (s : State) (c : Nat), Bound s → c < 1024 →
    (∀ ctx, mayRelease s ctx = true →
      let n := (ctxRun s ctx).released
      ∃ t, exec (.wicketRelease ctx) s = .next t ∧ (ctxRun t ctx).released = n + 1 ∧
        (blkEnabled s Reg.vol_BLK_CTRL = false → t.mem = s.mem) ∧
        (∀ p ∈ slotsOf s ctx, tget 0 p.2 (core t p.1).released = n + 1) ∧
        (ctxRun t ctx).credits = (if dStart s ctx + n ≤ tbWicket s then (ctxRun s ctx).credits else (ctxRun s ctx).credits - 1)) ∧
    (∀ slot, mayTake s c slot = true → lowestTaker s c slot = true →
      let n := tget 0 slot (core s c).taken
      ∃ t, exec (.wicketTaken c slot) s = .next t ∧ tget 0 slot (core t c).taken = n + 1 ∧
        (eng t c 5).happen = (eng s c 5).happen ++ [⟨2, slot, n, BitVec.ofNat 32 slot, 0, 0, 0⟩] ∧
        (learnOn s c = false → t.mem = s.mem ∧ t.csr = s.csr)) ∧
    (∀ f rest, (core s c).fire = f :: rest → engUp s c 4 = true → (∀ w, eccAt s w = 0) →
      let rel := f.neuron - slotNBase s c f.slot
      let left := (emitMatches s c rel).drop (core s c).firePos
      let items := fun (l : List SendItem) => l.map (fun q => (q.word, q.step))
      let stalls := fun (e : Nat) => ∃ v, (eng s c e).wait = .emit v
      (emitMatches s c rel = [] → ∃ t, exec (.fireEmit c) s = .next t ∧ (core t c).fire = rest ∧ t.mem = s.mem ∧
        (core s c).send <+: (core t c).send ∧ (¬stalls 4 → ¬stalls 5 → (core t c).send = (core s c).send) ∧
        (eng t c 4).happen = (eng s c 4).happen ++
          [⟨9, f.slot, f.step, BitVec.ofNat 32 f.slot, BitVec.ofNat 32 rel, BitVec.ofNat 32 (f.pay + f.kind * 256), 0⟩]) ∧
      (emitMatches s c rel ≠ [] → left.length ≤ sendFree s c → ∃ t, exec (.fireEmit c) s = .next t ∧ (core t c).fire = rest ∧
        (core t c).firePos = 0 ∧ t.mem = s.mem ∧
        items (core s c).send ++ left.map (fun k => (emitEvent s c k rel f, f.step)) <+: items (core t c).send ∧
        (¬stalls 4 → ¬stalls 5 →
          items (core t c).send = items (core s c).send ++ left.map (fun k => (emitEvent s c k rel f, f.step)))) ∧
      (emitMatches s c rel ≠ [] → sendFree s c < left.length → ∃ t, exec (.fireEmit c) s = .next t ∧
        (core t c).fire = (core s c).fire ∧ (core t c).firePos = (core s c).firePos + sendFree s c ∧ t.mem = s.mem ∧
        items (core t c).send =
          items (core s c).send ++ (left.take (sendFree s c)).map (fun k => (emitEvent s c k rel f, f.step)))) ∧
    (coreUp s c = true → isSet s (Reg.core_SCRUB_CTRL_EN c) = true → (core s c).scrubStop = false →
      eccAt s (eccWordOf c (scrubOff (core s c).scrub)) = 0 →
      (∃ t, exec (.scrubRead c 0) s = .next t ∧ (core t c).scrub = ((core s c).scrub + 1) % 47104 ∧ t.csr = s.csr ∧ t.mem = s.mem) ∧
      (∃ t, exec (.scrubRead c 1) s = .next t ∧ (core t c).scrub = ((core s c).scrub + 1) % 47104 ∧ t.mem = s.mem ∧
        getF t (Reg.core_ECC_CORR_COUNT_COUNT c) = min (getF s (Reg.core_ECC_CORR_COUNT_COUNT c) + 1)
          (2 ^ (Reg.core_ECC_CORR_COUNT_COUNT c).width - 1)) ∧
      (∃ t, exec (.scrubRead c 2) s = .next t ∧ (core t c).scrub = (core s c).scrub ∧ (core t c).scrubStop = true ∧
        (core t c).stopped = true ∧ t.faultsUp.length = s.faultsUp.length + 1 ∧ t.mem = s.mem)) ∧
    (∀ e, e < 6 → engUp s c e = true → engBusy s c e = true → getF s (Reg.eng_GANDER_LIMIT_LIMIT c e) ≠ 0 →
      ∃ t, exec (.ganderExpiry c e) s = .next t ∧ (eng t c e).st = .halted ∧ isSet t (Reg.eng_GANDER_EVENTS_EXPIRED c e) = true ∧
        (core t c).stopped = true ∧ t.faultsUp.length = s.faultsUp.length + 1 ∧ t.mem = s.mem) ∧
    (coreUp s c = true → blkEnabled s (Reg.core_BLK_CTRL c) = true → isSet s (enRef (Reg.core_BLK_CTRL c)) = false →
      quiescent s c = true →
      ∃ t, exec (.coreStopStart c) s = .next t ∧ (core t c).intakeOff = true ∧ t.csr = s.csr ∧ t.mem = s.mem)

/-! ### The fabric (R171-R201) -/

/-- R179-R181, R188, R190, R195, R199: the oldest waiting packet that may enter takes the next SEQ of its unicast series, a
retransmit entry and the input port of its endpoint; a core's oldest event word enters in its turn among them. R175, R177, R178,
R180, R186: a packet at a router leaves by every output that grants it, to the next router of its route or to an endpoint of this
one, and is gone when the last copy has left; one that no output grants stays; a failed header check discards and counts it, and so
does an invalid flock entry or an endpoint that the router lacks. R189, R197, R198: a drain request is held with the regions still
drained that it keeps; a region that holds no packet and no entry that names it is drained; an access that the request held goes on
when it is withdrawn; a table word of a drained region is written, of another it is not and the write is flagged; a role epoch
advances by one modulo 16 where no item of an earlier epoch can still arrive. -/
def Obligations.FabricTransport : Prop :=
 (∀ (s : State) (src i flips : Nat), Bound s →
    (epRouter src < 1024 → s.fab.waiting.find? (fun p => p.src == src && p.resend && mayInject s p) = none →
      let goes := fun (p : Packet) (t : State) =>
        let q := { p with alt := altOf s p, seq := tget 0 (uniKey p.src p.dst) s.fab.seqNext }
        t.fab.waiting = s.fab.waiting.erase p ∧ t.mem = s.mem ∧
        t.fab.flights = s.fab.flights ++ [{ pkt := q, router := epRouter p.src, port := injectPort p.src }] ∧
        t.fab.retx = s.fab.retx ++ [{ pkt := q, told := decide (retxLimit s ≤ 1) }] ∧
        tget 0 (uniKey p.src p.dst) t.fab.seqNext = (q.seq + 1) % 256 ∧ (1 < retxLimit s → t.csr = s.csr) ∧
        (retxLimit s ≤ 1 → isSet t Reg.fab_FAB_EVENTS_RETX_EXHAUSTED = true)
      (epCode src ≠ 0 → ∀ p, oldestReady s src (waitingAt s src).length = some p → sequenced p.ty = true → byFlock p = false →
        ∃ t, exec (.packetInject src) s = .next t ∧ goes p t) ∧
      (epCode src = 0 → ∀ it rest, (core s (epRouter src)).send = it :: rest →
        (∀ p, oldestReady s src it.older = some p → sequenced p.ty = true → byFlock p = false →
          ∃ t, exec (.packetInject src) s = .next t ∧ goes p t ∧
            (core t (epRouter src)).send.map (·.word) = (core s (epRouter src)).send.map (·.word)) ∧
        (oldestReady s src it.older = none → mayInject s (sendPacket (epRouter src) it) = true →
          ∃ t f, exec (.packetInject src) s = .next t ∧ t.fab.flights = s.fab.flights ++ [f] ∧ f.pkt.data = it.word.toNat ∧
            f.pkt.ty = .event ∧ f.pkt.step = it.step ∧ f.router = epRouter src ∧ f.delivered = false ∧
            t.fab.retx.length = s.fab.retx.length + 1))) ∧
    (∀ f, s.fab.flights[i]? = some f → f.delivered = false → f.router < 1024 → f.port < 6 →
      let g := { f with bad := f.bad ^^^ flips }
      let u := { s with fab := { s.fab with flights := s.fab.flights.set i g } }
      let rest := s.fab.flights.eraseIdx i
      let copy := fun (o : Nat) => if o < 4 then { g with router := neighbour g.router o, port := oppositePort o, gone := [] }
        else { g with port := o, delivered := true, gone := [] }
      let whole := fun (o : Nat) => 4 ≤ o → reached s g o = codesAt g o
      (hchkOk g = false → ∃ t, exec (.packetHop i flips) s = .next t ∧ t.fab.flights = rest ∧ t.mem = s.mem ∧
        getF t Reg.fab_HCHK_DROP_COUNT_COUNT = min (getF s Reg.fab_HCHK_DROP_COUNT_COUNT + 1) (2 ^ Reg.fab_HCHK_DROP_COUNT_COUNT.width - 1)) ∧
      (hchkOk g = true → misroutes s g = true →
        ∃ t, exec (.packetHop i flips) s = .next t ∧ t.fab.flights = rest ∧ isSet t (Reg.rtr_RTR_EVENTS_MISROUTE f.router) = true) ∧
      (hchkOk g = true → misroutes s g = false →
        (∀ o, byFlock (seen g) = false → g.gone = [] → nextPort g.router (epRouter (seen g).dst) (seen g).alt = some o → outputs u g = [o]) ∧
        ((∀ o ∈ outputs u g, granted u g.router o = some i ∧ whole o) →
          ∃ t, exec (.packetHop i flips) s = .next t ∧ t.csr = s.csr ∧ t.mem = s.mem ∧ t.fab.flights = rest ++ (outputs u g).map copy) ∧
        (outputs u g ≠ [] → (∀ o ∈ outputs u g, granted u g.router o ≠ some i) →
          ∃ t, exec (.packetHop i flips) s = .next t ∧ t.mem = s.mem ∧ t.fab.flights = s.fab.flights.set i g) ∧
        (∃ t, exec (.packetHop i flips) s = .next t ∧ t.mem = s.mem ∧
          ∀ o ∈ outputs u g, granted u g.router o = some i → whole o → copy o ∈ t.fab.flights)))) ∧
  (∀ (s : State) (p : Party), Bound s →
    (∀ mask, csrOk s p Reg.fab_FAB_DRAIN true = true →
      let u := csrEffect p Reg.fab_FAB_DRAIN (drainWrite mask) s (BitVec.ofNat 32 mask)
      getF u Reg.fab_FAB_DRAIN_REQ = mask % 2 ^ Reg.fab_FAB_DRAIN_REQ.width ∧
      getF u Reg.fab_FAB_DRAIN_STATUS_DRAINED = getF s Reg.fab_FAB_DRAIN_STATUS_DRAINED &&& mask ∧ u.mem = s.mem ∧
      (getF s Reg.fab_FAB_DRAIN_REQ = 0 ∨ mask % 16 ≠ 0 →
        CsrKept [Reg.fab_FAB_DRAIN_REQ, Reg.fab_FAB_DRAIN_STATUS_DRAINED] s u) ∧
      ∃ t, exec (.fabDrainRequest p mask) s = .next t ∧ t.mem = (settle u).mem ∧ t.csr = (settle u).csr ∧
        t.memWait = (settle u).memWait ∧ (NothingWaits s → t.mem = s.mem ∧ t.csr = u.csr)) ∧
    (∀ r, r < 4 → (getF s Reg.fab_FAB_DRAIN_REQ).testBit r = true → regionEmpty s r = true →
      ∃ t, exec (.regionDrained r) s = .next t ∧ (getF t Reg.fab_FAB_DRAIN_STATUS_DRAINED).testBit r = true ∧
        CsrKept [Reg.fab_FAB_DRAIN_STATUS_DRAINED] s t ∧ t.mem = s.mem) ∧
    (∀ addr r v, tableRouter addr = some r → csrOk s p addr true = true →
      ((getF s Reg.fab_FAB_DRAIN_STATUS_DRAINED).testBit (regionOfCore r) = true →
        (addr < 0x0300800000 → ∃ t, exec (.routeTableWrite p addr v) s = .next t ∧ rdNum t addr 4 = v.toNat ∧ MemKept addr 4 s t ∧
          t.csr = s.csr) ∧
        (0x0300800000 ≤ addr → ∃ t, exec (.routeTableWrite p addr v) s = .next t ∧ rdWord t addr = v ∧ t.mem = s.mem ∧
          CsrKept [⟨addr, 0, 32⟩] s t)) ∧
      ((getF s Reg.fab_FAB_DRAIN_STATUS_DRAINED).testBit (regionOfCore r) = false →
        ∃ t, exec (.routeTableWrite p addr v) s = .next t ∧ isSet t Reg.fab_FAB_EVENTS_TABLE_WRITE_IGNORED = true ∧
          CsrKept [Reg.fab_FAB_EVENTS_TABLE_WRITE_IGNORED] s t ∧ t.mem = s.mem)) ∧
    (∀ c, corePresent s c = true → epochSettled s c = true →
      ∃ t, exec (.roleEpochAdvance c) s = .next t ∧
        getF t (Reg.core_ROLE_EPOCH_EPOCH c) = (getF s (Reg.core_ROLE_EPOCH_EPOCH c) + 1) % 16 ∧
        CsrKept [Reg.core_ROLE_EPOCH_EPOCH c] s t ∧ t.mem = s.mem))

/-- R191, R192, R194: a core takes the next packet of a unicast series and expects the one after it; a packet ahead of its turn asks
for a resend once, one behind it is counted a duplicate, and one whose CRC fails is counted and discarded. ACK_SEND acknowledges
what no unjudged or refused item holds back. A refusal that reaches its sender in order waits there for its record and is
acknowledged at once. R193, R195, R196: an ACK frees every entry of its series up to its SEQ that no refusal has taken over, and no
other; a member's ACK counts towards the entry of its packet and TRY; a NACK, and the timeout of an unacknowledged packet, put every
packet of the series from that SEQ on to be sent again, in order and counted, and one that has then been sent RETX_LIMIT times is
reported. A flight that has waited at the limit is flagged. R191: a NACK outstanding ends. -/
def Obligations.FabricReception : Prop :=
 (∀ (s : State) (i : Nat), Bound s →
    (∀ f, s.fab.flights[i]? = some f → f.delivered = true →
      let p := seen f
      let c := epRouter p.dst
      let rx := rxOf s (uniKey p.src p.dst)
      let ahead := (p.seq + 256 - rx.expect) % 256
      let quiet := fun (t : State) => (core t c).arrivals = (core s c).arrivals ∧ t.fab.flights = s.fab.flights.eraseIdx i
      (epCode p.dst = 0 → byFlock p = false → p.ty = .event ∨ p.ty = .qsend ∨ p.ty = .credit → crcOk f = true →
        (ahead = 0 → ∃ t, exec (.packetArrival i) s = .next t ∧ (core t c).arrivals = (core s c).arrivals ++ [⟨p, none⟩] ∧
          (rxOf t (uniKey p.src p.dst)).expect = (rx.expect + 1) % 256 ∧ t.fab.flights = s.fab.flights.eraseIdx i ∧
          t.mem = s.mem ∧ t.csr = s.csr) ∧
        (1 ≤ ahead → ahead ≤ 127 → ∃ t, exec (.packetArrival i) s = .next t ∧ quiet t ∧ (rxOf t (uniKey p.src p.dst)).nack = true ∧
          t.fab.waiting = s.fab.waiting ++ (if rx.nack then [] else
            [({ ty := .nack, src := p.dst, dst := p.src, seq := rx.expect } : Packet)])) ∧
        (128 ≤ ahead → ∃ t, exec (.packetArrival i) s = .next t ∧ quiet t ∧
          getF t Reg.fab_DUP_COUNT_COUNT = min (getF s Reg.fab_DUP_COUNT_COUNT + 1) (2 ^ Reg.fab_DUP_COUNT_COUNT.width - 1))) ∧
      (crcOk f = false → ∃ t, exec (.packetArrival i) s = .next t ∧ quiet t ∧ isSet t Reg.fab_FAB_EVENTS_CRC_FAIL = true ∧
        getF t Reg.fab_CRC_FAIL_COUNT_COUNT = min (getF s Reg.fab_CRC_FAIL_COUNT_COUNT + 1) (2 ^ Reg.fab_CRC_FAIL_COUNT_COUNT.width - 1)) ∧
      (p.ty = .refuse → epCode p.dst = 0 → crcOk f = true → ahead = 0 →
        ∃ t, exec (.fabricRefuse i) s = .next t ∧ t.mem = s.mem ∧
          (core t c).refusals = (core s c).refusals ++ [⟨BitVec.ofNat 64 p.data, BitVec.ofNat 64 (p.data / 2 ^ 64),
            if p.mc then p.ext / 256 % 1024 else p.src, p.ext % 256, p.mc⟩] ∧
          (uncovered s p.src p.dst = [] →
            ∃ a ∈ t.fab.waiting, a.ty = .ack ∧ a.src = p.dst ∧ a.dst = p.src ∧ a.seq = rx.expect % 256))) ∧
    (∀ src dst, ackLag s src dst < (rxOf s (uniKey src dst)).unacked →
      let n := ((rxOf s (uniKey src dst)).expect + 511 - ackLag s src dst) % 256
      ∃ t, exec (.ackSend src dst) s = .next t ∧ t.csr = s.csr ∧ t.mem = s.mem ∧ (rxOf t (uniKey src dst)).unacked = ackLag s src dst ∧
        t.fab.waiting = s.fab.waiting ++ [{ ty := .ack, src := dst, dst := src, seq := n }])) ∧
  (∀ (s : State) (i : Nat), Bound s →
    let due := fun (hit : Retx → Bool) (seq : Nat) (e : Retx) => hit e && decide ((e.pkt.seq + 256 - seq) % 256 < 128)
    let again := fun (hit : Retx → Bool) (seq : Nat) (t : State) =>
      (∀ e ∈ s.fab.retx, due hit seq e = true → (({ (resent e).pkt with resend := true } : Packet) ∈ t.fab.waiting) ∧
        { resent e with told := e.told || tells s (resent e) } ∈ t.fab.retx ∧
        (tells s (resent e) = true → isSet t Reg.fab_FAB_EVENTS_RETX_EXHAUSTED = true)) ∧
      (∀ e ∈ s.fab.retx, due hit seq e = false → e ∈ t.fab.retx) ∧ t.mem = s.mem ∧
      getF t Reg.fab_RETX_COUNT_COUNT = min (getF s Reg.fab_RETX_COUNT_COUNT + s.fab.retx.countP (due hit seq))
        (2 ^ Reg.fab_RETX_COUNT_COUNT.width - 1)
    (∀ f, s.fab.flights[i]? = some f → f.delivered = true → crcOk f = true →
      let p := seen f
      let hit := fun (e : Retx) => inUnicast p.dst p.src e && decide ((p.seq + 256 - e.pkt.seq) % 256 < 128)
      let mine := fun (e : Retx) => inSeries p.dst (p.ext % 1024) true e && e.pkt.seq == p.seq && e.pkt.tr == p.tr
      (p.ty = .ack → ∃ t, exec (.ack i) s = .next t ∧ t.fab.flights = s.fab.flights.eraseIdx i ∧ t.mem = s.mem ∧
        (epCode p.dst ≠ 0 → t.csr = s.csr) ∧
        (p.mc = false → (∀ e ∈ t.fab.retx, hit e = true → e.refused = true) ∧ (∀ e ∈ s.fab.retx, hit e = false → e ∈ t.fab.retx)) ∧
        (p.mc = true → (∀ e ∈ s.fab.retx, mine e = false → e ∈ t.fab.retx) ∧
          (∀ e ∈ s.fab.retx, mine e = true → { e with acks := e.acks + 1 } ∈ t.fab.retx ∨
            (e.refused = false ∧ flockMembers s (epRouter p.dst) (p.ext % 1024) ≤ e.acks + 1)))) ∧
      (p.ty = .nack → ∃ t, exec (.nack i) s = .next t ∧ t.fab.flights = s.fab.flights.eraseIdx i ∧
        again (seriesHit p.dst (if p.mc then p.ext % 1024 else p.src) p.mc) p.seq t)) ∧
    (∀ src dst mc seq, s.fab.retx.any (fun e => seriesHit src dst mc e && e.pkt.seq == seq &&
        decide (e.acks < (if mc then flockMembers s (epRouter src) dst else 1))) = true →
      ∃ t, exec (.retxTimeout src dst mc seq) s = .next t ∧ t.fab.flights = s.fab.flights ∧
        again (seriesHit src dst mc) seq t) ∧
    (∀ src dst, ∃ t, exec (.nackTimeout src dst false) s = .next t ∧ (rxOf t (uniKey src dst)).nack = false ∧ t.csr = s.csr ∧
      t.mem = s.mem) ∧
    (∀ f, s.fab.flights[i]? = some f → f.router < 1024 →
      (waitsAt s i f = true → ∃ t, exec (.stallLimit i) s = .next t ∧ isSet t (Reg.rtr_RTR_EVENTS_STALL f.router) = true ∧
        isSet t Reg.fab_FAB_EVENTS_STALL = true ∧ t.fab = s.fab ∧ t.mem = s.mem) ∧
      (waitsAt s i f = false → ∃ t, exec (.stallLimit i) s = .next t ∧ t.csr = s.csr ∧ t.fab = s.fab ∧ t.mem = s.mem)))

/-! ### Time, admission and results (R202-R230, R309, R310, R323-R329, R547) -/

/-- R202, R210, R217, R218, R309, R310: with every due wicket released and the last tick at admission control, the timebase issues
its next tick, which shows a stretch where it was held, and the due, unheld pulse of an enabled output that is inactive begins, by
the registers as they are written at that tick; the balls show each output with its polarity. A tick whose wickets are not released
is held; when the hold has lasted its limit, the context that is late is in overrun and is recorded. A pulse ends. -/
def Obligations.TicksAndPulses : Prop :=
  ∀ (s : State), Bound s →
    let st := getF s Reg.tb_TB_STATE_STATE
    let k := tbWicket s + 1
    let l := trigLatch s
    let pol := fun (u : State) (n : Nat) => trigF u (Reg.trig_TRIG_OUT_CFG_POL n) == 1
    (∀ held, tbRuns s = true → s.admTick = tbWicket s → pendingCtxs s = [] → (st ≠ 0 ∨ startSrc s = 0 ∨ startSrc s = 3) →
      ∃ t, exec (.tick held) s = .next t ∧ tbWicket t = k % 2 ^ 64 ∧ getF t Reg.tb_TB_STATE_STATE = 1 ∧
        (st = 2 → getF t Reg.tb_STEP_STRETCH_VALUE = min held (2 ^ 32 - 1) ∧ isSet t Reg.tb_TB_EVENTS_STRETCH = true) ∧
        (st ≠ 2 → getF t Reg.tb_STEP_STRETCH_VALUE = getF s Reg.tb_STEP_STRETCH_VALUE) ∧
        (∀ n, n < 8 → bitN t.pins.trigOut n = (bitN t.trigActive n != pol l n)) ∧
        (∀ n, n < 8 → dueFor s n k ≠ [] → trigCfg l n = true → pulseHeld l n k = false → bitN s.trigActive n = false →
          bitN t.trigActive n = true ∧ tget 0 n t.trigLast = k ∧
          getF t (Reg.trig_TRIG_PULSES_COUNT n) = min (getF s (Reg.trig_TRIG_PULSES_COUNT n) + 1) (2 ^ 32 - 1))) ∧
    (∀ n, n < 8 → ∃ t, exec (.pulseEnd n) s = .next t ∧ bitN t.trigActive n = false ∧ t.csr = s.csr ∧ t.mem = s.mem ∧
      (∀ m, m ≠ n → bitN t.trigActive m = bitN s.trigActive m) ∧
      (∀ m, m < 8 → bitN t.pins.trigOut m = (bitN t.trigActive m != pol s m))) ∧
    (blkEnabled s Reg.tb_BLK_CTRL = true → st = 1 → pendingCtxs s ≠ [] →
      ∃ t, exec .tickHold s = .next t ∧ getF t Reg.tb_TB_STATE_STATE = 2 ∧ CsrKept [Reg.tb_TB_STATE_STATE] s t ∧ t.mem = s.mem) ∧
    (st = 2 → ∃ t, exec .stepSlipExpiry s = .next t ∧ isSet t Reg.tb_TB_EVENTS_OVERRUN = true ∧
      (∀ c, (pendingCtxs s).filter (fun c => dState s c == stRunning) = [c] → c < 65536 → dState t c = stOverrun ∧
        (isSet s Reg.tb_OVERRUN_CTX_VALID = false → isSet t Reg.tb_OVERRUN_CTX_VALID = true ∧ getF t Reg.tb_OVERRUN_CTX_CTX = c)))

/-- R205, R207, R208, R211-R216, R547: an event that passes the checks is counted, numbered, journaled for a protected context, and
injected or held; one that fails a check is counted and recorded in the refusal ring where that has room, once its channel takes the
write. A held event whose wicket is released is injected. A tick at admission control closes the steps before it. A step that is
closed and delivered is contributed; contributions add up to the completion of the step; what carries a context that does not run,
or whose recovery has not reached replay, is discarded. -/
def Obligations.AdmissionControl : Prop :=
  ∀ (s : State), Bound s →
    (∀ source w step org, s.admIn.find? (isFrom source) = some (.event source w step org) → (∀ i ∈ s.admIn, ∃ f v m o, i = .event f v m o) →
      let ctx := evCtx w
      let n := admStep s ctx step
      descLost s ctx = false →
      (admReason s ctx step = none → ∃ t, exec (.admissionEvent source) s = .next t ∧ t.admIn = s.admIn.eraseP (isFrom source) ∧
        getF t Reg.adm_ADM_ACCEPTED_COUNT = (getF s Reg.adm_ADM_ACCEPTED_COUNT + 1) % 2 ^ 64 ∧ dIseq t ctx = (dIseq s ctx + 1) % 2 ^ 64 ∧
        tget 0 n (ctxRun t ctx).counts = tget 0 n (ctxRun s ctx).counts + 1 ∧
        (dProt s ctx = true → t.journal = s.journal ++ [⟨ctx, n, false, (routedWord s ctx w).toNat, dIseq s ctx⟩]) ∧
        (dProt s ctx = false → t.journal = s.journal) ∧
        (dRecovering s ctx = false → mustHold s ctx n = true → t.hold = s.hold ++ [⟨ctx, n, source, routedWord s ctx w, w, org⟩]) ∧
        (dRecovering s ctx = false → mustHold s ctx n = false → entryPort s ctx (routedWord s ctx w) ≠ none →
          let older := takeLead (mayGo s) ctx s.hold
          t.hold = older.2 ∧ ∃ sent q, t.fab.waiting = s.fab.waiting ++ sent ++ [q] ∧
            sent.map (·.data) = older.1.map (·.word.toNat) ∧ q.data = (routedWord s ctx w).toNat ∧ q.step = n ∧ q.raw = w.toNat)) ∧
      (∀ r, admReason s ctx step = some r → org = none →
        let prod := getF s Reg.adm_ADM_RING_PROD_PROD
        let size := 256 * 2 ^ getF s Reg.adm_ADM_CFG_RING_LOG2
        let a := getF s Reg.adm_ADM_RING_BASE_BASE * 4096 + 16 * (prod % size)
        let room := sub32 prod (getF s Reg.adm_ADM_RING_CONS_CONS) < size
        ∃ t, exec (.admissionEvent source) s = .next t ∧ t.fab = s.fab ∧ t.hold = s.hold ∧
          getF t Reg.adm_ADM_REFUSED_COUNT = (getF s Reg.adm_ADM_REFUSED_COUNT + 1) % 2 ^ 64 ∧ isSet t Reg.adm_ADM_EVENTS_REFUSED = true ∧
          let waits := ringWaits s false (getF s Reg.adm_ADM_RING_BASE_BASE * 4096) size Reg.adm_ADM_RING_PROD_PROD
          (waits = true → t.ringIn = s.ringIn ++ [⟨false, admHeader r source 0 ctx n, w.toNat⟩] ∧
            getF t Reg.adm_ADM_RING_PROD_PROD = prod) ∧
          (waits = false → room → mainTakes s a 16 = true → (∀ x ∈ mainJudged a (.write (toBytes 0 16)), eccAt s x ≠ 2) →
            rdNum t a 16 = admHeader r source 0 ctx n + w.toNat * 2 ^ 64 ∧ getF t Reg.adm_ADM_RING_PROD_PROD = (prod + 1) % 2 ^ 32) ∧
          (waits = false → ¬room → isSet t Reg.adm_ADM_EVENTS_RING_OVERFLOW = true ∧ getF t Reg.adm_ADM_RING_PROD_PROD = prod))) ∧
    (s.admTick < tbWicket s → ∃ t, exec .tickAtAdmission s = .next t ∧ t.admTick = tbWicket s ∧ t.mem = s.mem ∧ t.csr = s.csr ∧
      ∀ c ∈ ctxList s, inHold s c = true → dMarked s c = false → dStart s c < tbWicket s →
        (ctxRun t c).closed = max (ctxRun s c).closed (tbWicket s - dStart s c)) ∧
    (∀ ctx h, s.hold.find? (fun h => h.ctx == ctx) = some h → mayGo s h = true →
      ∃ t, exec (.holdInject ctx) s = .next t ∧ t.hold = s.hold.erase h ∧ t.mem = s.mem ∧ t.csr = s.csr ∧
        ∃ q, t.fab.waiting = s.fab.waiting ++ [q] ∧ q.data = h.word.toNat ∧ q.step = h.step ∧ q.engine = h.source) ∧
    (∀ ctx, let n := (ctxRun s ctx).admDone
      running s ctx = true → blkEnabled s Reg.adm_BLK_CTRL = true → n < (ctxRun s ctx).closed → stepDelivered s ctx n = true →
      (dRecovering s ctx = true → n < (ctxRun s ctx).replayed) →
      ∃ t, exec (.admissionStepDone ctx) s = .next t ∧ t.contribs = s.contribs ++ [⟨ctx, n⟩] ∧ (ctxRun t ctx).admDone = n + 1 ∧
        t.mem = s.mem ∧ t.csr = s.csr) ∧
    (∀ k rest, s.contribs = k :: rest →
      let sum := (tget 0 (sumKey k.ctx k.step) s.sums + 1) % 2 ^ 11
      (sum ≠ dContrib s k.ctx → ∃ t, exec .stepDoneCombine s = .next t ∧ t.contribs = rest ∧ tget 0 (sumKey k.ctx k.step) t.sums = sum ∧
        t.mem = s.mem ∧ t.csr = s.csr ∧ t.ctxs = s.ctxs) ∧
      (sum = dContrib s k.ctx → k.step % 4 = (ctxRun s k.ctx).complete % 4 →
        ∃ t, exec .stepDoneCombine s = .next t ∧ t.contribs = rest ∧ (ctxRun t k.ctx).complete = (ctxRun s k.ctx).complete + 1 ∧
          tget 0 (sumKey k.ctx k.step) t.sums = 0)) ∧
    (∀ ctx, (running s ctx = false ∨ (dRecovering s ctx = true ∧ (ctxRun s ctx).replay = none)) →
      ∃ t, exec (.contributionsDiscard ctx) s = .next t ∧ (∀ k ∈ t.contribs, k.ctx ≠ ctx) ∧
      (∀ n, tget 0 (sumKey ctx n) t.sums = 0) ∧
      (∀ k ∈ s.contribs, k.ctx ≠ ctx → k ∈ t.contribs) ∧ t.mem = s.mem ∧ t.csr = s.csr)

/-- R216, R328, R375, R253: a consumer index takes a value that lies between it and the producer's; another value changes nothing
and is reported. R216: a refusal that a core has returned is recorded and counted. R18, R323-R329: a result event of a context in
use joins the Collector's entries with the lowest step that is not complete; a record that may be written stands at the producer's
place in its ring, or in the mirror of a ring that has switched, PROD moves past it, and the event's record is gone; a read of a
latest result answers the word and clears FRESH, but where an update falls in the same cycle. -/
def Obligations.ResultsRecordsAndRefusalRings : Prop :=
 (∀ (s : State) (p : Party) (v : Word), Bound s →
    let sets := fun (i : Instr) (prod cons : FieldRef) (addr : Nat) (bad : State → Prop) => csrOk s p addr true = true →
      (consOk (getF s prod) (getF s cons) v.toNat = true →
        ∃ t, exec i s = .next t ∧ getF t cons = v.toNat ∧ CsrKept [cons] s t ∧ t.mem = s.mem) ∧
      (consOk (getF s prod) (getF s cons) v.toNat = false →
        ∃ t, exec i s = .next t ∧ getF t cons = getF s cons ∧ bad t ∧ t.mem = s.mem)
    sets (.admRingConsWrite p v) Reg.adm_ADM_RING_PROD_PROD Reg.adm_ADM_RING_CONS_CONS Reg.adm_ADM_RING_CONS
      (fun t => isSet t Reg.adm_ADM_EVENTS_CONS_ERR = true) ∧
    (∀ r, r < 256 → sets (.ocrConsWrite p r v) (Reg.oc_OCR_PROD_PROD r) (Reg.oc_OCR_CONS_CONS r) (Reg.oc_OCR_CONS r)
      (fun t => (getF t Reg.oc_OC_EVENTS_EVENTS).testBit 0 = true)) ∧
    (∀ b, b < 64 → sets (.refRingConsWrite p b v) (Reg.bdu_REF_RING_PROD_PROD b) (Reg.bdu_REF_RING_CONS_CONS b) (Reg.bdu_REF_RING_CONS b)
      (fun t => isSet t (Reg.bdu_BDU_EVENTS_CONS_ERR b) = true)) ∧
    sets (.aetRefConsWrite p v) Reg.aet_AET_REF_PROD_PROD Reg.aet_AET_REF_CONS_CONS Reg.aet_AET_REF_CONS
      (fun t => (getF t Reg.aet_AET_EVENTS_EVENTS).testBit 5 = true) ∧
    (∀ b rest q, s.admRefused = b :: rest → refusedPkt s b = some q → q.ty ≠ .qsend → descLost s (evCtx (BitVec.ofNat 64 q.data)) = false →
      ∃ t, exec .deliveryRefused s = .next t ∧ t.admRefused = rest ∧
        getF t Reg.adm_ADM_REFUSED_COUNT = (getF s Reg.adm_ADM_REFUSED_COUNT + 1) % 2 ^ 64 ∧ isSet t Reg.adm_ADM_EVENTS_REFUSED = true)) ∧
  (∀ (s : State) (p : Party), Bound s →
    (∀ port a rest, takeArrivalBy (fun a => decide (evAxon (BitVec.ofNat 64 a.pkt.data) < 0xF800)) (portIn s (chipPorts.getD port 0)) =
        some (a, rest) → collectorLoad s < 16384 → evCtx (BitVec.ofNat 64 a.pkt.data) ∈ ctxList s →
      let w := BitVec.ofNat 64 a.pkt.data
      ∃ t, exec (.resultEvent port) s = .next t ∧ portIn t (chipPorts.getD port 0) = rest ∧ t.mem = s.mem ∧ t.csr = s.csr ∧
        t.results = s.results ++ [⟨evCtx w, (ctxRun s (evCtx w)).complete, evAxon w - 0xF000, evPay w, evKind w, epRouter a.pkt.src⟩]) ∧
    (∀ o, s.records.find? (fun o => ringHead s.records o && fateOf s o != .waits) = some o → o.ring < 256 → o.ctx < 65536 →
      let r := o.ring
      let a := getF s (Reg.oc_OCR_BASE_BASE r) * 4096 + 16 * (getF s (Reg.oc_OCR_PROD_PROD r) % ocrSize s r)
      let len := (recordBytes o).length
      let m := getF s (Reg.oc_OCR_MIRROR_MIRROR r) * 4096 + 16 * (getF s (Reg.oc_OCR_PROD_PROD r) % ocrSize s r)
      (∀ at', (ocrSwitched s r = false ∧ ocrCfg s r 6 = false ∧ at' = a) ∨ (ocrSwitched s r = true ∧ ocrCfg s r 6 = true ∧ at' = m) →
        fateOf s o = .write (recUnits o) → mainTakes s at' len = true →
        (∀ x ∈ mainJudged at' (.write (recordBytes o)), eccAt s x ≠ 2) →
        (mirrorAt s o.ctx + 64 ≤ at' ∨ at' + len ≤ mirrorAt s o.ctx) →
        ∃ t, exec .outputRecordWrite s = .next t ∧ t.records = s.records.erase o ∧ getBytes t.mem at' len = recordBytes o ∧
          getF t (Reg.oc_OCR_PROD_PROD r) = (getF s (Reg.oc_OCR_PROD_PROD r) + recUnits o) % 2 ^ 32) ∧
      (fateOf s o = .discard → ∃ t, exec .outputRecordWrite s = .next t ∧ t.records = s.records.erase o ∧ t.mem = s.mem ∧
        getF t (Reg.oc_OCR_LOST_LOST r) = (getF s (Reg.oc_OCR_LOST_LOST r) + 1) % 2 ^ 32) ∧
      (fateOf s o = .suppress → ∃ t, exec .outputRecordWrite s = .next t ∧ t.records = s.records.erase o ∧ t.mem = s.mem ∧
        getF t Reg.oc_SUPPRESSED_COUNT_COUNT = min (getF s Reg.oc_SUPPRESSED_COUNT_COUNT + 1) (2 ^ Reg.oc_SUPPRESSED_COUNT_COUNT.width - 1))) ∧
    (∀ ctx hw, ctx < 65536 → csrOk s p (latestAt ctx) false = true →
      ∃ t, exec (.latestResultRead p ctx hw) s = .next t ∧ t.reply = .data (rdWord s (latestAt ctx)).toNat ∧
        isSet t (Reg.latest_LATEST_FRESH (ctx / 256) (ctx % 256)) = hw ∧
        rdWord t (latestAt ctx + 4) = rdWord s (latestAt ctx + 4) ∧ t.mem = s.mem))

/-! ### Dense units and learning (R234-R278) -/

/-- R235, R237, R247, R248, R250-R255: a trigger word that has reached its count joins the layer to the run queue and loses the
count; the write of such a word to a BDU without a clock is kept for it; the layer at the head of the queue runs, and a NEXT layer
that waited takes the place it frees: a failed access and a bad descriptor end it with their status, the latter recorded; a run
leaves in memory what its elements write and counts its multiply-accumulates; the run ends with the completion pair and the next
layer that its descriptor named at the start; a refusal that has come back is counted and recorded. -/
def Obligations.DenseUnits : Prop :=
  ∀ (s : State) (b : Nat), Bound s → (∀ w, eccAt s w = 0) →
    let k := bduOf s b
    (bduUp s b = true → ∀ addr l cnt v, k.watch.find? (fun w => w.2.1 == addr) = some (l, addr, cnt) → bduRead b addr 4 s = (some v, s) →
      let a := viewBase + viewOff s.variant b addr
      (cnt ≤ v → k.queue.length < 64 → ∃ t, exec (.triggerWordWrite b addr) s = .next t ∧ (bduOf t b).queue = k.queue ++ [l] ∧
        MemKept a 4 s t ∧ (sliceAllows s b (.bdu b) true = true → (sliceOf s.variant (viewOff s.variant b addr)).1 = b →
          inCtt s (viewOff s.variant b addr) 4 = false → rdNum t a 4 = v - cnt)) ∧
      (v < cnt → ∃ t, exec (.triggerWordWrite b addr) s = .next t ∧ (bduOf t b).queue = k.queue ∧ t.mem = s.mem) ∧
      (watched s b = [addr] → ∃ t, exec (.triggerRecheck b) s = .next t ∧ exec (.triggerWordWrite b addr) s = .next t)) ∧
    (∀ addr, bduOn s b = true → blockClocked s b = false → addr ∈ watched s b → b < 64 →
      ∃ t, exec (.triggerWordWrite b addr) s = .next t ∧ (bduOf t b).held = k.held.filter (· != addr) ++ [addr] ∧
        (bduOf t b).queue = k.queue ∧ t.mem = s.mem) ∧
    (∀ l rest, k.queue = l :: rest → k.run = none → bduUp s b = true →
      let run := tget 0 l k.runs + 1
      let s0 := takeLayer b l run s
      let ends := fun (t : State) (status : Nat) (r : BduRun) => (bduOf t b).queue = rest ++ k.next.toList ∧ (bduOf t b).next = none ∧
        (bduOf t b).run = some { r with status := status }
      ((bduRead b (layerAt s b l) 64 s0).1 = none → ∃ t, exec (.layerRun b) s = .next t ∧ ends t 2 (startLost l run s0) ∧
        isSet t (Reg.bdu_BDU_EVENTS_ECC b) = true ∧ t.mem = s.mem) ∧
      (∀ d rs, bduRead b (layerAt s b l) 64 s0 = (some d, s0) → readRescale b d s0 = (some rs, s0) →
        (∀ cse, badCase s0 b d (rs.map (·.zo)) = some cse → ∃ t, exec (.layerRun b) s = .next t ∧ ends t 1 (startOf l run d) ∧ t.mem = s.mem ∧
          isSet t (Reg.bdu_BDU_EVENTS_BAD_DESC b) = true ∧
          (isSet s (Reg.bdu_BDU_FAULT_INFO_VALID b) = false → isSet t (Reg.bdu_BDU_FAULT_INFO_VALID b) = true ∧
            getF t (Reg.bdu_BDU_FAULT_INFO_CASE b) = cse)) ∧
        (badCase s0 b d (rs.map (·.zo)) = none →
          let r := (List.range (outElems d)).foldl (runElem b d run rs) { st := s0 }
          ∃ t, exec (.layerRun b) s = .next t ∧ t.mem = r.st.mem ∧
            (bduOf t b).run = some { startOf l run d with status := if r.failed then 2 else 0, events := r.events } ∧
            (r.failed = true → isSet t (Reg.bdu_BDU_EVENTS_ECC b) = true) ∧
            getF t (Reg.bdu_MAC_COUNT_COUNT b) = (getF r.st (Reg.bdu_MAC_COUNT_COUNT b) + r.macs) % 2 ^ 64))) ∧
    (∀ r, k.run = some r → bduUp s b = true → bduDelivered s b = true →
      ∃ t q, exec (.runEnd b) s = .next t ∧ (bduOf t b).run = none ∧
        (bduOf t b).queue = k.queue ++ (if k.queue.length < 64 then r.next.toList else []) ∧
        (∀ l, r.next = some l → 64 ≤ k.queue.length → (bduOf t b).next = some l) ∧
        t.fab.waiting = s.fab.waiting ++ [q] ∧ q.ty = .qsend ∧ q.ext = r.doneQ ∧ q.dst = 4 * (r.doneQ / 64) ∧ q.epoch = r.doneEpoch ∧
        q.data = r.layer % 64 + r.status * 2 ^ 6 + r.events % 2 ^ 16 * 2 ^ 16 + r.run % 2 ^ 32 * 2 ^ 32 ∧ t.mem = s.mem) ∧
    (∀ x, s.bduRefused.find? (fun r => r.src == bduEp b) = some x → b < 64 →
      ∃ t, exec (.bduRefusal b) s = .next t ∧ t.bduRefused = s.bduRefused.erase x ∧ isSet t (Reg.bdu_BDU_EVENTS_REFUSED b) = true ∧
        getF t (Reg.bdu_REFUSED_COUNT_COUNT b) = min (getF s (Reg.bdu_REFUSED_COUNT_COUNT b) + 1)
          (2 ^ (Reg.bdu_REFUSED_COUNT_COUNT b).width - 1))

/-- R259-R278: the PE takes the oldest postsynaptic record, adds its increment to the neuron's trace, saturating, and keeps the
record for a batch; and the oldest presynaptic one, when its step's update is finished. A boundary that every slot of the set has
reached starts, and when the events that arrived before it are done, and no drain holds the way to the slices, it runs: a failed
slice read stops it and the core; otherwise the weights are as the sequence leaves them, and the boundary ends at once where no
engine binds INNINGS. A whole write of LRN_MOD_SET is pending from its step; a learning-set word is written only while the core is
quiescent. -/
def Obligations.Learning : Prop :=
  ∀ (s : State) (p : Party) (c i : Nat), Bound s → c < 1024 → i < 4 →
    (∀ r rest, (core s c).post = r :: rest → engUp s c 3 = true → WordsClean s c [recClassWord s c r.neuron] →
      let neuron := recAddr s c r.neuron
      ∃ t, exec (.postRecord c) s = .next t ∧ (core t c).post = rest ∧ (core t c).postReady = (core s c).postReady ++ [r] ∧ t.csr = s.csr ∧
        MemKept (neuron + (if compact s c then 6 else 10)) 2 s t ∧
        (∀ k, tracingSet s c r.slot = some k → (readRec t c r.neuron).trace =
          min ((readRec s c r.neuron).trace + getF s (Reg.pe_LSET_INC_POST c k) * firePay r) 65535) ∧
        (tracingSet s c r.slot = none → t.mem = s.mem)) ∧
    (∀ r rest, (core s c).pre = r :: rest → engUp s c 3 = true → preDue s c r = true →
      (∀ k o, tracingSet s c r.slot = some k → preOff s c k r.slot r.axon = some o → WordsClean s c (storeWords o 2)) →
      ∃ t, exec (.preRecord c) s = .next t ∧ (core t c).pre = rest ∧ (core t c).preReady = (core s c).preReady ++ [r] ∧ t.csr = s.csr ∧
        (∀ k o, tracingSet s c r.slot = some k → preOff s c k r.slot r.axon = some o →
          rdNum t (coreBase c + o) 2 = min (rdNum s (coreBase c + o) 2 + getF s (Reg.pe_LSET_INC_PRE c k) * r.pay) 65535 ∧
          MemKept (coreBase c + o) 2 s t)) ∧
    (learnOn s c = true → (core s c).applying = none → (core s c).stopped = false →
      (List.range 4).find? (fun j => (boundaryDue s c j).isSome) = some i →
      let before := (tfind i (core s c).dueIn).getD (core s c).ingress.length
      before ≠ 0 →
      ∃ t, exec (.inningsBoundary c i) s = .next t ∧ (core t c).applying = some i ∧ (core t c).applyIn = before ∧ isSet t (Reg.pe_LRN_STATUS_APPLYING c) = true ∧
        getF t (Reg.pe_LRN_STATUS_SET c) = i ∧ t.mem = s.mem) ∧
    (let s1 := boundaryStart c s
     engUp s1 c 3 = true → (core s1 c).applying = some i → (core s1 c).applied = false → (core s1 c).stopped = false →
      intakeDone s1 c i = true → drainsAny s1 = false →
      let m := (core s1 c).applyInn
      let slots := workSlots s1 c i
      let u := applySet c i s1
      (u.1 = false → (eng u.2 c 3).st ≠ .halted → ∃ t, exec (.inningsBoundary c i) s = .next t ∧
        isSet t (Reg.pe_LRN_EVENTS_APPLY_ABORT c) = true ∧ (core t c).stopped = true ∧ (core t c).applying = none ∧ t.mem = u.2.mem) ∧
      (u.1 = true → ∃ t, exec (.inningsBoundary c i) s = .next t ∧ t.mem = u.2.mem) ∧
      (getF s1 (Reg.pe_LSET_APPLY c i) = 1 → inningsQuiet s1 c = true → (∀ e, handlerBound s1 c e 7 = false) →
        ∃ t, exec (.inningsBoundary c i) s = .next t ∧ (core t c).applying ≠ some i ∧ (∀ k ∈ setSlots s1 c i, boundaryOf t c i k = none) ∧
          isSet t (Reg.pe_LRN_STATUS_APPLYING c) = (core t c).applying.isSome ∧
          getF t (Reg.pe_INNINGS_DONE_COUNT c i) = (getF s (Reg.pe_INNINGS_DONE_COUNT c i) + 1) % 2 ^ 32 ∧ t.mem = s.mem) ∧
      (∀ e, e = 1 ∨ e = 3 ∨ e = 5 → getF s1 (Reg.pe_LSET_APPLY c i) = 1 → handlerBound s1 c e 7 = true → slots ≠ [] →
        ∃ t, exec (.inningsBoundary c i) s = .next t ∧ (core t c).applying = some i ∧
          (eng t c e).happen.map (fun h => (h.kind, h.slot, h.s2)) = (eng s c e).happen.map (fun h => (h.kind, h.slot, h.s2)) ++
            slots.map (fun k => (7, k, BitVec.ofNat 32 m)))) ∧
    (∀ b blk pk w lo hi, csrOk s p (Reg.pe_LRN_MOD_SET c + 4) true = true → csrAt (Reg.pe_LRN_MOD_SET c) = .word b blk pk w →
      heldFor s p blk (Reg.pe_LRN_MOD_SET c) = some lo →
      (rdWord s (Reg.pe_LRN_MOD_SET c) ^^^ lo) &&& rsvMask w.row w.idx = 0 → lo.toNat / 2 ^ 16 % 512 < 256 →
      ∃ t, exec (.lrnModSetWrite p c hi) s = .next t ∧ t.csr = s.csr ∧ t.mem = s.mem ∧
        tfind (lo.toNat / 2 ^ 16 % 512) (core t c).modPend = some (lo.toNat % 2 ^ 16, some hi.toNat)) ∧
    (∀ w v, w < 8 → csrOk s p (Reg.pe_LSET c i + 4 * w) true = true →
      let a := Reg.pe_LSET c i + 4 * w
      (∀ b blk wa, csrAt a = .word b blk false wa → quiescent s c = true → (rdWord s a ^^^ v) &&& rsvMask wa.row wa.idx = 0 →
        ∃ t, exec (.lsetWrite p c i w v) s = .next t ∧ rdWord t a = v ∧ CsrKept [⟨a, 0, 32⟩] s t ∧ t.mem = s.mem) ∧
      (quiescent s c = false → ∃ t, exec (.lsetWrite p c i w v) s = .next t ∧ isSet t (Reg.pe_LRN_EVENTS_CFG_BUSY c) = true ∧
        CsrKept [Reg.pe_LRN_EVENTS_CFG_BUSY c] s t ∧ t.mem = s.mem))

/-! ### Converter links, the signal encoder front, the Event Ingress Port and triggers (R279-R309, R312) -/

/-- R285-R299: bring-up of a link and what ends it. Lanes lock, and with the last of them the link waits for alignment; alignment
releases JESD_SYNC_N; with the LEMC phase locked the link comes UP; an elastic buffer overflow and a lost lane restart it with their
events; a CRC error is counted. An edge of SYSREF is seen and, in continuous mode, sets the phase; in one-shot mode it does so once
after SYSREF_ARM. On a link that is UP, a value is taken when the samples are there and the window is open; the window's end forms
the events; an event is released in order to admission control. -/
def Obligations.ConverterLinks : Prop :=
  ∀ (s : State) (p : Party) (l : Nat), Bound s → l < 8 →
    let on := linkOn s l = true
    let down := fun (t : State) => lkState t l = 1 ∧ getF t (Reg.link_LINK_STATUS_LANE_LOCK l) = 0 ∧ (link t l).aligned = false ∧
      (link t l).hist = [] ∧ (link t l).encs = [] ∧ (link t l).out = (link s l).out ∧ (lkB s l = true → bitN t.pins.syncLow l = true)
    let up1 := fun (f : FieldRef) (t : State) => getF t f = min (getF s f + 1) (2 ^ f.width - 1)
    (∀ lane, on → lkState s l = 1 → lane < lkL s l → lane < 12 → lkLane s l lane < 24 →
      ∃ t, exec (.laneLock l lane) s = .next t ∧
        getF t (Reg.link_LINK_STATUS_LANE_LOCK l) = getF s (Reg.link_LINK_STATUS_LANE_LOCK l) ||| 2 ^ lane ∧
        isSet t ⟨Reg.jesd_LANE_LOCK, lkLane s l lane, 1⟩ = true ∧ t.mem = s.mem ∧
        lkState t l = if getF s (Reg.link_LINK_STATUS_LANE_LOCK l) ||| 2 ^ lane = 2 ^ lkL s l - 1 then 2 else 1) ∧
    (∀ ok, on → lkState s l = 2 → (lkB s l = false ∨ isSet s Reg.jesd_SYSREF_STATUS_LOCKED = true) →
      ∃ t, exec (.linkAlign l ok) s = .next t ∧ (link t l).aligned = true ∧ bitN t.pins.syncLow l = false ∧
      (lkB s l = true → ok = false → isSet t (Reg.link_LINK_EVENTS_ILAS_MISMATCH l) = true) ∧
      (lkB s l = false ∨ ok = true → t.csr = s.csr)) ∧
    (∀ skew margin, on → lkState s l = 2 → (link s l).aligned = true → isSet s Reg.jesd_SYSREF_STATUS_LOCKED = true →
      ∃ t, exec (.linkUp l skew margin) s = .next t ∧ lkState t l = 3 ∧ getF t (Reg.link_LINK_MARGIN_SKEW l) = min skew 255 ∧
        getF t (Reg.link_LINK_MARGIN_MARGIN l) = min margin 255 ∧ getF t (Reg.link_SEF_TIMING_T_BASE l) = lkTBase s l % 2 ^ 10 ∧
        (link t l).hist = [] ∧ (link t l).encs = []) ∧
    (on → lkState s l = 3 → ∃ t, exec (.bufOvf l) s = .next t ∧ isSet t (Reg.link_LINK_EVENTS_BUF_OVF l) = true ∧ down t) ∧
    (∀ lane, on → bitN (getF s (Reg.link_LINK_STATUS_LANE_LOCK l)) lane = true →
      ∃ t, exec (.laneLockLoss l lane) s = .next t ∧ isSet t (Reg.link_LINK_EVENTS_LINK_DOWN l) = true ∧ down t ∧
        up1 (Reg.link_RESYNC_COUNT_COUNT l) t) ∧
    (on → 2 ≤ lkState s l → ∃ t, exec (.multiblockCrcError l) s = .next t ∧ isSet t (Reg.link_LINK_EVENTS_CRC l) = true ∧
      up1 (Reg.link_CRC_ERR_COUNT_COUNT l) t ∧ lkState t l = lkState s l) ∧
    (let mode := getF s Reg.jesd_SYSREF_CFG_MODE
     let waits := tbRuns s && getF s Reg.tb_TB_STATE_STATE == 0 && startSrc s == 1
     ∀ mis,
      (waits = false → ∃ t, exec (.sysrefEdge mis) s = .next t ∧ isSet t Reg.jesd_SYSREF_STATUS_SEEN = true ∧ t.mem = s.mem ∧
        (isSet s Reg.jesd_SYSREF_STATUS_LOCKED = false → isSet t Reg.jesd_SYSREF_STATUS_LOCKED =
          (mode == 0 || (mode == 1 && s.sysrefArmed))) ∧ (mode = 1 → t.sysrefArmed = false)) ∧
      (waits = true → ∃ t, exec (.sysrefEdge mis) s = .next t ∧ tbWicket t = (tbWicket s + 1) % 2 ^ 64 ∧
        getF t Reg.tb_TB_STATE_STATE = 1)) ∧
    (csrOk s p Reg.jesd_SYSREF_CFG true = true → ∃ t, exec (.sysrefArm p) s = .next t ∧ t.sysrefArmed = true ∧ t.csr = s.csr) ∧
    (∀ samples, on → lkState s l = 3 → isSet s (Reg.link_BLK_CTRL_EN l) = true →
      let h := (link (addSamples l samples (List.range (lkM s l)) (openHist l s)) l).hist
      let need := if lkChan s l then lkTaps s l * lkP s l else 1
      let open' := (link s l).values < lkWin s l ∧ ∀ xs ∈ h, need ≤ xs.length
      (wrongLanes s = 0 → h = (List.range (lkM s l)).map (fun m => (link s l).hist.getD m [] ++ (samples.getD m []).map (sampleOf s l))) ∧
      (¬open' → ∃ t, exec (.channeliserFrame l samples) s = .next t ∧ (link t l).hist = h ∧ (link t l).values = (link s l).values ∧
        t.csr = s.csr) ∧
      (open' → ∃ t, exec (.channeliserFrame l samples) s = .next t ∧ (link t l).hist = h.map (fun xs => xs.drop (lkDec s l)) ∧
        (link t l).values = (link s l).values + 1 ∧ t.mem = s.mem ∧
        (∀ i, validInsts s l = [i] → lkChan s l = false → getF s (Reg.linkInst_INST_ENC l i) = 0 →
          enc t l i = crossing (getF s (Reg.linkInst_INST_P1 l i)) (getF s (Reg.linkInst_INST_P2 l i))
            ((h.getD (getF s (Reg.linkInst_INST_SRC l i)) []).headD 0) (enc s l i)))) ∧
    (on → lkState s l = 3 → (link s l).values = lkWin s l →
      ∃ t, exec (.windowEnd l) s = .next t ∧ (link t l).values = 0 ∧ t.csr = s.csr ∧ t.mem = s.mem ∧
        (∀ i, validInsts s l = [i] → (link t l).out = (link s l).out ++ (windowEvent s l i).1.toList ∧
          enc t l i = (windowEvent s l i).2)) ∧
    (∀ w rest, (link s l).out = w :: rest → ∃ t, exec (.sefRelease l) s = .next t ∧ (link t l).out = rest ∧
      t.admIn = s.admIn ++ [.event l w none none] ∧
      getF t (Reg.link_EVENTS_OUT_COUNT l) = (getF s (Reg.link_EVENTS_OUT_COUNT l) + 1) % 2 ^ 64)

/-- R301-R309: bring-up of the Event Ingress Port; code errors are counted; a sound group with the expected SEQ is held with its
valid words; a bad one is counted, flagged and discarded, and a NAK sent in reliable mode; a group skipped in the other mode is
counted as lost. Held groups are handed on in order, and the back-channel carries the credits, none of a stopping port, and the last
SEQ. An edge of a trigger input is captured with its tick; a forced pulse is requested for the next tick. -/
def Obligations.EventIngress : Prop :=
  ∀ (s : State) (p : Party), Bound s →
    let up1 := fun (f : FieldRef) (t : State) => getF t f = min (getF s f + 1) (2 ^ f.width - 1)
    let noted := fun (n : Nat) (t : State) => getF t Reg.eip_CODE_ERR_COUNT_COUNT =
      min (getF s Reg.eip_CODE_ERR_COUNT_COUNT + n) (2 ^ Reg.eip_CODE_ERR_COUNT_COUNT.width - 1) ∧
      (n ≠ 0 → isSet t Reg.eip_EIP_EVENTS_CODE_ERR = true)
    let due := if isSet s Reg.eip_BLK_CTRL_EN then s.eip.owed else 0
    (eipOn s = true →
      (∀ lane, eipState s = 1 → lane < eipLanes s → lane < 8 → ∃ t, exec (.eipLaneLock lane) s = .next t ∧
        getF t Reg.eip_EIP_STATUS_LANE_LOCK = getF s Reg.eip_EIP_STATUS_LANE_LOCK ||| 2 ^ lane ∧
        eipState t = if getF s Reg.eip_EIP_STATUS_LANE_LOCK ||| 2 ^ lane = 2 ^ eipLanes s - 1 then 2 else 1) ∧
      (eipState s = 2 → isSet s Reg.eip_BLK_CTRL_EN = true → ∃ t, exec .eipAlign s = .next t ∧ eipState t = 3 ∧ (getF t Reg.clk_CLK_STATUS_LOCK).testBit 9 = true ∧
        t.eip.sent = s.eip.sent ++ [⟨64, (s.eip.expect + 255) % 256, 2⟩] ∧ t.eip.owed = 0) ∧
      (∀ errs, 2 ≤ eipState s → ∃ t, exec (.eipLinkDown errs) s = .next t ∧ noted errs t ∧ isSet t Reg.eip_EIP_EVENTS_LINK_DOWN = true ∧ eipState t = 1 ∧
        getF t Reg.eip_EIP_STATUS_LANE_LOCK = 0 ∧ t.eip = s.eip) ∧
      (∃ t, exec .backchannelMessage s = .next t ∧ t.eip.owed = s.eip.owed - due ∧ t.csr = s.csr ∧ t.eip.sent = s.eip.sent ++
        [⟨due, (s.eip.expect + 255) % 256, if eipState s ≠ 3 ∨ isSet s Reg.eip_BLK_CTRL_EN = false then 4 else 0⟩]) ∧
      (eipState s = 3 → s.eip.nak = true → ∃ t, exec .nakRepeat s = .next t ∧ isSet t Reg.eip_EIP_EVENTS_NAK_SENT = true ∧
        up1 Reg.eip_NAK_COUNT_COUNT t ∧ t.eip.sent = s.eip.sent ++ [⟨due, s.eip.expect % 256, 1⟩])) ∧
    (∀ words trailer, eipOn s = true → isSet s Reg.eip_BLK_CTRL_EN = true → eipState s = 3 → words.length = 8 → s.eip.expect < 256 →
      let got := eipUnits words s
      let last := (eipUnit trailer got.2).1
      let good := groupCrc got.1 last = last.toNat % 256
      let seq := bitsN last.toNat 8 8
      let ws := validWords got.1 (bitsN last.toNat 16 8)
      let rel := isSet s Reg.eip_EIP_CFG_RELIABLE
      (eipSwapped s = 0 → got.1 = words ∧ last = trailer) ∧
      (∀ idle, good → s.eip.groups.length < 64 → (seq = s.eip.expect ∨ rel = false) →
        ∃ t, exec (.eipGroup words trailer 0 idle) s = .next t ∧ t.eip.groups = s.eip.groups ++ [ws] ∧
          t.eip.expect = (seq + 1) % 256 ∧ t.eip.nak = false ∧ noted idle t ∧
          getF t Reg.eip_GROUPS_OK_COUNT = (getF s Reg.eip_GROUPS_OK_COUNT + 1) % 2 ^ 64 ∧
          (seq ≠ s.eip.expect → isSet t Reg.eip_EIP_EVENTS_SEQ_GAP = true ∧ getF t Reg.eip_LOST_GROUPS_COUNT_COUNT =
            min (getF s Reg.eip_LOST_GROUPS_COUNT_COUNT + (seq + 256 - s.eip.expect) % 256) (2 ^ 32 - 1))) ∧
      (∀ errs idle, (¬good ∨ errs ≠ 0 ∨ 64 ≤ s.eip.groups.length) → ∃ t, exec (.eipGroup words trailer errs idle) s = .next t ∧
        t.eip.groups = s.eip.groups ∧ t.eip.expect = s.eip.expect ∧ noted (errs + idle) t ∧
        (¬good → isSet t Reg.eip_EIP_EVENTS_CRC = true ∧ up1 Reg.eip_CRC_ERR_COUNT_COUNT t) ∧
        (64 ≤ s.eip.groups.length → isSet t Reg.eip_EIP_EVENTS_OVERFLOW = true) ∧
        (rel = true → t.eip.nak = true ∧ t.eip.sent = s.eip.sent ++ [⟨s.eip.owed + 1, s.eip.expect % 256, 1⟩]) ∧
        (rel = false → t.eip.owed = s.eip.owed + 1))) ∧
    (∀ ws rest, s.eip.groups = ws :: rest → ∃ t, exec .eipHandoff s = .next t ∧ t.eip.groups = rest ∧
      t.admIn = s.admIn ++ ws.map (fun w => .event 8 w none none) ∧
      getF t Reg.eip_WORDS_IN_COUNT = (getF s Reg.eip_WORDS_IN_COUNT + ws.length) % 2 ^ 64) ∧
    (∀ i level ns, i < 4 → bitN s.pins.trigIn i ≠ level → ∃ t, exec (.trigInEdge i level ns) s = .next t ∧ bitN t.pins.trigIn i = level ∧
      (bitN (getF s Reg.trig_TRIG_IN_CFG_EDGE) i = level → t.csr = s.csr) ∧
      (bitN (getF s Reg.trig_TRIG_IN_CFG_EDGE) i ≠ level → (getF t Reg.trig_TRIG_IN_STATUS_NEW).testBit i = true ∧
        getF t (Reg.trig_TRIG_IN_TS_TICK i) = tbWicket s % 2 ^ 34 ∧ getF t (Reg.trig_TRIG_IN_TS_NS i) = min ns (2 ^ 30 - 1))) ∧
    (∀ v : Word, csrOk s p Reg.trig_TRIG_FORCE true = true → (rdWord s Reg.trig_TRIG_FORCE ^^^ v) &&& 0xFFFFFF00#32 = 0 →
      ∃ t, exec (.trigForce p v) s = .next t ∧ t.csr = s.csr ∧
      t.trigReqs = s.trigReqs ++ ((List.range 8).filter (fun n => v.getLsbD n)).map (fun n => ⟨n, tbWicket s + 1, none⟩))

/-! ### Contexts (R317-R322, R480, R549) -/

/-- R319-R322, R480, R549: a command to a controller that is busy, stopping or disabled is flagged and changes nothing else. A
command in a state it may not be given in, or while a region is in P2, ends BAD_STATE, one without an operation BAD_OP; one that
names a context in recovery waits, and is judged when the recovery ends. LOAD writes the descriptor it is given, START sets the
start tick and the counters, PAUSE and RESUME wait for their moment, CLEAR_OVERRUN and DRAIN change the state, CLEAR stops the
context, RESET of a protected one begins its recovery, and FREE gives the context back. -/
def Obligations.ContextCommands : Prop :=
  ∀ (s : State) (p : Party) (ctx : Nat), Bound s → csrOk s p Reg.ctt_CTX_CMD true = true → ctx < 65536 → descLost s ctx = false →
    let st := dState s ctx
    let p2 := (List.range 4).any (fun r => regionPresent s.variant r && regionDown s r)
    let busy := isSet s Reg.ctt_CTX_CMD_STATUS_BUSY = true ∨ blkEnabled s Reg.ctt_BLK_CTRL = false ∨ isSet s Reg.ctt_BLK_CTRL_EN = false
    let done := fun (op res : Nat) (t : State) => isSet t Reg.ctt_CTX_CMD_STATUS_BUSY = false ∧ t.cttCmd = none ∧
      getF t Reg.ctt_CTX_CMD_STATUS_RESULT = res ∧ getF t Reg.ctt_CTX_CMD_STATUS_LAST = op * 2 ^ 16 + ctx ∧
      (getF t Reg.ctt_CTX_EVENTS_EVENTS).testBit 0 = true
    let inWork := fun (op : Nat) (t : State) => isSet t Reg.ctt_CTX_CMD_STATUS_BUSY = true ∧ t.cttCmd = some (op, ctx) ∧ t.cttWaits = false
    let cmds := [(Instr.load p ctx, 1), (.start p ctx, 3), (.pause p ctx, 4), (.resume p ctx, 5), (.clearOverrun p ctx, 6),
      (.drain p ctx, 7), (.reset p ctx, 8), (.clear p ctx, 9), (.free p ctx, 10)]
    (busy → ∀ q ∈ cmds ++ [(.loadImage p ctx, 2), (.ctxCmdBadOp p 0 ctx, 0)], ∃ t, exec q.1 s = .next t ∧
      (getF t Reg.ctt_CTX_EVENTS_EVENTS).testBit 1 = true ∧ CsrKept [Reg.ctt_CTX_EVENTS_EVENTS] s t ∧ t.mem = s.mem ∧ t.ctxs = s.ctxs) ∧
    (¬busy →
      (∀ q ∈ cmds,
        (p2 = true → ∃ t, exec q.1 s = .next t ∧ done q.2 1 t ∧ t.mem = s.mem) ∧
        (p2 = false → dRecovering s ctx = true → ∃ t, exec q.1 s = .next t ∧ t.cttWaits = true ∧ t.cttCmd = some (q.2, ctx) ∧
          isSet t Reg.ctt_CTX_CMD_STATUS_BUSY = true ∧ t.mem = s.mem) ∧
        (p2 = false → dRecovering s ctx = false → fromOk s q.2 ctx = false →
          ∃ t, exec q.1 s = .next t ∧ done q.2 1 t ∧ t.mem = s.mem)) ∧
      (∀ op, op < 16 → op = 0 ∨ 10 < op → ∃ t, exec (.ctxCmdBadOp p op ctx) s = .next t ∧ done op 5 t ∧ t.mem = s.mem) ∧
      (p2 = true → ∃ t, exec (.loadImage p ctx) s = .next t ∧ done 2 1 t ∧ t.mem = s.mem) ∧
      (p2 = false →
        let n := imageCount s
        let first := imageFirst s
        let a := bitsN (cmdArg s) 0 32 * 4096
        let anyBusy := (imageIds s).any (fun c => dState s c != stFree)
        let held := (imageIds s).any (dRecovering s)
        (first + n ≤ 65536 → held = true → ∃ t, exec (.loadImage p ctx) s = .next t ∧ t.cttWaits = true ∧ t.cttCmd = some (2, ctx) ∧
          isSet t Reg.ctt_CTX_CMD_STATUS_BUSY = true ∧ t.mem = s.mem) ∧
        (first + n ≤ 65536 → held = false → anyBusy = true → ∃ t, exec (.loadImage p ctx) s = .next t ∧ done 2 1 t ∧ t.mem = s.mem) ∧
        (65536 < first + n → ∃ t, exec (.loadImage p ctx) s = .next t ∧ done 2 2 t ∧ t.mem = s.mem) ∧
        (first + n ≤ 65536 → held = false → anyBusy = false → mainTakes s a (64 * n + 8) = false →
          ∃ t, exec (.loadImage p ctx) s = .next t ∧ done 2 2 t ∧ t.mem = s.mem) ∧
        (first + n ≤ 65536 → held = false → anyBusy = false → mainTakes s a (64 * n + 8) = true → mainWaits s a (64 * n + 8) = false →
          (∀ w, eccAt s w ≠ 2) →
          (crc32c (getBytes s.mem a (64 * n + 4)) ≠ rdNum s (a + 64 * n + 4) 4 → ∃ t, exec (.loadImage p ctx) s = .next t ∧
            done 2 3 t ∧ (getF t Reg.ctt_CTX_EVENTS_EVENTS).testBit 4 = true ∧ t.mem = s.mem) ∧
          (crc32c (getBytes s.mem a (64 * n + 4)) = rdNum s (a + 64 * n + 4) 4 →
            (∀ i, i < n → descOk s (first + i) (rdNum s (a + 64 * i) 64) = true) →
            ∃ t, exec (.loadImage p ctx) s = .next t ∧ done 2 0 t ∧ ∀ i, i < n → dState t (first + i) = stLoaded))) ∧
      (p2 = false → dRecovering s ctx = false →
        (st = stFree →
          let d := stagedDesc s
          (descOk s ctx d = true → ∃ t, exec (.load p ctx) s = .next t ∧ done 1 0 t ∧ dState t ctx = stLoaded ∧ ctx ∈ ctxList t ∧
            dK t ctx = bitsN d 24 12 + 1 ∧ dProt t ctx = bitN d 3 ∧ dContrib t ctx = bitsN d 48 11 ∧ dStart t ctx = bitsN d 64 64 ∧
            dBudget t ctx = bitsN d 128 32 ∧ dIseq t ctx = 0 ∧ dOseq t ctx = 0 ∧ dResult t ctx = 0 ∧ ctxRun t ctx = {}) ∧
          (descOk s ctx d = false → ∃ t, exec (.load p ctx) s = .next t ∧ done 1 2 t ∧ t.mem = s.mem)) ∧
        (st = stLoaded →
          let bad := dProt s ctx && (!dRingEn s ctx || !ocrCfg s (dRing s ctx) 6)
          (bad = true → ∃ t, exec (.start p ctx) s = .next t ∧ done 3 2 t ∧ t.mem = s.mem) ∧
          (bad = false → ∃ t, exec (.start p ctx) s = .next t ∧ done 3 0 t ∧ dState t ctx = stRunning ∧
            dStart t ctx = (if tbWicket s < cmdArg s then cmdArg s else tbWicket s + 1) % 2 ^ 64 ∧ (ctxRun t ctx).released = 0 ∧
            (ctxRun t ctx).complete = 0 ∧ (ctxRun t ctx).limit = none ∧ ∀ k ∈ t.contribs, k.ctx ≠ ctx)) ∧
        ((st = stRunning ∨ st = stOverrun) → ∃ t, exec (.pause p ctx) s = .next t ∧ inWork 4 t ∧ (ctxRun t ctx).shut = true ∧
          (ctxRun t ctx).limit = some (pauseLimit s ctx) ∧ t.mem = s.mem) ∧
        (st = stPaused → ∃ t, exec (.resume p ctx) s = .next t ∧ inWork 5 t ∧ (ctxRun t ctx).resuming = true ∧ t.mem = s.mem) ∧
        (st = stOverrun → ∃ t, exec (.clearOverrun p ctx) s = .next t ∧ done 6 0 t ∧ dState t ctx = stRunning) ∧
        ((st = stRunning ∨ st = stOverrun) →
          (cmdArg s % 2 ^ 16 = 0 → ∃ t, exec (.drain p ctx) s = .next t ∧ done 7 2 t ∧ t.mem = s.mem) ∧
          (cmdArg s % 2 ^ 16 ≠ 0 → ∃ t, exec (.drain p ctx) s = .next t ∧ done 7 0 t ∧ dState t ctx = stDraining ∧
            (ctxRun t ctx).shut = true ∧ (ctxRun t ctx).limit = some ((ctxRun s ctx).released + cmdArg s % 2 ^ 16))) ∧
        (fromOk s 8 ctx = true → dProt s ctx = true →
          (dCkptValid s ctx = 0 → ∃ t, exec (.reset p ctx) s = .next t ∧ done 8 4 t ∧ t.mem = s.mem) ∧
          (dCkptValid s ctx ≠ 0 → ∃ t, exec (.reset p ctx) s = .next t ∧ done 8 0 t ∧ dRecovering t ctx = true ∧
            t.recovs = (leaveRecov ctx s).recovs ++ [⟨[ctx], [], false⟩] ∧ (∀ h ∈ t.hold, h.ctx ≠ ctx) ∧ ∀ k ∈ t.contribs, k.ctx ≠ ctx)) ∧
        (∀ q ∈ [(Instr.clear p ctx, 9), (.reset p ctx, 8)], fromOk s q.2 ctx = true → (q.2 = 8 → dProt s ctx = false) →
          ∃ t, exec q.1 s = .next t ∧ inWork q.2 t ∧ (∀ k ∈ slotsOf s ctx, slotState t k.1 k.2 = stFaulted) ∧ (ctxRun t ctx).clearing = true ∧
            (ctxRun t ctx).shut = true ∧ (running s ctx = true → ∀ h ∈ t.hold, h.ctx ≠ ctx)) ∧
        ((st = stLoaded ∨ st = stFaulted) → ∃ t, exec (.free p ctx) s = .next t ∧ done 10 0 t ∧ dState t ctx = stFree ∧ ctx ∉ ctxList t)))

/-- R317-R322, R549, R43: a field update changes its field, in an enabled block and in one that is not. A PAUSE ends when its last
step is complete, a DRAIN likewise in LOADED; the zeroing of a CLEAR, when no item of the context is in flight, zeroes its neurons
and the descriptor's counters and ends the command; a command that has waited for a recovery is then judged. With CKPT_VALID,
JRN_TAIL follows. -/
def Obligations.ContextProgress : Prop :=
  ∀ (s : State) (ctx : Nat), Bound s → ctx < 65536 → descLost s ctx = false →
    let done := fun (res : Nat) (t : State) => isSet t Reg.ctt_CTX_CMD_STATUS_BUSY = false ∧ t.cttCmd = none ∧
      getF t Reg.ctt_CTX_CMD_STATUS_RESULT = res ∧ (getF t Reg.ctt_CTX_EVENTS_EVENTS).testBit 0 = true
    let ended := ∃ n, (ctxRun s ctx).limit = some n ∧ n ≤ (ctxRun s ctx).complete
    ((∀ v : Nat, ∀ q ∈ [(FieldUpdate.startAt v, 64, 64, v), (.fault v, 10, 3, v), (.iseq v, 192, 64, v), (.refusals v, 384, 32, v),
          (.oseq v, 256, 32, v), (.oseqHigh v, 288, 32, v), (.trigStep v, 416, 32, v), (.result v, 448, 64, v), (.ckptNew v, 7, 1, v),
          (.ckptValid v, 8, 2, v), (.recovering (v == 1), 4, 1, bnat (v == 1))],
        ∃ t, exec (.descriptorFieldUpdate ctx q.1) s = .next t ∧ dGet t ctx q.2.1 q.2.2.1 = q.2.2.2 % 2 ^ q.2.2.1 ∧
          ((∀ w, eccAt s w = 0) → CsrKept [Reg.jrn_JRN_TAIL_INDEX] s t ∧ (q.2.1 ≠ 8 → t.csr = s.csr)) ∧
          ∀ lo w, (lo + w ≤ q.2.1 ∨ q.2.1 + q.2.2.1 ≤ lo) → lo + w ≤ 512 → dGet t ctx lo w = dGet s ctx lo w) ∧
      (∃ t, exec (.descriptorFieldUpdate ctx (.state stFaulted)) s = .next t ∧ dState t ctx = stFaulted ∧
        (getF t Reg.ctt_CTX_EVENTS_EVENTS).testBit 2 = true) ∧
      (dState s ctx = stRunning → ∃ t, exec (.descriptorFieldUpdate ctx (.state stOverrun)) s = .next t ∧ dState t ctx = stOverrun)) ∧
    ((dState s ctx = stRunning ∨ dState s ctx = stOverrun) → dRecovering s ctx = false → ended →
      (∀ c ∈ coresOfCtx s ctx, (core s c).applying = none) → inHand s 4 ctx = true →
      ∃ t, exec (.pauseComplete ctx) s = .next t ∧ done 0 t ∧ dState t ctx = stPaused) ∧
    (dState s ctx = stDraining → dRecovering s ctx = false → ended →
      ∃ t, exec (.drainComplete ctx) s = .next t ∧ dState t ctx = stLoaded ∧ (ctxRun t ctx).limit = none) ∧
    ((ctxRun s ctx).clearing = true → itemsInFlight s ctx = false →
      ∃ t, exec (.clearZeroing ctx) s = .next t ∧ dState t ctx = stLoaded ∧ dIseq t ctx = 0 ∧ dOseq t ctx = 0 ∧ ctxRun t ctx = {} ∧
        (s.cttCmd = some (8, ctx) ∨ s.cttCmd = some (9, ctx) → done 0 t) ∧
        (∀ q ∈ slotsOf s ctx, ∀ j, j ≤ slotNCount s q.1 q.2 →
          (readRec t q.1 (slotNBase s q.1 q.2 + j)).v = 0 ∧ (readRec t q.1 (slotNBase s q.1 q.2 + j)).trace = 0)) ∧
    (∀ op, s.cttCmd = some (op, ctx) → s.cttWaits = true → namesRecovering s op ctx = false →
      (List.range 4).any (fun r => regionPresent s.variant r && regionDown s r) = false →
      (fromOk s op ctx = false → ∃ t, exec .ctxCmdWaitEnd s = .next t ∧ done 1 t ∧ t.mem = s.mem) ∧
      (op = 6 → dState s ctx = stOverrun → ∃ t, exec .ctxCmdWaitEnd s = .next t ∧ done 0 t ∧ dState t ctx = stRunning))

/-! ### Journal, checkpoints, faults and recovery (R13, R330-R348, R550) -/

/-- R331-R337, R343, R550, R551: the oldest record goes to both rings at HEAD, or to the surviving one, and HEAD counts it; a ring
that cannot be written degrades the journal, and with neither the record stays. The copy into a returned ring brings over every
record from TAIL to HEAD, or fails the ring once more. A context at its cut is read out and its slots let go; the image then stands
in its buffer, which becomes valid and newest, or the checkpoint is discarded. A replayed wicket is released; past its last one the
context is no longer recovering. -/
def Obligations.JournalAndCheckpoints : Prop :=
  ∀ (s : State) (ctx : Nat), Bound s → (∀ w, eccAt s w = 0) →
    let head := getF s Reg.jrn_JRN_HEAD_INDEX
    let tail := getF s Reg.jrn_JRN_TAIL_INDEX
    (∀ j rest, s.journal = j :: rest → blkEnabled s Reg.jrn_BLK_CTRL = true → jrnHeld s = false →
      let a := fun g => jrnAt s g head
      let ok := fun g => mainTakes s (a g) 16 = true
      let wrote := fun (t : State) => t.journal = rest ∧ getF t Reg.jrn_JRN_HEAD_INDEX = (head + 1) % 2 ^ 64
      (degraded s = false → ok 0 → ok 1 → (a 0 + 16 ≤ a 1 ∨ a 1 + 16 ≤ a 0) →
        ∃ t, exec .journalRecordWrite s = .next t ∧ wrote t ∧ getBytes t.mem (a 0) 16 = recBytes j ∧ getBytes t.mem (a 1) 16 = recBytes j ∧
          CsrKept [Reg.jrn_JRN_HEAD_INDEX] s t) ∧
      (degraded s = false → ¬ok 0 → ¬ok 1 → ∃ t, exec .journalRecordWrite s = .next t ∧ t.journal = s.journal ∧ degraded t = true ∧
        t.jrnOff = true ∧ getF t Reg.jrn_JRN_HEAD_INDEX = head ∧ (getF t Reg.jrn_JRN_EVENTS_EVENTS).testBit 0 = true) ∧
      (degraded s = false → (ok 0 ∧ ¬ok 1) ∨ (¬ok 0 ∧ ok 1) → ∃ t, exec .journalRecordWrite s = .next t ∧ wrote t ∧ degraded t = true ∧
        ((failedGroup t = 1 ∧ ok 0) ∨ (failedGroup t = 0 ∧ ok 1)) ∧ (getF t Reg.jrn_JRN_EVENTS_EVENTS).testBit 0 = true) ∧
      (degraded s = true → resyncing s = false → s.jrnOff = false → ok (1 - failedGroup s) → ∃ t, exec .journalRecordWrite s = .next t ∧ wrote t ∧
        getBytes t.mem (a (1 - failedGroup s)) 16 = recBytes j ∧ MemKept (a (1 - failedGroup s)) 16 s t)) ∧
    (degraded s = true → resyncing s = true → groupUsable s (1 - failedGroup s) = true → copyHeld s = false →
      let src := 1 - failedGroup s
      ((jrnCopy src (failedGroup s) tail (head - tail) s).2 = true →
        ∃ t, exec .journalResyncDone s = .next t ∧ degraded t = false ∧ resyncing t = false ∧
          (getF t Reg.jrn_JRN_EVENTS_EVENTS).testBit 3 = true ∧
          (head - tail ≤ jrnSize s → (jrnBase s 0 + 16 * jrnSize s ≤ jrnBase s 1 ∨ jrnBase s 1 + 16 * jrnSize s ≤ jrnBase s 0) →
            ∀ i, tail ≤ i → i < head →
              getBytes t.mem (jrnAt s (failedGroup s) i) 16 = getBytes s.mem (jrnAt s src i) 16)) ∧
      ((jrnCopy src (failedGroup s) tail (head - tail) s).2 = false →
        ∃ t, exec .journalResyncDone s = .next t ∧ degraded t = true ∧ resyncing t = false ∧ failedGroup t = failedGroup s ∧
          (getF t Reg.jrn_JRN_EVENTS_EVENTS).testBit 0 = true)) ∧
    (dProt s ctx = true → dRecovering s ctx = false → atCut s ctx = true →
      ∃ t k, exec (.checkpoint ctx) s = .next t ∧ t.ckpts = s.ckpts ++ [k] ∧ k.ctx = ctx ∧ k.step = (ctxRun s ctx).released - 1 ∧
        k.buf = 1 - dCkptNew s ctx ∧ k.bytes = (slotsSorted s ctx).flatMap (sectionBytes s) ∧ k.oseq = dOseq s ctx ∧ t.mem = s.mem ∧
        t.csr = s.csr ∧ ∀ q ∈ slotsOf s ctx, q.2 ∉ (core t q.1).ckptHold) ∧
    (∀ k, ctx < 65536 → descLost s ctx = false → s.ckpts.find? (fun k => k.ctx == ctx) = some k → k.buf < 2 →
      let a := dCkpt s ctx k.buf
      let n := (ckptImage k).length
      let good := k.discard = false ∧ groupUsable s k.buf = true ∧ mainTakes s a n = true
      mainWaits s a n = false →
      (good → (mirrorAt s ctx + 64 ≤ a ∨ a + n ≤ mirrorAt s ctx) →
        ∃ t, exec (.checkpointDone ctx) s = .next t ∧ t.ckpts = s.ckpts.erase k ∧ getBytes t.mem a n = ckptImage k ∧
          (dCkptValid t ctx).testBit k.buf = true ∧ dCkptNew t ctx = k.buf ∧
          getF t Reg.jrn_CKPT_COUNT_COUNT = min (getF s Reg.jrn_CKPT_COUNT_COUNT + 1) (2 ^ 32 - 1)) ∧
      (¬good → ∃ t, exec (.checkpointDone ctx) s = .next t ∧ k ∉ t.ckpts ∧ (getF t Reg.jrn_JRN_EVENTS_EVENTS).testBit 2 = true ∧
        t.mem = s.mem)) ∧
    (∀ jpos, ctx < 65536 → descLost s ctx = false → (ctxRun s ctx).replay = some jpos → dRecovering s ctx = true →
      replayWaits s jpos = false →
      let n := (ctxRun s ctx).replayed
      (replayOver s ctx = true → ∃ t, exec (.replayWicket ctx) s = .next t ∧ dRecovering t ctx = false ∧ (ctxRun t ctx).replay = none ∧
        (getF t Reg.ctt_CTX_EVENTS_EVENTS).testBit 3 = true) ∧
      (replayOver s ctx = false → n ≤ (ctxRun s ctx).complete → ∃ t, exec (.replayWicket ctx) s = .next t ∧
        (ctxRun t ctx).released = n + 1 ∧ (ctxRun t ctx).replayed = n + 1))

/-- R13, R339, R341-R343, R347: a block or region handler records a fault and passes it up; the chip fault manager records it and
keeps it. A monitor event that was corrected is contained by its region. FM_ACK frees a record whose action is done. The action of
each kind is shown in its record, as done at once, or once the alternate routes stand, the region is released or the contexts are
paused: a row is replaced while its slice has a spare, and a core by its block's spare. A recovery that is isolated restores its
context from a good checkpoint, or the context is FAULTED. -/
def Obligations.FaultsAndRecovery : Prop :=
  ∀ (s : State) (p : Party), Bound s →
    (∀ f, s.faultsUp.find? (handlerUp s) = some f →
      let page := (faultPage f).1
      let free := fmFree s page (faultPage f).2
      let low := f.level ≤ 2
      ∃ t, exec .faultReport s = .next t ∧
        (low → t.faultsUp = s.faultsUp.erase f ++ [{ f with level := max f.level 1 + 1 }] ∧ t.chipFaults = s.chipFaults) ∧
        (¬low → t.faultsUp = s.faultsUp.erase f ∧ t.chipFaults = s.chipFaults ++ [{ f with entry := free }]) ∧
        (∀ i, free = some i → fmUsed t page = fmUsed s page ++ [i] ∧ (getF t ⟨page + 4, 0, 3⟩).testBit 0 = true ∧
          rdWords t (fmRecAt page i) 4 = (if low then fmRecord f true true 2 (tbWicket s) else fmRecord f false false 0 (tbWicket s)) % 2 ^ 128) ∧
        (free = none → (getF t ⟨page + 4, 0, 3⟩).testBit 1 = true ∧
          getF t ⟨page + 0xC, 0, 32⟩ = min (getF s ⟨page + 0xC, 0, 32⟩ + 1) (2 ^ 32 - 1))) ∧
    (∀ r i, r < 4 → regionPresent s.variant r = true → fmFree s (Reg.fmReg_FM_STATUS r) 16 = some i →
      ∃ t, exec (.correctedMonitorEvent r) s = .next t ∧ fmUsed t (Reg.fmReg_FM_STATUS r) = fmUsed s (Reg.fmReg_FM_STATUS r) ++ [i] ∧
        rdWords t (fmRecAt (Reg.fmReg_FM_STATUS r) i) 4 = fmRecord ⟨2, 2, 15, r, 0, none⟩ true false 1 (tbWicket s) % 2 ^ 128 ∧
        t.faultsUp = s.faultsUp) ∧
    (∀ base cap i, pageCap s base = some cap → csrOk s p (base + 8) true = true → i < cap → (fmUsed s base).contains i = true →
      let isDone := (rdWord s (fmRecAt base i)).getLsbD 1
      (isDone = true → ∃ t, exec (.fmAck p base i) s = .next t ∧ fmUsed t base = (fmUsed s base).filter (· != i) ∧
        rdWords t (fmRecAt base i) 4 = 0 ∧ t.mem = s.mem) ∧
      (isDone = false → ∃ t, exec (.fmAck p base i) s = .next t ∧ t.fmOrder = s.fmOrder ∧ (getF t ⟨base + 4, 0, 3⟩).testBit 2 = true ∧
        CsrKept [⟨base + 4, 0, 3⟩] s t)) ∧
    (∀ listed copies f i, s.chipFaults.find? (actNow s) = some f → f.entry = some i → i < 64 →
      let at' := fmRecAt Reg.fmChip_FM_STATUS i
      let shows := fun (act : Nat) (t : State) => getF t ⟨at', 16, 8⟩ = act ∧ isSet t ⟨at', 1, 1⟩ = true ∧
        t.chipFaults = s.chipFaults.erase f
      let resets := regionHeld s f.unit || s.resets.any (fun r => r.kind == 3 && r.target == f.unit)
      (∀ q ∈ [(5, 1, true), (7, 8, false), (8, 8, false), (10, 10, !resets), (11, 10, !resets), (12, 1, true), (13, 12, true),
          (14, 13, !pausesOn s)], f.kind = q.1 →
        ∃ t, exec (.chipFaultAction listed copies) s = .next t ∧ getF t ⟨at', 16, 8⟩ = q.2.1 ∧
          isSet t ⟨at', 1, 1⟩ = (isSet s ⟨at', 1, 1⟩ || q.2.2) ∧ t.chipFaults = s.chipFaults.erase f ∧ CsrKept [⟨at', 16, 8⟩] s t ∧
          t.mem = s.mem) ∧
      (f.kind = 9 → ∃ t, exec (.chipFaultAction listed copies) s = .next t ∧ shows 9 t) ∧
      (f.kind = 4 → copies.any (fun q => mainWaits s (mainBase + q.2) 8) = false →
        let spare := (s.rows.filter (fun r => r.slice == f.unit && !r.retired)).length < 2
        (spare → ∃ t, exec (.chipFaultAction listed copies) s = .next t ∧ shows 6 t ∧ t.rows = s.rows ++ [⟨f.unit, f.detail / 4096, false⟩]) ∧
        (¬spare → ∃ t, exec (.chipFaultAction listed copies) s = .next t ∧ shows 7 t ∧ t.rows = s.rows ++ [⟨f.unit, f.detail / 4096, true⟩] ∧
          (s.hold = [] → ∀ c ∈ runningOf s listed, c < 65536 → dState t c = stFaulted))) ∧
      (f.kind ∉ [4, 5, 7, 8, 9, 10, 11, 12, 13, 14] → f.unit < 1024 →
        bitN (getF s Reg.glob_SPARE_USED_BLOCK) (blockOfCore f.unit) = false → requestResult s none 4 f.unit = none →
        regionDown s (regionOfCore f.unit) = false →
        ∃ t, exec (.chipFaultAction listed copies) s = .next t ∧ shows 3 t ∧ (core t f.unit).remap = some 16 ∧ coreHeld t f.unit = true ∧
          (getF t Reg.glob_SPARE_USED_BLOCK).testBit (blockOfCore f.unit) = true ∧
          ∃ l prot, t.recovs = l ++ [⟨prot, [f.unit], true⟩])) ∧
    (∀ r ctx, s.recovs.find? (isolated s) = some r → r.ctxs = [ctx] → r.cores = [] → r.reset = false → ctx < 65536 →
      descLost s ctx = false → dRecovering s ctx = true →
      (∀ b, ckptChoice s ctx = some b → ∃ t, exec .recovery s = .next t ∧ t.recovs = s.recovs.erase r ∧
        (ctxRun t ctx).released = rdNum s (dCkpt s ctx b) 8 ∧ (ctxRun t ctx).complete = rdNum s (dCkpt s ctx b) 8 ∧
        (ctxRun t ctx).replay = some (rdNum s (dCkpt s ctx b + 16) 8)) ∧
      (ckptChoice s ctx = none → (∀ h ∈ s.hold, h.ctx ≠ ctx) → ∃ t, exec .recovery s = .next t ∧ (∀ q ∈ t.recovs, ctx ∉ q.ctxs) ∧ dRecovering t ctx = false ∧
        dState t ctx = stFaulted ∧ dGet t ctx 10 3 = 5))

/-! ### Ethernet and the Aedene Event Transport (R353-R377, R401, R402, R548) -/

/-- R353-R355, R357, R363, R401, R402, R548: a port's link comes up with its state and its PLL, and goes down. A received frame with
a bad FCS or of another VLAN is dropped and counted, and so is one over the port's size (model's choice, log entry 58); one that is
addressed to the AET is counted, and is stale where it is too short; another goes to the next posted buffer, whose descriptor tells
its length and, for a PTP event message, the time, or is discarded where there is none; one for which a channel in training must be
waited for waits at its port. What the FEC met is counted. A posted frame of a permitted size leaves with its bytes, padded, and its
FCS, and its descriptor is done. -/
def Obligations.EthernetPorts : Prop :=
  ∀ (s : State) (p : Party) (n : Nat), Bound s → n < 2 → (∀ w, eccAt s w = 0) →
    (ethOn s n = true → ∃ t, exec (.ethLinkUp n) s = .next t ∧ getF t (Reg.eth_ETH_STATUS_STATE n) = 7 ∧ isSet t (ethUpRef n) = true ∧
      getF t (Reg.eth_ETH_STATUS_LANE_LOCK n) = 15 ∧ (getF t Reg.clk_CLK_STATUS_LOCK).testBit (11 + n) = true ∧ t.mem = s.mem) ∧
    (portUp s n = true → ∃ t, exec (.ethLinkDown n) s = .next t ∧ portUp t n = false ∧ isSet t (ethUpRef n) = false ∧
      (getF t (Reg.eth_ETH_EVENTS_EVENTS n)).testBit 0 = true) ∧
    (∀ frame ok fc fu, portUp s n = true → blkEnabled s (Reg.eth_BLK_CTRL n) = true →
      let tagged := isSet s (Reg.eth_ETH_CFG_TAGGED n)
      let mine := frameVid frame = some (getF s (Reg.eth_ETH_CFG_VID n))
      let bad := ok = false ∨ (tagged = true ∧ frameVid frame ≠ none ∧ ¬mine) ∨ frameLimit s n < frame.length
      let k := getF s (Reg.swr_SWR_RX_DONE_DONE n)
      let a := swrDesc s (Reg.swr_SWR_RX_RING_BASE n) (Reg.swr_SWR_RX_RING_LOG2 n) k
      let buf := rdBits s a 0 40
      let room := isSet s (Reg.swr_SWR_RX_RING_EN n) = true ∧ k ≠ getF s (Reg.swr_SWR_RX_POST_POST n) ∧ mainTakes s a 32 = true
      let up := fun (r : FieldRef) (k : Nat) (t : State) => getF t r = min (getF s r + k) (2 ^ r.width - 1)
      let fec := fun (t : State) => up (Reg.eth_FEC_CORR_COUNT_COUNT n) fc t ∧ up (Reg.eth_FEC_UNCORR_COUNT_COUNT n) fu t ∧
        (fu ≠ 0 → (getF t (Reg.eth_ETH_EVENTS_EVENTS n)).testBit 1 = true)
      let counted := fun (t : State) => fec t ∧ getF t (Reg.eth_RX_FRAMES_COUNT n) = (getF s (Reg.eth_RX_FRAMES_COUNT n) + 1) % 2 ^ 64
      (bad → ∃ t, exec (.ethFrameRx n frame ok fc fu) s = .next t ∧ t.mem = s.mem ∧ fec t ∧
        (getF t (Reg.eth_ETH_EVENTS_EVENTS n)).testBit 2 = true ∧
        getF t (Reg.eth_RX_DROP_COUNT_COUNT n) = min (getF s (Reg.eth_RX_DROP_COUNT_COUNT n) + 1) (2 ^ 32 - 1)) ∧
      (∀ u, ¬bad → (tagged = false ∨ mine) → aetAt s n frame = some u →
        ∃ t, exec (.ethFrameRx n frame ok fc fu) s = .next t ∧ counted t ∧ t.mem = s.mem ∧
          (frame.length < u + 24 → getF t Reg.aet_STALE_COUNT_COUNT = min (getF s Reg.aet_STALE_COUNT_COUNT + 1) (2 ^ 32 - 1)) ∧
          (aetRight s frame u = true → aetOn s = true → fu = 0 →
            CsrKept [Reg.eth_RX_FRAMES_COUNT n, Reg.eth_FEC_CORR_COUNT_COUNT n, Reg.eth_FEC_UNCORR_COUNT_COUNT n] s t)) ∧
      (¬bad → ((tagged = true ∧ ¬mine) ∨ aetAt s n frame = none) →
        let posted := isSet s (Reg.swr_SWR_RX_RING_EN n) = true ∧ k ≠ getF s (Reg.swr_SWR_RX_POST_POST n)
        let held := s.rxIn.any (fun g => g.port == n) = true ∨ (posted ∧ swrHeld s a frame.length = true)
        (held → ∃ t, exec (.ethFrameRx n frame ok fc fu) s = .next t ∧ counted t ∧ t.mem = s.mem ∧
          t.rxIn.map (fun g => (g.port, g.frame)) = s.rxIn.map (fun g => (g.port, g.frame)) ++ [(n, frame)]) ∧
        (¬held → ¬room → ∃ t, exec (.ethFrameRx n frame ok fc fu) s = .next t ∧ counted t ∧ t.mem = s.mem ∧
          (getF t (Reg.swr_SWR_EVENTS_EVENTS n)).testBit 2 = true ∧
          getF t (Reg.swr_RX_NOBUF_COUNT_COUNT n) = min (getF s (Reg.swr_RX_NOBUF_COUNT_COUNT n) + 1) (2 ^ 32 - 1)) ∧
        (¬held → room → rdBits s a 64 14 < frame.length →
          ∃ t, exec (.ethFrameRx n frame ok fc fu) s = .next t ∧ counted t ∧ MemKept (a + 8) 16 s t ∧
            rdNum t (a + 8) 8 = frame.length % 2 ^ 14 + 3 * 2 ^ 14 + bnat (ptpEvent frame) * 2 ^ 16 ∧
            getF t (Reg.swr_SWR_RX_DONE_DONE n) = (k + 1) % 2 ^ 32 ∧ (getF t (Reg.swr_SWR_EVENTS_EVENTS n)).testBit 3 = true) ∧
        (¬held → room → frame.length ≤ rdBits s a 64 14 → mainTakes s buf frame.length = true → (buf + frame.length ≤ a ∨ a + 32 ≤ buf) →
          ∃ t, exec (.ethFrameRx n frame ok fc fu) s = .next t ∧ counted t ∧ getBytes t.mem buf frame.length = frame ∧
            rdNum t (a + 8) 8 = frame.length + 2 ^ 14 + bnat (ptpEvent frame) * 2 ^ 16 ∧
            (ptpEvent frame = true → rdNum t (a + 16) 8 = getF s Reg.aet_PTP_TIME_NS) ∧
            getF t (Reg.swr_SWR_RX_DONE_DONE n) = (k + 1) % 2 ^ 32 ∧ (getF t (Reg.swr_SWR_EVENTS_EVENTS n)).testBit 0 = true))) ∧
    (∀ v : Word, csrOk s p (Reg.swr_SWR_TX_POST n) true = true → ∃ t, exec (.swrTxPost p n v) s = .next t ∧
      getF t (Reg.swr_SWR_TX_POST_POST n) = v.toNat ∧ CsrKept [Reg.swr_SWR_TX_POST_POST n] s t ∧ t.mem = s.mem) ∧
    (let k := getF s (Reg.swr_SWR_TX_DONE_DONE n)
     let a := swrDesc s (Reg.swr_SWR_TX_RING_BASE n) (Reg.swr_SWR_TX_RING_LOG2 n) k
     let len := rdBits s a 64 14
     let frame := getBytes s.mem (rdBits s a 0 40) len
     ethOn s n = true → portUp s n = true → isSet s (Reg.swr_SWR_TX_RING_EN n) = true → k ≠ getF s (Reg.swr_SWR_TX_POST_POST n) →
      mainTakes s a 32 = true → 14 ≤ len → len ≤ frameLimit s n → mainTakes s (rdBits s a 0 40) len = true → swrHeld s a len = false →
      ∃ t, exec (.frameTransmitDone n) s = .next t ∧
        (let padded := frame ++ List.replicate (60 - len) (0 : Byte)
         t.outside.frames = s.outside.frames ++ [(n, padded ++ toBytes (crc32 padded) 4)]) ∧
        rdNum t (a + 8) 8 = len + 2 ^ 14 + bnat (ptpEvent frame) * 2 ^ 16 ∧ MemKept (a + 8) 16 s t ∧
        (ptpEvent frame = true → rdNum t (a + 16) 8 = getF s Reg.aet_PTP_TIME_NS) ∧
        getF t (Reg.swr_SWR_TX_DONE_DONE n) = (k + 1) % 2 ^ 32 ∧ (getF t (Reg.swr_SWR_EVENTS_EVENTS n)).testBit 1 = true ∧
        getF t (Reg.eth_TX_FRAMES_COUNT n) = (getF s (Reg.eth_TX_FRAMES_COUNT n) + 1) % 2 ^ 64)

/-- R357-R363: sessions. A HELLO for another device is stale and rejected. A HELLO of a valid peer is accepted and opens the
session, one that cannot be is rejected with its reason, after it has ended an open session of another incarnation; ACCEPT opens a
session that this device has asked for, REJECT fails it. A BYE ends it. An IDLE session asks again. An acknowledgement frees the
packets behind it. A delayed acknowledgement and a keepalive are sent; a packet that is not acknowledged is resent while the peer's
credit admits it, and after its last retry, or with the peer silent, the session moves to the other port, or is lost where that is
down. Software retries and switches. -/
def Obligations.TransportSessions : Prop :=
  ∀ (s : State) (p : Party) (h : AetHdr), Bound s → h.src < 32 →
    let x := h.src
    let g := sess s x
    let reaches := fun (n : Nat) => portUp s h.port = true ∧ aetOn s = true ∧ h.magic = 0xAE ∧ h.len = n
    let arrives := fun (n : Nat) => reaches n ∧ h.dst = ownChip s
    let sent := fun (port : Nat) (t : State) => CsrKept [Reg.eth_TX_FRAMES_COUNT (port % 2)] s t
    let fresh := sessState s x = 1 ∧ g.hello = true ∧ h.incarnation = (g.incarnation + 1) % 2 ^ 32
    let open' := fun (t : State) => sessState t x = 2 ∧ (sess t x).incarnation = h.incarnation ∧
      (getF t Reg.aet_AET_EVENTS_EVENTS).testBit 0 = true ∧ getF t (Reg.aet_SESS_STATUS_INCARNATION x) = h.incarnation % 65536
    let leaves := fun (t : State) => let o := 1 - sessPort s x
      (portUp s o = true → sessState t x = 2 ∧ sessPort t x = o ∧ (getF t Reg.aet_AET_EVENTS_EVENTS).testBit 2 = true ∧
        getF t Reg.aet_FAILOVER_COUNT_COUNT = min (getF s Reg.aet_FAILOVER_COUNT_COUNT + 1) (2 ^ 32 - 1)) ∧
      (portUp s o = false → sessState t x = 1 ∧ (getF t Reg.aet_AET_EVENTS_EVENTS).testBit 1 = true)
    (∀ mn mx ft, reaches 16 → h.dst ≠ ownChip s → ∃ t, exec (.hello h mn mx ft) s = .next t ∧ t.aet.sess = s.aet.sess ∧
      (getF t Reg.aet_AET_EVENTS_EVENTS).testBit 6 = true ∧
      t.aet.out = s.aet.out ++ [bareDgram s h.port x 3 h.incarnation (.reject 3)]) ∧
    (∀ mn mx ft, arrives 16 →
      (∀ code, (peerValid s x = false ∧ code = 4) ∨ (peerValid s x = true ∧ min mx 1 < max mn 1 ∧ code = 1) ∨
          (peerValid s x = true ∧ max mn 1 ≤ min mx 1 ∧ ft % 8 ≠ 7 ∧ code = 2) →
        (sessOpen s x = false ∨ g.incarnation = h.incarnation →
          ∃ t, exec (.hello h mn mx ft) s = .next t ∧ sent h.port t ∧ t.aet.sess = s.aet.sess ∧
            t.aet.out = s.aet.out ++ [bareDgram s h.port x 3 h.incarnation (.reject code)]) ∧
        (sessOpen s x = true → g.incarnation ≠ h.incarnation →
          ∃ t, exec (.hello h mn mx ft) s = .next t ∧ sessState t x = 1 ∧ (getF t Reg.aet_AET_EVENTS_EVENTS).testBit 1 = true ∧
            bareDgram s h.port x 3 h.incarnation (.reject code) ∈ t.aet.out)) ∧
      (peerValid s x = true → max mn 1 ≤ min mx 1 → ft % 8 = 7 → sessState s x ≤ 1 → ¬(g.hello = true ∧ ownChip s < x) →
        ∃ t l, exec (.hello h mn mx ft) s = .next t ∧ open' t ∧ sessPort t x = h.port % 2 ∧
          (sess t x).gen = min mx 1 ∧
          t.aet.out = s.aet.out ++ bareDgram s h.port x 2 h.incarnation (.accept (min mx 1) 7 (fused s Config.serial)) :: l)) ∧
    (∀ gen, arrives 16 → fresh → ∃ t, exec (.accept h gen) s = .next t ∧ open' t ∧ (sess t x).gen = gen) ∧
    (∀ r, arrives 8 → fresh → r < 16 → ∃ t, exec (.reject h r) s = .next t ∧ sessState t x = 3 ∧
      getF t (Reg.aet_SESS_STATUS_REJECT_REASON x) = r ∧ (getF t Reg.aet_AET_EVENTS_EVENTS).testBit 3 = true ∧ t.mem = s.mem) ∧
    (arrives 0 → sessOpen s x = true → h.incarnation = g.incarnation → ∃ t, exec (.bye h) s = .next t ∧ sessState t x = 0) ∧
    (∀ i ∈ [Instr.ackonly h, .keepalive h], arrives 0 → sessOpen s x = true →
      (h.incarnation ≠ g.incarnation → ∃ t, exec i s = .next t ∧ t.aet.sess = s.aet.sess ∧ (getF t Reg.aet_AET_EVENTS_EVENTS).testBit 6 = true ∧
        getF t Reg.aet_STALE_COUNT_COUNT = min (getF s Reg.aet_STALE_COUNT_COUNT + 1) (2 ^ 32 - 1)) ∧
      (h.incarnation = g.incarnation → g.queue = [] → h.sack = 0 → (h.ack = g.peerAck ∨ (h.ack + 2 ^ 32 - g.peerAck) % 2 ^ 32 < 2 ^ 31) →
        ∃ t, exec i s = .next t ∧ (sess t x).peerAck = h.ack ∧ (sess t x).peerCredit = min h.credit 256 ∧ t.csr = s.csr ∧
          (sess t x).unacked = g.unacked.filter (fun k => !(decide (0 < (h.ack + 2 ^ 32 - k.seq) % 2 ^ 32) &&
            decide ((h.ack + 2 ^ 32 - k.seq) % 2 ^ 32 < 2 ^ 31))))) ∧
    (aetOn s = true → peerValid s x = true → sessState s x ≤ 1 → ∃ t, exec (.helloRetry x) s = .next t ∧ sessState t x = 1 ∧
      (sess t x).hello = true ∧ t.aet.out = s.aet.out ++
        [bareDgram s g.pref x 1 ((g.incarnation + 1) % 2 ^ 32) (.hello 1 1 7 (fused s Config.serial))]) ∧
    (sessOpen s x = true →
      (0 < g.rxSince → ∃ t, exec (.aetAckDelay x) s = .next t ∧ t.aet.out = s.aet.out ++ [dgram s x 7 0 .empty] ∧
        (sess t x).rxSince = 0 ∧ sent (sessPort s x) t) ∧
      (∃ t, exec (.keepaliveSend x) s = .next t ∧ t.aet.out = s.aet.out ++ [dgram s x 8 0 .empty] ∧ (sess t x).rxSince = 0 ∧
        sent (sessPort s x) t) ∧
      (∃ t, exec (.deadTimeout x) s = .next t ∧ leaves t) ∧
      (∀ seq k, g.unacked.find? (fun k => k.seq == seq) = some k →
        (k.sends < retryLimit s → creditAdmits g seq = false → ∃ t, exec (.aetRto x seq) s = .next t ∧ t.aet = s.aet ∧ t.csr = s.csr) ∧
        (k.sends < retryLimit s → creditAdmits g seq = true → ∃ t, exec (.aetRto x seq) s = .next t ∧
          t.aet.out = s.aet.out ++ [dgram s x (bodyType k.body) k.seq (.body k.body)] ∧
          getF t Reg.aet_RETX_COUNT_COUNT = min (getF s Reg.aet_RETX_COUNT_COUNT + 1) (2 ^ 32 - 1) ∧ sessState t x = 2) ∧
        (retryLimit s ≤ k.sends → ∃ t, exec (.aetRto x seq) s = .next t ∧ leaves t))) ∧
    (∀ v : Word, csrOk s p (Reg.aet_SESS_CTRL x) true = true →
      (sessState s x = 3 → ∃ t, exec (.retry p x v) s = .next t ∧ sessState t x = 1 ∧ sessPort t x = bnat (v.getLsbD 2)) ∧
      (sessOpen s x = true → portUp s (1 - sessPort s x) = true →
        ∃ t, exec (.switch p x v) s = .next t ∧ sessState t x = 2 ∧ sessPort t x = 1 - sessPort s x))

/-- R361, R366, R369-R375: packets in sequence. The next packet of an open session is taken in order: a volley's events are handed
on with the step and origin that they belong to, a CLOSE marks its wicket, a refusal is recorded, once its channel takes the write;
one beyond the credit that the device shows is not taken, and one before it is acknowledged again. An event for the egress joins its
stream's window, or is counted where there is none. A wicket that the device has done is closed towards the peers that wait for it.
An edge of PPS captures the time. -/
def Obligations.VolleysAndMarks : Prop :=
  ∀ (s : State) (h : AetHdr), Bound s → h.src < 32 →
    let x := h.src
    let g := sess s x
    let quiet := fun (b : AetBody) => portUp s h.port = true ∧ h.magic = 0xAE ∧ h.len = (bodyBytes x b).length ∧ h.dst = ownChip s ∧
      aetOn s = true ∧ sessOpen s x = true ∧ h.incarnation = g.incarnation ∧ h.ack = g.peerAck ∧ h.sack = 0 ∧ g.queue = []
    let inOrder := fun (b : AetBody) => quiet b ∧ h.seq = g.rxNext ∧ g.rxHeld = [] ∧ g.rxUsed < 256
    let next := fun (t : State) => (sess t x).rxNext = (g.rxNext + 1) % 2 ^ 32
    (∀ seg : Segment, inOrder (.volley seg) →
      let e := seg.expert
      let ctx := getF s (Reg.volTab_DIR_CTX e)
      (∀ w ∈ seg.events, evCtx w = ctx) → isSet s (Reg.volTab_DIR_VALID e) = true → getF s (Reg.volTab_DIR_CHIP e) = ownChip s →
      seg.events ≠ [] → (∀ i ∈ s.admIn, ∃ f v m o, i = .event f v m o) →
      ∃ t, exec (.volley h seg) s = .next t ∧ next t ∧ t.mem = s.mem ∧ (sess t x).rxUsed = g.rxUsed + 1 ∧
        t.admIn = s.admIn ++ seg.events.map (fun w =>
          .event 9 w (some (seg.wicket + lagOf s e - dStart s ctx)) (some ⟨x, e, seg.wicket⟩)) ++ [.entry x g.incarnation]) ∧
    (∀ w, inOrder (.close w) → ∃ t, exec (.close h w) s = .next t ∧ next t ∧
      (g.marksFrom = none → (sess t x).marksFrom = some w ∧ (sess t x).marked = w + 1) ∧
      (g.marksFrom ≠ none → (sess t x).marksFrom = g.marksFrom ∧ (sess t x).marked = max g.marked (w + 1))) ∧
    (∀ hdr w : Word64, inOrder (.refuse [(hdr, w)]) →
      let prod := getF s Reg.aet_AET_REF_PROD_PROD
      let size := 256 * 2 ^ min (getF s Reg.aet_AET_REF_BASE_LOG2) 16
      let a := getF s Reg.aet_AET_REF_BASE_BASE * 4096 + 16 * (prod % size)
      let room := sub32 prod (getF s Reg.aet_AET_REF_CONS_CONS) < size ∧ mainTakes s a 16 = true
      let waits := ringWaits s true (getF s Reg.aet_AET_REF_BASE_BASE * 4096) size Reg.aet_AET_REF_PROD_PROD
      (waits = true → ∃ t, exec (.refuse h [(hdr, w)]) s = .next t ∧ next t ∧ t.mem = s.mem ∧
        t.ringIn = s.ringIn ++ [⟨true, hdr.toNat, w.toNat⟩]) ∧
      (waits = false → room → (∀ x ∈ mainJudged a (.write (toBytes 0 16)), eccAt s x ≠ 2) → ∃ t, exec (.refuse h [(hdr, w)]) s = .next t ∧ next t ∧ rdNum t a 16 = hdr.toNat + w.toNat * 2 ^ 64 ∧ MemKept a 16 s t ∧
        getF t Reg.aet_AET_REF_PROD_PROD = (prod + 1) % 2 ^ 32) ∧
      (waits = false → ¬room → ∃ t, exec (.refuse h [(hdr, w)]) s = .next t ∧ next t ∧ t.mem = s.mem ∧
        getF t Reg.aet_AET_REF_LOST_COUNT = min (getF s Reg.aet_AET_REF_LOST_COUNT + 1) (2 ^ 32 - 1))) ∧
    (let d := (h.seq + 2 ^ 32 - g.rxNext) % 2 ^ 32
     ∀ seg w recs, ∀ q ∈ [(Instr.volley h seg, AetBody.volley seg), (.close h w, .close w), (.refuse h recs, .refuse recs)], quiet q.2 →
      (256 - g.rxUsed ≤ d → d < 2 ^ 31 → ∃ t, exec q.1 s = .next t ∧ (sess t x).rxNext = g.rxNext ∧ t.aet.out = s.aet.out ∧ t.admIn = s.admIn ∧
        t.csr = s.csr) ∧
      (2 ^ 31 ≤ d → ∃ t, exec q.1 s = .next t ∧ (sess t x).rxNext = g.rxNext ∧ t.admIn = s.admIn ∧
        CsrKept [Reg.eth_TX_FRAMES_COUNT (sessPort s x)] s t ∧
        ∃ o, t.aet.out = s.aet.out ++ [o] ∧ o.ty = 7 ∧ o.ack = g.rxNext)) ∧
    (∀ port a rest, takeArrivalBy (fun a => decide (0xF800 ≤ evAxon (BitVec.ofNat 64 a.pkt.data))) (portIn s (chipPorts.getD port 0)) =
        some (a, rest) →
      let w : Word64 := BitVec.ofNat 64 a.pkt.data
      let step := (ctxRun s (evCtx w)).complete
      (egressOpen s (evCtx w) = false ∨ streamOf s (evCtx w) = none → ∃ t, exec (.volleyEgressEvent port) s = .next t ∧
        portIn t (chipPorts.getD port 0) = rest ∧ t.aet = s.aet ∧ (getF t Reg.vol_VOL_EVENTS_EVENTS).testBit 0 = true ∧
        getF t Reg.vol_NO_STREAM_COUNT_COUNT = min (getF s Reg.vol_NO_STREAM_COUNT_COUNT + 1) (2 ^ 32 - 1)) ∧
      (∀ i, egressOpen s (evCtx w) = true → streamOf s (evCtx w) = some i → evKind w ≤ 1 → evAxon w < 0xFA00 →
        ∃ t v, exec (.volleyEgressEvent port) s = .next t ∧ portIn t (chipPorts.getD port 0) = rest ∧ v ∈ t.aet.windows ∧
          v.stream = i ∧ v.step = step ∧ w ∈ v.data ∧ t.csr = s.csr)) ∧
    (let own := ownChip s
     let w := tget 0 own s.aet.closedW
     wicketDone s w = true → ∃ t, exec .closeSend s = .next t ∧ tget 0 own t.aet.closedW = w + 1 ∧
      ∀ q, aetOn s = true → q < 32 → q ≠ own → sessOpen s q = true → owesMark s q = true → tget 0 q s.aet.closedW ≤ w → tget 0 q t.aet.closedW = w + 1) ∧
    (let waits := tbRuns s && getF s Reg.tb_TB_STATE_STATE == 0 && startSrc s == 2
     (waits = false → ∃ t, exec .ppsEdge s = .next t ∧ getF t Reg.aet_PPS_CAPTURE_NS = getF s Reg.aet_PTP_TIME_NS ∧ t.mem = s.mem ∧
      getF t Reg.aet_PPS_PHASE_PHASE = (ppsPhase s s.aet.tbTime).toNat) ∧
     (waits = true → ∃ t, exec .ppsEdge s = .next t ∧ tbWicket t = (tbWicket s + 1) % 2 ^ 64 ∧ getF t Reg.tb_TB_STATE_STATE = 1))

/-! ### Resets, bring-up and clocks (R14, R44, R454-R472, R548) -/

/-- R14, R461-R465, R470: a request that is denied, has no target, or meets a reset in progress gets its result and starts nothing.
Else a core or region reset holds its cores, which lose their engines and not their stores; a compute reset, once the journal holds
no record, holds every core and empties the fabric and the buffers, and STATE returns to what it was (of another than READY, the
model's choice, log entry 25); a warm reset keeps the AON domain and main memory, holds everything else, records its cause and
verifies the image it has, or enters RECOVERY. A release lets the cores run and tells the requester. -/
def Obligations.Resets : Prop :=
  ∀ (s : State) (p : Party), Bound s → csrOk s p Reg.rst_RST_CMD true = true → mayRequest p = true →
    let held := fun (t : State) (c : Nat) => coreHeld t c = true ∧ ∀ e, e < 8 → tfind (8 * c + e) t.engs = none
    let told := fun (t : State) (q : RunningReset) => ∀ x, q.by' = some x → (requester x, 1) ∈ t.rstResults
    (∀ q ∈ [(Instr.warmReset (.cmd p), 1, 0), (.computeReset (.cmd p), 2, 0)] ++
        ((List.range 4).map (fun r => (Instr.regionReset (.cmd p) r, 3, r))) ++ ((List.range 1024).map (fun c => (Instr.coreReset (.cmd p) c, 4, c))),
      ∀ code, requestResult s (some p) q.2.1 q.2.2 = some code → ∃ t, exec q.1 s = .next t ∧ (requester p, code) ∈ t.rstResults ∧
        t.resets = s.resets ∧ t.cores = s.cores ∧ t.engs = s.engs ∧ t.mem = s.mem ∧
        (code = 2 → (getF t Reg.rst_RST_EVENTS_EVENTS).testBit 0 = true) ∧ (code = 5 → (getF t Reg.rst_RST_EVENTS_EVENTS).testBit 1 = true)) ∧
    (∀ c, c < 1024 → requestResult s (some p) 4 c = none →
      (regionDown s (regionOfCore c) = false → ∃ t, exec (.coreReset (.cmd p) c) s = .next t ∧ held t c ∧ t.mem = s.mem ∧
        (⟨4, c, some p, false⟩ : RunningReset) ∈ t.resets ∧ ∀ d, d < 1024 → d ≠ c → coreHeld t d = coreHeld s d) ∧
      (regionDown s (regionOfCore c) = true → ∃ t, exec (.coreReset (.cmd p) c) s = .next t ∧ t.engs = s.engs ∧ t.mem = s.mem ∧
        (⟨4, c, some p, true⟩ : RunningReset) ∈ t.resets)) ∧
    (∀ r, r < 4 → requestResult s (some p) 3 r = none → regionDown s r = false →
      ∃ t, exec (.regionReset (.cmd p) r) s = .next t ∧ regionHeld t r = true ∧
        (getF t Reg.glob_CHIP_STATUS_REGION_READY).testBit r = false ∧ t.mem = s.mem ∧
        (⟨3, r, some p, false⟩ : RunningReset) ∈ t.resets ∧ ∀ c, c < 1024 → regionOfCore c = r → held t c) ∧
    (let allHeld := fun (t : State) => t.fab = {} ∧ t.hold = [] ∧ t.results = [] ∧ t.records = [] ∧
       (∀ c, corePresent s c = true → held t c) ∧ ∀ r ∈ regions s, regionHeld t r = true
     (requestResult s (some p) 2 0 = none → ∃ t, exec (.computeReset (.cmd p)) s = .next t ∧ chipState t = 5 ∧ t.stateWas = chipState s ∧
       (s.journal = [] → t.journal = []) ∧
       (t.journal = [] → allHeld t ∧ (⟨2, 0, some p, false⟩ : RunningReset) ∈ t.resets) ∧
       (t.journal ≠ [] → (⟨2, 0, some p, true⟩ : RunningReset) ∈ t.resets)) ∧
     (∀ q, s.resets.find? (fun r => r.kind == 2) = some q → q.waits = true → s.journal = [] →
       ∃ t, exec .computeResetRelease s = .next t ∧ allHeld t ∧ { q with waits := false } ∈ t.resets)) ∧
    (requestResult s (some p) 1 0 = none →
      let kept := fun (t : State) => getF t Reg.rst_RST_CAUSE_CAUSE = 4 ∧ t.engs = [] ∧ t.mem = warmMem s ∧
        (∀ a, mainBase ≤ a → getByte t.mem a = getByte s.mem a) ∧ rdWord t Reg.pwr_PWR_CAP = rdWord s Reg.pwr_PWR_CAP ∧ t.memWait = []
      (isSet s Reg.boot_BOOT_IMAGE_VALID = true → ∃ t, exec (.warmReset (.cmd p)) s = .next t ∧ kept t ∧ chipState t = 6 ∧
        (∀ r ∈ regions s, regionHeld t r = true) ∧ (∀ c, corePresent s c = true → coreHeld t c = true) ∧
        getF t Reg.glob_CHIP_STATUS_REGION_READY = 0 ∧ t.sec.verify = some ⟨getF s Reg.boot_BOOT_IMAGE_OFFSET * 0x10000, none⟩) ∧
      (isSet s Reg.boot_BOOT_IMAGE_VALID = false → ∃ t, exec (.warmReset (.cmd p)) s = .next t ∧ kept t ∧ chipState t = 7 ∧
        (requester p, 1) ∈ t.rstResults ∧ (s.power.railHeld = [] → ∀ r ∈ regions s, regionHeld t r = false))) ∧
    (∀ r q, r < 4 → findReset s 3 r = some q → s.power.railHeld.contains r = false → (∀ q ∈ s.resets, q.kind ≠ 2) → regionDown s r = false →
      ∃ t, exec (.resetRelease true r) s = .next t ∧ regionHeld t r = false ∧
        (getF t Reg.glob_CHIP_STATUS_REGION_READY).testBit r = true ∧ (getF t Reg.rst_RST_EVENTS_EVENTS).testBit 3 = true ∧
        t.resets = s.resets.erase q ∧ told t q) ∧
    (∀ c q, c < 1024 → findReset s 4 c = some q → (∀ q ∈ s.resets, q.kind ≠ 2) → regionDown s (regionOfCore c) = false → (∀ k ∈ s.cores, k.1 = c → k.2.remap ≠ some 17) →
      (∀ r ∈ s.recovs, r.reset = true → c ∉ r.cores) →
      ∃ t, exec (.resetRelease false c) s = .next t ∧ coreHeld t c = false ∧ (getF t Reg.rst_RST_EVENTS_EVENTS).testBit 4 = true ∧
        t.resets = s.resets.erase q ∧ told t q) ∧
    (∀ q, s.resets.find? (fun r => r.kind == 2) = some q → q.waits = false → s.power.railHeld = [] →
      ∃ t, exec .computeResetRelease s = .next t ∧ t.resets = s.resets.erase q ∧ told t q ∧ chipState t = s.stateWas % 16 ∧
        t.mem = s.mem ∧ ∀ r ∈ regions s, regionHeld t r = false ∧ (regionDown s r = false →
          (getF t Reg.glob_CHIP_STATUS_REGION_READY).testBit r = true ∧ (getF t Reg.clk_CLK_STATUS_LOCK).testBit (5 + r) = true))

/-- R45-R47, R456, R461, R466-R468, R472, R474, R498, R501, R520, R548: the steps of a cold bring-up in their order, from either
cause of a cold reset; the loss and the return of a reference and of a lock, with the faults they raise; PERST_N; a clock
measurement; the removal of the supplies. -/
def Obligations.BringUpAndClocks : Prop :=
  ∀ (s : State) (p : Party), Bound s →
    let fresh := fun (t : State) => t.engs = [] ∧ t.mem = [] ∧ t.cores = [] ∧ chipState t = 0 ∧ t.pending = s.pending
    (∃ t, exec (.coldReset false) s = .next t ∧ fresh t ∧ getF t Reg.rst_RST_CAUSE_CAUSE = 1) ∧
    (s.power.p4 = false → ∃ t, exec (.coldReset true) s = .next t ∧ fresh t ∧ getF t Reg.rst_RST_CAUSE_CAUSE = 2 ∧ t.pins.rstN = false) ∧
    (∀ src, s.pins.rstN = false → s.power.p4 = false → ∃ t, exec (.rstNRelease src) s = .next t ∧ t.pins.rstN = true ∧ t.mem = s.mem ∧
      getF t Reg.sec_SEC_STATUS_BOOT_SRC = src % 4) ∧
    (∀ corrected failed, chipState s = 0 → s.pins.rstN = true → suppliesUp s = true → s.power.p3 = false → s.power.p4 = false →
      ∃ t, exec (.coldInitDone corrected failed) s = .next t ∧ chipState t = (if failed then 8 else 1) ∧ t.mem = s.mem ∧
        isSet t Reg.glob_FUSE_STATUS_LOADED = true ∧ isSet t Reg.glob_FUSE_STATUS_ECC_CORRECTED = corrected ∧
        isSet t Reg.glob_FUSE_STATUS_ECC_FAILED = failed ∧ getF t Reg.clk_CLK_STATUS_REF_OK = 15 ∧ t.sec.keyRevoke = Config.keyRevoke % 16) ∧
    (∀ spares rows, chipState s = 1 → isSet s Reg.rst_BIST_INFO_VALID = false →
      let spared := ∀ b, b < 64 → blockPresent s b = true → (badRows rows b).length ≤ 2
      let stops := fun (t : State) (slice : Bool) (b : Nat) => chipState t = 1 ∧
        isSet t Reg.rst_BIST_INFO_VALID = true ∧ isSet t Reg.rst_BIST_INFO_SLICE = slice ∧ getF t Reg.rst_BIST_INFO_BLOCK = b ∧
        (getF t Reg.rst_RST_EVENTS_EVENTS).testBit 2 = true ∧ isSet t Reg.glob_CHIP_EVENTS_FAULT_RAISED = true
      (spared → ∃ t, exec (.bistDone spares rows none) s = .next t ∧ chipState t = 2 ∧ getF t Reg.glob_SPARE_USED_BLOCK =
        (if isSet s Reg.pwr_PWR_STATUS_FROM_P3 then getF s Reg.glob_SPARE_USED_BLOCK else spares % 2 ^ 64) ∧
        (isSet s Reg.pwr_PWR_STATUS_FROM_P3 = true → t.rows = s.rows) ∧
        (isSet s Reg.pwr_PWR_STATUS_FROM_P3 = false → ∀ b row, b < 64 → row < 256 → blockPresent s b = true →
          ((⟨b, row, false⟩ : RowMap) ∈ t.rows ↔ (b, row) ∈ rows))) ∧
      (¬spared → ∃ t b, exec (.bistDone spares rows none) s = .next t ∧ stops t true b ∧ 2 < (badRows rows b).length) ∧
      (∀ slice b, b < 64 → ∃ t, exec (.bistDone spares rows (some (slice, b))) s = .next t ∧ stops t slice b)) ∧
    (∀ rate density ranks, rate < 16 → density < 16 → ranks < 2 → chipState s = 2 →
      ∃ t, exec (.trainingDone rate density ranks) s = .next t ∧ chipState t = 3 ∧ (∀ ch, ch < memChannels s.variant → chState t ch = chUp) ∧
        blkEnabled t Reg.mem_BLK_CTRL = true ∧ getF t Reg.mem_MEM_CFG_RATE = rate ∧ getF t Reg.mem_MEM_CFG_DENSITY = density ∧
        getF t Reg.mem_MEM_CFG_RANKS = ranks ∧ getF t (Reg.mbx_MBX_CFG_SENDER 63) = 8 ∧ getF t (Reg.mbx_MBX_CFG_RECEIVER 63) = 9 ∧
        getF t (Reg.mbx_MBX_CFG_SENDER 62) = 9 ∧ getF t (Reg.mbx_MBX_CFG_RECEIVER 62) = 8 ∧ t.mem = s.mem) ∧
    (∀ ref, ref < 4 →
      (bitN (getF s Reg.clk_CLK_STATUS_REF_OK) ref = true → ∃ t, exec (.referenceLost ref) s = .next t ∧
        (getF t Reg.clk_CLK_STATUS_REF_OK).testBit ref = false ∧ (getF t Reg.clk_CLK_EVENTS_REF_LOST).testBit ref = true ∧
        (∃ d, (⟨3, 3, 12, 13 + ref, d, none⟩ : FaultRep) ∈ t.faultsUp) ∧ (ref = 0 → t.holdover = true) ∧ (ref = 1 → linkUp t = false) ∧
        (ref = 2 → portUp t 0 = false ∧ portUp t 1 = false)) ∧
      (bitN (getF s Reg.clk_CLK_STATUS_REF_OK) ref = false → isSet s Reg.glob_FUSE_STATUS_LOADED = true →
        ∃ t, exec (.referenceReturn ref) s = .next t ∧ (getF t Reg.clk_CLK_STATUS_REF_OK).testBit ref = true ∧
          (ref = 0 → t.holdover = false ∧ t.warmHeld = false))) ∧
    (s.holdover = true → ∃ t, exec .refHoldoverExpiry s = .next t ∧ t.holdover = false ∧ getF t Reg.clk_CLK_STATUS_LOCK % 2 ^ 10 = 0 ∧
      isSet t Reg.clk_CLK_ALIGN_ALIGNED = false ∧
      (s.power.p3 = false → chipState s ≠ 6 → requestResult s none 1 0 = none → t.warmHeld = true ∧ chipState t = 6 ∧
        getF t Reg.rst_RST_CAUSE_CAUSE = 16)) ∧
    (∀ pll, pll < 13 → bitN (getF s Reg.clk_CLK_STATUS_LOCK) pll = true → ∃ t, exec (.pllLockLost pll) s = .next t ∧
      (getF t Reg.clk_CLK_EVENTS_LOCK_LOST).testBit pll = true ∧
      (pll ≤ 4 → s.power.p3 = false → chipState s ≠ 6 → requestResult s none 1 0 = none → getF t Reg.rst_RST_CAUSE_CAUSE = 16) ∧
      (4 < pll → (getF t Reg.clk_CLK_STATUS_LOCK).testBit pll = false ∧
        ∃ f ∈ t.faultsUp, f.kind = (if pll ≤ 8 then 10 else 12) ∧ f.unit = (if pll ≤ 8 then pll - 5 else pll)) ∧
      (pll = 10 → linkUp t = false)) ∧
    (∃ t, exec .perstN s = .next t ∧ t.pins.perstN = false ∧
      (isSet s Reg.rst_RST_CFG_PERST_WARM = false → linkUp t = false) ∧
      (isSet s Reg.rst_RST_CFG_PERST_WARM = true → requestResult s none 1 0 = none → getF t Reg.rst_RST_CAUSE_CAUSE = 8)) ∧
    (∀ domain, domain < 32 → csrOk s p Reg.clk_CLK_MEAS_SEL true = true → ∃ t, exec (.clkMeasStart p domain) s = .next t ∧
      t.measuring = true ∧ getF t Reg.clk_CLK_MEAS_SEL_DOMAIN = domain ∧ isSet t Reg.clk_CLK_MEAS_DONE = false ∧ t.mem = s.mem) ∧
    (∀ khz, s.measuring = true → ∃ t, exec (.clkMeasDone khz) s = .next t ∧ t.measuring = false ∧ isSet t Reg.clk_CLK_MEAS_DONE = true ∧
      getF t Reg.clk_CLK_MEAS_KHZ = khz % 2 ^ 24 ∧ t.mem = s.mem) ∧
    (∃ t, exec .supplyRemoval s = .next t ∧ t.power.p4 = true ∧ t.mem = [] ∧ t.csr = [] ∧ t.engs = [] ∧ t.pins.rstN = false)

/-! ### Power states, voltage, frequency and supplies (R474-R491, R539-R543) -/

/-- R475-R486: an idle core or block of a region with P1 enabled asks the governor for sleep, and a cause for waking; the governor
carries out the oldest of a region. ENTER_P2 and EXIT_P2 are refused with their result, or taken; their ends show the region's
state. P3 leaves the AON domain and, if asked, main memory; the wake address starts its end, which enters COLD_INIT or WARM_INIT. -/
def Obligations.PowerStates : Prop :=
  ∀ (s : State) (p : Party) (r : Nat), Bound s → r < 4 →
    let result := fun (t : State) => getF t Reg.pwr_PWR_STATUS_RESULT
    let ev := fun (t : State) (k : Nat) => (getF t Reg.pwr_PWR_EVENTS_EVENTS).testBit k
    let cmd := csrOk s p Reg.pwr_PWR_CMD true = true
    let busy := isSet s Reg.pwr_PWR_STATUS_BUSY
    let there := regionPresent s.variant r
    (∀ c, corePresent s c = true → regionRuns s (regionOfCore c) = true → coreHeld s c = false → p1On s (regionOfCore c) = true →
      (core s c).asleep = false → coreIdle s c = true →
      ∃ t, exec (.coreSleep c) s = .next t ∧ (⟨false, c, false⟩ : GovAct) ∈ t.power.gov ∧ t.cores = s.cores ∧ t.csr = s.csr) ∧
    (∀ b, blockPresent s b = true → regionRuns s (regionOfBlock b) = true → p1On s (regionOfBlock b) = true → blockAsleep s b = false →
      blockIdle s b = true → ∃ t, exec (.blockSleep b) s = .next t ∧ (⟨true, b, false⟩ : GovAct) ∈ t.power.gov ∧ t.csr = s.csr) ∧
    (∀ c, corePresent s c = true → ∃ t, exec (.wakeCause false c) s = .next t ∧ (⟨false, c, false⟩ : GovAct) ∉ t.power.gov ∧
      t.cores = s.cores ∧ ((core s c).asleep = true → (⟨false, c, true⟩ : GovAct) ∈ t.power.gov)) ∧
    (∀ b, blockPresent s b = true → ∃ t, exec (.wakeCause true b) s = .next t ∧ t.cores = s.cores ∧
      (blockAsleep s b = true → (⟨true, b, true⟩ : GovAct) ∈ t.power.gov)) ∧
    (∀ a waited, s.power.gov.find? (fun a => govRegion a == r) = some a → NothingWaits s →
      ∃ t, exec (.governorAdmit r waited) s = .next t ∧ t.power.gov = s.power.gov.erase a ∧
        getF t (Reg.pwr_GOV_MAX_WAIT_NS r) = max (getF s (Reg.pwr_GOV_MAX_WAIT_NS r)) (min waited 0xFFFFFFFF) ∧
        (a.block = false → a.wake = true → (core t a.unit).asleep = false) ∧
        (a.block = false → a.wake = false → coreIdle s a.unit = true → (core t a.unit).asleep = true) ∧
        (a.block = true → a.wake = true → blockAsleep t a.unit = false) ∧
        (a.block = true → a.wake = false → blockIdle s a.unit = true → blockAsleep t a.unit = true)) ∧
    (∀ compat, cmd →
      (∀ i ∈ [Instr.enterP2 p r compat, .exitP2 p r],
        (busy = true → ∃ t, exec i s = .next t ∧ result t = 4 ∧ CsrKept [Reg.pwr_PWR_STATUS_RESULT] s t ∧ t.power = s.power) ∧
        (busy = false → there = false → ∃ t, exec i s = .next t ∧ result t = 3 ∧ CsrKept [Reg.pwr_PWR_STATUS_RESULT] s t ∧
          t.power = s.power)) ∧
      (busy = false → there = true →
        (∀ w, p2Why s r compat = some w → ∃ t, exec (.enterP2 p r compat) s = .next t ∧ result t = 2 ∧ getF t Reg.pwr_PWR_STATUS_WHY = w ∧
          ev t 7 = true ∧ regionPwr t r = regionPwr s r) ∧
        (p2Why s r compat = none → ∃ t, exec (.enterP2 p r compat) s = .next t ∧ isSet t Reg.pwr_PWR_STATUS_BUSY = true ∧
          regionPwr t r = 1 ∧ (getF t Reg.glob_CHIP_STATUS_REGION_READY).testBit r = false ∧ t.power.compat = compat ∧
          t.power.cmdRegion = some r ∧ t.mem = s.mem) ∧
        (inP2 s r = true → ∃ t, exec (.exitP2 p r) s = .next t ∧ isSet t Reg.pwr_PWR_STATUS_BUSY = true ∧ regionPwr t r = 4 ∧
          bitN t.pins.vcoreEn r = true ∧ t.mem = s.mem) ∧
        (inP2 s r = false → regionPwr s r ≠ 4 → ∃ t, exec (.exitP2 p r) s = .next t ∧ result t = 1 ∧ regionPwr t r = regionPwr s r))) ∧
    (regionPwr s r = 1 → ∃ t, exec (.p2EntryDone r) s = .next t ∧ ev t 6 = true ∧ (getF t Reg.clk_CLK_STATUS_LOCK).testBit (5 + r) = false ∧
      regionPwr t r = (if s.power.exitNext.contains r then 4 else if s.power.compat then 3 else 2) ∧
      bitN t.pins.vcoreEn r = s.power.exitNext.contains r ∧
      (s.power.cmdRegion = some r → isSet t Reg.pwr_PWR_STATUS_BUSY = false ∧ result t = 1)) ∧
    (regionPwr s r = 4 → bitN s.pins.vcorePg r = true → regionHeld s r = false → (∀ q ∈ s.resets, q.waits = false) →
      ∃ t, exec (.p2ExitDone r) s = .next t ∧ regionPwr t r = 0 ∧ (getF t Reg.glob_CHIP_STATUS_REGION_READY).testBit r = true ∧
        (getF t Reg.clk_CLK_STATUS_LOCK).testBit (5 + r) = true ∧ (s.power.compatRegions.contains r = false → t.mem = s.mem) ∧
        (s.power.compatRegions.contains r = true →
          ∀ a, isCoreWindow a = true → regionOfCore (coreOfAddr a) = r → getByte t.mem a = unlistedByte)) ∧
    (cmd → s.power.p3 = false → ∃ t, exec (.enterP3 p) s = .next t ∧ t.power.p3 = true ∧ chipState t = 6 ∧ result t = 1 ∧ t.engs = [] ∧
      t.pins.sysPwrEn = false ∧ t.pins.ioZ = true ∧ t.power.memLost = (!isSet s Reg.pwr_PWR_CFG_P3_MEM_SR) ∧
      (∀ k ∈ regions s, regionHeld t k = true) ∧
      ∀ a, mainBase ≤ a → getByte t.mem a = if isSet s Reg.pwr_PWR_CFG_P3_MEM_SR then getByte s.mem a else unlistedByte) ∧
    (∀ addr, s.power.p4 = false → isSet s Reg.pwr_PWR_WAKE_CFG_EN = true → getF s Reg.pwr_PWR_WAKE_CFG_ADDR = addr → 8 ≤ addr → addr < 0x78 →
      ∃ t, exec (.i2cWake addr) s = .next t ∧ ev t 5 = true ∧
        (s.power.p3 = true → t.power.waking = true ∧ t.pins.sysPwrEn = true ∧ t.pins.memPwrEn = true) ∧
        (s.power.p3 = false → inP2 s r = true → bitN (getF s Reg.pwr_PWR_WAKE_CFG_P2_MASK) r = true → regionPwr t r = 4)) ∧
    (s.power.p3 = true → s.power.waking = true → suppliesUp s = true → s.pins.rstN = true →
      ∃ t, exec .p3Exit s = .next t ∧ t.power.p3 = false ∧ isSet t Reg.pwr_PWR_STATUS_FROM_P3 = true ∧ ev t 8 = true ∧
        (s.power.memLost = true → chipState t = 0) ∧ (s.power.memLost = false → chipState t = 6 ∨ chipState t = 7))

/-- R480, R488-R491, R539-R543: a write of PWR_VF that meets a rule's refusal sets its flags and changes nothing; else the targets
are set and the change begins, voltage before clock, unless the regulator does not acknowledge it. The change ends with its values.
PWR_PMBUS tells whether the regulator's mode is fit. The check of the cap shows the estimates and, above the cap, lowers the clock
of the region that uses most, down to its floor. A rail that fails holds its region; the other supplies follow their rules. -/
def Obligations.VoltageAndSupplies : Prop :=
  ∀ (s : State) (p : Party) (r : Nat), Bound s → r < 4 →
    let ev := fun (t : State) (k : Nat) => (getF t Reg.pwr_PWR_EVENTS_EVENTS).testBit k
    (∀ vmv mult acked, vmv < 1024 → mult < 16 → csrOk s p (Reg.pwr_PWR_VF r) true = true →
      let i := Instr.pwrVfWrite p r vmv mult acked
      let m := max 4 mult
      let flags := vfFlags s r vmv m
      let kept := fun (t : State) => CsrKept [Reg.pwr_PWR_EVENTS_EVENTS] s t ∧ t.power = s.power
      let target := fun (t : State) => getF t (Reg.pwr_PWR_VF_VMV r) = vmv ∧ getF t (Reg.pwr_PWR_VF_MULT r) = mult
      (regionDown s r = true → ∃ t, exec i s = .next t ∧ ev t 9 = true ∧ kept t) ∧
      (regionDown s r = false → flags ≠ [] → ∃ t, exec i s = .next t ∧ kept t ∧ ∀ k ∈ flags, ev t k = true) ∧
      (regionDown s r = false → flags = [] → vmv ≠ getF s (Reg.pwr_PWR_VF_VMV r) → acked = false →
        ∃ t, exec i s = .next t ∧ target t ∧ ev t 2 = true ∧ curVmv t r = curVmv s r ∧ t.power.vPending = s.power.vPending ∧
          t.power.mPending = s.power.mPending) ∧
      (regionDown s r = false → flags = [] → vmv ≠ getF s (Reg.pwr_PWR_VF_VMV r) → acked = true → ∃ t, exec i s = .next t ∧ target t ∧
        isSet t (Reg.pwr_PWR_VF_STATUS_SETTLING r) = true ∧ isSet t (Reg.pwr_PWR_VF_STATUS_V_OK r) = false ∧
        tfind r t.power.vPending = some vmv) ∧
      (regionDown s r = false → flags = [] → vmv = getF s (Reg.pwr_PWR_VF_VMV r) → m ≠ curMult s r → ∃ t, exec i s = .next t ∧ target t ∧
        isSet t (Reg.clk_CLK_CORE_CHANGING r) = true ∧ tfind r t.power.mPending = some m) ∧
      (regionDown s r = false → flags = [] → ∃ t, exec i s = .next t ∧ ∀ k ∈ t.power.capped, curMult t k < vfMult t k)) ∧
    (∀ v, tfind r s.power.vPending = some v → ∃ t, exec (.vfSettled r) s = .next t ∧ curVmv t r = v % 1024 ∧
      tfind r t.power.vDue = none ∧ (tfind r s.power.vDue = none → tfind r t.power.vPending = none ∧
        isSet t (Reg.pwr_PWR_VF_STATUS_SETTLING r) = false ∧ isSet t (Reg.pwr_PWR_VF_STATUS_V_OK r) = true)) ∧
    (∀ m, tfind r s.power.mPending = some m → ∃ t, exec (.multChangeDone r) s = .next t ∧
      getF t (Reg.pwr_PWR_VF_STATUS_CUR_MULT r) = m % 16 ∧ getF t (Reg.clk_CLK_CORE_MULT r) = m % 16 ∧
      isSet t (Reg.clk_CLK_CORE_CHANGING r) = false ∧
      ((∀ k ∈ regions s, k ≠ r → clockStands s k = false) → isSet t Reg.clk_CLK_ALIGN_ALIGNED = true)) ∧
    (∀ addr ramp vout, addr < 128 → ramp < 65536 → csrOk s p (Reg.pwr_PWR_PMBUS r) true = true →
      ∃ t, exec (.pmbusAddrWrite p r addr ramp vout) s = .next t ∧ getF t (Reg.pwr_PWR_PMBUS_ADDR r) = addr ∧
        getF t (Reg.pwr_PWR_PMBUS_VRAMP_US r) = ramp ∧
        (∀ v, vout = some v → v / 32 % 8 = 0 → isSet t (Reg.pwr_PWR_VF_STATUS_MODE_OK r) = true ∧
          tfind r t.power.vExp = some (sx 5 (v % 32))) ∧
        ((∀ v, vout = some v → v / 32 % 8 ≠ 0) → isSet t (Reg.pwr_PWR_VF_STATUS_MODE_OK r) = false ∧ ev t 2 = true)) ∧
    (∀ e0 e1 e2 e3 total, s.power.p3 = false → s.power.p4 = false →
      let i := Instr.powerCapCheck e0 e1 e2 e3 total
      let est := fun (k : Nat) => [e0, e1, e2, e3].getD k 0
      let shown := fun (t : State) => getF t Reg.pwr_PWR_EST_MILLIWATTS = min total 0x3FFFF ∧
        getF t (Reg.pwr_PWR_EST_R_MILLIWATTS r) = min (est r) 0x3FFFF ∧ t.mem = s.mem
      let cap := getF s Reg.pwr_PWR_CAP_WATTS * 1000
      let low := pickRegion est ((regions s).filter (fun k => regionPwr s k == 0 && decide (capFloor s k < curMult s k)))
      (∃ t, exec i s = .next t ∧ shown t ∧ (isSet s Reg.pwr_PWR_CAP_EN = false → t.power.below = 0 ∧ t.power.mPending = s.power.mPending)) ∧
      (isSet s Reg.pwr_PWR_CAP_EN = true → cap < total →
        (∀ k, low = some k → ∃ t, exec i s = .next t ∧ tfind k t.power.mPending = some (curMult s k - 1) ∧ k ∈ t.power.capped ∧ ev t 3 = true) ∧
        (low = none → ∃ t, exec i s = .next t ∧ ev t 4 = true ∧ t.power.mPending = s.power.mPending))) ∧
    (bitN s.pins.vcorePg r = true → ∃ t, exec (.vcorePgFall r) s = .next t ∧ bitN t.pins.vcorePg r = false ∧
      (regionPresent s.variant r = true → bitN s.pins.vcoreEn r = true → inP2 s r = false → chipState s ≠ 0 → s.power.p3 = false →
        s.power.p4 = false → r ∈ t.power.railHeld ∧ (⟨2, 2, 11, r, 0, none⟩ : FaultRep) ∈ t.faultsUp ∧
        ((∀ q ∈ s.resets, ¬(q.kind = 3 ∧ q.target = r)) → regionHeld t r = true))) ∧
    (∃ t, exec (.vcorePgRise r) s = .next t ∧ bitN t.pins.vcorePg r = true ∧ r ∉ t.power.railHeld ∧ t.csr = s.csr) ∧
    (s.power.p4 = false → s.pins.sysPg = false → ∃ t, exec .sysPgRise s = .next t ∧ t.pins.sysPg = true ∧ t.pins.vcoreEn = vcoreOn s ∧
      t.pins.ioZ = false ∧ t.csr = s.csr) ∧
    (s.pins.sysPg = true → ∃ t, exec .sysPgFall s = .next t ∧ t.pins.sysPg = false ∧ t.pins.vcoreEn = 0 ∧
      (s.pins.sysPwrEn = true → s.power.p4 = false → chipState s ≠ 0 → t.power.p3 = true ∧ t.power.waking = true ∧
        t.power.memLost = true ∧ t.pins.sysPwrEn = false ∧ t.pins.ioZ = true ∧ chipState t = 6)) ∧
    (s.power.p4 = true → ∃ t, exec .vddAonRise s = .next t ∧ t.power.p4 = false ∧ t.pins.rstN = false ∧ t.mem = [] ∧ t.engs = [] ∧
      getF t Reg.rst_RST_CAUSE_CAUSE = 1) ∧
    (∀ sensor, s.power.p4 = false → ∃ t, exec (.thermTrip sensor) s = .next t ∧ t.pins.thermTripN = false ∧ t.csr = s.csr ∧ t.mem = s.mem)

/-! ### The security controller and the configuration loader (R497-R519) -/

/-- R499-R510: the identity key is unwrapped when its domain has risen, and ID_OK shows whether its tag holds. An OFFER or ATTEST of
the mailbox's sender is acknowledged with its code at once; an accepted OFFER begins the verification, an accepted ATTEST reports
its result, and where the identity is good it writes the report into its buffer, after the nonce that stands there; it waits for a
channel in training. The flash's image, as long as its header says, goes to main memory and is verified; a DATA datagram is stored
and answered; DONE is an OFFER; a frame that is no boot datagram changes nothing. A verification that fails enters RECOVERY with its
code, one that passes enters READY, but for what the image's own register loads then do. The place of the tag in ID_WRAPPED is log
entry 27's. -/
def Obligations.BootAndIdentity : Prop :=
  ∀ (s : State), Bound s →
    let clean := fun (ws : List Nat) => ∀ w ∈ ws, eccAt s w = 0
    (s.sec.unwrapDue = true → s.power.p3 = false → s.power.p4 = false → ∃ t, exec .pufUnwrap s = .next t ∧ t.mem = s.mem ∧
      (let tagHolds := (Config.idWrapped.drop 2305).take 32 = Config.shakeBytes (pufKey ++ Config.idWrapped.take 2305) 32
       (tagHolds → isSet t Reg.sec_SEC_STATUS_ID_OK = true ∧ t.sec = { s.sec with
         unwrapDue := false
         idKey := some (List.zipWith (· ^^^ ·) (Config.idWrapped.take 2305) (Config.shakeBytes (pufKey ++ [2]) 2305)) }) ∧
       (¬tagHolds → isSet t Reg.sec_SEC_STATUS_ID_OK = false ∧ t.sec = { s.sec with unwrapDue := false, idKey := none }))) ∧
    (∀ n off, n = 61 ∨ n = 63 → off < 2 ^ 28 → s.power.p3 = false → s.power.p4 = false →
      let p := boxSender s n
      let cfg := rdWord s (Reg.mbx_MBX_CFG n)
      let box := resultBox n
      let cfgB := rdWord s (Reg.mbx_MBX_CFG box)
      csrOk s p (Reg.mbx_MBX_DATA n) true = true → cfgReceiver cfg = 9 → cfgSender cfg < 10 → mbxParty p = some (cfgSender cfg) →
      isSet s (Reg.mbx_MBX_STATUS_FULL n) = false →
      let acked := fun (code : Nat) (t : State) => isSet t (Reg.mbx_MBX_STATUS_FULL n) = false ∧
        isSet t (Reg.mbx_MBX_STATUS_ACKED n) = true ∧ getF t (Reg.mbx_MBX_STATUS_CODE n) = code
      let boxOpen := cfgSender cfgB = 9 ∧ cfgReceiver cfgB < 10 ∧ isSet s (Reg.mbx_MBX_STATUS_FULL box) = false
      let reports := fun (code : Nat) (t : State) => boxOpen → isSet t (Reg.mbx_MBX_STATUS_FULL box) = true ∧
        rdWord t (Reg.mbx_MBX_DATA box) = BitVec.ofNat 32 (9 * 2 ^ 28 + code)
      let a := mainBase + off * 0x1000
      (∃ t, exec (.offer n off) s = .next t ∧ acked (offerCode s (off * 0x10000)) t ∧ t.mem = s.mem ∧
        t.sec = if offerCode s (off * 0x10000) = 0 then { s.sec with verify := some ⟨off * 0x10000, some box⟩ } else s.sec) ∧
      (attestCode s (off * 0x1000) ≠ 0 → ∃ t, exec (.attest n off) s = .next t ∧ acked (attestCode s (off * 0x1000)) t ∧ t.mem = s.mem ∧
        t.sec = s.sec) ∧
      (attestCode s (off * 0x1000) = 0 →
        (mainWaits s a 4096 = true → ∃ t, exec (.attest n off) s = .next t ∧ acked 0 t ∧ t.mem = s.mem ∧
          t.sec = { s.sec with attest := some (off * 0x1000, box) }) ∧
        (mainWaits s a 4096 = false → s.sec.idKey = none →
          ∃ t, exec (.attest n off) s = .next t ∧ acked 0 t ∧ reports 1 t ∧ (cfgReceiver cfgB ≠ 10 → t.mem = s.mem)) ∧
        (s.sec.idKey ≠ none → mainTakes s a 4096 = false →
          ∃ t, exec (.attest n off) s = .next t ∧ acked 0 t ∧ reports 2 t ∧ (cfgReceiver cfgB ≠ 10 → t.mem = s.mem)) ∧
        (s.sec.idKey ≠ none → mainTakes s a 4096 = true → mainWaits s a 4096 = false → clean (words8 a 4096) →
          ∃ t, exec (.attest n off) s = .next t ∧ acked 0 t ∧ reports 0 t ∧ (cfgReceiver cfgB ≠ 10 → MemKept a 4096 s t ∧
            getBytes t.mem a 32 = getBytes s.mem a 32 ∧ rdNum t (a + 32) 4 = 1)))) ∧
    (∀ flash, bootSrc s = 1 → served s = true → s.sec.verify = none →
      let image := flash.take (ofBytes ((flash.drop 0x10).take 4))
      ∃ t, exec (.spiReadDone flash) s = .next t ∧ t.sec = { s.sec with verify := some ⟨0, none⟩ } ∧
        (mainTakes s mainBase image.length = true → mainWaits s mainBase image.length = false →
          clean (mainJudged mainBase (.write image)) →
          getBytes t.mem mainBase image.length = image ∧ MemKept mainBase image.length s t ∧ t.csr = s.csr)) ∧
    (∀ frame, aetBoot s = true →
      let answers := fun (m : BootMsg) (status : Nat) (t : State) =>
        t.outside.frames = s.outside.frames ++ [(0, wireFrame (bootReply s frame m status))]
      (∀ m, bootMsg s frame = some m → m.op = 1 →
        let a := mainBase + m.offset
        let fits := m.data.length ≤ 8192 ∧ m.offset + m.data.length ≤ 0x10000000 ∧ mainTakes s a m.data.length = true
        (fits → mainWaits s a m.data.length = false → clean (mainJudged a (.write m.data)) →
          ∃ t, exec (.bootData frame) s = .next t ∧ getBytes t.mem a m.data.length = m.data ∧ MemKept a m.data.length s t ∧
            answers m 0 t) ∧
        (¬fits → ∃ t, exec (.bootData frame) s = .next t ∧ t.mem = s.mem ∧ answers m 1 t)) ∧
      (∀ m, bootMsg s frame = some m → m.op = 2 →
        (m.offset % 0x10000 = 0 → offerCode s m.offset = 0 → ∃ t, exec (.bootDone frame) s = .next t ∧
          t.sec = { s.sec with verify := some ⟨m.offset, none⟩ } ∧ answers m 0 t) ∧
        (m.offset % 0x10000 ≠ 0 ∨ offerCode s m.offset ≠ 0 → ∃ t, exec (.bootDone frame) s = .next t ∧ t.sec = s.sec ∧ answers m 1 t)) ∧
      ((bootMsg s frame).map (·.op) ≠ some 1 → ∃ t, exec (.bootData frame) s = .next t ∧ t = withSic s t) ∧
      ((bootMsg s frame).map (·.op) ≠ some 2 → ∃ t, exec (.bootDone frame) s = .next t ∧ t = withSic s t)) ∧
    (∀ v, s.sec.verify = some v → verifyRuns s = true → v.mailbox ∈ [none, some 60, some 62] →
      let a := mainBase + v.offset
      let code := bootResult s a
      (code ≠ 0 → ∃ t, exec .imageVerified s = .next t ∧ chipState t = 7 ∧ getF t Reg.sec_SEC_STATUS_RESULT = code ∧
        (getF t Reg.sec_SEC_EVENTS_EVENTS).testBit 0 = true ∧ t.sec.verify = none ∧
        (cfgReceiver (rdWord s (Reg.mbx_MBX_CFG (v.mailbox.getD 62))) ≠ 10 → t.mem = s.mem) ∧
        getF t Reg.sec_BOOT_FAILS_COUNT = min (getF s Reg.sec_BOOT_FAILS_COUNT + 1) (2 ^ 32 - 1)) ∧
      (code = 0 → ∃ t, exec .imageVerified s = .next t ∧ ((∀ q ∈ imgTable s a, q.ty ≠ 3 ∧ q.ty ≠ 4) → chipState t = 4) ∧
        getF t Reg.sec_SEC_STATUS_RESULT = 0 ∧
        isSet t Reg.boot_BOOT_IMAGE_VALID = true ∧ getF t Reg.boot_BOOT_IMAGE_OFFSET = v.offset / 0x10000 % 2 ^ 28 ∧
        getF t Reg.sec_SEC_STATUS_KEY_SLOT = rdNum s (a + 0xC) 4 % 4 ∧ t.sec.root = imgRoot s a))

/-- R511-R519: a word of PROT_SHADOW and a stage by an application core in S- or M-mode are taken while nothing is staged; else they
are ignored and flagged. A commit by the security controller with the staged nonce makes a valid shadow live, gives every slice its
default owner and counts; another one is rejected with its reason, as a decline and an expiry are. The configuration loader takes a
command while it is idle, and waits for channels in training and for a target that is held back (log entries 28 and 29: when the
target is tried, and BUSY for one that does not answer). At its end it shows its result. DONE: its entries are written in their
order, a register as by the controller's own REGISTER_WRITE, and CFG_DEFAULTED of the target is clear. A target whose image fails
has its registers' Reset values, its stores zero, CFG_DEFAULTED and SEC_EVENTS[3] set. -/
def Obligations.ProtectionAndLoader : Prop :=
  ∀ (s : State) (p : Party), Bound s →
    let okAt := fun (a : Nat) => csrOk s p a true = true
    let ignored := fun (t : State) => isSet t Reg.sec_PROT_STATUS_IGNORED = true ∧ CsrKept [Reg.sec_PROT_STATUS_IGNORED] s t ∧ t.sec = s.sec
    let rejected := fun (reason : Nat) (t : State) => t.sec = { s.sec with staged := none } ∧ isSet t Reg.sec_PROT_STATUS_STATE = false ∧
      isSet t Reg.sec_PROT_REJECT_VALID = true ∧ getF t Reg.sec_PROT_REJECT_REASON = reason ∧
      (getF t Reg.sec_SEC_EVENTS_EVENTS).testBit 1 = true ∧ t.mem = s.mem
    let free := mayPropose p = true ∧ s.sec.staged = none
    (∀ w v, w < 262 → okAt (Reg.protShadow_PROT_SHADOW w) →
      (free → ∃ t, exec (.protShadowWrite p w v) s = .next t ∧ rdWord t (Reg.protShadow_PROT_SHADOW w) = v ∧ t.sec = s.sec ∧
        CsrKept [Reg.protShadow_PROT_SHADOW_W w] s t) ∧
      (¬free → ∃ t, exec (.protShadowWrite p w v) s = .next t ∧ ignored t)) ∧
    (∀ nonce, okAt Reg.sec_PROT_STAGE →
      (free → ∃ t, exec (.protStage p nonce) s = .next t ∧ t.sec = { s.sec with staged := some nonce } ∧
        isSet t Reg.sec_PROT_STATUS_STATE = true ∧ CsrKept [Reg.sec_PROT_STATUS_STATE] s t) ∧
      (¬free → ∃ t, exec (.protStage p nonce) s = .next t ∧ ignored t)) ∧
    (∀ nonce, okAt Reg.sec_PROT_COMMIT →
      (p ≠ .sec → ∃ t, exec (.protCommit p nonce) s = .next t ∧ ignored t) ∧
      (p = .sec → s.sec.staged = none → ∃ t, exec (.protCommit p nonce) s = .next t ∧ rejected 5 t) ∧
      (∀ n, p = .sec → s.sec.staged = some n →
        (n ≠ nonce → ∃ t, exec (.protCommit p nonce) s = .next t ∧ rejected 1 t) ∧
        (n = nonce → protInvalid (shadowWords s) = true → ∃ t, exec (.protCommit p nonce) s = .next t ∧ rejected 3 t) ∧
        (n = nonce → protInvalid (shadowWords s) = false → ∃ t, exec (.protCommit p nonce) s = .next t ∧
          t.sec = { s.sec with staged := none, live := protOf (shadowWords s) } ∧ isSet t Reg.sec_PROT_STATUS_STATE = false ∧
          getF t Reg.sec_PROT_GEN_COUNT = (getF s Reg.sec_PROT_GEN_COUNT + 1) % 2 ^ 32 ∧ t.mem = s.mem ∧
          ∀ b, blockPresent s b = true → rdWord t (Reg.slice_SLICE_OWNER b) = BitVec.ofNat 32 (protOf (shadowWords s)).defOwner))) ∧
    (∀ v, okAt Reg.sec_PROT_DECLINE →
      (p = .sec → ∃ t, exec (.protDecline p v) s = .next t ∧ rejected 4 t) ∧
      (p ≠ .sec → ∃ t, exec (.protDecline p v) s = .next t ∧ t.sec = s.sec ∧ t.csr = s.csr)) ∧
    (s.sec.staged ≠ none → ∃ t, exec .protExpired s = .next t ∧ rejected 2 t) ∧
    (okAt Reg.sec_CFGLOAD_CMD →
      (isSet s Reg.sec_CFGLOAD_STATUS_BUSY = false → ∃ t, exec (.cfgloadCmd p) s = .next t ∧ isSet t Reg.sec_CFGLOAD_STATUS_BUSY = true ∧
        CsrKept [Reg.sec_CFGLOAD_STATUS_BUSY] s t) ∧
      (isSet s Reg.sec_CFGLOAD_STATUS_BUSY = true → ∃ t, exec (.cfgloadCmd p) s = .next t ∧ isSet t Reg.sec_CFGLOAD_STATUS_IGNORED = true ∧
        isSet t Reg.sec_CFGLOAD_STATUS_BUSY = true ∧ CsrKept [Reg.sec_CFGLOAD_STATUS_IGNORED] s t)) ∧
    (isSet s Reg.sec_CFGLOAD_STATUS_BUSY = true →
      let a := getF s Reg.sec_CFGLOAD_ADDR_ADDR * 8
      let code := loadResult s a
      let tgt := if readable s a 16 then loadTarget s a else .none
      let wd := fun (f : FieldRef) => f.addr
      ((loadWaits s a = true ∨ loadHeld s tgt = true) → ∃ t, exec .cfgloadDone s = .next t ∧
        isSet t Reg.sec_CFGLOAD_STATUS_BUSY = true ∧ t.mem = s.mem ∧ t.csr = s.csr) ∧
      (loadWaits s a = false → loadHeld s tgt = false → (∀ w ∈ words8 a (16 + loadLen s a), eccAt s w = 0) →
        ∃ t, exec .cfgloadDone s = .next t ∧ isSet t Reg.sec_CFGLOAD_STATUS_BUSY = false ∧ getF t Reg.sec_CFGLOAD_STATUS_RESULT = code ∧
        (code = 4 → t.mem = s.mem ∧ CsrKept [Reg.sec_CFGLOAD_STATUS_RESULT] s t) ∧
        (code = 2 ∨ code = 3 → (getF t Reg.sec_SEC_EVENTS_EVENTS).testBit 3 = true ∧
          (∀ g, loadGovernor tgt = some g → isSet t (defaultedRef g) = true) ∧
          (∀ w, loadCovers tgt w = true → (∀ g, loadGovernor tgt = some g → w ≠ wd (defaultedRef g)) →
            w ≠ wd Reg.sec_SEC_EVENTS_EVENTS → w ≠ wd Reg.sec_CFGLOAD_STATUS_RESULT → w ≠ wd Reg.glob_CHIP_EVENTS_CFG_DEFAULTED_SEEN →
            rdWord t w = afterReset w (rdWord s w)) ∧
          ∀ c, tgt = .core c → ∀ o, o < 0x40000 → getByte t.mem (coreBase c + o) = unlistedByte) ∧
        (code = 1 → let u := (loadEntries s a).1.foldl (writeEntry tgt) s
          t.mem = u.mem ∧ (∀ g, loadGovernor tgt = some g → isSet t (defaultedRef g) = false) ∧
          (∀ w, (∀ g, loadGovernor tgt = some g → w ≠ wd (defaultedRef g)) → w ≠ wd Reg.sec_CFGLOAD_STATUS_RESULT →
            rdWord t w = rdWord u w) ∧
          ∀ c e, tgt = .core c → (loadEntries s a).1 = [e] →
            let at' := coreBase c + rdBits s e 0 18
            let n := 4 * rdNum s (e + 4) 2
            getBytes t.mem at' n = getBytes s.mem (e + 8) n ∧ MemKept at' n s t)))

/-! ### The step and the whole device -/

/-- A step at a state with a command waiting is that command, with the queue's rest (what the block's interface asks). -/
def Obligations.StepTakesFront : Prop :=
  ∀ (s : State) (c : Instr) (rest : List Instr), s.pending = c :: rest →
    step s = exec c { s with pending := rest }

/-- The model's choice of log entry 5: on an empty queue one AON_CLK cycle of 10 ns passes. The recorder's clock, CL_MTIME (R386),
the fabric's cycles with RTR_STALL_CYCLES of the routers where a packet waits (R195, R201), and PTP_TIME with the tick grid at its
steered rate (R366) move, each only while its clock runs. BUSY_CYCLES and STALL_CYCLES of the engines that have work gain free
numbers of cycles (R102, log 6). Nothing else changes. -/
def Obligations.IdleCycle : Prop :=
  ∀ s : State, s.pending = [] → ∃ t, step s = .next t ∧
    (let aon := s.pins.rstN = true ∧ s.power.p4 = false
     let on := aon ∧ s.power.p3 = false
     t = { s with csr := t.csr, recorder := t.recorder, fab := t.fab, aet := t.aet, free := t.free } ∧
     t.recorder = { s.recorder with cycles := t.recorder.cycles, micros := t.recorder.micros, seconds := t.recorder.seconds,
                                    hours := t.recorder.hours } ∧
     CsrKept (Reg.cl_CL_MTIME_TIME :: Reg.aet_PTP_TIME_NS :: (waitingRouters s).map Reg.rtr_RTR_STALL_CYCLES_COUNT ++
       (if on then workingEngines s else []).flatMap (fun p => [Reg.eng_BUSY_CYCLES_COUNT p.1 p.2, Reg.eng_STALL_CYCLES_COUNT p.1 p.2]))
       s t ∧
     t.free = s.free + (if on then 2 * (workingEngines s).length else 0) ∧
     getF t Reg.cl_CL_MTIME_TIME = (if on ∧ bitN (getF s Reg.clk_CLK_STATUS_REF_OK) 0 = true
       then (getF s Reg.cl_CL_MTIME_TIME + 1) % 2 ^ 64 else getF s Reg.cl_CL_MTIME_TIME) ∧
     t.fab = { s.fab with now := if on then s.fab.now + 1 else s.fab.now } ∧
     (∀ r, r < 1024 → getF t (Reg.rtr_RTR_STALL_CYCLES_COUNT r) = if on ∧ r ∈ waitingRouters s
       then (getF s (Reg.rtr_RTR_STALL_CYCLES_COUNT r) + 16) % 2 ^ 64 else getF s (Reg.rtr_RTR_STALL_CYCLES_COUNT r)) ∧
     t.aet = { s.aet with tbTime := t.aet.tbTime, frac := t.aet.frac } ∧
     (on ∧ bitN (getF s Reg.clk_CLK_STATUS_LOCK) 3 = true → ∃ n, t.aet.tbTime = s.aet.tbTime + n ∧ t.aet.frac < 2 ^ 42 ∧
       n * 2 ^ 42 + t.aet.frac = s.aet.frac + (10 * (2 ^ 42 + rateAdj s)).toNat ∧
       getF t Reg.aet_PTP_TIME_NS = (getF s Reg.aet_PTP_TIME_NS + n) % 2 ^ 64) ∧
     (¬(on ∧ bitN (getF s Reg.clk_CLK_STATUS_LOCK) 3 = true) →
       t.aet = s.aet ∧ getF t Reg.aet_PTP_TIME_NS = getF s Reg.aet_PTP_TIME_NS) ∧
     (let n (k : Sys2Proof.Machine.Recorder) : Nat := k.cycles + 100 * (k.micros + 1000000 * (k.seconds + 3600 * k.hours))
      s.recorder.cycles < 100 → s.recorder.micros < 1000000 → s.recorder.seconds < 3600 → s.recorder.hours < 0xFFFFF →
        n t.recorder = n s.recorder + (if aon then 1 else 0)))

/-- R44: reset gives each register the value of its table: HOST_EN of sources 8, 16 and 24 with vectors 0, 1 and 2 and of no other
(R392), the segments of BAR0 (R394), GANDER_LIMIT, the fabric's limits, CL_MTIMECMP, the core regulators (PWR_VF,
PWR_PMBUS.VRAMP_US), the idle time of P1; the state is COLD_INIT, no register word and no byte of memory differs from what reset
leaves, and no command waits. -/
def Obligations.ResetValues : Prop :=
  (State.reset.pending = [] ∧ State.reset.csr = [] ∧ State.reset.mem = [] ∧ State.reset.rsvDirty = false) ∧
  getF State.reset Reg.glob_CHIP_STATUS_STATE = 0 ∧
  (∀ n, n < 1024 → getF State.reset (Reg.sic_SIC_SRC_HOST_EN n) = (if n = 8 ∨ n = 16 ∨ n = 24 then 1 else 0)) ∧
  ([8, 16, 24].map (fun n => getF State.reset (Reg.sic_SIC_SRC_VECTOR n)) = [0, 1, 2]) ∧
  ((List.range 9).map (fun i => getF State.reset (Reg.pcie_PCIE_SEG_BASE i)) =
    [0x3070, 0x0030, 0x0024, 0x3050, 0x3052, 0x3030, 0x0040, 0x0021, 0x305F]) ∧
  (∀ i, i < 64 → getF State.reset (Reg.pcie_PCIE_SEG_VALID i) = (if i < 9 ∨ i = 63 then 1 else 0)) ∧
  getF State.reset (Reg.pcie_PCIE_SEG_BASE 63) = 0x3072 ∧
  (∀ c e, c < 1024 → e < 6 → getF State.reset (Reg.eng_GANDER_LIMIT_LIMIT c e) = 1048576) ∧
  getF State.reset Reg.fab_FAB_CFG_STALL_LIMIT = 0x40 ∧ getF State.reset Reg.fab_FAB_CFG_RETX_TIMEOUT = 0x100 ∧
  (∀ n, n < 8 → getF State.reset (Reg.cl_CL_MTIMECMP_TIME n) = 2 ^ 64 - 1) ∧
  (∀ r, r < 4 → getF State.reset (Reg.pwr_PWR_VF_VMV r) = 0x320 ∧ getF State.reset (Reg.pwr_PWR_VF_MULT r) = 15 ∧
    getF State.reset (Reg.pwr_PWR_PMBUS_VRAMP_US r) = 20) ∧ getF State.reset Reg.pwr_PWR_P1_CFG_CORE_IDLE = 0x100

/-- R9: once a reserved field holds a changed value the rules bind the device no longer, and every command ends in that fault; in
every other state every command of the table answers a next state: none is refused. -/
def Obligations.EveryCommandAnswers : Prop :=
  ∀ (i : Instr) (s : State),
    (s.rsvDirty = true → exec i s = .fault .reservedChanged) ∧ (s.rsvDirty = false → ∃ t, exec i s = .next t)

/-- R392: in every state that a step leaves, each asserted level source with HOST_EN = 1 is host-pending. -/
def Obligations.HostPendingKept : Prop :=
  ∀ s t : State, HostPending s → step s = .next t → HostPending t

/-- R392: no level source is asserted at reset that is not host-pending. -/
def Obligations.HostPendingAtReset : Prop :=
  HostPending State.reset

/-- R108, R109: the word of every well-formed instruction of an engine is a 32-bit word that decodes to that instruction with every
operand, and a word that decodes to an instruction is that instruction's only word. -/
def Obligations.AcisRoundTrip : Prop :=
  (∀ (i : Instr) (x : AcisWord), i.wf = true → acisEncode i = some x → x.word < 2 ^ 32 ∧ acisDecode x = some i) ∧
  (∀ (i : Instr) (x : AcisWord), x.word < 2 ^ 32 → acisDecode x = some i →
    ∃ u, acisEncode i = some { x with upset := u })

/-- R108, R109: the words that the spec writes out: addi s4, s4, 1; br ne s5, s0, 0x012; vmuls v2, v1, s7; swait sem2, s6, sub; NOP.
A word of an unassigned major opcode is no instruction. -/
def Obligations.AcisWords : Prop :=
  acisDecode ⟨0, 0, 0, 0x04840001⟩ = some (.addi 0 0 4 4 1) ∧
  acisDecode ⟨3, 2, 0, 0x80A01012⟩ = some (.br 3 2 5 0 1 0x012) ∧
  acisDecode ⟨3, 1, 0, 0xC0840E03⟩ = some (.vmuls 3 1 2 1 0 7) ∧
  acisDecode ⟨1023, 5, 0, 0xE0003090⟩ = some (.swait 1023 5 0 0 6 0x12) ∧
  acisDecode ⟨0, 0, 0, 0x04000000⟩ = some (.addi 0 0 0 0 0) ∧
  (∀ w, w < 0x4000000 → acisDecode ⟨0, 0, 0, 0x3F * 0x4000000 + w⟩ = none)
end

