-- ==== Sys2Proof/Laws/Bus.lean ====
section
/-! SUPPORT. Laws of what waits on its way. -/

namespace Sys2Proof.Machine

/-- No reset that waits: nothing begins. -/
theorem computeGo_of_none (s : State) (h : ∀ q ∈ s.resets, q.waits = false) : computeGo s = s := by
  have none : s.resets.any (fun q => q.kind == 2 && q.waits) = false := by
    rw [List.any_eq_false]
    intro q hq
    simp [h q hq]
  simp [computeGo, none]

/-- Where nothing waits, trying what waits again changes nothing. -/
theorem settle_of_nothing (s : State) (h : NothingWaits s) : settle s = s := by
  obtain ⟨hm, ho, hr, hx, ha, hc⟩ := h
  have e : settle s = ({ s with memWait := [], outside := { s.outside with tlps := [] }, ringIn := [], rxIn := [] } : State) := by
    simp only [settle, hm, ho, List.filter_nil, List.foldl_nil, ringSettle, hr, rxSettle, hx, attestSettle, ha]
    exact computeGo_of_none _ hc
  rw [e]
  cases s
  cases ‹Outside›
  simp_all

/-- A write that lets nothing go on changes nothing more. -/
theorem settleAt_of_nothing (a : Nat) (s : State) (h : NothingWaits s) : settleAt a s = s := by
  simp [settleAt, settle_of_nothing s h]

end Sys2Proof.Machine
end

