-- ==== Sys2Proof/Laws/State.lean ====
section
/-! SUPPORT. What each basic operation leaves of the state: one lemma for each field and operation. -/

namespace Sys2Proof.Machine

/-! ### Operations that are others in disguise -/

@[simp] theorem setF_def (f : FieldRef) (s : State) : setF f s = putF f 1 s := rfl
@[simp] theorem clrF_def (f : FieldRef) (s : State) : clrF f s = putF f 0 s := rfl
@[simp] theorem flagF_def (f : FieldRef) (i : Nat) (s : State) : flagF f i s = putF f (getF s f ||| 2 ^ i) s := rfl
@[simp] theorem addSat_def (f : FieldRef) (n : Nat) (s : State) :
    addSat f n s = putF f (min (getF s f + n) (2 ^ f.width - 1)) s := rfl
@[simp] theorem incSat_def (f : FieldRef) (s : State) : incSat f s = putF f (min (getF s f + 1) (2 ^ f.width - 1)) s := rfl
@[simp] theorem addWrap_def (f : FieldRef) (n : Nat) (s : State) : addWrap f n s = putF f (getF s f + n) s := rfl
@[simp] theorem incWrap_def (f : FieldRef) (s : State) : incWrap f s = putF f (getF s f + 1) s := rfl
@[simp] theorem wrNum_def (a n v : Nat) (s : State) : wrNum a n v s = setMem (setNum a n v s.mem) s := rfl
@[simp] theorem wrBits_def (a lo w v : Nat) (s : State) : wrBits a lo w v s = setMem (setBits a lo w v s.mem) s := rfl
@[simp] theorem wrBytes_def (a : Nat) (bs : List Byte) (s : State) : wrBytes a bs s = setMem (setBytes a bs s.mem) s := rfl
@[simp] theorem zeroMem_def (a n : Nat) (s : State) : zeroMem a n s = setMem (zeroBytes a n s.mem) s := rfl
@[simp] theorem modCore_def (c : Nat) (f : Core → Core) (s : State) : modCore c f s = setCore c (f (core s c)) s := rfl
@[simp] theorem modEng_def (c e : Nat) (f : Eng → Eng) (s : State) : modEng c e f s = setEng c e (f (eng s c e)) s := rfl

/-! ### Registers -/

@[simp] theorem wrWord_csr (a : Nat) (v : Word) (s : State) : (wrWord a v s).csr = tset a v s.csr := rfl
@[simp] theorem setMem_mem (m : Memory) (s : State) : (setMem m s).mem = m := rfl
@[simp] theorem setCore_cores (c : Nat) (k : Core) (s : State) : (setCore c k s).cores = tset c k s.cores := rfl
@[simp] theorem setEng_engs (c e : Nat) (g : Eng) (s : State) : (setEng c e g s).engs = tset (8 * c + e) g s.engs := rfl

/-- A write of words changes the registers and nothing else. -/
theorem wrWords_eq (a v n : Nat) (s : State) : wrWords a v n s = { s with csr := (wrWords a v n s).csr } := by
  induction n generalizing a v s with
  | zero => rfl
  | succ n ih => rw [wrWords, ih]; rfl

/-- A write of a field changes the registers and nothing else. -/
theorem putF_eq (f : FieldRef) (v : Nat) (s : State) : putF f v s = { s with csr := (putF f v s).csr } := wrWords_eq _ _ _ s

@[simp] theorem wrWord_pending (a : Nat) (v : Word) (s : State) : (wrWord a v s).pending = s.pending := rfl
@[simp] theorem wrWord_variant (a : Nat) (v : Word) (s : State) : (wrWord a v s).variant = s.variant := rfl
@[simp] theorem wrWord_mem (a : Nat) (v : Word) (s : State) : (wrWord a v s).mem = s.mem := rfl
@[simp] theorem wrWord_ecc (a : Nat) (v : Word) (s : State) : (wrWord a v s).ecc = s.ecc := rfl
@[simp] theorem wrWord_rsvDirty (a : Nat) (v : Word) (s : State) : (wrWord a v s).rsvDirty = s.rsvDirty := rfl
@[simp] theorem wrWord_shadows (a : Nat) (v : Word) (s : State) : (wrWord a v s).shadows = s.shadows := rfl
@[simp] theorem wrWord_held (a : Nat) (v : Word) (s : State) : (wrWord a v s).held = s.held := rfl
@[simp] theorem wrWord_reply (a : Nat) (v : Word) (s : State) : (wrWord a v s).reply = s.reply := rfl
@[simp] theorem wrWord_free (a : Nat) (v : Word) (s : State) : (wrWord a v s).free = s.free := rfl
@[simp] theorem wrWord_cores (a : Nat) (v : Word) (s : State) : (wrWord a v s).cores = s.cores := rfl
@[simp] theorem wrWord_engs (a : Nat) (v : Word) (s : State) : (wrWord a v s).engs = s.engs := rfl
@[simp] theorem wrWord_fab (a : Nat) (v : Word) (s : State) : (wrWord a v s).fab = s.fab := rfl
@[simp] theorem wrWord_ctxs (a : Nat) (v : Word) (s : State) : (wrWord a v s).ctxs = s.ctxs := rfl
@[simp] theorem wrWord_mbx (a : Nat) (v : Word) (s : State) : (wrWord a v s).mbx = s.mbx := rfl
@[simp] theorem wrWord_contribs (a : Nat) (v : Word) (s : State) : (wrWord a v s).contribs = s.contribs := rfl
@[simp] theorem wrWord_sums (a : Nat) (v : Word) (s : State) : (wrWord a v s).sums = s.sums := rfl
@[simp] theorem wrWord_admTick (a : Nat) (v : Word) (s : State) : (wrWord a v s).admTick = s.admTick := rfl
@[simp] theorem wrWord_admIn (a : Nat) (v : Word) (s : State) : (wrWord a v s).admIn = s.admIn := rfl
@[simp] theorem wrWord_hold (a : Nat) (v : Word) (s : State) : (wrWord a v s).hold = s.hold := rfl
@[simp] theorem wrWord_admRefused (a : Nat) (v : Word) (s : State) : (wrWord a v s).admRefused = s.admRefused := rfl
@[simp] theorem wrWord_bduRefused (a : Nat) (v : Word) (s : State) : (wrWord a v s).bduRefused = s.bduRefused := rfl
@[simp] theorem wrWord_bdus (a : Nat) (v : Word) (s : State) : (wrWord a v s).bdus = s.bdus := rfl
@[simp] theorem wrWord_portIn (a : Nat) (v : Word) (s : State) : (wrWord a v s).portIn = s.portIn := rfl
@[simp] theorem wrWord_results (a : Nat) (v : Word) (s : State) : (wrWord a v s).results = s.results := rfl
@[simp] theorem wrWord_trigReqs (a : Nat) (v : Word) (s : State) : (wrWord a v s).trigReqs = s.trigReqs := rfl
@[simp] theorem wrWord_trigLast (a : Nat) (v : Word) (s : State) : (wrWord a v s).trigLast = s.trigLast := rfl
@[simp] theorem wrWord_trigActive (a : Nat) (v : Word) (s : State) : (wrWord a v s).trigActive = s.trigActive := rfl
@[simp] theorem wrWord_trigLive (a : Nat) (v : Word) (s : State) : (wrWord a v s).trigLive = s.trigLive := rfl
@[simp] theorem wrWord_records (a : Nat) (v : Word) (s : State) : (wrWord a v s).records = s.records := rfl
@[simp] theorem wrWord_journal (a : Nat) (v : Word) (s : State) : (wrWord a v s).journal = s.journal := rfl
@[simp] theorem wrWord_ckpts (a : Nat) (v : Word) (s : State) : (wrWord a v s).ckpts = s.ckpts := rfl
@[simp] theorem wrWord_faultsUp (a : Nat) (v : Word) (s : State) : (wrWord a v s).faultsUp = s.faultsUp := rfl
@[simp] theorem wrWord_chipFaults (a : Nat) (v : Word) (s : State) : (wrWord a v s).chipFaults = s.chipFaults := rfl
@[simp] theorem wrWord_fmOrder (a : Nat) (v : Word) (s : State) : (wrWord a v s).fmOrder = s.fmOrder := rfl
@[simp] theorem wrWord_recovs (a : Nat) (v : Word) (s : State) : (wrWord a v s).recovs = s.recovs := rfl
@[simp] theorem wrWord_recovRuns (a : Nat) (v : Word) (s : State) : (wrWord a v s).recovRuns = s.recovRuns := rfl
@[simp] theorem wrWord_rows (a : Nat) (v : Word) (s : State) : (wrWord a v s).rows = s.rows := rfl
@[simp] theorem wrWord_sliceScrub (a : Nat) (v : Word) (s : State) : (wrWord a v s).sliceScrub = s.sliceScrub := rfl
@[simp] theorem wrWord_sliceWake (a : Nat) (v : Word) (s : State) : (wrWord a v s).sliceWake = s.sliceWake := rfl
@[simp] theorem wrWord_memWait (a : Nat) (v : Word) (s : State) : (wrWord a v s).memWait = s.memWait := rfl
@[simp] theorem wrWord_memCfg (a : Nat) (v : Word) (s : State) : (wrWord a v s).memCfg = s.memCfg := rfl
@[simp] theorem wrWord_mr4 (a : Nat) (v : Word) (s : State) : (wrWord a v s).mr4 = s.mr4 := rfl
@[simp] theorem wrWord_refresh (a : Nat) (v : Word) (s : State) : (wrWord a v s).refresh = s.refresh := rfl
@[simp] theorem wrWord_cttCmd (a : Nat) (v : Word) (s : State) : (wrWord a v s).cttCmd = s.cttCmd := rfl
@[simp] theorem wrWord_cttWaits (a : Nat) (v : Word) (s : State) : (wrWord a v s).cttWaits = s.cttWaits := rfl
@[simp] theorem wrWord_resets (a : Nat) (v : Word) (s : State) : (wrWord a v s).resets = s.resets := rfl
@[simp] theorem wrWord_rstResults (a : Nat) (v : Word) (s : State) : (wrWord a v s).rstResults = s.rstResults := rfl
@[simp] theorem wrWord_holdover (a : Nat) (v : Word) (s : State) : (wrWord a v s).holdover = s.holdover := rfl
@[simp] theorem wrWord_warmHeld (a : Nat) (v : Word) (s : State) : (wrWord a v s).warmHeld = s.warmHeld := rfl
@[simp] theorem wrWord_measuring (a : Nat) (v : Word) (s : State) : (wrWord a v s).measuring = s.measuring := rfl
@[simp] theorem wrWord_power (a : Nat) (v : Word) (s : State) : (wrWord a v s).power = s.power := rfl
@[simp] theorem wrWord_pins (a : Nat) (v : Word) (s : State) : (wrWord a v s).pins = s.pins := rfl
@[simp] theorem wrWord_sec (a : Nat) (v : Word) (s : State) : (wrWord a v s).sec = s.sec := rfl
@[simp] theorem wrWord_sic (a : Nat) (v : Word) (s : State) : (wrWord a v s).sic = s.sic := rfl
@[simp] theorem wrWord_recorder (a : Nat) (v : Word) (s : State) : (wrWord a v s).recorder = s.recorder := rfl
@[simp] theorem wrWord_aet (a : Nat) (v : Word) (s : State) : (wrWord a v s).aet = s.aet := rfl
@[simp] theorem wrWord_links (a : Nat) (v : Word) (s : State) : (wrWord a v s).links = s.links := rfl
@[simp] theorem wrWord_sysrefArmed (a : Nat) (v : Word) (s : State) : (wrWord a v s).sysrefArmed = s.sysrefArmed := rfl
@[simp] theorem wrWord_eip (a : Nat) (v : Word) (s : State) : (wrWord a v s).eip = s.eip := rfl
@[simp] theorem wrWord_timers (a : Nat) (v : Word) (s : State) : (wrWord a v s).timers = s.timers := rfl
@[simp] theorem wrWord_cluster (a : Nat) (v : Word) (s : State) : (wrWord a v s).cluster = s.cluster := rfl
@[simp] theorem wrWord_fw (a : Nat) (v : Word) (s : State) : (wrWord a v s).fw = s.fw := rfl
@[simp] theorem wrWord_outside (a : Nat) (v : Word) (s : State) : (wrWord a v s).outside = s.outside := rfl
@[simp] theorem wrWord_imgCsr (a : Nat) (v : Word) (s : State) : (wrWord a v s).imgCsr = s.imgCsr := rfl
@[simp] theorem wrWord_imgMem (a : Nat) (v : Word) (s : State) : (wrWord a v s).imgMem = s.imgMem := rfl

@[simp] theorem putF_pending (f : FieldRef) (v : Nat) (s : State) : (putF f v s).pending = s.pending := by rw [putF_eq]
@[simp] theorem putF_variant (f : FieldRef) (v : Nat) (s : State) : (putF f v s).variant = s.variant := by rw [putF_eq]
@[simp] theorem putF_mem (f : FieldRef) (v : Nat) (s : State) : (putF f v s).mem = s.mem := by rw [putF_eq]
@[simp] theorem putF_ecc (f : FieldRef) (v : Nat) (s : State) : (putF f v s).ecc = s.ecc := by rw [putF_eq]
@[simp] theorem putF_rsvDirty (f : FieldRef) (v : Nat) (s : State) : (putF f v s).rsvDirty = s.rsvDirty := by rw [putF_eq]
@[simp] theorem putF_shadows (f : FieldRef) (v : Nat) (s : State) : (putF f v s).shadows = s.shadows := by rw [putF_eq]
@[simp] theorem putF_held (f : FieldRef) (v : Nat) (s : State) : (putF f v s).held = s.held := by rw [putF_eq]
@[simp] theorem putF_reply (f : FieldRef) (v : Nat) (s : State) : (putF f v s).reply = s.reply := by rw [putF_eq]
@[simp] theorem putF_free (f : FieldRef) (v : Nat) (s : State) : (putF f v s).free = s.free := by rw [putF_eq]
@[simp] theorem putF_cores (f : FieldRef) (v : Nat) (s : State) : (putF f v s).cores = s.cores := by rw [putF_eq]
@[simp] theorem putF_engs (f : FieldRef) (v : Nat) (s : State) : (putF f v s).engs = s.engs := by rw [putF_eq]
@[simp] theorem putF_fab (f : FieldRef) (v : Nat) (s : State) : (putF f v s).fab = s.fab := by rw [putF_eq]
@[simp] theorem putF_ctxs (f : FieldRef) (v : Nat) (s : State) : (putF f v s).ctxs = s.ctxs := by rw [putF_eq]
@[simp] theorem putF_mbx (f : FieldRef) (v : Nat) (s : State) : (putF f v s).mbx = s.mbx := by rw [putF_eq]
@[simp] theorem putF_contribs (f : FieldRef) (v : Nat) (s : State) : (putF f v s).contribs = s.contribs := by rw [putF_eq]
@[simp] theorem putF_sums (f : FieldRef) (v : Nat) (s : State) : (putF f v s).sums = s.sums := by rw [putF_eq]
@[simp] theorem putF_admTick (f : FieldRef) (v : Nat) (s : State) : (putF f v s).admTick = s.admTick := by rw [putF_eq]
@[simp] theorem putF_admIn (f : FieldRef) (v : Nat) (s : State) : (putF f v s).admIn = s.admIn := by rw [putF_eq]
@[simp] theorem putF_hold (f : FieldRef) (v : Nat) (s : State) : (putF f v s).hold = s.hold := by rw [putF_eq]
@[simp] theorem putF_admRefused (f : FieldRef) (v : Nat) (s : State) : (putF f v s).admRefused = s.admRefused := by rw [putF_eq]
@[simp] theorem putF_bduRefused (f : FieldRef) (v : Nat) (s : State) : (putF f v s).bduRefused = s.bduRefused := by rw [putF_eq]
@[simp] theorem putF_bdus (f : FieldRef) (v : Nat) (s : State) : (putF f v s).bdus = s.bdus := by rw [putF_eq]
@[simp] theorem putF_portIn (f : FieldRef) (v : Nat) (s : State) : (putF f v s).portIn = s.portIn := by rw [putF_eq]
@[simp] theorem putF_results (f : FieldRef) (v : Nat) (s : State) : (putF f v s).results = s.results := by rw [putF_eq]
@[simp] theorem putF_trigReqs (f : FieldRef) (v : Nat) (s : State) : (putF f v s).trigReqs = s.trigReqs := by rw [putF_eq]
@[simp] theorem putF_trigLast (f : FieldRef) (v : Nat) (s : State) : (putF f v s).trigLast = s.trigLast := by rw [putF_eq]
@[simp] theorem putF_trigActive (f : FieldRef) (v : Nat) (s : State) : (putF f v s).trigActive = s.trigActive := by rw [putF_eq]
@[simp] theorem putF_trigLive (f : FieldRef) (v : Nat) (s : State) : (putF f v s).trigLive = s.trigLive := by rw [putF_eq]
@[simp] theorem putF_records (f : FieldRef) (v : Nat) (s : State) : (putF f v s).records = s.records := by rw [putF_eq]
@[simp] theorem putF_journal (f : FieldRef) (v : Nat) (s : State) : (putF f v s).journal = s.journal := by rw [putF_eq]
@[simp] theorem putF_ckpts (f : FieldRef) (v : Nat) (s : State) : (putF f v s).ckpts = s.ckpts := by rw [putF_eq]
@[simp] theorem putF_faultsUp (f : FieldRef) (v : Nat) (s : State) : (putF f v s).faultsUp = s.faultsUp := by rw [putF_eq]
@[simp] theorem putF_chipFaults (f : FieldRef) (v : Nat) (s : State) : (putF f v s).chipFaults = s.chipFaults := by rw [putF_eq]
@[simp] theorem putF_fmOrder (f : FieldRef) (v : Nat) (s : State) : (putF f v s).fmOrder = s.fmOrder := by rw [putF_eq]
@[simp] theorem putF_recovs (f : FieldRef) (v : Nat) (s : State) : (putF f v s).recovs = s.recovs := by rw [putF_eq]
@[simp] theorem putF_recovRuns (f : FieldRef) (v : Nat) (s : State) : (putF f v s).recovRuns = s.recovRuns := by rw [putF_eq]
@[simp] theorem putF_rows (f : FieldRef) (v : Nat) (s : State) : (putF f v s).rows = s.rows := by rw [putF_eq]
@[simp] theorem putF_sliceScrub (f : FieldRef) (v : Nat) (s : State) : (putF f v s).sliceScrub = s.sliceScrub := by rw [putF_eq]
@[simp] theorem putF_sliceWake (f : FieldRef) (v : Nat) (s : State) : (putF f v s).sliceWake = s.sliceWake := by rw [putF_eq]
@[simp] theorem putF_memWait (f : FieldRef) (v : Nat) (s : State) : (putF f v s).memWait = s.memWait := by rw [putF_eq]
@[simp] theorem putF_memCfg (f : FieldRef) (v : Nat) (s : State) : (putF f v s).memCfg = s.memCfg := by rw [putF_eq]
@[simp] theorem putF_mr4 (f : FieldRef) (v : Nat) (s : State) : (putF f v s).mr4 = s.mr4 := by rw [putF_eq]
@[simp] theorem putF_refresh (f : FieldRef) (v : Nat) (s : State) : (putF f v s).refresh = s.refresh := by rw [putF_eq]
@[simp] theorem putF_cttCmd (f : FieldRef) (v : Nat) (s : State) : (putF f v s).cttCmd = s.cttCmd := by rw [putF_eq]
@[simp] theorem putF_cttWaits (f : FieldRef) (v : Nat) (s : State) : (putF f v s).cttWaits = s.cttWaits := by rw [putF_eq]
@[simp] theorem putF_resets (f : FieldRef) (v : Nat) (s : State) : (putF f v s).resets = s.resets := by rw [putF_eq]
@[simp] theorem putF_rstResults (f : FieldRef) (v : Nat) (s : State) : (putF f v s).rstResults = s.rstResults := by rw [putF_eq]
@[simp] theorem putF_holdover (f : FieldRef) (v : Nat) (s : State) : (putF f v s).holdover = s.holdover := by rw [putF_eq]
@[simp] theorem putF_warmHeld (f : FieldRef) (v : Nat) (s : State) : (putF f v s).warmHeld = s.warmHeld := by rw [putF_eq]
@[simp] theorem putF_measuring (f : FieldRef) (v : Nat) (s : State) : (putF f v s).measuring = s.measuring := by rw [putF_eq]
@[simp] theorem putF_power (f : FieldRef) (v : Nat) (s : State) : (putF f v s).power = s.power := by rw [putF_eq]
@[simp] theorem putF_pins (f : FieldRef) (v : Nat) (s : State) : (putF f v s).pins = s.pins := by rw [putF_eq]
@[simp] theorem putF_sec (f : FieldRef) (v : Nat) (s : State) : (putF f v s).sec = s.sec := by rw [putF_eq]
@[simp] theorem putF_sic (f : FieldRef) (v : Nat) (s : State) : (putF f v s).sic = s.sic := by rw [putF_eq]
@[simp] theorem putF_recorder (f : FieldRef) (v : Nat) (s : State) : (putF f v s).recorder = s.recorder := by rw [putF_eq]
@[simp] theorem putF_aet (f : FieldRef) (v : Nat) (s : State) : (putF f v s).aet = s.aet := by rw [putF_eq]
@[simp] theorem putF_links (f : FieldRef) (v : Nat) (s : State) : (putF f v s).links = s.links := by rw [putF_eq]
@[simp] theorem putF_sysrefArmed (f : FieldRef) (v : Nat) (s : State) : (putF f v s).sysrefArmed = s.sysrefArmed := by rw [putF_eq]
@[simp] theorem putF_eip (f : FieldRef) (v : Nat) (s : State) : (putF f v s).eip = s.eip := by rw [putF_eq]
@[simp] theorem putF_timers (f : FieldRef) (v : Nat) (s : State) : (putF f v s).timers = s.timers := by rw [putF_eq]
@[simp] theorem putF_cluster (f : FieldRef) (v : Nat) (s : State) : (putF f v s).cluster = s.cluster := by rw [putF_eq]
@[simp] theorem putF_fw (f : FieldRef) (v : Nat) (s : State) : (putF f v s).fw = s.fw := by rw [putF_eq]
@[simp] theorem putF_outside (f : FieldRef) (v : Nat) (s : State) : (putF f v s).outside = s.outside := by rw [putF_eq]
@[simp] theorem putF_imgCsr (f : FieldRef) (v : Nat) (s : State) : (putF f v s).imgCsr = s.imgCsr := by rw [putF_eq]
@[simp] theorem putF_imgMem (f : FieldRef) (v : Nat) (s : State) : (putF f v s).imgMem = s.imgMem := by rw [putF_eq]

/-! ### Memory -/

@[simp] theorem setMem_pending (m : Memory) (s : State) : (setMem m s).pending = s.pending := rfl
@[simp] theorem setMem_variant (m : Memory) (s : State) : (setMem m s).variant = s.variant := rfl
@[simp] theorem setMem_csr (m : Memory) (s : State) : (setMem m s).csr = s.csr := rfl
@[simp] theorem setMem_ecc (m : Memory) (s : State) : (setMem m s).ecc = s.ecc := rfl
@[simp] theorem setMem_rsvDirty (m : Memory) (s : State) : (setMem m s).rsvDirty = s.rsvDirty := rfl
@[simp] theorem setMem_shadows (m : Memory) (s : State) : (setMem m s).shadows = s.shadows := rfl
@[simp] theorem setMem_held (m : Memory) (s : State) : (setMem m s).held = s.held := rfl
@[simp] theorem setMem_reply (m : Memory) (s : State) : (setMem m s).reply = s.reply := rfl
@[simp] theorem setMem_free (m : Memory) (s : State) : (setMem m s).free = s.free := rfl
@[simp] theorem setMem_cores (m : Memory) (s : State) : (setMem m s).cores = s.cores := rfl
@[simp] theorem setMem_engs (m : Memory) (s : State) : (setMem m s).engs = s.engs := rfl
@[simp] theorem setMem_fab (m : Memory) (s : State) : (setMem m s).fab = s.fab := rfl
@[simp] theorem setMem_ctxs (m : Memory) (s : State) : (setMem m s).ctxs = s.ctxs := rfl
@[simp] theorem setMem_mbx (m : Memory) (s : State) : (setMem m s).mbx = s.mbx := rfl
@[simp] theorem setMem_contribs (m : Memory) (s : State) : (setMem m s).contribs = s.contribs := rfl
@[simp] theorem setMem_sums (m : Memory) (s : State) : (setMem m s).sums = s.sums := rfl
@[simp] theorem setMem_admTick (m : Memory) (s : State) : (setMem m s).admTick = s.admTick := rfl
@[simp] theorem setMem_admIn (m : Memory) (s : State) : (setMem m s).admIn = s.admIn := rfl
@[simp] theorem setMem_hold (m : Memory) (s : State) : (setMem m s).hold = s.hold := rfl
@[simp] theorem setMem_admRefused (m : Memory) (s : State) : (setMem m s).admRefused = s.admRefused := rfl
@[simp] theorem setMem_bduRefused (m : Memory) (s : State) : (setMem m s).bduRefused = s.bduRefused := rfl
@[simp] theorem setMem_bdus (m : Memory) (s : State) : (setMem m s).bdus = s.bdus := rfl
@[simp] theorem setMem_portIn (m : Memory) (s : State) : (setMem m s).portIn = s.portIn := rfl
@[simp] theorem setMem_results (m : Memory) (s : State) : (setMem m s).results = s.results := rfl
@[simp] theorem setMem_trigReqs (m : Memory) (s : State) : (setMem m s).trigReqs = s.trigReqs := rfl
@[simp] theorem setMem_trigLast (m : Memory) (s : State) : (setMem m s).trigLast = s.trigLast := rfl
@[simp] theorem setMem_trigActive (m : Memory) (s : State) : (setMem m s).trigActive = s.trigActive := rfl
@[simp] theorem setMem_trigLive (m : Memory) (s : State) : (setMem m s).trigLive = s.trigLive := rfl
@[simp] theorem setMem_records (m : Memory) (s : State) : (setMem m s).records = s.records := rfl
@[simp] theorem setMem_journal (m : Memory) (s : State) : (setMem m s).journal = s.journal := rfl
@[simp] theorem setMem_ckpts (m : Memory) (s : State) : (setMem m s).ckpts = s.ckpts := rfl
@[simp] theorem setMem_faultsUp (m : Memory) (s : State) : (setMem m s).faultsUp = s.faultsUp := rfl
@[simp] theorem setMem_chipFaults (m : Memory) (s : State) : (setMem m s).chipFaults = s.chipFaults := rfl
@[simp] theorem setMem_fmOrder (m : Memory) (s : State) : (setMem m s).fmOrder = s.fmOrder := rfl
@[simp] theorem setMem_recovs (m : Memory) (s : State) : (setMem m s).recovs = s.recovs := rfl
@[simp] theorem setMem_recovRuns (m : Memory) (s : State) : (setMem m s).recovRuns = s.recovRuns := rfl
@[simp] theorem setMem_rows (m : Memory) (s : State) : (setMem m s).rows = s.rows := rfl
@[simp] theorem setMem_sliceScrub (m : Memory) (s : State) : (setMem m s).sliceScrub = s.sliceScrub := rfl
@[simp] theorem setMem_sliceWake (m : Memory) (s : State) : (setMem m s).sliceWake = s.sliceWake := rfl
@[simp] theorem setMem_memWait (m : Memory) (s : State) : (setMem m s).memWait = s.memWait := rfl
@[simp] theorem setMem_memCfg (m : Memory) (s : State) : (setMem m s).memCfg = s.memCfg := rfl
@[simp] theorem setMem_mr4 (m : Memory) (s : State) : (setMem m s).mr4 = s.mr4 := rfl
@[simp] theorem setMem_refresh (m : Memory) (s : State) : (setMem m s).refresh = s.refresh := rfl
@[simp] theorem setMem_cttCmd (m : Memory) (s : State) : (setMem m s).cttCmd = s.cttCmd := rfl
@[simp] theorem setMem_cttWaits (m : Memory) (s : State) : (setMem m s).cttWaits = s.cttWaits := rfl
@[simp] theorem setMem_resets (m : Memory) (s : State) : (setMem m s).resets = s.resets := rfl
@[simp] theorem setMem_rstResults (m : Memory) (s : State) : (setMem m s).rstResults = s.rstResults := rfl
@[simp] theorem setMem_holdover (m : Memory) (s : State) : (setMem m s).holdover = s.holdover := rfl
@[simp] theorem setMem_warmHeld (m : Memory) (s : State) : (setMem m s).warmHeld = s.warmHeld := rfl
@[simp] theorem setMem_measuring (m : Memory) (s : State) : (setMem m s).measuring = s.measuring := rfl
@[simp] theorem setMem_power (m : Memory) (s : State) : (setMem m s).power = s.power := rfl
@[simp] theorem setMem_pins (m : Memory) (s : State) : (setMem m s).pins = s.pins := rfl
@[simp] theorem setMem_sec (m : Memory) (s : State) : (setMem m s).sec = s.sec := rfl
@[simp] theorem setMem_sic (m : Memory) (s : State) : (setMem m s).sic = s.sic := rfl
@[simp] theorem setMem_recorder (m : Memory) (s : State) : (setMem m s).recorder = s.recorder := rfl
@[simp] theorem setMem_aet (m : Memory) (s : State) : (setMem m s).aet = s.aet := rfl
@[simp] theorem setMem_links (m : Memory) (s : State) : (setMem m s).links = s.links := rfl
@[simp] theorem setMem_sysrefArmed (m : Memory) (s : State) : (setMem m s).sysrefArmed = s.sysrefArmed := rfl
@[simp] theorem setMem_eip (m : Memory) (s : State) : (setMem m s).eip = s.eip := rfl
@[simp] theorem setMem_timers (m : Memory) (s : State) : (setMem m s).timers = s.timers := rfl
@[simp] theorem setMem_cluster (m : Memory) (s : State) : (setMem m s).cluster = s.cluster := rfl
@[simp] theorem setMem_fw (m : Memory) (s : State) : (setMem m s).fw = s.fw := rfl
@[simp] theorem setMem_outside (m : Memory) (s : State) : (setMem m s).outside = s.outside := rfl
@[simp] theorem setMem_imgCsr (m : Memory) (s : State) : (setMem m s).imgCsr = s.imgCsr := rfl
@[simp] theorem setMem_imgMem (m : Memory) (s : State) : (setMem m s).imgMem = s.imgMem := rfl

/-! ### Cores and engines -/

@[simp] theorem setCore_pending (c : Nat) (k : Core) (s : State) : (setCore c k s).pending = s.pending := rfl
@[simp] theorem setCore_variant (c : Nat) (k : Core) (s : State) : (setCore c k s).variant = s.variant := rfl
@[simp] theorem setCore_csr (c : Nat) (k : Core) (s : State) : (setCore c k s).csr = s.csr := rfl
@[simp] theorem setCore_mem (c : Nat) (k : Core) (s : State) : (setCore c k s).mem = s.mem := rfl
@[simp] theorem setCore_ecc (c : Nat) (k : Core) (s : State) : (setCore c k s).ecc = s.ecc := rfl
@[simp] theorem setCore_rsvDirty (c : Nat) (k : Core) (s : State) : (setCore c k s).rsvDirty = s.rsvDirty := rfl
@[simp] theorem setCore_shadows (c : Nat) (k : Core) (s : State) : (setCore c k s).shadows = s.shadows := rfl
@[simp] theorem setCore_held (c : Nat) (k : Core) (s : State) : (setCore c k s).held = s.held := rfl
@[simp] theorem setCore_reply (c : Nat) (k : Core) (s : State) : (setCore c k s).reply = s.reply := rfl
@[simp] theorem setCore_free (c : Nat) (k : Core) (s : State) : (setCore c k s).free = s.free := rfl
@[simp] theorem setCore_engs (c : Nat) (k : Core) (s : State) : (setCore c k s).engs = s.engs := rfl
@[simp] theorem setCore_fab (c : Nat) (k : Core) (s : State) : (setCore c k s).fab = s.fab := rfl
@[simp] theorem setCore_ctxs (c : Nat) (k : Core) (s : State) : (setCore c k s).ctxs = s.ctxs := rfl
@[simp] theorem setCore_mbx (c : Nat) (k : Core) (s : State) : (setCore c k s).mbx = s.mbx := rfl
@[simp] theorem setCore_contribs (c : Nat) (k : Core) (s : State) : (setCore c k s).contribs = s.contribs := rfl
@[simp] theorem setCore_sums (c : Nat) (k : Core) (s : State) : (setCore c k s).sums = s.sums := rfl
@[simp] theorem setCore_admTick (c : Nat) (k : Core) (s : State) : (setCore c k s).admTick = s.admTick := rfl
@[simp] theorem setCore_admIn (c : Nat) (k : Core) (s : State) : (setCore c k s).admIn = s.admIn := rfl
@[simp] theorem setCore_hold (c : Nat) (k : Core) (s : State) : (setCore c k s).hold = s.hold := rfl
@[simp] theorem setCore_admRefused (c : Nat) (k : Core) (s : State) : (setCore c k s).admRefused = s.admRefused := rfl
@[simp] theorem setCore_bduRefused (c : Nat) (k : Core) (s : State) : (setCore c k s).bduRefused = s.bduRefused := rfl
@[simp] theorem setCore_bdus (c : Nat) (k : Core) (s : State) : (setCore c k s).bdus = s.bdus := rfl
@[simp] theorem setCore_portIn (c : Nat) (k : Core) (s : State) : (setCore c k s).portIn = s.portIn := rfl
@[simp] theorem setCore_results (c : Nat) (k : Core) (s : State) : (setCore c k s).results = s.results := rfl
@[simp] theorem setCore_trigReqs (c : Nat) (k : Core) (s : State) : (setCore c k s).trigReqs = s.trigReqs := rfl
@[simp] theorem setCore_trigLast (c : Nat) (k : Core) (s : State) : (setCore c k s).trigLast = s.trigLast := rfl
@[simp] theorem setCore_trigActive (c : Nat) (k : Core) (s : State) : (setCore c k s).trigActive = s.trigActive := rfl
@[simp] theorem setCore_trigLive (c : Nat) (k : Core) (s : State) : (setCore c k s).trigLive = s.trigLive := rfl
@[simp] theorem setCore_records (c : Nat) (k : Core) (s : State) : (setCore c k s).records = s.records := rfl
@[simp] theorem setCore_journal (c : Nat) (k : Core) (s : State) : (setCore c k s).journal = s.journal := rfl
@[simp] theorem setCore_ckpts (c : Nat) (k : Core) (s : State) : (setCore c k s).ckpts = s.ckpts := rfl
@[simp] theorem setCore_faultsUp (c : Nat) (k : Core) (s : State) : (setCore c k s).faultsUp = s.faultsUp := rfl
@[simp] theorem setCore_chipFaults (c : Nat) (k : Core) (s : State) : (setCore c k s).chipFaults = s.chipFaults := rfl
@[simp] theorem setCore_fmOrder (c : Nat) (k : Core) (s : State) : (setCore c k s).fmOrder = s.fmOrder := rfl
@[simp] theorem setCore_recovs (c : Nat) (k : Core) (s : State) : (setCore c k s).recovs = s.recovs := rfl
@[simp] theorem setCore_recovRuns (c : Nat) (k : Core) (s : State) : (setCore c k s).recovRuns = s.recovRuns := rfl
@[simp] theorem setCore_rows (c : Nat) (k : Core) (s : State) : (setCore c k s).rows = s.rows := rfl
@[simp] theorem setCore_sliceScrub (c : Nat) (k : Core) (s : State) : (setCore c k s).sliceScrub = s.sliceScrub := rfl
@[simp] theorem setCore_sliceWake (c : Nat) (k : Core) (s : State) : (setCore c k s).sliceWake = s.sliceWake := rfl
@[simp] theorem setCore_memWait (c : Nat) (k : Core) (s : State) : (setCore c k s).memWait = s.memWait := rfl
@[simp] theorem setCore_memCfg (c : Nat) (k : Core) (s : State) : (setCore c k s).memCfg = s.memCfg := rfl
@[simp] theorem setCore_mr4 (c : Nat) (k : Core) (s : State) : (setCore c k s).mr4 = s.mr4 := rfl
@[simp] theorem setCore_refresh (c : Nat) (k : Core) (s : State) : (setCore c k s).refresh = s.refresh := rfl
@[simp] theorem setCore_cttCmd (c : Nat) (k : Core) (s : State) : (setCore c k s).cttCmd = s.cttCmd := rfl
@[simp] theorem setCore_cttWaits (c : Nat) (k : Core) (s : State) : (setCore c k s).cttWaits = s.cttWaits := rfl
@[simp] theorem setCore_resets (c : Nat) (k : Core) (s : State) : (setCore c k s).resets = s.resets := rfl
@[simp] theorem setCore_rstResults (c : Nat) (k : Core) (s : State) : (setCore c k s).rstResults = s.rstResults := rfl
@[simp] theorem setCore_holdover (c : Nat) (k : Core) (s : State) : (setCore c k s).holdover = s.holdover := rfl
@[simp] theorem setCore_warmHeld (c : Nat) (k : Core) (s : State) : (setCore c k s).warmHeld = s.warmHeld := rfl
@[simp] theorem setCore_measuring (c : Nat) (k : Core) (s : State) : (setCore c k s).measuring = s.measuring := rfl
@[simp] theorem setCore_power (c : Nat) (k : Core) (s : State) : (setCore c k s).power = s.power := rfl
@[simp] theorem setCore_pins (c : Nat) (k : Core) (s : State) : (setCore c k s).pins = s.pins := rfl
@[simp] theorem setCore_sec (c : Nat) (k : Core) (s : State) : (setCore c k s).sec = s.sec := rfl
@[simp] theorem setCore_sic (c : Nat) (k : Core) (s : State) : (setCore c k s).sic = s.sic := rfl
@[simp] theorem setCore_recorder (c : Nat) (k : Core) (s : State) : (setCore c k s).recorder = s.recorder := rfl
@[simp] theorem setCore_aet (c : Nat) (k : Core) (s : State) : (setCore c k s).aet = s.aet := rfl
@[simp] theorem setCore_links (c : Nat) (k : Core) (s : State) : (setCore c k s).links = s.links := rfl
@[simp] theorem setCore_sysrefArmed (c : Nat) (k : Core) (s : State) : (setCore c k s).sysrefArmed = s.sysrefArmed := rfl
@[simp] theorem setCore_eip (c : Nat) (k : Core) (s : State) : (setCore c k s).eip = s.eip := rfl
@[simp] theorem setCore_timers (c : Nat) (k : Core) (s : State) : (setCore c k s).timers = s.timers := rfl
@[simp] theorem setCore_cluster (c : Nat) (k : Core) (s : State) : (setCore c k s).cluster = s.cluster := rfl
@[simp] theorem setCore_fw (c : Nat) (k : Core) (s : State) : (setCore c k s).fw = s.fw := rfl
@[simp] theorem setCore_outside (c : Nat) (k : Core) (s : State) : (setCore c k s).outside = s.outside := rfl
@[simp] theorem setCore_imgCsr (c : Nat) (k : Core) (s : State) : (setCore c k s).imgCsr = s.imgCsr := rfl
@[simp] theorem setCore_imgMem (c : Nat) (k : Core) (s : State) : (setCore c k s).imgMem = s.imgMem := rfl

@[simp] theorem setEng_pending (c e : Nat) (g : Eng) (s : State) : (setEng c e g s).pending = s.pending := rfl
@[simp] theorem setEng_variant (c e : Nat) (g : Eng) (s : State) : (setEng c e g s).variant = s.variant := rfl
@[simp] theorem setEng_csr (c e : Nat) (g : Eng) (s : State) : (setEng c e g s).csr = s.csr := rfl
@[simp] theorem setEng_mem (c e : Nat) (g : Eng) (s : State) : (setEng c e g s).mem = s.mem := rfl
@[simp] theorem setEng_ecc (c e : Nat) (g : Eng) (s : State) : (setEng c e g s).ecc = s.ecc := rfl
@[simp] theorem setEng_rsvDirty (c e : Nat) (g : Eng) (s : State) : (setEng c e g s).rsvDirty = s.rsvDirty := rfl
@[simp] theorem setEng_shadows (c e : Nat) (g : Eng) (s : State) : (setEng c e g s).shadows = s.shadows := rfl
@[simp] theorem setEng_held (c e : Nat) (g : Eng) (s : State) : (setEng c e g s).held = s.held := rfl
@[simp] theorem setEng_reply (c e : Nat) (g : Eng) (s : State) : (setEng c e g s).reply = s.reply := rfl
@[simp] theorem setEng_free (c e : Nat) (g : Eng) (s : State) : (setEng c e g s).free = s.free := rfl
@[simp] theorem setEng_cores (c e : Nat) (g : Eng) (s : State) : (setEng c e g s).cores = s.cores := rfl
@[simp] theorem setEng_fab (c e : Nat) (g : Eng) (s : State) : (setEng c e g s).fab = s.fab := rfl
@[simp] theorem setEng_ctxs (c e : Nat) (g : Eng) (s : State) : (setEng c e g s).ctxs = s.ctxs := rfl
@[simp] theorem setEng_mbx (c e : Nat) (g : Eng) (s : State) : (setEng c e g s).mbx = s.mbx := rfl
@[simp] theorem setEng_contribs (c e : Nat) (g : Eng) (s : State) : (setEng c e g s).contribs = s.contribs := rfl
@[simp] theorem setEng_sums (c e : Nat) (g : Eng) (s : State) : (setEng c e g s).sums = s.sums := rfl
@[simp] theorem setEng_admTick (c e : Nat) (g : Eng) (s : State) : (setEng c e g s).admTick = s.admTick := rfl
@[simp] theorem setEng_admIn (c e : Nat) (g : Eng) (s : State) : (setEng c e g s).admIn = s.admIn := rfl
@[simp] theorem setEng_hold (c e : Nat) (g : Eng) (s : State) : (setEng c e g s).hold = s.hold := rfl
@[simp] theorem setEng_admRefused (c e : Nat) (g : Eng) (s : State) : (setEng c e g s).admRefused = s.admRefused := rfl
@[simp] theorem setEng_bduRefused (c e : Nat) (g : Eng) (s : State) : (setEng c e g s).bduRefused = s.bduRefused := rfl
@[simp] theorem setEng_bdus (c e : Nat) (g : Eng) (s : State) : (setEng c e g s).bdus = s.bdus := rfl
@[simp] theorem setEng_portIn (c e : Nat) (g : Eng) (s : State) : (setEng c e g s).portIn = s.portIn := rfl
@[simp] theorem setEng_results (c e : Nat) (g : Eng) (s : State) : (setEng c e g s).results = s.results := rfl
@[simp] theorem setEng_trigReqs (c e : Nat) (g : Eng) (s : State) : (setEng c e g s).trigReqs = s.trigReqs := rfl
@[simp] theorem setEng_trigLast (c e : Nat) (g : Eng) (s : State) : (setEng c e g s).trigLast = s.trigLast := rfl
@[simp] theorem setEng_trigActive (c e : Nat) (g : Eng) (s : State) : (setEng c e g s).trigActive = s.trigActive := rfl
@[simp] theorem setEng_trigLive (c e : Nat) (g : Eng) (s : State) : (setEng c e g s).trigLive = s.trigLive := rfl
@[simp] theorem setEng_records (c e : Nat) (g : Eng) (s : State) : (setEng c e g s).records = s.records := rfl
@[simp] theorem setEng_journal (c e : Nat) (g : Eng) (s : State) : (setEng c e g s).journal = s.journal := rfl
@[simp] theorem setEng_ckpts (c e : Nat) (g : Eng) (s : State) : (setEng c e g s).ckpts = s.ckpts := rfl
@[simp] theorem setEng_faultsUp (c e : Nat) (g : Eng) (s : State) : (setEng c e g s).faultsUp = s.faultsUp := rfl
@[simp] theorem setEng_chipFaults (c e : Nat) (g : Eng) (s : State) : (setEng c e g s).chipFaults = s.chipFaults := rfl
@[simp] theorem setEng_fmOrder (c e : Nat) (g : Eng) (s : State) : (setEng c e g s).fmOrder = s.fmOrder := rfl
@[simp] theorem setEng_recovs (c e : Nat) (g : Eng) (s : State) : (setEng c e g s).recovs = s.recovs := rfl
@[simp] theorem setEng_recovRuns (c e : Nat) (g : Eng) (s : State) : (setEng c e g s).recovRuns = s.recovRuns := rfl
@[simp] theorem setEng_rows (c e : Nat) (g : Eng) (s : State) : (setEng c e g s).rows = s.rows := rfl
@[simp] theorem setEng_sliceScrub (c e : Nat) (g : Eng) (s : State) : (setEng c e g s).sliceScrub = s.sliceScrub := rfl
@[simp] theorem setEng_sliceWake (c e : Nat) (g : Eng) (s : State) : (setEng c e g s).sliceWake = s.sliceWake := rfl
@[simp] theorem setEng_memWait (c e : Nat) (g : Eng) (s : State) : (setEng c e g s).memWait = s.memWait := rfl
@[simp] theorem setEng_memCfg (c e : Nat) (g : Eng) (s : State) : (setEng c e g s).memCfg = s.memCfg := rfl
@[simp] theorem setEng_mr4 (c e : Nat) (g : Eng) (s : State) : (setEng c e g s).mr4 = s.mr4 := rfl
@[simp] theorem setEng_refresh (c e : Nat) (g : Eng) (s : State) : (setEng c e g s).refresh = s.refresh := rfl
@[simp] theorem setEng_cttCmd (c e : Nat) (g : Eng) (s : State) : (setEng c e g s).cttCmd = s.cttCmd := rfl
@[simp] theorem setEng_cttWaits (c e : Nat) (g : Eng) (s : State) : (setEng c e g s).cttWaits = s.cttWaits := rfl
@[simp] theorem setEng_resets (c e : Nat) (g : Eng) (s : State) : (setEng c e g s).resets = s.resets := rfl
@[simp] theorem setEng_rstResults (c e : Nat) (g : Eng) (s : State) : (setEng c e g s).rstResults = s.rstResults := rfl
@[simp] theorem setEng_holdover (c e : Nat) (g : Eng) (s : State) : (setEng c e g s).holdover = s.holdover := rfl
@[simp] theorem setEng_warmHeld (c e : Nat) (g : Eng) (s : State) : (setEng c e g s).warmHeld = s.warmHeld := rfl
@[simp] theorem setEng_measuring (c e : Nat) (g : Eng) (s : State) : (setEng c e g s).measuring = s.measuring := rfl
@[simp] theorem setEng_power (c e : Nat) (g : Eng) (s : State) : (setEng c e g s).power = s.power := rfl
@[simp] theorem setEng_pins (c e : Nat) (g : Eng) (s : State) : (setEng c e g s).pins = s.pins := rfl
@[simp] theorem setEng_sec (c e : Nat) (g : Eng) (s : State) : (setEng c e g s).sec = s.sec := rfl
@[simp] theorem setEng_sic (c e : Nat) (g : Eng) (s : State) : (setEng c e g s).sic = s.sic := rfl
@[simp] theorem setEng_recorder (c e : Nat) (g : Eng) (s : State) : (setEng c e g s).recorder = s.recorder := rfl
@[simp] theorem setEng_aet (c e : Nat) (g : Eng) (s : State) : (setEng c e g s).aet = s.aet := rfl
@[simp] theorem setEng_links (c e : Nat) (g : Eng) (s : State) : (setEng c e g s).links = s.links := rfl
@[simp] theorem setEng_sysrefArmed (c e : Nat) (g : Eng) (s : State) : (setEng c e g s).sysrefArmed = s.sysrefArmed := rfl
@[simp] theorem setEng_eip (c e : Nat) (g : Eng) (s : State) : (setEng c e g s).eip = s.eip := rfl
@[simp] theorem setEng_timers (c e : Nat) (g : Eng) (s : State) : (setEng c e g s).timers = s.timers := rfl
@[simp] theorem setEng_cluster (c e : Nat) (g : Eng) (s : State) : (setEng c e g s).cluster = s.cluster := rfl
@[simp] theorem setEng_fw (c e : Nat) (g : Eng) (s : State) : (setEng c e g s).fw = s.fw := rfl
@[simp] theorem setEng_outside (c e : Nat) (g : Eng) (s : State) : (setEng c e g s).outside = s.outside := rfl
@[simp] theorem setEng_imgCsr (c e : Nat) (g : Eng) (s : State) : (setEng c e g s).imgCsr = s.imgCsr := rfl
@[simp] theorem setEng_imgMem (c e : Nat) (g : Eng) (s : State) : (setEng c e g s).imgMem = s.imgMem := rfl

end Sys2Proof.Machine
end

