-- ==== Sys2Proof/Laws/Tab.lean ====
section
/-! SUPPORT. Laws of the finite tables. -/

namespace Sys2Proof.Machine

@[simp] theorem tfind_tset_same {α : Type} (k : Nat) (v : α) (t : Tab α) : tfind k (tset k v t) = some v := by
  induction t with
  | nil => simp [tset, tfind]
  | cons p r ih =>
    obtain ⟨k', v'⟩ := p
    unfold tset
    split
    · simp [tfind]
    · split
      · simp [tfind]
      · rename_i h1 h2
        simp [tfind, Ne.symm h2, ih]

theorem tfind_tset_other {α : Type} {j k : Nat} (h : j ≠ k) (v : α) (t : Tab α) :
    tfind j (tset k v t) = tfind j t := by
  induction t with
  | nil => simp [tset, tfind, Ne.symm h]
  | cons p r ih =>
    obtain ⟨k', v'⟩ := p
    unfold tset
    split
    · simp [tfind, Ne.symm h]
    · split
      · rename_i h2
        subst h2
        simp [tfind, Ne.symm h]
      · simp [tfind, ih]

@[simp] theorem tget_tset_same {α : Type} (d : α) (k : Nat) (v : α) (t : Tab α) : tget d k (tset k v t) = v := by
  simp [tget]

theorem tget_tset_other {α : Type} (d : α) {j k : Nat} (h : j ≠ k) (v : α) (t : Tab α) :
    tget d j (tset k v t) = tget d j t := by
  simp [tget, tfind_tset_other h]

/-- A read of a table after one write. -/
theorem tget_tset {α : Type} (d : α) (j k : Nat) (v : α) (t : Tab α) :
    tget d j (tset k v t) = if j = k then v else tget d j t := by
  split
  · rename_i h; subst h; simp
  · rename_i h; exact tget_tset_other d h v t

theorem tfind_filter {α : Type} (q : Nat × α → Bool) (k : Nat) (t : Tab α) (h : ∀ v, q (k, v) = true) :
    tfind k (t.filter q) = tfind k t := by
  induction t with
  | nil => rfl
  | cons p r ih =>
    obtain ⟨k', v'⟩ := p
    simp only [List.filter_cons, tfind]
    by_cases hk : k' = k
    · subst hk; simp [h, tfind]
    · split <;> simp [tfind, hk, ih]

theorem tfind_filter_none {α : Type} (q : Nat × α → Bool) (k : Nat) (t : Tab α) (h : ∀ v, q (k, v) = false) :
    tfind k (t.filter q) = none := by
  induction t with
  | nil => rfl
  | cons p r ih =>
    obtain ⟨k', v'⟩ := p
    simp only [List.filter_cons]
    by_cases hk : k' = k
    · subst hk; simp [h, ih]
    · split <;> simp [tfind, hk, ih]

@[simp] theorem tget_tdel_same {α : Type} (d : α) (k : Nat) (t : Tab α) : tget d k (tdel k t) = d := by
  simp [tget, tdel, tfind_filter_none]

theorem tget_tdel_other {α : Type} (d : α) {j k : Nat} (h : j ≠ k) (t : Tab α) : tget d j (tdel k t) = tget d j t := by
  simp [tget, tdel, tfind_filter, h]

end Sys2Proof.Machine
end

