-- ==== Sys2Proof/Laws/Regs.lean ====
section
/-! SUPPORT. Laws of the registers: a field reads as written, and a write leaves every other bit of the machine alone. -/

namespace Sys2Proof.Machine

@[simp] theorem rdWord_wrWord_same (a : Nat) (v : Word) (s : State) : rdWord (wrWord a v s) a = v := by
  simp [rdWord]

theorem rdWord_wrWord_other {a b : Nat} (h : b ≠ a) (v : Word) (s : State) : rdWord (wrWord a v s) b = rdWord s b := by
  simp [rdWord, tfind_tset_other h]

/-- States with equal registers read equal words. -/
theorem rdWord_congr {s t : State} (h : s.csr = t.csr) (a : Nat) : rdWord s a = rdWord t a := by
  simp [rdWord, h]

theorem rdWords_congr {s t : State} (a n : Nat) (h : ∀ i, i < n → rdWord s (a + 4 * i) = rdWord t (a + 4 * i)) :
    rdWords s a n = rdWords t a n := by
  induction n generalizing a with
  | zero => rfl
  | succ n ih =>
    have h0 := h 0 (by omega)
    simp only [Nat.mul_zero, Nat.add_zero] at h0
    rw [rdWords, rdWords, h0, ih (a + 4) (fun i hi => by
      have := h (i + 1) (by omega)
      rwa [show a + 4 * (i + 1) = a + 4 + 4 * i by omega] at this)]

theorem rdWord_wrWords_outside (a v n b : Nat) (s : State) (h : ∀ i, i < n → b ≠ a + 4 * i) :
    rdWord (wrWords a v n s) b = rdWord s b := by
  induction n generalizing a v s with
  | zero => rfl
  | succ n ih =>
    rw [wrWords, ih (a + 4) _ _ (fun i hi => by have := h (i + 1) (by omega); omega),
      rdWord_wrWord_other (by have := h 0 (by omega); omega)]

theorem rdWord_wrWords_inside (a v n j : Nat) (s : State) (h : j < n) :
    rdWord (wrWords a v n s) (a + 4 * j) = BitVec.ofNat 32 (v / 2 ^ (32 * j)) := by
  induction n generalizing a v s j with
  | zero => omega
  | succ n ih =>
    cases j with
    | zero =>
      rw [wrWords, rdWord_wrWords_outside _ _ _ _ _ (fun i _ => by omega)]
      simp
    | succ k =>
      rw [wrWords, show a + 4 * (k + 1) = a + 4 + 4 * k by omega, ih _ _ _ _ (by omega), Nat.div_div_eq_div_mul, ← Nat.pow_add,
        show 32 + 32 * k = 32 * (k + 1) by omega]

theorem testBit_rdWords (s : State) (a n i : Nat) :
    (rdWords s a n).testBit i = (decide (i < 32 * n) && (rdWord s (a + 4 * (i / 32))).getLsbD (i % 32)) := by
  induction n generalizing a i with
  | zero => simp [rdWords]
  | succ n ih =>
    rw [rdWords, Nat.add_comm, Nat.testBit_two_pow_mul_add _ (rdWord s a).isLt]
    split
    · rename_i h
      have h1 : i / 32 = 0 := by omega
      have h2 : i % 32 = i := by omega
      have h3 : i < 32 * (n + 1) := by omega
      simp [h1, h2, h3, BitVec.testBit_toNat]
    · rename_i h
      rw [ih]
      have h1 : a + 4 + 4 * ((i - 32) / 32) = a + 4 * (i / 32) := by omega
      have h2 : (i - 32) % 32 = i % 32 := by omega
      rw [h1, h2]
      congr 1
      exact decide_eq_decide.mpr (by omega)

/-- A field, bit by bit. -/
theorem testBit_getF (s : State) (f : FieldRef) (i : Nat) :
    (getF s f).testBit i =
      (decide (i < f.width) && (rdWord s (f.addr + 4 * ((f.lo + i) / 32))).getLsbD ((f.lo + i) % 32)) := by
  unfold getF
  rw [Nat.testBit_mod_two_pow, Nat.testBit_div_two_pow, testBit_rdWords, Nat.add_comm i f.lo]
  by_cases h : i < f.width
  · have h1 : f.lo + i < 32 * fieldWords f := by unfold fieldWords; omega
    simp [h, h1]
  · simp [h]

theorem testBit_splice (old v lo w i : Nat) :
    (old % 2 ^ lo + 2 ^ lo * (v % 2 ^ w) + 2 ^ (lo + w) * (old / 2 ^ (lo + w))).testBit i =
      if lo ≤ i ∧ i < lo + w then v.testBit (i - lo) else old.testBit i := by
  have h1 : old % 2 ^ lo < 2 ^ lo := Nat.mod_lt _ (Nat.two_pow_pos _)
  have h2 : v % 2 ^ w < 2 ^ w := Nat.mod_lt _ (Nat.two_pow_pos _)
  have h3 : 2 ^ lo * (v % 2 ^ w) + old % 2 ^ lo < 2 ^ (lo + w) := by
    rw [Nat.pow_add]
    calc 2 ^ lo * (v % 2 ^ w) + old % 2 ^ lo < 2 ^ lo * (v % 2 ^ w) + 2 ^ lo := by omega
      _ = 2 ^ lo * (v % 2 ^ w + 1) := by rw [Nat.mul_add, Nat.mul_one]
      _ ≤ 2 ^ lo * 2 ^ w := Nat.mul_le_mul_left _ h2
  rw [Nat.add_comm (old % 2 ^ lo), Nat.add_comm _ (2 ^ (lo + w) * _), Nat.testBit_two_pow_mul_add _ h3]
  split
  · rw [Nat.testBit_two_pow_mul_add _ h1]
    split
    · rw [if_neg (by omega), Nat.testBit_mod_two_pow]; simp_all
    · rw [if_pos (by omega), Nat.testBit_mod_two_pow]
      have : i - lo < w := by omega
      simp [this]
  · rw [if_neg (by omega), Nat.testBit_div_two_pow]
    congr 1; omega

/-- A field write, word by word: the field's bits are the value's, every other bit of its words stays. -/
theorem getLsbD_putF (f : FieldRef) (v j i : Nat) (s : State) (hj : j < fieldWords f) (hi : i < 32) :
    (rdWord (putF f v s) (f.addr + 4 * j)).getLsbD i =
      if f.lo ≤ 32 * j + i ∧ 32 * j + i < f.lo + f.width then v.testBit (32 * j + i - f.lo)
      else (rdWord s (f.addr + 4 * j)).getLsbD i := by
  unfold putF
  simp only
  rw [rdWord_wrWords_inside _ _ _ _ _ hj, BitVec.getLsbD_ofNat, Nat.testBit_div_two_pow, testBit_splice,
    Nat.add_comm i (32 * j)]
  simp only [hi, decide_true, Bool.true_and]
  split
  · rfl
  · rw [testBit_rdWords]
    have h1 : (32 * j + i) / 32 = j := by omega
    have h2 : (32 * j + i) % 32 = i := by omega
    have h3 : 32 * j + i < 32 * fieldWords f := by omega
    simp [h1, h2, h3]

/-- A word outside the field's words stays. -/
theorem rdWord_putF_outside (f : FieldRef) (v b : Nat) (s : State) (h : ∀ j, j < fieldWords f → b ≠ f.addr + 4 * j) :
    rdWord (putF f v s) b = rdWord s b := by
  unfold putF
  exact rdWord_wrWords_outside _ _ _ _ _ h

/-- A field reads as written, within its width. -/
@[simp] theorem getF_putF_same (f : FieldRef) (v : Nat) (s : State) : getF (putF f v s) f = v % 2 ^ f.width := by
  apply Nat.eq_of_testBit_eq
  intro i
  rw [testBit_getF, Nat.testBit_mod_two_pow]
  by_cases h : i < f.width
  · have hj : (f.lo + i) / 32 < fieldWords f := by unfold fieldWords; omega
    rw [getLsbD_putF _ _ _ _ _ hj (by omega), if_pos (by omega)]
    have : 32 * ((f.lo + i) / 32) + (f.lo + i) % 32 - f.lo = i := by omega
    rw [this]
  · simp [h]

/-- Two fields do not share a bit. -/
def Apart (f g : FieldRef) : Prop :=
  (f.addr = g.addr ∧ (f.lo + f.width ≤ g.lo ∨ g.lo + g.width ≤ f.lo)) ∨
  (∀ i, i < fieldWords f → ∀ j, j < fieldWords g → f.addr + 4 * i ≠ g.addr + 4 * j)

/-- A write of a field leaves a field apart from it. -/
theorem getF_putF_apart {f g : FieldRef} (h : Apart f g) (v : Nat) (s : State) : getF (putF f v s) g = getF s g := by
  apply Nat.eq_of_testBit_eq
  intro i
  rw [testBit_getF, testBit_getF]
  by_cases hi : i < g.width
  · simp only [hi, decide_true, Bool.true_and]
    have hj : (g.lo + i) / 32 < fieldWords g := by unfold fieldWords; omega
    rcases h with ⟨ha, hb⟩ | h
    · rw [← ha]
      by_cases hf : (g.lo + i) / 32 < fieldWords f
      · rw [getLsbD_putF _ _ _ _ _ hf (by omega), if_neg (by omega)]
      · rw [rdWord_putF_outside _ _ _ _ (fun j hj => by omega)]
    · rw [rdWord_putF_outside _ _ _ _ (fun j hj' => Ne.symm (h j hj' _ hj))]
  · simp [hi]

/-- Fields in different words are apart, when both lie in one word of their register. -/
theorem apart_of_word {f g : FieldRef} (hf : f.lo + f.width ≤ 32) (hg : g.lo + g.width ≤ 32) (h : f.addr ≠ g.addr) :
    Apart f g := by
  right
  intro i hi j hj
  have : fieldWords f ≤ 1 := by unfold fieldWords; omega
  have : fieldWords g ≤ 1 := by unfold fieldWords; omega
  omega

theorem getF_congr {s t : State} (h : s.csr = t.csr) (f : FieldRef) : getF s f = getF t f := by
  unfold getF
  rw [rdWords_congr f.addr (fieldWords f) (fun i _ => rdWord_congr h _)]

theorem isSet_congr {s t : State} (h : s.csr = t.csr) (f : FieldRef) : isSet s f = isSet t f := by
  unfold isSet; rw [getF_congr h]

theorem getF_lt (s : State) (f : FieldRef) : getF s f < 2 ^ f.width := Nat.mod_lt _ (Nat.two_pow_pos _)

@[simp] theorem isSet_putF_one (f : FieldRef) (s : State) (h : 0 < f.width) : isSet (putF f 1 s) f = true := by
  have : 1 < 2 ^ f.width := Nat.one_lt_two_pow (by omega)
  simp [isSet, Nat.mod_eq_of_lt this]

@[simp] theorem isSet_putF_zero (f : FieldRef) (s : State) : isSet (putF f 0 s) f = false := by
  simp [isSet]

end Sys2Proof.Machine
end

