-- ==== Sys2Proof/Laws/Sic.lean ====
section
/-! SUPPORT. Laws of the form of every meaning: `live`, and the host-pending flags that it brings up to date. -/

namespace Sys2Proof.Machine

/-- Host-pending going to 1 changes the interrupt controller and its messages, and nothing else. -/
theorem hostRaise_eq (n : Nat) (s : State) : hostRaise n s = withSic s (hostRaise n s) := by
  simp only [hostRaise]
  split <;> rfl

/-- Bringing the host-pending flags up to date changes the interrupt controller and its messages, and nothing else. -/
theorem sicSettle_eq (s : State) : sicSettle s = withSic s (sicSettle s) := by
  have one : ∀ (n : Nat) (t u : State), withSic (hostRaise n t) u = withSic t u := by
    intro n t u
    rw [hostRaise_eq]
    rfl
  have key : ∀ (l : List Nat) (t : State),
      l.foldl (fun t n => if hostEn t n && sicLevel t n && !t.sic.host.contains n then hostRaise n t else t) t =
        withSic t (l.foldl (fun t n => if hostEn t n && sicLevel t n && !t.sic.host.contains n then hostRaise n t
          else t) t) := by
    intro l
    induction l with
    | nil => intro t; rfl
    | cons n r ih =>
      intro t
      rw [List.foldl_cons]
      split
      · rw [← one n t]; exact ih _
      · exact ih _
  exact key _ s

/-- A command completes unless a reserved field holds a changed value; then its effect, with the host-pending flags brought up
to date, is the next state. -/
theorem live_next {s : State} (h : s.rsvDirty = false) (t : State) : live s t = .next (sicSettle t) := by
  simp [live, h]

theorem live_fault {s : State} (h : s.rsvDirty = true) (t : State) : live s t = .fault .reservedChanged := by
  simp [live, h]

/-- What `live` can answer. -/
theorem live_cases (s t : State) :
    (s.rsvDirty = true ∧ live s t = .fault .reservedChanged) ∨ (s.rsvDirty = false ∧ live s t = .next (sicSettle t)) := by
  cases h : s.rsvDirty <;> simp [live, h]

@[simp] theorem sicSettle_pending (s : State) : (sicSettle s).pending = s.pending := by rw [sicSettle_eq]; rfl
@[simp] theorem sicSettle_variant (s : State) : (sicSettle s).variant = s.variant := by rw [sicSettle_eq]; rfl
@[simp] theorem sicSettle_csr (s : State) : (sicSettle s).csr = s.csr := by rw [sicSettle_eq]; rfl
@[simp] theorem sicSettle_mem (s : State) : (sicSettle s).mem = s.mem := by rw [sicSettle_eq]; rfl
@[simp] theorem sicSettle_ecc (s : State) : (sicSettle s).ecc = s.ecc := by rw [sicSettle_eq]; rfl
@[simp] theorem sicSettle_rsvDirty (s : State) : (sicSettle s).rsvDirty = s.rsvDirty := by rw [sicSettle_eq]; rfl
@[simp] theorem sicSettle_shadows (s : State) : (sicSettle s).shadows = s.shadows := by rw [sicSettle_eq]; rfl
@[simp] theorem sicSettle_held (s : State) : (sicSettle s).held = s.held := by rw [sicSettle_eq]; rfl
@[simp] theorem sicSettle_reply (s : State) : (sicSettle s).reply = s.reply := by rw [sicSettle_eq]; rfl
@[simp] theorem sicSettle_free (s : State) : (sicSettle s).free = s.free := by rw [sicSettle_eq]; rfl
@[simp] theorem sicSettle_cores (s : State) : (sicSettle s).cores = s.cores := by rw [sicSettle_eq]; rfl
@[simp] theorem sicSettle_engs (s : State) : (sicSettle s).engs = s.engs := by rw [sicSettle_eq]; rfl
@[simp] theorem sicSettle_fab (s : State) : (sicSettle s).fab = s.fab := by rw [sicSettle_eq]; rfl
@[simp] theorem sicSettle_ctxs (s : State) : (sicSettle s).ctxs = s.ctxs := by rw [sicSettle_eq]; rfl
@[simp] theorem sicSettle_mbx (s : State) : (sicSettle s).mbx = s.mbx := by rw [sicSettle_eq]; rfl
@[simp] theorem sicSettle_contribs (s : State) : (sicSettle s).contribs = s.contribs := by rw [sicSettle_eq]; rfl
@[simp] theorem sicSettle_sums (s : State) : (sicSettle s).sums = s.sums := by rw [sicSettle_eq]; rfl
@[simp] theorem sicSettle_admTick (s : State) : (sicSettle s).admTick = s.admTick := by rw [sicSettle_eq]; rfl
@[simp] theorem sicSettle_admIn (s : State) : (sicSettle s).admIn = s.admIn := by rw [sicSettle_eq]; rfl
@[simp] theorem sicSettle_hold (s : State) : (sicSettle s).hold = s.hold := by rw [sicSettle_eq]; rfl
@[simp] theorem sicSettle_admRefused (s : State) : (sicSettle s).admRefused = s.admRefused := by rw [sicSettle_eq]; rfl
@[simp] theorem sicSettle_bduRefused (s : State) : (sicSettle s).bduRefused = s.bduRefused := by rw [sicSettle_eq]; rfl
@[simp] theorem sicSettle_bdus (s : State) : (sicSettle s).bdus = s.bdus := by rw [sicSettle_eq]; rfl
@[simp] theorem sicSettle_portIn (s : State) : (sicSettle s).portIn = s.portIn := by rw [sicSettle_eq]; rfl
@[simp] theorem sicSettle_results (s : State) : (sicSettle s).results = s.results := by rw [sicSettle_eq]; rfl
@[simp] theorem sicSettle_trigReqs (s : State) : (sicSettle s).trigReqs = s.trigReqs := by rw [sicSettle_eq]; rfl
@[simp] theorem sicSettle_trigLast (s : State) : (sicSettle s).trigLast = s.trigLast := by rw [sicSettle_eq]; rfl
@[simp] theorem sicSettle_trigActive (s : State) : (sicSettle s).trigActive = s.trigActive := by rw [sicSettle_eq]; rfl
@[simp] theorem sicSettle_trigLive (s : State) : (sicSettle s).trigLive = s.trigLive := by rw [sicSettle_eq]; rfl
@[simp] theorem sicSettle_records (s : State) : (sicSettle s).records = s.records := by rw [sicSettle_eq]; rfl
@[simp] theorem sicSettle_journal (s : State) : (sicSettle s).journal = s.journal := by rw [sicSettle_eq]; rfl
@[simp] theorem sicSettle_ckpts (s : State) : (sicSettle s).ckpts = s.ckpts := by rw [sicSettle_eq]; rfl
@[simp] theorem sicSettle_jrnBack (s : State) : (sicSettle s).jrnBack = s.jrnBack := by rw [sicSettle_eq]; rfl
@[simp] theorem sicSettle_jrnOff (s : State) : (sicSettle s).jrnOff = s.jrnOff := by rw [sicSettle_eq]; rfl
@[simp] theorem sicSettle_jrnMark (s : State) : (sicSettle s).jrnMark = s.jrnMark := by rw [sicSettle_eq]; rfl
@[simp] theorem sicSettle_faultsUp (s : State) : (sicSettle s).faultsUp = s.faultsUp := by rw [sicSettle_eq]; rfl
@[simp] theorem sicSettle_chipFaults (s : State) : (sicSettle s).chipFaults = s.chipFaults := by rw [sicSettle_eq]; rfl
@[simp] theorem sicSettle_fmOrder (s : State) : (sicSettle s).fmOrder = s.fmOrder := by rw [sicSettle_eq]; rfl
@[simp] theorem sicSettle_recovs (s : State) : (sicSettle s).recovs = s.recovs := by rw [sicSettle_eq]; rfl
@[simp] theorem sicSettle_recovRuns (s : State) : (sicSettle s).recovRuns = s.recovRuns := by rw [sicSettle_eq]; rfl
@[simp] theorem sicSettle_rows (s : State) : (sicSettle s).rows = s.rows := by rw [sicSettle_eq]; rfl
@[simp] theorem sicSettle_sliceScrub (s : State) : (sicSettle s).sliceScrub = s.sliceScrub := by rw [sicSettle_eq]; rfl
@[simp] theorem sicSettle_sliceWake (s : State) : (sicSettle s).sliceWake = s.sliceWake := by rw [sicSettle_eq]; rfl
@[simp] theorem sicSettle_memWait (s : State) : (sicSettle s).memWait = s.memWait := by rw [sicSettle_eq]; rfl
@[simp] theorem sicSettle_ringIn (s : State) : (sicSettle s).ringIn = s.ringIn := by rw [sicSettle_eq]; rfl
@[simp] theorem sicSettle_rxIn (s : State) : (sicSettle s).rxIn = s.rxIn := by rw [sicSettle_eq]; rfl
@[simp] theorem sicSettle_memCfg (s : State) : (sicSettle s).memCfg = s.memCfg := by rw [sicSettle_eq]; rfl
@[simp] theorem sicSettle_mr4 (s : State) : (sicSettle s).mr4 = s.mr4 := by rw [sicSettle_eq]; rfl
@[simp] theorem sicSettle_refresh (s : State) : (sicSettle s).refresh = s.refresh := by rw [sicSettle_eq]; rfl
@[simp] theorem sicSettle_cttCmd (s : State) : (sicSettle s).cttCmd = s.cttCmd := by rw [sicSettle_eq]; rfl
@[simp] theorem sicSettle_cttWaits (s : State) : (sicSettle s).cttWaits = s.cttWaits := by rw [sicSettle_eq]; rfl
@[simp] theorem sicSettle_resets (s : State) : (sicSettle s).resets = s.resets := by rw [sicSettle_eq]; rfl
@[simp] theorem sicSettle_stateWas (s : State) : (sicSettle s).stateWas = s.stateWas := by rw [sicSettle_eq]; rfl
@[simp] theorem sicSettle_rstResults (s : State) : (sicSettle s).rstResults = s.rstResults := by rw [sicSettle_eq]; rfl
@[simp] theorem sicSettle_holdover (s : State) : (sicSettle s).holdover = s.holdover := by rw [sicSettle_eq]; rfl
@[simp] theorem sicSettle_warmHeld (s : State) : (sicSettle s).warmHeld = s.warmHeld := by rw [sicSettle_eq]; rfl
@[simp] theorem sicSettle_measuring (s : State) : (sicSettle s).measuring = s.measuring := by rw [sicSettle_eq]; rfl
@[simp] theorem sicSettle_power (s : State) : (sicSettle s).power = s.power := by rw [sicSettle_eq]; rfl
@[simp] theorem sicSettle_pins (s : State) : (sicSettle s).pins = s.pins := by rw [sicSettle_eq]; rfl
@[simp] theorem sicSettle_sec (s : State) : (sicSettle s).sec = s.sec := by rw [sicSettle_eq]; rfl
@[simp] theorem sicSettle_recorder (s : State) : (sicSettle s).recorder = s.recorder := by rw [sicSettle_eq]; rfl
@[simp] theorem sicSettle_aet (s : State) : (sicSettle s).aet = s.aet := by rw [sicSettle_eq]; rfl
@[simp] theorem sicSettle_links (s : State) : (sicSettle s).links = s.links := by rw [sicSettle_eq]; rfl
@[simp] theorem sicSettle_sysrefArmed (s : State) : (sicSettle s).sysrefArmed = s.sysrefArmed := by rw [sicSettle_eq]; rfl
@[simp] theorem sicSettle_eip (s : State) : (sicSettle s).eip = s.eip := by rw [sicSettle_eq]; rfl
@[simp] theorem sicSettle_timers (s : State) : (sicSettle s).timers = s.timers := by rw [sicSettle_eq]; rfl
@[simp] theorem sicSettle_cluster (s : State) : (sicSettle s).cluster = s.cluster := by rw [sicSettle_eq]; rfl
@[simp] theorem sicSettle_fw (s : State) : (sicSettle s).fw = s.fw := by rw [sicSettle_eq]; rfl
@[simp] theorem sicSettle_imgCsr (s : State) : (sicSettle s).imgCsr = s.imgCsr := by rw [sicSettle_eq]; rfl
@[simp] theorem sicSettle_imgMem (s : State) : (sicSettle s).imgMem = s.imgMem := by rw [sicSettle_eq]; rfl
@[simp] theorem sicSettle_outside_cfg (s : State) : (sicSettle s).outside.cfg = s.outside.cfg := by rw [sicSettle_eq]; rfl
@[simp] theorem sicSettle_outside_tlps (s : State) : (sicSettle s).outside.tlps = s.outside.tlps := by rw [sicSettle_eq]; rfl
@[simp] theorem sicSettle_outside_frames (s : State) : (sicSettle s).outside.frames = s.outside.frames := by rw [sicSettle_eq]; rfl

@[simp] theorem rdWord_sicSettle (s : State) (a : Nat) : rdWord (sicSettle s) a = rdWord s a :=
  rdWord_congr (sicSettle_csr s) a

@[simp] theorem getF_sicSettle (s : State) (f : FieldRef) : getF (sicSettle s) f = getF s f :=
  getF_congr (sicSettle_csr s) f

@[simp] theorem isSet_sicSettle (s : State) (f : FieldRef) : isSet (sicSettle s) f = isSet s f :=
  isSet_congr (sicSettle_csr s) f

@[simp] theorem core_sicSettle (s : State) (c : Nat) : core (sicSettle s) c = core s c := by simp [core]
@[simp] theorem eng_sicSettle (s : State) (c e : Nat) : eng (sicSettle s) c e = eng s c e := by simp [eng]
@[simp] theorem regOf_sicSettle (s : State) (c e r : Nat) : regOf (sicSettle s) c e r = regOf s c e r := by simp [regOf]

end Sys2Proof.Machine
end

