-- ==== Sys2Proof/Laws/Engine.lean ====
section
/-! SUPPORT. Laws of an engine's registers and of the issue and retirement of its instructions. -/

namespace Sys2Proof.Machine

/-! ### Engines and their registers -/

@[simp] theorem eng_setEng_same (c e : Nat) (g : Eng) (s : State) : eng (setEng c e g s) c e = g := by
  simp [eng]

theorem eng_setEng (c e c' e' : Nat) (g : Eng) (s : State) :
    eng (setEng c e g s) c' e' = if 8 * c' + e' = 8 * c + e then g else eng s c' e' := by
  unfold eng
  rw [setEng_engs, tget_tset]

@[simp] theorem eng_putF (f : FieldRef) (v : Nat) (s : State) (c e : Nat) : eng (putF f v s) c e = eng s c e := by simp [eng]
@[simp] theorem eng_wrWord (a : Nat) (v : Word) (s : State) (c e : Nat) : eng (wrWord a v s) c e = eng s c e := by simp [eng]
@[simp] theorem eng_setMem (m : Memory) (s : State) (c e : Nat) : eng (setMem m s) c e = eng s c e := by simp [eng]
@[simp] theorem eng_setCore (c' : Nat) (k : Core) (s : State) (c e : Nat) : eng (setCore c' k s) c e = eng s c e := by simp [eng]

@[simp] theorem regOf_zero (s : State) (c e : Nat) : regOf s c e 0 = 0 := rfl

@[simp] theorem regOf_putF (f : FieldRef) (v : Nat) (s : State) (c e r : Nat) : regOf (putF f v s) c e r = regOf s c e r := by
  simp [regOf]

@[simp] theorem regOf_setMem (m : Memory) (s : State) (c e r : Nat) : regOf (setMem m s) c e r = regOf s c e r := by
  simp [regOf]

@[simp] theorem regOf_setCore (c' : Nat) (k : Core) (s : State) (c e r : Nat) : regOf (setCore c' k s) c e r = regOf s c e r := by
  simp [regOf]

/-- A scalar register after a write of one (R103). -/
theorem regOf_setReg (c e rd r : Nat) (v : Word) (s : State) :
    regOf (setReg c e rd v s) c e r = if r = rd then (if rd = 0 then 0 else v) else regOf s c e r := by
  unfold setReg
  split
  · rename_i h
    subst h
    split
    · rename_i h; subst h; rfl
    · rfl
  · rename_i h
    unfold regOf
    split
    · rename_i h0
      subst h0
      split
      · omega
      · rfl
    · simp [tget_tset]

@[simp] theorem setReg_csr (c e r : Nat) (v : Word) (s : State) : (setReg c e r v s).csr = s.csr := by
  unfold setReg; split <;> rfl

@[simp] theorem setReg_mem (c e r : Nat) (v : Word) (s : State) : (setReg c e r v s).mem = s.mem := by
  unfold setReg; split <;> rfl

/-- A register write changes the engines and nothing else. -/
theorem setReg_eq (c e r : Nat) (v : Word) (s : State) :
    setReg c e r v s = { s with engs := (setReg c e r v s).engs } := by
  unfold setReg; split <;> rfl

/-- What a register write leaves of the engine. -/
theorem eng_setReg (c e r : Nat) (v : Word) (s : State) :
    eng (setReg c e r v s) c e = { eng s c e with regs := (eng (setReg c e r v s) c e).regs } := by
  unfold setReg
  split
  · rfl
  · simp

theorem engKept_setEng (c e : Nat) (g : Eng) (s : State) : EngKept c e s (setEng c e g s) := by
  intro k hk
  simp [tget_tset_other _ hk]

theorem engKept_setReg (c e r : Nat) (v : Word) (s : State) : EngKept c e s (setReg c e r v s) := by
  unfold setReg
  split
  · intro k _; rfl
  · exact engKept_setEng _ _ _ _

/-! ### Retirement -/

@[simp] theorem getF_setReg (c e r : Nat) (v : Word) (s : State) (f : FieldRef) : getF (setReg c e r v s) f = getF s f :=
  getF_congr (setReg_csr ..) f

@[simp] theorem getF_setEng (c e : Nat) (g : Eng) (s : State) (f : FieldRef) : getF (setEng c e g s) f = getF s f :=
  getF_congr (setEng_csr ..) f

@[simp] theorem getF_setCore (c : Nat) (k : Core) (s : State) (f : FieldRef) : getF (setCore c k s) f = getF s f :=
  getF_congr (setCore_csr ..) f

@[simp] theorem getF_setMem (m : Memory) (s : State) (f : FieldRef) : getF (setMem m s) f = getF s f :=
  getF_congr (setMem_csr ..) f

/-- Retirement after a register write: everything it does. -/
theorem retire_setReg (c e rd : Nat) (v : Word) (s : State) :
    let t := sicSettle (retire c e (setReg c e rd v s))
    regOf t c e rd = (if rd = 0 then 0 else v) ∧ RegsKept c e [rd] s t ∧ Retires c e ((eng s c e).pc + 1) s t ∧
    (eng t c e).vregs = (eng s c e).vregs ∧ OnlyEngs s t := by
  intro t
  have he : eng t c e = { eng (setReg c e rd v s) c e with pc := (eng (setReg c e rd v s) c e).pc + 1 } := by
    simp [t, retire]
  have hr : ∀ r, regOf t c e r = regOf (setReg c e rd v s) c e r := by
    intro r
    simp only [regOf, he]
  have hs := eng_setReg c e rd v s
  refine ⟨?_, ?_, ⟨?_, ?_, ?_, ?_⟩, ?_, ?_⟩
  · rw [hr, regOf_setReg]; simp
  · intro r hr'
    rw [hr, regOf_setReg, if_neg (by simpa using hr')]
  · rw [he, hs]
  · intro k hk
    simp only [t, sicSettle_engs, retire, incWrap_def, putF_engs, modEng_def, setEng_engs]
    rw [tget_tset_other _ hk]
    exact engKept_setReg c e rd v s k hk
  · simp [t, retire]
    rfl
  · intro a ha
    simp only [t, rdWord_sicSettle, retire, incWrap_def]
    rw [rdWord_putF_outside _ _ _ _ (fun j hj => ha _ (List.mem_singleton.mpr rfl) j hj)]
    exact rdWord_congr (by simp) a
  · rw [he, hs]
  · simp only [OnlyEngs, t]
    rw [sicSettle_eq]
    simp only [retire, incWrap_def]
    rw [putF_eq]
    simp only [modEng_def, setEng]
    rw [setReg_eq]
    rfl

end Sys2Proof.Machine
end

