-- ==== Sys2Proof/Laws/Memory.lean ====
section
/-! SUPPORT. Laws of memory: a read after a write, the bytes a write leaves alone, and that every memory operation keeps the
canonical form. -/

namespace Sys2Proof.Machine

/-! ### Read after write -/

theorem getByte_setByte (j a : Nat) (v : Byte) (m : Memory) :
    getByte (setByte a v m) j = if j = a then v else getByte m j := by
  unfold getByte setByte
  split
  · rename_i h0
    subst h0
    split
    · rename_i h; subst h; simp
    · rename_i h; exact tget_tdel_other _ h m
  · exact tget_tset _ _ _ _ _

@[simp] theorem getByte_setByte_same (a : Nat) (v : Byte) (m : Memory) : getByte (setByte a v m) a = v := by
  simp [getByte_setByte]

theorem getByte_setByte_other {j a : Nat} (h : j ≠ a) (v : Byte) (m : Memory) :
    getByte (setByte a v m) j = getByte m j := by
  simp [getByte_setByte, h]

/-- A write of bytes leaves every byte outside them. -/
theorem getByte_setBytes_outside (bs : List Byte) (j a : Nat) (h : j < a ∨ a + bs.length ≤ j) (m : Memory) :
    getByte (setBytes a bs m) j = getByte m j := by
  induction bs generalizing a m with
  | nil => rfl
  | cons b r ih =>
    simp only [List.length_cons] at h
    rw [setBytes, ih (a + 1) (by omega), getByte_setByte_other (by omega)]

/-- A byte that a write covers holds what was written. -/
theorem getByte_setBytes_inside (bs : List Byte) (a i : Nat) (h : i < bs.length) (m : Memory) :
    getByte (setBytes a bs m) (a + i) = bs[i] := by
  induction bs generalizing a i m with
  | nil => simp at h
  | cons b r ih =>
    cases i with
    | zero =>
      rw [setBytes, getByte_setBytes_outside r _ _ (by omega)]
      simp
    | succ k =>
      have hk : k < r.length := by simpa using h
      have := ih (a + 1) k hk (setByte a b m)
      rw [setBytes, show a + (k + 1) = a + 1 + k by omega, this]
      simp

theorem toBytes_length (v n : Nat) : (toBytes v n).length = n := by
  induction n generalizing v with
  | zero => rfl
  | succ n ih => simp [toBytes, ih]

theorem getByte_setNum_outside (a n v j : Nat) (h : j < a ∨ a + n ≤ j) (m : Memory) :
    getByte (setNum a n v m) j = getByte m j := by
  unfold setNum
  exact getByte_setBytes_outside _ _ _ (by rw [toBytes_length]; exact h) m

theorem getByte_setBits_outside (a lo w v j : Nat) (h : j < a + lo / 8 ∨ a + lo / 8 + (lo % 8 + w + 7) / 8 ≤ j) (m : Memory) :
    getByte (setBits a lo w v m) j = getByte m j := by
  unfold setBits
  exact getByte_setNum_outside _ _ _ _ h m

theorem getBytes_setBytes (bs : List Byte) (a : Nat) (m : Memory) : getBytes (setBytes a bs m) a bs.length = bs := by
  induction bs generalizing a m with
  | nil => rfl
  | cons b r ih =>
    rw [List.length_cons, getBytes, setBytes, getByte_setBytes_outside r a (a + 1) (by omega), ih]
    simp

theorem ofBytes_toBytes (v n : Nat) : ofBytes (toBytes v n) = v % 256 ^ n := by
  induction n generalizing v with
  | zero => simp [toBytes, ofBytes, Nat.mod_one]
  | succ n ih =>
    simp only [toBytes, ofBytes, ih, BitVec.toNat_ofNat]
    have h : 256 ^ (n + 1) = 256 * 256 ^ n := by rw [Nat.pow_succ, Nat.mul_comm]
    rw [h, Nat.mod_mul]

/-- A number reads back as written, within its width. -/
theorem getNum_setNum (a n v : Nat) (m : Memory) : getNum (setNum a n v m) a n = v % 256 ^ n := by
  unfold getNum setNum
  have := getBytes_setBytes (toBytes v n) a m
  rw [toBytes_length] at this
  rw [this, ofBytes_toBytes]

theorem getBytes_congr (m m' : Memory) (a n : Nat) (h : ∀ j, a ≤ j → j < a + n → getByte m j = getByte m' j) :
    getBytes m a n = getBytes m' a n := by
  induction n generalizing a with
  | zero => rfl
  | succ n ih =>
    rw [getBytes, getBytes, h a (by omega) (by omega), ih (a + 1) (fun j h1 h2 => h j (by omega) (by omega))]

theorem getNum_setNum_outside (a n v b k : Nat) (h : b + k ≤ a ∨ a + n ≤ b) (m : Memory) :
    getNum (setNum a n v m) b k = getNum m b k := by
  unfold getNum
  rw [getBytes_congr _ m b k (fun j h1 h2 => getByte_setNum_outside a n v j (by omega) m)]

theorem getByte_zeroBytes (a n j : Nat) (m : Memory) :
    getByte (zeroBytes a n m) j = if a ≤ j ∧ j < a + n then unlistedByte else getByte m j := by
  unfold getByte zeroBytes tget
  split
  · rename_i h
    rw [tfind_filter_none _ _ _ (by intro v; simp [h.1, h.2])]
    rfl
  · rename_i h
    rw [tfind_filter _ _ _ (by intro v; simp; omega)]

/-! ### The canonical form -/

theorem wf_tset (a : Nat) (v : Byte) (hv : v ≠ unlistedByte) (m : Memory) (h : Memory.wf m = true) :
    Memory.wf (tset a v m) = true := by
  have key : ∀ (m : Memory) (b : Nat), b < a → m.all (fun c => decide (b < c.1)) = true →
      (tset a v m).all (fun c => decide (b < c.1)) = true := by
    intro m
    induction m with
    | nil => intro b hb _; simp [tset, hb]
    | cons p r ih =>
      obtain ⟨k, x⟩ := p
      intro b hb hall
      simp only [List.all_cons, Bool.and_eq_true, decide_eq_true_eq] at hall
      unfold tset
      split
      · simp only [List.all_cons, Bool.and_eq_true, decide_eq_true_eq]; exact ⟨hb, hall.1, hall.2⟩
      · split
        · simp only [List.all_cons, Bool.and_eq_true, decide_eq_true_eq]; exact ⟨hb, hall.2⟩
        · simp only [List.all_cons, Bool.and_eq_true, decide_eq_true_eq]; exact ⟨hall.1, ih b hb hall.2⟩
  induction m with
  | nil => simp [tset, Memory.wf, hv]
  | cons p r ih =>
    obtain ⟨k, x⟩ := p
    simp only [Memory.wf, Bool.and_eq_true] at h
    unfold tset
    split
    · rename_i hlt
      simp only [Memory.wf, Bool.and_eq_true, List.all_cons, decide_eq_true_eq]
      refine ⟨⟨by simp [hv], hlt, ?_⟩, h⟩
      have := h.1.2
      rw [List.all_eq_true] at this ⊢
      intro c hc
      have := this c hc
      simp only [decide_eq_true_eq] at this ⊢
      omega
    · split
      · rename_i heq
        subst heq
        simp only [Memory.wf, Bool.and_eq_true]
        exact ⟨⟨by simp [hv], h.1.2⟩, h.2⟩
      · simp only [Memory.wf, Bool.and_eq_true]
        exact ⟨⟨h.1.1, key r k (by omega) h.1.2⟩, ih h.2⟩

theorem wf_filter (q : Host.Cell → Bool) (m : Memory) (h : Memory.wf m = true) : Memory.wf (m.filter q) = true := by
  induction m with
  | nil => rfl
  | cons p r ih =>
    obtain ⟨k, x⟩ := p
    simp only [Memory.wf, Bool.and_eq_true] at h
    simp only [List.filter_cons]
    split
    · simp only [Memory.wf, Bool.and_eq_true]
      refine ⟨⟨h.1.1, ?_⟩, ih h.2⟩
      rw [List.all_eq_true]
      intro c hc
      exact (List.all_eq_true.mp h.1.2) c (List.mem_filter.mp hc).1
    · exact ih h.2

theorem wf_setByte (a : Nat) (v : Byte) (m : Memory) (h : Memory.wf m = true) : Memory.wf (setByte a v m) = true := by
  unfold setByte
  split
  · exact wf_filter _ m h
  · rename_i hv; exact wf_tset a v hv m h

theorem wf_setBytes (a : Nat) (bs : List Byte) (m : Memory) (h : Memory.wf m = true) : Memory.wf (setBytes a bs m) = true := by
  induction bs generalizing a m with
  | nil => exact h
  | cons b r ih => exact ih _ _ (wf_setByte a b m h)

theorem wf_setNum (a n v : Nat) (m : Memory) (h : Memory.wf m = true) : Memory.wf (setNum a n v m) = true :=
  wf_setBytes _ _ m h

theorem wf_setBits (a lo w v : Nat) (m : Memory) (h : Memory.wf m = true) : Memory.wf (setBits a lo w v m) = true :=
  wf_setNum _ _ _ m h

theorem wf_zeroBytes (a n : Nat) (m : Memory) (h : Memory.wf m = true) : Memory.wf (zeroBytes a n m) = true :=
  wf_filter _ m h

theorem wf_addLanes (a : Nat) (ws : List (Option Word)) (m : Memory) (h : Memory.wf m = true) :
    Memory.wf (addLanes a ws m) = true := by
  induction ws generalizing a m with
  | nil => exact h
  | cons x r ih =>
    cases x with
    | none => exact ih _ _ h
    | some w => exact ih _ _ (wf_setNum _ _ _ m h)

/-- What a slice operation does to memory keeps the form. -/
theorem wf_sliceApply (a : Nat) (op : SliceOp) (s : State) (h : Memory.wf s.mem = true) :
    Memory.wf (sliceApply a op s).mem = true := by
  cases op with
  | read n => exact h
  | write bs => exact wf_setBytes _ _ _ h
  | add ws => exact wf_addLanes _ _ _ h
  | bits set bs => exact wf_setBytes _ _ _ h

theorem wf_reset : Memory.wf State.reset.mem = true := rfl

end Sys2Proof.Machine
end

