-- ==== Sys2Proof/Tests/Slice0.lean ====
section
/-! SUPPORT. Tests: commands that the well-formedness check refuses, words and results that the spec writes out, and for each
statement with hypotheses a state and operands that meet them. -/

section

open Sys2Proof Sys2Proof.Machine

set_option Elab.async false

/-! ### States of the tests -/

/-- Engine `e` of core `c` runs a handler at index 0 with these scalar registers. -/
def Tests.run (c e : Nat) (regs : Tab Word) (s : State) : State :=
  setEng c e { regs := regs, st := .run, handler := some ⟨5, 7, 9, false⟩ } s

def Tests.mem (l : Memory) (s : State) : State := { s with mem := l }

/-- The device is READY, so that every block answers; the security controller is a requester that no firewall class binds. -/
def Tests.up : State := putF Reg.glob_CHIP_STATUS_STATE 3 .reset

/-- What holds of the register word at an address. -/
def Tests.onWord (addr : Nat) (f : RegBlock → Nat → Bool → WordAt → Bool) : Bool :=
  match csrAt addr with
  | .word b blk peek w => f b blk peek w
  | _ => false

/-- Main memory is up. -/
def Tests.memory : State :=
  (List.range 16).foldl (fun t ch => putF (Reg.memCh_MEM_CH_STATUS_STATE ch) 2 t) (Tests.up |> putF (enabledRef Reg.mem_BLK_CTRL) 1 |> putF (enRef Reg.mem_BLK_CTRL) 1)

/-- Context 9 runs at slot 2 of core 0, with the wicket of step 4 taken. -/
def Tests.slot (s : State) : State :=
  s |> wrNum (slotBase 0 2) 8 (9 + 2 * 2 ^ 44 + 2 ^ 48) |> modCore 0 (fun k => { k with taken := tset 2 5 k.taken })

/-- The word of an event for context 9, DLY 1, of this KIND. -/
def Tests.event (kind : Nat) : Word64 := mkEvent 0 0 0 0 9 0 1 kind 0

/-- Context 9 runs at slot 2 of core 0, its descriptor says so, and the timebase is at wicket `n`. -/
def Tests.context (n : Nat) : State :=
  Tests.slot Tests.up |> wrNum (descAt Tests.up 9) 20 (2 + 5 * 2 ^ 128) |> putF Reg.tb_TB_WICKET_WICKET n
    |> (fun s => { s with ctxs := [(9, {})] })

/-! ### Ill-formed commands

Each kind of check refuses a command with that one operand out of range, and takes it with the last value in range. -/

theorem test_parts_refused :
    partyOk (.app 8 false) = false ∧ partyOk (.pdma 8) = false ∧ partyOk (.sdma 16) = false ∧ partyOk (.core 1024 0) = false ∧
    partyOk (.core 0 6) = false ∧ partyOk (.bdu 64) = false ∧ memOpOk (.read 0) = false ∧ memOpOk (.read 4097) = false ∧ memOpOk (.write []) = false ∧
    memOpOk (.write (List.replicate 4097 0)) = false ∧ memOpOk (.fetch 0) = false ∧ memOpOk (.fetch 4097) = false ∧ memOpOk (.lr 5) = false ∧
    memOpOk (.sc (List.replicate 3 0)) = false ∧ memOpOk (.amo .add (List.replicate 16 0)) = false ∧ tlpOpOk .fence = false ∧ tlpOpOk (.lr 4) = false ∧
    sliceOpOk (.read 0) = false ∧ sliceOpOk (.read 257) = false ∧ sliceOpOk (.write []) = false ∧
    sliceOpOk (.write (List.replicate 257 0)) = false ∧ sliceOpOk (.add []) = false ∧ sliceOpOk (.add (List.replicate 17 none)) = false ∧
    sliceOpOk (.bits false []) = false ∧ sliceOpOk (.bits false (List.replicate 257 0)) = false ∧ (Instr.registerWrite (.bdu 64) 0 0).wf = false ∧
    (Instr.memoryAccess .host 0 (.read 0) 0).wf = false ∧ (Instr.warmReset (.cmd (.app 8 true))).wf = false := by
  decide +kernel

theorem test_operands_refused_1 :
    (Instr.registerWrite .host 0x10000000000 0).wf = false ∧ (Instr.coreStopStart 1024).wf = false ∧ (Instr.wicketRelease 0x10000).wf = false ∧
    (Instr.wicketTaken 1 256).wf = false ∧ (Instr.ganderExpiry 1 6).wf = false ∧ (Instr.add 1 1 32 1 1).wf = false ∧
    (Instr.add 1 1 1 32 1).wf = false ∧ (Instr.add 1 1 1 1 32).wf = false ∧ (Instr.addi 1 1 1 1 0x10000).wf = false ∧
    (Instr.br 1 1 1 1 16 1).wf = false ∧ (Instr.br 1 1 1 1 1 4096).wf = false ∧ (Instr.vadd 1 1 16 1 1 1).wf = false ∧
    (Instr.vadd 1 1 1 16 1 1).wf = false ∧ (Instr.vadd 1 1 1 1 16 1).wf = false ∧ (Instr.vadd 1 1 1 1 1 32).wf = false ∧
    (Instr.swait 1 1 1 1 1 256).wf = false ∧ (Instr.qdataRead .host 1 64).wf = false ∧ (Instr.creditReturn 1 32).wf = false ∧
    (Instr.mbxDataWrite .host 64 0).wf = false ∧ (Instr.mbxAckWrite .host 1 256).wf = false ∧ (Instr.packetInject 4096).wf = false ∧
    (Instr.ackSend 1 4096).wf = false ∧ (Instr.fabDrainRequest .host 16).wf = false ∧ (Instr.regionDrained 4).wf = false ∧
    (Instr.pulseEnd 8).wf = false ∧ (Instr.admissionEvent 16).wf = false ∧ (Instr.triggerWordWrite 64 1).wf = false ∧
    (Instr.triggerWordWrite 1 0x100000).wf = false ∧ (Instr.inningsBoundary 1 4).wf = false ∧ (Instr.lsetWrite .host 1 1 8 0).wf = false ∧
    (Instr.laneLock 8 1).wf = false ∧ (Instr.laneLock 1 24).wf = false ∧ (Instr.eipLaneLock 8).wf = false ∧ (Instr.resultEvent 8).wf = false ∧
    (Instr.ctxCmdBadOp .host 16 1).wf = false ∧ (Instr.ocrConsWrite .host 256 0).wf = false ∧
    (Instr.ethFrameRx 2 [0] false 0 0).wf = false := by
  decide +kernel

theorem test_operands_refused_2 :
    (Instr.helloRetry 32).wf = false ∧ (Instr.sicClaim .host 16).wf = false ∧ (Instr.sicComplete .host 1 1024).wf = false ∧
    (Instr.msixUnmask .host 2048).wf = false ∧ (Instr.pdmaDescriptor 8 [0] false).wf = false ∧ (Instr.hostHello 64 1 1).wf = false ∧
    (Instr.hostHello 1 256 1).wf = false ∧ (Instr.hostHello 1 1 256).wf = false ∧ (Instr.ping 1 0x100000).wf = false ∧
    (Instr.hostLoadImage 1 0x100000).wf = false ∧ (Instr.loaded 16).wf = false ∧ (Instr.notice 16).wf = false ∧
    (Instr.memoryRefresh 16 1).wf = false ∧ (Instr.memoryRefresh 1 8).wf = false ∧ (Instr.sdmaDescriptor 16 [0] false).wf = false ∧
    (Instr.compareWrite .host 32 0).wf = false ∧ (Instr.referenceLost 4).wf = false ∧ (Instr.pllLockLost 13).wf = false ∧
    (Instr.bistDone 0x10000000000000000 [] none).wf = false ∧ (Instr.bistDone 1 [(64, 0)] none).wf = false ∧ (Instr.trainingDone 16 1 1).wf = false ∧
    (Instr.trainingDone 1 16 1).wf = false ∧ (Instr.trainingDone 1 1 2).wf = false ∧ (Instr.regionReset (.device 0) 4).wf = false ∧
    (Instr.clkMeasStart .host 32).wf = false ∧ (Instr.clkMeasDone 0x1000000).wf = false ∧ (Instr.i2cWake 128).wf = false ∧
    (Instr.pwrVfWrite .host 1 1024 1 false).wf = false ∧ (Instr.pwrVfWrite .host 1 1 16 false).wf = false ∧
    (Instr.pmbusAddrWrite .host 1 1 0x10000 none).wf = false ∧ (Instr.offer 1 0x10000000).wf = false ∧
    (Instr.protShadowWrite .host 262 0).wf = false ∧ (Instr.pcieLinkUp 5 1).wf = false ∧
    (Instr.pcieLinkUp 1 9).wf = false ∧ (Instr.rstNRelease 4).wf = false := by
  decide +kernel

theorem test_operands_taken_1 :
    (Instr.registerWrite .host 0xffffffffff 0).wf = true ∧ (Instr.coreStopStart 1023).wf = true ∧ (Instr.wicketRelease 0xffff).wf = true ∧
    (Instr.wicketTaken 1 255).wf = true ∧ (Instr.ganderExpiry 1 5).wf = true ∧ (Instr.add 1 1 31 1 1).wf = true ∧ (Instr.add 1 1 1 31 1).wf = true ∧
    (Instr.add 1 1 1 1 31).wf = true ∧ (Instr.addi 1 1 1 1 0xffff).wf = true ∧ (Instr.br 1 1 1 1 15 1).wf = true ∧
    (Instr.br 1 1 1 1 1 4095).wf = true ∧ (Instr.vadd 1 1 15 1 1 1).wf = true ∧ (Instr.vadd 1 1 1 15 1 1).wf = true ∧
    (Instr.vadd 1 1 1 1 15 1).wf = true ∧ (Instr.vadd 1 1 1 1 1 31).wf = true ∧ (Instr.swait 1 1 1 1 1 255).wf = true ∧
    (Instr.qdataRead .host 1 63).wf = true ∧ (Instr.creditReturn 1 31).wf = true ∧ (Instr.mbxDataWrite .host 63 0).wf = true ∧
    (Instr.mbxAckWrite .host 1 255).wf = true ∧ (Instr.packetInject 4095).wf = true ∧ (Instr.ackSend 1 4095).wf = true ∧
    (Instr.fabDrainRequest .host 15).wf = true ∧ (Instr.regionDrained 3).wf = true ∧ (Instr.pulseEnd 7).wf = true ∧
    (Instr.admissionEvent 15).wf = true ∧ (Instr.triggerWordWrite 63 1).wf = true ∧ (Instr.triggerWordWrite 1 0xfffff).wf = true ∧
    (Instr.inningsBoundary 1 3).wf = true ∧ (Instr.lsetWrite .host 1 1 7 0).wf = true ∧ (Instr.laneLock 7 1).wf = true ∧
    (Instr.laneLock 1 23).wf = true ∧ (Instr.eipLaneLock 7).wf = true ∧ (Instr.resultEvent 7).wf = true ∧ (Instr.ctxCmdBadOp .host 15 1).wf = true ∧
    (Instr.ocrConsWrite .host 255 0).wf = true ∧ (Instr.ethFrameRx 1 [0] false 0 0).wf = true := by
  decide +kernel

theorem test_operands_taken_2 :
    (Instr.helloRetry 31).wf = true ∧ (Instr.sicClaim .host 15).wf = true ∧ (Instr.sicComplete .host 1 1023).wf = true ∧
    (Instr.msixUnmask .host 2047).wf = true ∧ (Instr.pdmaDescriptor 7 [0] false).wf = true ∧ (Instr.hostHello 63 1 1).wf = true ∧
    (Instr.hostHello 1 255 1).wf = true ∧ (Instr.hostHello 1 1 255).wf = true ∧ (Instr.ping 1 0xfffff).wf = true ∧
    (Instr.hostLoadImage 1 0xfffff).wf = true ∧ (Instr.loaded 15).wf = true ∧ (Instr.notice 15).wf = true ∧ (Instr.memoryRefresh 15 1).wf = true ∧
    (Instr.memoryRefresh 1 7).wf = true ∧ (Instr.sdmaDescriptor 15 [0] false).wf = true ∧ (Instr.compareWrite .host 31 0).wf = true ∧
    (Instr.referenceLost 3).wf = true ∧ (Instr.pllLockLost 12).wf = true ∧
    (Instr.bistDone 0xffffffffffffffff [(63, 0)] none).wf = true ∧ (Instr.trainingDone 15 1 1).wf = true ∧ (Instr.trainingDone 1 15 1).wf = true ∧
    (Instr.trainingDone 1 1 1).wf = true ∧ (Instr.regionReset (.device 0) 3).wf = true ∧ (Instr.clkMeasStart .host 31).wf = true ∧
    (Instr.clkMeasDone 0xffffff).wf = true ∧ (Instr.i2cWake 127).wf = true ∧ (Instr.pwrVfWrite .host 1 1023 1 false).wf = true ∧
    (Instr.pwrVfWrite .host 1 1 15 false).wf = true ∧ (Instr.pmbusAddrWrite .host 1 1 0xffff none).wf = true ∧ (Instr.offer 1 0xfffffff).wf = true ∧
    (Instr.protShadowWrite .host 261 0).wf = true ∧ (Instr.pcieLinkUp 4 1).wf = true ∧ (Instr.pcieLinkUp 1 8).wf = true ∧
    (Instr.rstNRelease 3).wf = true := by
  decide +kernel

def Tests.header (port src seq : Nat) : AetHdr := ⟨port, src, 31, 15, 255, 65535, seq, 0xFFFFFFFF, 0, 65535, 0xFFFFFFFF⟩

theorem test_operands_of_datagrams_and_timers :
    (Instr.timerEvent 32).wf = false ∧ (Instr.capture 32).wf = false ∧ (Instr.retxTimeout 1 1 false 256).wf = false ∧
    (Instr.aetRto 1 0x100000000).wf = false ∧ (Instr.hello (Tests.header 1 31 0) 16 1 1).wf = false ∧
    (Instr.hello (Tests.header 1 31 0) 1 16 1).wf = false ∧ (Instr.hello (Tests.header 1 31 0) 1 1 0x100000000).wf = false ∧
    (Instr.accept (Tests.header 1 31 0) 16).wf = false ∧ (Instr.reject (Tests.header 1 31 0) 16).wf = false ∧
    (Instr.close (Tests.header 1 31 0) (2 ^ 64)).wf = false ∧ (Instr.fmAck .host 0 64).wf = false ∧ (Instr.bye (Tests.header 2 31 0)).wf = false ∧
    (Instr.bye (Tests.header 1 32 0)).wf = false ∧ (Instr.bye (Tests.header 1 31 0x100000000)).wf = false ∧
    segmentOk ⟨4096, 0, true, 0, 0, 0, 0, []⟩ = false ∧ segmentOk ⟨0, 0, true, 0, 0, 4096, 0, []⟩ = false ∧ (Instr.trigInEdge 4 true 0).wf = false := by
  decide +kernel

theorem test_operands_of_datagrams_and_timers_taken :
    (Instr.timerEvent 31).wf = true ∧ (Instr.capture 31).wf = true ∧ (Instr.retxTimeout 1 1 false 255).wf = true ∧
    (Instr.aetRto 1 0xFFFFFFFF).wf = true ∧ (Instr.hello (Tests.header 1 31 0) 15 15 0xFFFFFFFF).wf = true ∧
    (Instr.accept (Tests.header 1 31 0) 15).wf = true ∧ (Instr.reject (Tests.header 1 31 0) 15).wf = true ∧
    (Instr.close (Tests.header 1 31 0) (2 ^ 64 - 1)).wf = true ∧ (Instr.fmAck .host 0 63).wf = true ∧
    (Instr.bye (Tests.header 1 31 0xFFFFFFFF)).wf = true ∧ segmentOk ⟨4095, 1, true, 255, 15, 4095, 2 ^ 64 - 1, []⟩ = true ∧
    (Instr.trigInEdge 3 true 0).wf = true := by
  decide +kernel

/-! ### Results that the spec writes out -/

/-- The coordinates of 01_architecture: core (21, 9). -/
theorem test_core_309 : blockOfCore 309 = 21 ∧ coreInBlock 309 = 5 ∧ regionOfCore 309 = 1 ∧ coreBase 309 = 0x0113500000 := by decide +kernel

/-- The slice interleave of R26, in the AY1024 and the AY512, and its inverse in 09. -/
theorem test_interleave :
    sliceOf .ay1024 0x12345 = (35, 0x445) ∧ (sliceOf .ay512 0x12345).2 = 0x945 ∧ viewOff .ay1024 21 0xF0000 = 0x03C01500 := by decide +kernel

/-- The event word of R18. -/
theorem test_event_word : mkEvent 22 9 0 0xF007 0x1A2B 2 1 1 0 = 0xB243C01C68AC0828#64 := by decide +kernel

/-- rdiv of R4: +2.5, −2.5 and +2.4999. -/
theorem test_rdiv : rdiv 5 1 = 3 ∧ rdiv (-5) 1 = -3 ∧ rdiv 24999 4 = 1562 ∧ rdiv (-1) 1 = -1 ∧ rdiv 1 2 = 0 := by decide +kernel

/-- The class and neuron of the worked steps in 03. -/
def Tests.class (graded resetSub : Bool) : NClass :=
  { thr := 100000, graded := graded, resetSub := resetSub || graded, leak := 2, two := false, dlog2 := 1, alpha := 61440, leakLin := 0,
    alphaD := 0, couple := 0, csh := 0, refSteps := 2, dthr := 0, vmin := -50000 }

def Tests.neuron : NRec := { v := 80000, dend := 0, last := 0x1234, cls := 0, refc := 0, trace := 0, ring := 0 }

/-- Leak, and cases 1 to 3 of the worked steps. -/
theorem test_worked_steps :
    leakV 80000 (Tests.class false true) 3 = 65918 ∧
    (somaRec Tests.neuron (Tests.class false true) 0x100001237 181248).2 = some ⟨99999, 0, 1, true⟩ ∧
    (somaRec Tests.neuron (Tests.class false false) 0x100001237 181248).2 = some ⟨0, 0, 1, false⟩ ∧
    (somaRec Tests.neuron (Tests.class true true) 0x100001237 181248).2 = some ⟨47166, 1, 2, false⟩ ∧
    (somaRec Tests.neuron (Tests.class true true) 0x100001237 9000000).2 = some ⟨99999, 1, 15, true⟩ ∧
    (somaRec Tests.neuron (Tests.class true true) 0x100001237 181248).1.refc = 2 ∧
    (somaRec Tests.neuron (Tests.class true true) 0x100001237 181248).1.last = 0x1237 := by decide +kernel

/-- The rescale table of R244: MUL 16,384, SH 16, ZO 128, U8. -/
theorem test_rescale :
    let d : Desc := 2 + 2 * 2 ^ 12
    let q (act : Nat) : Rescale := ⟨0, 16384, 16, act, 128⟩
    [10, -10, 9, 11, 600].map (fun a => (outputOf d (q 0) a).1) = [131, 125, 130, 131, 255] ∧
    [10, -10, 9, 11, 600].map (fun a => (outputOf d (q 1) a).1) = [131, 128, 130, 131, 255] ∧ (outputOf d (q 0) 600).2.2 = true := by decide +kernel

/-- The float output of R244: 62 lies halfway between 0x67 and 0x68. -/
theorem test_float_output : (e4m3Encode ⟨992, -4⟩).1 = 0x68 := by decide +kernel

/-- The trace of R262 to R264. -/
theorem test_trace : decayTrace 1000 57344 = 875 ∧ decayTrace 2875 57344 = 2516 := by decide +kernel

/-- The normalisation table of R272. -/
theorem test_normalise :
    [rdiv 300 4, rdiv (-100) 4, rdiv (-700) 4] = [19, -6, -44] ∧ rquot 6553600 109 = 60125 ∧
    [59, -26, 10, -14].map (fun w => rdiv (w * 60125) 16) = [54, -24, 9, -13] := by decide +kernel

/-- The output record and the latest-result register of R326 and R329. -/
theorem test_output_record :
    let e : List ResEntry := [⟨0x1A2B, 0x100001237, 7, 2, 1, 310⟩, ⟨0x1A2B, 0x100001237, 0x11, 1, 0, 309⟩]
    recordWords true false 0x1A2B 41 0x100001237 e = [0x000000291A2B0402, 0x0000000100001237, 0x0000013601020007, 0x0000013500010011] ∧
    resultWord 0x100001237 (e.headD ⟨0, 0, 0, 0, 0, 0⟩) = 0x0000123701681007 ∧ latestAt 0x1A2B = 0x030521A158 := by decide +kernel

/-- The refusal header of R161 and R163: REASON 3, EPOCH_SEEN 5, ENGINE 5, global id 0x4D89, route 3. -/
theorem test_refusal_header :
    refusalHeader (putF (Reg.core_ROLE_EPOCH_EPOCH 310) 5 .reset) 310
      { ty := .qsend, src := 4 * 309, dst := 4 * 310, engine := 5, ext := 0x4D89 + 3 * 2 ^ 16 } 3 = 0x000000034D895531 := by decide +kernel

/-- The address map of R425 with L = 1 GiB. -/
theorem test_local_ranges :
    let s := State.reset |> putF Reg.mem_MEM_CFG_DENSITY 4 |> putF Reg.mem_MEM_CFG_LOCAL 4 |> putF Reg.mem_MEM_CFG_RANKS 1
    channelBytes s = 0x100000000 ∧ channelOf s 0xE00001234 = some 10 ∧ channelOf s 0xC00000000 = some 0 ∧ channelOf s 0xBFFFFFFFF = some 15 := by
  decide +kernel

/-- An event rewritten for an expert, and its header prefix, in the example of 13. -/
theorem test_expert_word :
    expertWord (State.reset |> putF (Reg.volTab_DIR_AXON_BASE 0x105) 0x400 |> putF (Reg.volTab_DIR_CTX 0x105) 0x2200) 0x105
      (mkEvent 0 0 0 0xF823 0x0310 4 1 1 0) = 0x0000108C88001028#64 := by decide +kernel

/-- Arithmetic of the engines: SAT24, the rounded shift and the wrapped sum of R57. -/
theorem test_arithmetic :
    sat24 9065918 = 8388607 ∧ sat24 (-8388609) = -8388608 ∧ sx 32 (ux 32 (2000000000 + 300000000)) = -1994967296 ∧ isqrt 10 = 3 ∧ isqrt 13 = 4 := by
  decide +kernel
/-! ### Witnesses: the engines' instructions -/

theorem witness_ScalarForms :
    let s := Tests.run 3 1 [(4, 0xFFFFFFFF), (5, 1)] .reset
    Bound s ∧ Issues s 3 1 [31, 4, 5] ∧ Issues s 3 1 [0, 4, 0] ∧ Issues s 3 1 [31, 0] ∧ 65535 < 65536 := by
  unfold Bound Issues WordsClean; decide +kernel

theorem witness_ControlFlow :
    let s := Tests.run 1023 5 [(4, 4095), (5, 0x80000000)] .reset
    Bound s ∧ Issues s 1023 5 [4, 5] ∧ Issues s 1023 5 [0, 0] ∧ Issues s 1023 5 [31] ∧ Issues s 1023 5 [4] ∧
      (regOf s 1023 5 4).toNat < 4096 := by
  unfold Bound Issues WordsClean; decide +kernel

theorem witness_LocalLoads :
    let s := Tests.run 0 0 [(4, 0x3FFF0)] .reset
    Bound s ∧ Issues s 0 0 [31, 4] ∧ formBAddr s 0 0 4 12 = 0x3FFFC ∧ formBAddr s 0 0 4 15 = 0x3FFFF ∧
      WordsClean s 0 (storeWords 0x3FFFC 4) := by
  unfold Bound Issues WordsClean; decide +kernel

theorem witness_LocalStores :
    let k := Tests.run 0 3 [(4, 0x32600), (5, 0xABCD)] .reset
    let n := Tests.run 0 2 [(4, 0x1FFFC)] .reset
    (Bound k ∧ Issues k 0 3 [5, 4] ∧ formBAddr k 0 3 4 0 = 0x32600 ∧ formBAddr k 0 3 4 2 = 0x32602 ∧ wholeWords 0x32602 2 = false ∧
      WordsClean k 0 (storeWords 0x32602 2)) ∧
    (Bound n ∧ Issues n 0 2 [5, 4] ∧ formBAddr n 0 2 4 0 = 0x1FFFC ∧ wholeWords 0x1FFFC 4 = false ∧
      WordsClean n 0 (storeWords 0x1FFFC 4)) ∧
    (isSet n (Reg.eng_EXC_CAUSE_VALID 0 2) = false ∧ (core n 0).applying = none ∧ formBAddr n 0 2 4 4 = 0x20000) := by
  unfold Bound Issues WordsClean; decide +kernel

theorem witness_SliceLoadsAndStores :
    let s := Tests.run 0 3 [(4, 0x3FFFFC0)] .reset
    Bound s ∧ Issues s 0 3 [5, 4] ∧ formBAddr s 0 3 4 0x3C = viewLen s.variant - 4 ∧ formBAddr s 0 3 4 0x40 = viewLen s.variant ∧
      isSet s (Reg.eng_EXC_CAUSE_VALID 0 3) = false ∧ (core s 0).applying = none := by
  unfold Bound Issues WordsClean; decide +kernel

theorem witness_SliceResponses :
    let l (b : Bool) (a : Option (Option Nat)) : SliceRead := ⟨b, if b then 2 else 4, 0, 8, 0xFFFF, 1, a⟩
    let r (l : List SliceRead) := Tests.run 0 3 [] .reset |> modEng 0 3 (fun g => { g with reads := l, storeErr := [(8, 0)] })
    let s := r [l false (some (some 7)), l true none]
    let v := r [l false none, l true (some (some 7))]
    let n := r [l false (some none), l true (some none)]
    (Bound s ∧ takeRead false (eng s 0 3).reads = some (l false (some (some 7)), some 7, [l true none])) ∧
    (Bound v ∧ takeRead true (eng v 0 3).reads = some (l true (some (some 7)), some 7, [l false none])) ∧
    (Bound n ∧ takeRead false (eng n 0 3).reads = some (l false (some none), none, [l true (some none)]) ∧
      takeRead true (eng n 0 3).reads = some (l true (some none), none, [l false (some none)])) ∧
    (eng s 0 3).storeErr = [(8, 0)] ∧ atBoundary s 0 3 = true ∧ atBoundary (modEng 0 3 (fun g => { g with st := .waitSync }) s) 0 3 = false := by
  unfold Bound; decide +kernel

theorem witness_VectorForms :
    let s := Tests.run 0 1 [(4, 32)] .reset
    Bound s ∧ Issues s 0 1 [115, 100, 101, 0] ∧ Issues s 0 1 [115, 100, 100, 4] ∧ (regOf s 0 1 4).toNat ∈ [4, 8, 16, 24, 32] ∧
      Issues s 0 1 [115, 4] ∧ Issues s 0 1 [100, 31] := by
  unfold Bound Issues WordsClean; decide +kernel

theorem witness_VectorLoadsAndStores :
    let s := Tests.run 0 3 [(4, 0x37FC0), (5, 0x3FFC0)] .reset
    Bound s ∧ Issues s 0 3 [115, 4] ∧ Issues s 0 3 [115, 5] ∧ (regOf s 0 3 4).toNat = 0x37FC0 ∧ 0x37FC0 < viewLen s.variant ∧
      WordsClean s 0 (storeReads s 0 3 0x37FC0 64) ∧ WordsClean s 0 (storeReads s 0 3 0x37FC0 16) ∧ WordsClean s 0 (storeReads s 0 3 0x37FC0 8) ∧
      WordsClean s 0 (storeWords 0x3FFC0 64) := by
  unfold Bound Issues WordsClean; decide +kernel

/-- Semaphore 5 of the core holds 3 (or 65,534), and engine 1 waits on it for 3. -/
def Tests.sem (k : Nat) : State :=
  putF (Reg.eng_CUR_SLOT_SLOT 0 1) 255 (wrNum (semAddr 0 5) 2 k (Tests.run 0 1 [(4, 5), (5, 3), (6, 65535)] .reset))

theorem witness_SemaphoreAndHerdForms :
    let s := Tests.sem 3
    let w := modEng 0 1 (fun g => { g with st := .waitSync, wait := .sem 5 3 true }) s
    let h := Tests.run 0 5 [(4, 0x22)] .reset
    let d := wrNum (herdBase 0 7) 1 0x02 (Tests.run 0 1 [] .reset)
    let d2 := wrNum (herdBase 0 7) 1 0x06 (Tests.run 0 1 [] .reset)
    (Bound s ∧ Issues s 0 1 [0, 4, 5] ∧ (regOf s 0 1 4).toNat < 256 ∧ getF s (Reg.eng_CUR_SLOT_SLOT 0 1) < 256 ∧
      semId s 0 1 4 0x30 = 5 ∧ (regOf s 0 1 5).toNat ≤ semOf s 0 5 ∧ semOf s 0 5 < (regOf s 0 1 6).toNat ∧
      semOf s 0 5 + (regOf s 0 1 5).toNat ≤ 65535 ∧ semAhead s 0 1 5 = false ∧
      WordsClean s 0 (semWords s 0 1 4 0x30)) ∧
    ((eng w 0 1).wait = .sem 5 3 true ∧ 3 ≤ semOf w 0 5 ∧ semAhead w 0 1 5 = false ∧
      WordsClean w 0 (storeWords (0x3A400 + 2 * 5) 2)) ∧
    (Bound h ∧ WordsClean h 0 (herdWords 7) ∧ Issues h 0 5 [4] ∧ Issues h 0 5 [] ∧ herdArrived h 0 7 = 0) ∧
    (Issues d 0 1 [] ∧ WordsClean d 0 (herdWords 7) ∧ (herdMask d 0 7).testBit 1 = true ∧ (herdWaiting d 0 7).testBit 1 = false ∧
      (∀ f, f < 6 → (eng d 0 f).wait = .none) ∧ (herdArrived d 0 7).testBit 1 = false ∧
      (herdArrived d 0 7 ||| 2 ^ 1) &&& herdMask d 0 7 = herdMask d 0 7) ∧
    ((herdMask d2 0 7).testBit 1 = true ∧ (herdArrived d2 0 7 ||| 2 ^ 1) &&& herdMask d2 0 7 ≠ herdMask d2 0 7) := by
  unfold Bound Issues WordsClean; decide +kernel

theorem witness_SemaphoreRange :
    let s := Tests.run 0 1 [(4, 5), (5, 3), (6, 65536), (7, 65535)] (wrNum (semAddr 0 5) 2 2 .reset)
    let v := putF (Reg.eng_CUR_SLOT_SLOT 0 1) 256 s
    let u := putF (Reg.eng_CUR_SLOT_SLOT 0 1) 255 s
    (Bound s ∧ Issues s 0 1 [0, 4, 6] ∧ Issues s 0 1 [0, 4, 7] ∧ Issues s 0 1 [0, 4, 5] ∧ 0xFF < 256 ∧ (0xDF : Nat).testBit 5 = false ∧
      (0xDF : Nat).testBit 4 = true) ∧
    (Bound v ∧ Issues v 0 1 [0, 0, 5] ∧ (0x0F : Nat).testBit 5 = false ∧ (0x0F : Nat).testBit 4 = false ∧
      256 ≤ getF v (Reg.eng_CUR_SLOT_SLOT 0 1)) ∧
    ((0x20 : Nat).testBit 5 = true ∧ (regOf s 0 1 4).toNat < 256 ∧ 65535 < (regOf s 0 1 6).toNat ∧
      65535 < semOf s 0 (semId s 0 1 4 0x20) + (regOf s 0 1 7).toNat ∧ semOf s 0 (semId s 0 1 4 0x20) < (regOf s 0 1 5).toNat ∧
      WordsClean s 0 (semWords s 0 1 4 0x20)) ∧
    (Bound u ∧ Issues u 0 1 [0, 0, 6] ∧ getF u (Reg.eng_CUR_SLOT_SLOT 0 1) < 256) := by
  unfold Bound Issues WordsClean; decide +kernel

/-- R123: a virtual id without a slot, and an addition past the range, raise their codes and leave the semaphore. -/
theorem test_sadd_past_range :
    ∃ t, exec (.sadd 0 1 0 4 5 0x20) (Tests.run 0 1 [(4, 5), (5, 65535)] (wrNum (semAddr 0 5) 2 2 .reset)) = .next t ∧
      getF t (Reg.eng_EXC_CAUSE_CODE 0 1) = 7 ∧ semOf t 0 5 = 2 := ⟨_, rfl, by decide +kernel⟩

/-- Engine 1 of core 0 beside queue 7: a plain queue with this reader, these writers and `n` entries from HEAD 15 on. -/
def Tests.queue (kind reader writers n : Nat) : State :=
  wrNum (qDesc 0 7) 16 (kind + 4 + 16 * reader + 256 * writers + 2 ^ 64 * (15 + 16 * n)) (Tests.run 0 1 [(2, 0x11), (3, 0x22), (4, 0x10000)] .reset)

theorem witness_PlainQueueForms :
    let s := Tests.queue 0 1 2 16
    let m := Tests.queue 0 1 2 0
    let d := Tests.queue 0 2 4 0
    let w (v : Wait) := modEng 0 1 (fun g => { g with st := .waitQueue, wait := v })
    (Bound s ∧ qKind s 0 7 = 0 ∧ qCount s 0 7 = 16 ∧ Issues s 0 1 [30, 31] ∧ qReader s 0 7 = 1 ∧ Issues s 0 1 [2, 3] ∧
      (qWriters s 0 7).testBit 1 = true ∧ WordsClean s 0 (qWords s 0 7 true) ∧ WordsClean s 0 (qWords s 0 7 false)) ∧
    (Bound m ∧ qKind m 0 7 = 0 ∧ qCount m 0 7 = 0 ∧ Issues m 0 1 [30, 31] ∧ qReader m 0 7 = 1 ∧ Issues m 0 1 [2, 3] ∧ writeAhead m 0 1 7 = false ∧
      WordsClean m 0 (qWords m 0 7 true)) ∧
    ((eng (w (.pop 7 30) s) 0 1).wait = .pop 7 30 ∧ qCount (w (.pop 7 30) s) 0 7 ≠ 0 ∧ WordsClean (w (.pop 7 30) s) 0 (qWords s 0 7 true)) ∧
    ((eng (w (.push 7 5) m) 0 1).wait = .push 7 5 ∧ qCount (w (.push 7 5) m) 0 7 < 16 ∧
      writeAhead (w (.push 7 5) m) 0 1 7 = false ∧ WordsClean (w (.push 7 5) m) 0 (qWords m 0 7 false)) ∧
    (Bound d ∧ isSet d (Reg.eng_EXC_CAUSE_VALID 0 1) = false ∧ (core d 0).applying = none ∧ Issues d 0 1 [2, 3] ∧ qReader d 0 7 ≠ 1 ∧
      (qWriters d 0 7).testBit 1 = false ∧ WordsClean d 0 (qWords d 0 7 true) ∧ Issues d 0 1 [4, 2, 3] ∧ 65536 ≤ (regOf d 0 1 4).toNat) := by
  unfold Bound Issues WordsClean; decide +kernel

/-- Route 31 of core 0 leads to queue 3 of core 1023, with `n` credits. -/
def Tests.route (n : Nat) : State :=
  Tests.queue 1 0 2 15 |> putF (Reg.sq_CHAN_ROUTE_VALID 0 31) 1 |> putF (Reg.sq_CHAN_ROUTE_DEST 0 31) 65475
    |> putF (Reg.sq_CHAN_ROUTE_CREDITS 0 31) n |> setReg 0 1 5 65475

theorem witness_CombiningAndChannels :
    let s := Tests.route 0
    let t := Tests.route 1
    let w := t |> modEng 0 1 (fun g => { g with st := .waitQueue, wait := .qsend 31 65475 0 5 }) |> modCore 0 (fun k => { k with stalled := [1] })
    let b := s |> wrNum (qDesc 0 7 + 4) 1 2 |> wrNum (qEntry 0 7 15) 8 (0x11 * 2 ^ 32 + 2 ^ 56)
    (Bound s ∧ Issues s 0 1 [2, 3] ∧ (regOf s 0 1 2).toNat < 2 ^ 23 ∧ mayWrite s 0 1 7 true = true ∧ writeAhead s 0 1 7 = false ∧
      WordsClean s 0 (qWords s 0 7 false) ∧ openEntry s 0 7 (regOf s 0 1 2).toNat = none ∧ qCount s 0 7 < 16) ∧
    (mayWrite b 0 1 7 true = true ∧ openEntry b 0 7 (regOf b 0 1 2).toNat = some 0) ∧
    (routeOf s 0 65475 = some 31 ∧ sendBlocked s 0 = false ∧ getF s (Reg.sq_CHAN_ROUTE_CREDITS 0 31) = 0 ∧ Issues s 0 1 [5, 2, 3] ∧
      (regOf s 0 1 5).toNat = 65475) ∧
    (Bound t ∧ routeOf t 0 65475 = some 31 ∧ sendBlocked t 0 = false ∧ stalledOn t 0 31 = [] ∧
      getF t (Reg.sq_CHAN_ROUTE_CREDITS 0 31) ≠ 0 ∧ Issues t 0 1 [5, 2, 3] ∧ (regOf t 0 1 5).toNat = 65475) ∧
    ((eng w 0 1).wait = .qsend 31 65475 0 5 ∧ (stalledOn w 0 31).head? = some 1 ∧ sendBlocked w 0 = false ∧
      getF w (Reg.sq_CHAN_ROUTE_CREDITS 0 31) ≠ 0) := by
  unfold Bound Issues WordsClean; decide +kernel

theorem witness_CsrForms :
    let s := Tests.run 0 1 [] .reset
    let x := setF (Reg.eng_EXC_CAUSE_VALID 0 1) s
    Bound s ∧ Issues s 0 1 [31] ∧ Issues s 0 1 [30, 31] ∧ 0x7FC < 0x800 ∧ 0x7FC % 4 = 0 ∧ 0x7F8 % 8 = 0 ∧
      isSet s (Reg.eng_EXC_CAUSE_VALID 0 1) = false ∧
      (Bound x ∧ Issues x 0 1 [31] ∧ isSet x (Reg.eng_EXC_CAUSE_VALID 0 1) = true) ∧
      0x0100080FFC ≠ Reg.core_FAULT_STATUS 0 ∧ 0x0100080FFC ≠ Reg.core_FAULT_INFO 0 := by
  unfold Bound Issues WordsClean; decide +kernel

/-- The SQ of core 0 runs a handler of this kind. -/
def Tests.sq (kind : Nat) (acted : Bool) : State := setEng 0 5 { st := .run, handler := some ⟨kind, 2, 4, acted⟩ } .reset

theorem witness_HandlerActs :
    let w := Tests.sq 2 false
    let e := Tests.sq 4 false
    let a := Tests.sq 2 true
    let s := Tests.slot (Tests.run 0 4 [(2, 0x240020), (4, 1)] .reset)
    let p := modEng 0 4 (fun g => { g with posted := [⟨0, .write [0, 0, 0, 0], 3, 0⟩] }) s
    let f := modEng 0 4 (fun g => { g with st := .waitSync, wait := .fence }) s
    (Bound w ∧ Issues w 0 5 [] ∧ (eng w 0 5).handler = some ⟨2, 2, 4, false⟩ ∧ (core w 0).applying = none) ∧
    (Bound e ∧ Issues e 0 5 [] ∧ (eng e 0 5).handler = some ⟨4, 2, 4, false⟩) ∧
    (Bound a ∧ Issues a 0 5 [] ∧ (eng a 0 5).handler = some ⟨2, 2, 4, true⟩ ∧ isSet a (Reg.eng_EXC_CAUSE_VALID 0 5) = false) ∧
    (Bound s ∧ Issues s 0 4 [2, 3] ∧ emitFault s 0 4 (regPair s 0 4 2) = none ∧ sendRoom s 0 = true ∧
      workSlot s 0 (evCtx (regPair s 0 4 2)) = some 2 ∧ tget 0 2 (core s 0).taken = 4 + 1) ∧
    (Issues s 0 4 [4, 5] ∧ (regPair s 0 4 4).toNat % 4 ≠ 0 ∧ isSet s (Reg.eng_EXC_CAUSE_VALID 0 4) = false) ∧
    (Issues s 0 4 [] ∧ fenceClear s 0 4 = true) ∧ (Issues p 0 4 [] ∧ fenceClear p 0 4 = false) ∧
    ((eng f 0 4).wait = .fence ∧ fenceClear f 0 4 = true) := by
  unfold Bound Issues WordsClean; decide +kernel

theorem witness_DispatchExceptionAndLimit :
    let s := .reset |> putF (Reg.eng_HVEC_EN 0 4 15) 1 |> putF (Reg.eng_HVEC_ENTRY 0 4 15) 0 |> putF (Reg.eng_HVEC_EN 0 4 1) 1
    let d := modEng 0 4 (fun g => { g with happen := [⟨15, 0x100, 0, 1, 2, 3, 0⟩] }) s
    let r := Tests.run 0 4 [(4, 9)] s |> putF (Reg.eng_HANDLER_LIMIT_LIMIT 0 4) 1
    let o := modEng 0 4 (fun g => { g with pc := 1 }) r
    (Bound d ∧ corePresent d 0 = true ∧ coreHeld d 0 = false ∧ regionDown d (regionOfCore 0) = false ∧ (eng d 0 4).handler = none ∧
      (eng d 0 4).st = .idle ∧ sqStalls d 0 4 = false ∧ nextHappening (waiting (noteStepEnds 0 d) 0 4) = some ⟨15, 0x100, 0, 1, 2, 3, 0⟩ ∧ isSet d (Reg.eng_HVEC_EN 0 4 15) = true ∧
      getF d (Reg.core_PROG_RANGE_FIRST 0 4) ≤ getF d (Reg.eng_HVEC_ENTRY 0 4 15) ∧
      getF d (Reg.eng_HVEC_ENTRY 0 4 15) ≤ getF d (Reg.core_PROG_RANGE_LAST 0 4)) ∧
    (Bound r ∧ (eng r 0 4).handler = some ⟨5, 7, 9, false⟩ ∧ (eng r 0 4).st = .run ∧ getF r (Reg.eng_HANDLER_LIMIT_LIMIT 0 4) ≠ 0 ∧
      isSet r (Reg.eng_EXC_CAUSE_VALID 0 4) = false ∧ (core r 0).applying = none ∧ canIssue r 0 4 [31, 4, 1] = true ∧
      isSet r (Reg.eng_HVEC_EN 0 4 1) = true ∧ fetchOk r 0 4 = true ∧ WordsClean r 0 [fetchWord r 0 4]) ∧
    (canIssue o 0 4 [31, 4, 1] = true ∧ fetchOk o 0 4 = false ∧ isSet o (Reg.eng_HVEC_EN 0 4 1) = true) := by
  unfold Bound WordsClean; decide +kernel
/-! ### Witnesses: registers, slices and main memory -/

theorem witness_RegisterWriteAndBlockEnable :
    let s := Tests.up
    let a := Reg.fab_FAB_CFG
    let k := Reg.tb_BLK_CTRL
    let on := setF (enabledRef k) s
    let busy := modCore 5 (fun c => { c with intakeOff := false }) (setF (enabledRef (Reg.core_BLK_CTRL 5)) s)
    (Bound s ∧ Tests.onWord a (fun b blk peek w => !peek && w.row.width != 64 && a == w.reg + 4 * w.idx && a != governorOf b blk + 4 &&
        (highWrite .sec b blk w (instOf b blk) (indexOf blk w) 7 (dropHeld .sec blk { s with reply := .done })).isNone &&
        (rdWord s a ^^^ 7) &&& rsvMask w.row w.idx == 0) = true ∧
      ctrlAt a = none ∧ tableRouter a = none ∧ csrOk s .sec a true = true) ∧
    (ctrlAt k = some (k, 0) ∧ csrOk s .sec k true = true ∧ rdWord s k &&& 0xFFFFFFFE#32 = 0 ∧ isSet s (enRef k) = false ∧
      isSet (setF (enRef k) s) (enRef k) = true ∧ rdWord (setF (enRef k) s) k &&& 0xFFFFFFFE#32 = 0) ∧
    (blkEnabled on k = true ∧ isSet on (enRef k) = false ∧ stopReady on k 0 = true) ∧
    (ctrlAt (Reg.core_BLK_CTRL 5) = some (Reg.core_BLK_CTRL 0, 5) ∧ blkEnabled busy (Reg.core_BLK_CTRL 5) = true ∧
      stopReady busy (Reg.core_BLK_CTRL 0) 5 = false) := by
  unfold Bound; decide +kernel

theorem witness_RegisterReadsAndPairedWrites :
    let s := Tests.up
    let a := Reg.slice_SLICE_EVENTS 0
    let l := Reg.cl_CL_MTIMECMP 7
    let h := holdLow .sec Reg.cl_CL_CFG l 5 s
    (Bound s ∧ Tests.onWord a (fun _ blk peek w => !peek && w.row.width == 32 && w.idx == 0 && !isFmRec w && (shadowOf s .sec blk).isNone) = true ∧
      tableRouter a = none ∧ csrOk s .sec a false = true ∧ qdataAt a = none ∧ placeOf Reg.sic_SIC_CLAIM 16 a = none ∧
      (∀ x ∈ [a, a - 0x800], timerAt x = none)) ∧
    (Tests.onWord (a + 0x800) (fun _ _ peek _ => peek) = true ∧ csrOk s .sec (a + 0x800) true = true ∧ csrOk s .sec (a + 0x800) false = true) ∧
    (csrOk s .sec l false = true ∧ isLowWord l = true ∧ qdataAt l = none ∧ placeOf Reg.sic_SIC_CLAIM 16 l = none ∧ (∀ x ∈ [l, l - 0x800], timerAt x = none) ∧ hasShadow .sec = true) ∧
    (Tests.onWord l (fun _ blk peek w => !peek && w.row.width == 64 && writable w.row && l == w.reg && w.idx == 0 && blk == Reg.cl_CL_CFG) = true ∧
      Tests.onWord (l + 4) (fun _ _ peek w => !peek && l == w.reg && w.idx == 1) = true ∧ ctrlAt l = none ∧ ctrlAt (l + 4) = none ∧
      tableRouter l = none ∧ tableRouter (l + 4) = none ∧ csrOk s .sec l true = true ∧ csrOk s .sec (l + 4) true = true ∧
      heldFor s .sec Reg.cl_CL_CFG l = none ∧ heldFor h .sec Reg.cl_CL_CFG l = some 5 ∧ csrOk h .sec (l + 4) true = true ∧
      l ∉ [Reg.sq_QDATA 0 7, Reg.sq_CHAN_ROUTE 0 7, Reg.pe_LRN_MOD_SET 0, Reg.ctt_CTT_MIRROR, Reg.rec_REC_SEED, Reg.rec_REC_SW_ARG0,
        Reg.rec_REC_SW_ARG1] ∧ Tests.onWord (l + 4) (fun b blk _ w => instOf b blk == 0 && indexOf blk w == 7 &&
          [l, l + 4].all (fun x => x != governorOf b blk + 4 && x != Reg.glob_CHIP_EVENTS) &&
          rsvMask w.row 0 == 0 && rsvMask w.row 1 == 0) = true) := by
  unfold Bound; decide +kernel

theorem witness_AccessDenial :
    let s := Tests.up
    let b := (sliceOf s.variant 0x3FFFFF8).1
    (Bound s ∧ busParty .dbg = true ∧ partyClass .dbg = some 5 ∧ sizeOk (mainBase + 0xFFFFFFFF8) 8 = true ∧
      firewallOk s .dbg (mainBase + 0xFFFFFFFF8) false = false ∧ isSet s Reg.sec_PROT_DENIED_INFO_VALID = false) ∧
    (b < 64 ∧ sizeOk 0x203FFFFF8 8 = true ∧ answers s 0x203FFFFF8 = true ∧ firewallOk s (.bdu 0) 0x203FFFFF8 false = true ∧
      0x3FFFFF8 + 8 ≤ viewLen s.variant ∧ regionDown s (regionOfBlock b) = false ∧ sliceRetained s b = false ∧
      sliceAllows s b (.bdu 0) false = false ∧ inCtt s 0x3FFFFF8 8 = false ∧ drainHolds s 0x203FFFFF8 = false ∧ getF s Reg.ctt_CTT_MIRROR_ADDR = 0 ∧
      isSet s (Reg.slice_SLICE_DENIED_INFO_VALID b) = false) := by
  unfold Bound; decide +kernel

theorem witness_SliceAccesses :
    let s := Tests.up
    let b := (sliceOf s.variant 0x3FFFFF8).1
    let o := putF (Reg.slice_SLICE_OWNER_CLASS b) 2 (putF (Reg.slice_SLICE_OWNER_INDEX b) 0 s)
    Bound o ∧ sizeOk 0x203FFFFF8 8 = true ∧ answers o 0x203FFFFF8 = true ∧ 0x3FFFFF8 + 8 ≤ viewLen o.variant ∧
      regionDown o (regionOfBlock b) = false ∧ sliceRetained o b = false ∧ rowRetired o b (sliceOf o.variant 0x3FFFFF8).2 = false ∧
      o.ecc = [] ∧ firewallOk o (.bdu b) 0x203FFFFF8 true = true ∧ sliceAllows o b (.bdu b) true = true ∧ inCtt o 0x3FFFFF8 8 = false ∧
      firewallOk o (.bdu b) 0x203FFFFF8 false = true ∧ sliceAllows o b (.bdu b) false = true ∧ drainHolds o 0x203FFFFF8 = false := by
  unfold Bound; decide +kernel

theorem witness_PostedStores :
    let s := Tests.up
    let op : SliceOp := .write [1, 2, 3, 4]
    let p := slicePacket s 1023 0 0x3FFFFF8 op
    let r := centralRouter (sliceOf s.variant 0x3FFFFF8).1
    let f := { s with fab := { s.fab with ports := [(r, [p])] } }
    Bound s ∧ sliceOpLen op = 4 ∧ 0x3FFFFF8 + 4 ≤ viewLen s.variant ∧ Bound f ∧ blockGrant f r = some p ∧ epRouter p.src = 1023 := by
  unfold Bound; decide +kernel

theorem witness_SliceHandoverScrubAndPower :
    let s := Tests.up
    let o := putF (Reg.slice_SLICE_OWNER_CLASS 63) 1 (putF (Reg.slice_SLICE_OWNER_INDEX 63) 1023 s)
    let h := putF (Reg.slice_SLICE_OWNER_CLASS 63) 7 s
    let pw (n : Nat) := putF (Reg.slice_SLICE_STATUS_PWR 63) n s
    (Bound s ∧ 0x010013FF &&& 0xFE000000#32 = 0 ∧ csrOk s .sec (Reg.slice_SLICE_OWNER 63) true = true ∧ mayHandOver s 63 .sec = false ∧
      mayHandOver h 63 .sec = true ∧ ownerValid 1 0x3FF = true ∧ forbidden s 0x010013FF = false) ∧
    (coreSilent o 1023 = false ∧ mayHandOver o 63 (.core 1023 5) = true) ∧
    (blockPresent s 63 = true ∧ isSet (putF (Reg.slice_SLICE_SCRUB_EN 63) 1 s) (Reg.slice_SLICE_SCRUB_EN 63) = true ∧ sliceRetained s 63 = false ∧
      regionDown s (regionOfBlock 63) = false ∧ s.ecc = [] ∧ csrOk s .sec (Reg.slice_SLICE_PWR 63) true = true ∧
      getF (pw 1) (Reg.slice_SLICE_STATUS_PWR 63) = 1 ∧ getF (pw 3) (Reg.slice_SLICE_STATUS_PWR 63) = 3 ∧ s.sliceWake.contains 63 = false) := by
  unfold Bound; decide +kernel

theorem witness_MainMemory :
    let s (n : Nat) := Tests.up |> putF (enabledRef Reg.mem_BLK_CTRL) 1 |> putF (Reg.memCh_MEM_CH_STATUS_STATE 15) n
    let m := (List.range 16).foldl (fun t ch => putF (Reg.memCh_MEM_CH_STATUS_STATE ch) 2 t) (s 2)
    (Bound (s 2) ∧ chanOn (s 2) 15 = true ∧ [1, 2, 3].map (fun n => getF (s n) (Reg.memCh_MEM_CH_STATUS_STATE 15)) = [1, 2, 3] ∧
      blkEnabled (s 2) Reg.jrn_BLK_CTRL = false ∧ csrOk (s 2) .sec (Reg.memCh_MEM_CH_CTRL 15) true = true ∧ (takeWaits 15 (s 2)).1 = [] ∧
      degraded (s 2) = false) ∧
    (Bound m ∧ busParty .sec = true ∧ answers m mainBase = true ∧ blkEnabled m Reg.mem_BLK_CTRL = true ∧
      channelOf m 0 = some 0 ∧ chState m 0 = chUp ∧ m.ecc = [] ∧ sizeOk mainBase 256 = true ∧
      firewallOk m .sec mainBase true = true ∧ firewallOk m .sec mainBase false = true) := by
  unfold Bound; decide +kernel
/-! ### Witnesses: timers, recorder, cluster, interrupts, DMA and the host -/

theorem witness_TimerCountingAndLinks :
    let s := Tests.up |> putF (Reg.tmr_TMR_CFG_EN 31) 1
    let at_ (n : Nat) := putF (Reg.tmr_TMR_COUNT_COUNT 31) n s
    let c := putF (Reg.tmr_TMR_CFG_CAP_SRC 31) 1 s
    let m := { s with timers := { s.timers with events := [(31, 0)] } } |> putF (Reg.tmr_TMR_LINK_RST 0) 1 |> putF (Reg.tmr_TMR_LINK_START 0) 1
      |> putF (Reg.tmr_TMR_LINK_MASTER 0) 31
    (Bound s ∧ (clkSrc s 31 = 0 ∨ clkSrc s 31 = 2) ∧ tmrOn s 31 = true ∧ gateOpen s 31 = true ∧ groupTop s 31 = 31 ∧
      s.timers.matched.contains 31 = false ∧
      chained s 1 = false ∧ getF (at_ 0xFFFFFFFF) (Reg.tmr_TMR_COUNT_COUNT 31) = 0xFFFFFFFF ∧
      getF (at_ 0xFFFFFFFF) (Reg.tmr_TMR_COMPARE_COMPARE 31) = getF s (Reg.tmr_TMR_COMPARE_COMPARE 31)) ∧
    ((capSource c 31).1 = 1 ∧ 31 ∈ captureWith c 31 ∧ csrOk s .sec Reg.tmr_TMR_START true = true ∧ csrOk s .sec Reg.tmr_TMR_STOP true = true) ∧
    (m.timers.events = [(31, 0)] ∧ (List.range 32).filter (fun k => masterOf m k == some 31 && mevent m k == 0) = [0] ∧
      isSet m (Reg.tmr_TMR_LINK_RST 0) = true ∧ isSet m (Reg.tmr_TMR_LINK_START 0) = true ∧ getF m (Reg.tmr_TMR_CFG_CAP_SRC 0) ≠ 5) ∧
    (csrOk s .sec (Reg.tmr_TMR_COMPARE 31) true = true ∧ groupLow s 31 = 31 ∧ csrOk s .sec (Reg.tmr_TMR_COUNT 31) false = true ∧
      chainBase s 31 = 31 ∧ hasShadow .sec = true) := by
  unfold Bound; decide +kernel

theorem witness_Recorder :
    let s := Tests.up
    let h := holdLow .sec 0x0002001000 Reg.rec_REC_SEED 5 s
    (Bound h ∧ csrOk h .sec (Reg.rec_REC_SEED + 4) true = true ∧ heldFor h .sec 0x0002001000 Reg.rec_REC_SEED = some 5) ∧
    (csrOk s .sec Reg.rec_REC_SW_CODE true = true ∧ rdWord s Reg.rec_REC_SW_CODE &&& 0xFFFF0000#32 = 0 ∧
      isSet s Reg.rec_REC_STATUS_FROZEN = false ∧ recTime s < 2 ^ 64 ∧ s.recorder.micros < 2 ^ 32 ∧ getF s Reg.rec_REC_STATUS_INDEX < 8192) ∧
    csrOk s .sec Reg.rec_REC_CMD true = true ∧
    (let l := putF Reg.rec_REC_STATUS_INDEX 8191 s
     Bound l ∧ csrOk l .sec Reg.rec_REC_SW_CODE true = true ∧ isSet l Reg.rec_REC_STATUS_FROZEN = false ∧
      getF l Reg.rec_REC_STATUS_INDEX = 8191) ∧
    (let f := putF Reg.rec_REC_STATUS_INDEX 8192 s
     Bound f ∧ csrOk f .sec Reg.rec_REC_SW_CODE true = true ∧ isSet f Reg.rec_REC_STATUS_FROZEN = false ∧
      8192 ≤ getF f Reg.rec_REC_STATUS_INDEX ∧ rdWord f Reg.rec_REC_SW_CODE &&& 0xFFFF0000#32 = 0) := by
  unfold Bound; decide +kernel

theorem witness_ClusterAndInterruptCommands :
    let s := Tests.up
    let w := s |> putF (Reg.cl_CL_WDOG_EN 7) 1 |> putF Reg.cl_CL_CORE_STATUS_RUN 0x80
    let u := { s with cluster := { s.cluster with up := true, grace := true } }
    let e := { s with sic := { s.sic with edge := [511], host := [8], pba := [2047] } } |> putF (Reg.sic_SIC_SRC_TARGETS 511) 1
      |> putF (Reg.sic_SIC_SRC_PRIORITY 511) 1
    let m := e |> putF Reg.pcie_PCIE_STATUS_STATE 0x800 |> putF (Reg.sic_SIC_SRC_VECTOR 8) 2047
    (Bound s ∧ csrOk s .sec Reg.cl_CL_RELEASE true = true ∧ rdWord s Reg.cl_CL_RELEASE &&& 0xFFFFFF00#32 = 0 ∧
      csrOk w .sec (Reg.cl_CL_KICK 7) true = true ∧ wdogOn w 7 = true ∧ isSet s Reg.cl_CL_BUSERR_ADDR_VALID = false ∧ u.cluster.up = true ∧
      clusterUp u = false ∧ u.cluster.grace = true) ∧
    (csrOk e .sec (Reg.sic_SIC_CLAIM 0) false = true ∧ sicBest e 0 = some 511 ∧ csrOk e .sec (Reg.sic_SIC_CLAIM 0) true = true ∧
      csrOk e .sec Reg.sic_SIC_HOST_DONE true = true ∧ sicLevel e 8 = false ∧ 8 ∉ e.sic.hostAgain) ∧
    (csrOk m .sec (Reg.msix_MSIX 2047 + 12) true = true ∧ m.sic.pba.contains 2047 = true ∧
      (getF m Reg.pcie_PCIE_STATUS_STATE).testBit 11 = true ∧ 8 ∈ m.sic.host ∧ getF m (Reg.sic_SIC_SRC_VECTOR 8) = 2047) := by
  unfold Bound; decide +kernel

/-- Channel 0 of the PCIe and of the system DMA run, with this descriptor at their ring's head. -/
def Tests.dma (n : Nat) : State :=
  Tests.memory |> wrNum (mainBase + 0x1000) 32 n |> putF (Reg.pdma_PDMA_CTRL_EN 0) 1 |> putF (Reg.pdma_PDMA_TAIL_TAIL 0) 1
    |> putF (Reg.pdma_PDMA_RING_BASE 0) ((mainBase + 0x1000) / 256) |> putF (Reg.sdma_SDMA_CTRL_EN 0) 1 |> putF (Reg.sdma_SDMA_TAIL_TAIL 0) 1
    |> putF (Reg.sdma_SDMA_RING_BASE 0) ((mainBase + 0x1000) / 256)

def Tests.dmaOk (p : Party) (d : Nat) (s : State) : Bool :=
  match memDo p d (.read 32) 0 s with
  | .ok _ _ => true
  | _ => false

/-- A descriptor that moves 8 bytes of main memory. -/
def Tests.desc (outward : Bool) : Nat := 0x77 + 2 ^ 64 * (mainBase + 0x2000) + 2 ^ 128 * 7 + bnat outward * 2 ^ 152

theorem witness_DmaDescriptors :
    let b := Tests.dma (2 ^ 154)
    let s := Tests.dma (Tests.desc true)
    let master (s : State) : State := putF Reg.pcie_PCIE_STATUS_STATE 0x600 { s with outside := { s.outside with cfg := [(4, 4)] } }
    let l := master s
    let i := master (Tests.dma (Tests.desc false))
    let y := Tests.dma (mainBase + 0x2000 + 2 ^ 64 * (mainBase + 0x3000) + 2 ^ 128 * 7)
    (Bound b ∧ pdmaRunning b 0 = true ∧ Tests.dmaOk (.pdma 0) (dmaDesc b (pdmaChan 0)) b = true) ∧
    (pdmaRunning s 0 = true ∧ Tests.dmaOk (.pdma 0) (dmaDesc s (pdmaChan 0)) s = true ∧ dmaRange (mainBase + 0x2000) 8 = true ∧ linkUp s = false) ∧
    (pdmaRunning l 0 = true ∧ Tests.dmaOk (.pdma 0) (dmaDesc l (pdmaChan 0)) l = true ∧ linkUp l = true ∧ busMaster l = true ∧
      mainTakes l (dmaDesc l (pdmaChan 0) + 20) 1 = true ∧ mainWaits l (dmaDesc l (pdmaChan 0) + 20) 1 = false ∧ l.ecc = [] ∧
      (moveOut (.pdma 0) (mainBase + 0x2000) 8 l).map (fun m => m.ok && m.bytes.length == 8) = some true) ∧
    (pdmaRunning i 0 = true ∧ linkUp i = true ∧ busMaster i = true ∧ (moveIn (.pdma 0) (mainBase + 0x2000) (List.replicate 8 1) i).map (·.ok) = some true) ∧
    (sdmaRunning b 0 = true ∧ Tests.dmaOk (.sdma 0) (dmaDesc b (sdmaChan 0)) b = true ∧ bitsN (2 ^ 155) 155 5 ≠ 0 ∧ dmaRange 0 1 = false) ∧
    (sdmaRunning y 0 = true ∧ Tests.dmaOk (.sdma 0) (dmaDesc y (sdmaChan 0)) y = true ∧
      (moveOut (.sdma 0) (mainBase + 0x2000) 8 y).map (fun m => m.ok && (moveIn (.sdma 0) (mainBase + 0x3000) m.bytes m.st).map (·.ok) == some true)
        = some true) ∧
    (csrOk s .sec (Reg.pdma_PDMA_CTRL 7) true = true ∧ csrOk s .sec (Reg.sdma_SDMA_CTRL 15) true = true) := by
  unfold Bound; decide +kernel

theorem witness_HostLinkAndTransactions :
    let s := Tests.up
    let u := putF Reg.pcie_PCIE_STATUS_STATE 0x200 Tests.memory
    let m := u |> putF (Reg.pcie_PCIE_SEG_VALID 9) 1 |> putF (Reg.pcie_PCIE_SEG_BASE 9) (mainBase / 0x100000)
    (Bound s ∧ s.power.p3 = false ∧ s.power.p4 = false ∧ linkUp s = false ∧ linkUp u = true ∧ chipState u = 3 ∧ u.outside.tlps = []) ∧
    (tlpOk u .bar0 (9 * 0x100000) (.read 4) = true ∧ isSet u (Reg.pcie_PCIE_SEG_VALID 9) = false) ∧
    (tlpOk u .bar0 0x100000 (.read 4) = true ∧ isSet u (Reg.pcie_PCIE_SEG_VALID 1) = true ∧
      getF u (Reg.pcie_PCIE_SEG_BASE 1) * 0x100000 = Reg.glob_DEVICE_ID ∧ isCsr Reg.glob_DEVICE_ID = true ∧
      Tests.onWord Reg.glob_DEVICE_ID (fun _ _ _ _ => true) = true ∧ tableRouter Reg.glob_DEVICE_ID = none ∧
      csrOk u .host Reg.glob_DEVICE_ID false = true ∧ placeOf Reg.sic_SIC_CLAIM 16 Reg.glob_DEVICE_ID = none ∧
      timerAt Reg.glob_DEVICE_ID = none ∧ timerAt (Reg.glob_DEVICE_ID - 0x800) = none ∧
      qdataAt Reg.glob_DEVICE_ID = none ∧ qdataAt (Reg.glob_DEVICE_ID - 0x800) = none ∧ opens Reg.glob_DEVICE_ID = false ∧ tlpOk u .bar0 0x100000 (.read 8) = true ∧ csrAt Reg.glob_DEVICE_ID ≠ .outside) ∧
    (tlpOk m .bar0 (9 * 0x100000) (.write [1, 2, 3, 4]) = true ∧ isSet m (Reg.pcie_PCIE_SEG_VALID 9) = true ∧ isCsr mainBase = false ∧
      opens mainBase = false ∧ memOpen m = true ∧ m.outside.tlps = [] ∧ firewallOk { m with sec := { m.sec with live := { m.sec.live with
        windows := [⟨mainBase / 0x1000, mainBase / 0x1000, 0, 0, true⟩] } } } .host mainBase true = false ∧ answers m mainBase = true ∧ m.ecc = [] ∧ sizeOk mainBase 4 = true ∧
      tlpParts ⟨mainBase, .write [1, 2, 3, 4], []⟩ = [(mainBase, .write [1, 2, 3, 4])] ∧
      blkEnabled m Reg.mem_BLK_CTRL = true ∧ channelOf m 0 = some 0 ∧ chState m 0 = chUp ∧ firewallOk m .host mainBase true = true) := by
  unfold Bound; decide +kernel

/-- Mailbox `n` under this configuration: sender, core, receiver. -/
def Tests.mailbox (n snd core rcv : Nat) (s : State) : State :=
  s |> putF (Reg.mbx_MBX_CFG_SENDER n) snd |> putF (Reg.mbx_MBX_CFG_CORE n) core |> putF (Reg.mbx_MBX_CFG_RECEIVER n) rcv

theorem witness_MailboxesAndHostProtocol :
    let full (n : Nat) (s : State) := putF (Reg.mbx_MBX_STATUS_FULL n) 1 s
    let f := Tests.mailbox 59 9 0 8 Tests.up
    let r := Tests.mailbox 59 8 0 9 Tests.up
    let q := Tests.mailbox 59 10 1023 8 Tests.up
    let k := full 59 (Tests.mailbox 59 8 1023 10 Tests.up)
    let e (ty : Nat) (s : State) := s |> wrNum (qDesc 1023 62) 16 (4 + 16 * 6 + 2 ^ 68) |> wrNum (qEntry 1023 62 0) 8 (7 + 2 ^ 32 * (59 + 64 * ty))
    let pops (s : State) := (match qPop 1023 62 s with
      | .entry w u => bitsN w 32 6 == 59 && u.csr == s.csr && mbxCfg u 59 == mbxCfg s 59
      | _ => false)
    let w := putF Reg.pcie_FW_STATE_STATE 2 (Tests.mailbox 0 8 0 0 (Tests.mailbox 1 0 0 8 Tests.up))
    (Bound f ∧ csrOk f .sec (Reg.mbx_MBX_DATA 59) true = true ∧ mbxParty .sec = some (cfgSender (rdWord f (Reg.mbx_MBX_CFG 59))) ∧
      cfgReceiver (rdWord f (Reg.mbx_MBX_CFG 59)) = 8 ∧ isSet f (Reg.mbx_MBX_STATUS_FULL 59) = false ∧
      isSet (full 59 f) (Reg.mbx_MBX_STATUS_FULL 59) = true ∧ csrOk r .sec (Reg.mbx_MBX_DATA 59) true = true ∧
      mbxParty .sec ≠ some (cfgSender (rdWord r (Reg.mbx_MBX_CFG 59)))) ∧
    (csrOk r .sec (Reg.mbx_MBX_ACK 59) true = true ∧ mbxParty .sec = some (cfgReceiver (mbxCfg r 59)) ∧ cfgSender (mbxCfg r 59) = 8 ∧
      mbxParty .sec = some (cfgReceiver (mbxCfg (full 59 r) 59)) ∧ cfgSender (mbxCfg (full 59 r) 59) < 10) ∧
    (coreSilent (e 0 q) 1023 = false ∧ qReader (e 0 q) 1023 62 = 6 ∧ pops (e 0 q) = true ∧ cfgSender (rdWord (e 0 q) (Reg.mbx_MBX_CFG 59)) = 10 ∧
      cfgCore (rdWord (e 0 q) (Reg.mbx_MBX_CFG 59)) = 1023 ∧ isSet (e 0 q) (Reg.mbx_MBX_STATUS_FULL 59) = false) ∧
    (qReader (e 1 k) 1023 62 = 6 ∧ pops (e 1 k) = true ∧ cfgReceiver (mbxCfg (e 1 k) 59) = 10 ∧ cfgCore (mbxCfg (e 1 k) 59) = 1023 ∧
      isSet (e 1 k) (Reg.mbx_MBX_STATUS_FULL 59) = true) ∧
    (Bound w ∧ fwReady w = true ∧ leadCore w < 8 ∧ csrOk w .host (Reg.mbx_MBX_DATA 0) true = true ∧
      cfgSender (rdWord w (Reg.mbx_MBX_CFG 0)) = 8 ∧ cfgReceiver (rdWord w (Reg.mbx_MBX_CFG 0)) = leadCore w ∧
      isSet w (Reg.mbx_MBX_STATUS_FULL 0) = false ∧ csrOk w (.app (leadCore w) true) (Reg.mbx_MBX_DATA 1) true = true ∧
      cfgSender (rdWord w (Reg.mbx_MBX_CFG 1)) = leadCore w ∧ cfgReceiver (rdWord w (Reg.mbx_MBX_CFG 1)) < 10 ∧
      isSet w (Reg.mbx_MBX_STATUS_FULL 1) = false ∧ allPaused w = true) := by
  unfold Bound; decide +kernel
/-! ### Witnesses: queues from outside, the datapath of a core, the fabric -/

/-- Queue 7 of core 1023: kind, reader, writers and `n` entries from HEAD 15 on. -/
def Tests.outer (kind reader writers n : Nat) : State :=
  wrNum (qDesc 1023 7) 16 (kind + 4 + 2 ^ 15 + 16 * reader + 256 * writers + 2 ^ 64 * (15 + 16 * n)) Tests.up

def Tests.arrive (c : Nat) (p : Packet) (s : State) : State := modCore c (fun k => { k with arrivals := [⟨p, none⟩] }) s

theorem witness_ExternalQueueAccess :
    let r := Tests.outer 0 6 64 1
    let z := Tests.outer 0 6 64 0
    let n := Tests.outer 0 5 1 16
    let f := Tests.outer 0 6 64 16
    let h (s : State) := holdLow .sec (coreBase 1023 + 0x95000) (Reg.sq_QDATA 1023 7) 5 s
    let p : Packet := { ty := .qsend, src := 4, dst := 4092, ext := 1023 * 64 + 7, data := 9 }
    let slot (s : State) := wrNum (slotBase 1023 0) 8 (9 + 2 * 2 ^ 44 + 2 ^ 48) s
    let a := Tests.arrive 1023 p (slot r)
    let b := Tests.arrive 1023 p (slot f)
    let c := Tests.arrive 1023 p Tests.up
    let w := a |> modEng 1023 1 (fun g => { g with st := .waitQueue, wait := .push 7 5 }) |> wrNum (qDesc 1023 7 + 1) 1 0xC2
    (Bound r ∧ hasShadow .sec = true ∧ csrOk r .sec (Reg.sq_QDATA 1023 7) false = true ∧ popHeld r 1023 7 = false ∧
      r.ecc = [] ∧ qReader r 1023 7 = 6 ∧
      (match qPop 1023 7 { r with reply := .done } with | .entry _ _ => true | _ => false) = true ∧
      (match qPop 1023 7 { z with reply := .done } with | .empty => true | _ => false) = true ∧ qReader z 1023 7 = 6 ∧
      csrOk n .sec (Reg.sq_QDATA 1023 7) false = true ∧ qReader n 1023 7 ≠ 6) ∧
    (csrOk (h r) .sec (Reg.sq_QDATA 1023 7 + 4) true = true ∧
      Tests.onWord (Reg.sq_QDATA 1023 7) (fun _ blk _ _ => heldFor (h r) .sec blk (Reg.sq_QDATA 1023 7) == some 5) = true ∧
      bitN (qWriters (h r) 1023 7) 6 = true ∧ qKind (h r) 1023 7 = 0 ∧ qCount (h r) 1023 7 < 16 ∧
      (∀ e ∈ engineOrder, (waitingWrite 1023 7 (h r) e).isNone = true ∧ (waitingWrite 1023 7 (h f) e).isNone = true) ∧ pairFor (h r) 1023 7 = false ∧
      pairFor (h f) 1023 7 = false ∧ (qWrite 1023 7 5 none (earlierWrites 1023 7 (h r))).isSome = true ∧
      (qWrite 1023 7 5 none (earlierWrites 1023 7 (h f))).isNone = true ∧
      bitN (qWriters (h f) 1023 7) 6 = true ∧ qCount (h f) 1023 7 = 16 ∧ csrOk (h f) .sec (Reg.sq_QDATA 1023 7 + 4) true = true ∧
      bitN (qWriters (h n) 1023 7) 6 = false ∧ csrOk (h n) .sec (Reg.sq_QDATA 1023 7 + 4) true = true) ∧
    (takeArrivalBy (fun a => a.pkt.ty == .qsend) (core a 1023).arrivals = some (⟨p, none⟩, []) ∧ pairReason a 1023 ⟨p, none⟩ = none ∧
      coreClocked a 1023 = true ∧ writeAhead a 1023 8 7 = false ∧ qKind a 1023 7 ≠ 1 ∧ qCount a 1023 7 < 16 ∧
      writeAhead b 1023 8 7 = false ∧ writeAhead w 1023 8 7 = true ∧ pairReason w 1023 ⟨p, none⟩ = none ∧ pairReason b 1023 ⟨p, none⟩ = none ∧ qCount b 1023 7 = 16 ∧
      pairReason c 1023 ⟨p, none⟩ = some 1) := by
  unfold Bound; decide +kernel

theorem witness_ExternalQueueAccess_rings :
    let g := (List.range 64).foldl (fun t b => putF (Reg.slice_SLICE_OWNER_WRITERS b) 1 t) Tests.up
    let s := g |> wrNum (qDesc 1023 7) 16 (2 + 4 + 16 * 5 + 2 ^ 32 * 0x3FC00 + 2 ^ 68) |> wrNum (qEntry 1023 7 0) 8 1023
    let l := modCore 1023 (fun k => { k with ringLeft := [(7, 3)] }) s
    let p : Packet := { ty := .credit, src := 4, dst := 4092, ext := 31 }
    let c := Tests.arrive 1023 p Tests.up
    let r := modCore 1023 (fun k => { k with refusals := [⟨1 + 31 * 2 ^ 32, 9, 4, 0, false⟩] }) (wrNum (qDesc 1023 63) 16 (2 ^ 68 * 14) Tests.up)
    (Bound s ∧ engRuns s 1023 = true ∧ drainsAny s = false ∧ qKind s 1023 7 = 2 ∧ qCount s 1023 7 = 1 ∧ rdNum s (qEntry 1023 7 (qHead s 1023 7)) 8 = 1023 ∧
      tget 0 7 (core s 1023).ringLeft = 0 ∧ 1023 % 512 + 1 ≤ qRingWords s 1023 7 - qProd s 1023 7 % qRingWords s 1023 7 ∧
      1023 % 512 + 1 ≤ qRingWords s 1023 7 - (qProd s 1023 7 + 2 ^ 24 - qCons s 1023 7) % 2 ^ 24 ∧
      (sliceDo (.core 1023 5) (ringOff s 1023 7 (qProd s 1023 7)) (.write (toBytes (setBitN 1023 15 false) 8)) 0 s).data ≠ none) ∧
    (tget 0 7 (core l 1023).ringLeft = 3 ∧ engRuns l 1023 = true ∧ drainsAny l = false ∧ qKind l 1023 7 = 2 ∧ qCount l 1023 7 = 1 ∧
      (sliceDo (.core 1023 5) (ringOff l 1023 7 (qProd l 1023 7)) (.write (toBytes 1023 8)) 0 l).data ≠ none) ∧
    (coreSilent c 1023 = false ∧ takeArrivalBy (fun a => a.pkt.ty == .credit && a.pkt.ext % 32 == 31) (core c 1023).arrivals = some (⟨p, none⟩, [])) ∧
    (isSet Tests.up (Reg.sq_CHAN_ROUTE_VALID 1023 31) = false ∧ csrOk Tests.up .sec (Reg.sq_CHAN_ROUTE 1023 31) true = true) ∧
    ((core r 1023).refusals = [⟨1 + 31 * 2 ^ 32, 9, 4, 0, false⟩] ∧ engRuns r 1023 = true ∧ qCount r 1023 63 = 14) := by
  unfold Bound; decide +kernel

/-- Core 0 is enabled, and an event of this KIND for context 9 waits in the ingress queue. -/
def Tests.intake (kind : Nat) (s : State) : State :=
  s |> putF (enabledRef (Reg.core_BLK_CTRL 0)) 1 |> modCore 0 (fun k => { k with ingress := [⟨Tests.event kind, 5⟩] })

theorem witness_EventPath :
    let a : Arrival := ⟨{ ty := .event, src := 4, dst := 0, data := (Tests.event 0).toNat, step := 5 }, none⟩
    let d := Tests.arrive 0 a.pkt (Tests.slot Tests.up)
    let r := Tests.arrive 0 a.pkt Tests.up
    let n := Tests.intake 0 Tests.up
    let p := setSlotState 0 2 3 (Tests.intake 0 (Tests.slot Tests.up))
    let w (kind : Nat) := Tests.intake kind (Tests.slot Tests.up)
    let j (ty : Nat) := wrNum (coreBase 0 + projOff 63) 16 (2 ^ 32 * ty + 0xFFFF * 2 ^ 16) (w 0)
    let o := modCore 0 (fun k => { k with ops := List.replicate 32 [] })
    (Bound d ∧ d.ecc = [] ∧ takeArrivalBy (fun a => a.pkt.ty == .event) (core d 0).arrivals = some (a, []) ∧ eventReason d 0 a = none ∧
      (core d 0).ingress.length < 32 ∧ coreClocked d 0 = true ∧ eventReason r 0 a = some 1) ∧
    ((core n 0).ingress = [⟨Tests.event 0, 5⟩] ∧ intakeOpen n 0 = true ∧ boundaryShut n 0 = false ∧ (core n 0).hold.length < 32 ∧ findSlot n 0 (evCtx (Tests.event 0)) = none) ∧
    (intakeOpen p 0 = true ∧ findSlot p 0 (evCtx (Tests.event 0)) = some 2 ∧ slotState p 0 2 = stPaused) ∧
    (intakeOpen (w 2) 0 = true ∧ findSlot (w 2) 0 (evCtx (Tests.event 2)) = some 2 ∧ atWork (slotState (w 2) 0 2) = true ∧
      evKind (Tests.event 2) = 2 ∧ (core (w 2) 0).ctrl.length < 8 ∧ intakeOpen (w 3) 0 = true ∧ evKind (Tests.event 3) = 3 ∧
      atWork (slotState (w 3) 0 2) = true ∧ isSet (w 3) (Reg.eng_EXC_CAUSE_VALID 0 0) = false ∧ intakeOpen (w 1) 0 = true ∧
      evKind (Tests.event 1) = 1 ∧ (core (w 1) 0).pre.length + (core (w 1) 0).preReady.length < 32 ∧ findProj (w 1) 0 (evAxon (Tests.event 1)) = none) ∧
    (findProj (j 2) 0 (evAxon (Tests.event 0)) = some 63 ∧ winBits (j 2) 0 (projOff 63) 32 2 = 2 ∧
      findProj (j 1) 0 (evAxon (Tests.event 0)) = some 63 ∧ winBits (j 1) 0 (projOff 63) 32 2 = 1 ∧
      (match kernelGroups (j 1) 0 2 63 ⟨Tests.event 0, 5⟩ with | g :: _ => g.any (targetOk (j 1) 0) | [] => false) = true ∧
      (core (j 1) 0).ops.length = 0 ∧ (core (o (j 1)) 0).ops.length = 32 ∧ intakeOpen (o (j 1)) 0 = true ∧
      (match kernelGroups (o (j 1)) 0 2 63 ⟨Tests.event 0, 5⟩ with | g :: _ => g.any (targetOk (o (j 1)) 0) | [] => false) = true) := by
  unfold Bound; decide +kernel

theorem witness_EventPath_held :
    let g := (List.range 64).foldl (fun t b => putF (Reg.slice_SLICE_OWNER_WRITERS b) 1 t) Tests.up
    let h (s : State) (kind : Nat) := s |> putF (enabledRef (Reg.core_BLK_CTRL 0)) 1
      |> modCore 0 (fun k => { k with hold := [⟨Tests.event kind, 5⟩] })
    let n := h Tests.up 0
    let w := h (Tests.slot Tests.up) 2
    let f (left : Option Nat) := modCore 0 (fun k => { k with
      fanout := some ⟨⟨Tests.event 0, 5⟩, 2, false, 0, 0x1000000, left, 0x1000000, 7, some (some 3)⟩ }) g
    (Bound n ∧ n.ecc = [] ∧ takeHeld n 0 (core n 0).hold = some (⟨Tests.event 0, 5⟩, []) ∧ intakeReady n 0 = true ∧ heldMay n 0 ⟨Tests.event 0, 5⟩ = true ∧
      findSlot n 0 (evCtx (Tests.event 0)) = none) ∧
    (takeHeld w 0 (core w 0).hold = some (⟨Tests.event 2, 5⟩, []) ∧ intakeReady w 0 = true ∧ heldMay w 0 ⟨Tests.event 2, 5⟩ = true ∧ findSlot w 0 (evCtx (Tests.event 2)) = some 2 ∧
      atWork (slotState w 0 2) = true ∧ (core w 0).ctrl.length < 8) ∧
    (engUp (f none) 0 0 = true ∧ (core (f none) 0).ops.length < 32 ∧ (core (f none) 0).fanout.map (·.ans) = some (some (some 3)) ∧
      (core (f (some 1)) 0).fanout.map (fun x => (x.ans, x.left)) = some (some (some 3), some 1)) := by
  unfold Bound; decide +kernel

/-- An operation for neuron 0 of slot 2 in the slot of a step. -/
def Tests.op (step dly : Nat) : SynOp := ⟨2, 0, .value 1, 0, 1, step, dly⟩

theorem witness_SynapticOperationsAndSomaUpdate :
    let t := Tests.up
    let q (step dly : Nat) := modCore 0 (fun k => { k with ops := [[Tests.op step dly]] }) t
    let z := modCore 0 (fun k => { k with late := List.replicate 16 (Tests.op 9 1) }) (q 0 1)
    let l (step dly : Nat) := modCore 0 (fun k => { k with late := [Tests.op step dly], soma := [(2, 4)] }) t
    let s := t |> putF (Reg.core_CORE_CFG_FMT 0) 1 |> wrNum (slotBase 0 2) 8 (9 + 2 ^ 30 + 2 * 2 ^ 44 + 2 ^ 48)
      |> modCore 0 (fun k => { k with soCmd := [(2, 4)], seCmd := [(2, 4)] })
    let m := modCore 0 (fun k => { k with seCmd := [] }) s
    let y := modCore 0 (fun k => { k with fire := List.replicate 64 ⟨0, 2, 0, 0, 4⟩ }) s
    (Bound (q 0 1) ∧ t.ecc = [] ∧ engUp (q 0 1) 0 1 = true ∧ (core (q 0 1) 0).ops = [[Tests.op 0 1]] ∧ groupBehind (q 0 1) 0 [Tests.op 0 1] = false ∧
      dlyOk (ringDepth (opClass (q 0 1) 0 (Tests.op 0 1)).2) 1 = true ∧ slotRead (q 0 1) 0 2 0 0 = false ∧ opWaits (q 0 1) 0 (Tests.op 0 1) = false ∧
      groupBehind (q 9 1) 0 [Tests.op 9 1] = false ∧ opWaits (q 9 1) 0 (Tests.op 9 1) = true ∧
      16 ≤ (core z 0).late.length ∧ (core z 0).ops = [[Tests.op 0 1]] ∧ groupBehind z 0 [Tests.op 0 1] = false) ∧
    (engUp (l 4 1) 0 1 = true ∧ nextLate (l 4 1) 0 = some (Tests.op 4 1, []) ∧ slotRead (l 4 1) 0 2 0 4 = false ∧ opWaits (l 4 1) 0 (Tests.op 4 1) = false ∧
      nextLate (l 3 1) 0 = some (Tests.op 3 1, []) ∧ slotRead (l 3 1) 0 2 0 3 = true ∧
      nextLate (l 4 31) 0 = some (Tests.op 4 31, []) ∧ dlyOk (ringDepth (opClass (l 4 31) 0 (Tests.op 4 31)).2) 31 = false) ∧
    (Bound s ∧ (core s 0).soCmd = [(2, 4)] ∧ engUp s 0 2 = true ∧ (core s 0).somaAt = none ∧ (core s 0).fire.length + 2 ≤ 64 ∧
      (core s 0).post.length + (core s 0).postReady.length + 2 ≤ 64 ∧ (core y 0).fire.length = 64 ∧ (core s 0).sqOut = [] ∧
      slotNCount s 0 2 + 1 = 2 ∧ recOff s 0 (slotNBase s 0 2) ≠ recOff s 0 (slotNBase s 0 2 + 1) ∧
      delayOff (readRec s 0 0) (classOf s 0 (readRec s 0 0).cls) 4 ≠ delayOff (readRec s 0 1) (classOf s 0 (readRec s 0 1).cls) 4 ∧
      (core s 0).seCmd.contains (2, 4) = true ∧ engUp s 0 1 = true ∧ (core m 0).seCmd.contains (2, 4) = false ∧ engUp m 0 2 = true) := by
  unfold Bound; decide +kernel

theorem witness_CoreEvents :
    let x := Tests.context 5
    let k := Tests.slot Tests.up |> putF (enabledRef (Reg.core_BLK_CTRL 0)) 1 |> modCore 0 (fun k => { k with released := [(2, 6)] })
    let f := Tests.slot Tests.up |> modCore 0 (fun k => { k with fire := [⟨0, 2, 0, 0, 4⟩] })
    let e := wrNum (coreBase 0 + emitOff 127) 16 (2 ^ 29 + 2 ^ 14) f
    let w := modCore 0 (fun k => { k with send := List.replicate 16 ⟨0, 0, 4, 0⟩ }) e
    let q := putF (enabledRef (Reg.core_BLK_CTRL 1023)) 1 Tests.up
    (Bound x ∧ mayRelease x 9 = true ∧ (ctxRun x 9).released = 0) ∧ mayTake k 0 2 = true ∧ lowestTaker k 0 2 = true ∧ learnOn k 0 = false ∧ blkEnabled x Reg.vol_BLK_CTRL = false ∧
      (slotsOf x 9).contains (0, 2) = true ∧
    ((core f 0).fire = [⟨0, 2, 0, 0, 4⟩] ∧ engUp f 0 4 = true ∧ emitMatches f 0 0 = [] ∧ emitMatches e 0 0 = [127] ∧ engUp e 0 4 = true ∧
      sendFree e 0 = 16 ∧ sendFree w 0 = 0 ∧ emitMatches w 0 0 = [127]) ∧
    (coreUp q 1023 = true ∧ isSet q (Reg.core_SCRUB_CTRL_EN 1023) = true ∧ (core q 1023).scrubStop = false ∧
      eccAt q (eccWordOf 1023 (scrubOff (core q 1023).scrub)) = 0 ∧ engUp k 0 5 = true ∧ engBusy (Tests.run 0 5 [] k) 0 5 = true ∧
      engUp (Tests.run 0 5 [] k) 0 5 = true ∧ getF k (Reg.eng_GANDER_LIMIT_LIMIT 0 5) ≠ 0) ∧
    (blkEnabled q (Reg.core_BLK_CTRL 1023) = true ∧ isSet q (enRef (Reg.core_BLK_CTRL 1023)) = false ∧ quiescent q 1023 = true) := by
  unfold Bound; decide +kernel
def Tests.flight (f : Flight) (s : State) : State := { s with fab := { s.fab with flights := [f] } }

theorem witness_FabricTransport :
    let p : Packet := { ty := .memRd, src := 6, dst := 4092 }
    let b := { Tests.up with fab := { waiting := [p] } }
    let c := modCore 1023 (fun k => { k with send := [⟨Tests.event 0, 5, 4, 0⟩] }) Tests.up
    let v : Packet := { ty := .qsend, src := 4092, dst := 4 }
    let e := modCore 1023 (fun k => { k with send := [⟨Tests.event 0, 5, 4, 1⟩] }) { Tests.up with fab := { waiting := [v] } }
    let u : Flight := ⟨{ ty := .event, src := 4, dst := 4092, data := 0x240020 }, 1023, 0, false, 0, []⟩
    let h : Flight := ⟨{ ty := .event, src := 4, dst := 4092 }, 0, 4, false, 0, []⟩
    let x : Flight := ⟨{ ty := .memRd, src := 4, dst := 4095 }, 1023, 0, false, 0, []⟩
    let m : Flight := ⟨{ ty := .event, src := 4, dst := 1023, mc := true }, 0, 4, false, 0, []⟩
    let t := wrNum (flockAddr 0 1023) 8 0x85 Tests.up
    let z := { Tests.up with fab := { Tests.up.fab with flights := h :: List.replicate 8 { h with router := 31, port := 0 } } }
    let d := Tests.up |> putF Reg.fab_FAB_DRAIN_REQ 8 |> putF Reg.fab_FAB_DRAIN_STATUS_DRAINED 8
    (Bound b ∧ epRouter 6 < 1024 ∧ b.fab.waiting.find? (fun q => q.src == 6 && q.resend && mayInject b q) = none ∧ epCode 6 ≠ 0 ∧
      oldestReady b 6 (waitingAt b 6).length = some p ∧ sequenced p.ty = true ∧ byFlock p = false) ∧
    (epCode 4092 = 0 ∧ c.fab.waiting = [] ∧ oldestReady c 4092 0 = none ∧ oldestReady e 4092 1 = some v ∧ sequenced v.ty = true ∧
      (core e 1023).send = [⟨Tests.event 0, 5, 4, 1⟩] ∧ (core c 1023).send = [⟨Tests.event 0, 5, 4, 0⟩] ∧ mayInject c (sendPacket 1023 ⟨Tests.event 0, 5, 4, 0⟩) = true) ∧
    (∀ f ∈ [u, h], hchkOk f = true ∧ misroutes (Tests.flight f Tests.up) f = false ∧
      (outputs (Tests.flight f Tests.up) f).all (fun o => granted (Tests.flight f Tests.up) f.router o == some 0 &&
        (decide (o < 4) || reached (Tests.flight f Tests.up) f o == codesAt f o)) = true) ∧
    (nextPort 0 1023 false = some 1 ∧ outputs (Tests.flight h Tests.up) h = [1] ∧ outputs (Tests.flight u Tests.up) u ≠ [] ∧
      hchkOk { h with bad := 1 } = false ∧ misroutes (Tests.flight x Tests.up) x = true ∧ hchkOk x = true) ∧
    (misroutes (Tests.flight m Tests.up) m = true ∧ misroutes (Tests.flight m t) m = false ∧ outputs (Tests.flight m t) m = [0, 2] ∧
      granted (Tests.flight m t) 0 0 = some 0) ∧
    (outputs z h ≠ [] ∧ (∀ o ∈ outputs z h, granted z 0 o ≠ some 0)) ∧
    (csrOk d .sec Reg.fab_FAB_DRAIN true = true ∧ (getF d Reg.fab_FAB_DRAIN_REQ).testBit 3 = true ∧ regionEmpty d 3 = true ∧
      tableRouter 0x0300000000 = some 0 ∧ tableRouter 0x0300BFF000 = some 1023 ∧ csrOk d .sec 0x0300000000 true = true ∧
      csrOk d .sec 0x0300BFF000 true = true ∧ (getF d Reg.fab_FAB_DRAIN_STATUS_DRAINED).testBit (regionOfCore 1023) = true ∧
      (getF d Reg.fab_FAB_DRAIN_STATUS_DRAINED).testBit (regionOfCore 0) = false ∧ tableRouter 0x03007FE000 = some 1023 ∧
      csrOk d .sec 0x03007FE000 true = true ∧ d.memWait = [] ∧ Tests.onWord Reg.fab_FAB_DRAIN (fun _ _ _ _ => true) = true ∧ corePresent d 1023 = true ∧ epochSettled d 1023 = true) := by
  unfold Bound; decide +kernel

theorem witness_FabricReception :
    let f (ty : PktType) (seq : Nat) : Flight := ⟨{ ty := ty, src := 4, dst := 4092, seq := seq }, 1023, 4, true, 0, []⟩
    let s (ty : PktType) (seq : Nat) := Tests.flight (f ty seq) Tests.up
    let a := modRx (uniKey 4 4092) (fun r => { r with expect := 3, unacked := 3 }) Tests.up
    let e : Packet := { ty := .event, src := 4092, dst := 4, seq := 255 }
    let r := { s .ack 255 with fab := { (s .ack 255).fab with retx := [{ pkt := e }] } }
    let g (o : Nat) : Flight := ⟨{ ty := .memRd, src := 4, dst := 4092 }, o, 4, false, 0, []⟩
    let w := { Tests.up with fab := { Tests.up.fab with flights := g 0 :: List.replicate 8 { g 31 with port := 0 } } }
    (Bound (s .event 0) ∧ (s .event 0).fab.flights[0]? = some (f .event 0) ∧ epCode 4092 = 0 ∧
      (rxOf (s .event 0) (uniKey 4 4092)).expect = 0 ∧ crcOk (f .event 0) = true ∧ crcOk { f .event 0 with bad := 2 ^ 112 } = false ∧
      uncovered (s .refuse 0) 4 4092 = [] ∧ (0 + 256 - 0) % 256 = 0 ∧ (127 + 256 - 0) % 256 = 127 ∧ (128 + 256 - 0) % 256 = 128 ∧
      (s .qsend 127).fab.flights[0]? = some (f .qsend 127) ∧ (s .credit 128).fab.flights[0]? = some (f .credit 128) ∧
      (s .refuse 0).fab.flights[0]? = some (f .refuse 0)) ∧
    ackLag a 4 4092 < (rxOf a (uniKey 4 4092)).unacked ∧
    (r.fab.flights[0]? = some (f .ack 255) ∧ (s .nack 255).fab.flights[0]? = some (f .nack 255) ∧
      r.fab.retx.any (fun x => seriesHit 4092 4 false x && x.pkt.seq == 255 && decide (x.acks < 1)) = true ∧ waitsAt (s .event 0) 0 (f .event 0) = false ∧
      waitsAt w 0 (w.fab.flights.getD 0 (f .event 0)) = true ∧ waitsAt w 8 (w.fab.flights.getD 8 (f .event 0)) = true) := by
  unfold Bound; decide +kernel
/-! ### Witnesses: time, admission and results -/

theorem witness_TicksAndPulses :
    let r := Tests.up |> putF (enabledRef Reg.tb_BLK_CTRL) 1 |> putF (enRef Reg.tb_BLK_CTRL) 1
    let h := { r with trigReqs := [⟨7, 1, none⟩] } |> putF Reg.tb_TB_STATE_STATE 2 |> putF (Reg.trig_TRIG_OUT_CFG_EN 7) 1
    let w := Tests.context 0 |> putF (enabledRef Reg.tb_BLK_CTRL) 1 |> putF Reg.tb_TB_STATE_STATE 1
    let o := putF Reg.tb_TB_STATE_STATE 2 w
    (Bound r ∧ tbRuns r = true ∧ r.admTick = tbWicket r ∧ pendingCtxs r = [] ∧ startSrc r = 0) ∧
    (tbRuns h = true ∧ h.admTick = tbWicket h ∧ pendingCtxs h = [] ∧ getF h Reg.tb_TB_STATE_STATE = 2 ∧ dueFor h 7 1 = [⟨7, 1, none⟩] ∧
      trigCfg (trigLatch h) 7 = true ∧ pulseHeld (trigLatch h) 7 1 = false ∧ bitN h.trigActive 7 = false) ∧
    (blkEnabled w Reg.tb_BLK_CTRL = true ∧ getF w Reg.tb_TB_STATE_STATE = 1 ∧ pendingCtxs w = [9]) ∧
    (getF o Reg.tb_TB_STATE_STATE = 2 ∧ (pendingCtxs o).filter (fun c => dState o c == stRunning) = [9] ∧
      isSet o Reg.tb_OVERRUN_CTX_VALID = false) := by
  unfold Bound; decide +kernel

theorem witness_AdmissionControl :
    let e : AdmIn := .event 10 (Tests.event 0) none none
    let on (s : State) := { s with admIn := [e] } |> putF (enabledRef Reg.adm_BLK_CTRL) 1 |> putF (enRef Reg.adm_BLK_CTRL) 1
      |> putF Reg.tb_TB_STATE_STATE 1
    let h := on (Tests.context 0)
    let p := on (wrNum (descAt Tests.up 9) 8 0xA (Tests.context 0)) |> putF (enabledRef Reg.jrn_BLK_CTRL) 1 |> putF Reg.jrn_JRN_CFG_SIZE_LOG2 3
    let d := on (modCtx 9 (fun r => { r with released := 1 }) (Tests.context 0))
    let f := { on (Tests.context 0) with admIn := [.event 10 0 none none] }
    let g := { Tests.memory with admIn := [.event 10 0 none none] } |> putF Reg.adm_ADM_RING_BASE_BASE ((mainBase + 0x1000) / 4096)
    let gt := putF (Reg.memCh_MEM_CH_STATUS_STATE 0) 3 g
    let full := putF Reg.adm_ADM_RING_PROD_PROD 256 g
    let l := { Tests.context 5 with hold := [⟨9, 0, 10, Tests.event 0, Tests.event 0, none⟩] }
    let m := modCtx 9 (fun r => { r with released := 1 }) l
    let k := modCtx 9 (fun r => { r with closed := 1 }) (on (Tests.context 5))
    let c := { Tests.context 5 with contribs := [⟨9, 0⟩] }
    let c1 := { wrNum (descAt Tests.up 9) 8 (2 + 2 ^ 48) (Tests.context 5) with contribs := [⟨9, 0⟩] }
    (Bound h ∧ h.admIn = [e] ∧ f.admIn.length = 1 ∧ h.admIn.find? (isFrom 10) = some e ∧ descLost h 9 = false ∧ admReason h 9 none = none ∧ dProt h 9 = false ∧
      dRecovering h 9 = false ∧ mustHold h 9 (admStep h 9 none) = true) ∧
    (dProt p 9 = true ∧ admReason p 9 none = none) ∧
    (admReason d 9 none = none ∧ mustHold d 9 (admStep d 9 none) = false ∧ entryPort d 9 (routedWord d 9 (Tests.event 0)) ≠ none) ∧
    (f.admIn.find? (isFrom 10) = some (.event 10 0 none none) ∧ descLost f 0 = false ∧ admReason f 0 none = some 1 ∧
      descLost g 0 = false ∧ admReason g 0 none = some 1 ∧ ringWaits g false (mainBase + 0x1000) 256 Reg.adm_ADM_RING_PROD_PROD = false ∧
      mainTakes g (mainBase + 0x1000) 16 = true ∧ g.ecc = [] ∧ getF g Reg.adm_ADM_CFG_RING_LOG2 = 0 ∧ admReason gt 0 none = some 1 ∧
      ringWaits gt false (mainBase + 0x1000) 256 Reg.adm_ADM_RING_PROD_PROD = true ∧
      ringWaits full false (mainBase + 0x1000) 256 Reg.adm_ADM_RING_PROD_PROD = false ∧ ¬sub32 256 (getF full Reg.adm_ADM_RING_CONS_CONS) < 256) ∧
    (m.admTick < tbWicket m ∧ inHold m 9 = true ∧ dMarked m 9 = false ∧ dStart m 9 < tbWicket m ∧
      (m.hold.find? (fun h => h.ctx == 9)).map (mayGo m) = some true) ∧
    (running k 9 = true ∧ blkEnabled k Reg.adm_BLK_CTRL = true ∧ (ctxRun k 9).admDone < (ctxRun k 9).closed ∧ stepDelivered k 9 0 = true ∧
      dRecovering k 9 = false) ∧
    (c.contribs = [⟨9, 0⟩] ∧ (tget 0 (sumKey 9 0) c.sums + 1) % 2 ^ 11 ≠ dContrib c 9 ∧ (tget 0 (sumKey 9 0) c1.sums + 1) % 2 ^ 11 = dContrib c1 9 ∧
      (ctxRun c1 9).complete = 0 ∧ running c 8 = false) := by
  unfold Bound; decide +kernel

theorem witness_ResultsRecordsAndRefusalRings :
    let s := Tests.up
    let q : Packet := { ty := .event, src := 35, dst := 0, seq := 3 }
    let b : BackRefusal := ⟨35, ⟨0, 0, 0, 3, false⟩⟩
    let k := { s with admRefused := [b], fab := { s.fab with retx := [{ pkt := q }] } }
    let a : Arrival := ⟨{ ty := .event, src := 0, dst := 4 * chipPorts.getD 7 0 + 3, data := (mkEvent 0 0 0 0xF7FF 9 0 0 0 0).toNat }, none⟩
    let r := setPortIn (chipPorts.getD 7 0) [a] (Tests.context 5)
    let o (ring : Nat) (prot : Bool) : OutRec := ⟨9, 4, ring, prot, 0, [1, 2, 3, 4]⟩
    let w := { Tests.memory with records := [o 255 false], ctxs := [(9, {})] } |> putF (Reg.oc_OCR_CFG_CFG 255) 0x80
      |> putF (Reg.oc_OCR_BASE_BASE 255) ((mainBase + 0x1000) / 4096)
    let v := { Tests.memory with records := [o 255 false], ctxs := [(9, {})] } |> putF (Reg.oc_OCR_CFG_CFG 255) 0xC0
      |> putF (Reg.oc_OCR_MIRROR_MIRROR 255) ((mainBase + 0x1000) / 4096) |> setF ⟨Reg.oc_OCR_STATUS 255, 0, 1⟩
    let d := { s with records := [o 255 false] }
    let u := { s with records := [o 255 false], ctxs := [(9, { recovered := true, wrote := true })] }
    (Bound s ∧ csrOk s .sec Reg.adm_ADM_RING_CONS true = true ∧ csrOk s .sec (Reg.oc_OCR_CONS 255) true = true ∧
      csrOk s .sec (Reg.bdu_REF_RING_CONS 63) true = true ∧ csrOk s .sec Reg.aet_AET_REF_CONS true = true ∧ consOk 5 2 5 = true ∧ consOk 5 2 6 = false) ∧
    (k.admRefused = [b] ∧ refusedPkt k b = some q) ∧
    (takeArrivalBy (fun a => decide (evAxon (BitVec.ofNat 64 a.pkt.data) < 0xF800)) (portIn r (chipPorts.getD 7 0)) = some (a, []) ∧
      collectorLoad r < 16384 ∧ evCtx (BitVec.ofNat 64 a.pkt.data) ∈ ctxList r) ∧
    (w.ecc = [] ∧ v.ecc = [] ∧ w.records.find? (fun o => ringHead w.records o && fateOf w o != .waits) = some (o 255 false) ∧ fateOf w (o 255 false) = .write 2 ∧
      ocrSwitched w 255 = false ∧ ocrCfg w 255 6 = false ∧ mainTakes w (mainBase + 0x1000) 32 = true ∧
      mirrorAt w 9 + 64 ≤ mainBase + 0x1000 ∧
      v.records.find? (fun o => ringHead v.records o && fateOf v o != .waits) = some (o 255 false) ∧ fateOf v (o 255 false) = .write 2 ∧
      ocrSwitched v 255 = true ∧ ocrCfg v 255 6 = true ∧ mainTakes v (mainBase + 0x1000) 32 = true ∧
      mirrorAt v 9 + 64 ≤ mainBase + 0x1000 ∧ fateOf d (o 255 false) = .discard ∧ fateOf u (o 255 false) = .suppress) ∧
    csrOk s .sec (latestAt 65535) false = true := by
  unfold Bound; decide +kernel
/-! ### Witnesses: dense units and learning -/

/-- Block 0's own slice is open to its BDU, which is enabled. -/
def Tests.bdu : State :=
  Tests.up |> putF (enabledRef (Reg.bdu_BLK_CTRL 0)) 1 |> putF (Reg.bdu_BDU_CFG_LAYER_BASE 0) 0x400
    |> putF (Reg.slice_SLICE_OWNER_READ_OPEN 0) 1 |> putF (Reg.slice_SLICE_OWNER_WRITERS 0) 15

/-- A COPY of one S8 element from slice offset 0x10400 to 0x10500, with the rescale entry at 0x10600; OP as given. -/
def Tests.layer (op : Nat) : Nat :=
  op + 2 ^ 2 + 2 ^ 4 + 2 ^ 12 + 2 ^ 23 + 0x10400 * 2 ^ 64 + 0x10500 * 2 ^ 128 + 0x10600 * 2 ^ 160

theorem witness_DenseUnits :
    let v (o : Nat) := viewBase + viewOff .ay1024 0 o
    let w (n : Nat) := wrNum (v 0x10700) 4 n (modBdu 0 (fun k => { k with watch := [(3, 0x10700, 2)] }) Tests.bdu)
    let l (op : Nat) := wrNum (v 0x10000) 64 (Tests.layer op) (modBdu 0 (fun k => { k with queue := [0, 5] }) Tests.bdu)
    let shut := putF (Reg.slice_SLICE_OWNER_WRITERS 0) 0 (putF (Reg.slice_SLICE_OWNER_READ_OPEN 0) 0 (l 2))
    let s0 (s : State) := takeLayer 0 0 1 s
    let r := modBdu 0 (fun k => { k with run := some ⟨2, 0, 0, 1, some 5, 0xFFFF, 3⟩ }) Tests.bdu
    let z := modPower (fun p => { p with blocksAsleep := [0] }) (w 5)
    let b := { Tests.bdu with bduRefused := [⟨bduEp 0, ⟨0, 0, 0, 3, false⟩⟩] }
    (Bound (w 5) ∧ (w 5).ecc = [] ∧ bduUp (w 5) 0 = true ∧ (bduOf (w 5) 0).watch.find? (fun w => w.2.1 == 0x10700) = some (3, 0x10700, 2) ∧
      bduRead 0 0x10700 4 (w 5) = (some 5, w 5) ∧ bduRead 0 0x10700 4 (w 1) = (some 1, w 1) ∧ sliceAllows (w 5) 0 (.bdu 0) true = true ∧
      (sliceOf .ay1024 (viewOff .ay1024 0 0x10700)).1 = 0 ∧ inCtt (w 5) (viewOff .ay1024 0 0x10700) 4 = false ∧ watched (w 5) 0 = [0x10700]) ∧
    (bduOn z 0 = true ∧ blockClocked z 0 = false ∧ 0x10700 ∈ watched z 0) ∧
    (bduUp shut 0 = true ∧ (bduRead 0 (layerAt shut 0 0) 64 (s0 shut)).1 = none) ∧
    (bduUp (l 3) 0 = true ∧ bduRead 0 (layerAt (l 3) 0 0) 64 (s0 (l 3)) = (some (Tests.layer 3), s0 (l 3)) ∧
      (readRescale 0 (Tests.layer 3) (s0 (l 3))).1.map (fun r => r.map (·.zo)) = some [0] ∧ (readRescale 0 (Tests.layer 3) (s0 (l 3))).2 = s0 (l 3) ∧ badCase (s0 (l 3)) 0 (Tests.layer 3) [0] = some 1) ∧
    (bduRead 0 (layerAt (l 2) 0 0) 64 (s0 (l 2)) = (some (Tests.layer 2), s0 (l 2)) ∧
      (readRescale 0 (Tests.layer 2) (s0 (l 2))).1.map (fun r => r.map (·.zo)) = some [0] ∧ (readRescale 0 (Tests.layer 2) (s0 (l 2))).2 = s0 (l 2) ∧ badCase (s0 (l 2)) 0 (Tests.layer 2) [0] = none ∧
      ((List.range (outElems (Tests.layer 2))).foldl (runElem 0 (Tests.layer 2) 1 [⟨0, 0, 0, 0, 0⟩]) { st := s0 (l 2) }).failed = false ∧
      ((List.range (outElems (Tests.layer 2))).foldl (runElem 0 (Tests.layer 2) 1 [⟨0, 0, 0, 0, 0⟩]) { st := s0 shut }).failed = true) ∧
    ((bduOf r 0).run = some ⟨2, 0, 0, 1, some 5, 0xFFFF, 3⟩ ∧ bduUp r 0 = true ∧ bduDelivered r 0 = true ∧ (bduOf r 0).queue.length < 64) ∧
    b.bduRefused.find? (fun r => r.src == bduEp 0) = some ⟨bduEp 0, ⟨0, 0, 0, 3, false⟩⟩ := by
  unfold Bound; decide +kernel

theorem witness_Learning :
    let f : FireRec := ⟨0, 2, 0, 4, 7⟩
    let t := Tests.up |> putF (Reg.pe_LSET_SLOT_FIRST 0 0) 2 |> putF (Reg.pe_LSET_SLOT_CNT 0 0) 1
    let tr := t |> putF (Reg.pe_LSET_TRACE_EN 0 0) 1 |> putF (Reg.pe_LSET_PT_AXONS 0 0) 4
    let post (s : State) := modCore 0 (fun k => { k with post := [f] }) s
    let pre := modCore 0 (fun k => { k with pre := [⟨3, 2, 1, 4⟩], soma := [(2, 5)] }) tr
    let b := t |> putF (Reg.slice_SLICE_OWNER_WRITERS 0) 1 |> putF (Reg.slice_SLICE_OWNER_READ_OPEN 0) 1 |> putF (Reg.pe_LSET_DELTA_BASE 0 0) 0x4000
      |> putF (Reg.core_CORE_CFG_LEARN_EN 0) 1 |> putF (Reg.pe_LSET_INN_LEN 0 0) 2 |> Tests.slot
      |> modCore 0 (fun k => { k with taken := [(2, 4)], released := [(2, 5)] })
    let ap := putF (Reg.pe_LSET_APPLY 0 0) 1 b
    let on (s : State) := modCore 0 (fun k => { k with applying := some 0, applied := false, applyInn := 2 }) s
    let due := modCore 0 (fun k => { k with ingress := [⟨Tests.event 0, 5⟩] }) b
    let bad := putF (Reg.slice_SLICE_OWNER_READ_OPEN 0) 0 (putF (Reg.slice_SLICE_OWNER_WRITERS 0) 0 b)
    let blk := match csrAt (Reg.pe_LRN_MOD_SET 0) with
      | .word _ blk _ _ => blk
      | _ => 0
    let h := holdLow .sec blk (Reg.pe_LRN_MOD_SET 0) 0x30005 t
    (Bound tr ∧ (core (post t) 0).post = [f] ∧ engUp (post t) 0 3 = true ∧ (post t).ecc = [] ∧ pre.ecc = [] ∧ tracingSet (post tr) 0 2 = some 0 ∧ tracingSet (post t) 0 2 = none) ∧
    ((core pre 0).pre = [⟨3, 2, 1, 4⟩] ∧ engUp pre 0 3 = true ∧ preDue pre 0 ⟨3, 2, 1, 4⟩ = true ∧ tracingSet pre 0 2 = some 0 ∧
      (preOff pre 0 0 2 3).isSome = true) ∧
    (Bound due ∧ learnOn due 0 = true ∧ (core due 0).applying = none ∧ (core due 0).stopped = false ∧ (core due 0).ingress ≠ [] ∧
      (List.range 4).find? (fun j => (boundaryDue due 0 j).isSome) = some 0) ∧
    (boundaryStart 0 (on b) = on b ∧ engUp (on b) 0 3 = true ∧ drainsAny (on b) = false ∧ (core (on b) 0).applying = some 0 ∧ (core (on b) 0).applied = false ∧ (core (on b) 0).stopped = false ∧
      intakeDone (on b) 0 0 = true ∧ (applySet 0 0 (on b)).1 = true ∧ (applySet 0 0 (on bad)).1 = false ∧ intakeDone (on bad) 0 0 = true ∧
      (eng (applySet 0 0 (on bad)).2 0 3).st ≠ .halted ∧ inningsQuiet (on ap) 0 = true ∧ intakeDone (on ap) 0 0 = true ∧
      getF (on ap) (Reg.pe_LSET_APPLY 0 0) = 1 ∧ (∀ e ∈ [0, 1, 2, 3, 4, 5], handlerBound (on ap) 0 e 7 = false) ∧
      handlerBound (putF (Reg.eng_HVEC_EN 0 3 7) 1 (on ap)) 0 3 7 = true ∧ workSlots (on ap) 0 0 = [2]) ∧
    (csrOk h .sec (Reg.pe_LRN_MOD_SET 0 + 4) true = true ∧ heldFor h .sec blk (Reg.pe_LRN_MOD_SET 0) = some 0x30005 ∧
      Tests.onWord (Reg.pe_LRN_MOD_SET 0) (fun _ _ _ w => (rdWord h (Reg.pe_LRN_MOD_SET 0) ^^^ 0x30005) &&& rsvMask w.row w.idx == 0) = true ∧ csrOk t .sec (Reg.pe_LSET 0 0) true = true ∧ quiescent t 0 = true ∧ quiescent b 0 = false) := by
  unfold Bound; decide +kernel
/-! ### Witnesses: converter links and the Event Ingress Port -/

theorem witness_ConverterLinks :
    let s := putF (enabledRef (Reg.link_BLK_CTRL 0)) 1 Tests.up
    let l (st : Nat) := putF (Reg.link_LINK_STATUS_STATE 0) st s
    let a := putF Reg.jesd_SYSREF_STATUS_LOCKED 1 (modLink 0 (fun k => { k with aligned := true }) (l 2))
    let k := putF (Reg.link_LINK_STATUS_LANE_LOCK 0) 1 (l 3)
    let w := s |> putF (enRef Reg.tb_BLK_CTRL) 1 |> putF (enabledRef Reg.tb_BLK_CTRL) 1 |> putF Reg.tb_TB_CFG_START_SRC 1
    let f := putF (Reg.link_BLK_CTRL_EN 0) 1 (putF (Reg.linkInst_INST_VALID 0 0) 1 (l 3))
    let e := modLink 0 (fun k => { k with values := lkWin f 0 }) f
    let o := modLink 0 (fun k => { k with out := [1, 2] }) s
    (Bound s ∧ linkOn (l 1) 0 = true ∧ lkState (l 1) 0 = 1 ∧ lkL (l 1) 0 = 1 ∧ lkLane (l 1) 0 0 < 24) ∧
    (linkOn a 0 = true ∧ lkState a 0 = 2 ∧ (link a 0).aligned = true ∧ isSet a Reg.jesd_SYSREF_STATUS_LOCKED = true) ∧
    (linkOn k 0 = true ∧ lkState k 0 = 3 ∧ bitN (getF k (Reg.link_LINK_STATUS_LANE_LOCK 0)) 0 = true) ∧
    (getF s Reg.tb_TB_STATE_STATE = 0 ∧ tbRuns s = false ∧ tbRuns w = true ∧ getF w Reg.tb_TB_STATE_STATE = 0 ∧ startSrc w = 1) ∧
    csrOk s .sec Reg.jesd_SYSREF_CFG true = true ∧
    (linkOn f 0 = true ∧ isSet f (Reg.link_BLK_CTRL_EN 0) = true ∧ validInsts f 0 = [0] ∧ lkChan f 0 = false ∧
      getF f (Reg.linkInst_INST_ENC 0 0) = 0 ∧ (link f 0).values < lkWin f 0 ∧ wrongLanes f = 0 ∧
      (link (addSamples 0 [[5]] (List.range (lkM f 0)) (openHist 0 f)) 0).hist = [[5]] ∧
      (link (addSamples 0 [] (List.range (lkM f 0)) (openHist 0 f)) 0).hist = [[]]) ∧
    ((link e 0).values = lkWin e 0 ∧ linkOn e 0 = true ∧ validInsts e 0 = [0]) ∧ (link o 0).out = [1, 2] := by
  unfold Bound; decide +kernel

theorem witness_EventIngress :
    let s := putF (enabledRef Reg.eip_BLK_CTRL) 1 (putF (enRef Reg.eip_BLK_CTRL) 1 Tests.up)
    let l (st : Nat) := putF Reg.eip_EIP_STATUS_STATE st s
    let r := putF Reg.eip_EIP_CFG_RELIABLE 1 (l 3)
    let ws : List Word64 := List.replicate 8 5
    let t (seq : Nat) (ok : Bool) : Word64 :=
      let body : Word64 := BitVec.ofNat 64 (seq * 2 ^ 8 + 0xFF * 2 ^ 16)
      body + BitVec.ofNat 64 (groupCrc ws body + bnat (!ok)) % 256
    let full := modEip (fun e => { e with groups := List.replicate 64 ws }) r
    (Bound s ∧ eipOn s = true ∧ eipState (l 1) = 1 ∧ eipLanes (l 1) = 8 ∧ eipState (l 2) = 2 ∧ isSet (l 2) Reg.eip_BLK_CTRL_EN = true ∧ eipState (l 3) = 3 ∧
      (modEip (fun e => { e with nak := true }) r).eip.nak = true) ∧
    (isSet r Reg.eip_BLK_CTRL_EN = true ∧ eipState r = 3 ∧ ws.length = 8 ∧ r.eip.expect = 0 ∧ eipSwapped r = 0 ∧ (eipUnits ws r).1 = ws ∧ (eipUnit (t 0 true) (eipUnits ws r).2).1 = t 0 true ∧ groupCrc ws (t 0 true) = (t 0 true).toNat % 256 ∧
      bitsN (t 0 true).toNat 8 8 = 0 ∧ isSet r Reg.eip_EIP_CFG_RELIABLE = true ∧ isSet (putF Reg.eip_EIP_CFG_RELIABLE 0 r) Reg.eip_EIP_CFG_RELIABLE = false ∧
      groupCrc ws (t 3 true) = (t 3 true).toNat % 256 ∧ bitsN (t 3 true).toNat 8 8 = 3 ∧ groupCrc ws (t 0 false) ≠ (t 0 false).toNat % 256 ∧
      full.eip.groups.length = 64) ∧
    (bitN s.pins.trigIn 2 ≠ true ∧ bitN (getF s Reg.trig_TRIG_IN_CFG_EDGE) 2 ≠ true) ∧ csrOk s .sec Reg.trig_TRIG_FORCE true = true := by
  unfold Bound; decide +kernel
/-! ### Witnesses: contexts, the journal, faults and recovery -/

/-- The context table controller is enabled. -/
def Tests.table (s : State) : State := s |> putF (enabledRef Reg.ctt_BLK_CTRL) 1 |> putF Reg.ctt_BLK_CTRL_EN 1

/-- Context 9 is in a state of R318. -/
def Tests.inState (st : Nat) : State := setDState 9 st (Tests.context 0)

/-- A descriptor without slots: K 16, one contributor, multicast route. -/
def Tests.ctxDesc : Nat := 15 * 2 ^ 24 + 2 ^ 48 + 2 ^ 170

theorem witness_ContextCommands :
    let s := Tests.table Tests.up
    let at' (st : Nat) := Tests.table (Tests.inState st)
    let busy := setF Reg.ctt_CTX_CMD_STATUS_BUSY s
    let rec' := setDRecovering 9 true (at' stRunning)
    let prot (st v : Nat) := dPut 9 8 2 v (dPut 9 3 1 1 (at' st))
    let arg (v : Nat) := putF Reg.ctt_CTX_CMD_ARG_ARG v (at' stOverrun)
    let image (crc : Nat) := Tests.table Tests.memory |> putF Reg.ctt_CTX_CMD_ARG_ARG ((mainBase + 0x1000) / 4096 + 5 * 2 ^ 48)
      |> wrNum (mainBase + 0x1000) 64 Tests.ctxDesc |> wrNum (mainBase + 0x1044) 4 crc
    let crc := crc32c (getBytes (image 0).mem (mainBase + 0x1000) 68)
    let full (crc : Nat) := putF Reg.ctt_CTX_CMD_ARG_ARG ((mainBase + 0x1000) / 4096 + 1 * 2 ^ 32 + 65535 * 2 ^ 48) (image crc)
    let load := wrWords (Reg.ctt_CTX_STAGE 0) Tests.ctxDesc 16 s
    (Bound s ∧ csrOk s .sec Reg.ctt_CTX_CMD true = true ∧ csrOk busy .sec Reg.ctt_CTX_CMD true = true ∧ descLost s 9 = false ∧
      blkEnabled s Reg.ctt_BLK_CTRL = true ∧ isSet s Reg.ctt_BLK_CTRL_EN = true ∧ isSet s Reg.ctt_CTX_CMD_STATUS_BUSY = false ∧
      isSet busy Reg.ctt_CTX_CMD_STATUS_BUSY = true ∧ (List.range 4).any (fun r => regionPresent s.variant r && regionDown s r) = false ∧
      dRecovering s 9 = false ∧ dState s 9 = stFree ∧ fromOk s 3 9 = false) ∧
    (dRecovering rec' 9 = true ∧ csrOk rec' .sec Reg.ctt_CTX_CMD true = true ∧ descLost rec' 9 = false ∧ isSet rec' Reg.ctt_CTX_CMD_STATUS_BUSY = false) ∧
    (mainTakes (image crc) (mainBase + 0x1000) 72 = true ∧ mainWaits (image crc) (mainBase + 0x1000) 72 = false ∧
      dState (setDState 5 stLoaded (image crc)) 5 ≠ stFree ∧
      bitsN (cmdArg (image crc)) 0 32 * 4096 = mainBase + 0x1000 ∧
      crc32c (getBytes (image crc).mem (mainBase + 0x1000) 68) = rdNum (image crc) (mainBase + 0x1044) 4 ∧
      crc32c (getBytes (image (crc + 1)).mem (mainBase + 0x1000) 68) ≠ rdNum (image (crc + 1)) (mainBase + 0x1044) 4 ∧
      imageFirst (image crc) = 5 ∧ imageCount (image crc) = 1 ∧ (image crc).ecc = [] ∧
      (imageIds (image crc)).any (dRecovering (image crc)) = false ∧ (imageIds (image crc)).any (fun c => dState (image crc) c != stFree) = false ∧
      (imageIds (image crc)).any (dRecovering (setDRecovering 5 true (image crc))) = true ∧
      65536 < imageFirst (full crc) + imageCount (full crc) ∧ descOk (image crc) 5 (rdNum (image crc) (mainBase + 0x1000) 64) = true ∧ dState (image crc) 5 = stFree) ∧
    (stagedDesc load = Tests.ctxDesc ∧ descOk load 9 (stagedDesc load) = true ∧ descOk s 9 (stagedDesc s) = false) ∧
    (dState (at' stLoaded) 9 = stLoaded ∧ dProt (at' stLoaded) 9 = false ∧ csrOk (at' stLoaded) .sec Reg.ctt_CTX_CMD true = true ∧
      (dProt (prot stLoaded 0) 9 && (!dRingEn (prot stLoaded 0) 9 || !ocrCfg (prot stLoaded 0) (dRing (prot stLoaded 0) 9) 6)) = true) ∧
    (dState (at' stRunning) 9 = stRunning ∧ dState (at' stPaused) 9 = stPaused ∧ dState (at' stOverrun) 9 = stOverrun ∧ dState (at' stFaulted) 9 = stFaulted) ∧
    (cmdArg (arg 0) % 2 ^ 16 = 0 ∧ cmdArg (arg 3) % 2 ^ 16 = 3 ∧ dState (arg 3) 9 = stOverrun) ∧
    (fromOk (prot stRunning 0) 8 9 = true ∧ dProt (prot stRunning 0) 9 = true ∧ dCkptValid (prot stRunning 0) 9 = 0 ∧
      dCkptValid (prot stRunning 1) 9 ≠ 0 ∧ fromOk (at' stRunning) 9 9 = true ∧ fromOk (at' stRunning) 8 9 = true ∧ running (at' stRunning) 9 = true) := by
  unfold Bound; decide +kernel

theorem witness_ContextProgress :
    let s := Tests.table (Tests.inState stRunning)
    let lim (s : State) := modCtx 9 (fun r => { r with limit := some 3, complete := 3 }) s
    let p := { lim s with cttCmd := some (4, 9) }
    let d := lim (Tests.inState stDraining)
    let c := modCtx 9 (fun r => { r with clearing := true }) (Tests.inState stLoaded)
    let w (st op : Nat) := { Tests.table (Tests.inState st) with cttCmd := some (op, 9), cttWaits := true }
    (Bound s ∧ descLost s 9 = false ∧ blkEnabled s Reg.ctt_BLK_CTRL = true ∧ dState s 9 = stRunning) ∧
    (dState p 9 = stRunning ∧ dRecovering p 9 = false ∧ (ctxRun p 9).limit = some 3 ∧ (ctxRun p 9).complete = 3 ∧ coresOfCtx p 9 = [0] ∧
      (core p 0).applying = none ∧ inHand p 4 9 = true) ∧
    (dState d 9 = stDraining ∧ dRecovering d 9 = false ∧ (ctxRun d 9).limit = some 3 ∧ (ctxRun d 9).complete = 3) ∧
    ((ctxRun c 9).clearing = true ∧ itemsInFlight c 9 = false ∧ slotsOf c 9 = [(0, 2)]) ∧
    ((w stRunning 6).cttWaits = true ∧ namesRecovering (w stRunning 6) 6 9 = false ∧ fromOk (w stRunning 6) 6 9 = false ∧
      (List.range 4).any (fun r => regionPresent (w stRunning 6).variant r && regionDown (w stRunning 6) r) = false ∧
      dState (w stOverrun 6) 9 = stOverrun) := by
  unfold Bound; decide +kernel
/-- Both journal rings lie in main memory; a record waits. -/
def Tests.journal : State :=
  { Tests.memory with journal := [⟨9, 0, false, 5, 7⟩] } |> putF (enabledRef Reg.jrn_BLK_CTRL) 1
    |> putF Reg.jrn_JRN_BASE_A_BASE 0x40000 |> putF Reg.jrn_JRN_BASE_B_BASE 0x40001

/-- Main memory is up and context 9, protected, runs; its checkpoint buffers lie in main memory. -/
def Tests.protected : State :=
  { (Tests.slot Tests.memory |> wrNum (descAt Tests.up 9) 20 (0xA + 5 * 2 ^ 128) |> putF Reg.tb_TB_WICKET_WICKET 5) with ctxs := [(9, {})] }
    |> dPut 9 320 28 (mainBase / 4096 + 2) |> dPut 9 348 28 (mainBase / 4096 + 4) |> dPut 9 376 8 1

theorem witness_JournalAndCheckpoints :
    let s := Tests.journal
    let one := putF Reg.jrn_JRN_BASE_B_BASE 0 s
    let deg (two : Bool) := setJrnState 1 two (setJrnState 0 true s)
    let copy := putF Reg.jrn_JRN_HEAD_INDEX 2 (deg true)
    let bad := putF Reg.jrn_JRN_BASE_A_BASE 0 copy
    let none' := putF Reg.jrn_JRN_BASE_A_BASE 0 one
    let c := modCore 0 (fun k => { k with ckptHold := [2], released := [(2, 6)], soma := [(2, 5)] }) Tests.protected |> putF (enabledRef (Reg.core_BLK_CTRL 0)) 1
      |> modCtx 9 (fun r => { r with released := 6 })
    let k (d : Bool) : Ckpt := { ctx := 9, buf := 1, step := 5, iseq := 0, jpos := 0, oseq := 0, slots := 0, bytes := [], discard := d }
    let e (d : Bool) := { Tests.protected with ckpts := [k d] }
    let r (n : Nat) := modCtx 9 (fun r => { r with replay := some 0, replayed := n, complete := 9 }) (setDRecovering 9 true Tests.protected)
    (Bound s ∧ s.ecc = [] ∧ s.journal = [⟨9, 0, false, 5, 7⟩] ∧ blkEnabled s Reg.jrn_BLK_CTRL = true ∧ degraded s = false ∧ jrnHeld s = false ∧
      mainTakes s (jrnAt s 0 0) 16 = true ∧ mainTakes s (jrnAt s 1 0) 16 = true ∧ jrnAt s 0 0 + 16 ≤ jrnAt s 1 0) ∧
    (mainTakes one (jrnAt one 0 0) 16 = true ∧ mainTakes one (jrnAt one 1 0) 16 = false ∧ jrnHeld one = false ∧
      mainTakes none' (jrnAt none' 0 0) 16 = false ∧ mainTakes none' (jrnAt none' 1 0) 16 = false ∧ jrnHeld none' = false) ∧
    (degraded (deg false) = true ∧ resyncing (deg false) = false ∧ failedGroup (deg false) = 0 ∧ degraded (deg true) = true ∧
      resyncing (deg true) = true ∧ (deg false).jrnOff = false ∧ groupUsable copy 1 = true ∧ copyHeld copy = false ∧
      (jrnCopy 1 0 0 2 copy).2 = true ∧ groupUsable bad 1 = true ∧ copyHeld bad = false ∧ (jrnCopy 1 0 0 2 bad).2 = false ∧ resyncing bad = true ∧ jrnHeld (deg false) = false ∧
      mainTakes (deg false) (jrnAt (deg false) 1 0) 16 = true ∧ jrnBase s 0 + 16 * jrnSize s ≤ jrnBase s 1) ∧
    (dProt c 9 = true ∧ dRecovering c 9 = false ∧ atCut c 9 = true) ∧
    (descLost (e false) 9 = false ∧ (e false).ckpts.find? (fun k => k.ctx == 9) = some (k false) ∧ groupUsable (e false) 1 = true ∧
      mainTakes (e false) (dCkpt (e false) 9 1) (ckptImage (k false)).length = true ∧
      mainWaits (e false) (dCkpt (e false) 9 1) (ckptImage (k false)).length = false ∧
      mirrorAt (e false) 9 + 64 ≤ dCkpt (e false) 9 1 ∧ (k true).discard = true) ∧
    ((ctxRun (r 3) 9).replay = some 0 ∧ replayWaits (r 3) 0 = false ∧ replayWaits (r 9) 0 = false ∧ dRecovering (r 3) 9 = true ∧ descLost (r 3) 9 = false ∧ replayOver (r 3) 9 = false ∧ replayOver (r 9) 9 = true) := by
  unfold Bound; decide +kernel

theorem witness_FaultsAndRecovery :
    let s := Tests.up
    let f (kind level : Nat) : FaultRep := ⟨level, 0, kind, 0, 0x1000, none⟩
    let up (level : Nat) := { s with faultsUp := [f 6 level] }
    let a (done : Nat) := { s with fmOrder := [(Reg.fmChip_FM_STATUS, [2])] } |> putF ⟨fmRecAt Reg.fmChip_FM_STATUS 2, 1, 1⟩ done
    let c (kind : Nat) := { s with chipFaults := [{ f kind 3 with entry := some 0 }] }
    let full := { c 4 with rows := [⟨0, 5, false⟩, ⟨0, 6, false⟩] }
    let r (t : State) := { setDRecovering 9 true t with recovs := [⟨[9], [], false⟩] }
    let img := Tests.protected |> dPut 9 8 2 1 |> wrNum (mainBase + 0x2000 + 60) 4 (crc32c (List.replicate 64 0))
    (Bound s ∧ (up 0).faultsUp.find? (handlerUp (up 0)) = some (f 6 0) ∧ (up 2).faultsUp.find? (handlerUp (up 2)) = some (f 6 2) ∧
      (up 3).faultsUp.find? (handlerUp (up 3)) = some (f 6 3) ∧ fmFree (up 3) Reg.fmChip_FM_STATUS 64 = some 0 ∧
      fmFree { s with fmOrder := [(Reg.fmChip_FM_STATUS, List.range 64)] } Reg.fmChip_FM_STATUS 64 = none) ∧
    (regionPresent s.variant 3 = true ∧ fmFree s (Reg.fmReg_FM_STATUS 3) 16 = some 0) ∧
    (pageCap (a 0) Reg.fmChip_FM_STATUS = some 64 ∧ csrOk (a 0) .sec (Reg.fmChip_FM_STATUS + 8) true = true ∧
      (fmUsed (a 0) Reg.fmChip_FM_STATUS).contains 2 = true ∧ (rdWord (a 0) (fmRecAt Reg.fmChip_FM_STATUS 2)).getLsbD 1 = false ∧
      (rdWord (a 1) (fmRecAt Reg.fmChip_FM_STATUS 2)).getLsbD 1 = true) ∧
    (∀ k ∈ [4, 5, 6, 7, 8, 9, 10, 11, 12, 13, 14], (c k).chipFaults.find? (actNow (c k)) = some { f k 3 with entry := some 0 }) ∧
    ((c 4).rows.length < 2 ∧ full.chipFaults.find? (actNow full) = some { f 4 3 with entry := some 0 } ∧
      ¬ (full.rows.filter (fun r => r.slice == 0 && !r.retired)).length < 2 ∧ full.hold = [] ∧
      bitN (getF (c 6) Reg.glob_SPARE_USED_BLOCK) (blockOfCore 0) = false ∧ requestResult (c 6) none 4 0 = none ∧
      regionDown (c 6) 0 = false) ∧
    ((r Tests.protected).recovs.find? (isolated (r Tests.protected)) = some ⟨[9], [], false⟩ ∧ descLost (r Tests.protected) 9 = false ∧
      dRecovering (r Tests.protected) 9 = true ∧ ckptChoice (r Tests.protected) 9 = none ∧ (r Tests.protected).hold = [] ∧
      ckptChoice (r img) 9 = some 0) := by
  unfold Bound; decide +kernel
/-! ### Witnesses: Ethernet and the event transport -/

/-- Port 0 is enabled and up. -/
def Tests.port : State :=
  Tests.memory |> putF (enabledRef (Reg.eth_BLK_CTRL 0)) 1 |> putF (Reg.eth_BLK_CTRL_EN 0) 1 |> putF (Reg.eth_ETH_STATUS_STATE 0) 7

/-- The AET is enabled. -/
def Tests.aet (s : State) : State := s |> putF (enabledRef Reg.aet_BLK_CTRL) 1 |> putF Reg.aet_BLK_CTRL_EN 1

theorem witness_EthernetPorts :
    let s := Tests.port
    let down := putF (Reg.eth_ETH_STATUS_STATE 0) 0 s
    let f : List Byte := [1, 2, 3]
    let r := s |> putF (Reg.swr_SWR_RX_RING_EN 0) 1 |> putF (Reg.swr_SWR_RX_POST_POST 0) 1
      |> putF (Reg.swr_SWR_RX_RING_BASE 0) ((mainBase + 0x1000) / 256) |> wrNum (mainBase + 0x1000) 16 (mainBase + 0x2000 + 2048 * 2 ^ 64)
    let x := s |> putF (Reg.swr_SWR_TX_RING_EN 0) 1 |> putF (Reg.swr_SWR_TX_POST_POST 0) 1
      |> putF (Reg.swr_SWR_TX_RING_BASE 0) ((mainBase + 0x1000) / 256) |> wrNum (mainBase + 0x1000) 16 (mainBase + 0x2000 + 14 * 2 ^ 64)
    let a := swrDesc r (Reg.swr_SWR_RX_RING_BASE 0) (Reg.swr_SWR_RX_RING_LOG2 0) 0
    let b := swrDesc x (Reg.swr_SWR_TX_RING_BASE 0) (Reg.swr_SWR_TX_RING_LOG2 0) 0
    let port := getF s Reg.aet_AET_CFG_UDP_PORT
    let q : List Byte := List.replicate 12 0 ++ [8, 0, 0x45, 0, 0, 0, 0, 0, 0, 0, 64, 17] ++ List.replicate 12 0 ++
      [BitVec.ofNat 8 (port / 256), BitVec.ofNat 8 port, 0, 0, 0, 0, 0xAE]
    let z := q ++ List.replicate 23 0
    (Bound s ∧ ethOn down 0 = true ∧ portUp down 0 = false ∧ portUp s 0 = true ∧ blkEnabled s (Reg.eth_BLK_CTRL 0) = true ∧
      isSet s (Reg.eth_ETH_CFG_TAGGED 0) = false ∧ isSet s (Reg.swr_SWR_RX_RING_EN 0) = false ∧ aetAt s 0 f = none ∧
      f.length ≤ frameLimit s 0 ∧ frameLimit s 0 = 1518 ∧ aetAt s 0 q = some 42 ∧ q.length < 42 + 24 ∧ aetAt s 0 z = some 42 ∧
      aetRight s z 42 = true ∧ aetOn (Tests.aet s) = true ∧ aetAt (Tests.aet s) 0 z = some 42) ∧
    (portUp r 0 = true ∧ isSet r (Reg.swr_SWR_RX_RING_EN 0) = true ∧ getF r (Reg.swr_SWR_RX_DONE_DONE 0) = 0 ∧
      getF r (Reg.swr_SWR_RX_POST_POST 0) = 1 ∧ mainTakes r a 32 = true ∧ rdBits r a 0 40 = mainBase + 0x2000 ∧ f.length ≤ rdBits r a 64 14 ∧
      mainTakes r (mainBase + 0x2000) 3 = true ∧
      a + 32 ≤ mainBase + 0x2000 ∧ r.rxIn = [] ∧ r.ecc = [] ∧ swrHeld r a 3 = false ∧
      swrHeld (putF (Reg.memCh_MEM_CH_STATUS_STATE 0) 3 r) a 3 = true) ∧
    csrOk s .sec (Reg.swr_SWR_TX_POST 0) true = true ∧
    (ethOn x 0 = true ∧ portUp x 0 = true ∧ isSet x (Reg.swr_SWR_TX_RING_EN 0) = true ∧ getF x (Reg.swr_SWR_TX_POST_POST 0) = 1 ∧
      mainTakes x b 32 = true ∧ rdBits x b 64 14 = 14 ∧ rdBits x b 0 40 = mainBase + 0x2000 ∧ mainTakes x (mainBase + 0x2000) 14 = true ∧
      swrHeld x b 14 = false) := by
  unfold Bound; decide +kernel

/-- The AET is enabled, device 5 is a valid peer, and its session is in a state. -/
def Tests.session (st : Nat) : State :=
  Tests.port |> putF (enabledRef Reg.aet_BLK_CTRL) 1 |> putF Reg.aet_BLK_CTRL_EN 1 |> putF (Reg.aet_PEER_VALID 5) 1
    |> putF (Reg.aet_SESS_STATUS_STATE 5) st

def Tests.hdr (seq ack inc : Nat) : AetHdr := ⟨0, 5, 0, 1, 0xAE, 0, seq, ack, 0, 256, inc⟩

theorem witness_TransportSessions :
    let s := Tests.session 1
    let h := Tests.hdr 0 0 1
    let asked := modSess 5 (fun g => { g with hello := true }) s
    let o := modSess 5 (fun g => { g with unacked := [{ seq := 3, body := .close 7 }, { seq := 4, body := .close 8, sends := 9 }], rxSince := 2 }) (Tests.session 2)
    let both := o |> putF (Reg.eth_ETH_STATUS_STATE 1) 7
    (Bound s ∧ portUp s h.port = true ∧ h.magic = 0xAE ∧ { h with len := 16 }.dst = ownChip s ∧ { h with dst := 1 }.dst ≠ ownChip s ∧ aetOn s = true ∧ peerValid s 5 = true ∧ sessState s 5 = 1 ∧
      (sess s 5).hello = false ∧ peerValid s 6 = false ∧ max 1 1 ≤ min 1 1 ∧ min 0 1 < max 1 1 ∧ ¬ ((sess s 5).hello = true ∧ ownChip s < 5)) ∧
    (sessState asked 5 = 1 ∧ (sess asked 5).hello = true ∧ h.incarnation = ((sess asked 5).incarnation + 1) % 2 ^ 32) ∧
    (sessOpen o 5 = true ∧ (Tests.hdr 0 4 0).incarnation = (sess o 5).incarnation ∧ h.incarnation ≠ (sess o 5).incarnation ∧
      (sess o 5).queue = [] ∧ ((Tests.hdr 0 4 0).ack + 2 ^ 32 - (sess o 5).peerAck) % 2 ^ 32 < 2 ^ 31 ∧ 0 < (sess o 5).rxSince ∧
      (sess o 5).unacked.find? (fun k => k.seq == 3) = some { seq := 3, body := .close 7 } ∧ 1 < retryLimit o ∧ retryLimit o ≤ 9 ∧
      creditAdmits (sess o 5) 3 = true ∧ creditAdmits (sess (modSess 5 (fun g => { g with peerCredit := 3 }) o) 5) 3 = false ∧
      portUp o 1 = false ∧ portUp both 1 = true ∧ sessPort both 5 = 0) ∧
    (sessOpen o 5 = true ∧ peerValid o 5 = true ∧ min 0 1 < max 1 1 ∧ (sess o 5).incarnation ≠ h.incarnation) ∧
    (sessState (Tests.session 3) 5 = 3 ∧ csrOk (Tests.session 3) .sec (Reg.aet_SESS_CTRL 5) true = true) := by
  unfold Bound; decide +kernel

theorem witness_VolleysAndMarks :
    let h := Tests.hdr 0 0 0
    let s := Tests.session 2
    let e := s |> putF (Reg.volTab_DIR_VALID 3) 1 |> putF (Reg.volTab_DIR_CTX 3) 9
    let seg : Segment := ⟨3, 0, true, 0, 0, 0, 7, [Tests.event 0]⟩
    let m := modSess 5 (fun g => { g with marksFrom := some 2 }) s
    let r := putF Reg.aet_AET_REF_BASE_BASE ((mainBase + 0x1000) / 4096) s
    let a : Arrival := ⟨{ ty := .event, src := 0, dst := 4 * chipPorts.getD 7 0 + 3, data := (mkEvent 0 0 0 0xF801 9 0 1 0 0).toNat }, none⟩
    let v := setPortIn (chipPorts.getD 7 0) [a] (Tests.context 5)
    let x := v |> putF Reg.vol_BLK_CTRL_EN 1 |> putF (Reg.volTab_VSTREAM_VALID 2) 1 |> putF (Reg.volTab_VSTREAM_SRC_CTX 2) 9
    let c := putF Reg.tb_TB_WICKET_WICKET 5 s
    let w := s |> putF (enRef Reg.tb_BLK_CTRL) 1 |> putF (enabledRef Reg.tb_BLK_CTRL) 1 |> putF Reg.tb_TB_CFG_START_SRC 2
    (Bound s ∧ portUp s 0 = true ∧ h.dst = ownChip s ∧ aetOn s = true ∧ sessOpen s 5 = true ∧ h.incarnation = (sess s 5).incarnation ∧
      h.ack = (sess s 5).peerAck ∧ h.sack = 0 ∧ (sess s 5).queue = [] ∧ h.seq = (sess s 5).rxNext ∧ (sess s 5).rxHeld = [] ∧
      h.magic = 0xAE ∧ (bodyBytes 5 (.close 7)).length = 8 ∧ (bodyBytes 5 (.volley seg)).length = 26 ∧ (sess s 5).rxUsed < 256 ∧ s.admIn = []) ∧
    (sessOpen e 5 = true ∧ seg.events = [Tests.event 0] ∧ evCtx (Tests.event 0) = getF e (Reg.volTab_DIR_CTX 3) ∧ isSet e (Reg.volTab_DIR_VALID 3) = true ∧
      getF e (Reg.volTab_DIR_CHIP 3) = ownChip e) ∧
    ((sess s 5).marksFrom = none ∧ (sess m 5).marksFrom ≠ none) ∧
    (mainTakes r (mainBase + 0x1000) 16 = true ∧ ringWaits r true (mainBase + 0x1000) 256 Reg.aet_AET_REF_PROD_PROD = false ∧
      ringWaits s true 0 256 Reg.aet_AET_REF_PROD_PROD = false ∧ getF r Reg.aet_AET_REF_BASE_LOG2 = 0 ∧
      ringWaits (putF (Reg.memCh_MEM_CH_STATUS_STATE 0) 3 r) true (mainBase + 0x1000) 256 Reg.aet_AET_REF_PROD_PROD = true ∧ getF r Reg.aet_AET_REF_BASE_BASE * 4096 = mainBase + 0x1000 ∧
      mainTakes s (getF s Reg.aet_AET_REF_BASE_BASE * 4096) 16 = false) ∧
    (256 ≤ ((Tests.hdr 300 0 0).seq + 2 ^ 32 - (sess s 5).rxNext) % 2 ^ 32 ∧
      2 ^ 31 ≤ ((Tests.hdr (2 ^ 32 - 1) 0 0).seq + 2 ^ 32 - (sess s 5).rxNext) % 2 ^ 32) ∧
    (takeArrivalBy (fun a => decide (0xF800 ≤ evAxon (BitVec.ofNat 64 a.pkt.data))) (portIn v (chipPorts.getD 7 0)) = some (a, []) ∧
      egressOpen v 9 = false ∧ egressOpen x 9 = true ∧ streamOf x 9 = some 2 ∧
      takeArrivalBy (fun a => decide (0xF800 ≤ evAxon (BitVec.ofNat 64 a.pkt.data))) (portIn x (chipPorts.getD 7 0)) = some (a, []) ∧
      evKind (BitVec.ofNat 64 a.pkt.data) ≤ 1 ∧ evAxon (BitVec.ofNat 64 a.pkt.data) < 0xFA00) ∧
    (aetOn c = true ∧ tget 0 (ownChip c) c.aet.closedW = 0 ∧ wicketDone c 0 = true ∧ sessOpen c 5 = true ∧ tget 0 5 c.aet.closedW ≤ 0) ∧
    ((tbRuns s && getF s Reg.tb_TB_STATE_STATE == 0 && startSrc s == 2) = false ∧
      (tbRuns w && getF w Reg.tb_TB_STATE_STATE == 0 && startSrc w == 2) = true) := by
  unfold Bound; decide +kernel
/-! ### Witnesses: resets, bring-up and clocks -/

theorem witness_Resets :
    let s := Tests.up
    let busy := addReset ⟨4, 9, none, false⟩ s
    let p2 := setRegionPwr 1 2 s
    let img := setF Reg.boot_BOOT_IMAGE_VALID s
    let q (k n : Nat) : RunningReset := ⟨k, n, some .sec, false⟩
    let w (k n : Nat) := addReset (q k n) s
    (Bound s ∧ csrOk s .sec Reg.rst_RST_CMD true = true ∧ mayRequest .sec = true ∧ requestResult s (some .sec) 4 1024 = some 4 ∧
      requestResult busy (some .sec) 4 9 = some 3 ∧ csrOk busy .sec Reg.rst_RST_CMD true = true) ∧
    (requestResult s (some .sec) 4 9 = none ∧ regionDown s (regionOfCore 9) = false ∧ regionOfCore 1023 = 3) ∧
    (requestResult (setRegionPwr 0 2 s) (some .sec) 4 9 = none ∧ regionDown (setRegionPwr 0 2 s) (regionOfCore 9) = true) ∧
    (requestResult s (some .sec) 3 1 = none ∧ regionDown s 1 = false ∧ regionDown p2 1 = true) ∧
    (requestResult s (some .sec) 2 0 = none ∧ requestResult s (some .sec) 1 0 = none ∧ isSet s Reg.boot_BOOT_IMAGE_VALID = false ∧
      requestResult img (some .sec) 1 0 = none ∧ isSet img Reg.boot_BOOT_IMAGE_VALID = true ∧ csrOk img .sec Reg.rst_RST_CMD true = true) ∧
    (findReset (w 3 1) 3 1 = some (q 3 1) ∧ (w 3 1).power.railHeld = [] ∧ (∀ r ∈ (w 3 1).resets, r.kind ≠ 2)) ∧
    (findReset (w 4 9) 4 9 = some (q 4 9) ∧ (w 4 9).cores = [] ∧ (w 4 9).recovs = [] ∧ (∀ r ∈ (w 4 9).resets, r.kind ≠ 2)) ∧
    ((w 2 0).resets.find? (fun r => r.kind == 2) = some (q 2 0) ∧ (w 2 0).power.railHeld = [] ∧
      (addReset { q 2 0 with waits := true } s).resets.find? (fun r => r.kind == 2) = some { q 2 0 with waits := true } ∧
      (addReset { q 2 0 with waits := true } s).journal = [] ∧
      (computeBegin (some .sec) { s with journal := [⟨9, 0, false, 5, 7⟩] }).journal ≠ []) := by
  unfold Bound; decide +kernel

theorem witness_BringUpAndClocks :
    let s := State.reset
    let st (n : Nat) := putF Reg.glob_CHIP_STATUS_STATE n s
    let low := { s with pins := { s.pins with rstN := false } }
    let ref := putF Reg.clk_CLK_STATUS_REF_OK 15 (setF Reg.glob_FUSE_STATUS_LOADED (st 4))
    let lost := putF Reg.clk_CLK_STATUS_REF_OK 0 ref
    let lock := putF Reg.clk_CLK_STATUS_LOCK 0x1FFF (st 4)
    let warm := putF Reg.rst_RST_CFG_PERST_WARM 1 (st 4)
    (Bound s ∧ s.power.p4 = false ∧ low.pins.rstN = false ∧ low.power.p4 = false) ∧
    (chipState s = 0 ∧ s.pins.rstN = true ∧ suppliesUp s = true ∧ s.power.p3 = false) ∧
    (chipState (st 1) = 1 ∧ isSet (st 1) Reg.rst_BIST_INFO_VALID = false ∧ chipState (st 2) = 2 ∧
      isSet (st 1) Reg.pwr_PWR_STATUS_FROM_P3 = false ∧ (∀ b, b < 64 → (badRows [(3, 7), (3, 9)] b).length ≤ 2) ∧ blockPresent s 3 = true ∧
      2 < (badRows [(3, 7), (3, 9), (3, 11)] 3).length) ∧
    ((∀ r ∈ [0, 1, 2, 3], bitN (getF ref Reg.clk_CLK_STATUS_REF_OK) r = true ∧ bitN (getF lost Reg.clk_CLK_STATUS_REF_OK) r = false) ∧
      isSet lost Reg.glob_FUSE_STATUS_LOADED = true) ∧
    ({ lost with holdover := true }.power.p3 = false ∧ chipState { lost with holdover := true } ≠ 6 ∧
      requestResult { lost with holdover := true } none 1 0 = none) ∧
    (bitN (getF lock Reg.clk_CLK_STATUS_LOCK) 2 = true ∧ bitN (getF lock Reg.clk_CLK_STATUS_LOCK) 10 = true ∧ requestResult lock none 1 0 = none ∧
      chipState lock ≠ 6) ∧
    (isSet s Reg.rst_RST_CFG_PERST_WARM = false ∧ isSet warm Reg.rst_RST_CFG_PERST_WARM = true ∧ requestResult warm none 1 0 = none) ∧
    (csrOk Tests.up .sec Reg.clk_CLK_MEAS_SEL true = true ∧ { s with measuring := true }.measuring = true) := by
  unfold Bound; decide +kernel
/-! ### Witnesses: power -/

theorem witness_PowerStates :
    let s := putF Reg.pwr_PWR_P1_CFG_P1_EN 15 Tests.up
    let busy := setF Reg.pwr_PWR_STATUS_BUSY s
    let z := modCore 9 (fun k => { k with asleep := true }) s
    let zb := modPower (fun p => { p with blocksAsleep := [3] }) s
    let zz := (coresOfBlock 3).foldl (fun t c => modCore c (fun k => { k with asleep := true }) t) s
    let g := govAdd ⟨true, 3, false⟩ (govAdd ⟨false, 9, false⟩ s)
    let w := s |> setF Reg.pwr_PWR_WAKE_CFG_EN |> putF Reg.pwr_PWR_WAKE_CFG_ADDR 0x20 |> putF Reg.pwr_PWR_WAKE_CFG_P2_MASK 15
    let st (n : Nat) := setRegionPwr 1 n w
    let bdu := putF (enabledRef (Reg.bdu_BLK_CTRL ((blocksOfRegion 1).headD 0))) 1 s
    let p3 := modPower (fun p => { p with p3 := true, waking := true }) w
    (Bound s ∧ corePresent s 9 = true ∧ regionRuns s (regionOfCore 9) = true ∧ coreHeld s 9 = false ∧ p1On s (regionOfCore 9) = true ∧
      (core s 9).asleep = false ∧ coreIdle s 9 = true ∧ (core z 9).asleep = true) ∧
    (blockPresent s 3 = true ∧ regionRuns zz (regionOfBlock 3) = true ∧ p1On zz (regionOfBlock 3) = true ∧ blockAsleep zz 3 = false ∧
      blockIdle zz 3 = true ∧ blockAsleep zb 3 = true) ∧
    (g.power.gov.find? (fun a => govRegion a == regionOfCore 9) = some ⟨false, 9, false⟩ ∧ coreIdle g 9 = true ∧ NothingWaits g) ∧
    (csrOk s .sec Reg.pwr_PWR_CMD true = true ∧ isSet busy Reg.pwr_PWR_STATUS_BUSY = true ∧ csrOk busy .sec Reg.pwr_PWR_CMD true = true ∧
      isSet s Reg.pwr_PWR_STATUS_BUSY = false ∧ regionPresent s.variant 1 = true ∧
      regionPresent { s with variant := .ay512 }.variant 3 = false ∧ p2Why bdu 1 false = some 2 ∧ p2Why s 1 false = none ∧
      inP2 (st 2) 1 = true ∧ inP2 s 1 = false ∧ regionPwr s 1 ≠ 4) ∧
    (regionHeld (st 4) 1 = false ∧ regionPwr (st 1) 1 = 1 ∧ regionPwr (st 4) 1 = 4 ∧ bitN (st 4).pins.vcorePg 1 = true ∧ (st 4).resets = []) ∧
    (s.power.p3 = false ∧ w.power.p4 = false ∧ isSet w Reg.pwr_PWR_WAKE_CFG_EN = true ∧ getF w Reg.pwr_PWR_WAKE_CFG_ADDR = 0x20 ∧
      bitN (getF w Reg.pwr_PWR_WAKE_CFG_P2_MASK) 1 = true ∧ p3.power.p3 = true ∧ p3.power.waking = true ∧ suppliesUp p3 = true ∧
      p3.pins.rstN = true) := by
  unfold Bound NothingWaits; decide +kernel

theorem witness_VoltageAndSupplies :
    let s := Tests.up |> putF (Reg.pwr_PWR_VF_STATUS_MODE_OK 1) 1 |> putF (Reg.pwr_PWR_VF_STATUS_CUR_VMV 1) 800
      |> putF (Reg.pwr_PWR_VF_STATUS_CUR_MULT 1) 15 |> putF (Reg.pwr_PWR_VF_VMV 1) 800 |> putF (Reg.pwr_PWR_VF_MULT 1) 15
    let low := putF (Reg.pwr_PWR_VF_STATUS_CUR_MULT 1) 6 (putF (Reg.pwr_PWR_VF_MULT 1) 6 s)
    let v := modPower (fun p => { p with vPending := [(1, 700)], mPending := [(1, 9)] }) s
    let cap := setF Reg.pwr_PWR_CAP_EN s
    let floor := putF Reg.pwr_PWR_CAP_FLOOR_FLOOR 0xFFFF cap
    let est (k : Nat) : Nat := [5, 4, 3, 2].getD k 0
    let lows (s : State) := pickRegion est ((regions s).filter (fun k => regionPwr s k == 0 && decide (capFloor s k < curMult s k)))
    (Bound s ∧ csrOk s .sec (Reg.pwr_PWR_VF 1) true = true ∧ regionDown (setRegionPwr 1 2 s) 1 = true ∧ regionDown s 1 = false ∧
      vfFlags s 1 500 15 ≠ [] ∧ vfFlags low 1 700 6 = [] ∧ 700 ≠ getF low (Reg.pwr_PWR_VF_VMV 1) ∧ vfFlags s 1 800 9 = [] ∧
      getF s (Reg.pwr_PWR_VF_VMV 1) = 800 ∧ 9 ≠ curMult s 1) ∧
    (tfind 1 v.power.vPending = some 700 ∧ tfind 1 v.power.mPending = some 9) ∧ csrOk s .sec (Reg.pwr_PWR_PMBUS 1) true = true ∧
    (s.power.p3 = false ∧ s.power.p4 = false ∧ isSet s Reg.pwr_PWR_CAP_EN = false ∧ isSet cap Reg.pwr_PWR_CAP_EN = true ∧
      getF cap Reg.pwr_PWR_CAP_WATTS * 1000 < 2000000 ∧ (lows cap).isSome = true ∧ lows floor = none) ∧
    (bitN s.pins.vcorePg 1 = true ∧ regionPresent s.variant 1 = true ∧ bitN s.pins.vcoreEn 1 = true ∧ inP2 s 1 = false ∧ s.power.vDue = [] ∧
      (∀ k ∈ regions s, k ≠ 1 → clockStands s k = false) ∧ chipState s ≠ 0 ∧
      s.resets = []) ∧
    ({ s.pins with sysPg := false }.sysPg = false ∧ s.pins.sysPg = true ∧ s.pins.sysPwrEn = true ∧
      (modPower (fun p => { p with p4 := true }) s).power.p4 = true) := by
  unfold Bound; decide +kernel
/-! ### Witnesses: the security controller and the configuration loader -/

/-- An image header at the base of main memory: 16 KiB, one section. -/
def Tests.image (s : State) : State :=
  s |> wrNum mainBase 16 (0xAEF1 + 2 ^ 32 + 2 ^ 64) |> wrNum (mainBase + 16) 8 (0x4000 + 2 ^ 32) |> wrNum (mainBase + 0x20) 12 (2 ^ 32 * 0x2000 + 2 ^ 64 * 0x1000)

/-- A boot datagram for the device from fe80::1, port 500: OP, OFFSET and data. -/
def Tests.bootFrame (s : State) (op off : Nat) (data : List Byte) : List Byte :=
  let u := udp 1 (bootIp s) 16 500 46501 (toBytes op 4 ++ toBytes off 4 ++ toBytes 0 8 ++ data)
  be (bootMac s) 6 ++ be 1 6 ++ be 0x86DD 2 ++ ipv6 1 (bootIp s) u.length ++ u

def Tests.bootFields (s : State) (f : List Byte) : Option (Nat × Nat × List Byte) := (bootMsg s f).map (fun m => (m.op, m.offset, m.data))

theorem witness_BootDatagrams :
    let s := putF Reg.sec_SEC_STATUS_BOOT_SRC 2 Tests.memory
    aetBoot s = true ∧ s.ecc = [] ∧ offerCode s 0x10000 = 0 ∧
    Tests.bootFields s (Tests.bootFrame s 1 0x123 [7, 8, 9]) = some (1, 0x123, [7, 8, 9]) ∧ mainTakes s (mainBase + 0x123) 3 = true ∧
    mainWaits s (mainBase + 0x123) 3 = false ∧ mainTakes s (mainBase + 0x10000000) 3 = true ∧
    Tests.bootFields s (Tests.bootFrame s 1 0x10000000 [7]) = some (1, 0x10000000, [7]) ∧
    Tests.bootFields s (Tests.bootFrame s 2 0x10000 []) = some (2, 0x10000, []) ∧
    Tests.bootFields s (Tests.bootFrame s 2 0x10001 []) = some (2, 0x10001, []) ∧ Tests.bootFields s [1, 2, 3] = none := by
  decide +kernel

theorem witness_BootAndIdentity :
    let s := wrWord (Reg.mbx_MBX_CFG 60) 0x09 (wrWord (Reg.mbx_MBX_CFG 61) 0x90 Tests.memory)
    let k := { s with sec := { s.sec with idKey := some [1] } }
    let kt := putF (Reg.memCh_MEM_CH_STATUS_STATE 0) 3 k
    let u := { s with sec := { s.sec with unwrapDue := true } }
    let v := { Tests.image s with sec := { s.sec with verify := some ⟨0, none⟩ } }
    let f := { s with sec := { s.sec with verify := some ⟨0, none⟩ } }
    let spi := putF Reg.sec_SEC_STATUS_BOOT_SRC 1 s
    let image : List Byte := List.replicate 16 0 ++ [20, 0, 0, 0, 1, 2]
    (Bound s ∧ u.sec.unwrapDue = true ∧ u.power.p3 = false ∧ u.power.p4 = false) ∧
    (csrOk s (boxSender s 61) (Reg.mbx_MBX_DATA 61) true = true ∧ cfgReceiver (rdWord s (Reg.mbx_MBX_CFG 61)) = 9 ∧
      mbxParty (boxSender s 61) = some (cfgSender (rdWord s (Reg.mbx_MBX_CFG 61))) ∧ isSet s (Reg.mbx_MBX_STATUS_FULL 61) = false ∧
      cfgSender (rdWord s (Reg.mbx_MBX_CFG (resultBox 61))) = 9 ∧ cfgReceiver (rdWord s (Reg.mbx_MBX_CFG (resultBox 61))) = 0 ∧
      isSet s (Reg.mbx_MBX_STATUS_FULL 60) = false ∧ attestCode s 0x1000 = 0 ∧ attestCode f 0x1000 = 3 ∧ offerCode s 0 = 0 ∧
      s.sec.idKey = none ∧ mainWaits s (mainBase + 0x1000) 4096 = false ∧ k.sec.idKey ≠ none ∧ attestCode k 0x1000 = 0 ∧
      mainTakes k (mainBase + 0x1000) 4096 = true ∧ mainWaits k (mainBase + 0x1000) 4096 = false ∧ k.ecc = [] ∧ attestCode kt 0x1000 = 0 ∧
      mainWaits kt (mainBase + 0x1000) 4096 = true ∧ mainTakes { k with csr := [] } (mainBase + 0x1000) 4096 = false) ∧
    (bootSrc spi = 1 ∧ served spi = true ∧ spi.sec.verify = none ∧ (image.take (ofBytes ((image.drop 0x10).take 4))).length = 20 ∧
      mainTakes spi mainBase 20 = true ∧ mainWaits spi mainBase 20 = false ∧ spi.ecc = []) ∧
    (v.sec.verify = some ⟨0, none⟩ ∧ verifyRuns v = true ∧ verifyRuns f = true ∧ bootResult f mainBase = 1 ∧
      headerOk v mainBase = true ∧ (∀ q ∈ imgTable v mainBase, q.ty ≠ 3 ∧ q.ty ≠ 4) ∧ readable v mainBase 0x2000 = true ∧ readable v mainBase (imgLen v mainBase) = true) := by
  unfold Bound; decide +kernel

/-- An image whose key and signature are good boots: nothing else is judged. -/
theorem witness_BootAndIdentity_good (s : State) (h : headerOk s mainBase = true) (r : readable s mainBase 0x2000 = true)
    (m : readable s mainBase (imgLen s mainBase) = true) (k : keyOk s mainBase = true) (g : signatureOk s mainBase = true) :
    bootResult s mainBase = 0 := by
  simp [bootResult, h, r, m, k, g]

theorem witness_ProtectionAndLoader :
    let s := Tests.memory
    let p : Party := .app 0 true
    let st := { s with sec := { s.sec with staged := some 7 } }
    let bad := wrWord (Reg.protShadow_PROT_SHADOW 259) 0x1FF (wrWord (Reg.protShadow_PROT_SHADOW 258) 0x1FF0000 st)
    let busy := setF Reg.sec_CFGLOAD_STATUS_BUSY s
    let at' := mainBase + 0x1000
    let core := busy |> putF Reg.sec_CFGLOAD_ADDR_ADDR (at' / 8) |> wrNum at' 16 (2 + 5 * 2 ^ 64)
    let signed (n : Nat) (s : State) := wrNum (at' + n + 4) 4 (crc32c (getBytes s.mem at' (n + 4))) s
    let done := signed 32 (core |> wrNum at' 16 (2 + 2 ^ 16 + 5 * 2 ^ 64) |> wrNum (at' + 16) 16 (0x100 + 2 * 2 ^ 32 + 0xABCD * 2 ^ 64))
    let past := signed 32 (core |> wrNum at' 16 (2 + 2 ^ 16 + 5 * 2 ^ 64) |> wrNum (at' + 16) 16 (0x3FFFC + 2 * 2 ^ 32))
    let reg := signed 16 (core |> wrNum at' 16 (1 + Reg.tb_BLK_CTRL * 2 ^ 64))
    let on := putF (enabledRef (Reg.core_BLK_CTRL 5)) 1 done
    let asleep := modCore 5 (fun k => { k with asleep := true }) done
    (Bound s ∧ csrOk s p (Reg.protShadow_PROT_SHADOW 261) true = true ∧ mayPropose p = true ∧ mayPropose .sec = false ∧ s.sec.staged = none ∧
      csrOk s p Reg.sec_PROT_STAGE true = true ∧ csrOk st .sec Reg.sec_PROT_COMMIT true = true ∧ csrOk s p Reg.sec_PROT_COMMIT true = true) ∧
    (st.sec.staged = some 7 ∧ protInvalid (shadowWords st) = false ∧ protInvalid (shadowWords bad) = true ∧
      csrOk s p Reg.sec_PROT_DECLINE true = true ∧ csrOk st .sec Reg.sec_PROT_DECLINE true = true) ∧
    (csrOk s p Reg.sec_CFGLOAD_CMD true = true ∧ isSet s Reg.sec_CFGLOAD_STATUS_BUSY = false ∧ isSet busy Reg.sec_CFGLOAD_STATUS_BUSY = true ∧
      csrOk busy p Reg.sec_CFGLOAD_CMD true = true) ∧
    ((∀ u ∈ [core, done, past, reg, on], getF u Reg.sec_CFGLOAD_ADDR_ADDR * 8 = at' ∧ isSet u Reg.sec_CFGLOAD_STATUS_BUSY = true ∧
        loadWaits u at' = false ∧ readable u at' 16 = true ∧ loadHeld u (loadTarget u at') = false ∧ u.ecc = []) ∧
      loadResult core at' = 2 ∧ loadResult done at' = 1 ∧ loadResult past at' = 3 ∧ loadResult on at' = 4 ∧ loadResult reg at' = 1 ∧
      (loadEntries done at').1 = [at' + 16] ∧ loadGovernor (loadTarget reg at') = some Reg.tb_BLK_CTRL ∧
      loadHeld asleep (loadTarget asleep at') = true ∧ loadWaits (putF (Reg.memCh_MEM_CH_STATUS_STATE 0) 3 core) at' = true ∧
      (match loadTarget core at' with | .core 5 => true | _ => false) = true) := by
  unfold Bound; decide +kernel
/-! ### Witnesses: the step and the whole device -/

theorem witness_StepTakesFront :
    ({ State.reset with pending := [Instr.add 0 0 1 2 3, Instr.perstN] } : State).pending = .add 0 0 1 2 3 :: [.perstN] := rfl

theorem witness_IdleCycle :
    let s := putF Reg.clk_CLK_STATUS_REF_OK 15 State.reset
    let l := putF Reg.clk_CLK_STATUS_LOCK 8 s
    l.pending = [] ∧ bitN (getF l Reg.clk_CLK_STATUS_LOCK) 3 = true ∧ bitN (getF s Reg.clk_CLK_STATUS_LOCK) 3 = false ∧
      s.pending = [] ∧ s.pins.rstN = true ∧ s.power.p4 = false ∧ s.power.p3 = false ∧ bitN (getF s Reg.clk_CLK_STATUS_REF_OK) 0 = true ∧
      s.recorder.cycles < 100 ∧ s.recorder.micros < 1000000 ∧ s.recorder.seconds < 3600 ∧ s.recorder.hours < 0xFFFFF := by decide +kernel

theorem witness_EveryCommandAnswers :
    State.reset.rsvDirty = false ∧ ({ State.reset with rsvDirty := true } : State).rsvDirty = true := by decide

/-- The sources of a list are host-pending. -/
def Tests.hostPending (l : List Nat) : State := { State.reset with sic := { State.reset.sic with host := l } }

theorem Tests.hostPending_all (l : List Nat) (h : ∀ n, n < 1024 → n ∈ l) :
    HostPending (Tests.hostPending l) ∧ ∃ t, step (Tests.hostPending l) = .next t :=
  ⟨fun n k _ _ => h n k, idle (Tests.hostPending l), rfl⟩

theorem witness_HostPendingKept :
    HostPending (Tests.hostPending (List.range 1024)) ∧ ∃ t, step (Tests.hostPending (List.range 1024)) = .next t :=
  Tests.hostPending_all _ fun _ k => List.mem_range.mpr k

theorem witness_AcisRoundTrip :
    (Instr.vadd 1023 5 15 15 15 31).wf = true ∧ (acisEncode (.vadd 1023 5 15 15 15 31)).isSome = true ∧
    (∃ x : AcisWord, x.word < 2 ^ 32 ∧ (acisDecode x).isSome = true) := by
  refine ⟨by decide, by decide +kernel, ⟨0, 0, 0, 0x04840001⟩, by decide, by decide +kernel⟩

/-- No command has a word in the table, so none is spelled by one. -/
theorem test_no_words : decodeTableWord 32 0x04840001 = none ∧ State.reset.withFetchWord 32 0 = State.reset := by decide

end
end

section
/-! PROOFS. The scope of the rules (R9): the form of every meaning, and what the device does once a reserved field is changed. -/

namespace Sys2Proof.Machine

/-- Every command of the table has a meaning of the form `live`: none is left out and none is refused. -/
theorem exec_eq_live (i : Instr) (s : State) : ∃ t, exec i s = live s t := by
  cases i <;> exact ⟨_, rfl⟩

/-- Settles O56: every meaning answers through `live`, which faults on a changed reserved field and else has a next state. -/
theorem everyCommandAnswers : Obligations.EveryCommandAnswers := by
  unfold Obligations.EveryCommandAnswers
  intro i s
  obtain ⟨t, ht⟩ := exec_eq_live i s
  rw [ht]
  exact ⟨fun dirty => live_fault dirty t, fun clean => ⟨sicSettle t, live_next clean t⟩⟩

end Sys2Proof.Machine
end

section
/-! PROOFS. Register writes by access code, and the enable and stop of a block (R9, R40-R43). -/

namespace Sys2Proof.Machine

/-! ### Where a register word stands -/

/-- A register word stands in a row of a block of the map, at its offset in the block. -/
theorem csrAt_word {a : Nat} {b : RegBlock} {blk : Nat} {w : WordAt} (h : csrAt a = .word b blk false w) :
    b ∈ regBlocks ∧ blk = blockStart b a ∧ b.rows.find? (rowHolds (blockOff b a)) = some w.row ∧
      w.idx = (blockOff b a - w.row.off) % w.row.stride / 4 := by
  unfold csrAt at h
  split at h
  · split at h <;> cases h
  next c hc =>
    simp only at h
    split at h
    · cases h
    next r hr =>
      simp only [CsrAt.word.injEq] at h
      obtain ⟨rfl, rfl, hpeek, rfl⟩ := h
      simp only [hpeek, Bool.false_eq_true, if_false] at hr
      exact ⟨List.mem_of_find?_eq_some hc, rfl, hr, by simp [hpeek]⟩

/-- No block has instances further apart than 16 MiB. -/
theorem regBlocks_stride : ∀ b ∈ regBlocks, 0 < b.stride ∧ b.stride ≤ 0x1000000 := by decide

/-- A word lies less than 16 MiB above the start of its block. -/
theorem csrAt_word_near {a : Nat} {b : RegBlock} {blk : Nat} {w : WordAt} (h : csrAt a = .word b blk false w) :
    4 * w.idx < 0x1000000 ∧ a < blk + 0x1000000 := by
  obtain ⟨hb, start, -, idx⟩ := csrAt_word h
  obtain ⟨pos, le⟩ := regBlocks_stride b hb
  have off : blockOff b a < 0x1000000 := (Nat.mod_lt _ pos).trans_le le
  have word : (blockOff b a - w.row.off) % w.row.stride ≤ blockOff b a := (Nat.mod_le _ _).trans (Nat.sub_le _ _)
  unfold blockStart at start
  omega

theorem ctrlAt_word {a base k : Nat} {b : RegBlock} {blk : Nat} {w : WordAt} (h : csrAt a = .word b blk false w)
    (hc : ctrlAt a = some (base, k)) : b.gov = .own ∧ a = blk := by
  simp only [ctrlAt, h, Option.ite_none_right_eq_some, Bool.and_eq_true, beq_iff_eq, decide_eq_true_eq] at hc
  obtain ⟨⟨⟨own, -⟩, at_⟩, -⟩ := hc
  exact ⟨own, at_⟩

/-- The first word of every block that governs RWD fields has a field at bit 0 (R40). -/
theorem own_block_bit_zero : ∀ b ∈ regBlocks, b.gov = .own → ∀ r ∈ b.rows.find? (rowHolds 0),
    (rsvMask r ((0 - r.off) % r.stride / 4)).getLsbD 0 = false := by
  decide +kernel

theorem ctrlAt_rsvMask {a base k : Nat} {b : RegBlock} {blk : Nat} {w : WordAt} (h : csrAt a = .word b blk false w)
    (hc : ctrlAt a = some (base, k)) : (rsvMask w.row w.idx).getLsbD 0 = false := by
  obtain ⟨own, at_⟩ := ctrlAt_word h hc
  obtain ⟨hb, start, row, idx⟩ := csrAt_word h
  have le : blockOff b a ≤ a := (Nat.mod_le _ _).trans (Nat.sub_le _ _)
  have first : blockOff b a = 0 := by rw [blockStart] at start; omega
  rw [first] at row idx
  rw [idx]
  exact own_block_bit_zero b hb own _ row

/-! ### Writes that are carried out -/

@[simp] theorem ringBack_write32 (s : State) (a : Nat) (v : Word) : ringBack s a (write32 v) = false := rfl

@[simp] theorem memWrites_write32 (v : Word) : memWrites (write32 v) = true := rfl

theorem csrDo_write32 {s : State} {p : Party} {a : Nat} (ok : csrOk s p a true = true) (v : Word) (body : State → State) :
    csrDo p a (write32 v) body s = body { s with reply := .done } := by
  simp [csrDo, ok]

theorem imgNote_eq (a : Nat) (s : State) : imgNote a s = { s with imgCsr := (imgNote a s).imgCsr } := by
  unfold imgNote
  split <;> rfl

@[simp] theorem imgNote_csr (a : Nat) (s : State) : (imgNote a s).csr = s.csr := by rw [imgNote_eq]
@[simp] theorem imgNote_mem (a : Nat) (s : State) : (imgNote a s).mem = s.mem := by rw [imgNote_eq]
@[simp] theorem imgNote_engs (a : Nat) (s : State) : (imgNote a s).engs = s.engs := by rw [imgNote_eq]
@[simp] theorem imgNote_cores (a : Nat) (s : State) : (imgNote a s).cores = s.cores := by rw [imgNote_eq]
@[simp] theorem imgNote_reply (a : Nat) (s : State) : (imgNote a s).reply = s.reply := by rw [imgNote_eq]
@[simp] theorem imgNote_rsvDirty (a : Nat) (s : State) : (imgNote a s).rsvDirty = s.rsvDirty := by rw [imgNote_eq]
@[simp] theorem rdWord_imgNote (a b : Nat) (s : State) : rdWord (imgNote a s) b = rdWord s b := rdWord_congr (imgNote_csr a s) b
@[simp] theorem isSet_imgNote (a : Nat) (f : FieldRef) (s : State) : isSet (imgNote a s) f = isSet s f :=
  isSet_congr (imgNote_csr a s) f

/-! ### The write of one word under its access codes (R9, R41, R42) -/

theorem setIgnored_eq (g : Nat) (s : State) : setIgnored g s = { s with csr := (setIgnored g s).csr } := by
  simp only [setIgnored, setF_def]
  split
  · exact putF_eq _ _ s
  · rw [putF_eq (ignoredRef g), putF_eq Reg.glob_CHIP_EVENTS_WRITE_IGNORED_SEEN]

@[simp] theorem isSet_setIgnored (g : Nat) (s : State) : isSet (setIgnored g s) (ignoredRef g) = true :=
  isSet_putF_one _ _ Nat.one_pos

/-- Setting WRITE_IGNORED touches that block's BLK_STATUS and CHIP_EVENTS alone. -/
theorem rdWord_setIgnored_other {g a : Nat} (hs : a ≠ g + 4) (he : a ≠ Reg.glob_CHIP_EVENTS) (s : State) :
    rdWord (setIgnored g s) a = rdWord s a := by
  have status (t : State) : rdWord (putF (ignoredRef g) 1 t) a = rdWord t a :=
    rdWord_putF_outside _ _ _ _ fun j hj => by simp [fieldWords, ignoredRef] at hj ⊢; omega
  have events (t : State) : rdWord (putF Reg.glob_CHIP_EVENTS_WRITE_IGNORED_SEEN 1 t) a = rdWord t a :=
    rdWord_putF_outside _ _ _ _ fun j hj => by
      simp [fieldWords, Reg.glob_CHIP_EVENTS_WRITE_IGNORED_SEEN, Reg.glob_CHIP_EVENTS] at hj he ⊢; omega
  simp only [setIgnored, setF_def, status]
  split
  · rfl
  · exact events s

/-- The bits of word `idx` that a write changes: its RW fields, and its RWD fields while the governing block is disabled. -/
def openMask (s : State) (gov : Nat) (r : RegRow) (idx : Nat) : Word :=
  accMask r idx .rw ||| (if blkEnabled s gov then 0 else accMask r idx .rwd)

theorem openMask_congr {s t : State} (h : s.csr = t.csr) (gov : Nat) (r : RegRow) (idx : Nat) :
    openMask s gov r idx = openMask t gov r idx := by
  rw [openMask, blkEnabled, isSet_congr h]
  rfl

/-- Where the reserved bits are written as they read, it makes no difference that they are stored. -/
theorem splice_or_kept (old v m r : Word) (kept : (old ^^^ v) &&& r = 0) :
    (old &&& ~~~(m ||| r)) ||| (v &&& (m ||| r)) = (old &&& ~~~m) ||| (v &&& m) := by
  ext i hi
  have bit : ((old ^^^ v) &&& r)[i] = false := by rw [kept]; exact BitVec.getElem_zero hi
  revert bit
  simp only [BitVec.getElem_and, BitVec.getElem_xor, BitVec.getElem_or, BitVec.getElem_not]
  cases r[i] <;> cases old[i] <;> cases v[i] <;> simp

/-- A write of a word whose reserved bits are written as they read: what it stores, and WRITE_IGNORED. -/
theorem rawWrite_of_kept {s : State} {b : RegBlock} {blk : Nat} {w : WordAt} {idx : Nat} {v : Word}
    (kept : (rdWord s (w.reg + 4 * idx) ^^^ v) &&& rsvMask w.row idx = 0) :
    rawWrite b blk w idx v 0 s =
      let a := w.reg + 4 * idx
      let gov := governorOf b blk
      let m := openMask s gov w.row idx
      let new := (rdWord s a &&& ~~~m) ||| (v &&& m)
      let t := if new = rdWord s a then s else wrWord a new s
      if blkEnabled s gov && ((rdWord s a ^^^ v) &&& accMask w.row idx .rwd) != 0 then setIgnored gov t else t := by
  have mask : accMask w.row idx .rw ||| (if (!blkEnabled s (governorOf b blk)) = true then accMask w.row idx .rwd else 0) =
      openMask s (governorOf b blk) w.row idx := by
    cases h : blkEnabled s (governorOf b blk) <;> simp [openMask, h]
  have all : ~~~(0 : Word) = BitVec.allOnes 32 := rfl
  simp only [rawWrite, kept, mask, all, BitVec.and_allOnes, splice_or_kept _ _ _ _ kept, bne_self_eq_false, Bool.false_eq_true,
    if_false, Bool.not_not]

section
variable {s : State} {b : RegBlock} {blk : Nat} {w : WordAt} {idx : Nat} {v : Word}
  (kept : (rdWord s (w.reg + 4 * idx) ^^^ v) &&& rsvMask w.row idx = 0)
include kept

/-- Such a write changes registers and nothing else. -/
theorem rawWrite_onlyCsr : rawWrite b blk w idx v 0 s = { s with csr := (rawWrite b blk w idx v 0 s).csr } := by
  rw [rawWrite_of_kept kept]
  extract_lets a gov m new t
  have only : t = { s with csr := t.csr } := by
    simp only [t]
    split <;> rfl
  split
  · rw [setIgnored_eq, only]
  · exact only

theorem rdWord_rawWrite (hs : w.reg + 4 * idx ≠ governorOf b blk + 4) (he : w.reg + 4 * idx ≠ Reg.glob_CHIP_EVENTS) :
    rdWord (rawWrite b blk w idx v 0 s) (w.reg + 4 * idx) =
      (rdWord s (w.reg + 4 * idx) &&& ~~~openMask s (governorOf b blk) w.row idx) |||
        (v &&& openMask s (governorOf b blk) w.row idx) := by
  rw [rawWrite_of_kept kept]
  extract_lets a gov m new t
  have stored : rdWord t a = new := by
    simp only [t]
    split
    next same => exact same.symm
    · exact rdWord_wrWord_same a new s
  split
  · rw [rdWord_setIgnored_other hs he, stored]
  · exact stored

theorem rawWrite_ignored (on : blkEnabled s (governorOf b blk) = true)
    (differs : (rdWord s (w.reg + 4 * idx) ^^^ v) &&& accMask w.row idx .rwd ≠ 0) :
    isSet (rawWrite b blk w idx v 0 s) (ignoredRef (governorOf b blk)) = true := by
  rw [rawWrite_of_kept kept]
  extract_lets a gov m new t
  rw [if_pos (by simpa [gov, on] using differs)]
  exact isSet_setIgnored gov t

end

/-! ### Words without a rule of their own -/

theorem ite_some_eq_none {α : Type} {c : Prop} [Decidable c] (x : α) (y : Option α) :
    (if c then some x else y) = none ↔ ¬c ∧ y = none := by
  split <;> simp_all

/-- A word below 0x01_0000_0000 without a rule of its own is none whose writes `writeIgnored` judges. -/
theorem lowWrite_none {p : Party} {b : RegBlock} {blk : Nat} {w : WordAt} {n : Nat} {v : Word} {s : State}
    (h : lowWrite p b blk w n v s = none) :
    w.reg + 4 * w.idx ≠ Reg.boot_BOOT_IMAGE ∧ w.reg + 4 * w.idx ≠ Reg.boot_BOOT_COUNT ∧ w.reg + 4 * w.idx ≠ Reg.cl_CL_WDOG n := by
  simp only [lowWrite, ite_some_eq_none, not_or] at h
  tauto

theorem highWrite_none {p : Party} {b : RegBlock} {blk : Nat} {w : WordAt} {k i : Nat} {v : Word} {s : State}
    (h : highWrite p b blk w k i v s = none) : w.reg + 4 * w.idx ≠ Reg.pcie_FW_STATE := by
  simp only [highWrite, ite_some_eq_none, not_or] at h
  tauto

/-- The rule that a unit gives of a write to the word, if one does. -/
def ownRule (p : Party) (b : RegBlock) (blk : Nat) (w : WordAt) (v : Word) (s : State) : Option State :=
  if w.reg < 0x0100000000 then lowWrite p b blk w (indexOf blk w) v s
  else highWrite p b blk w (instOf b blk) (indexOf blk w) v s

theorem writeIgnored_of_no_rule {p : Party} {a : Nat} {b : RegBlock} {blk : Nat} {w : WordAt} {v : Word} {s : State}
    (hw : csrAt a = .word b blk false w) (ha : a = w.reg + 4 * w.idx) (h : ownRule p b blk w v s = none) :
    writeIgnored s p a (indexOf blk w) = false := by
  obtain ⟨idx, reg⟩ := csrAt_word_near hw
  have near : indexOf blk w < 0x1000000 := (Nat.div_le_self _ _).trans_lt (by omega)
  have apart : a ≠ Reg.boot_BOOT_IMAGE ∧ a ≠ Reg.boot_BOOT_COUNT ∧ a ≠ Reg.cl_CL_WDOG (indexOf blk w) ∧ a ≠ Reg.pcie_FW_STATE := by
    by_cases low : w.reg < 0x0100000000
    · obtain ⟨image, count, wdog⟩ := lowWrite_none (by simpa [ownRule, low] using h)
      rw [← ha] at image count wdog
      exact ⟨image, count, wdog, by unfold Reg.pcie_FW_STATE; omega⟩
    · have state := highWrite_none (by simpa [ownRule, low] using h)
      rw [← ha] at state
      unfold Reg.boot_BOOT_IMAGE Reg.boot_BOOT_COUNT Reg.cl_CL_WDOG
      exact ⟨by omega, by omega, by omega, state⟩
  obtain ⟨image, count, wdog, state⟩ := apart
  simp [writeIgnored, image, count, wdog, state]

theorem regWrite_of_no_rule {p : Party} {a : Nat} {b : RegBlock} {blk : Nat} {w : WordAt} {v : Word} {s : State}
    (hw : csrAt a = .word b blk false w) (ha : a = w.reg + 4 * w.idx) (width : w.row.width ≠ 64)
    (h : ownRule p b blk w v (dropHeld p blk s) = none) :
    regWrite p b blk w v s = rawWrite b blk w w.idx v 0 (dropHeld p blk s) := by
  have kept := writeIgnored_of_no_rule hw ha h
  rw [ha] at kept
  rw [ownRule] at h
  simp [regWrite, width, kept, h]

/-! ### The write of a word without a rule of its own -/

/-- What REGISTER_WRITE does to an ordinary 32-bit word. -/
theorem exec_registerWrite_of_no_rule {s : State} {p : Party} {a : Nat} {v : Word} {b : RegBlock} {blk : Nat} {w : WordAt}
    (clean : s.rsvDirty = false) (hw : csrAt a = .word b blk false w) (width : w.row.width ≠ 64) (ha : a = w.reg + 4 * w.idx)
    (ctrl : ctrlAt a = none) (router : tableRouter a = none) (ok : csrOk s p a true = true)
    (rule : ownRule p b blk w v (dropHeld p blk { s with reply := .done }) = none) (stays : opens a = false) :
    exec (.registerWrite p a v) s =
      .next (sicSettle (imgNote a (rawWrite b blk w w.idx v 0 (dropHeld p blk { s with reply := .done })))) := by
  have carried : writeAny p a v s = imgNote a (rawWrite b blk w w.idx v 0 (dropHeld p blk { s with reply := .done })) := by
    simp only [writeAny, router, hw, ctrl, csrDo_write32 ok, regWrite_of_no_rule hw ha width rule, imgRow, width, ← ha,
      Option.isSome_none, Bool.false_eq_true, if_false]
  have settled (t : State) : settleAt a t = t := by simp [settleAt, stays]
  calc exec (.registerWrite p a v) s = live s (settleAt a (writeAny p a v s)) := rfl
    _ = _ := by rw [settled, carried, live_next clean]

/-! ### Enabling and stopping a block (R40, R43) -/

/-- The blocks whose start and stop touch no register. -/
def PlainStart (base : Nat) : Prop :=
  base ∈ [Reg.tb_BLK_CTRL, Reg.adm_BLK_CTRL, Reg.ctt_BLK_CTRL, Reg.jrn_BLK_CTRL, Reg.core_BLK_CTRL 0]

theorem plainStart_cases {base : Nat} (plain : PlainStart base) : base = Reg.tb_BLK_CTRL ∨ base = Reg.adm_BLK_CTRL ∨
    base = Reg.ctt_BLK_CTRL ∨ base = Reg.jrn_BLK_CTRL ∨ base = Reg.core_BLK_CTRL 0 := by
  simpa [PlainStart] using plain

/-- The START happening changes engines alone. -/
theorem raiseStart_kept (c : Nat) (s : State) : (raiseStart c s).csr = s.csr ∧ (raiseStart c s).mem = s.mem :=
  List.foldlRecOn _ _ (motive := fun (t : State) => t.csr = s.csr ∧ t.mem = s.mem) ⟨rfl, rfl⟩ fun t kept e _ => by
    simpa using kept

theorem blkStart_plain {base : Nat} (plain : PlainStart base) (k : Nat) (stopped : Bool) (s : State) :
    (blkStart base k stopped s).csr = s.csr ∧ (blkStart base k stopped s).mem = s.mem := by
  rcases plainStart_cases plain with rfl | rfl | rfl | rfl | rfl
  case inr.inr.inr.inr => exact raiseStart_kept k (modCore k (fun c => { c with intakeOff := false }) s)
  all_goals exact ⟨rfl, rfl⟩

theorem blkStop_plain {base : Nat} (plain : PlainStart base) (k : Nat) (s : State) : blkStop base k s = s := by
  rcases plainStart_cases plain with rfl | rfl | rfl | rfl | rfl <;> rfl

theorem blkAbsent_plain {base : Nat} (plain : PlainStart base) (k : Nat) (s : State) : blkAbsent s base k = false := by
  rcases plainStart_cases plain with rfl | rfl | rfl | rfl | rfl <;> rfl

theorem stopEnd_of_ne {base : Nat} (tb : base ≠ Reg.tb_BLK_CTRL) (eip : base ≠ Reg.eip_BLK_CTRL) (mem : base ≠ Reg.mem_BLK_CTRL)
    (s : State) : stopEnd base s = s := by
  simp [stopEnd, tb, eip, mem]

theorem ctrlWrite_of_csrOk {s : State} {p : Party} {a base k : Nat} {b : RegBlock} {blk : Nat} {w : WordAt}
    (hw : csrAt a = .word b blk false w) (hc : ctrlAt a = some (base, k)) (ok : csrOk s p a true = true) (v : Word) :
    ctrlWrite p a v s =
      imgNote a (putEnable a base k (v.getLsbD 0) (noteRsv a v (dropHeld p blk { s with reply := .done }))) := by
  simp only [ctrlWrite, hc, csrEffect, csrDo_write32 ok, hw]

/-- A word with nothing above bit 0. -/
theorem getLsbD_of_high_zero {x : Word} (h : x &&& 0xFFFFFFFE#32 = 0) {i : Nat} (pos : 0 < i) (hi : i < 32) :
    x.getLsbD i = false := by
  have mask : ∀ j < 32, 0 < j → (0xFFFFFFFE#32).getLsbD j = true := by decide
  have bit : (x &&& 0xFFFFFFFE#32).getLsbD i = false := by rw [h]; exact BitVec.getLsbD_zero
  rwa [BitVec.getLsbD_and, mask i hi pos, Bool.and_true] at bit

/-- A write of EN alone to a BLK_CTRL that holds nothing but EN changes no reserved bit (R9). -/
theorem noteRsv_ctrl {s : State} {a base k : Nat} {b : RegBlock} {blk : Nat} {w : WordAt} (hw : csrAt a = .word b blk false w)
    (hc : ctrlAt a = some (base, k)) (zero : rdWord s a &&& 0xFFFFFFFE#32 = 0) (v : Word) (hv : v &&& 0xFFFFFFFE#32 = 0) :
    noteRsv a v s = s := by
  have field := ctrlAt_rsvMask hw hc
  have kept : (rdWord s a ^^^ v) &&& rsvMask w.row w.idx = 0 := by
    refine BitVec.eq_of_getLsbD_eq fun i hi => ?_
    rw [BitVec.getLsbD_and, BitVec.getLsbD_xor, show BitVec.getLsbD (0 : Word) i = false from BitVec.getLsbD_zero]
    rcases Nat.eq_zero_or_pos i with rfl | pos
    · rw [field, Bool.and_false]
    · rw [getLsbD_of_high_zero zero pos hi, getLsbD_of_high_zero hv pos hi, Bool.xor_false, Bool.false_and]
  simp only [noteRsv, hw, kept, if_true]

theorem putEnable_on_plain {s : State} {a base : Nat} (plain : PlainStart base) (k : Nat) (off : isSet s (enRef a) = false) :
    (putEnable a base k true s).csr = (putF (enabledRef a) 1 (putF (enRef a) 1 s)).csr ∧
      (putEnable a base k true s).mem = s.mem := by
  obtain ⟨csr, mem⟩ := blkStart_plain plain k (!blkEnabled s a) (putF (enabledRef a) 1 (putF (enRef a) 1 s))
  simp [putEnable, off, blkAbsent_plain plain, csr, mem]

theorem putEnable_off_plain {s : State} {a base : Nat} (plain : PlainStart base) (k : Nat) (on : isSet s (enRef a) = true) :
    putEnable a base k false s = putF (enRef a) 0 s := by
  simp [putEnable, on, blkStop_plain plain]

theorem apart_en_enabled (a : Nat) : Apart (enRef a) (enabledRef a) :=
  apart_of_word (by decide : 1 ≤ 32) (by decide : 1 ≤ 32) (by simp [enRef, enabledRef])

theorem apart_symm {f g : FieldRef} (h : Apart f g) : Apart g f := by
  rcases h with ⟨word, bits⟩ | words
  · exact .inl ⟨word.symm, bits.symm⟩
  · exact .inr fun i hi j hj => (words j hj i hi).symm

theorem csrKept_putF {fs : List FieldRef} {s t : State} (h : CsrKept fs s t) {f : FieldRef} (hf : f ∈ fs) (v : Nat) :
    CsrKept fs s (putF f v t) := fun a ha => by rw [rdWord_putF_outside f v a t (ha f hf), h a ha]

theorem csrKept_congr {fs : List FieldRef} {s t u : State} (h : CsrKept fs s t) (same : u.csr = t.csr) : CsrKept fs s u :=
  fun a ha => by rw [rdWord_congr same, h a ha]

theorem csrKept_of_csr {s t : State} (fs : List FieldRef) (same : t.csr = s.csr) : CsrKept fs s t :=
  fun a _ => rdWord_congr same a

/-- BLK_ENABLE at a block whose start touches no register. -/
theorem enable_plain {s u : State} {a base : Nat} (plain : PlainStart base) (k : Nat) (same : u.csr = s.csr)
    (off : isSet s (enRef a) = false) :
    let t := sicSettle (imgNote a (putEnable a base k true u))
    isSet t (enRef a) = true ∧ isSet t (enabledRef a) = true ∧ t.mem = u.mem ∧ CsrKept [enRef a, enabledRef a] s t := by
  obtain ⟨csr, mem⟩ := putEnable_on_plain plain k (isSet_congr same (enRef a) ▸ off)
  simp only [isSet_sicSettle, isSet_imgNote, sicSettle_mem, imgNote_mem, isSet_congr csr, mem]
  refine ⟨?_, isSet_putF_one _ _ Nat.one_pos, trivial, ?_⟩
  · rw [isSet, getF_putF_apart (apart_symm (apart_en_enabled a))]
    exact isSet_putF_one _ _ Nat.one_pos
  · refine csrKept_congr (t := putF (enabledRef a) 1 (putF (enRef a) 1 u)) ?_ (by simp [csr])
    exact csrKept_putF (csrKept_putF (csrKept_of_csr _ same) (by simp) 1) (by simp) 1

/-- BLK_DISABLE at a block whose stop touches no register. -/
theorem disable_plain {s u : State} {a base : Nat} (plain : PlainStart base) (k : Nat) (same : u.csr = s.csr)
    (on : isSet s (enRef a) = true) :
    let t := sicSettle (imgNote a (putEnable a base k false u))
    isSet t (enRef a) = false ∧ getF t (enabledRef a) = getF s (enabledRef a) ∧ t.mem = u.mem ∧ CsrKept [enRef a] s t := by
  rw [putEnable_off_plain plain k (isSet_congr same (enRef a) ▸ on)]
  refine ⟨by simp, ?_, by simp, ?_⟩
  · rw [getF_sicSettle, getF_congr (imgNote_csr a _), getF_putF_apart (apart_en_enabled a), getF_congr same]
  · exact csrKept_congr (csrKept_putF (f := enRef a) (csrKept_of_csr _ same) (by simp) 0) (by simp)

/-- What BLK_ENABLE and BLK_DISABLE do, where the access is carried out. -/
theorem exec_blkEnable_blkDisable {s : State} (clean : s.rsvDirty = false) {p : Party} {a base k : Nat} {b : RegBlock} {blk : Nat}
    {w : WordAt} (hw : csrAt a = .word b blk false w) (hc : ctrlAt a = some (base, k)) (ok : csrOk s p a true = true) :
    let u := dropHeld p blk { s with reply := .done }
    exec (.blkEnable p a) s = .next (sicSettle (imgNote a (putEnable a base k true (noteRsv a 1 u)))) ∧
      exec (.blkDisable p a) s = .next (sicSettle (imgNote a (putEnable a base k false (noteRsv a 0 u)))) := by
  intro u
  rw [← live_next clean, ← live_next clean]
  exact ⟨congrArg (live s) (ctrlWrite_of_csrOk hw hc ok 1), congrArg (live s) (ctrlWrite_of_csrOk hw hc ok 0)⟩

theorem exec_stopSequenceDone {s : State} (clean : s.rsvDirty = false) {a base k : Nat} (hc : ctrlAt a = some (base, k)) :
    exec (.stopSequenceDone a) s = .next (sicSettle
      (if blkEnabled s a && !isSet s (enRef a) && stopReady s base k then stopEnd base (clrF (enabledRef a) s) else s)) := by
  have meaning : exec (.stopSequenceDone a) s = execStopSequenceDone a s := rfl
  rw [meaning, execStopSequenceDone, live_next clean, hc]

/-- Settles O15: an ordinary word under its access codes, and the enable and stop of a block. -/
theorem registerWriteAndBlockEnable : Obligations.RegisterWriteAndBlockEnable := by
  unfold Obligations.RegisterWriteAndBlockEnable
  constructor
  · intro s p addr v b blk w clean hw width ha ctrl router ok rule kept status stays gov m
    subst ha
    have run := exec_registerWrite_of_no_rule clean hw width rfl ctrl router ok rule stays
    set u := dropHeld p blk { s with reply := .done }
    have same : u.csr = s.csr := rfl
    have only := rawWrite_onlyCsr (s := u) (b := b) (blk := blk) kept
    refine ⟨_, run, ?_, fun chip => ?_, fun on differs => ?_, ?_, ?_, ?_, ?_⟩
    · rw [sicSettle_reply, imgNote_reply, only]; rfl
    · rw [rdWord_sicSettle, rdWord_imgNote, rdWord_rawWrite (s := u) kept status chip, openMask_congr same]
      rfl
    · rw [isSet_sicSettle, isSet_imgNote]
      exact rawWrite_ignored (s := u) kept ((isSet_congr same _).trans on) differs
    · rw [sicSettle_mem, imgNote_mem, only]; rfl
    · rw [sicSettle_engs, imgNote_engs, only]; rfl
    · rw [sicSettle_cores, imgNote_cores, only]; rfl
    · rw [sicSettle_rsvDirty, imgNote_rsvDirty, only]; exact clean
  · intro s p addr base k b blk w clean hw hc plain
    refine ⟨fun ok => ?_, fun enabled off ready => ?_, fun enabled busy => ?_⟩
    · intro u
      obtain ⟨on, off⟩ := exec_blkEnable_blkDisable clean hw hc ok
      refine ⟨on, off, fun hp zero => ⟨fun was => ?_, fun was => ?_⟩⟩
      · rw [noteRsv_ctrl (s := u) hw hc zero 1 (by decide)] at on
        exact ⟨_, on, enable_plain hp k rfl was⟩
      · rw [noteRsv_ctrl (s := u) hw hc zero 0 (by decide)] at off
        exact ⟨_, off, disable_plain hp k rfl was⟩
    · have run := exec_stopSequenceDone clean hc
      simp only [enabled, off, ready, Bool.not_false, Bool.and_self, if_true] at run
      refine ⟨run, fun tb eip mem => ⟨_, run, ?_⟩⟩
      rw [stopEnd_of_ne tb eip mem, clrF_def]
      exact ⟨by simp, csrKept_congr (csrKept_putF (csrKept_of_csr _ rfl) (by simp) 0) (sicSettle_csr _)⟩
    · have run := exec_stopSequenceDone clean hc
      simp only [busy, Bool.and_false, Bool.false_eq_true, if_false] at run
      exact ⟨_, run, (isSet_sicSettle s _).trans enabled⟩

end Sys2Proof.Machine
end

section
/-! PROOFS. Fields by their bits: what a write of one field leaves of another. -/

namespace Sys2Proof.Machine

/-- The bits of two fields, counted through the registers' addresses, do not meet. -/
abbrev BitsApart (f g : FieldRef) : Prop :=
  8 * f.addr + f.lo + f.width ≤ 8 * g.addr + g.lo ∨ 8 * g.addr + g.lo + g.width ≤ 8 * f.addr + f.lo


/-- A write of a field leaves every field whose bits are others, in the same words or not. -/
theorem getF_putF_bits {f g : FieldRef} (h : BitsApart f g) (v : Nat) (s : State) : getF (putF f v s) g = getF s g := by
  refine Nat.eq_of_testBit_eq fun i => ?_
  rw [testBit_getF, testBit_getF]
  by_cases hi : i < g.width
  case neg => simp [hi]
  simp only [hi, decide_true, Bool.true_and]
  by_cases word : ∃ j < fieldWords f, g.addr + 4 * ((g.lo + i) / 32) = f.addr + 4 * j
  · obtain ⟨j, hj, at_⟩ := word
    rw [at_, getLsbD_putF _ _ _ _ _ hj (by omega), if_neg (by unfold BitsApart at h; omega)]
  · rw [rdWord_putF_outside _ _ _ _ fun j hj at_ => word ⟨j, hj, at_⟩]

theorem isSet_putF_bits {f g : FieldRef} (h : BitsApart f g) (v : Nat) (s : State) : isSet (putF f v s) g = isSet s g := by
  rw [isSet, getF_putF_bits h, isSet]
end Sys2Proof.Machine
end

section
/-! PROOFS. Denied accesses (R24, R27, R412, R511). -/

namespace Sys2Proof.Machine

/-! ### Flags -/

/-- A flag that is set reads as set. -/
theorem testBit_flagF {f : FieldRef} {i : Nat} (h : i < f.width) (s : State) : (getF (flagF f i s) f).testBit i = true := by
  simp [h]

theorem isSet_of_getF {s t : State} {f : FieldRef} (h : getF t f = getF s f) : isSet t f = isSet s f := by
  rw [isSet, h, isSet]

/-! ### What a denial reports (R412, R511) -/

@[simp] theorem firewallDeny_mem (p : Party) (a : Nat) (wr : Bool) (s : State) : (firewallDeny p a wr s).mem = s.mem := by
  simp only [firewallDeny]
  split <;> simp

theorem partyClass_lt {p : Party} {cls : Nat} (h : partyClass p = some cls) : cls < 6 := by
  revert h
  unfold partyClass
  split <;> simp +contextual [eq_comm]

/-- SEC_EVENTS.DENIED is set, and PROT_DENIED_INFO takes the access where it holds none. -/
theorem firewallDeny_reports (p : Party) (a : Nat) (wr : Bool) (s : State) :
    let t := firewallDeny p a wr s
    (getF t Reg.sec_SEC_EVENTS_EVENTS).testBit 2 = true ∧
      (isSet s Reg.sec_PROT_DENIED_INFO_VALID = false → isSet t Reg.sec_PROT_DENIED_INFO_VALID = true ∧
        getF t Reg.sec_PROT_DENIED_INFO_ADDR = a % 2 ^ Reg.sec_PROT_DENIED_INFO_ADDR.width ∧
        getF t Reg.sec_PROT_DENIED_INFO_CLASS = (partyClass p).getD 0 % 64 ∧
        getF t Reg.sec_PROT_DENIED_INFO_WRITE = if wr then 1 else 0) := by
  intro t
  have flag := testBit_flagF (f := Reg.sec_SEC_EVENTS_EVENTS) (i := 2) (by decide) s
  have valid : isSet (flagF Reg.sec_SEC_EVENTS_EVENTS 2 s) Reg.sec_PROT_DENIED_INFO_VALID = isSet s Reg.sec_PROT_DENIED_INFO_VALID :=
    isSet_putF_bits (by decide) _ _
  simp only [t, firewallDeny, valid]
  cases isSet s Reg.sec_PROT_DENIED_INFO_VALID with
  | true => simpa using flag
  | false =>
    simp (disch := decide) only [Bool.false_eq_true, if_false, getF_putF_bits, isSet_putF_bits, getF_putF_same, isSet_putF_one, flag]
    refine ⟨trivial, fun _ => ⟨trivial, trivial, rfl, ?_⟩⟩
    cases wr <;> rfl

@[simp] theorem sliceDeny_mem (b off : Nat) (p : Party) (wr : Bool) (s : State) : (sliceDeny b off p wr s).mem = s.mem := by
  simp only [sliceDeny]
  split <;> simp

/-- The words of SLICE_EVENTS and SLICE_DENIED_INFO of a block. -/
def denialWords (b : Nat) : FieldRef := ⟨Reg.slice_SLICE_EVENTS b, 0, 96⟩

/-- A denial by a slice touches that slice's SLICE_EVENTS and SLICE_DENIED_INFO alone. -/
theorem getF_sliceDeny {b : Nat} {f : FieldRef} (h : BitsApart (denialWords b) f) (off : Nat) (p : Party) (wr : Bool) (s : State) :
    getF (sliceDeny b off p wr s) f = getF s f := by
  have part {g : FieldRef} (lo : 8 * Reg.slice_SLICE_EVENTS b ≤ 8 * g.addr + g.lo)
      (hi : 8 * g.addr + g.lo + g.width ≤ 8 * Reg.slice_SLICE_EVENTS b + 96) : BitsApart g f := by
    simp only [BitsApart, denialWords] at h ⊢
    omega
  have fields : BitsApart (Reg.slice_SLICE_EVENTS_EVENTS b) f ∧ BitsApart (Reg.slice_SLICE_DENIED_INFO_VALID b) f ∧
      BitsApart (Reg.slice_SLICE_DENIED_INFO_CLASS b) f ∧ BitsApart (Reg.slice_SLICE_DENIED_INFO_INDEX b) f ∧
      BitsApart (Reg.slice_SLICE_DENIED_INFO_WRITE b) f ∧ BitsApart (Reg.slice_SLICE_DENIED_INFO_OFFSET b) f := by
    refine ⟨part ?_ ?_, part ?_ ?_, part ?_ ?_, part ?_ ?_, part ?_ ?_, part ?_ ?_⟩ <;>
      simp only [Reg.slice_SLICE_EVENTS, Reg.slice_SLICE_EVENTS_EVENTS, Reg.slice_SLICE_DENIED_INFO_VALID,
        Reg.slice_SLICE_DENIED_INFO_CLASS, Reg.slice_SLICE_DENIED_INFO_INDEX, Reg.slice_SLICE_DENIED_INFO_WRITE,
        Reg.slice_SLICE_DENIED_INFO_OFFSET] <;> omega
  obtain ⟨events, valid, cls, index, write, offset⟩ := fields
  simp only [sliceDeny]
  split
  · rw [flagF_def, getF_putF_bits events]
  · rw [getF_putF_bits offset, getF_putF_bits write, getF_putF_bits index, getF_putF_bits cls, getF_putF_bits valid, flagF_def,
      getF_putF_bits events]

/-- SLICE_EVENTS.DENIED is set, and SLICE_DENIED_INFO takes the access where it holds none. -/
theorem sliceDeny_reports (b off : Nat) (p : Party) (wr : Bool) (s : State) :
    let t := sliceDeny b off p wr s
    (getF t (Reg.slice_SLICE_EVENTS_EVENTS b)).testBit 0 = true ∧
      (isSet s (Reg.slice_SLICE_DENIED_INFO_VALID b) = false → isSet t (Reg.slice_SLICE_DENIED_INFO_VALID b) = true ∧
        getF t (Reg.slice_SLICE_DENIED_INFO_CLASS b) = (ownerCode p).1 % 16 ∧
        getF t (Reg.slice_SLICE_DENIED_INFO_INDEX b) = (ownerCode p).2 % 4096 ∧
        getF t (Reg.slice_SLICE_DENIED_INFO_WRITE b) = (if wr then 1 else 0) ∧
        getF t (Reg.slice_SLICE_DENIED_INFO_OFFSET b) = off % 2 ^ 20) := by
  intro t
  have flag := testBit_flagF (f := Reg.slice_SLICE_EVENTS_EVENTS b) (i := 0) (by simp [Reg.slice_SLICE_EVENTS_EVENTS]) s
  have valid : isSet (flagF (Reg.slice_SLICE_EVENTS_EVENTS b) 0 s) (Reg.slice_SLICE_DENIED_INFO_VALID b) =
      isSet s (Reg.slice_SLICE_DENIED_INFO_VALID b) :=
    isSet_putF_bits (by simp only [Reg.slice_SLICE_EVENTS_EVENTS, Reg.slice_SLICE_DENIED_INFO_VALID, BitsApart]; omega) _ _
  simp only [t, sliceDeny, valid]
  cases isSet s (Reg.slice_SLICE_DENIED_INFO_VALID b) with
  | true => simpa using flag
  | false =>
    simp (disch := simp only [Reg.slice_SLICE_EVENTS_EVENTS, Reg.slice_SLICE_DENIED_INFO_VALID, Reg.slice_SLICE_DENIED_INFO_CLASS,
        Reg.slice_SLICE_DENIED_INFO_INDEX, Reg.slice_SLICE_DENIED_INFO_WRITE, Reg.slice_SLICE_DENIED_INFO_OFFSET, BitsApart]; omega)
      only [Bool.false_eq_true, if_false, getF_putF_bits, isSet_putF_bits, getF_putF_same, isSet_putF_one, flag]
    refine ⟨trivial, fun _ => ⟨trivial, rfl, rfl, ?_, rfl⟩⟩
    cases wr <;> rfl

/-! ### How a denied access ends (R27, R384) -/

/-- The words of CL_EVENTS to CL_BUSERR_ADDR, in which a posted store that fails is reported. -/
def busErrorWords : FieldRef := ⟨Reg.cl_CL_EVENTS, 0, 128⟩

theorem getF_storeFailed {f : FieldRef} (h : BitsApart busErrorWords f) (n a : Nat) (s : State) :
    getF (storeFailed n a s) f = getF s f := by
  have part (g : FieldRef) (lo : 8 * Reg.cl_CL_EVENTS ≤ 8 * g.addr + g.lo)
      (hi : 8 * g.addr + g.lo + g.width ≤ 8 * Reg.cl_CL_EVENTS + 128) (v : Nat) (t : State) : getF (putF g v t) f = getF t f :=
    getF_putF_bits (by simp only [BitsApart, busErrorWords] at h ⊢; omega) v t
  have events := part Reg.cl_CL_EVENTS_EVENTS (by decide) (by decide)
  have valid := part Reg.cl_CL_BUSERR_ADDR_VALID (by decide) (by decide)
  have core := part Reg.cl_CL_BUSERR_ADDR_CORE (by decide) (by decide)
  have addr := part Reg.cl_CL_BUSERR_ADDR_ADDR (by decide) (by decide)
  unfold storeFailed
  extract_lets t
  have first : getF t f = getF s f := events _ s
  split
  · exact first
  · rw [addr, core, setF_def, valid, first]

@[simp] theorem storeFailed_mem (n a : Nat) (s : State) : (storeFailed n a s).mem = s.mem := by
  simp only [storeFailed]
  split <;> simp

@[simp] theorem storeFailed_reply (n a : Nat) (s : State) : (storeFailed n a s).reply = s.reply := by
  simp only [storeFailed]
  split <;> simp

/-- A requester at the device's ports is told of the bus error. -/
def toldError (p : Party) (s : State) : State := if busParty p then { s with reply := .busError } else s

@[simp] theorem toldError_mem (p : Party) (s : State) : (toldError p s).mem = s.mem := by unfold toldError; split <;> rfl
@[simp] theorem toldError_csr (p : Party) (s : State) : (toldError p s).csr = s.csr := by unfold toldError; split <;> rfl

theorem toldError_reply {p : Party} (h : busParty p = true) (s : State) : (toldError p s).reply = .busError := by
  rw [toldError, if_pos h]

/-- How a bus error ends: an application core traps, or is told of its posted store. -/
theorem busFail_cases (p : Party) (a : Nat) (op : MemOp) (s : State) :
    busFail p a op s = toldError p s ∨ (∃ n, busFail p a op s = storeFailed n a (toldError p s)) ∨
      ∃ n sm c, busFail p a op s = accessFault n sm c a (toldError p s) := by
  cases p with
  | app n sm => cases op with
    | write bs =>
      have meaning : busFail (.app n sm) a (.write bs) s =
        if a < mainBase then storeFailed n a (toldError (.app n sm) s) else toldError (.app n sm) s := rfl
      rw [meaning]
      split
      · exact .inr (.inl ⟨n, rfl⟩)
      · exact .inl rfl
    | _ => exact .inr (.inr ⟨n, sm, _, rfl⟩)
  | _ => exact .inl rfl

theorem busFail_reply {p : Party} (h : busParty p = true) (a : Nat) (op : MemOp) (s : State) : (busFail p a op s).reply = .busError := by
  rcases busFail_cases p a op s with e | ⟨n, e⟩ | ⟨n, sm, c, e⟩ <;> rw [e]
  · exact toldError_reply h s
  · rw [storeFailed_reply, toldError_reply h]
  · exact toldError_reply h s

@[simp] theorem busFail_mem (p : Party) (a : Nat) (op : MemOp) (s : State) : (busFail p a op s).mem = s.mem := by
  rcases busFail_cases p a op s with e | ⟨n, e⟩ | ⟨n, sm, c, e⟩ <;> rw [e]
  · exact toldError_mem p s
  · rw [storeFailed_mem, toldError_mem]
  · exact toldError_mem p s

/-- A bus error touches no register but CL_EVENTS and CL_BUSERR_ADDR. -/
theorem getF_busFail {f : FieldRef} (h : BitsApart busErrorWords f) (p : Party) (a : Nat) (op : MemOp) (s : State) :
    getF (busFail p a op s) f = getF s f := by
  rcases busFail_cases p a op s with e | ⟨n, e⟩ | ⟨n, sm, c, e⟩ <;> rw [e]
  · exact getF_congr (toldError_csr p s) f
  · rw [getF_storeFailed h, getF_congr (toldError_csr p s)]
  · have trapped : (accessFault n sm c a (toldError p s)).csr = s.csr := toldError_csr p s
    exact getF_congr trapped f

theorem inRange_iff {a lo hi : Nat} : inRange a lo hi = true ↔ lo ≤ a ∧ a ≤ hi := by simp [inRange]

/-! ### Where no register stands (R24, R546) -/

/-- `a` lies in the view of the slices, in main memory or beyond. -/
def InMemory (a : Nat) : Prop := mainBase ≤ a ∨ viewBase ≤ a ∧ a < 0x0204000000

/-- The `count` places, `stride` apart, from `base` on leave the view of the slices and main memory free. -/
abbrev LeavesMemory (base stride count : Nat) : Prop :=
  0 < stride ∧ (base + stride * count ≤ viewBase ∨ 0x0204000000 ≤ base ∧ base + stride * count ≤ mainBase)

theorem regBlocks_leaveMemory : ∀ b ∈ regBlocks, LeavesMemory b.base b.stride b.count := by decide
theorem blockSpans_leaveMemory : ∀ t ∈ blockSpans, LeavesMemory t.1 t.2.1 t.2.2.1 := by decide

theorem not_inside_of_leavesMemory {a base stride count : Nat} (h : InMemory a) (leaves : LeavesMemory base stride count) :
    ¬ (base ≤ a ∧ (a - base) / stride < count) := by
  rintro ⟨lo, inst⟩
  obtain ⟨pos, place⟩ := leaves
  have hi : a - base < stride * count := by
    rw [Nat.mul_comm]
    exact (Nat.div_lt_iff_lt_mul pos).mp inst
  simp only [InMemory, viewBase, mainBase] at h place
  omega

/-- No register stands in memory. -/
theorem isCsr_of_inMemory {a : Nat} (h : InMemory a) : isCsr a = false := by
  have block : findBlock a = none := by
    rw [findBlock, List.find?_eq_none]
    intro b hb inside
    simp only [inBlock, Bool.and_eq_true, decide_eq_true_eq] at inside
    exact not_inside_of_leavesMemory h (regBlocks_leaveMemory b hb) inside.1
  have span : spanOf a = none := by
    rw [spanOf, Option.map_eq_none_iff, List.find?_eq_none]
    intro t ht inside
    simp only [Bool.and_eq_true, decide_eq_true_eq] at inside
    exact not_inside_of_leavesMemory h (blockSpans_leaveMemory t ht) inside.1
  have router : tableRouter a = none := by
    simp only [InMemory, viewBase, mainBase] at h
    simp only [tableRouter, Bool.and_eq_true, inRange_iff]
    rw [if_neg (by omega), if_neg (by omega)]
  simp [isCsr, csrAt, block, span, router]

/-- An access of memory lets nothing that waits go on. -/
theorem settleAt_of_inMemory {a : Nat} (h : InMemory a) (s : State) : settleAt a s = s := by
  have out : ¬ (Reg.memCh_MEM_CH_CTRL 0 ≤ a ∧ a ≤ Reg.memCh_MEM_CH_CTRL (16 - 1) ∧
      Reg.memCh_MEM_CH_CTRL ((a - Reg.memCh_MEM_CH_CTRL 0) / (Reg.memCh_MEM_CH_CTRL 1 - Reg.memCh_MEM_CH_CTRL 0)) = a) := by
    simp only [InMemory, viewBase, mainBase, Reg.memCh_MEM_CH_CTRL] at h ⊢
    omega
  have drain : (a == Reg.fab_FAB_DRAIN) = false := by
    simp only [InMemory, viewBase, mainBase] at h
    simp only [Reg.fab_FAB_DRAIN, beq_eq_false_iff_ne]
    omega
  simp only [settleAt, opens, placeOf, if_neg out, drain, Option.isSome_none, Bool.or_false, Bool.false_eq_true, if_false]

/-! ### A plain access that the firewall denies (R27, R511) -/

/-- A load or a store. -/
def PlainOp (op : MemOp) : Prop := (∃ n, op = .read n) ∨ ∃ bs, op = .write bs

section
variable {s : State} {p : Party} {a : Nat} {op : MemOp}

/-- The plain access spells the same slice operation at the view. -/
theorem sliceOpOf_plain (plain : PlainOp op) : sliceOpLen (sliceOpOf op) = memLen op ∧ sliceOpWrites (sliceOpOf op) = memWrites op := by
  rcases plain with ⟨n, rfl⟩ | ⟨bs, rfl⟩ <;> exact ⟨rfl, rfl⟩

/-- An access of memory that the firewall denies is recorded as denied. -/
theorem memDo_of_denied (place : mainBase ≤ a ∧ a ≤ mainBase + 0xFFFFFFFFF ∨ viewBase ≤ a ∧ a < 0x0204000000) (plain : PlainOp op)
    (size : sizeOk a (memLen op) = true) (denied : firewallOk s p a (memWrites op) = false) :
    memDo p a op 0 s = .error (firewallDeny p a (memWrites op) s) := by
  obtain ⟨len, writes⟩ := sliceOpOf_plain plain
  rcases place with ⟨lo, hi⟩ | ⟨lo, hi⟩
  · have outside (base : Nat) (h : base + 0x3FFFFFF < mainBase) : inRange a base (base + 0x3FFFFFF) = false := by
      rw [← Bool.not_eq_true, inRange_iff]
      omega
    have mapped : inMap a = true := List.any_eq_true.mpr
      ⟨(0x8000000000, 0x8FFFFFFFFF), by decide, inRange_iff.mpr ⟨lo, hi⟩⟩
    simp [memDo, outside viewBase (by decide), outside setBase (by decide), outside clearBase (by decide), size, mapped, denied]
  · have inside : inRange a viewBase (viewBase + 0x3FFFFFF) = true := inRange_iff.mpr ⟨lo, Nat.le_of_lt_succ hi⟩
    have whole : viewBase + (a - viewBase) = a := by omega
    simp [memDo, inside, viewDo, whole, len, writes, size, denied]

theorem answerAll_error (plain : PlainOp op) (t : State) : answerAll p a op (.error t) s = busFail p a op t := by
  have notSc : scLost s p a op = false := by
    rcases plain with ⟨n, rfl⟩ | ⟨bs, rfl⟩ <;> cases p <;> rfl
  have kept (u : State) : scEnds p op u = u := by
    rcases plain with ⟨n, rfl⟩ | ⟨bs, rfl⟩ <;> cases p <;> rfl
  simp [answerAll, notSc, kept, answerTo]

theorem cacheMeets_zero (s : State) : cacheMeets p a 0 s = s := by simp [cacheMeets]

/-- A plain access of memory, which no register answers, is made unless one waits before it. -/
theorem access_of_inMemory (place : InMemory a) (bus : busParty p = true) (plain : PlainOp op) (first : isMain a = true ∨ behind s p a = false) :
    access p a op 0 s = memAccess p a op 0 s := by
  have kind : kindOk p a op = true ∧ op ≠ .fence := by
    rcases plain with ⟨n, rfl⟩ | ⟨bs, rfl⟩ <;> exact ⟨rfl, by simp⟩
  have behind' : (!isMain a && behind s p a) = false := by rcases first with h | h <;> simp [h]
  simp [access, bus, kind, isCsr_of_inMemory place, cacheMeets_zero, behind']

/-- MEMORY_ACCESS that the firewall denies. -/
theorem exec_memoryAccess_denied (clean : s.rsvDirty = false) (bus : busParty p = true)
    (place : mainBase ≤ a ∧ a ≤ mainBase + 0xFFFFFFFFF ∨ viewBase ≤ a ∧ a < 0x0204000000 ∧ behind s p a = false) (plain : PlainOp op)
    (size : sizeOk a (memLen op) = true) (denied : firewallOk s p a (memWrites op) = false) :
    exec (.memoryAccess p a op 0) s = .next (sicSettle (busFail p a op (firewallDeny p a (memWrites op) s))) := by
  have memory : InMemory a := place.imp (·.1) fun h => ⟨h.1, h.2.1⟩
  have first : isMain a = true ∨ behind s p a = false := place.imp (inRange_iff.mpr ·) (·.2.2)
  have judged := memDo_of_denied (place.imp_right fun h => ⟨h.1, h.2.1⟩) plain size denied
  have meaning : exec (.memoryAccess p a op 0) s = live s (settleAt a (access p a op 0 s)) := rfl
  rw [meaning, live_next clean, settleAt_of_inMemory memory, access_of_inMemory memory bus plain first, memAccess, judged]
  exact congrArg (fun t => Host.Outcome.next (sicSettle t)) (answerAll_error plain _)

end

/-! ### A plain access that a slice denies (R412) -/

/-- The read or the write that spells a plain slice operation. -/
def PlainSliceOp (op : SliceOp) : Prop := (∃ n, op = .read n) ∨ ∃ bs, op = .write bs

section
variable {s : State} {p : Party} {off : Nat} {op : SliceOp}

/-- The context table is not read again for an access outside it and without a mirror. -/
theorem tableCheck_of_outside {lo hi : Nat} (outside : lo < viewBase + cttBase s ∨ viewBase + cttBase s + 0x400000 ≤ lo)
    (mirror : getF s Reg.ctt_CTT_MIRROR_ADDR = 0) : tableCheck lo hi s = s := by
  have notHere : ¬ (viewBase + cttBase s ≤ lo ∧ lo < viewBase + cttBase s + 0x400000) := by omega
  simp [tableCheck, notHere, mirror]

theorem sizeOk_pos {a n : Nat} (h : sizeOk a n = true) : 0 < n := by
  simp only [sizeOk, Bool.or_eq_true, Bool.and_eq_true, beq_iff_eq, decide_eq_true_eq] at h
  omega

theorem viewDo_of_sliceDenied :
    let n := sliceOpLen op
    let b := (sliceOf s.variant off).1
    let lo := (sliceOf s.variant off).2
    let a := viewBase + off
    b < 64 → sizeOk a n = true → answers s a = true → firewallOk s p a (sliceOpWrites op) = true → off + n ≤ viewLen s.variant →
    regionDown s (regionOfBlock b) = false → sliceRetained s b = false → sliceAllows s b p (sliceOpWrites op) = false →
    inCtt s off n = false → drainHolds s a = false → getF s Reg.ctt_CTT_MIRROR_ADDR = 0 →
    viewDo p viewBase off op 0 s = .error (sliceDeny b lo p (sliceOpWrites op) s) := by
  intro n b lo a hb size answered passes inView up awake denied table drain mirror
  have decided : sliceDo p off op 0 s = ⟨sliceDeny b lo p (sliceOpWrites op) s, none⟩ := by
    have fits : ¬ viewLen s.variant < off + sliceOpLen op := by omega
    simp [sliceDo, fits, table, up, awake, denied, n, b, lo]
  have apart (f : FieldRef) (h : f.addr < 0x0240000000 ∧ f.lo + f.width ≤ 32 ∨ 0x0300000000 ≤ f.addr) :
      getF (sliceDeny b lo p (sliceOpWrites op) s) f = getF s f :=
    getF_sliceDeny (by simp only [BitsApart, denialWords, Reg.slice_SLICE_EVENTS]; omega) _ _ _ _
  have base : cttBase (sliceDeny b lo p (sliceOpWrites op) s) = cttBase s := by
    rw [cttBase, apart Reg.ctt_CTT_CFG_BASE (by decide), cttBase]
  have kept : tableCheck a (a + n) (sliceDeny b lo p (sliceOpWrites op) s) = sliceDeny b lo p (sliceOpWrites op) s := by
    refine tableCheck_of_outside ?_ ((apart Reg.ctt_CTT_MIRROR_ADDR (by decide)).trans mirror)
    have pos := sizeOk_pos size
    simp only [inCtt, Bool.and_eq_false_iff, decide_eq_false_iff_not] at table
    rw [base]
    omega
  simp only [viewDo, size, passes, answered, drain, decided, a, n] at kept ⊢
  simp [kept]

/-- SLICE_ACCESS of a requester that is no core, where the access ends in a bus error. -/
theorem exec_sliceAccess_of_error {t : State} (clean : s.rsvDirty = false) (noCore : ∀ c e, p ≠ .core c e) (plain : PlainSliceOp op)
    (error : viewDo p viewBase off op 0 s = .error t) :
    exec (.sliceAccess p off op 0) s = .next (sicSettle (busFail p (viewBase + off) (memOpOf op) t)) := by
  have meaning : exec (.sliceAccess p off op 0) s = live s (viewAccess p viewBase off op 0 s) := by
    cases p with
    | core c e => exact absurd rfl (noCore c e)
    | _ => rcases plain with ⟨n, rfl⟩ | ⟨bs, rfl⟩ <;> rfl
  rw [meaning, live_next clean]
  simp only [viewAccess, error, answerTo]


end

/-- Settles O17: what the firewall or a slice denies is reported, and changes no memory. -/
theorem accessDenial : Obligations.AccessDenial := by
  unfold Obligations.AccessDenial
  constructor
  · intro s p a cls op clean bus isClass place plain size denied
    have place' : mainBase ≤ a ∧ a ≤ mainBase + 0xFFFFFFFFF ∨ viewBase ≤ a ∧ a < 0x0204000000 ∧ behind s p a = false :=
      place.imp_right fun ⟨lo, hi, first⟩ => ⟨lo, by omega, first⟩
    refine ⟨_, exec_memoryAccess_denied clean bus place' plain size denied, ?_, ?_, ?_⟩
    · rw [sicSettle_reply, busFail_reply bus]
    · rw [sicSettle_mem, busFail_mem, firewallDeny_mem]
    · obtain ⟨flag, record⟩ := firewallDeny_reports p a (memWrites op) s
      have small := partyClass_lt isClass
      set t := sicSettle (busFail p a op (firewallDeny p a (memWrites op) s)) with ht
      have kept (f : FieldRef) (h : BitsApart busErrorWords f) : getF t f = getF (firewallDeny p a (memWrites op) s) f := by
        rw [ht, getF_sicSettle, getF_busFail h]
      rw [kept _ (by decide), kept _ (by decide), kept _ (by decide), kept _ (by decide), isSet_of_getF (kept _ (by decide))]
      refine ⟨flag, fun empty => ?_⟩
      obtain ⟨valid, addr, clsField, write⟩ := record empty
      rw [isClass, Option.getD_some, Nat.mod_eq_of_lt (by omega)] at clsField
      exact ⟨valid, addr, clsField, write⟩
  · intro s p off op clean noCore plain n b lo a hb size answered passes inView up awake denied table drain mirror
    have run := exec_sliceAccess_of_error clean noCore plain
      (viewDo_of_sliceDenied hb size answered passes inView up awake denied table drain mirror)
    refine ⟨_, run, fun bus => ?_, ?_, ?_⟩
    · rw [sicSettle_reply, busFail_reply bus]
    · rw [sicSettle_mem, busFail_mem, sliceDeny_mem]
    · obtain ⟨flag, record⟩ := sliceDeny_reports b lo p (sliceOpWrites op) s
      set t := sicSettle (busFail p (viewBase + off) (memOpOf op) (sliceDeny b lo p (sliceOpWrites op) s)) with ht
      have kept (f : FieldRef) (h : 0x0200000000 ≤ f.addr) : getF t f = getF (sliceDeny b lo p (sliceOpWrites op) s) f := by
        rw [ht, getF_sicSettle, getF_busFail (by simp only [BitsApart, busErrorWords, Reg.cl_CL_EVENTS]; omega)]
      have slice (f : FieldRef) (k : Nat) (h : f.addr = 0x0240000000 + k + b * 0x10000) := kept f (by omega)
      rw [slice _ 0xC rfl, slice _ 0x14 rfl, slice _ 0x10 rfl, slice _ 0x10 rfl, slice _ 0x10 rfl, isSet_of_getF (slice _ 0x14 rfl)]
      exact ⟨flag, record⟩

end Sys2Proof.Machine
end

section
/-! PROOFS. Refutations by a run: what a warm reset does to a memory whose map has changed (R43, R425, R462), and what a recovery
leaves of a descriptor that can be read in its mirror alone (R317, R342, R426). -/

namespace Sys2Proof.Machine

/-- What holds of the state in which an outcome leaves the device. -/
def Leaves (o : Host.Outcome State Fault Refusal) (f : State → Bool) : Bool :=
  match o with
  | .next t => f t
  | _ => false

theorem leaves_of_next {o : Host.Outcome State Fault Refusal} {t : State} {f : State → Bool} (run : o = .next t) (h : Leaves o f = true) :
    f t = true := by
  rw [run] at h
  exact h

/-! ### A warm reset where MEM_CFG has changed since the memory controller stopped -/

/-- The memory controller has stopped, LOCAL has been written since, so that every byte is local, and one byte of main memory
is 7. -/
def mapChanged : State :=
  { Tests.up with memCfg := some (rdWord Tests.up Reg.mem_MEM_CFG), mem := [(mainBase + 0x800, 7)] } |> putF Reg.mem_MEM_CFG_LOCAL 2

/-- The security controller's request for a warm reset is taken, and no image is there to be verified. -/
theorem mapChanged_takes_warmReset : Bound mapChanged ∧ csrOk mapChanged .sec Reg.rst_RST_CMD true = true ∧
    requestResult mapChanged (some .sec) 1 0 = none ∧ isSet mapChanged Reg.boot_BOOT_IMAGE_VALID = false := by
  unfold Bound; decide +kernel

/-- The controller comes back with the new map: the byte stays in its place in its channel, and is found at another address. -/
theorem warmReset_mapChanged_moves_byte : Leaves (exec (.warmReset (.cmd .sec)) mapChanged) (fun t =>
    getByte t.mem (mainBase + 0x800) == 0 && getByte t.mem (mainBase + 0x100000000) == 7) = true := by
  decide +kernel

/-- Refutes O47: a warm reset enables the memory controller with the map of MEM_CFG as it now stands. Where MEM_CFG has changed since
the controller stopped, the bytes of main memory are found at other addresses, so that memory does not read as before. -/
theorem not_resets : ¬ Obligations.Resets := by
  unfold Obligations.Resets
  intro h
  obtain ⟨clean, ok, taken, noImage⟩ := mapChanged_takes_warmReset
  obtain ⟨-, -, -, -, warm, -⟩ := h mapChanged .sec clean ok rfl
  obtain ⟨t, run, ⟨-, -, -, kept, -⟩, -⟩ := (warm taken).2 noImage
  have same : getByte t.mem (mainBase + 0x800) = 7 := kept (mainBase + 0x800) (Nat.le_add_right _ _)
  have moved := leaves_of_next run warmReset_mapChanged_moves_byte
  simp only [same, Bool.and_eq_true, beq_iff_eq] at moved
  exact absurd moved.1 (by decide)

/-! ### A recovery where a write still waits for the mirror of the descriptor -/

/-- The recovery of context 9 is isolated. The slice row of its descriptor is retired, so that the mirror, at the bottom of main memory, is
its one copy; and a write to it, of STATE RUNNING and RECOVERING, still waits, although its channel is up. -/
def staleWrite : State :=
  let row := sliceOf .ay1024 (descOff Tests.memory 9)
  { putF Reg.ctt_CTT_MIRROR_ADDR (mainBase / 4096) Tests.memory with
    rows := [⟨row.1, row.2 / 4096, true⟩]
    memWait := [⟨.unit, mainBase + 64 * 9, .write [0x12]⟩]
    recovs := [⟨[9], [], false⟩] }

/-- The context has no checkpoint to be restored from, and no held event. -/
theorem staleWrite_recovers : Bound staleWrite ∧ staleWrite.recovs.find? (isolated staleWrite) = some ⟨[9], [], false⟩ ∧
    descLost staleWrite 9 = false ∧ dRecovering staleWrite 9 = true ∧ ckptChoice staleWrite 9 = none ∧ staleWrite.hold = [] := by
  unfold Bound; decide +kernel

/-- The mirror takes the updates of the recovery at once, and every read of it still finds the write that waits. -/
theorem recovery_staleWrite_stays_recovering : Leaves (exec .recovery staleWrite) (fun t => dRecovering t 9) = true := by
  decide +kernel

/-- Refutes O43: the clause of a recovery without a good checkpoint speaks of every bound state, so of one, which no command is known
to lead to, where a write waits for the mirror of a descriptor although its channel is up. A read of the descriptor takes the writes
that wait as carried out (R426), so that it hides the updates that the recovery has made: RECOVERING stays 1. -/
theorem not_faultsAndRecovery : ¬ Obligations.FaultsAndRecovery := by
  unfold Obligations.FaultsAndRecovery
  intro h
  obtain ⟨clean, first, readable, recovering, noCheckpoint, held⟩ := staleWrite_recovers
  obtain ⟨-, -, -, -, recovery⟩ := h staleWrite .sec clean
  obtain ⟨-, faulted⟩ := recovery _ 9 first rfl rfl rfl (by decide) readable recovering
  obtain ⟨t, run, -, ended, -⟩ := faulted noCheckpoint (by simp [held])
  have stays := leaves_of_next run recovery_staleWrite_stays_recovering
  rw [ended] at stays
  exact absurd stays (by decide)

end Sys2Proof.Machine
end

section
/-! PROOFS. What changes registers alone, and words and fields that a write leaves. -/

namespace Sys2Proof.Machine

/-! ### Changes of registers alone -/

/-- `t` differs from `s` in its registers alone. -/
def RegsOnly (s t : State) : Prop := t = { s with csr := t.csr }

namespace RegsOnly

theorem refl (s : State) : RegsOnly s s := rfl

theorem trans {s t u : State} (h : RegsOnly s t) (k : RegsOnly t u) : RegsOnly s u := by
  rw [RegsOnly] at h k ⊢
  rw [k, h]

/-- Whatever does not look at the registers is the same. -/
theorem same {s t : State} (h : RegsOnly s t) {α : Type} (f : State → α) (blind : ∀ c, f { s with csr := c } = f s) : f t = f s := by
  rw [h]
  exact blind _

theorem putF (f : FieldRef) (v : Nat) (s : State) : RegsOnly s (putF f v s) := putF_eq f v s

theorem wrWord (a : Nat) (v : Word) (s : State) : RegsOnly s (wrWord a v s) := rfl

theorem foldl {α : Type} {g : State → α → State} (h : ∀ t x, RegsOnly t (g t x)) (l : List α) (s : State) : RegsOnly s (l.foldl g s) :=
  List.foldlRecOn l g (motive := fun t => RegsOnly s t) (refl s) fun t ht x _ => ht.trans (h t x)

end RegsOnly

/-! ### Words as fields -/

theorem getF_word (s : State) (a : Nat) : getF s ⟨a, 0, 32⟩ = (rdWord s a).toNat := by
  have small := (rdWord s a).isLt
  simp only [getF, fieldWords, rdWords]
  omega

/-- A write of a field leaves every word that holds none of its bits. -/
theorem rdWord_putF_bits {f : FieldRef} {a : Nat} (h : BitsApart f ⟨a, 0, 32⟩) (v : Nat) (s : State) :
    rdWord (putF f v s) a = rdWord s a :=
  BitVec.eq_of_toNat_eq (by rw [← getF_word, getF_putF_bits h, getF_word])

theorem getF_foldl {α : Type} {f : FieldRef} {g : State → α → State} {l : List α} (h : ∀ x ∈ l, ∀ t, getF (g t x) f = getF t f)
    (s : State) : getF (l.foldl g s) f = getF s f :=
  List.foldlRecOn l g (motive := fun t => getF t f = getF s f) rfl fun t ht x hx => (h x hx t).trans ht

theorem rdWord_foldl {α : Type} {a : Nat} {g : State → α → State} {l : List α} (h : ∀ x ∈ l, ∀ t, rdWord (g t x) a = rdWord t a)
    (s : State) : rdWord (l.foldl g s) a = rdWord s a :=
  List.foldlRecOn l g (motive := fun t => rdWord t a = rdWord s a) rfl fun t ht x hx => (h x hx t).trans ht

end Sys2Proof.Machine
end

section
/-! PROOFS. Reads of register words, their shadows, and the paired writes of 64-bit registers (R31, R32, R37-R39). -/

namespace Sys2Proof.Machine

/-! ### What a read clears (R32) -/

theorem clearRc_regsOnly (w : WordAt) (idx : Nat) (hw : Word) (s : State) : RegsOnly s (clearRc w idx hw s) := by
  simp only [clearRc]
  split
  · exact .refl s
  · exact .wrWord _ _ s

/-- A clearing read of a word: its RC fields hold what hardware sets in the cycle, and its other bits stay. -/
theorem rdWord_clearRc (w : WordAt) (idx : Nat) (hw : Word) (s : State) :
    rdWord (clearRc w idx hw s) (w.reg + 4 * idx) =
      (rdWord s (w.reg + 4 * idx) &&& ~~~ accMask w.row idx .rc) ||| (hw &&& accMask w.row idx .rc) := by
  simp only [clearRc]
  split
  next none => 
    have all : ~~~ (0 : Word) = BitVec.allOnes 32 := rfl
    rw [none, all, BitVec.and_allOnes]
    simp
  · exact rdWord_wrWord_same _ _ _

theorem rdWord_clearRc_other {w : WordAt} {idx a : Nat} (h : a ≠ w.reg + 4 * idx) (hw : Word) (s : State) :
    rdWord (clearRc w idx hw s) a = rdWord s a := by
  simp only [clearRc]
  split
  · rfl
  · exact rdWord_wrWord_other h _ _

/-- The clearing read of a flag register empties records, which stand in other words. -/
theorem readCoupling_eq (reg : Nat) (v : Word) (s : State) : ∃ fs : List FieldRef, (∀ f ∈ fs, BitsApart f ⟨reg, 0, 32⟩) ∧
    readCoupling reg v s = fs.foldl (fun t f => clrF f t) s := by
  have one (c : Bool) (f : FieldRef) (apart : BitsApart f ⟨reg, 0, 32⟩) : ∃ fs : List FieldRef,
      (∀ g ∈ fs, BitsApart g ⟨reg, 0, 32⟩) ∧ (if c = true then clrF f s else s) = fs.foldl (fun t g => clrF g t) s := by
    cases c
    · exact ⟨[], by simp, rfl⟩
    · exact ⟨[f], by simpa using apart, rfl⟩
  unfold readCoupling
  split
  next core => exact one _ _ (by simp only [BitsApart, Reg.core_FAULT_INFO_VALID, coreOfAddr]; omega)
  split
  next slice => exact one _ _ (by simp only [BitsApart, Reg.slice_SLICE_DENIED_INFO_VALID, blockOfAddr]; omega)
  split
  next bdu => exact one _ _ (by simp only [BitsApart, Reg.bdu_BDU_FAULT_INFO_VALID, blockOfAddr]; omega)
  split
  next mem =>
    subst mem
    cases v.getLsbD 1
    · exact ⟨[], by simp, rfl⟩
    · refine ⟨(List.range 16).map Reg.memCh_MEM_ERR_ADDR_VALID, by decide, ?_⟩
      rw [List.foldl_map]
      rfl
  split
  next cl => subst cl; exact one _ _ (by decide)
  split
  next tb => subst tb; exact one _ _ (by decide)
  split
  next sec => subst sec; exact one _ _ (by decide)
  exact ⟨[], by simp, rfl⟩

theorem readCoupling_regsOnly (reg : Nat) (v : Word) (s : State) : RegsOnly s (readCoupling reg v s) := by
  obtain ⟨fs, -, e⟩ := readCoupling_eq reg v s
  rw [e]
  exact .foldl (fun t f => .putF f 0 t) fs s

theorem rdWord_readCoupling (reg : Nat) (v : Word) (s : State) : rdWord (readCoupling reg v s) reg = rdWord s reg := by
  obtain ⟨fs, apart, e⟩ := readCoupling_eq reg v s
  rw [e]
  exact rdWord_foldl (fun f hf t => rdWord_putF_bits (apart f hf) 0 t) s

/-! ### A read of a word without a rule of its own (R31, R37, R39) -/

/-- No register stands at `a` whose read has a rule of its own: not QDATA or its peek word, SIC_CLAIM, or a count or capture of a
timer. -/
def PlainRead (a : Nat) : Prop :=
  qdataAt a = none ∧ qdataAt (a - 0x800) = none ∧ placeOf Reg.sic_SIC_CLAIM 16 a = none ∧ timerAt a = none ∧ timerAt (a - 0x800) = none

/-- The read as it is carried out. -/
def readDone (p : Party) (a : Nat) (hw : Word) (s : State) : State :=
  let r := readWord p a hw { s with reply := .done }
  readReply (some r.1, r.2)

section
variable {s : State} {p : Party} {a : Nat} {hw : Word} {b : RegBlock} {blk : Nat} {peek : Bool} {w : WordAt}

theorem readBus_of_plain (at_ : csrAt a = .word b blk peek w) (router : tableRouter a = none) (ok : csrOk s p a false = true)
    (plain : PlainRead a) : readBus p a hw s = readDone p a hw s := by
  obtain ⟨queue, peek, claim, timer, timerAlias⟩ := plain
  have writes : memWrites read32 = false := rfl
  have bus (t : State) : busRead p a hw t = (some (readWord p a hw t).1, (readWord p a hw t).2) := by
    simp only [busRead, claim, timer, timerAlias, readAny, queue, peek]
  have back : ringBack s a read32 = false := by simp only [ringBack, queue, Bool.and_false]
  simp only [readBus, router, at_, csrDo, writes, ok, back, bus, Option.isSome_none, Bool.false_and, Bool.false_eq_true, if_false,
    Bool.not_false, Bool.and_self, if_true, readDone]

theorem latchHigh_shadows (s : State) : latchHigh p blk w s = { s with shadows := (latchHigh p blk w s).shadows } := by
  have latch (tag : Nat) (v : List Word) : latchShadow p blk tag v s = { s with shadows := (latchShadow p blk tag v s).shadows } := by
    unfold latchShadow
    split <;> rfl
  unfold latchHigh
  split
  · exact latch _ _
  · split
    · exact latch _ _
    · rfl

/-- What a read clears, by the kind of register. -/
def readClears (peek : Bool) (w : WordAt) (hw v : Word) (s : State) : State :=
  if peek then s
  else if w.idx = 0 ∧ w.row.width = 64 then s |> clearRc w 0 hw |> clearRc w 1 0 |> readCoupling w.reg v
  else if w.row.width = 64 then s
  else s |> clearRc w w.idx hw |> readCoupling w.reg v

theorem readWord_of_word (at_ : csrAt a = .word b blk peek w) (s : State) :
    readWord p a hw s = (seenWord s p blk w, readClears peek w hw (seenWord s p blk w) (latchHigh p blk w s)) := by
  simp only [readWord, at_, readClears]
  split_ifs <;> rfl

theorem readClears_regsOnly (v : Word) (s : State) : RegsOnly s (readClears peek w hw v s) := by
  unfold readClears
  split_ifs
  · exact .refl s
  · exact ((clearRc_regsOnly w 0 hw s).trans (clearRc_regsOnly w 1 0 _)).trans (readCoupling_regsOnly _ _ _)
  · exact .refl s
  · exact (clearRc_regsOnly w w.idx hw s).trans (readCoupling_regsOnly _ _ _)

/-- The first word's read clears its RC fields but for those that hardware sets in the cycle (R32). -/
theorem rdWord_readClears (first : w.idx = 0) (v : Word) (s : State) : rdWord (readClears false w hw v s) w.reg =
    (rdWord s w.reg &&& ~~~ accMask w.row 0 .rc) ||| (hw &&& accMask w.row 0 .rc) := by
  have cleared := rdWord_clearRc w 0 hw s
  simp only [Nat.mul_zero, Nat.add_zero] at cleared
  simp only [readClears, first, Bool.false_eq_true, if_false, true_and]
  split_ifs with wide
  · rw [rdWord_readCoupling, rdWord_clearRc_other (by omega), cleared]
  · rw [rdWord_readCoupling, cleared]

/-- The word as the party sees it, without its WO fields. -/
def shownWord (s : State) (p : Party) (w : WordAt) : Word :=
  partyWord { s with reply := .done } p (w.reg + 4 * w.idx) (rdWord s (w.reg + 4 * w.idx)) &&& ~~~ accMask w.row w.idx .wo

theorem seenWord_of_noTimer (timer : timerAt (w.reg + 4 * w.idx) = none) : seenWord { s with reply := .done } p blk w =
    (shadowOf s p blk).elim (shownWord s p w)
      (fun h => if w.idx ≠ 0 ∧ h.tag = w.reg then h.value.getD (w.idx - 1) (shownWord s p w) else shownWord s p w) := by
  have noChain : chainShadow { s with reply := .done } p (w.reg + 4 * w.idx) = none := by simp only [chainShadow, timer]
  have same : shadowOf { s with reply := .done } p blk = shadowOf s p blk := rfl
  simp only [seenWord, noChain, same, Option.getD_none]
  cases shadowOf s p blk <;> rfl

theorem seenWord_first (first : w.idx = 0) (timer : timerAt (w.reg + 4 * w.idx) = none) :
    seenWord { s with reply := .done } p blk w = shownWord s p w := by
  rw [seenWord_of_noTimer timer]
  cases shadowOf s p blk <;> simp [first]

theorem shadowOf_latchShadow (shadowed : hasShadow p = true) (tag : Nat) (v : List Word) (s : State) :
    shadowOf (latchShadow p blk tag v s) p blk = some ⟨requester p, blockKey blk, tag, v⟩ := by
  simp [shadowOf, latchShadow, shadowed]

/-- What a read that is carried out answers, and what it leaves. -/
theorem readDone_spec (at_ : csrAt a = .word b blk peek w) :
    let t := sicSettle (readDone p a hw s)
    t.reply = .data (seenWord { s with reply := .done } p blk w).toNat ∧ (peek = true → t.csr = s.csr) ∧
      (peek = false → w.idx = 0 → rdWord t w.reg = (rdWord s w.reg &&& ~~~ accMask w.row 0 .rc) ||| (hw &&& accMask w.row 0 .rc)) ∧
      t.shadows = (latchHigh p blk w { s with reply := .done }).shadows ∧ t.mem = s.mem ∧ t.engs = s.engs := by
  have latched := latchHigh_shadows (p := p) (blk := blk) (w := w) { s with reply := .done }
  have cleared (v : Word) := readClears_regsOnly (peek := peek) (w := w) (hw := hw) v (latchHigh p blk w { s with reply := .done })
  simp only [readDone, readReply, readWord_of_word at_, sicSettle_reply, sicSettle_csr, sicSettle_shadows, sicSettle_mem, sicSettle_engs]
  refine ⟨trivial, fun peek => ?_, fun normal first => ?_, (cleared _).same State.shadows fun _ => rfl, ?_, ?_⟩
  · rw [peek, readClears, if_pos rfl, latched]
  · have start : rdWord (latchHigh p blk w { s with reply := .done }) w.reg = rdWord s w.reg := rdWord_congr (by rw [latched]) _
    rw [rdWord_sicSettle, normal, ← start]
    exact rdWord_readClears first _ _
  · rw [(cleared _).same State.mem fun _ => rfl, latched]
  · rw [(cleared _).same State.engs fun _ => rfl, latched]

end

theorem isLowWord_iff {a : Nat} {b : RegBlock} {blk : Nat} {peek : Bool} {w : WordAt} (at_ : csrAt a = .word b blk peek w) :
    isLowWord a = true ↔ w.row.width = 64 ∧ w.idx = 0 ∧ a % 4 = 0 := by
  simp [isLowWord, at_, and_assoc]

/-! ### Writes through the peek page, and of the two words of a register (R31, R38) -/

theorem dropHeld_eq (p : Party) (blk : Nat) (s : State) : dropHeld p blk s = { s with held := (dropHeld p blk s).held } := rfl

theorem imgRow_eq (w : WordAt) (s : State) : imgRow w s = { s with imgCsr := (imgRow w s).imgCsr } := by
  unfold imgRow
  split
  · rw [imgNote_eq (w.reg + 4), imgNote_eq w.reg]
  · exact imgNote_eq _ s

@[simp] theorem imgRow_csr (w : WordAt) (s : State) : (imgRow w s).csr = s.csr := by rw [imgRow_eq]
@[simp] theorem imgRow_mem (w : WordAt) (s : State) : (imgRow w s).mem = s.mem := by rw [imgRow_eq]
@[simp] theorem imgRow_engs (w : WordAt) (s : State) : (imgRow w s).engs = s.engs := by rw [imgRow_eq]
@[simp] theorem imgRow_cores (w : WordAt) (s : State) : (imgRow w s).cores = s.cores := by rw [imgRow_eq]
@[simp] theorem imgRow_reply (w : WordAt) (s : State) : (imgRow w s).reply = s.reply := by rw [imgRow_eq]
@[simp] theorem imgRow_held (w : WordAt) (s : State) : (imgRow w s).held = s.held := by rw [imgRow_eq]
@[simp] theorem imgRow_rsvDirty (w : WordAt) (s : State) : (imgRow w s).rsvDirty = s.rsvDirty := by rw [imgRow_eq]
@[simp] theorem rdWord_imgRow (w : WordAt) (s : State) (a : Nat) : rdWord (imgRow w s) a = rdWord s a := rdWord_congr (imgRow_csr w s) a

theorem heldFor_congr {s t : State} (h : s.held = t.held) (p : Party) (blk tag : Nat) : heldFor s p blk tag = heldFor t p blk tag := by
  rw [heldFor, heldLow, h, ← heldLow, ← heldFor]

theorem heldFor_holdLow (p : Party) (blk tag : Nat) (v : Word) (s : State) : heldFor (holdLow p blk tag v s) p blk tag = some v := by
  simp [heldFor, heldLow, holdLow]

theorem heldFor_of_dropped {t : State} {p : Party} {blk : Nat} (s : State) (h : t.held = (dropHeld p blk s).held) (tag : Nat) :
    heldFor t p blk tag = none := by
  have none : heldLow t p blk = none := by
    rw [heldLow, h, dropHeld, List.find?_eq_none]
    intro x hx
    rw [Bool.not_eq_true]
    exact (Bool.not_eq_true' _).mp (List.mem_filter.mp hx).2
  rw [heldFor, none]

/-- A write that changes no reserved bit leaves nothing to note (R9). -/
theorem noteRsv_of_kept {s : State} {a : Nat} {b : RegBlock} {blk : Nat} {peek : Bool} {w : WordAt} {v : Word}
    (at_ : csrAt a = .word b blk peek w) (kept : (rdWord s a ^^^ v) &&& rsvMask w.row w.idx = 0) : noteRsv a v s = s := by
  simp only [noteRsv, at_, kept, if_true]

section
variable {s : State} {p : Party} {a : Nat} {v : Word} {b : RegBlock} {blk : Nat} {w : WordAt}

theorem writeAny_peek (at_ : csrAt a = .word b blk true w) (router : tableRouter a = none) (ok : csrOk s p a true = true) :
    writeAny p a v s = dropHeld p blk { s with reply := .done } := by
  simp only [writeAny, router, at_, csrDo_write32 ok, Option.isSome_none, Bool.false_eq_true, if_false, if_true]

theorem writeAny_word (at_ : csrAt a = .word b blk false w) (router : tableRouter a = none) (ctrl : ctrlAt a = none)
    (ok : csrOk s p a true = true) : writeAny p a v s = imgRow w (regWrite p b blk w v { s with reply := .done }) := by
  simp only [writeAny, router, at_, ctrl, csrDo_write32 ok, Option.isSome_none, Bool.false_eq_true, if_false]

theorem regWrite_low (wide : w.row.width = 64) (open_ : writable w.row = true) (low : w.idx = 0) (s : State) :
    regWrite p b blk w v s = holdLow p blk w.reg v s := by
  simp only [regWrite, wide, open_, low, Bool.not_true, Bool.false_eq_true, if_false, if_true]

theorem regWrite_high_unheld (wide : w.row.width = 64) (open_ : writable w.row = true) (high : w.idx = 1)
    (unheld : heldFor s p blk w.reg = none) : regWrite p b blk w v s = dropHeld p blk s := by
  simp [regWrite, wide, open_, high, unheld]

/-- The registers of which `pairWrite` has a rule of its own. -/
def pairRules (k i : Nat) : List Nat :=
  [Reg.sq_QDATA k i, Reg.sq_CHAN_ROUTE k i, Reg.pe_LRN_MOD_SET k, Reg.ctt_CTT_MIRROR, Reg.rec_REC_SEED, Reg.rec_REC_SW_ARG0,
    Reg.rec_REC_SW_ARG1]

theorem pairWrite_of_no_rule {k i : Nat} (own : w.reg ∉ pairRules k i) (lo hi : Word) (s : State) :
    pairWrite p b blk w k i lo hi s = rawWrite b blk w 1 hi 0 (rawWrite b blk w 0 lo 0 s) := by
  simp only [pairRules, List.mem_cons, List.not_mem_nil, or_false, not_or] at own
  obtain ⟨queue, route, learn, mirror, seed, arg0, arg1⟩ := own
  simp only [pairWrite, if_neg queue, if_neg route, if_neg learn, if_neg mirror, if_neg seed, if_neg arg0, if_neg arg1]

theorem regWrite_high_held {lo : Word} (wide : w.row.width = 64) (open_ : writable w.row = true) (high : w.idx = 1)
    (held : heldFor s p blk w.reg = some lo) (own : w.reg ∉ pairRules (instOf b blk) (indexOf blk w))
    (keptLow : noteRsv w.reg lo (dropHeld p blk s) = dropHeld p blk s)
    (keptHigh : noteRsv (w.reg + 4) v (dropHeld p blk s) = dropHeld p blk s) :
    regWrite p b blk w v s = rawWrite b blk w 1 v 0 (rawWrite b blk w 0 lo 0 (dropHeld p blk s)) := by
  simp [regWrite, wide, open_, high, held, keptLow, keptHigh, pairWrite_of_no_rule own]

end

/-! ### The two words under their access codes -/

/-- WRITE_IGNORED of a block leaves its ENABLED. -/
theorem blkEnabled_setIgnored (g h : Nat) (s : State) : blkEnabled (setIgnored g s) h = blkEnabled s h := by
  have own (t : State) : isSet (putF (ignoredRef g) 1 t) (enabledRef h) = isSet t (enabledRef h) :=
    isSet_of_getF (getF_putF_apart (by unfold Apart ignoredRef enabledRef fieldWords; simp; omega) 1 t)
  have chip (t : State) : isSet (putF Reg.glob_CHIP_EVENTS_WRITE_IGNORED_SEEN 1 t) (enabledRef h) = isSet t (enabledRef h) :=
    isSet_of_getF (getF_putF_apart (by unfold Apart Reg.glob_CHIP_EVENTS_WRITE_IGNORED_SEEN enabledRef fieldWords; simp; omega) 1 t)
  simp only [blkEnabled, setIgnored, setF_def, own]
  split
  · rfl
  · exact chip s

section
variable {s : State} {b : RegBlock} {blk : Nat} {w : WordAt} {idx : Nat} {v : Word}
  (kept : (rdWord s (w.reg + 4 * idx) ^^^ v) &&& rsvMask w.row idx = 0)
include kept

/-- The write of a word leaves every word but it, the BLK_STATUS that governs it, and CHIP_EVENTS. -/
theorem rdWord_rawWrite_other {a : Nat} (word : a ≠ w.reg + 4 * idx) (status : a ≠ governorOf b blk + 4)
    (chip : a ≠ Reg.glob_CHIP_EVENTS) : rdWord (rawWrite b blk w idx v 0 s) a = rdWord s a := by
  rw [rawWrite_of_kept kept]
  extract_lets x gov m new t
  have stored : rdWord t a = rdWord s a := by
    simp only [t]
    split
    · rfl
    · exact rdWord_wrWord_other word _ _
  split
  · rw [rdWord_setIgnored_other status chip, stored]
  · exact stored

theorem blkEnabled_rawWrite {g : Nat} (status : w.reg + 4 * idx ≠ g + 4) :
    blkEnabled (rawWrite b blk w idx v 0 s) g = blkEnabled s g := by
  rw [rawWrite_of_kept kept]
  extract_lets x gov m new t
  have stored : blkEnabled t g = blkEnabled s g := by
    simp only [t]
    split
    · rfl
    · have other : rdWord (wrWord x new s) (g + 4) = rdWord s (g + 4) := rdWord_wrWord_other (Ne.symm status) _ _
      exact isSet_of_getF (by simp only [getF, enabledRef, fieldWords, rdWords, other])
  split
  · rw [blkEnabled_setIgnored, stored]
  · exact stored

end

/-- What the write of both words of a register stores, where both keep their reserved bits. -/
theorem rawWrite_pair {s : State} {b : RegBlock} {blk : Nat} {w : WordAt} {lo hi : Word}
    (keptLow : (rdWord s w.reg ^^^ lo) &&& rsvMask w.row 0 = 0) (keptHigh : (rdWord s (w.reg + 4) ^^^ hi) &&& rsvMask w.row 1 = 0)
    (own : ∀ x ∈ [w.reg, w.reg + 4], x ≠ governorOf b blk + 4 ∧ x ≠ Reg.glob_CHIP_EVENTS) :
    let t := rawWrite b blk w 1 hi 0 (rawWrite b blk w 0 lo 0 s)
    let m := openMask s (governorOf b blk) w.row
    RegsOnly s t ∧ rdWord t w.reg = (rdWord s w.reg &&& ~~~ m 0) ||| (lo &&& m 0) ∧
      rdWord t (w.reg + 4) = (rdWord s (w.reg + 4) &&& ~~~ m 1) ||| (hi &&& m 1) := by
  intro t m
  obtain ⟨⟨status, chip⟩, status', chip'⟩ : (w.reg ≠ governorOf b blk + 4 ∧ w.reg ≠ Reg.glob_CHIP_EVENTS) ∧
      w.reg + 4 ≠ governorOf b blk + 4 ∧ w.reg + 4 ≠ Reg.glob_CHIP_EVENTS := by simpa using own
  have high : rdWord (rawWrite b blk w 0 lo 0 s) (w.reg + 4) = rdWord s (w.reg + 4) :=
    rdWord_rawWrite_other (idx := 0) keptLow (by omega) status' chip'
  have keptHigh' : (rdWord (rawWrite b blk w 0 lo 0 s) (w.reg + 4 * 1) ^^^ hi) &&& rsvMask w.row 1 = 0 := by
    rw [Nat.mul_one, high]
    exact keptHigh
  have mask : openMask (rawWrite b blk w 0 lo 0 s) (governorOf b blk) w.row 1 = m 1 := by
    rw [openMask, blkEnabled_rawWrite (idx := 0) keptLow status]
    rfl
  have first : RegsOnly s (rawWrite b blk w 0 lo 0 s) := rawWrite_onlyCsr (idx := 0) keptLow
  have second : RegsOnly (rawWrite b blk w 0 lo 0 s) t := rawWrite_onlyCsr keptHigh'
  refine ⟨first.trans second, ?_, ?_⟩
  · rw [rdWord_rawWrite_other keptHigh' (by omega) status chip]
    exact rdWord_rawWrite (idx := 0) keptLow status chip
  · have stored := rdWord_rawWrite keptHigh' status' chip'
    rwa [Nat.mul_one, high, mask] at stored

/-! ### The commands -/

section
variable {s : State} (clean : s.rsvDirty = false) {p : Party} {a : Nat} {b : RegBlock} {blk : Nat} {peek : Bool} {w : WordAt}
include clean

theorem exec_rcRead_of_plain {hw : Word} (at_ : csrAt a = .word b blk peek w) (router : tableRouter a = none)
    (ok : csrOk s p a false = true) (plain : PlainRead a) : exec (.rcRead p a hw) s = .next (sicSettle (readDone p a hw s)) := by
  have meaning : exec (.rcRead p a hw) s = live s (readBus p a hw s) := rfl
  rw [meaning, live_next clean, readBus_of_plain at_ router ok plain]

theorem exec_lowWordRead_of_plain (at_ : csrAt a = .word b blk peek w) (router : tableRouter a = none)
    (ok : csrOk s p a false = true) (low : isLowWord a = true) (plain : PlainRead a) :
    exec (.lowWordRead p a) s = .next (sicSettle (readDone p a 0 s)) := by
  have meaning : exec (.lowWordRead p a) s = live s (if isLowWord a then readBus p a 0 s else s) := rfl
  rw [meaning, live_next clean, if_pos low, readBus_of_plain at_ router ok plain]

theorem exec_peekWrite_of_peek (at_ : csrAt a = .word b blk true w) (router : tableRouter a = none) (ok : csrOk s p a true = true)
    (v : Word) : exec (.peekWrite p a v) s = .next (sicSettle (dropHeld p blk { s with reply := .done })) := by
  have meaning : exec (.peekWrite p a v) s = execPeekWrite p a v s := rfl
  simp only [meaning, execPeekWrite, live_next clean, at_, writeAny_peek at_ router ok]

theorem exec_lowWordWrite_word (low : isLowWord a = true) (at_ : csrAt a = .word b blk false w) (router : tableRouter a = none)
    (ctrl : ctrlAt a = none) (ok : csrOk s p a true = true) (v : Word) :
    exec (.lowWordWrite p a v) s = .next (sicSettle (imgRow w (regWrite p b blk w v { s with reply := .done }))) := by
  have meaning : exec (.lowWordWrite p a v) s = live s (if isLowWord a then writeAny p a v s else s) := rfl
  rw [meaning, live_next clean, if_pos low, writeAny_word at_ router ctrl ok]

theorem exec_highWordWrite_word (low : isLowWord a = true) (at_ : csrAt (a + 4) = .word b blk false w)
    (router : tableRouter (a + 4) = none) (ctrl : ctrlAt (a + 4) = none) (ok : csrOk s p (a + 4) true = true) (v : Word) :
    exec (.highWordWrite p a v) s = .next (sicSettle (imgRow w (regWrite p b blk w v { s with reply := .done }))) := by
  have meaning : exec (.highWordWrite p a v) s = live s (if isLowWord a then writeAny p (a + 4) v s else s) := rfl
  rw [meaning, live_next clean, if_pos low, writeAny_word at_ router ctrl ok]

end

/-- Settles O16: a read answers the word as the party sees it and clears what its kind of register says; the low word that is held
is written with the high word. -/
theorem registerReadsAndPairedWrites : Obligations.RegisterReadsAndPairedWrites := by
  unfold Obligations.RegisterReadsAndPairedWrites
  constructor
  · intro s p addr hw b blk peek w clean at_ router a
    have plainRead (queue : qdataAt addr = none) (peek : qdataAt (addr - 0x800) = none) (claim : placeOf Reg.sic_SIC_CLAIM 16 addr = none)
        (timer : ∀ x ∈ [addr, addr - 0x800, a], timerAt x = none) : PlainRead addr :=
      ⟨queue, peek, claim, timer addr (by simp), timer (addr - 0x800) (by simp)⟩
    refine ⟨fun ok queue peek claim timer => ?_, fun ok peek v => ?_, fun ok low queue peek claim timer => ?_⟩
    · intro held
      have run := exec_rcRead_of_plain clean (hw := hw) at_ router ok (plainRead queue peek claim timer)
      obtain ⟨reply, kept, cleared, -, mem, engs⟩ := readDone_spec (s := s) (p := p) (hw := hw) at_
      refine ⟨_, run, ?_, kept, fun normal first => ?_, mem, engs⟩
      · rw [reply, seenWord_of_noTimer (timer a (by simp))]
        cases shadowOf s p blk <;> rfl
      · have word : a = w.reg := by simp only [a, first]; rfl
        rw [word, first]
        exact cleared normal first
    · subst peek
      exact ⟨_, exec_peekWrite_of_peek clean at_ router ok v, by simp [dropHeld]⟩
    · obtain ⟨wide, first, -⟩ := (isLowWord_iff at_).mp low
      have run := exec_lowWordRead_of_plain clean at_ router ok low (plainRead queue peek claim timer)
      obtain ⟨reply, kept, -, shadows, mem, engs⟩ := readDone_spec (s := s) (p := p) (hw := 0) at_
      refine ⟨_, run, ?_, fun shadowed => ?_, kept, mem, engs⟩
      · rw [reply, seenWord_first first (timer a (by simp)), shownWord, first]
        rfl
      · have latched : shadowOf (latchHigh p blk w { s with reply := .done }) p blk =
            some ⟨requester p, blockKey blk, w.reg, [partyWord { s with reply := .done } p (w.reg + 4) (rdWord s (w.reg + 4))]⟩ := by
          rw [latchHigh, if_pos ⟨first, wide⟩]
          exact shadowOf_latchShadow shadowed _ _ _
        rw [shadowOf, shadows, ← shadowOf, latched]
        rfl
  · intro s p addr v b blk w wh clean at_ atHigh wide open_ word first high aligned ctrl ctrlHigh router routerHigh ok okHigh
    subst word high
    have low : isLowWord w.reg = true := (isLowWord_iff at_).mpr ⟨wide, first, aligned⟩
    have run := exec_highWordWrite_word clean low atHigh routerHigh ctrlHigh okHigh v
    have stored := exec_lowWordWrite_word clean low at_ router ctrl ok v
    set u : State := { s with reply := .done }
    refine ⟨⟨_, stored, ?_⟩, fun unheld => ⟨_, run, ?_⟩, fun lo held => ?_⟩
    · have kept : heldFor (sicSettle (imgRow w (holdLow p blk w.reg v u))) p blk w.reg = some v := by
        rw [heldFor_congr (t := holdLow p blk w.reg v u) (by simp), heldFor_holdLow]
      rw [regWrite_low wide open_ first]
      exact ⟨by simp [holdLow, dropHeld, u], by simp [holdLow, dropHeld, u], kept, by simp [holdLow, dropHeld, u],
        by simp [holdLow, dropHeld, u], by simp [holdLow, dropHeld, u]⟩
    · rw [regWrite_high_unheld (s := u) (w := { w with idx := 1 }) wide open_ rfl unheld]
      exact ⟨by simp [dropHeld, u], by simp [dropHeld, u]⟩
    · intro k i gov m own apart keptLow keptHigh
      set d := dropHeld p blk u
      have notedLow : noteRsv w.reg lo d = d := noteRsv_of_kept at_ (by rw [first]; exact keptLow)
      have notedHigh : noteRsv (w.reg + 4) v d = d := noteRsv_of_kept atHigh keptHigh
      obtain ⟨only, lowWord, highWord⟩ := rawWrite_pair (s := d) (b := b) (blk := blk) (w := { w with idx := 1 }) keptLow keptHigh apart
      have mask (j : Nat) : openMask d gov w.row j = m j := openMask_congr (s := d) (t := s) rfl gov w.row j
      refine ⟨_, run, ?_⟩
      rw [regWrite_high_held (s := u) (w := { w with idx := 1 }) wide open_ rfl held own notedLow notedHigh]
      set t := rawWrite b blk { w with idx := 1 } 1 v 0 (rawWrite b blk { w with idx := 1 } 0 lo 0 d)
      refine ⟨?_, heldFor_of_dropped u ?_ _, ?_, ?_, ?_, ?_, ?_, ?_⟩
      · rw [sicSettle_reply, imgRow_reply, only.same State.reply fun _ => rfl]; rfl
      · rw [sicSettle_held, imgRow_held, only.same State.held fun _ => rfl]
      · rw [rdWord_sicSettle, rdWord_imgRow, ← mask]; exact lowWord
      · rw [rdWord_sicSettle, rdWord_imgRow, ← mask]; exact highWord
      · rw [sicSettle_mem, imgRow_mem, only.same State.mem fun _ => rfl]; rfl
      · rw [sicSettle_engs, imgRow_engs, only.same State.engs fun _ => rfl]; rfl
      · rw [sicSettle_cores, imgRow_cores, only.same State.cores fun _ => rfl]; rfl
      · rw [sicSettle_rsvDirty, imgRow_rsvDirty, only.same State.rsvDirty fun _ => rfl]; exact clean

end Sys2Proof.Machine
end

section
/-! PROOFS. The reset values of the register tables (R44). -/

namespace Sys2Proof.Machine

/-- The reset value of the word at offset `off` of a block, as its table gives it. -/
def tableReset (b : RegBlock) (off : Nat) : Word :=
  let o := if pageHasRc b (off / 4096) && decide (0x800 ≤ off % 4096) then off - 0x800 else off
  ((b.rows.find? (rowHolds o)).map fun r => BitVec.ofNat 32 (rowReset r / 2 ^ (32 * ((o - r.off) % r.stride / 4)))).getD 0

theorem resetWord_of_findBlock {a : Nat} {b : RegBlock} (block : findBlock a = some b) (even : oddReset a = none) :
    resetWord a = tableReset b (blockOff b a) := by
  simp only [resetWord, even, csrAt, block, tableReset]
  generalize b.rows.find? _ = row
  cases row <;> rfl

theorem rdWord_reset (a : Nat) : rdWord State.reset a = resetWord a := rfl

/-- A field of one word reads at reset as its bits of the word's reset value. -/
theorem getF_reset {f : FieldRef} (one : f.lo + f.width ≤ 32) (some_ : 0 < f.width) :
    getF State.reset f = (resetWord f.addr).toNat / 2 ^ f.lo % 2 ^ f.width := by
  have words : fieldWords f = 1 := by unfold fieldWords; omega
  simp [getF, words, rdWords, rdWord_reset]

/-! ### In which block a page stands -/

/-- No block begins or ends inside a page. -/
theorem regBlocks_pages : ∀ b ∈ regBlocks, b.base % 4096 = 0 ∧ b.stride % 4096 = 0 ∧ b.len % 4096 = 0 := by decide

theorem inBlock_page {b : RegBlock} (hb : b ∈ regBlocks) (page : Nat) {o : Nat} (h : o < 4096) :
    inBlock b (4096 * page + o) = inBlock b (4096 * page) := by
  obtain ⟨base, stride, len⟩ := regBlocks_pages b hb
  obtain ⟨B, eB⟩ := Nat.dvd_of_mod_eq_zero base
  obtain ⟨S, eS⟩ := Nat.dvd_of_mod_eq_zero stride
  obtain ⟨L, eL⟩ := Nat.dvd_of_mod_eq_zero len
  have place (x : Nat) (hx : x < 4096) : inBlock b (4096 * page + x) =
      (decide (B ≤ page) && decide ((page - B) / S < b.count) && decide ((page - B) % S < L)) := by
    by_cases above : B ≤ page
    case neg => simp [inBlock, eB, above]; omega
    have off : 4096 * page + x - b.base = x + 4096 * (page - B) := by omega
    have div : (x + 4096 * (page - B)) / b.stride = (page - B) / S := by
      rw [eS, ← Nat.div_div_eq_div_mul]
      congr 1
      omega
    have mod : (x + 4096 * (page - B)) % b.stride = x + 4096 * ((page - B) % S) := by
      rw [eS, Nat.mod_mul]
      congr 1 <;> [omega; (congr 2; omega)]
    have low : b.base ≤ 4096 * page + x := by omega
    have inside : x + 4096 * ((page - B) % S) < b.len ↔ (page - B) % S < L := by omega
    simp only [inBlock, off, div, mod, low, above, inside]
  rw [place o h, ← Nat.add_zero (4096 * page), place 0 (by omega)]

theorem findBlock_page (page : Nat) {o : Nat} (h : o < 4096) : findBlock (4096 * page + o) = findBlock (4096 * page) :=
  List.find?_congr fun _ hb => inBlock_page hb page h

/-- The SIC's block. -/
theorem findBlock_sic {o : Nat} (h : o < 4096) : findBlock (0x0004000000 + o) = some ⟨0x0004000000, 0x1000000, 1, 0x3000, .none, rows_sic⟩ := by
  rw [show 0x0004000000 = 4096 * 0x4000 from rfl, findBlock_page _ h]
  decide

/-- Of the blocks listed before the pages of the engines, none holds a page of an engine. -/
theorem findBlock_engine {c e : Nat} (hc : c < 1024) (he : e < 6) {o : Nat} (h : o < 4096) :
    findBlock (0x0100090000 + o + c * 0x100000 + e * 0x1000) = regBlocks[2 + e]? := by
  rw [show 0x0100090000 + o + c * 0x100000 + e * 0x1000 = 4096 * (0x100090 + 256 * c + e) + o by omega, findBlock_page _ h]
  have before : ∀ i, i < 2 + e → ∃ b, regBlocks[i]? = some b ∧ inBlock b (4096 * (0x100090 + 256 * c + e)) = false := by
    intro i hi
    have : i < 7 := by omega
    interval_cases i <;> refine ⟨_, rfl, ?_⟩ <;> simp [inBlock] <;> omega
  have own : ∃ b, regBlocks[2 + e]? = some b ∧ inBlock b (4096 * (0x100090 + 256 * c + e)) = true := by
    interval_cases e <;> refine ⟨_, rfl, ?_⟩ <;> simp [inBlock] <;> omega
  obtain ⟨b, at_, holds⟩ := own
  obtain ⟨lt, is⟩ := List.getElem?_eq_some_iff.mp at_
  rw [at_]
  refine List.find?_eq_some_iff_getElem.mpr ⟨holds, 2 + e, lt, is, fun i hi => ?_⟩
  obtain ⟨b', at', other⟩ := before i hi
  obtain ⟨_, is'⟩ := List.getElem?_eq_some_iff.mp at'
  rw [is', other]
  rfl

theorem oddReset_eq_none {a : Nat} (sources : ∀ n ∈ [8, 16, 24], a ≠ Reg.sic_SIC_SRC n)
    (segments : ∀ i ∈ [0, 1, 2, 3, 4, 5, 6, 7, 8, 63], a ≠ Reg.pcie_PCIE_SEG i) : oddReset a = none := by
  simp only [List.forall_mem_cons, List.not_mem_nil, false_implies, implies_true, and_true] at sources segments
  simp only [oddReset, sources, segments, if_false]

/-- The reset value of a source's word, but for the three sources that R392 opens to the host. -/
theorem resetWord_sicSrc {n : Nat} (h : n < 1024) (plain : ¬(n = 8 ∨ n = 16 ∨ n = 24)) : resetWord (Reg.sic_SIC_SRC n) = 0 := by
  have even : oddReset (Reg.sic_SIC_SRC n) = none := by
    refine oddReset_eq_none ?_ ?_ <;> simp [Reg.sic_SIC_SRC, Reg.pcie_PCIE_SEG] <;> omega
  have block := findBlock_sic (o := 4 * n) (by omega)
  rw [show 0x0004000000 + 4 * n = Reg.sic_SIC_SRC n by simp [Reg.sic_SIC_SRC]; omega] at block
  rw [resetWord_of_findBlock block even]
  have off : blockOff ⟨0x0004000000, 0x1000000, 1, 0x3000, .none, rows_sic⟩ (Reg.sic_SIC_SRC n) = 4 * n := by
    simp [blockOff, Reg.sic_SIC_SRC]; omega
  have page : 4 * n / 4096 = 0 := by omega
  have row : rows_sic.find? (rowHolds (4 * n)) = rows_sic[0]? := List.find?_cons_of_pos (by simp [rowHolds]; omega)
  simp only [tableReset, off, page, show pageHasRc ⟨0x0004000000, 0x1000000, 1, 0x3000, .none, rows_sic⟩ 0 = false from rfl,
    Bool.false_and, Bool.false_eq_true, if_false, row]
  show BitVec.ofNat 32 (0 / _) = 0
  rw [Nat.zero_div]
  rfl

/-- The reset value of an engine's instruction limit (R44). -/
theorem resetWord_gander {c e : Nat} (hc : c < 1024) (he : e < 6) : resetWord (Reg.eng_GANDER_LIMIT c e) = 1048576 := by
  have even : oddReset (Reg.eng_GANDER_LIMIT c e) = none := by
    refine oddReset_eq_none ?_ ?_ <;> simp [Reg.eng_GANDER_LIMIT, Reg.sic_SIC_SRC, Reg.pcie_PCIE_SEG] <;> omega
  have block := findBlock_engine hc he (o := 8) (by omega)
  have table : ∀ i : Fin 6, ∃ b, regBlocks[2 + i.val]? = some b ∧ b.base = 0x0100090000 + i.val * 0x1000 ∧ b.stride = 0x100000 ∧ tableReset b 8 = 1048576 := by
    decide
  obtain ⟨b, at_, base, stride, value⟩ := table ⟨e, he⟩
  rw [at_, show 0x0100090000 + 8 + c * 0x100000 + e * 0x1000 = Reg.eng_GANDER_LIMIT c e from rfl] at block
  have off : blockOff b (Reg.eng_GANDER_LIMIT c e) = 8 := by
    simp only [blockOff, Reg.eng_GANDER_LIMIT, base, stride]
    omega
  rw [resetWord_of_findBlock block even, off, value]

theorem hostEn_reset {n : Nat} (h : n < 1024) :
    getF State.reset (Reg.sic_SIC_SRC_HOST_EN n) = if n = 8 ∨ n = 16 ∨ n = 24 then 1 else 0 := by
  split
  case isTrue three => obtain rfl | rfl | rfl := three <;> decide
  case isFalse plain => rw [getF_reset (by simp [Reg.sic_SIC_SRC_HOST_EN]) (by simp [Reg.sic_SIC_SRC_HOST_EN])]; simp [Reg.sic_SIC_SRC_HOST_EN, show resetWord (0x0004000000 + n * 0x4) = 0 from resetWord_sicSrc h plain]

theorem ganderLimit_reset {c e : Nat} (hc : c < 1024) (he : e < 6) : getF State.reset (Reg.eng_GANDER_LIMIT_LIMIT c e) = 1048576 := by
  rw [getF_reset (by simp [Reg.eng_GANDER_LIMIT_LIMIT]) (by simp [Reg.eng_GANDER_LIMIT_LIMIT])]
  simp [Reg.eng_GANDER_LIMIT_LIMIT, show resetWord (0x0100090008 + c * 0x100000 + e * 0x1000) = 1048576 from resetWord_gander hc he]

/-- Settles O55: a reset state lists no word, so that each field reads as the reset value of its table. -/
theorem resetValues : Obligations.ResetValues := by
  refine ⟨⟨rfl, rfl, rfl, rfl⟩, by decide, fun _ => hostEn_reset, by decide, by decide, by decide, by decide,
    fun _ _ => ganderLimit_reset, by decide, by decide, by decide, by decide, by decide⟩

end Sys2Proof.Machine
end

section
/-! PROOFS. Cold bring-up, from the reset to AWAIT_FIRMWARE, and the removal of the supplies (R45-R47, R466-R468, R474, R498, R501,
R548). -/

namespace Sys2Proof.Machine

/-- What every cold reset leaves but for the registers it then sets: no memory, no engine, no core, the commands still in line. -/
structure Fresh (s t : State) : Prop where
  engs : t.engs = []
  mem : t.mem = []
  cores : t.cores = []
  pending : t.pending = s.pending

namespace Fresh

theorem regsOnly {s t u : State} (h : Fresh s t) (k : RegsOnly t u) : Fresh s u :=
  ⟨(k.same State.engs fun _ => rfl).trans h.engs, (k.same State.mem fun _ => rfl).trans h.mem,
    (k.same State.cores fun _ => rfl).trans h.cores, (k.same State.pending fun _ => rfl).trans h.pending⟩

theorem sicSettle {s t : State} (h : Fresh s t) : Fresh s (sicSettle t) :=
  ⟨by rw [sicSettle_engs, h.engs], by rw [sicSettle_mem, h.mem], by rw [sicSettle_cores, h.cores], by rw [sicSettle_pending, h.pending]⟩

end Fresh

/-- The state of a cold reset before its cause is written. -/
def coldBlank (pins : Pins) (s : State) : State :=
  { State.reset with pending := s.pending, variant := s.variant, free := s.free, outside := { s.outside with cfg := [], tlps := [] }
                     pins := pins }

theorem coldBegin_eq (cause : Nat) (pins : Pins) (s : State) :
    coldBegin cause pins s = putF Reg.rst_RST_CAUSE_CAUSE (2 ^ cause) (coldBlank pins s) := rfl

theorem coldBegin_fresh (cause : Nat) (pins : Pins) (s : State) : Fresh s (coldBegin cause pins s) := by
  rw [coldBegin_eq]
  have blank : Fresh s (coldBlank pins s) := ⟨rfl, rfl, rfl, rfl⟩
  exact blank.regsOnly (RegsOnly.putF _ _ _)

theorem chipState_coldBegin (cause : Nat) (pins : Pins) (s : State) : chipState (coldBegin cause pins s) = 0 := by
  rw [chipState, coldBegin_eq, getF_putF_bits (by decide), getF_congr (s := coldBlank pins s) (t := State.reset) rfl]
  decide

theorem rstCause_coldBegin (cause : Nat) (pins : Pins) (s : State) :
    getF (coldBegin cause pins s) Reg.rst_RST_CAUSE_CAUSE = 2 ^ cause % 2 ^ 6 :=
  getF_putF_same _ _ _

/-- Power-on takes the whole sequence of R540 with it, to the release of RST_N. -/
theorem exec_coldReset_powerOn {s : State} (clean : s.rsvDirty = false) : ∃ t, exec (.coldReset false) s = .next t ∧
    Fresh s t ∧ chipState t = 0 ∧ getF t Reg.rst_RST_CAUSE_CAUSE = 1 := by
  refine ⟨_, live_next clean _, (Fresh.regsOnly (coldBegin_fresh 0 _ s) (.putF _ _ _)).sicSettle, ?_, ?_⟩
  · rw [chipState, getF_sicSettle]
    exact (getF_putF_bits (by decide) _ _).trans (chipState_coldBegin 0 _ s)
  · rw [getF_sicSettle]
    exact (getF_putF_bits (by decide) _ _).trans (rstCause_coldBegin 0 _ s)

theorem exec_coldReset_rstN {s : State} (clean : s.rsvDirty = false) (on : s.power.p4 = false) : ∃ t,
    exec (.coldReset true) s = .next t ∧ Fresh s t ∧ chipState t = 0 ∧ getF t Reg.rst_RST_CAUSE_CAUSE = 2 ∧ t.pins.rstN = false := by
  refine ⟨_, live_next clean _, ?_⟩
  simp only [on, Bool.false_eq_true, if_false, if_true]
  exact ⟨(coldBegin_fresh 1 _ s).sicSettle, by rw [chipState, getF_sicSettle]; exact chipState_coldBegin 1 _ s,
    by rw [getF_sicSettle, rstCause_coldBegin]; rfl, by simp [coldBegin, coldPins]⟩

theorem exec_rstNRelease {s : State} (clean : s.rsvDirty = false) (low : s.pins.rstN = false) (on : s.power.p4 = false) (src : Nat) :
    ∃ t, exec (.rstNRelease src) s = .next t ∧ t.pins.rstN = true ∧ t.mem = s.mem ∧ getF t Reg.sec_SEC_STATUS_BOOT_SRC = src % 4 := by
  refine ⟨_, live_next clean _, ?_⟩
  simp only [low, on, Bool.not_false, Bool.and_self, if_true, sampleSrc, sicSettle_pins, putF_pins, sicSettle_mem, putF_mem,
    getF_sicSettle, getF_putF_same]
  exact ⟨trivial, trivial, Nat.mod_mod_of_dvd _ (Nat.dvd_refl 4)⟩

/-! ### The states of the chip -/

theorem setChipState_regsOnly (v : Nat) (s : State) : RegsOnly s (setChipState v s) := by
  unfold setChipState
  split
  · exact .refl s
  · exact (RegsOnly.putF _ _ _).trans (.putF _ _ _)

theorem chipState_setChipState {v : Nat} (h : v < 16) (s : State) : chipState (setChipState v s) = v := by
  unfold setChipState
  split
  · assumption
  · simp only [setF_def, chipState]
    rw [getF_putF_bits (by decide), getF_putF_same]
    exact Nat.mod_eq_of_lt h

/-- Entering a state of the chip writes CHIP_STATUS.STATE and an event. -/
theorem getF_setChipState {f : FieldRef} (state : BitsApart Reg.glob_CHIP_STATUS_STATE f)
    (event : BitsApart Reg.glob_CHIP_EVENTS_STATE_CHANGED f) (v : Nat) (s : State) : getF (setChipState v s) f = getF s f := by
  unfold setChipState
  split
  · rfl
  · rw [setF_def, getF_putF_bits event, getF_putF_bits state]

/-! ### COLD_INIT (R46, R47, R466, R498, R529) -/

theorem coresAtPowerUp_regsOnly (s : State) : RegsOnly s (coresAtPowerUp s) :=
  .foldl (fun _ _ => ((RegsOnly.putF _ _ _).trans (.putF _ _ _)).trans (.putF _ _ _)) _ s

theorem getF_coresAtPowerUp {f : FieldRef} (h : ∀ r ∈ List.range 4, BitsApart (Reg.clk_CLK_CORE_MULT r) f ∧
    BitsApart (Reg.pwr_PWR_VF_STATUS_CUR_MULT r) f ∧ BitsApart (Reg.pwr_PWR_VF_STATUS_CUR_VMV r) f) (s : State) :
    getF (coresAtPowerUp s) f = getF s f :=
  getF_foldl (fun r hr t => by
    obtain ⟨clock, mult, volts⟩ := h r hr
    rw [getF_putF_bits volts, getF_putF_bits mult, getF_putF_bits clock]) s

/-- The fuses as COLD_INIT leaves them, the key slots they revoke, and the enables of the core rails. -/
def fusesLoaded (eccCorrected eccFailed : Bool) (s : State) : State :=
  { s with sec := { s.sec with keyRevoke := Config.keyRevoke % 16 }
           pins := { s.pins with vcoreEn := (regions s).foldl (fun n r => n + 2 ^ r) 0 } }
    |> setF Reg.glob_FUSE_STATUS_LOADED |> putF Reg.glob_FUSE_STATUS_ECC_CORRECTED (bnat eccCorrected)
    |> putF Reg.glob_FUSE_STATUS_ECC_FAILED (bnat eccFailed)

/-- The core clocks and rails come up, unless P3 ended: then they keep their values. -/
def coresUnlessP3 (s : State) : State := if isSet s Reg.pwr_PWR_STATUS_FROM_P3 then s else coresAtPowerUp s

/-- The regions, clocks and rails that COLD_INIT brings up. -/
def clocksUp (s : State) : State :=
  s |> putF Reg.pwr_PWR_STATUS_REGION_STATE (regionsOn s)
    |> (fun u => putF Reg.clk_CLK_STATUS_LOCK (allLocks u) u) |> putF Reg.clk_CLK_STATUS_REF_OK 15 |> coresUnlessP3

theorem coresUnlessP3_regsOnly (s : State) : RegsOnly s (coresUnlessP3 s) := by
  unfold coresUnlessP3
  split
  · exact .refl s
  · exact coresAtPowerUp_regsOnly s

theorem getF_coresUnlessP3 {f : FieldRef} (h : ∀ r ∈ List.range 4, BitsApart (Reg.clk_CLK_CORE_MULT r) f ∧
    BitsApart (Reg.pwr_PWR_VF_STATUS_CUR_MULT r) f ∧ BitsApart (Reg.pwr_PWR_VF_STATUS_CUR_VMV r) f) (s : State) :
    getF (coresUnlessP3 s) f = getF s f := by
  unfold coresUnlessP3
  split
  · rfl
  · exact getF_coresAtPowerUp h s

theorem clocksUp_regsOnly (s : State) : RegsOnly s (clocksUp s) :=
  (((RegsOnly.putF _ _ s).trans (RegsOnly.putF _ _ _)).trans (RegsOnly.putF _ _ _)).trans (coresUnlessP3_regsOnly _)

theorem refOk_clocksUp (s : State) : getF (clocksUp s) Reg.clk_CLK_STATUS_REF_OK = 15 := by
  rw [clocksUp, getF_coresUnlessP3 (by decide), getF_putF_same]
  rfl

/-- Bringing the clocks up leaves the fuse registers. -/
theorem fuseStatus_clocksUp (s : State) : rdWord (clocksUp s) Reg.glob_FUSE_STATUS = rdWord s Reg.glob_FUSE_STATUS := by
  refine BitVec.eq_of_toNat_eq ?_
  rw [← getF_word, ← getF_word, clocksUp, getF_coresUnlessP3 (by decide), getF_putF_bits (by decide), getF_putF_bits (by decide),
    getF_putF_bits (by decide)]

/-- The cause of a power-on is set as COLD_INIT ends, unless the reset had one or P3 ended. -/
def powerOnCause (s : State) : State :=
  if getF s Reg.rst_RST_CAUSE_CAUSE = 0 ∧ isSet s Reg.pwr_PWR_STATUS_FROM_P3 = false then putF Reg.rst_RST_CAUSE_CAUSE 1 s else s

theorem powerOnCause_regsOnly (s : State) : RegsOnly s (powerOnCause s) := by
  unfold powerOnCause
  split
  · exact .putF _ _ s
  · exact .refl s

theorem getF_powerOnCause {f : FieldRef} (h : BitsApart Reg.rst_RST_CAUSE_CAUSE f) (s : State) : getF (powerOnCause s) f = getF s f := by
  unfold powerOnCause
  split
  · exact getF_putF_bits h _ s
  · rfl

theorem exec_coldInitDone_eq {s : State} (clean : s.rsvDirty = false) (start : chipState s = 0) (rstN : s.pins.rstN = true)
    (supplies : suppliesUp s = true) (p3 : s.power.p3 = false) (p4 : s.power.p4 = false) (corrected failed : Bool) :
    exec (.coldInitDone corrected failed) s =
      .next (sicSettle (setChipState (if failed then 8 else 1) (powerOnCause (clocksUp (fusesLoaded corrected failed s))))) := by
  show execColdInitDone corrected failed s = _
  rw [execColdInitDone, live_next clean, if_pos ⟨start, rstN, supplies, p3, p4⟩]
  rfl

/-- After COLD_INIT_DONE the register of the fuses shows what their load gave. -/
theorem fuseStatus_coldInit (corrected failed : Bool) (v : Nat) (s : State) :
    let t := setChipState v (powerOnCause (clocksUp (fusesLoaded corrected failed s)))
    getF t Reg.glob_FUSE_STATUS_LOADED = 1 ∧ getF t Reg.glob_FUSE_STATUS_ECC_CORRECTED = bnat corrected ∧
      getF t Reg.glob_FUSE_STATUS_ECC_FAILED = bnat failed := by
  intro t
  have word : rdWord t Reg.glob_FUSE_STATUS = rdWord (fusesLoaded corrected failed s) Reg.glob_FUSE_STATUS := by
    refine BitVec.eq_of_toNat_eq ?_
    rw [← getF_word, getF_setChipState (by decide) (by decide), getF_powerOnCause (by decide), getF_word, fuseStatus_clocksUp]
  have fuse {f : FieldRef} (at_ : f.addr = Reg.glob_FUSE_STATUS) (one : fieldWords f = 1) :
      getF t f = getF (fusesLoaded corrected failed s) f := by
    simp only [getF, one, at_, rdWords, word]
  rw [fuse rfl rfl, fuse rfl rfl, fuse rfl rfl]
  refine ⟨?_, ?_, ?_⟩
  · exact (getF_putF_bits (by decide) _ _).trans ((getF_putF_bits (by decide) _ _).trans (getF_putF_same _ _ _))
  · exact (getF_putF_bits (by decide) _ _).trans ((getF_putF_same _ _ _).trans (by cases corrected <;> rfl))
  · exact (getF_putF_same _ _ _).trans (by cases failed <;> rfl)

theorem exec_coldInitDone {s : State} (clean : s.rsvDirty = false) (start : chipState s = 0) (rstN : s.pins.rstN = true)
    (supplies : suppliesUp s = true) (p3 : s.power.p3 = false) (p4 : s.power.p4 = false) (corrected failed : Bool) :
    ∃ t, exec (.coldInitDone corrected failed) s = .next t ∧ chipState t = (if failed then 8 else 1) ∧ t.mem = s.mem ∧
      isSet t Reg.glob_FUSE_STATUS_LOADED = true ∧ isSet t Reg.glob_FUSE_STATUS_ECC_CORRECTED = corrected ∧
      isSet t Reg.glob_FUSE_STATUS_ECC_FAILED = failed ∧ getF t Reg.clk_CLK_STATUS_REF_OK = 15 ∧
      t.sec.keyRevoke = Config.keyRevoke % 16 := by
  let u := fusesLoaded corrected failed s
  let t := setChipState (if failed then 8 else 1) (powerOnCause (clocksUp u))
  have regs : RegsOnly u t := ((clocksUp_regsOnly u).trans (powerOnCause_regsOnly _)).trans (setChipState_regsOnly _ _)
  obtain ⟨loaded, ecc, failure⟩ := fuseStatus_coldInit corrected failed (if failed then 8 else 1) s
  have bool (b : Bool) : (bnat b == 1) = b := by cases b <;> rfl
  refine ⟨_, exec_coldInitDone_eq clean start rstN supplies p3 p4 corrected failed, ?_, ?_, ?_, ?_, ?_, ?_, ?_⟩
  · rw [chipState, getF_sicSettle]
    exact chipState_setChipState (by cases failed <;> decide) _
  · rw [sicSettle_mem]
    exact (regs.same State.mem fun _ => rfl).trans (by simp [u, fusesLoaded])
  · rw [isSet_sicSettle, isSet, loaded]
    rfl
  · rw [isSet_sicSettle, isSet, ecc, bool]
  · rw [isSet_sicSettle, isSet, failure, bool]
  · rw [getF_sicSettle, getF_setChipState (by decide) (by decide), getF_powerOnCause (by decide), refOk_clocksUp]
  · rw [sicSettle_sec]
    exact (regs.same (·.sec.keyRevoke) fun _ => rfl).trans (by simp [u, fusesLoaded])

/-! ### BIST (R467, R468) -/

theorem mem_badRows {rows : List (Nat × Nat)} {b : Nat} {q : Nat × Nat} : q ∈ badRows rows b ↔ q ∈ rows ∧ q.1 = b ∧ q.2 < 256 := by
  simp [badRows]

/-- Bring-up goes on when BIST reports no failure and each slice has spare rows enough. -/
theorem bistStop_none {s : State} {rows : List (Nat × Nat)}
    (spared : ∀ b, b < 64 → blockPresent s b = true → (badRows rows b).length ≤ 2) : bistStop s rows none = none := by
  have clear : (List.range 64).find? (fun b => blockPresent s b && decide (2 < (badRows rows b).length)) = none := by
    rw [List.find?_eq_none]
    intro b hb
    have few := spared b (List.mem_range.mp hb)
    simp only [Bool.and_eq_true, decide_eq_true_eq, not_and]
    intro present
    have := few present
    omega
  simp only [bistStop, clear, Option.map_none]

/-- A slice with more failing rows than spare rows stops bring-up. -/
theorem bistStop_slice {s : State} {rows : List (Nat × Nat)}
    (short : ¬ ∀ b, b < 64 → blockPresent s b = true → (badRows rows b).length ≤ 2) :
    ∃ b, b < 64 ∧ 2 < (badRows rows b).length ∧ bistStop s rows none = some (true, b) := by
  push Not at short
  obtain ⟨b, hb, present, many⟩ := short
  have found : ((List.range 64).find? (fun b => blockPresent s b && decide (2 < (badRows rows b).length))).isSome := by
    rw [List.find?_isSome]
    exact ⟨b, List.mem_range.mpr hb, by simp [present, many]⟩
  obtain ⟨k, hk⟩ := Option.isSome_iff_exists.mp found
  have at_ := List.find?_some hk
  simp only [Bool.and_eq_true, decide_eq_true_eq] at at_
  exact ⟨k, List.mem_range.mp (List.mem_of_find?_eq_some hk), at_.2, by simp only [bistStop, hk, Option.map_some]⟩

/-- What BIST_DONE does where bring-up stops. -/
def bistStopped (slice : Bool) (b : Nat) (s : State) : State :=
  s |> rstEvent 2 |> setF Reg.rst_BIST_INFO_VALID |> putF Reg.rst_BIST_INFO_SLICE (bnat slice) |> putF Reg.rst_BIST_INFO_BLOCK b
    |> setF Reg.glob_CHIP_EVENTS_FAULT_RAISED

theorem exec_bistDone_stops {s : State} (clean : s.rsvDirty = false) (state : chipState s = 1)
    (first : isSet s Reg.rst_BIST_INFO_VALID = false) {spares : Nat} {rows : List (Nat × Nat)} {failure : Option (Bool × Nat)}
    {slice : Bool} {b : Nat} (hb : b < 64) (stop : bistStop s rows failure = some (slice, b)) :
    ∃ t, exec (.bistDone spares rows failure) s = .next t ∧ chipState t = 1 ∧ isSet t Reg.rst_BIST_INFO_VALID = true ∧
      isSet t Reg.rst_BIST_INFO_SLICE = slice ∧ getF t Reg.rst_BIST_INFO_BLOCK = b ∧
      (getF t Reg.rst_RST_EVENTS_EVENTS).testBit 2 = true ∧ isSet t Reg.glob_CHIP_EVENTS_FAULT_RAISED = true := by
  have run : exec (.bistDone spares rows failure) s = .next (sicSettle (bistStopped slice b s)) := by
    show execBistDone spares rows failure s = _
    rw [execBistDone, live_next clean, if_pos ⟨state, first⟩, stop]
    rfl
  refine ⟨_, run, ?_⟩
  simp only [chipState, getF_sicSettle, isSet_sicSettle, bistStopped, rstEvent, setF_def]
  refine ⟨?_, ?_, ?_, ?_, ?_, ?_⟩
  · simp (disch := decide) only [flagF_def, getF_putF_bits]
    exact state
  · rw [isSet_putF_bits (by decide), isSet_putF_bits (by decide), isSet_putF_bits (by decide), isSet_putF_one _ _ (by decide)]
  · rw [isSet_putF_bits (by decide), isSet_putF_bits (by decide), isSet, getF_putF_same]
    cases slice <;> rfl
  · rw [getF_putF_bits (by decide), getF_putF_same]
    exact Nat.mod_eq_of_lt hb
  · simp (disch := decide) only [getF_putF_bits, testBit_flagF]
  · rw [isSet_putF_one _ _ (by decide)]

/-- The spare map as BIST leaves it; an exit from P3 keeps it (R483). -/
def sparesMapped (spares : Nat) (rows : List (Nat × Nat)) (s : State) : State :=
  if isSet s Reg.pwr_PWR_STATUS_FROM_P3 then s else spareMap spares rows s

theorem mem_rows_spareMap (spares : Nat) (rows : List (Nat × Nat)) (s : State) {b row : Nat} (hb : b < 64) (hrow : row < 256)
    (present : blockPresent s b = true) : (⟨b, row, false⟩ : RowMap) ∈ (spareMap spares rows s).rows ↔ (b, row) ∈ rows := by
  simp only [spareMap, putF_rows, List.mem_flatMap, List.mem_map, List.mem_filter, List.mem_range, mem_badRows]
  constructor
  · rintro ⟨_, -, q, ⟨hq, rfl, -⟩, e⟩
    obtain ⟨e1, e2⟩ : q.1 = b ∧ q.2 = row := by simpa using e
    exact e1 ▸ e2 ▸ hq
  · exact fun h => ⟨b, ⟨hb, present⟩, (b, row), ⟨h, rfl, hrow⟩, rfl⟩

theorem exec_bistDone_goesOn {s : State} (clean : s.rsvDirty = false) (state : chipState s = 1)
    (first : isSet s Reg.rst_BIST_INFO_VALID = false) {spares : Nat} {rows : List (Nat × Nat)} (on : bistStop s rows none = none) :
    ∃ t, exec (.bistDone spares rows none) s = .next t ∧ chipState t = 2 ∧ getF t Reg.glob_SPARE_USED_BLOCK =
        (if isSet s Reg.pwr_PWR_STATUS_FROM_P3 then getF s Reg.glob_SPARE_USED_BLOCK else spares % 2 ^ 64) ∧
      (isSet s Reg.pwr_PWR_STATUS_FROM_P3 = true → t.rows = s.rows) ∧
      (isSet s Reg.pwr_PWR_STATUS_FROM_P3 = false → ∀ b row, b < 64 → row < 256 → blockPresent s b = true →
        ((⟨b, row, false⟩ : RowMap) ∈ t.rows ↔ (b, row) ∈ rows)) := by
  have run : exec (.bistDone spares rows none) s = .next (sicSettle (setChipState 2 (sparesMapped spares rows s))) := by
    show execBistDone spares rows none s = _
    rw [execBistDone, live_next clean, if_pos ⟨state, first⟩, on]
    rfl
  refine ⟨_, run, (getF_sicSettle _ _).trans (chipState_setChipState (by decide) _), ?_⟩
  rw [getF_sicSettle, sicSettle_rows, (setChipState_regsOnly 2 _).same State.rows fun _ => rfl, getF_setChipState (by decide) (by decide)]
  unfold sparesMapped
  split
  · simp_all
  · rename_i cold
    refine ⟨?_, fun p3 => absurd p3 cold, fun _ b row hb hrow present => mem_rows_spareMap spares rows s hb hrow present⟩
    rw [spareMap, getF_putF_same]
    rfl

end Sys2Proof.Machine
end

section
/-! PROOFS. What the steps of a bring-up and of a warm reset write: slices, memory channels, alignment, holds and releases. -/

namespace Sys2Proof.Machine

theorem getF_wrWord {a : Nat} {f : FieldRef} (h : BitsApart ⟨a, 0, 32⟩ f) (v : Word) (s : State) : getF (wrWord a v s) f = getF s f := by
  refine Nat.eq_of_testBit_eq fun i => ?_
  rw [testBit_getF, testBit_getF]
  by_cases hi : i < f.width
  case neg => simp [hi]
  have word : f.addr + 4 * ((f.lo + i) / 32) ≠ a := by simp only [BitsApart] at h; omega
  rw [rdWord_wrWord_other word]

theorem align_regsOnly (s : State) : RegsOnly s (align s) := by
  unfold align
  split
  · exact .refl s
  · exact .putF _ _ s

theorem getF_align {f : FieldRef} (h : BitsApart Reg.clk_CLK_ALIGN_ALIGNED f) (s : State) : getF (align s) f = getF s f := by
  unfold align
  split
  · rfl
  · exact getF_putF_bits h _ s

theorem placeSlices_regsOnly (s : State) : RegsOnly s (placeSlices s) :=
  (RegsOnly.foldl (fun t _ => RegsOnly.wrWord _ _ t) _ s).trans (.putF _ _ _)

theorem getF_placeSlices {f : FieldRef} (owners : ∀ b < 64, BitsApart ⟨Reg.slice_SLICE_OWNER b, 0, 32⟩ f)
    (table : BitsApart Reg.ctt_CTT_CFG_BASE f) (s : State) : getF (placeSlices s) f = getF s f := by
  rw [placeSlices, getF_putF_bits table]
  exact getF_foldl (fun b hb t => getF_wrWord (owners b (List.mem_range.mp (List.mem_of_mem_filter hb))) _ t) s

theorem setRegionReady_regsOnly (r : Nat) (v : Bool) (s : State) : RegsOnly s (setRegionReady r v s) := .putF _ _ s

theorem releaseAll_regsOnly (s : State) : RegsOnly s (releaseAll s) :=
  ((RegsOnly.putF _ _ s).trans (RegsOnly.foldl (fun t _ => RegsOnly.wrWord _ _ t) _ _)).trans
    (RegsOnly.foldl (fun t r => setRegionReady_regsOnly r true t) _ _)

/-- A release, and a hold, of everything write the holds of the regions and of the cores and the regions' readiness. -/
abbrev HoldsApart (f : FieldRef) : Prop := BitsApart Reg.rst_RST_STATUS_REGION_HELD f ∧
  (∀ w < 32, BitsApart ⟨Reg.rst_RST_CORE_HELD w, 0, 32⟩ f) ∧ BitsApart Reg.glob_CHIP_STATUS_REGION_READY f

theorem getF_releaseAll {f : FieldRef} (h : HoldsApart f) (s : State) : getF (releaseAll s) f = getF s f := by
  obtain ⟨region, cores, ready⟩ := h
  refine (getF_foldl (fun r _ t => getF_putF_bits ready _ t) _).trans ?_
  refine (getF_foldl (fun w hw t => getF_wrWord (cores w (List.mem_range.mp hw)) _ t) _).trans ?_
  exact getF_putF_bits region _ s

theorem holdAll_regsOnly (s : State) : RegsOnly s (holdAll s) :=
  ((RegsOnly.putF _ _ s).trans (RegsOnly.putF _ _ _)).trans (RegsOnly.foldl (fun t _ => RegsOnly.wrWord _ _ t) _ _)

theorem getF_holdAll {f : FieldRef} (h : HoldsApart f) (s : State) : getF (holdAll s) f = getF s f := by
  obtain ⟨region, cores, ready⟩ := h
  refine (getF_foldl (fun w hw t => getF_wrWord (cores w (List.mem_range.mp hw)) _ t) _).trans ?_
  rw [getF_putF_bits ready, getF_putF_bits region]

/-! ### Training (R466, R501, R548) -/

/-- Each of the first `n` memory channels takes the state `v ch`. -/
theorem chState_foldl (v : Nat → Nat) (n : Nat) (s : State) {ch : Nat} (h : ch < n) :
    chState ((List.range n).foldl (fun t c => putF (Reg.memCh_MEM_CH_STATUS_STATE c) (v c) t) s) ch =
      v ch % 2 ^ (Reg.memCh_MEM_CH_STATUS_STATE ch).width := by
  induction n with
  | zero => omega
  | succ n ih =>
    rw [List.range_succ, List.foldl_append, List.foldl_cons, List.foldl_nil]
    by_cases last : ch = n
    · subst last
      exact getF_putF_same _ _ _
    · have apart : BitsApart (Reg.memCh_MEM_CH_STATUS_STATE n) (Reg.memCh_MEM_CH_STATUS_STATE ch) := by
        simp only [BitsApart, Reg.memCh_MEM_CH_STATUS_STATE]; omega
      exact (getF_putF_bits apart _ _).trans (ih (by omega))

/-- The memory that training finds, its controller enabled, and every channel up. -/
def memoryTrained (rate density ranks : Nat) (s : State) : State :=
  s |> putF Reg.mem_MEM_CFG_RATE rate |> putF Reg.mem_MEM_CFG_DENSITY density |> putF Reg.mem_MEM_CFG_RANKS ranks
    |> putF (enRef Reg.mem_BLK_CTRL) 1 |> putF (enabledRef Reg.mem_BLK_CTRL) 1
    |> (fun u => (List.range (memChannels s.variant)).foldl (fun v ch => putF (Reg.memCh_MEM_CH_STATUS_STATE ch) chUp v) u)

/-- The mailboxes of the host and of the cluster, and the host's doorbell (R501), as training ends. -/
def mailboxesSet (s : State) : State :=
  s |> setMailbox 63 8 9 |> setMailbox 62 9 8 |> putF (Reg.mbx_DB_MASK_MASK 8) (getF s (Reg.mbx_DB_MASK_MASK 8) ||| 1)

/-- The device as it is let run at the end of training. -/
def trainingEnd (s : State) : State := s |> align |> putF Reg.clk_CLK_ALIGN_TB_LOCKED 1 |> placeSlices |> releaseAll

theorem memoryTrained_regsOnly (rate density ranks : Nat) (s : State) : RegsOnly s (memoryTrained rate density ranks s) :=
  (((((RegsOnly.putF _ _ s).trans (RegsOnly.putF _ _ _)).trans (RegsOnly.putF _ _ _)).trans (RegsOnly.putF _ _ _)).trans
    (RegsOnly.putF _ _ _)).trans (RegsOnly.foldl (fun t _ => RegsOnly.putF _ _ t) _ _)

theorem setMailbox_regsOnly (n sender receiver : Nat) (s : State) : RegsOnly s (setMailbox n sender receiver s) :=
  ((RegsOnly.putF _ _ s).trans (RegsOnly.putF _ _ _)).trans (RegsOnly.putF _ _ _)

theorem mailboxesSet_regsOnly (s : State) : RegsOnly s (mailboxesSet s) :=
  ((setMailbox_regsOnly _ _ _ s).trans (setMailbox_regsOnly _ _ _ _)).trans (RegsOnly.putF _ _ _)

theorem trainingEnd_regsOnly (s : State) : RegsOnly s (trainingEnd s) :=
  (((align_regsOnly s).trans (RegsOnly.putF _ _ _)).trans (placeSlices_regsOnly _)).trans (releaseAll_regsOnly _)

theorem getF_setMailbox {n : Nat} {f : FieldRef} (h : BitsApart ⟨Reg.mbx_MBX_CFG n, 0, 32⟩ f) (sender receiver : Nat) (s : State) :
    getF (setMailbox n sender receiver s) f = getF s f := by
  simp only [BitsApart, Reg.mbx_MBX_CFG] at h
  rw [setMailbox, getF_putF_bits, getF_putF_bits, getF_putF_bits] <;>
    simp only [BitsApart, Reg.mbx_MBX_CFG_SENDER, Reg.mbx_MBX_CFG_RECEIVER, Reg.mbx_MBX_CFG_DOORBELL] <;> omega

theorem getF_setMailbox_sender (n sender receiver : Nat) (s : State) :
    getF (setMailbox n sender receiver s) (Reg.mbx_MBX_CFG_SENDER n) = sender % 16 := by
  rw [setMailbox, getF_putF_bits, getF_putF_bits, getF_putF_same]
  · rfl
  all_goals simp [BitsApart, Reg.mbx_MBX_CFG_SENDER, Reg.mbx_MBX_CFG_RECEIVER, Reg.mbx_MBX_CFG_DOORBELL]

theorem getF_setMailbox_receiver (n sender receiver : Nat) (s : State) :
    getF (setMailbox n sender receiver s) (Reg.mbx_MBX_CFG_RECEIVER n) = receiver % 16 := by
  rw [setMailbox, getF_putF_bits, getF_putF_same]
  · rfl
  · simp only [BitsApart, Reg.mbx_MBX_CFG_RECEIVER, Reg.mbx_MBX_CFG_DOORBELL]; omega

theorem trainingEnd_keeps_memory {f : FieldRef} (h : Reg.mem_BLK_CTRL ≤ f.addr) (s : State) : getF (trainingEnd s) f = getF s f := by
  simp only [Reg.mem_BLK_CTRL] at h
  rw [trainingEnd, getF_releaseAll, getF_placeSlices, getF_putF_bits, getF_align]
  · simp only [BitsApart, Reg.clk_CLK_ALIGN_ALIGNED]; omega
  · simp only [BitsApart, Reg.clk_CLK_ALIGN_TB_LOCKED]; omega
  · simp only [BitsApart, Reg.slice_SLICE_OWNER]; omega
  · simp only [BitsApart, Reg.ctt_CTT_CFG_BASE]; omega
  · refine ⟨?_, fun w hw => ?_, ?_⟩ <;>
      simp only [BitsApart, Reg.rst_RST_STATUS_REGION_HELD, Reg.rst_RST_CORE_HELD, Reg.glob_CHIP_STATUS_REGION_READY] <;> omega

theorem mailboxesSet_keeps_memory {f : FieldRef} (h : Reg.mem_BLK_CTRL ≤ f.addr) (s : State) : getF (mailboxesSet s) f = getF s f := by
  simp only [Reg.mem_BLK_CTRL] at h
  rw [mailboxesSet, getF_putF_bits, getF_setMailbox, getF_setMailbox] <;>
    simp only [BitsApart, Reg.mbx_MBX_CFG, Reg.mbx_DB_MASK_MASK] <;> omega

theorem getF_mailboxesSet (s : State) :
    getF (mailboxesSet s) (Reg.mbx_MBX_CFG_SENDER 63) = 8 ∧ getF (mailboxesSet s) (Reg.mbx_MBX_CFG_RECEIVER 63) = 9 ∧
    getF (mailboxesSet s) (Reg.mbx_MBX_CFG_SENDER 62) = 9 ∧ getF (mailboxesSet s) (Reg.mbx_MBX_CFG_RECEIVER 62) = 8 := by
  simp only [mailboxesSet]
  refine ⟨?_, ?_, ?_, ?_⟩ <;> rw [getF_putF_bits (by decide)]
  · rw [getF_setMailbox (by decide), getF_setMailbox_sender]
  · rw [getF_setMailbox (by decide), getF_setMailbox_receiver]
  · rw [getF_setMailbox_sender]
  · rw [getF_setMailbox_receiver]

/-- The registers that describe the memory, once it is trained. -/
theorem getF_memoryTrained (rate density ranks : Nat) (s : State) :
    getF (memoryTrained rate density ranks s) (enabledRef Reg.mem_BLK_CTRL) = 1 ∧
    getF (memoryTrained rate density ranks s) Reg.mem_MEM_CFG_RATE = rate % 16 ∧
    getF (memoryTrained rate density ranks s) Reg.mem_MEM_CFG_DENSITY = density % 16 ∧
    getF (memoryTrained rate density ranks s) Reg.mem_MEM_CFG_RANKS = ranks % 2 := by
  have channels {f : FieldRef} (low : 8 * f.addr + f.lo + f.width ≤ 8 * Reg.memCh_MEM_CH_STATUS 0) (n : Nat) (t : State) :
      getF ((List.range n).foldl (fun v ch => putF (Reg.memCh_MEM_CH_STATUS_STATE ch) chUp v) t) f = getF t f := by
    refine getF_foldl (fun ch _ u => getF_putF_bits ?_ _ u) t
    simp only [BitsApart, Reg.memCh_MEM_CH_STATUS, Reg.memCh_MEM_CH_STATUS_STATE] at low ⊢
    omega
  simp only [memoryTrained]
  refine ⟨?_, ?_, ?_, ?_⟩ <;> rw [channels (by decide)]
  · exact getF_putF_same _ _ _
  · simp (disch := decide) only [getF_putF_bits, getF_putF_same]
    rfl
  · simp (disch := decide) only [getF_putF_bits, getF_putF_same]
    rfl
  · simp (disch := decide) only [getF_putF_bits, getF_putF_same]
    rfl

theorem exec_trainingDone {s : State} (clean : s.rsvDirty = false) (state : chipState s = 2) {rate density ranks : Nat}
    (hrate : rate < 16) (hdensity : density < 16) (hranks : ranks < 2) :
    ∃ t, exec (.trainingDone rate density ranks) s = .next t ∧ chipState t = 3 ∧
      (∀ ch, ch < memChannels s.variant → chState t ch = chUp) ∧ blkEnabled t Reg.mem_BLK_CTRL = true ∧
      getF t Reg.mem_MEM_CFG_RATE = rate ∧ getF t Reg.mem_MEM_CFG_DENSITY = density ∧
      getF t Reg.mem_MEM_CFG_RANKS = ranks ∧ getF t (Reg.mbx_MBX_CFG_SENDER 63) = 8 ∧ getF t (Reg.mbx_MBX_CFG_RECEIVER 63) = 9 ∧
      getF t (Reg.mbx_MBX_CFG_SENDER 62) = 9 ∧ getF t (Reg.mbx_MBX_CFG_RECEIVER 62) = 8 ∧ t.mem = s.mem := by
  let m := memoryTrained rate density ranks s
  let x := mailboxesSet (trainingEnd m)
  have run : exec (.trainingDone rate density ranks) s = .next (sicSettle (setChipState 3 x)) := by
    show execTrainingDone rate density ranks s = _
    rw [execTrainingDone, live_next clean, if_pos state]
    rfl
  have regs : RegsOnly s (setChipState 3 x) :=
    (((memoryTrained_regsOnly rate density ranks s).trans (trainingEnd_regsOnly m)).trans (mailboxesSet_regsOnly _)).trans
      (setChipState_regsOnly _ _)
  have memory {f : FieldRef} (h : Reg.mem_BLK_CTRL ≤ f.addr) : getF (sicSettle (setChipState 3 x)) f = getF m f := by
    simp only [Reg.mem_BLK_CTRL] at h
    rw [getF_sicSettle, getF_setChipState, mailboxesSet_keeps_memory h, trainingEnd_keeps_memory h] <;>
      simp only [BitsApart, Reg.glob_CHIP_STATUS_STATE, Reg.glob_CHIP_EVENTS_STATE_CHANGED] <;> omega
  have mailbox {f : FieldRef} (state : BitsApart Reg.glob_CHIP_STATUS_STATE f) (event : BitsApart Reg.glob_CHIP_EVENTS_STATE_CHANGED f) :
      getF (sicSettle (setChipState 3 x)) f = getF x f := by
    rw [getF_sicSettle, getF_setChipState state event]
  obtain ⟨host, hostTo, cluster, clusterTo⟩ := getF_mailboxesSet (trainingEnd m)
  obtain ⟨enabled, eRate, eDensity, eRanks⟩ := getF_memoryTrained rate density ranks s
  refine ⟨_, run, (getF_sicSettle _ _).trans (chipState_setChipState (by decide) _), fun ch hch => ?_, ?_, ?_, ?_, ?_, ?_, ?_, ?_, ?_, ?_⟩
  · refine (memory ?_).trans (chState_foldl (fun _ => chUp) _ _ hch)
    simp only [Reg.memCh_MEM_CH_STATUS_STATE, Reg.mem_BLK_CTRL]; omega
  · rw [blkEnabled, isSet, memory (by decide), enabled]
    rfl
  · rw [memory (by decide), eRate, Nat.mod_eq_of_lt hrate]
  · rw [memory (by decide), eDensity, Nat.mod_eq_of_lt hdensity]
  · rw [memory (by decide), eRanks, Nat.mod_eq_of_lt hranks]
  · rw [mailbox (by decide) (by decide), host]
  · rw [mailbox (by decide) (by decide), hostTo]
  · rw [mailbox (by decide) (by decide), cluster]
  · rw [mailbox (by decide) (by decide), clusterTo]
  · rw [sicSettle_mem]
    exact regs.same State.mem fun _ => rfl

/-! ### The removal of the supplies (R474) -/

theorem exec_supplyRemoval {s : State} (clean : s.rsvDirty = false) : ∃ t, exec .supplyRemoval s = .next t ∧ t.power.p4 = true ∧
    t.mem = [] ∧ t.csr = [] ∧ t.engs = [] ∧ t.pins.rstN = false := by
  refine ⟨_, live_next clean _, ?_⟩
  simp only [sicSettle_power, sicSettle_mem, sicSettle_csr, sicSettle_engs, sicSettle_pins]
  exact ⟨rfl, rfl, rfl, rfl, rfl⟩

end Sys2Proof.Machine
end

section
/-! PROOFS. The measurement of a clock (R472). -/

namespace Sys2Proof.Machine

/-- The start of a measurement. -/
def measStart (domain : Nat) (t : State) : State :=
  { t with measuring := true } |> putF Reg.clk_CLK_MEAS_SEL_DOMAIN domain |> clrF Reg.clk_CLK_MEAS_DONE

theorem imgNote_measuring (a : Nat) (s : State) : (imgNote a s).measuring = s.measuring := by rw [imgNote_eq]
theorem getF_imgNote (a : Nat) (f : FieldRef) (s : State) : getF (imgNote a s) f = getF s f := getF_congr (imgNote_csr a s) f

theorem csrAt_clkMeasSel : ∃ b w, csrAt Reg.clk_CLK_MEAS_SEL = .word b 0x2500000 false w := ⟨_, _, rfl⟩

theorem exec_clkMeasStart {s : State} {p : Party} (clean : s.rsvDirty = false) (ok : csrOk s p Reg.clk_CLK_MEAS_SEL true = true)
    {domain : Nat} (h : domain < 32) : ∃ t, exec (.clkMeasStart p domain) s = .next t ∧ t.measuring = true ∧
      getF t Reg.clk_CLK_MEAS_SEL_DOMAIN = domain ∧ isSet t Reg.clk_CLK_MEAS_DONE = false ∧ t.mem = s.mem := by
  obtain ⟨b, w, at_⟩ := csrAt_clkMeasSel
  have run : exec (.clkMeasStart p domain) s = .next (sicSettle (imgNote Reg.clk_CLK_MEAS_SEL
      (measStart domain (dropHeld p 0x2500000 { s with reply := .done })))) := by
    show execClkMeasStart p domain s = _
    rw [execClkMeasStart, live_next clean, csrEffect, csrDo_write32 ok]
    simp only [at_]
    rfl
  refine ⟨_, run, ?_⟩
  simp only [sicSettle_measuring, imgNote_measuring, getF_sicSettle, getF_imgNote, isSet_sicSettle, isSet_imgNote, sicSettle_mem,
    imgNote_mem, measStart, clrF_def, putF_measuring, putF_mem]
  refine ⟨trivial, ?_, isSet_putF_zero _ _, rfl⟩
  rw [getF_putF_bits (by decide), getF_putF_same]
  exact Nat.mod_eq_of_lt h

theorem exec_clkMeasDone {s : State} (clean : s.rsvDirty = false) (runs : s.measuring = true) (khz : Nat) :
    ∃ t, exec (.clkMeasDone khz) s = .next t ∧ t.measuring = false ∧ isSet t Reg.clk_CLK_MEAS_DONE = true ∧
      getF t Reg.clk_CLK_MEAS_KHZ = khz % 2 ^ 24 ∧ t.mem = s.mem := by
  refine ⟨_, live_next clean _, ?_⟩
  simp only [runs, if_true, sicSettle_measuring, isSet_sicSettle, getF_sicSettle, sicSettle_mem, setF_def, putF_measuring, putF_mem]
  refine ⟨trivial, isSet_putF_one _ _ (by decide), ?_, trivial⟩
  rw [getF_putF_bits (by decide), getF_putF_same]
  rfl

end Sys2Proof.Machine
end

section
/-! PROOFS. What an operation leaves of what the rules of the clocks look at. -/

namespace Sys2Proof.Machine

/-- The fields `fields` of the registers, with what of the state beside them the rules of the clocks and PERST_N speak of. -/
structure ClockView where
  fields : List Nat
  faultsUp : List FaultRep
  variant : Variant
  perstN : Bool
  holdover : Bool
  warmHeld : Bool

/-- What of the view stands beside the registers. -/
def clockRest (s : State) : List FaultRep × Variant × Bool × Bool × Bool := (s.faultsUp, s.variant, s.pins.perstN, s.holdover, s.warmHeld)

def clockView (fs : List FieldRef) (s : State) : ClockView :=
  ⟨fs.map (getF s), s.faultsUp, s.variant, s.pins.perstN, s.holdover, s.warmHeld⟩

variable {fs : List FieldRef} {s t : State}

theorem getF_of_clockView (h : clockView fs t = clockView fs s) {f : FieldRef} (hf : f ∈ fs) : getF t f = getF s f :=
  List.map_inj_left.mp (congrArg ClockView.fields h) f hf

theorem clockView_of_fields (fields : ∀ f ∈ fs, getF t f = getF s f)
    (rest : clockRest t = clockRest s) :
    clockView fs t = clockView fs s := by
  simp only [clockRest, Prod.mk.injEq] at rest
  simp only [clockView, ClockView.mk.injEq]
  exact ⟨List.map_congr_left fields, rest⟩

/-- What changes neither a register nor the rest of the view. -/
theorem clockView_of_csr (csr : t.csr = s.csr)
    (rest : clockRest t = clockRest s) :
    clockView fs t = clockView fs s :=
  clockView_of_fields (fun f _ => getF_congr csr f) rest

theorem clockView_of_regs (regs : RegsOnly s t) (fields : ∀ f ∈ fs, getF t f = getF s f) : clockView fs t = clockView fs s :=
  clockView_of_fields fields (regs.same clockRest fun _ => rfl)

/-- A write of a field apart from the fields in view. -/
theorem clockView_putF {f : FieldRef} (h : ∀ g ∈ fs, BitsApart f g) (v : Nat) (s : State) : clockView fs (putF f v s) = clockView fs s :=
  clockView_of_regs (.putF f v s) fun g hg => getF_putF_bits (h g hg) v s

theorem clockView_foldl {α : Type} {g : State → α → State} {l : List α} (h : ∀ x ∈ l, ∀ t, clockView fs (g t x) = clockView fs t)
    (s : State) : clockView fs (l.foldl g s) = clockView fs s :=
  List.foldlRecOn l g (motive := fun t => clockView fs t = clockView fs s) rfl fun t ht x hx => (h x hx t).trans ht

/-- What leaves a view leaves a smaller one. -/
theorem clockView_subset {gs : List FieldRef} (sub : ∀ f ∈ gs, f ∈ fs) (h : clockView fs t = clockView fs s) :
    clockView gs t = clockView gs s :=
  clockView_of_fields (fun f hf => getF_of_clockView h (sub f hf)) <| by
    simp only [clockView, ClockView.mk.injEq] at h
    simp only [clockRest, Prod.mk.injEq]
    exact h.2

/-- A step on a condition, of which each branch leaves the view. -/
theorem clockView_ite {c : Prop} [Decidable c] {a b : State} (ha : clockView fs a = clockView fs s)
    (hb : clockView fs b = clockView fs s) : clockView fs (if c then a else b) = clockView fs s := by
  split
  · exact ha
  · exact hb

theorem clockView_sicSettle (s : State) : clockView fs (sicSettle s) = clockView fs s :=
  clockView_of_csr (sicSettle_csr s) (by simp only [clockRest, sicSettle_faultsUp, sicSettle_variant, sicSettle_pins, sicSettle_holdover,
    sicSettle_warmHeld])

/-- The results of a command reach its requester in a table of their own. -/
theorem clockView_resultTo (p : Option Party) (code : Nat) (s : State) : clockView fs (resultTo p code s) = clockView fs s := by
  cases p with
  | none => rfl
  | some q => exact clockView_of_csr rfl rfl

theorem clockView_addReset (r : RunningReset) (s : State) : clockView fs (addReset r s) = clockView fs s := clockView_of_csr rfl rfl

theorem clockView_supersede (h : ∀ g ∈ fs, BitsApart Reg.rst_RST_EVENTS_EVENTS g) (kind target : Nat) (s : State) :
    clockView fs (supersede kind target s) = clockView fs s := by
  unfold supersede
  extract_lets hit gone t
  have dropped : clockView fs (gone.foldl (fun u r => resultTo r.by' 2 u) t) = clockView fs s :=
    (clockView_foldl (fun r _ u => clockView_resultTo r.by' 2 u) t).trans (clockView_of_csr rfl rfl)
  exact clockView_ite dropped ((clockView_putF h _ _).trans dropped)

/-- A request of the device itself has no requester to tell: it is carried out or it is nothing. -/
theorem request_device (kind target : Nat) (start : State → State) (s : State) : request none kind target start s =
    if requestResult s none kind target = none then start (supersede kind target s) else s := by
  unfold request
  cases requestResult s none kind target <;> rfl

end Sys2Proof.Machine
end

section
/-! PROOFS. The warm reset that a clock or PERST_N brings about (R43, R456, R461, R462). -/

namespace Sys2Proof.Machine

/-! ### The steps of a warm reset -/

/-- The cause, and what of the clocks a warm reset leaves. -/
def warmFields : List FieldRef := [Reg.rst_RST_CAUSE_CAUSE, Reg.clk_CLK_EVENTS_LOCK_LOST, Reg.clk_CLK_STATUS_REF_OK]

/-- With these, the chip's state as the reset begins. -/
def warmStateFields : List FieldRef := Reg.glob_CHIP_STATUS_STATE :: warmFields

theorem warmStateFields_holdAll (s : State) : clockView warmStateFields (holdAll s) = clockView warmStateFields s :=
  clockView_of_regs (holdAll_regsOnly s) fun f hf =>
    getF_holdAll ((by decide : ∀ f ∈ warmStateFields, HoldsApart f) f hf) s

theorem warmStateFields_releaseAll (s : State) : clockView warmStateFields (releaseAll s) = clockView warmStateFields s :=
  clockView_of_regs (releaseAll_regsOnly s) fun f hf =>
    getF_releaseAll ((by decide : ∀ f ∈ warmStateFields, HoldsApart f) f hf) s

theorem warmStateFields_warmRegions (s : State) : clockView warmStateFields (warmRegions s) = clockView warmStateFields s := by
  rw [warmRegions, warmStateFields_holdAll, clrF_def, clockView_putF (by decide), clrF_def, clockView_putF (by decide),
    clockView_putF (by decide)]
  exact clockView_of_csr rfl rfl

theorem warmStateFields_placeSlices (s : State) : clockView warmStateFields (placeSlices s) = clockView warmStateFields s :=
  clockView_of_regs (placeSlices_regsOnly s) fun f hf => getF_placeSlices
    ((by decide : ∀ f ∈ warmStateFields, ∀ b < 64, BitsApart ⟨Reg.slice_SLICE_OWNER b, 0, 32⟩ f) f hf)
    ((by decide : ∀ f ∈ warmStateFields, BitsApart Reg.ctt_CTT_CFG_BASE f) f hf) s

theorem warmStateFields_memMapOn (s : State) : clockView warmStateFields (memMapOn s) = clockView warmStateFields s := by
  have check (t : State) : clockView warmStateFields (localCheck t) = clockView warmStateFields t :=
    clockView_ite (clockView_putF (by decide) _ _) rfl
  have remap (w : Word) (t : State) : clockView warmStateFields (remapMain w t) = clockView warmStateFields t :=
    clockView_ite rfl (clockView_of_csr rfl rfl)
  rw [memMapOn, check]
  split
  · exact (remap _ _).trans (clockView_of_csr rfl rfl)
  · rfl

theorem warmStateFields_warmChannels (s : State) : clockView warmStateFields (warmChannels s) = clockView warmStateFields s := by
  have channels (g : Nat → Nat) (l : List Nat) (t : State) : clockView warmStateFields
      (l.foldl (fun t ch => putF (Reg.memCh_MEM_CH_STATUS_STATE ch) (g ch) t) t) = clockView warmStateFields t := by
    refine clockView_foldl (fun ch _ u => clockView_putF ?_ _ u) t
    simp [warmStateFields, warmFields, BitsApart, Reg.memCh_MEM_CH_STATUS_STATE, Reg.glob_CHIP_STATUS_STATE, Reg.rst_RST_CAUSE_CAUSE,
      Reg.clk_CLK_EVENTS_LOCK_LOST, Reg.clk_CLK_STATUS_REF_OK]
    omega
  simp only [warmChannels]
  rw [channels, warmStateFields_memMapOn, clockView_putF (by decide), clockView_putF (by decide)]

theorem warmFields_setChipState (v : Nat) (s : State) : clockView warmFields (setChipState v s) = clockView warmFields s :=
  clockView_of_regs (setChipState_regsOnly v s) fun f hf => getF_setChipState
    ((by decide : ∀ f ∈ warmFields, BitsApart Reg.glob_CHIP_STATUS_STATE f) f hf)
    ((by decide : ∀ f ∈ warmFields, BitsApart Reg.glob_CHIP_EVENTS_STATE_CHANGED f) f hf) v s

theorem warmFields_noImage (s : State) : clockView warmFields (noImage s) = clockView warmFields s := by
  have done (t : State) : clockView warmFields (warmDone t) = clockView warmFields t := by
    unfold warmDone
    split
    · exact (clockView_resultTo _ _ _).trans (clockView_of_csr rfl rfl)
    · rfl
  rw [noImage, done, warmFields_setChipState]
  exact clockView_ite (clockView_subset (by decide) (warmStateFields_releaseAll s)) rfl

theorem warmFields_warmVerify (locks : Nat) (s : State) : clockView warmFields (warmVerify locks s) = clockView warmFields s := by
  have aligned (t : State) : clockView warmFields (align t) = clockView warmFields t :=
    clockView_of_regs (align_regsOnly t) fun f hf =>
      getF_align ((by decide : ∀ f ∈ warmFields, BitsApart Reg.clk_CLK_ALIGN_ALIGNED f) f hf) t
  have locked : clockView warmFields (putF Reg.clk_CLK_ALIGN_TB_LOCKED 1 (align
      (putF Reg.clk_CLK_STATUS_LOCK (getF s Reg.clk_CLK_STATUS_LOCK ||| locks) s))) = clockView warmFields s := by
    rw [clockView_putF (by decide), aligned, clockView_putF (by decide)]
  simp only [warmVerify]
  exact clockView_ite ((clockView_of_csr rfl rfl).trans locked) ((warmFields_noImage _).trans locked)

end Sys2Proof.Machine
end

section
/-! PROOFS. Lost references and locks of the main clocks, and PERST_N with a warm reset (R456, R461). -/

namespace Sys2Proof.Machine

/-! ### The warm reset as a whole -/

/-- A word of the always-on domain outlives a warm reset. -/
theorem rdWord_warmState {a : Nat} (h : isAon a = true) (s : State) : rdWord (warmState s) a = rdWord s a := by
  have kept (l : Tab Word) : tfind a (l.filterMap warmWord) = tfind a l := by
    induction l with
    | nil => rfl
    | cons p l ih =>
      obtain ⟨k, v⟩ := p
      by_cases hk : k = a
      · subst hk
        have stays : warmWord (k, v) = some (k, v) := by simp [warmWord, h]
        simp [stays, tfind]
      · have key (q : Nat × Word) (hq : warmWord (k, v) = some q) : q.1 = k := by
          unfold warmWord at hq
          split at hq
          · exact (Option.some.inj hq) ▸ rfl
          · split at hq
            · exact (Option.some.inj hq) ▸ rfl
            · cases hq
        cases hw : warmWord (k, v) with
        | none => simp [hw, tfind, hk, ih]
        | some q => obtain ⟨k', v'⟩ := q; simp [hw, tfind, show k' = k from key _ hw, hk, ih]
  exact congrArg (fun o => match o with
    | some v => v
    | none => resetWord a) (kept s.csr)

theorem getF_warmState {f : FieldRef} (one : fieldWords f = 1) (h : isAon f.addr = true) (s : State) :
    getF (warmState s) f = getF s f := by
  simp only [getF, one, rdWords, rdWord_warmState h]

/-- A warm reset's path leaves its cause and the flags of the locks. -/
theorem warmFields_warmPath (q : RunningReset) (s : State) :
    clockView warmFields (warmPath false (some q) s) = clockView warmFields s := by
  simp only [warmPath, Bool.false_eq_true, if_false]
  rw [warmFields_warmVerify, clockView_addReset, clockView_subset (by decide) (warmStateFields_warmChannels _),
    clockView_subset (by decide) (warmStateFields_placeSlices _),
    clockView_subset (by decide) (warmStateFields_warmRegions _), warmFields_setChipState]

/-- The state in which a warm reset waits for the main reference. -/
def warmWaits (q : RunningReset) (s : State) : State :=
  s |> setChipState 6 |> warmRegions |> placeSlices |> warmChannels |> addReset q

theorem warmPath_held (q : RunningReset) (s : State) : warmPath true (some q) s = { warmWaits q s with warmHeld := true } := rfl

theorem warmStateFields_warmWaits (q : RunningReset) (s : State) :
    clockView warmStateFields (warmWaits q s) = clockView warmStateFields (setChipState 6 s) := by
  rw [warmWaits, clockView_addReset, warmStateFields_warmChannels, warmStateFields_placeSlices, warmStateFields_warmRegions]

/-- The state that a warm reset's path starts from. -/
def warmCaused (cause : Nat) (s : State) : State := putF Reg.rst_RST_CAUSE_CAUSE (2 ^ cause) (warmState s)

theorem warmBegin_eq (cause : Nat) (hold : Bool) (by' : Option Party) (s : State) :
    warmBegin cause hold by' s = warmPath hold (some ⟨1, 0, by', false⟩) (warmCaused cause s) := rfl

theorem warmCaused_spec (cause : Nat) (s : State) :
    getF (warmCaused cause s) Reg.rst_RST_CAUSE_CAUSE = 2 ^ cause % 2 ^ 6 ∧
    getF (warmCaused cause s) Reg.clk_CLK_EVENTS_LOCK_LOST = getF s Reg.clk_CLK_EVENTS_LOCK_LOST ∧
    (warmCaused cause s).holdover = s.holdover ∧ (warmCaused cause s).pins.perstN = s.pins.perstN := by
  refine ⟨getF_putF_same _ _ _, ?_, ?_, ?_⟩
  · rw [warmCaused, getF_putF_bits (by decide), getF_warmState (by decide) (by decide)]
  · rw [warmCaused, putF_holdover]
    rfl
  · rw [warmCaused, putF_pins]
    rfl

/-- What the clauses of the clocks and of PERST_N need of a warm reset, held or not. -/
structure WarmBegun (cause : Nat) (s t : State) : Prop where
  cause : getF t Reg.rst_RST_CAUSE_CAUSE = 2 ^ cause % 2 ^ 6
  lost : getF t Reg.clk_CLK_EVENTS_LOCK_LOST = getF s Reg.clk_CLK_EVENTS_LOCK_LOST
  holdover : t.holdover = s.holdover
  perstN : t.pins.perstN = s.pins.perstN

theorem WarmBegun.of_view {cause : Nat} {s t : State} (view : clockView warmFields t = clockView warmFields (warmCaused cause s)) :
    WarmBegun cause s t := by
  obtain ⟨eCause, eLost, eHoldover, ePerst⟩ := warmCaused_spec cause s
  exact ⟨(getF_of_clockView view (by decide)).trans eCause, (getF_of_clockView view (by decide)).trans eLost,
    (congrArg ClockView.holdover view).trans eHoldover, (congrArg ClockView.perstN view).trans ePerst⟩

theorem warmBegin_begun (cause : Nat) (by' : Option Party) (s : State) : WarmBegun cause s (warmBegin cause false by' s) := by
  rw [warmBegin_eq]
  exact .of_view (warmFields_warmPath _ _)

theorem warmBegin_held (cause : Nat) (by' : Option Party) (s : State) :
    WarmBegun cause s (warmBegin cause true by' s) ∧ (warmBegin cause true by' s).warmHeld = true ∧
      chipState (warmBegin cause true by' s) = 6 := by
  rw [warmBegin_eq, warmPath_held]
  have view := warmStateFields_warmWaits ⟨1, 0, by', false⟩ (warmCaused cause s)
  have waits : WarmBegun cause s (warmWaits ⟨1, 0, by', false⟩ (warmCaused cause s)) :=
    .of_view ((clockView_subset (by decide) view).trans (warmFields_setChipState 6 _))
  have field (t : State) (f : FieldRef) : getF { t with warmHeld := true } f = getF t f :=
    getF_congr (s := { t with warmHeld := true }) (t := t) rfl f
  have chip : chipState (warmWaits ⟨1, 0, by', false⟩ (warmCaused cause s)) = 6 :=
    (getF_of_clockView view (by decide)).trans (chipState_setChipState (by decide) _)
  exact ⟨⟨(field _ _).trans waits.cause, (field _ _).trans waits.lost, waits.holdover, waits.perstN⟩, rfl, (field _ _).trans chip⟩

/-- A warm reset that the device asks for itself. -/
theorem WarmBegun.supersede {cause : Nat} {s t : State} (h : WarmBegun cause (supersede 1 0 s) t) : WarmBegun cause s t := by
  have view : clockView warmFields (Sys2Proof.Machine.supersede 1 0 s) = clockView warmFields s := clockView_supersede (by decide) 1 0 s
  exact ⟨h.cause, h.lost.trans (getF_of_clockView view (by decide)), h.holdover.trans (congrArg ClockView.holdover view),
    h.perstN.trans (congrArg ClockView.perstN view)⟩

/-- Whether the device's own request of a warm reset is taken depends on the chip's state, the power state and the resets that run. -/
theorem requestResult_warm {s t : State} (chip : chipState t = chipState s) (power : t.power = s.power) (resets : t.resets = s.resets) :
    requestResult t none 1 0 = requestResult s none 1 0 := by
  simp [requestResult, resetTarget, coldRuns, chip, power, resets]

/-! ### A reset by the clocks (R456) -/

theorem clockReset_taken {hold : Bool} {s : State} (p3 : s.power.p3 = false) (cold : chipState s ≠ 6)
    (free : requestResult s none 1 0 = none) : clockReset hold s = warmBegin 4 hold none (supersede 1 0 s) := by
  rw [clockReset, if_neg (by simp [p3]), if_neg cold, request_device, if_pos free]

theorem warmBegin_of_device (cause : Nat) (hold : Bool) (s : State) :
    WarmBegun cause s (warmBegin cause hold none (supersede 1 0 s)) := by
  cases hold with
  | false => exact (warmBegin_begun _ _ _).supersede
  | true => exact (warmBegin_held _ _ _).1.supersede

/-- A reset by the clocks leaves the flags of the locks and the holdover, whether it is taken or not. -/
theorem clockReset_keeps (hold : Bool) (s : State) :
    getF (clockReset hold s) Reg.clk_CLK_EVENTS_LOCK_LOST = getF s Reg.clk_CLK_EVENTS_LOCK_LOST ∧
    (clockReset hold s).holdover = s.holdover := by
  rw [clockReset, request_device]
  split
  · exact ⟨rfl, rfl⟩
  split
  · cases hold
    · exact ⟨rfl, rfl⟩
    · exact ⟨getF_congr rfl _, rfl⟩
  split
  · have begun := warmBegin_of_device 4 hold s
    exact ⟨begun.lost, begun.holdover⟩
  · exact ⟨rfl, rfl⟩

/-! ### The loss of the main reference beyond its holdover (R456) -/

/-- As the holdover ends, the PLLs on the main reference are unlocked and the clocks are not aligned. -/
def mainUnlocked (s : State) : State :=
  s |> (fun t => putF Reg.clk_CLK_STATUS_LOCK (getF t Reg.clk_CLK_STATUS_LOCK / 2 ^ 10 * 2 ^ 10) t)
    |> clrF Reg.clk_CLK_ALIGN_ALIGNED |> clrF Reg.clk_CLK_ALIGN_TB_LOCKED

theorem mainUnlocked_regsOnly (s : State) : RegsOnly s (mainUnlocked s) :=
  ((RegsOnly.putF _ _ s).trans (RegsOnly.putF _ _ _)).trans (RegsOnly.putF _ _ _)

theorem getF_mainUnlocked {f : FieldRef} (lock : BitsApart Reg.clk_CLK_STATUS_LOCK f) (align : BitsApart ⟨Reg.clk_CLK_ALIGN, 0, 32⟩ f)
    (s : State) : getF (mainUnlocked s) f = getF s f := by
  simp only [BitsApart, Reg.clk_CLK_ALIGN] at align
  rw [mainUnlocked, clrF_def, getF_putF_bits, clrF_def, getF_putF_bits, getF_putF_bits lock] <;>
    simp only [BitsApart, Reg.clk_CLK_ALIGN_ALIGNED, Reg.clk_CLK_ALIGN_TB_LOCKED] <;> omega

theorem lock_mainUnlocked (s : State) : getF (mainUnlocked s) Reg.clk_CLK_STATUS_LOCK % 2 ^ 10 = 0 := by
  rw [mainUnlocked, clrF_def, getF_putF_bits (by decide), clrF_def, getF_putF_bits (by decide), getF_putF_same,
    show Reg.clk_CLK_STATUS_LOCK.width = 13 from rfl]
  omega

theorem exec_refHoldoverExpiry {s : State} (clean : s.rsvDirty = false) (holds : s.holdover = true) :
    ∃ t, exec .refHoldoverExpiry s = .next t ∧ t.holdover = false ∧ getF t Reg.clk_CLK_STATUS_LOCK % 2 ^ 10 = 0 ∧
      isSet t Reg.clk_CLK_ALIGN_ALIGNED = false ∧
      (s.power.p3 = false → chipState s ≠ 6 → requestResult s none 1 0 = none → t.warmHeld = true ∧ chipState t = 6 ∧
        getF t Reg.rst_RST_CAUSE_CAUSE = 16) := by
  have run : exec .refHoldoverExpiry s = .next (sicSettle (mainUnlocked (clockReset true { s with holdover := false }))) := by
    show execRefHoldoverExpiry s = _
    rw [execRefHoldoverExpiry, live_next clean, if_pos holds]
    rfl
  have chip : chipState { s with holdover := false } = chipState s := getF_congr rfl _
  have result : requestResult { s with holdover := false } none 1 0 = requestResult s none 1 0 := requestResult_warm chip rfl rfl
  have ended : (clockReset true { s with holdover := false }).holdover = false := (clockReset_keeps true _).2
  have regs := mainUnlocked_regsOnly (clockReset true { s with holdover := false })
  refine ⟨_, run, ?_, ?_, ?_, fun p3 cold free => ?_⟩
  · rw [sicSettle_holdover, regs.same State.holdover fun _ => rfl, ended]
  · rw [getF_sicSettle, lock_mainUnlocked]
  · rw [isSet_sicSettle, mainUnlocked, clrF_def, isSet_putF_bits (by decide), clrF_def, isSet_putF_zero]
  · have taken : clockReset true { s with holdover := false } = _ := clockReset_taken p3 (chip ▸ cold) (result.trans free)
    obtain ⟨begun, held, waits⟩ := warmBegin_held 4 none (supersede 1 0 { s with holdover := false })
    rw [taken] at regs ⊢
    rw [sicSettle_warmHeld, regs.same State.warmHeld fun _ => rfl, chipState, getF_sicSettle, getF_mainUnlocked (by decide) (by decide),
      getF_sicSettle, getF_mainUnlocked (by decide) (by decide)]
    exact ⟨held, waits, begun.cause⟩

/-! ### The return of a reference (R456) -/

theorem testBit_setBitN {v i : Nat} (b : Bool) : (setBitN v i b).testBit i = b := by
  cases b
  · by_cases h : v.testBit i
    · have quotient : (v - 2 ^ i) / 2 ^ i = v / 2 ^ i - 1 := by simpa using Nat.sub_mul_div v (2 ^ i) 1
      have odd : v / 2 ^ i % 2 = 1 := by simpa [Nat.testBit_eq_decide_div_mod_eq] using h
      simp only [setBitN, h, Bool.false_eq_true, if_false, if_true, Nat.testBit_eq_decide_div_mod_eq, quotient, decide_eq_false_iff_not]
      omega
    · simp [setBitN, h]
  · simp [setBitN]

/-- A bit of a field that `setBitN` changes reads as it is set. -/
theorem testBit_putF_setBitN {f : FieldRef} {i : Nat} (h : i < f.width) (v : Nat) (b : Bool) (s : State) :
    (getF (putF f (setBitN v i b) s) f).testBit i = b := by
  rw [getF_putF_same, Nat.testBit_mod_two_pow, testBit_setBitN]
  simp [h]

theorem exec_referenceReturn {s : State} (clean : s.rsvDirty = false) {ref : Nat} (h : ref < 4)
    (away : bitN (getF s Reg.clk_CLK_STATUS_REF_OK) ref = false) (fuses : isSet s Reg.glob_FUSE_STATUS_LOADED = true) :
    ∃ t, exec (.referenceReturn ref) s = .next t ∧ (getF t Reg.clk_CLK_STATUS_REF_OK).testBit ref = true ∧
      (ref = 0 → t.holdover = false ∧ t.warmHeld = false) := by
  have loaded : getF s Reg.glob_FUSE_STATUS_LOADED = 1 := by simpa [isSet] using fuses
  let t := putF Reg.clk_CLK_STATUS_REF_OK (setBitN (getF s Reg.clk_CLK_STATUS_REF_OK) ref true) s
  have back : (getF t Reg.clk_CLK_STATUS_REF_OK).testBit ref = true := testBit_putF_setBitN h _ true s
  by_cases main : ref = 0
  · subst main
    let u := putF Reg.clk_CLK_STATUS_LOCK (getF s Reg.clk_CLK_STATUS_LOCK ||| (if s.power.p3 then 1 else mainLocks s))
      { t with holdover := false }
    have run : exec (.referenceReturn 0) s = .next (sicSettle (if u.warmHeld then
        warmVerify (if u.resets.any (fun q => q.kind == 1) then mainLocks u else allLocks u) { u with warmHeld := false } else u)) := by
      show execReferenceReturn 0 s = _
      rw [execReferenceReturn, live_next clean, if_pos ⟨h, away, loaded⟩]
      rfl
    have refs : getF u Reg.clk_CLK_STATUS_REF_OK = getF t Reg.clk_CLK_STATUS_REF_OK :=
      (getF_putF_bits (by decide) _ _).trans (getF_congr (s := { t with holdover := false }) (t := t) rfl _)
    have off : u.holdover = false := putF_holdover _ _ _
    refine ⟨_, run, ?_⟩
    rw [getF_sicSettle, sicSettle_holdover, sicSettle_warmHeld]
    by_cases held : u.warmHeld = true
    · rw [if_pos held]
      have view := warmFields_warmVerify (if u.resets.any (fun q => q.kind == 1) then mainLocks u else allLocks u)
        { u with warmHeld := false }
      have kept := (getF_of_clockView view (by decide : Reg.clk_CLK_STATUS_REF_OK ∈ warmFields)).trans
        (getF_congr (s := { u with warmHeld := false }) (t := u) rfl _)
      exact ⟨by rw [kept, refs, back], fun _ => ⟨(congrArg ClockView.holdover view).trans off, congrArg ClockView.warmHeld view⟩⟩
    · rw [if_neg held, refs]
      exact ⟨back, fun _ => ⟨off, Bool.eq_false_iff.mpr held⟩⟩
  · refine ⟨sicSettle t, ?_, by rw [getF_sicSettle, back], fun is => absurd is main⟩
    show execReferenceReturn ref s = _
    rw [execReferenceReturn, live_next clean, if_pos ⟨h, away, loaded⟩]
    simp only [main, if_false]
    rfl

end Sys2Proof.Machine
end

section
/-! PROOFS. What an interrupted transfer, a lost link or a lost port leaves of the registers of the clocks (R288, R304, R358, R398). -/

namespace Sys2Proof.Machine

/-- The registers of references and locks, and the states of the Ethernet ports. -/
def quietFields : List FieldRef :=
  [Reg.clk_CLK_STATUS_REF_OK, Reg.clk_CLK_STATUS_LOCK, Reg.clk_CLK_EVENTS_REF_LOST, Reg.clk_CLK_EVENTS_LOCK_LOST,
   Reg.eth_ETH_STATUS_STATE 0, Reg.eth_ETH_STATUS_STATE 1]

/-- A register behind these. -/
theorem quiet_above {f : FieldRef} (h : Reg.eth_ETH_STATUS 1 + 4 ≤ f.addr) : ∀ g ∈ quietFields, BitsApart f g := by
  have ends : ∀ g ∈ quietFields, 8 * g.addr + g.lo + g.width ≤ 8 * (Reg.eth_ETH_STATUS 1 + 4) := by decide
  exact fun g hg => .inr (by have := ends g hg; omega)

/-- A register between those of the clocks and those of the ports. -/
theorem quiet_between {f : FieldRef} (lo : Reg.clk_CLK_EVENTS + 4 ≤ f.addr)
    (hi : 8 * f.addr + f.lo + f.width ≤ 8 * Reg.eth_ETH_STATUS 0) : ∀ g ∈ quietFields, BitsApart f g := by
  have sides :
      ∀ g ∈ quietFields, 8 * g.addr + g.lo + g.width ≤ 8 * (Reg.clk_CLK_EVENTS + 4) ∨ 8 * Reg.eth_ETH_STATUS 0 ≤ 8 * g.addr + g.lo := by
    decide
  intro g hg
  have := sides g hg
  simp only [BitsApart]
  omega

theorem quietFields_putF_above {f : FieldRef} (h : Reg.eth_ETH_STATUS 1 + 4 ≤ f.addr) (v : Nat) (s : State) :
    clockView quietFields (putF f v s) = clockView quietFields s := clockView_putF (quiet_above h) v s

/-! ### Main memory -/

theorem quietFields_clearEcc (w : Nat) (s : State) :
    clockView quietFields (clearEcc w s) = clockView quietFields s := clockView_of_csr rfl rfl

theorem quietFields_mainPut (a : Nat) (bs : List Byte) (s : State) : clockView quietFields (mainPut a bs s) = clockView quietFields s :=
  (clockView_foldl (fun w _ t => quietFields_clearEcc w t) _).trans (clockView_of_csr rfl rfl)

theorem quietFields_mainUncorr (ch a : Nat) (s : State) : clockView quietFields (mainUncorr ch a s) = clockView quietFields s := by
  have above {f : FieldRef} (h : Reg.mem_BLK_CTRL ≤ f.addr) (v : Nat) (t : State) :
      clockView quietFields (putF f v t) = clockView quietFields t :=
    quietFields_putF_above (Nat.le_trans (by decide) h) v t
  have counted :
      clockView quietFields (flagF Reg.mem_MEM_EVENTS_EVENTS 1 (incSat (Reg.memCh_MEM_ECC_UNCORR_COUNT_COUNT ch) s)) =
        clockView quietFields s := by
    rw [flagF_def, above (by decide), incSat_def, above (by simp only [Reg.mem_BLK_CTRL, Reg.memCh_MEM_ECC_UNCORR_COUNT_COUNT]; omega)]
  refine clockView_ite counted ?_
  rw [above (by simp only [Reg.mem_BLK_CTRL, Reg.memCh_MEM_ERR_ADDR_ADDR]; omega), setF_def,
    above (by simp only [Reg.mem_BLK_CTRL, Reg.memCh_MEM_ERR_ADDR_VALID]; omega), counted]

theorem quietFields_addUpset (w n : Nat) (s : State) : clockView quietFields (addUpset w n s) = clockView quietFields s :=
  clockView_ite rfl (clockView_of_csr rfl rfl)

theorem quietFields_channelAcc (ch a : Nat) (op : MemOp) (upset : Nat) (s : State) :
    clockView quietFields (channelAcc ch a op upset s).st = clockView quietFields s := by
  have count (t : State) : clockView quietFields (incSat (Reg.memCh_MEM_ECC_CORR_COUNT_COUNT ch) t) = clockView quietFields t :=
    quietFields_putF_above (by simp only [Reg.eth_ETH_STATUS, Reg.memCh_MEM_ECC_CORR_COUNT_COUNT]; omega) _ t
  unfold channelAcc
  extract_lets ecc s1
  have begun : clockView quietFields s1 = clockView quietFields s := clockView_ite (quietFields_addUpset _ _ _) rfl
  split
  · exact (quietFields_mainUncorr _ _ _).trans begun
  rename_i s2 old _ _
  have corrected : clockView quietFields s2 = clockView quietFields s :=
    (clockView_foldl (fun w _ u => clockView_ite ((count _).trans (quietFields_clearEcc w u)) rfl) s1).trans begun
  split
  · exact (quietFields_mainPut _ _ _).trans corrected
  · exact (quietFields_mainPut _ _ _).trans corrected
  · exact (quietFields_mainPut _ _ _).trans corrected
  · exact corrected

theorem quietFields_mainWrite (a : Nat) (bs : List Byte) (s : State) :
    clockView quietFields (mainWrite a bs s).1 = clockView quietFields s := by
  have part (acc : State × Bool) (q : Nat × Nat) (off : Nat) :
      clockView quietFields (mainWritePart bs acc q off).1 = clockView quietFields acc.1 := by
    simp only [mainWritePart]
    split
    · split
      · exact clockView_of_csr rfl rfl
      · exact quietFields_channelAcc _ _ _ _ _
    · rfl
  unfold mainWrite
  split
  · exact List.foldlRecOn (mainParts a bs.length) (fun acc q => mainWritePart bs acc q (q.1 - a)) (b := (s, true))
      (motive := fun acc => clockView quietFields acc.1 = clockView quietFields s) rfl fun acc hacc q _ => (part acc q _).trans hacc
  · rfl

/-! ### The PCIe link (R398) -/

/-- The registers of a DMA channel stand behind those in view. -/
abbrev ChanAbove (ch : Chan) : Prop := ∀ f ∈ [ch.bytes, ch.head, ch.events, ch.err, ch.halted], Reg.eth_ETH_STATUS 1 + 4 ≤ f.addr

theorem pdmaChan_above (c : Nat) : ChanAbove (pdmaChan c) := by
  simp [ChanAbove, pdmaChan, Reg.eth_ETH_STATUS, Reg.pdma_PDMA_HEAD_HEAD, Reg.pdma_PDMA_STATUS_LAST_ERR, Reg.pdma_PDMA_STATUS_HALTED,
    Reg.pdma_PDMA_EVENTS_EVENTS, Reg.pdma_PDMA_BYTES_COUNT]
  omega

theorem sdmaChan_above (c : Nat) : ChanAbove (sdmaChan c) := by
  simp [ChanAbove, sdmaChan, Reg.eth_ETH_STATUS, Reg.sdma_SDMA_HEAD_HEAD, Reg.sdma_SDMA_STATUS_LAST_ERR, Reg.sdma_SDMA_STATUS_HALTED,
    Reg.sdma_SDMA_EVENTS_EVENTS, Reg.sdma_SDMA_BYTES_COUNT]
  omega

theorem quietFields_dmaEnd {ch : Chan} (above : ChanAbove ch) (at' : Option Nat) (irq : Bool) (err moved : Nat) (s : State) :
    clockView quietFields (dmaEnd ch at' irq err moved s) = clockView quietFields s := by
  simp only [List.forall_mem_cons, List.not_mem_nil, false_implies, implies_true, and_true] at above
  obtain ⟨bytes, head, events, errs, halted⟩ := above
  have counted (t : State) : clockView quietFields (incWrap ch.head (addWrap ch.bytes moved t)) = clockView quietFields t :=
    (quietFields_putF_above head _ _).trans (quietFields_putF_above bytes _ _)
  have written : clockView quietFields (match at' with
      | some a => (mainWrite (a + 20) (toBytes (rdBits s a 160 8 / 16 * 16 + err % 8 * 2 + 1) 1) s).1
      | none => s) = clockView quietFields s := by
    cases at' with
    | none => rfl
    | some a => exact quietFields_mainWrite _ _ s
  have told (t : State) : clockView quietFields (if irq then flagF ch.events 1 t else t) = clockView quietFields t :=
    clockView_ite (quietFields_putF_above events _ _) rfl
  simp only [dmaEnd]
  have ended := (told _).trans ((counted _).trans written)
  exact clockView_ite ended ((quietFields_putF_above halted _ _).trans ((quietFields_putF_above errs _ _).trans
    ((quietFields_putF_above events _ _).trans ended)))

theorem quietFields_dmaCut (s : State) : clockView quietFields (dmaCut s) = clockView quietFields s := by
  simp only [dmaCut]
  rw [clockView_foldl, clockView_foldl]
  · exact fun c _ t => clockView_ite (quietFields_dmaEnd (pdmaChan_above c) _ _ _ _ _) rfl
  · exact fun c _ t => clockView_ite (quietFields_dmaEnd (sdmaChan_above c) _ _ _ _ _) rfl

end Sys2Proof.Machine
end

section
/-! PROOFS. The links and ports that a lost clock takes down (R288, R304, R358, R398). -/

namespace Sys2Proof.Machine

theorem quietFields_dropReads (s : State) : clockView quietFields (dropReads s) = clockView quietFields s := clockView_of_csr rfl rfl

theorem quietFields_cfgClear (s : State) : clockView quietFields (cfgClear s) = clockView quietFields s :=
  (quietFields_putF_above (by decide) _ _).trans (clockView_of_csr rfl rfl)

theorem quietFields_pcieDown (s : State) : clockView quietFields (pcieDown s) = clockView quietFields s := by
  refine clockView_ite ?_ rfl
  rw [pcieEvent, flagF_def, quietFields_putF_above (by decide), clrF_def, clockView_putF (quiet_between (by decide) (by decide)),
    quietFields_putF_above (by decide), quietFields_dropReads, quietFields_cfgClear, quietFields_dmaCut]

/-- A link that goes down is down. -/
theorem linkUp_pcieDown (s : State) : linkUp (pcieDown s) = false := by
  unfold pcieDown
  split
  · simp only [linkUp, pcieEvent, flagF_def, clrF_def]
    rw [getF_putF_bits (by decide), getF_putF_bits (by decide), getF_putF_same]
    decide
  · rename_i down
    exact Bool.eq_false_iff.mpr down

/-- Registers that return to their reset values leave the words of no other. -/
theorem quietFields_forgetWordsAt {lo hi : Nat} (h : ∀ f ∈ quietFields, f.addr < lo ∨ hi < f.addr) (s : State) :
    clockView quietFields (forgetWordsAt lo hi s) = clockView quietFields s := by
  have one : ∀ f ∈ quietFields, fieldWords f = 1 := by decide
  refine clockView_of_fields (fun f hf => ?_) rfl
  have kept : tfind f.addr (forgetWordsAt lo hi s).csr = tfind f.addr s.csr :=
    tfind_filter _ _ _ fun v => by have := h f hf; simp; omega
  simp only [getF, one f hf, rdWords, rdWord, kept]

theorem quietFields_flrDo (s : State) : clockView quietFields (flrDo s) = clockView quietFields s := by
  rw [flrDo, pcieEvent, flagF_def, quietFields_putF_above (by decide), quietFields_dropReads, quietFields_cfgClear,
    quietFields_forgetWordsAt (by decide), quietFields_forgetWordsAt (by decide), quietFields_forgetWordsAt (by decide),
    quietFields_forgetWordsAt (by decide), quietFields_dmaCut]

/-! ### The converter links and the EIP -/

theorem quietFields_modLink (l : Nat) (f : Link → Link) (s : State) : clockView quietFields (modLink l f s) = clockView quietFields s :=
  clockView_of_csr rfl rfl

theorem quietFields_setSync (l : Nat) (low : Bool) (s : State) : clockView quietFields (setSync l low s) = clockView quietFields s :=
  clockView_of_csr (s := s) (t := setSync l low s) rfl rfl

/-- A register of a converter link. -/
theorem quietFields_putF_link {f : FieldRef} {l : Nat} (hl : l < 8) (lo : Reg.link_BLK_CTRL l ≤ f.addr)
    (hi : f.addr < Reg.link_BLK_CTRL l + 0xFFF0) (small : f.lo + f.width ≤ 128) (v : Nat) (s : State) :
    clockView quietFields (putF f v s) = clockView quietFields s := by
  simp only [Reg.link_BLK_CTRL] at lo hi
  refine clockView_putF (quiet_between ?_ ?_) v s <;> simp only [Reg.clk_CLK_EVENTS, Reg.eth_ETH_STATUS] <;> omega

theorem quietFields_unlockLanes {l : Nat} (hl : l < 8) (s : State) :
    clockView quietFields (unlockLanes l s) = clockView quietFields s := by
  refine (clockView_foldl (fun p _ t => ?_) _).trans (quietFields_putF_link hl ?_ ?_ (by decide : 8 + 12 ≤ 128) _ _)
  · split
    · refine clockView_putF (quiet_between ?_ ?_) _ _ <;> simp only [Reg.clk_CLK_EVENTS, Reg.eth_ETH_STATUS, Reg.jesd_LANE_LOCK] <;> omega
    · rfl
  all_goals simp only [Reg.link_BLK_CTRL, Reg.link_LINK_STATUS_LANE_LOCK]; omega

theorem quietFields_linkRestart {l : Nat} (hl : l < 8) (s : State) :
    clockView quietFields (linkRestart l s) = clockView quietFields s := by
  have state (t : State) : clockView quietFields (setLkState l 1 t) = clockView quietFields t :=
    quietFields_putF_link hl (by simp only [Reg.link_BLK_CTRL, Reg.link_LINK_STATUS_STATE]; omega)
      (by simp only [Reg.link_BLK_CTRL, Reg.link_LINK_STATUS_STATE]; omega) (by decide : 0 + 3 ≤ 128) _ t
  refine (clockView_ite (quietFields_setSync _ _ _) rfl).trans ?_
  rw [state, quietFields_unlockLanes hl, quietFields_modLink]
  exact quietFields_modLink _ _ _

theorem quietFields_jesdDown (s : State) : clockView quietFields (jesdDown s) = clockView quietFields s := by
  refine clockView_foldl (fun l hl t => ?_) s
  have bound : l < 8 := List.mem_range.mp hl
  have event (u : State) : clockView quietFields (setF (Reg.link_LINK_EVENTS_LINK_DOWN l) u) = clockView quietFields u :=
    quietFields_putF_link bound (by simp only [Reg.link_BLK_CTRL, Reg.link_LINK_EVENTS_LINK_DOWN]; omega)
      (by simp only [Reg.link_BLK_CTRL, Reg.link_LINK_EVENTS_LINK_DOWN]; omega) (by decide : 0 + 1 ≤ 128) _ u
  have count (u : State) : clockView quietFields (incSat (Reg.link_RESYNC_COUNT_COUNT l) u) = clockView quietFields u :=
    quietFields_putF_link bound (by simp only [Reg.link_BLK_CTRL, Reg.link_RESYNC_COUNT_COUNT]; omega)
      (by simp only [Reg.link_BLK_CTRL, Reg.link_RESYNC_COUNT_COUNT]; omega) (by decide : 0 + 32 ≤ 128) _ u
  exact clockView_ite ((quietFields_linkRestart bound _).trans ((count _).trans (event t))) rfl

theorem quietFields_eipLost (s : State) : clockView quietFields (eipLost s) = clockView quietFields s := by
  have down : clockView quietFields (if eipOn s && decide (2 ≤ eipState s) then
      s |> codeErrors 0 |> setF Reg.eip_EIP_EVENTS_LINK_DOWN |> eipEnable else s) = clockView quietFields s := by
    refine clockView_ite ?_ rfl
    rw [eipEnable, clockView_putF (quiet_between (by decide) (by decide)), clockView_putF (quiet_between (by decide) (by decide)),
      setF_def, clockView_putF (quiet_between (by decide) (by decide))]
    rfl
  unfold eipLost execEipLinkDown
  rcases live_cases s (if eipOn s && decide (2 ≤ eipState s) then
      s |> codeErrors 0 |> setF Reg.eip_EIP_EVENTS_LINK_DOWN |> eipEnable else s) with ⟨-, e⟩ | ⟨-, e⟩
  · rw [e]
    rfl
  · rw [e]
    exact (clockView_sicSettle _).trans down

/-! ### The Ethernet ports (R358) -/

theorem quietFields_modSess (p : Nat) (f : Sess → Sess) (s : State) : clockView quietFields (modSess p f s) = clockView quietFields s :=
  clockView_of_csr rfl rfl

theorem quietFields_aetEvent (i : Nat) (s : State) : clockView quietFields (aetEvent i s) = clockView quietFields s :=
  quietFields_putF_above (by decide) _ s

theorem quietFields_emitFrame (port : Nat) (frame : List Byte) (s : State) :
    clockView quietFields (emitFrame port frame s) = clockView quietFields s := by
  refine (clockView_putF ?_ _ _).trans (clockView_of_csr rfl rfl)
  have places : ∀ g ∈ quietFields, 8 * g.addr + g.lo + g.width ≤ 8 * (Reg.clk_CLK_EVENTS + 4) ∨ g = Reg.eth_ETH_STATUS_STATE 0 ∨
      g = Reg.eth_ETH_STATUS_STATE 1 := by decide
  intro g hg
  obtain low | rfl | rfl := places g hg
  · exact .inr (by simp only [Reg.clk_CLK_EVENTS, Reg.eth_TX_FRAMES_COUNT] at low ⊢; omega)
  · simp only [BitsApart, Reg.eth_TX_FRAMES_COUNT, Reg.eth_ETH_STATUS_STATE]; omega
  · simp only [BitsApart, Reg.eth_TX_FRAMES_COUNT, Reg.eth_ETH_STATUS_STATE]; omega

theorem quietFields_aetSend (o : AetOut) (s : State) : clockView quietFields (aetSend o s) = clockView quietFields s := by
  unfold aetSend
  exact clockView_ite ((quietFields_emitFrame _ _ _).trans (clockView_of_csr rfl rfl)) (clockView_of_csr rfl rfl)

theorem quietFields_resendPkt (p seq : Nat) (s : State) : clockView quietFields (resendPkt p seq s) = clockView quietFields s := by
  unfold resendPkt
  split
  · rfl
  · refine clockView_ite ?_ rfl
    rw [quietFields_modSess, incSat_def, quietFields_putF_above (by decide), quietFields_aetSend]

theorem quietFields_sessPort (p v : Nat) (s : State) :
    clockView quietFields (putF (Reg.aet_SESS_STATUS_PORT p) v s) = clockView quietFields s :=
  quietFields_putF_above (by simp only [Reg.eth_ETH_STATUS, Reg.aet_SESS_STATUS_PORT]; omega) v s

theorem quietFields_aetRingWrite (hdr word : Word64) (s : State) :
    clockView quietFields (aetRingWrite hdr word s) = clockView quietFields s := by
  have lost (t : State) : clockView quietFields (t |> incSat Reg.aet_AET_REF_LOST_COUNT |> aetEvent 4) = clockView quietFields t := by
    rw [quietFields_aetEvent, incSat_def, quietFields_putF_above (by decide)]
  unfold aetRingWrite
  refine clockView_ite (clockView_of_csr rfl rfl) ?_
  unfold ringPut
  refine clockView_ite ?_ (lost s)
  refine (clockView_ite (s := (mainWrite _ _ s).1) (quietFields_putF_above (by decide) _ _) (lost _)).trans (quietFields_mainWrite _ _ s)

theorem quietFields_bodyLost (b : AetBody) (s : State) : clockView quietFields (bodyLost s b) = clockView quietFields s := by
  unfold bodyLost
  split
  · exact clockView_foldl (fun w _ t => quietFields_aetRingWrite _ w t) s
  · rfl

theorem quietFields_sessEnd (p st : Nat) (s : State) : clockView quietFields (sessEnd p st s) = clockView quietFields s := by
  have state (v : Nat) (t : State) : clockView quietFields (setSessState p v t) = clockView quietFields t :=
    quietFields_putF_above (by simp only [Reg.eth_ETH_STATUS, Reg.aet_SESS_STATUS_STATE]; omega) v t
  unfold sessEnd
  rw [quietFields_sessPort, state, clockView_foldl fun b _ t => quietFields_bodyLost b t, quietFields_modSess]

theorem quietFields_closeMark (ctx step : Nat) (s : State) : clockView quietFields (closeMark ctx step s) = clockView quietFields s := by
  have journal (t : State) (l : List JrnRec) :
      clockView quietFields (if dProt s ctx then { t with journal := l } else t) = clockView quietFields t :=
    clockView_ite (clockView_of_csr rfl rfl) rfl
  unfold closeMark
  refine clockView_ite ?_ rfl
  unfold closeStep
  refine clockView_ite rfl ?_
  exact (clockView_of_csr rfl rfl).trans (journal s _)

theorem quietFields_takeMarks (n : Nat) (s : State) : clockView quietFields (takeMarks n s) = clockView quietFields s := by
  induction n generalizing s with
  | zero => rfl
  | succ n ih =>
    unfold takeMarks
    split
    · exact (ih _).trans ((quietFields_closeMark _ _ _).trans (clockView_of_csr rfl rfl))
    · exact (ih _).trans ((clockView_ite (quietFields_modSess _ _ _) rfl).trans (clockView_of_csr rfl rfl))
    · rfl

theorem quietFields_reclose (s : State) : clockView quietFields (reclose s) = clockView quietFields s := by
  have marks (w : Nat) (t : State) : clockView quietFields (closeExperts w t) = clockView quietFields t := by
    unfold closeExperts
    refine (quietFields_takeMarks _ _).trans (clockView_foldl (fun e _ u => ?_) t)
    exact clockView_ite (clockView_of_csr rfl rfl) rfl
  exact clockView_foldl (fun w _ t => marks w t) s

theorem quietFields_leavePort (p : Nat) (s : State) : clockView quietFields (leavePort p s) = clockView quietFields s := by
  unfold leavePort
  refine clockView_ite ?_ ?_
  · rw [clockView_foldl fun k _ u => quietFields_resendPkt p k.seq u, incSat_def, quietFields_putF_above (by decide),
      quietFields_aetEvent, toPort, quietFields_modSess, quietFields_sessPort]
  · rw [sessLost, quietFields_reclose, quietFields_aetEvent, quietFields_sessEnd]

/-- A port that goes down shows it, and leaves the clocks and the other port as they are. -/
theorem quietFields_ethDown {n : Nat} (h : n < 2) (s : State) :
    clockView quietFields (ethDown n s) = clockView quietFields (putF (Reg.eth_ETH_STATUS_STATE n) 0 s) := by
  unfold ethDown
  rw [clockView_foldl fun p _ u => clockView_ite (quietFields_leavePort p u) rfl]
  obtain rfl | rfl : n = 0 ∨ n = 1 := by omega
  all_goals rw [flagF_def, clockView_putF (by decide), ethUpRef, clrF_def, clockView_putF (by decide), clockView_putF (by decide)]

/-- A lost port is down. -/
theorem portUp_ethLost_same {n : Nat} (h : n < 2) (s : State) : portUp (ethLost n s) n = false := by
  unfold ethLost
  split
  · have state : getF (ethDown n s) (Reg.eth_ETH_STATUS_STATE n) = 0 := by
      refine (getF_of_clockView (quietFields_ethDown h s) ?_).trans ((getF_putF_same _ _ _).trans (Nat.zero_mod _))
      obtain rfl | rfl : n = 0 ∨ n = 1 := by omega
      all_goals decide
    simp [portUp, state, bitN]
  · rename_i down
    exact Bool.eq_false_iff.mpr down

/-- The loss of port `n` leaves what is in view but for that port's state. -/
theorem quietFields_ethLost {n : Nat} (h : n < 2) {gs : List FieldRef} (sub : ∀ g ∈ gs, g ∈ quietFields)
    (apart : ∀ g ∈ gs, BitsApart (Reg.eth_ETH_STATUS_STATE n) g) (s : State) : clockView gs (ethLost n s) = clockView gs s :=
  clockView_ite ((clockView_subset sub (quietFields_ethDown h s)).trans (clockView_putF apart 0 s)) rfl

/-- The loss of both ports, one after the other. -/
theorem portUp_ethLost_both (s : State) : portUp (ethLost 1 (ethLost 0 s)) 0 = false ∧ portUp (ethLost 1 (ethLost 0 s)) 1 = false := by
  refine ⟨?_, portUp_ethLost_same (by decide) _⟩
  have view : clockView [Reg.eth_ETH_STATUS_STATE 0] (ethLost 1 (ethLost 0 s)) = clockView [Reg.eth_ETH_STATUS_STATE 0] (ethLost 0 s) :=
    quietFields_ethLost (by decide) (by decide) (by decide) _
  have first := portUp_ethLost_same (show 0 < 2 by decide) s
  have variant : (ethLost 1 (ethLost 0 s)).variant = (ethLost 0 s).variant := congrArg ClockView.variant view
  rw [portUp, portPresent, getF_of_clockView view (by decide), variant]
  exact first

end Sys2Proof.Machine
end

section
/-! PROOFS. The start of a region's reset leaves the clocks (R463). -/

namespace Sys2Proof.Machine

/-- A register between those of the clocks and those of the ports, in view of either. -/
theorem quietFields_putF_between {f : FieldRef} (lo : Reg.clk_CLK_EVENTS + 4 ≤ f.addr)
    (hi : 8 * f.addr + f.lo + f.width ≤ 8 * Reg.eth_ETH_STATUS 0) (v : Nat) (s : State) :
    clockView quietFields (putF f v s) = clockView quietFields s := clockView_putF (quiet_between lo hi) v s

/-! ### What is cut -/

theorem quietFields_busFail (p : Party) (a : Nat) (op : MemOp) (s : State) :
    clockView quietFields (busFail p a op s) = clockView quietFields s := by
  have told : clockView quietFields (toldError p s) = clockView quietFields s := clockView_ite (clockView_of_csr rfl rfl) rfl
  rcases busFail_cases p a op s with e | ⟨n, e⟩ | ⟨n, sm, c, e⟩ <;> rw [e]
  · exact told
  · have events (t : State) : clockView quietFields (flagF Reg.cl_CL_EVENTS_EVENTS 16 t) = clockView quietFields t :=
      quietFields_putF_between (by decide) (by decide) _ t
    simp only [storeFailed]
    refine clockView_ite ((events _).trans told) ?_
    rw [quietFields_putF_between (by decide) (by decide), quietFields_putF_between (by decide) (by decide), setF_def,
      quietFields_putF_between (by decide) (by decide), events, told]
  · exact (clockView_of_csr rfl rfl).trans told

theorem quietFields_tlpAbort (write : Bool) (s : State) : clockView quietFields (tlpAbort write s) = clockView quietFields s := by
  unfold tlpAbort
  refine clockView_ite ?_ ?_
  · rw [pcieEvent, flagF_def, quietFields_putF_above (by decide), incSat_def, quietFields_putF_above (by decide)]
  · rw [pcieEvent, flagF_def, quietFields_putF_above (by decide), incSat_def, quietFields_putF_above (by decide)]
    exact clockView_of_csr rfl rfl

theorem quietFields_cutHeld (f : Nat → Bool) (s : State) : clockView quietFields (cutHeld f s) = clockView quietFields s := by
  have waits : clockView quietFields (cutWaits f s) = clockView quietFields s :=
    (clockView_foldl (fun w _ t => quietFields_busFail w.p w.addr w.op t) _).trans (clockView_of_csr rfl rfl)
  have tlps (t : State) : clockView quietFields (cutTlps f t) = clockView quietFields t :=
    (clockView_foldl (fun w _ u => quietFields_tlpAbort (memWrites w.op) u) _).trans (clockView_of_csr rfl rfl)
  exact (tlps _).trans waits

/-! ### What is cleared and held -/

/-- A reset of registers leaves the words that it does not take. -/
theorem tfind_map_other (f : Nat → Bool) (g : Nat → Word → Word) {a : Nat} (h : f a = false) (l : Tab Word) :
    tfind a (l.map fun p => if f p.1 then (p.1, g p.1 p.2) else p) = tfind a l := by
  induction l with
  | nil => rfl
  | cons p l ih =>
    obtain ⟨k, v⟩ := p
    by_cases hk : k = a
    · subst hk
      simp [tfind, h]
    · cases hf : f k <;> simp [tfind, hf, hk, ih]

theorem quietFields_resetWords {f : Nat → Bool} (h : ∀ g ∈ quietFields, f g.addr = false) (s : State) :
    clockView quietFields (resetWords f s) = clockView quietFields s := by
  have one : ∀ g ∈ quietFields, fieldWords g = 1 := by decide
  refine clockView_of_fields (fun g hg => ?_) rfl
  have kept : tfind g.addr (resetWords f s).csr = tfind g.addr s.csr := tfind_map_other f afterReset (h g hg) s.csr
  simp only [getF, one g hg, rdWords, rdWord, kept]

theorem quietFields_clearCores (f : Nat → Bool) (all : Bool) (s : State) :
    clockView quietFields (clearCores f all s) = clockView quietFields s := by
  have outside : ∀ g ∈ quietFields, isCoreWindow g.addr = false := by decide
  exact (clockView_of_csr rfl rfl).trans (quietFields_resetWords (fun g hg => by simp [coreWord, outside g hg]) s)

theorem quietFields_clearBlocks (f : Nat → Bool) (s : State) : clockView quietFields (clearBlocks f s) = clockView quietFields s := by
  have outside : ∀ g ∈ quietFields, isBlockCsr g.addr = false := by decide
  have words : clockView quietFields (resetWords (fun a => isBlockCsr a && f (blockOfAddr a)) s) = clockView quietFields s :=
    quietFields_resetWords (fun g hg => by simp [outside g hg]) s
  exact (clockView_of_csr rfl rfl).trans words

theorem quietFields_holdCores (f : Nat → Bool) (v : Bool) (s : State) :
    clockView quietFields (holdCores f v s) = clockView quietFields s := by
  have word {w : Nat} (hw : w < 32) (x : Word) (t : State) :
      clockView quietFields (wrWord (Reg.rst_RST_CORE_HELD w) x t) = clockView quietFields t :=
    clockView_of_regs (.wrWord _ x t) fun g hg => getF_wrWord
      (quiet_between (by simp only [Reg.clk_CLK_EVENTS, Reg.rst_RST_CORE_HELD]; omega)
      (by simp only [Reg.eth_ETH_STATUS, Reg.rst_RST_CORE_HELD]; omega) g hg) x t
  unfold holdCores
  exact clockView_foldl (fun w hw t => clockView_ite rfl (word (List.mem_range.mp hw) _ t)) s

theorem quietFields_regionBegin (r : Nat) (s : State) : clockView quietFields (regionBegin r s) = clockView quietFields s := by
  have power (t : State) (p : Power) : clockView quietFields { t with power := p } = clockView quietFields t := clockView_of_csr rfl rfl
  simp only [regionBegin]
  rw [power, setRegionReady, quietFields_putF_between (by decide) (by decide), setRegionHeld,
    quietFields_putF_between (by decide) (by decide), quietFields_clearBlocks, quietFields_holdCores, quietFields_clearCores, quietFields_cutHeld]

theorem quietFields_wakeFor {r : Nat} (h : r < 4) (s : State) : clockView quietFields (wakeFor r s) = clockView quietFields s := by
  have exit : clockView quietFields (startExit r s) = clockView quietFields s := by
    refine (quietFields_putF_between ?_ ?_ _ _).trans (clockView_of_csr (t := setVcoreEn r true s) rfl rfl) <;>
      simp only [Reg.clk_CLK_EVENTS, Reg.pwr_PWR_STATUS, Reg.eth_ETH_STATUS] <;> omega
  exact clockView_ite exit (clockView_ite (clockView_of_csr rfl rfl) rfl)

/-- A region's reset leaves the clocks, whether it begins at once or waits for the region to wake. -/
theorem quietFields_regionStart {r : Nat} (h : r < 4) (by' : Option Party) (s : State) :
    clockView quietFields (regionStart r by' s) = clockView quietFields s := by
  refine clockView_ite ?_ ?_
  · exact (quietFields_wakeFor h _).trans (clockView_addReset _ s)
  · exact (quietFields_regionBegin r _).trans (clockView_addReset _ s)

theorem quietFields_request_region {r : Nat} (h : r < 4) (s : State) :
    clockView quietFields (request none 3 r (regionStart r none) s) = clockView quietFields s := by
  rw [request_device]
  exact clockView_ite ((quietFields_regionStart h none _).trans (clockView_supersede (by decide) 3 r s)) rfl

end Sys2Proof.Machine
end

section
/-! PROOFS. The loss of a reference and of a lock, and PERST_N (R45, R456, R461, R520). -/

namespace Sys2Proof.Machine

/-- The registers of references and locks. -/
def clockFields : List FieldRef :=
  [Reg.clk_CLK_STATUS_REF_OK, Reg.clk_CLK_STATUS_LOCK, Reg.clk_CLK_EVENTS_REF_LOST, Reg.clk_CLK_EVENTS_LOCK_LOST]

/-- What leaves the clocks and the ports leaves the clocks. -/
theorem clockFields_of_quiet {s t : State} (h : clockView quietFields t = clockView quietFields s) :
    clockView clockFields t = clockView clockFields s := clockView_subset (by decide) h

theorem clockFields_ethLost {n : Nat} (h : n < 2) (s : State) : clockView clockFields (ethLost n s) = clockView clockFields s := by
  refine quietFields_ethLost h (by decide) ?_ s
  obtain rfl | rfl : n = 0 ∨ n = 1 := by omega
  all_goals decide

/-! ### The loss of a reference (R456) -/

/-- The loss of reference `ref` as it is shown and reported. -/
def refLost (ref : Nat) (s : State) : State :=
  clockFault (13 + ref) (s |> putF Reg.clk_CLK_STATUS_REF_OK (setBitN (getF s Reg.clk_CLK_STATUS_REF_OK) ref false)
    |> putF Reg.clk_CLK_EVENTS_REF_LOST (getF s Reg.clk_CLK_EVENTS_REF_LOST ||| 2 ^ ref))

/-- What the loss of a reference then takes down. -/
def refFollows (ref : Nat) (u : State) : State :=
  match ref with
  | 0 => { u with holdover := true }
  | 1 => pcieDown u
  | 2 => u |> ethLost 0 |> ethLost 1
  | _ => jesdDown u

/-- The loss of reference `ref` is shown, flagged and reported. -/
structure RefLost (ref : Nat) (t : State) : Prop where
  status : (getF t Reg.clk_CLK_STATUS_REF_OK).testBit ref = false
  event : (getF t Reg.clk_CLK_EVENTS_REF_LOST).testBit ref = true
  fault : ∃ d, (⟨3, 3, 12, 13 + ref, d, none⟩ : FaultRep) ∈ t.faultsUp

theorem refLost_shown {ref : Nat} (h : ref < 4) (s : State) : RefLost ref (refLost ref s) := by
  have csr {unit : Nat} {t : State} (f : FieldRef) :
      getF (clockFault unit t) f = getF t f := getF_congr (s := clockFault unit t) (t := t) rfl f
  refine ⟨?_, ?_, ⟨_, List.mem_append_right _ (List.mem_singleton.mpr rfl)⟩⟩
  · rw [refLost, csr, getF_putF_bits (by decide), testBit_putF_setBitN h]
  · rw [refLost, csr, getF_putF_same, Nat.testBit_mod_two_pow, Nat.testBit_or, Nat.testBit_two_pow_self, Bool.or_true, Bool.and_true]
    exact decide_eq_true h

theorem RefLost.of_view {ref : Nat} {s t : State} (h : RefLost ref s) (view : clockView clockFields t = clockView clockFields s) :
    RefLost ref t := by
  have faults : t.faultsUp = s.faultsUp := congrArg ClockView.faultsUp view
  exact ⟨by rw [getF_of_clockView view (by decide), h.status], by rw [getF_of_clockView view (by decide), h.event],
    by rw [faults]; exact h.fault⟩

theorem refFollows_lost {ref : Nat} {u : State} (h : RefLost ref u) : RefLost ref (refFollows ref u) := by
  unfold refFollows
  split
  · have field (f : FieldRef) : getF { u with holdover := true } f = getF u f :=
      getF_congr (s := { u with holdover := true }) (t := u) rfl f
    exact ⟨(congrArg (·.testBit 0) (field _)).trans h.status, (congrArg (·.testBit 0) (field _)).trans h.event, h.fault⟩
  · exact h.of_view (clockFields_of_quiet (quietFields_pcieDown u))
  · exact h.of_view ((clockFields_ethLost (by decide) _).trans (clockFields_ethLost (by decide) u))
  · exact h.of_view (clockFields_of_quiet (quietFields_jesdDown u))

theorem exec_referenceLost {s : State} (clean : s.rsvDirty = false) {ref : Nat} (h : ref < 4)
    (there : bitN (getF s Reg.clk_CLK_STATUS_REF_OK) ref = true) : ∃ t, exec (.referenceLost ref) s = .next t ∧
      (getF t Reg.clk_CLK_STATUS_REF_OK).testBit ref = false ∧ (getF t Reg.clk_CLK_EVENTS_REF_LOST).testBit ref = true ∧
      (∃ d, (⟨3, 3, 12, 13 + ref, d, none⟩ : FaultRep) ∈ t.faultsUp) ∧ (ref = 0 → t.holdover = true) ∧ (ref = 1 → linkUp t = false) ∧
      (ref = 2 → portUp t 0 = false ∧ portUp t 1 = false) := by
  have run : exec (.referenceLost ref) s = .next (sicSettle (refFollows ref (refLost ref s))) := by
    show execReferenceLost ref s = _
    rw [execReferenceLost, live_next clean, if_pos ⟨h, there⟩]
    rfl
  have lost : RefLost ref (sicSettle (refFollows ref (refLost ref s))) :=
    (refFollows_lost (refLost_shown h s)).of_view (clockView_sicSettle _)
  refine ⟨_, run, lost.status, lost.event, lost.fault, ?_, ?_, ?_⟩
  · rintro rfl
    rw [sicSettle_holdover]
    rfl
  · rintro rfl
    rw [linkUp, getF_sicSettle]
    exact linkUp_pcieDown _
  · rintro rfl
    obtain ⟨first, second⟩ := portUp_ethLost_both (refLost 2 s)
    simp only [portUp, portPresent, getF_sicSettle, sicSettle_variant]
    exact ⟨first, second⟩

/-! ### The loss of a lock (R456) -/

/-- What decides whether a lost lock resets the device, and the flags of the locks, are the same in both states. -/
structure SameAsk (s t : State) : Prop where
  chip : chipState t = chipState s
  power : t.power = s.power
  resets : t.resets = s.resets
  lost : getF t Reg.clk_CLK_EVENTS_LOCK_LOST = getF s Reg.clk_CLK_EVENTS_LOCK_LOST

namespace SameAsk

theorem trans {s t u : State} (h : SameAsk s t) (k : SameAsk t u) : SameAsk s u :=
  ⟨k.chip.trans h.chip, k.power.trans h.power, k.resets.trans h.resets, k.lost.trans h.lost⟩

theorem of_csr {s t : State} (csr : t.csr = s.csr) (power : t.power = s.power) (resets : t.resets = s.resets) : SameAsk s t :=
  ⟨getF_congr csr _, power, resets, getF_congr csr _⟩

theorem putF {f : FieldRef} (chip : BitsApart f Reg.glob_CHIP_STATUS_STATE) (lost : BitsApart f Reg.clk_CLK_EVENTS_LOCK_LOST)
    (v : Nat) (s : State) : SameAsk s (putF f v s) :=
  ⟨getF_putF_bits chip v s, putF_power f v s, putF_resets f v s, getF_putF_bits lost v s⟩

/-- A record touches the recorder, its registers and its memory. -/
theorem record (code unit arg0 arg1 : Nat) (s : State) : SameAsk s (record code unit arg0 arg1 s) := by
  have lost (t : State) : SameAsk t (recLost t) := (putF (by decide) (by decide) _ t).trans (putF (by decide) (by decide) _ _)
  have written (w : RecWord) (t : State) : SameAsk t (recWrite w t) := by
    have stored (a : Nat) : SameAsk t (Machine.putF Reg.rec_REC_STATUS_INDEX (getF t Reg.rec_REC_STATUS_INDEX + 1) (wrNum a 32 w t)) := by
      have bytes : SameAsk t (wrNum a 32 w t) := of_csr rfl rfl rfl
      exact bytes.trans (putF (by decide) (by decide) _ _)
    simp only [recWrite]
    split
    · exact lost t
    split
    · exact (stored _).trans (putF (by decide) (by decide) _ _)
    · exact stored _
  have counted : SameAsk s { s with recorder := { s.recorder with seq := s.recorder.seq + 1 } } := of_csr rfl rfl rfl
  simp only [Machine.record]
  split
  · split
    · exact counted.trans (of_csr rfl rfl rfl)
    · exact counted.trans (lost _)
  · exact counted.trans (written _ _)

end SameAsk

/-- The loss of the lock of `pll`, as it is shown. -/
def lockLost (pll : Nat) (s : State) : State := s |> unlockPll pll |> clkLost pll

theorem lockLost_event {pll : Nat} (h : pll < 13) (s : State) :
    (getF (lockLost pll s) Reg.clk_CLK_EVENTS_LOCK_LOST).testBit pll = true := by
  rw [lockLost, clkLost, getF_putF_same, Nat.testBit_mod_two_pow, Nat.testBit_or, Nat.testBit_two_pow_self, Bool.or_true, Bool.and_true]
  exact decide_eq_true h

theorem lockLost_status {pll : Nat} (h : pll < 13) (s : State) : (getF (lockLost pll s) Reg.clk_CLK_STATUS_LOCK).testBit pll = false := by
  rw [lockLost, clkLost, getF_putF_bits (by decide), unlockPll, testBit_putF_setBitN h]

/-- A lost main lock asks for a warm reset with cause 4; the flag of the lock outlives it. -/
theorem lockLost_main {pll : Nat} (h : pll < 13) (s : State) :
    let t := clockReset false (recordFault 12 pll (lockLost pll s))
    (getF t Reg.clk_CLK_EVENTS_LOCK_LOST).testBit pll = true ∧
    (s.power.p3 = false → chipState s ≠ 6 → requestResult s none 1 0 = none → getF t Reg.rst_RST_CAUSE_CAUSE = 16) := by
  intro t
  have recorded : SameAsk (lockLost pll s) (recordFault 12 pll (lockLost pll s)) := .record _ _ _ _ _
  have chip : chipState (lockLost pll s) = chipState s := (getF_putF_bits (by decide) _ _).trans (getF_putF_bits (by decide) _ _)
  have power : (lockLost pll s).power = s.power := (putF_power _ _ _).trans (putF_power _ _ _)
  have resets : (lockLost pll s).resets = s.resets := (putF_resets _ _ _).trans (putF_resets _ _ _)
  refine ⟨?_, fun p3 cold free => ?_⟩
  · rw [(clockReset_keeps false _).1, recorded.lost, lockLost_event h]
  · have same := (requestResult_warm recorded.chip recorded.power recorded.resets).trans (requestResult_warm chip power resets)
    have taken : t = _ := clockReset_taken (by rw [recorded.power, power, p3]) (by rw [recorded.chip, chip]; exact cold) (same.trans free)
    rw [taken]
    exact (warmBegin_of_device 4 false _).cause

/-- The loss of the lock of a PLL that takes its domain down alone: shown, flagged, and reported. -/
structure LockLost (pll kind unit : Nat) (t : State) : Prop where
  event : (getF t Reg.clk_CLK_EVENTS_LOCK_LOST).testBit pll = true
  status : (getF t Reg.clk_CLK_STATUS_LOCK).testBit pll = false
  fault : ∃ f ∈ t.faultsUp, f.kind = kind ∧ f.unit = unit

theorem LockLost.of_view {pll kind unit : Nat} {s t : State} (h : LockLost pll kind unit s)
    (view : clockView clockFields t = clockView clockFields s) : LockLost pll kind unit t := by
  have faults : t.faultsUp = s.faultsUp := congrArg ClockView.faultsUp view
  exact ⟨by rw [getF_of_clockView view (by decide), h.event], by rw [getF_of_clockView view (by decide), h.status],
    by rw [faults]; exact h.fault⟩

theorem lockLost_raised {pll : Nat} (h : pll < 13) (level origin kind unit detail : Nat) (s : State) :
    LockLost pll kind unit (raiseUp level origin kind unit detail (lockLost pll s)) := by
  have field (f : FieldRef) : getF (raiseUp level origin kind unit detail (lockLost pll s)) f = getF (lockLost pll s) f :=
    getF_congr (s := raiseUp level origin kind unit detail (lockLost pll s)) (t := lockLost pll s) rfl f
  exact ⟨by rw [field, lockLost_event h], by rw [field, lockLost_status h], _,
    List.mem_append_right _ (List.mem_singleton.mpr rfl), rfl, rfl⟩

/-- What the loss of the lock of a PLL above 4 takes down. -/
def lockFollows (pll : Nat) (t : State) : State :=
  if pll ≤ 8 then t |> raiseUp 2 2 10 (pll - 5) (clkEvents t) |> request none 3 (pll - 5) (regionStart (pll - 5) none)
  else if pll = 9 then t |> clockFault 9 |> eipLost
  else if pll = 10 then t |> clockFault 10 |> pcieDown
  else t |> clockFault pll |> ethLost (pll - 11)

theorem lockFollows_lost {pll : Nat} (h : pll < 13) (s : State) :
    LockLost pll (if pll ≤ 8 then 10 else 12) (if pll ≤ 8 then pll - 5 else pll) (lockFollows pll (lockLost pll s)) := by
  unfold lockFollows
  by_cases region : pll ≤ 8
  · simp only [region, if_true]
    exact (lockLost_raised h _ _ _ _ _ s).of_view (clockFields_of_quiet (quietFields_request_region (by omega) _))
  by_cases eip : pll = 9
  · subst eip
    exact (lockLost_raised h _ _ _ _ _ s).of_view (clockFields_of_quiet (quietFields_eipLost _))
  by_cases pcie : pll = 10
  · subst pcie
    exact (lockLost_raised h _ _ _ _ _ s).of_view (clockFields_of_quiet (quietFields_pcieDown _))
  simp only [region, eip, pcie, if_false]
  exact (lockLost_raised h _ _ _ _ _ s).of_view (clockFields_ethLost (by omega) _)

theorem exec_pllLockLost {s : State} (clean : s.rsvDirty = false) {pll : Nat} (h : pll < 13)
    (locked : bitN (getF s Reg.clk_CLK_STATUS_LOCK) pll = true) : ∃ t, exec (.pllLockLost pll) s = .next t ∧
      (getF t Reg.clk_CLK_EVENTS_LOCK_LOST).testBit pll = true ∧
      (pll ≤ 4 → s.power.p3 = false → chipState s ≠ 6 → requestResult s none 1 0 = none → getF t Reg.rst_RST_CAUSE_CAUSE = 16) ∧
      (4 < pll → (getF t Reg.clk_CLK_STATUS_LOCK).testBit pll = false ∧
        ∃ f ∈ t.faultsUp, f.kind = (if pll ≤ 8 then 10 else 12) ∧ f.unit = (if pll ≤ 8 then pll - 5 else pll)) ∧
      (pll = 10 → linkUp t = false) := by
  have run : exec (.pllLockLost pll) s = .next (sicSettle (if pll ≤ 4 then clockReset false (recordFault 12 pll (lockLost pll s))
      else lockFollows pll (lockLost pll s))) := by
    show execPllLockLost pll s = _
    rw [execPllLockLost, live_next clean, if_pos ⟨h, locked⟩]
    rfl
  refine ⟨_, run, ?_⟩
  by_cases main : pll ≤ 4
  · obtain ⟨event, cause⟩ := lockLost_main h s
    simp only [main, if_true, getF_sicSettle]
    exact ⟨event, fun _ => cause, fun high => absurd main (by omega), fun is => absurd is (by omega)⟩
  · have lost := lockFollows_lost h s
    simp only [main, if_false, getF_sicSettle, sicSettle_faultsUp]
    refine ⟨lost.event, fun is => absurd is (by simp), fun _ => ⟨lost.status, lost.fault⟩, ?_⟩
    rintro rfl
    rw [linkUp, getF_sicSettle]
    exact linkUp_pcieDown _

/-! ### PERST_N (R461) -/

theorem exec_perstN {s : State} (clean : s.rsvDirty = false) : ∃ t, exec .perstN s = .next t ∧ t.pins.perstN = false ∧
    (isSet s Reg.rst_RST_CFG_PERST_WARM = false → linkUp t = false) ∧
    (isSet s Reg.rst_RST_CFG_PERST_WARM = true → requestResult s none 1 0 = none → getF t Reg.rst_RST_CAUSE_CAUSE = 8) := by
  let t := { s with pins := { s.pins with perstN := false } }
  have run : exec .perstN s = .next (sicSettle (if isSet s Reg.rst_RST_CFG_PERST_WARM then request none 1 0 (warmBegin 3 false none) t
      else t |> flrDo |> pcieDown)) := by
    show execPerstN s = _
    rw [execPerstN, live_next clean]
  refine ⟨_, run, ?_⟩
  rw [sicSettle_pins, linkUp, getF_sicSettle, getF_sicSettle]
  by_cases warm : isSet s Reg.rst_RST_CFG_PERST_WARM = true
  · have same : requestResult t none 1 0 = requestResult s none 1 0 := requestResult_warm (getF_congr (s := t) (t := s) rfl _) rfl rfl
    have begun := warmBegin_of_device 3 false t
    rw [if_pos warm, request_device, same]
    refine ⟨?_, fun cold => absurd (warm.symm.trans cold) (by decide), fun _ free => ?_⟩
    · split
      · exact begun.perstN
      · rfl
    · rw [if_pos free]
      exact begun.cause
  · rw [if_neg warm]
    have view := (quietFields_pcieDown (flrDo t)).trans (quietFields_flrDo t)
    exact ⟨congrArg ClockView.perstN view, fun _ => linkUp_pcieDown _, fun is => absurd is warm⟩

/-! ### The statement -/

/-- Settles O48: each command's clause, from its own lemma. -/
theorem bringUpAndClocks : Obligations.BringUpAndClocks := by
  intro s p clean
  refine ⟨?_, ?_, fun src low on => exec_rstNRelease clean low on src,
    fun corrected failed start rstN supplies p3 p4 => exec_coldInitDone clean start rstN supplies p3 p4 corrected failed, ?_,
    fun rate density ranks hrate hdensity hranks state => exec_trainingDone clean state hrate hdensity hranks,
    fun ref h => ⟨exec_referenceLost clean h, exec_referenceReturn clean h⟩, exec_refHoldoverExpiry clean,
    fun pll h => exec_pllLockLost clean h, exec_perstN clean, fun domain h ok => exec_clkMeasStart clean ok h,
    fun khz runs => exec_clkMeasDone clean runs khz, exec_supplyRemoval clean⟩
  · obtain ⟨t, run, fresh, state, cause⟩ := exec_coldReset_powerOn clean
    exact ⟨t, run, ⟨fresh.engs, fresh.mem, fresh.cores, state, fresh.pending⟩, cause⟩
  · intro on
    obtain ⟨t, run, fresh, state, cause, low⟩ := exec_coldReset_rstN clean on
    exact ⟨t, run, ⟨fresh.engs, fresh.mem, fresh.cores, state, fresh.pending⟩, cause, low⟩
  · intro spares rows state first
    refine ⟨fun spared => exec_bistDone_goesOn clean state first (bistStop_none spared), fun short => ?_,
      fun slice b hb => exec_bistDone_stops clean state first hb rfl⟩
    obtain ⟨b, hb, many, stop⟩ := bistStop_slice short
    obtain ⟨t, run, stops⟩ := exec_bistDone_stops clean state first (spares := spares) hb stop
    exact ⟨t, b, run, stops, many⟩

end Sys2Proof.Machine
end

section
/-! PROOFS. Memory as bits: what a read of bits or of bytes meets after a write of bits or of bytes (R6). -/

namespace Sys2Proof.Machine

/-- Bit `i` of memory, counted from bit 0 of byte 0. -/
def memBit (m : Memory) (i : Nat) : Bool := (getByte m (i / 8)).getLsbD (i % 8)

/-- The `n` bytes at `a` are in `t` as in `s`. -/
def BytesKept (a n : Nat) (s t : State) : Prop := ∀ b : Nat, a ≤ b → b < a + n → getByte t.mem b = getByte s.mem b

/-! ### Reads as bits -/

theorem testBit_getNum (m : Memory) (a n i : Nat) : (getNum m a n).testBit i = (decide (i < 8 * n) && memBit m (8 * a + i)) := by
  unfold getNum
  induction n generalizing a i with
  | zero => simp [getBytes, ofBytes]
  | succ n ih =>
    rw [getBytes, ofBytes, Nat.add_comm, Nat.testBit_two_pow_mul_add (i := 8) _ (getByte m a).isLt, ih]
    split
    next low =>
      have place : (8 * a + i) / 8 = a ∧ (8 * a + i) % 8 = i := by omega
      have inside : i < 8 * (n + 1) := by omega
      simp [memBit, place, inside, BitVec.testBit_toNat]
    next high =>
      rw [show 8 * (a + 1) + (i - 8) = 8 * a + i by omega]
      congr 1
      exact decide_eq_decide.mpr (by omega)

theorem testBit_getBits (m : Memory) (a lo w i : Nat) :
    (getBits m a lo w).testBit i = (decide (i < w) && memBit m (8 * a + lo + i)) := by
  unfold getBits
  rw [Nat.testBit_mod_two_pow, Nat.testBit_div_two_pow, testBit_getNum]
  by_cases inside : i < w
  · have covered : i + lo % 8 < 8 * ((lo % 8 + w + 7) / 8) := by omega
    have place : 8 * (a + lo / 8) + (i + lo % 8) = 8 * a + lo + i := by omega
    simp [inside, covered, place]
  · simp [inside]

theorem getBits_lt (m : Memory) (a lo w : Nat) : getBits m a lo w < 2 ^ w := Nat.mod_lt _ (Nat.two_pow_pos w)

/-! ### Writes as bits -/

theorem memBit_setByte (a : Nat) (v : Byte) (m : Memory) (i : Nat) :
    memBit (setByte a v m) i = if i / 8 = a then v.getLsbD (i % 8) else memBit m i := by
  simp only [memBit, getByte_setByte]
  split <;> rfl

theorem memBit_setNum (a n v : Nat) (m : Memory) (i : Nat) :
    memBit (setNum a n v m) i = if 8 * a ≤ i ∧ i < 8 * a + 8 * n then v.testBit (i - 8 * a) else memBit m i := by
  unfold setNum
  induction n generalizing a v m with
  | zero => rw [if_neg (by omega)]; rfl
  | succ n ih =>
    rw [toBytes, setBytes, ih, memBit_setByte]
    by_cases first : i / 8 = a
    · rw [if_neg (by omega), if_pos first, if_pos (by omega), BitVec.getLsbD_ofNat, show i - 8 * a = i % 8 by omega]
      simp [show i % 8 < 8 by omega]
    · rw [if_neg first, show (256 : Nat) = 2 ^ 8 from rfl, Nat.testBit_div_two_pow]
      by_cases inside : 8 * (a + 1) ≤ i ∧ i < 8 * (a + 1) + 8 * n
      · rw [if_pos inside, if_pos (by omega), show i - 8 * (a + 1) + 8 = i - 8 * a by omega]
      · rw [if_neg inside, if_neg (by omega)]

theorem memBit_setBits (a lo w v : Nat) (m : Memory) (i : Nat) :
    memBit (setBits a lo w v m) i = if 8 * a + lo ≤ i ∧ i < 8 * a + lo + w then v.testBit (i - (8 * a + lo)) else memBit m i := by
  unfold setBits
  rw [memBit_setNum]
  by_cases inside : 8 * (a + lo / 8) ≤ i ∧ i < 8 * (a + lo / 8) + 8 * ((lo % 8 + w + 7) / 8)
  · rw [if_pos inside, testBit_splice]
    by_cases field : 8 * a + lo ≤ i ∧ i < 8 * a + lo + w
    · rw [if_pos (by omega), if_pos field, show i - 8 * (a + lo / 8) - lo % 8 = i - (8 * a + lo) by omega]
    · rw [if_neg (by omega), if_neg field, testBit_getNum, show 8 * (a + lo / 8) + (i - 8 * (a + lo / 8)) = i by omega]
      simp only [show i - 8 * (a + lo / 8) < 8 * ((lo % 8 + w + 7) / 8) by omega, decide_true, Bool.true_and]
  · rw [if_neg inside, if_neg (by omega)]

/-! ### Read after write -/

@[simp] theorem getBits_setBits_same (a lo w v : Nat) (m : Memory) : getBits (setBits a lo w v m) a lo w = v % 2 ^ w := by
  refine Nat.eq_of_testBit_eq fun i => ?_
  rw [testBit_getBits, memBit_setBits, Nat.testBit_mod_two_pow]
  by_cases inside : i < w
  · rw [if_pos (by omega), Nat.add_sub_cancel_left]
  · simp [inside]

theorem getBits_of_memBit {m m' : Memory} {a lo w : Nat} (h : ∀ i < w, memBit m' (8 * a + lo + i) = memBit m (8 * a + lo + i)) :
    getBits m' a lo w = getBits m a lo w := by
  refine Nat.eq_of_testBit_eq fun i => ?_
  rw [testBit_getBits, testBit_getBits]
  by_cases inside : i < w
  · rw [h i inside]
  · simp [inside]

/-- Bits of the same record that a write of bits does not cover. -/
theorem getBits_setBits_apart {a lo w lo' w' : Nat} (h : lo' + w' ≤ lo ∨ lo + w ≤ lo') (v : Nat) (m : Memory) :
    getBits (setBits a lo w v m) a lo' w' = getBits m a lo' w' :=
  getBits_of_memBit fun i hi => by rw [memBit_setBits, if_neg (by omega)]

/-! ### Bytes that are kept -/

namespace BytesKept

variable {s t u : State} {a n : Nat}

theorem trans (h : BytesKept a n s t) (k : BytesKept a n t u) : BytesKept a n s u := fun b lo hi => (k b lo hi).trans (h b lo hi)

theorem of_mem (h : t.mem = s.mem) : BytesKept a n s t := fun _ _ _ => by rw [h]

theorem part {b k : Nat} (h : BytesKept a n s t) (lo : a ≤ b) (hi : b + k ≤ a + n) : BytesKept b k s t :=
  fun d dlo dhi => h d (by omega) (by omega)

theorem of_memKept {b k : Nat} (h : MemKept b k s t) (apart : a + n ≤ b ∨ b + k ≤ a) : BytesKept a n s t :=
  fun d lo hi => h d (by omega)

theorem rdBits {lo w : Nat} (h : BytesKept a n s t) (inside : lo + w ≤ 8 * n) : rdBits t a lo w = rdBits s a lo w :=
  getBits_of_memBit fun i hi => by rw [memBit, memBit, h _ (by omega) (by omega)]

theorem rdNum (h : BytesKept a n s t) : rdNum t a n = rdNum s a n := by
  unfold Machine.rdNum getNum
  rw [getBytes_congr t.mem s.mem a n h]

end BytesKept

namespace MemKept

variable {s t u : State} {a n : Nat}

theorem trans (h : MemKept a n s t) (k : MemKept a n t u) : MemKept a n s u := fun b out => (k b out).trans (h b out)

theorem of_mem (h : t.mem = s.mem) : MemKept a n s t := fun _ _ => by rw [h]

theorem part {b k : Nat} (h : MemKept b k s t) (lo : a ≤ b) (hi : b + k ≤ a + n) : MemKept a n s t := fun d out => h d (by omega)

theorem wrNum (a n v : Nat) (s : State) : MemKept a n s (wrNum a n v s) := fun _ out => getByte_setNum_outside a n v _ out s.mem

theorem wrBits {lo w : Nat} (v : Nat) (inside : lo + w ≤ 8 * n) (s : State) : MemKept a n s (wrBits a lo w v s) :=
  fun _ out => getByte_setBits_outside a lo w v _ (by omega) s.mem

end MemKept

end Sys2Proof.Machine
end

section
/-! PROOFS. A core whose stores hold no error, and the tables of its neurons (R49-R54, R92, R96-R98). -/

namespace Sys2Proof.Machine

/-! ### The core after an operation on it -/

@[simp] theorem core_setCore_same (c : Nat) (k : Core) (s : State) : core (setCore c k s) c = k := by simp [core]
@[simp] theorem core_putF (f : FieldRef) (v : Nat) (s : State) (c : Nat) : core (putF f v s) c = core s c := by simp [core]
@[simp] theorem core_setMem (m : Memory) (s : State) (c : Nat) : core (setMem m s) c = core s c := by simp [core]
@[simp] theorem core_setEng (c' e : Nat) (g : Eng) (s : State) (c : Nat) : core (setEng c' e g s) c = core s c := by simp [core]

/-! ### Stores without an error (R97, R98) -/

/-- No protected word of the device holds an error. -/
def NoUpsets (s : State) : Prop := ∀ w, eccAt s w = 0

theorem NoUpsets.congr {s t : State} (h : NoUpsets s) (same : t.ecc = s.ecc) : NoUpsets t := fun w => by
  rw [eccAt, same]
  exact h w

theorem localWords_of_noUpsets {s : State} (clean : NoUpsets s) (c e : Nat) (ws : List Nat) (body : State → State) :
    localWords c e ws body s = body s := by
  have zero : ∀ w, eccAt s w = 0 := clean
  induction ws with
  | nil => rfl
  | cons w r ih => rw [localWords, if_neg (by simp [zero]), coreEccFix, if_neg (by simp [zero]), ih]

theorem localAccess_of_noUpsets {s : State} (clean : NoUpsets s) (c e o n : Nat) (body : State → State) :
    localAccess c e o n body s = body s :=
  localWords_of_noUpsets clean c e _ body

/-- Words written whole change the error bits and nothing else. -/
theorem wroteWhole_eq (c : Nat) (ws : List Nat) (s : State) : wroteWhole c ws s = { s with ecc := (wroteWhole c ws s).ecc } :=
  List.foldlRecOn ws _ (motive := fun t : State => t = { s with ecc := t.ecc }) rfl fun t ht w _ => by
    rw [clearEcc, ht]

@[simp] theorem wroteWhole_mem (c : Nat) (ws : List Nat) (s : State) : (wroteWhole c ws s).mem = s.mem := by rw [wroteWhole_eq]
@[simp] theorem wroteWhole_csr (c : Nat) (ws : List Nat) (s : State) : (wroteWhole c ws s).csr = s.csr := by rw [wroteWhole_eq]
@[simp] theorem wroteWhole_variant (c : Nat) (ws : List Nat) (s : State) : (wroteWhole c ws s).variant = s.variant := by rw [wroteWhole_eq]
@[simp] theorem core_wroteWhole (c : Nat) (ws : List Nat) (s : State) (c' : Nat) : core (wroteWhole c ws s) c' = core s c' := by
  rw [core, wroteWhole_eq, core]
@[simp] theorem eng_wroteWhole (c : Nat) (ws : List Nat) (s : State) (c' e : Nat) : eng (wroteWhole c ws s) c' e = eng s c' e := by
  rw [eng, wroteWhole_eq, eng]

theorem NoUpsets.wroteWhole {s : State} (clean : NoUpsets s) (c : Nat) (ws : List Nat) : NoUpsets (wroteWhole c ws s) :=
  List.foldlRecOn ws _ (motive := NoUpsets) clean fun t ht w _ x => by
    have held := ht x
    simp only [eccAt, clearEcc] at held ⊢
    by_cases same : x = eccWordOf c w
    · simp [same]
    · rwa [tget_tdel_other 0 same]

/-! ### Fields beside those that are written -/

theorem CsrKept.trans {fs : List FieldRef} {s t u : State} (h : CsrKept fs s t) (k : CsrKept fs t u) : CsrKept fs s u :=
  fun a out => (k a out).trans (h a out)

/-- The counts of a core that its SO and SE write while they update and correct (R63, R69, R79). -/
def updateCounts (c : Nat) : List FieldRef := [Reg.core_SAT_COUNT_COUNT c, Reg.core_TARGET_ERR_COUNT_COUNT c]

theorem addr_updateCounts {c : Nat} {f : FieldRef} (h : f ∈ updateCounts c) :
    (f.addr = 0x0100080020 + c * 0x100000 ∨ f.addr = 0x0100080038 + c * 0x100000) ∧ fieldWords f = 1 := by
  rcases List.mem_pair.mp h with rfl | rfl
  · exact ⟨.inl rfl, by simp [fieldWords, Reg.core_SAT_COUNT_COUNT]⟩
  · exact ⟨.inr rfl, by simp [fieldWords, Reg.core_TARGET_ERR_COUNT_COUNT]⟩

section
variable {s t : State} {c : Nat}

/-- The words that say how a core is configured and whether it runs are no counts of it. -/
theorem rdWord_of_updateCounts (h : CsrKept (updateCounts c) s t) {a : Nat} (low : a < 0x0100000000 ∨ a = Reg.core_CORE_CFG c) :
    rdWord t a = rdWord s a :=
  h a fun f hf j hj => by
    obtain ⟨at_, one⟩ := addr_updateCounts hf
    simp only [Reg.core_CORE_CFG] at low
    omega

theorem getF_of_updateCounts (h : CsrKept (updateCounts c) s t) {a lo w : Nat} (word : lo + w ≤ 32)
    (low : a < 0x0100000000 ∨ a = Reg.core_CORE_CFG c) : getF t ⟨a, lo, w⟩ = getF s ⟨a, lo, w⟩ := by
  unfold getF
  refine congrArg (· / 2 ^ lo % 2 ^ w) (rdWords_congr a _ fun i hi => ?_)
  have first : i = 0 := by
    simp only [fieldWords] at hi
    omega
  rw [first, Nat.mul_zero, Nat.add_zero, rdWord_of_updateCounts h low]

theorem compact_of_updateCounts (h : CsrKept (updateCounts c) s t) : compact t c = compact s c :=
  congrArg (· == 1) (getF_of_updateCounts h (lo := 0) (w := 1) (by decide) (.inr rfl))

theorem compact_congr (h : t.csr = s.csr) : compact t c = compact s c := isSet_congr h _

/-- Whether an engine is up does not depend on the counts, the memory and the queues. -/
theorem engUp_of_updateCounts (h : CsrKept (updateCounts c) s t) (hc : c < 1024) (variant : t.variant = s.variant)
    (asleep : (core t c).asleep = (core s c).asleep) {e : Nat} (st : (eng t c e).st = (eng s c e).st) : engUp t c e = engUp s c e := by
  have held : coreHeld t c = coreHeld s c := by
    rw [coreHeld, rdWord_of_updateCounts h (.inl (by unfold Reg.rst_RST_CORE_HELD; omega)), coreHeld]
  have region : regionHeld t = regionHeld s := by
    funext r
    rw [regionHeld, getF_of_updateCounts h (by decide) (.inl (by decide)), regionHeld]
  have down : regionDown t = regionDown s := by
    funext r
    rw [regionDown, regionPwr, getF_of_updateCounts h (by decide) (.inl (by decide)), regionDown, regionPwr]
  have stands : clockStands t (regionOfCore c) = clockStands s (regionOfCore c) :=
    congrArg (· == 1) (getF_of_updateCounts h (lo := 8) (w := 1) (by decide) (.inl (by unfold regionOfCore; omega)))
  simp only [core] at asleep
  simp only [engUp, coreUp, corePresent, coreClocked, variant, held, region, down, stands, asleep, st]

end

/-! ### The tables of a core's neurons -/

theorem recOff_inside (s : State) (c i : Nat) : recOff s c i + recLen s c ≤ 0x20000 := by
  unfold recOff recLen
  split <;> omega

theorem delayOff_inside (r : NRec) (k : NClass) (m : Nat) : 0x20000 ≤ delayOff r k m ∧ delayOff r k m + 4 ≤ 0x30000 := by
  unfold delayOff
  omega

section
variable {s t : State} {c : Nat}

/-- A record that nothing has written reads as before. -/
theorem readRec_of_bytesKept (fmt : compact t c = compact s c) {i : Nat} (h : BytesKept (recAddr s c i) (recLen s c) s t) :
    readRec t c i = readRec s c i := by
  have addr : recAddr t c i = recAddr s c i := by simp only [recAddr, recOff, fmt]
  have bits {lo w : Nat} (inside : lo + w ≤ 8 * recLen s c) : rdBits t (recAddr s c i) lo w = rdBits s (recAddr s c i) lo w :=
    h.rdBits inside
  simp only [readRec, fmt, addr]
  cases small : compact s c <;> simp only [recLen, small] at bits <;> simp [bits]

/-- A class that nothing has written reads as before; its entry is one of the sixteen. -/
theorem classOf_of_bytesKept (fmt : compact t c = compact s c) {k : Nat} (hk : k < 16) (h : BytesKept (coreBase c + 0x30000) 0x200 s t) :
    classOf t c k = classOf s c k := by
  have kept : BytesKept (coreBase c + classOff k) 20 s t := h.part (by unfold classOff; omega) (by unfold classOff; omega)
  have bits {lo w : Nat} (inside : lo + w ≤ 160) : rdBits t (coreBase c + classOff k) lo w = rdBits s (coreBase c + classOff k) lo w :=
    kept.rdBits inside
  simp [classOf, fmt, bits]

theorem slotNBase_of_bytesKept {slot : Nat} (h : BytesKept (slotBase c slot) 8 s t) : slotNBase t c slot = slotNBase s c slot :=
  h.rdBits (by decide)

end

theorem readRec_cls_lt (s : State) (c i : Nat) : (readRec s c i).cls < 16 := by
  unfold readRec
  split
  · exact getBits_lt s.mem (recAddr s c i) 40 4
  · exact getBits_lt s.mem (recAddr s c i) 64 4

end Sys2Proof.Machine
end

section
/-! PROOFS. The synapse engine: groups of operations, late operations, and the queue that the IE fills behind them (R57, R60-R62,
R73, R74, R80). -/

namespace Sys2Proof.Machine

/-! ### What the SE leaves as it is -/

/-- `t` is `s` but for registers, delay slots of core `c`, and the operations that wait there. -/
structure SynapseStep (c : Nat) (s t : State) : Prop where
  rest : t = { s with csr := t.csr, mem := t.mem, cores := t.cores }
  queues : core t c = { core s c with late := (core t c).late }
  mem : MemKept (coreBase c + 0x20000) 0x10000 s t
  fmt : compact t c = compact s c

namespace SynapseStep

variable {c : Nat} {s t u : State}

theorem refl (c : Nat) (s : State) : SynapseStep c s s := ⟨rfl, rfl, .of_mem rfl, rfl⟩

theorem trans (h : SynapseStep c s t) (k : SynapseStep c t u) : SynapseStep c s u :=
  ⟨by rw [k.rest, h.rest], by rw [k.queues, h.queues], h.mem.trans k.mem, k.fmt.trans h.fmt⟩

theorem noUpsets (h : SynapseStep c s t) (clean : NoUpsets s) : NoUpsets t := clean.congr (by rw [h.rest])

theorem eng (h : SynapseStep c s t) (e : Nat) : eng t c e = eng s c e := by
  unfold Machine.eng
  rw [h.rest]

theorem late_set (c : Nat) (l : List SynOp) (s : State) : SynapseStep c s (setCore c { core s c with late := l } s) :=
  ⟨rfl, by rw [core_setCore_same], .of_mem rfl, compact_congr rfl⟩

/-- Records, classes and slot tables lie outside the delay store. -/
theorem opClass (h : SynapseStep c s t) (o : SynOp) : opClass t c o = opClass s c o := by
  have inside := recOff_inside s c o.target
  have same : readRec t c o.target = readRec s c o.target :=
    readRec_of_bytesKept h.fmt (.of_memKept h.mem (.inl (by unfold recAddr; omega)))
  simp only [Machine.opClass, same,
    classOf_of_bytesKept h.fmt (readRec_cls_lt s c o.target) (.of_memKept h.mem (.inr (by omega)))]

theorem slotRead (h : SynapseStep c s t) (slot i m : Nat) : slotRead t c slot i m = slotRead s c slot i m := by
  have base : slotNBase t c slot = slotNBase s c slot :=
    slotNBase_of_bytesKept (.of_memKept h.mem (.inr (by unfold slotBase; omega)))
  have soma : (core t c).soma = (core s c).soma := by rw [h.queues]
  have soCmd : (core t c).soCmd = (core s c).soCmd := by rw [h.queues]
  have somaAt : (core t c).somaAt = (core s c).somaAt := by rw [h.queues]
  rw [Machine.slotRead, Machine.slotRead, somaDone, somaDone, base, soma, soCmd, somaAt]

theorem opWaits (h : SynapseStep c s t) (o : SynOp) : opWaits t c o = opWaits s c o := by
  simp only [Machine.opWaits, h.opClass, h.slotRead]

end SynapseStep

/-! ### One operation -/

/-- The operation is neither late nor forbidden for its delay, and need not wait (R60-R62). -/
def Placeable (s : State) (c : Nat) (o : SynOp) : Prop :=
  dlyOk (ringDepth (opClass s c o).2) o.dly = true ∧ slotRead s c o.slot o.target o.step = false ∧ opWaits s c o = false

/-- The operation is added to the slot that its target has in `s` for its step (R57). -/
def addOp (s : State) (c : Nat) (u : State) (o : SynOp) : State :=
  addDelay c (delayOff (opClass s c o).1 (opClass s c o).2 o.step) (contribution u c o) u

/-- It is added and counted. -/
def placeOp (s : State) (c : Nat) (u : State) (o : SynOp) : State := addWrap (Reg.core_SYN_OPS_COUNT c) 1 (addOp s c u o)

/-- It joins those that wait, with its weight read. -/
def lateOp (s : State) (c : Nat) (u : State) (o : SynOp) : State :=
  setCore c { core u c with late := (core u c).late ++ [withWeight s c o] } u

theorem memKept_addDelay (c o : Nat) (x : Int) (s : State) : MemKept (coreBase c + o) 4 s (addDelay c o x s) := .wrNum _ _ _ s

theorem compact_putF_synOps (c v : Nat) (s : State) : compact (putF (Reg.core_SYN_OPS_COUNT c) v s) c = compact s c :=
  isSet_putF_bits (.inr (by simp only [Reg.core_CORE_CFG_FMT, Reg.core_SYN_OPS_COUNT]; omega)) v s

theorem synapseStep_placeOp (s : State) (c : Nat) (u : State) (o : SynOp) : SynapseStep c u (placeOp s c u o) := by
  have inside := delayOff_inside (opClass s c o).1 (opClass s c o).2 o.step
  refine ⟨?_, ?_, ?_, ?_⟩
  · rw [placeOp, addWrap_def, putF_eq]
    rfl
  · simp [placeOp, addOp, addDelay]
  · have kept : MemKept (coreBase c + 0x20000) 0x10000 u (addOp s c u o) := (memKept_addDelay _ _ _ u).part (by omega) (by omega)
    exact kept.trans (.of_mem (putF_mem _ _ _))
  · exact (compact_putF_synOps _ _ _).trans (compact_congr rfl)

section
variable {s u : State} {c : Nat} {o : SynOp}

theorem applyOp_of_placeable (step : SynapseStep c s u) (clean : NoUpsets u) (good : Placeable s c o) :
    applyOp c o u = placeOp s c u o := by
  obtain ⟨allowed, unread, -⟩ := good
  simp [applyOp, step.opClass, step.slotRead, allowed, unread, localAccess_of_noUpsets clean, placeOp, addOp]

theorem takeOp_of_placeable (step : SynapseStep c s u) (clean : NoUpsets u) (good : Placeable s c o) :
    takeOp c o u = placeOp s c u o := by
  have goes : opWaits u c o = false := (step.opWaits o).trans good.2.2
  rw [takeOp, localWords_of_noUpsets clean, goes]
  exact applyOp_of_placeable (o := withWeight u c o) step clean good

theorem takeOp_of_waits (step : SynapseStep c s u) (mem : u.mem = s.mem) (clean : NoUpsets u) (waits : opWaits s c o = true) :
    takeOp c o u = lateOp s c u o := by
  have weight : withWeight u c o = withWeight s c o := by
    simp only [withWeight, opValue, kernelWeight, winBits, rdBits, mem]
  rw [takeOp, localWords_of_noUpsets clean, step.opWaits, waits, if_pos rfl, weight]
  rfl

end

/-! ### One group (R80) -/

section
variable {s : State} {c : Nat} {g : List SynOp}

/-- A group none of whose operations waits, is late or is forbidden, is placed one operation after another. -/
theorem takeGroup_of_placeable {u : State} (step : SynapseStep c s u) (clean : NoUpsets u) (up : (eng u c 1).st ≠ .halted)
    (room : (core u c).late.length < 16) (good : ∀ o ∈ g, Placeable s c o) :
    takeGroup c g u = groupDone c (g.foldl (placeOp s c) u) := by
  induction g generalizing u with
  | nil => rfl
  | cons o r ih =>
    have next := synapseStep_placeOp s c u o
    have late : (core (placeOp s c u o) c).late = (core u c).late := by simp [placeOp, addOp, addDelay]
    rw [takeGroup, if_neg (not_or.mpr ⟨up, by omega⟩), takeOp_of_placeable step clean (good o List.mem_cons_self), List.foldl_cons]
    exact ih (step.trans next) (next.noUpsets clean) (by rwa [next.eng]) (by rwa [late]) fun o' ho' => good o' (List.mem_cons_of_mem o ho')

/-- A group all of whose operations wait joins the late operations, where they have room. -/
theorem takeGroup_of_waits {u : State} (step : SynapseStep c s u) (mem : u.mem = s.mem) (clean : NoUpsets u)
    (up : (eng u c 1).st ≠ .halted) (room : (core u c).late.length + g.length ≤ 16) (waits : ∀ o ∈ g, opWaits s c o = true) :
    takeGroup c g u = groupDone c (g.foldl (lateOp s c) u) := by
  induction g generalizing u with
  | nil => rfl
  | cons o r ih =>
    rw [List.length_cons] at room
    have next : SynapseStep c u (lateOp s c u o) := .late_set c _ u
    rw [takeGroup, if_neg (not_or.mpr ⟨up, by omega⟩), takeOp_of_waits step mem clean (waits o List.mem_cons_self), List.foldl_cons]
    exact ih (step.trans next) mem (next.noUpsets clean) (by rwa [next.eng]) (by simp [lateOp]; omega)
      fun o' ho' => waits o' (List.mem_cons_of_mem o ho')

/-- With the late-wait queue full the group stays at the head of its queue (R74). -/
theorem takeGroup_of_full {rest : List (List SynOp)} (nonempty : g ≠ []) (full : 16 ≤ (core s c).late.length)
    (head : (core s c).ops = g :: rest) : takeGroup c g s = setCore c { core s c with ops := (core s c).ops } s := by
  cases g with
  | nil => contradiction
  | cons o r => rw [takeGroup, if_pos (.inr full), modCore_def, head, List.tail_cons]

end

theorem foldl_placeOp_mem (s : State) (c : Nat) (g : List SynOp) {u w : State} (same : u.mem = w.mem) :
    (g.foldl (placeOp s c) u).mem = (g.foldl (addOp s c) w).mem := by
  have one (o : SynOp) {u w : State} (same : u.mem = w.mem) : (placeOp s c u o).mem = (addOp s c w o).mem := by
    have value : contribution u c o = contribution w c o := by
      simp only [contribution, opValue, kernelWeight, winBits, rdBits, same]
    simp [placeOp, addOp, addDelay, rdNum, value, same]
  induction g generalizing u w with
  | nil => exact same
  | cons o r ih => exact ih (one o same)

theorem foldl_placeOp_cores (s : State) (c : Nat) (g : List SynOp) (u : State) : (g.foldl (placeOp s c) u).cores = u.cores :=
  List.foldlRecOn g _ (motive := fun t : State => t.cores = u.cores) rfl fun t ht o _ => by simp [placeOp, addOp, addDelay, ht]

/-- Each operation that is placed counts in SYN_OPS, which wraps, and in no other register. -/
theorem foldl_placeOp_counted (s : State) (c : Nat) (g : List SynOp) (u : State) :
    CsrKept [Reg.core_SYN_OPS_COUNT c] u (g.foldl (placeOp s c) u) ∧
    getF (g.foldl (placeOp s c) u) (Reg.core_SYN_OPS_COUNT c) =
      (getF u (Reg.core_SYN_OPS_COUNT c) + g.length) % 2 ^ (Reg.core_SYN_OPS_COUNT c).width := by
  induction g generalizing u with
  | nil => exact ⟨fun _ _ => rfl, (Nat.mod_eq_of_lt (getF_lt u _)).symm⟩
  | cons o r ih =>
    obtain ⟨kept, count⟩ := ih (placeOp s c u o)
    have first : CsrKept [Reg.core_SYN_OPS_COUNT c] u (placeOp s c u o) :=
      csrKept_putF (csrKept_of_csr (t := addOp s c u o) _ rfl) (List.mem_singleton.mpr rfl) _
    have one : getF (placeOp s c u o) (Reg.core_SYN_OPS_COUNT c) =
        (getF u (Reg.core_SYN_OPS_COUNT c) + 1) % 2 ^ (Reg.core_SYN_OPS_COUNT c).width :=
      (getF_putF_same _ _ _).trans (by rw [getF_congr (s := addOp s c u o) (t := u) rfl])
    rw [List.foldl_cons, count, one, Nat.mod_add_mod, List.length_cons, Nat.add_assoc, Nat.add_comm 1]
    exact ⟨first.trans kept, rfl⟩

theorem foldl_lateOp (s : State) (c : Nat) (g : List SynOp) (u : State) :
    core (g.foldl (lateOp s c) u) c = { core u c with late := (core u c).late ++ g.map (withWeight s c) } ∧
    (g.foldl (lateOp s c) u).mem = u.mem ∧ (g.foldl (lateOp s c) u).csr = u.csr := by
  induction g generalizing u with
  | nil => simp
  | cons o r ih =>
    obtain ⟨queue, mem, csr⟩ := ih (lateOp s c u o)
    rw [List.foldl_cons, queue, mem, csr]
    exact ⟨by simp [lateOp], rfl, rfl⟩

/-! ### The end of a group (R73) -/

theorem coreFault_regsOnly (c kind engine store off : Nat) (s : State) : RegsOnly s (coreFault c kind engine store off s) := by
  simp only [coreFault]
  split
  · exact .putF _ _ s
  · exact (RegsOnly.putF _ _ s).trans (.wrWord _ _ _)

/-- Recording a fault leaves every count of the core. -/
theorem getF_coreFault {c : Nat} {f : FieldRef} (above : Reg.core_FAULT_INFO c + 4 ≤ f.addr) {kind : Nat} (hk : kind < 32)
    (engine store off : Nat) (s : State) : getF (coreFault c kind engine store off s) f = getF s f := by
  simp only [Reg.core_FAULT_INFO] at above
  have status : getF (putF ⟨Reg.core_FAULT_STATUS c, kind, 1⟩ 1 s) f = getF s f :=
    getF_putF_bits (.inl (by simp only [Reg.core_FAULT_STATUS]; omega)) 1 s
  simp only [coreFault]
  split
  · exact status
  · rw [getF_wrWord (.inl (by simp only [Reg.core_FAULT_INFO]; omega)), status]

theorem badTargets_regsOnly (c n : Nat) (s : State) : RegsOnly s (badTargets c n s) := by
  simp only [badTargets]
  split
  · exact .refl s
  · exact (RegsOnly.putF _ _ s).trans (coreFault_regsOnly _ _ _ _ _ _)

/-- The IE changes no memory and no late operation, and adds groups behind those that wait. -/
theorem placeGroups_spec (c : Nat) (gs : List (List SynOp)) (s : State) :
    (placeGroups c gs s).mem = s.mem ∧ (core (placeGroups c gs s) c).late = (core s c).late ∧
    (core s c).ops <+: (core (placeGroups c gs s) c).ops := by
  have blank (n : Nat) (t : State) : (badTargets c n t).mem = t.mem ∧ core (badTargets c n t) c = core t c :=
    ⟨(badTargets_regsOnly c n t).same (·.mem) fun _ => rfl, (badTargets_regsOnly c n t).same (core · c) fun _ => rfl⟩
  induction gs generalizing s with
  | nil => simp [placeGroups]
  | cons g r ih =>
    simp only [placeGroups]
    split
    next none =>
      obtain ⟨mem, queues⟩ := blank (g.countP fun o => !targetOk s c o) s
      rw [← mem, ← queues]
      exact ih _
    split
    next room =>
      obtain ⟨mem, queues⟩ := blank (g.countP fun o => !targetOk s c o)
        (modCore c (fun k => { k with ops := k.ops ++ [g.filter (targetOk s c)] }) s)
      obtain ⟨memAfter, late, ops⟩ := ih (badTargets c (g.countP fun o => !targetOk s c o)
        (modCore c (fun k => { k with ops := k.ops ++ [g.filter (targetOk s c)] }) s))
      rw [queues] at late ops
      rw [mem] at memAfter
      refine ⟨memAfter, late.trans (by simp), .trans ?_ ops⟩
      simp
    next => simp

theorem groupDone_spec (c : Nat) (s : State) :
    (groupDone c s).mem = s.mem ∧ (core (groupDone c s) c).late = (core s c).late ∧
    (core s c).ops.tail <+: (core (groupDone c s) c).ops ∧
    ((core s c).forming = [] → (core (groupDone c s) c).ops = (core s c).ops.tail ∧ (groupDone c s).csr = s.csr) := by
  obtain ⟨mem, late, ops⟩ := placeGroups_spec c (core s c).forming (modCore c (fun k => { k with ops := k.ops.tail }) s)
  have unfolds : groupDone c s = placeGroups c (core s c).forming (modCore c (fun k => { k with ops := k.ops.tail }) s) := by
    simp [groupDone]
  rw [← unfolds] at mem late ops
  refine ⟨mem, late.trans (by simp), by simpa using ops, fun none => ?_⟩
  rw [unfolds, none]
  simp [placeGroups]

/-! ### The commands -/

section
variable {s : State} {c : Nat}

theorem exec_operationGroup {g : List SynOp} {rest : List (List SynOp)} (bound : s.rsvDirty = false) (up : engUp s c 1 = true)
    (head : (core s c).ops = g :: rest) (ahead : groupBehind s c g = false) :
    exec (.operationGroup c) s = .next (sicSettle (takeGroup c g s)) := by
  show execOperationGroup c s = _
  simp [execOperationGroup, head, up, ahead, live_next bound]

theorem exec_lateWaitRelease {o : SynOp} {rest : List SynOp} (bound : s.rsvDirty = false) (up : engUp s c 1 = true)
    (oldest : nextLate s c = some (o, rest)) :
    exec (.lateWaitRelease c) s = .next (sicSettle (applyOp c o (setCore c { core s c with late := rest } s))) := by
  show execLateWaitRelease c s = _
  simp [execLateWaitRelease, oldest, up, live_next bound]

theorem not_halted_of_engUp {e : Nat} (up : engUp s c e = true) : (eng s c e).st ≠ .halted := by
  simp only [engUp, Bool.and_eq_true, bne_iff_ne] at up
  exact up.2

/-- A group all of which may be placed (R57, R80). -/
theorem operationGroup_places {g : List SynOp} {rest : List (List SynOp)} (bound : s.rsvDirty = false) (clean : NoUpsets s)
    (up : engUp s c 1 = true) (head : (core s c).ops = g :: rest) (ahead : groupBehind s c g = false)
    (good : ∀ o ∈ g, Placeable s c o) (room : (core s c).late.length < 16) :
    ∃ t, exec (.operationGroup c) s = .next t ∧ rest <+: (core t c).ops ∧ t.mem = (g.foldl (addOp s c) s).mem ∧
      (core t c).late = (core s c).late ∧
      ((core s c).forming = [] → (core t c).ops = rest ∧ CsrKept [Reg.core_SYN_OPS_COUNT c] s t ∧
        getF t (Reg.core_SYN_OPS_COUNT c) = (getF s (Reg.core_SYN_OPS_COUNT c) + g.length) % 2 ^ (Reg.core_SYN_OPS_COUNT c).width) := by
  have run := exec_operationGroup bound up head ahead
  rw [takeGroup_of_placeable (.refl c s) clean (not_halted_of_engUp up) room good] at run
  have queues : core (g.foldl (placeOp s c) s) c = core s c := by rw [core, foldl_placeOp_cores, core]
  have placed := foldl_placeOp_mem s c g (u := s) rfl
  obtain ⟨kept, count⟩ := foldl_placeOp_counted s c g s
  obtain ⟨mem, late, behind, alone⟩ := groupDone_spec c (g.foldl (placeOp s c) s)
  rw [queues, head, List.tail_cons] at behind alone
  rw [queues] at late
  refine ⟨_, run, ?_, ?_, ?_, fun none => ?_⟩
  · rwa [core_sicSettle]
  · rw [sicSettle_mem, mem, placed]
  · rwa [core_sicSettle]
  · obtain ⟨ops, csr⟩ := alone none
    rw [core_sicSettle, getF_sicSettle, getF_congr csr]
    exact ⟨ops, csrKept_congr kept ((sicSettle_csr _).trans csr), count⟩

/-- A group all of which must wait (R61). -/
theorem operationGroup_waits {g : List SynOp} {rest : List (List SynOp)} (bound : s.rsvDirty = false) (clean : NoUpsets s)
    (up : engUp s c 1 = true) (head : (core s c).ops = g :: rest) (ahead : groupBehind s c g = false)
    (waits : ∀ o ∈ g, opWaits s c o = true) (room : (core s c).late.length + g.length ≤ 16) :
    ∃ t, exec (.operationGroup c) s = .next t ∧ rest <+: (core t c).ops ∧ t.mem = s.mem ∧
      (core t c).late = (core s c).late ++ g.map (withWeight s c) ∧
      ((core s c).forming = [] → (core t c).ops = rest ∧ t.csr = s.csr) := by
  have run := exec_operationGroup bound up head ahead
  rw [takeGroup_of_waits (.refl c s) rfl clean (not_halted_of_engUp up) room waits] at run
  obtain ⟨queues, held, same⟩ := foldl_lateOp s c g s
  obtain ⟨mem, late, behind, alone⟩ := groupDone_spec c (g.foldl (lateOp s c) s)
  rw [queues, head, List.tail_cons] at behind alone
  rw [queues] at late
  refine ⟨_, run, ?_, ?_, ?_, fun none => ?_⟩
  · rwa [core_sicSettle]
  · rw [sicSettle_mem, mem, held]
  · rwa [core_sicSettle]
  · obtain ⟨ops, csr⟩ := alone none
    rw [core_sicSettle, sicSettle_csr]
    exact ⟨ops, csr.trans same⟩

/-- A group that meets a full late-wait queue (R74). -/
theorem operationGroup_stalls {g : List SynOp} {rest : List (List SynOp)} (bound : s.rsvDirty = false) (up : engUp s c 1 = true)
    (head : (core s c).ops = g :: rest) (ahead : groupBehind s c g = false) (nonempty : g ≠ []) (full : 16 ≤ (core s c).late.length) :
    ∃ t, exec (.operationGroup c) s = .next t ∧ (core t c).ops = (core s c).ops ∧ (core t c).late = (core s c).late ∧
      t.mem = s.mem ∧ t.csr = s.csr := by
  refine ⟨_, exec_operationGroup bound up head ahead, ?_⟩
  rw [takeGroup_of_full nonempty full head]
  simp

/-- A late operation that may be placed (R57, R61). -/
theorem lateWaitRelease_places {o : SynOp} {rest : List SynOp} (bound : s.rsvDirty = false) (clean : NoUpsets s)
    (up : engUp s c 1 = true) (oldest : nextLate s c = some (o, rest)) (good : Placeable s c o) :
    ∃ t, exec (.lateWaitRelease c) s = .next t ∧ (core t c).late = rest ∧ t.mem = (addOp s c s o).mem ∧
      MemKept (coreBase c + delayOff (opClass s c o).1 (opClass s c o).2 o.step) 4 s t := by
  have step : SynapseStep c s (setCore c { core s c with late := rest } s) := .late_set c rest s
  have mem : (sicSettle (placeOp s c (setCore c { core s c with late := rest } s) o)).mem = (addOp s c s o).mem := by
    rw [sicSettle_mem, placeOp, addWrap_def, putF_mem]
    rfl
  refine ⟨_, exec_lateWaitRelease bound up oldest, ?_⟩
  rw [applyOp_of_placeable step (step.noUpsets clean) good]
  exact ⟨by simp [placeOp, addOp, addDelay], mem, (memKept_addDelay c _ _ s).trans (.of_mem mem)⟩

/-- A late operation that is discarded counts in its register, with a fault (R60, R62). -/
theorem discarded_spec {f : FieldRef} {kind : Nat} (above : Reg.core_FAULT_INFO c + 4 ≤ f.addr) (hk : kind < 32) (l : List SynOp) :
    let t := sicSettle (coreFault c kind 1 7 0 (incSat f (setCore c { core s c with late := l } s)))
    (core t c).late = l ∧ t.mem = s.mem ∧ getF t f = min (getF s f + 1) (2 ^ f.width - 1) := by
  intro t
  have regs : RegsOnly (setCore c { core s c with late := l } s) (coreFault c kind 1 7 0 (incSat f (setCore c { core s c with late := l } s))) :=
    (RegsOnly.putF f _ _).trans (coreFault_regsOnly _ _ _ _ _ _)
  have queues : core t c = { core s c with late := l } := by
    rw [core_sicSettle, regs.same (core · c) fun _ => rfl, core_setCore_same]
  have small : min (getF s f + 1) (2 ^ f.width - 1) < 2 ^ f.width := by
    have := Nat.two_pow_pos f.width
    omega
  refine ⟨by rw [queues], ?_, ?_⟩
  · rw [sicSettle_mem]
    exact regs.same (·.mem) fun _ => rfl
  · rw [getF_sicSettle, getF_coreFault above hk, incSat_def, getF_putF_same, getF_setCore, Nat.mod_eq_of_lt small]

theorem lateWaitRelease_late {o : SynOp} {rest : List SynOp} (bound : s.rsvDirty = false)
    (up : engUp s c 1 = true) (oldest : nextLate s c = some (o, rest)) (allowed : dlyOk (ringDepth (opClass s c o).2) o.dly = true)
    (read : slotRead s c o.slot o.target o.step = true) :
    ∃ t, exec (.lateWaitRelease c) s = .next t ∧ (core t c).late = rest ∧ t.mem = s.mem ∧
      getF t (Reg.core_LATE_COUNT_COUNT c) =
        min (getF s (Reg.core_LATE_COUNT_COUNT c) + 1) (2 ^ (Reg.core_LATE_COUNT_COUNT c).width - 1) := by
  have step : SynapseStep c s (setCore c { core s c with late := rest } s) := .late_set c rest s
  refine ⟨_, exec_lateWaitRelease bound up oldest, ?_⟩
  rw [applyOp, step.opClass, allowed, step.slotRead, read]
  exact discarded_spec (by simp only [Reg.core_FAULT_INFO, Reg.core_LATE_COUNT_COUNT]; omega) (by decide) rest

theorem lateWaitRelease_forbidden {o : SynOp} {rest : List SynOp} (bound : s.rsvDirty = false)
    (up : engUp s c 1 = true) (oldest : nextLate s c = some (o, rest)) (forbidden : dlyOk (ringDepth (opClass s c o).2) o.dly = false) :
    ∃ t, exec (.lateWaitRelease c) s = .next t ∧ (core t c).late = rest ∧ t.mem = s.mem ∧
      getF t (Reg.core_DELAY_ERR_COUNT c) =
        min (getF s (Reg.core_DELAY_ERR_COUNT c) + 1) (2 ^ (Reg.core_DELAY_ERR_COUNT c).width - 1) := by
  have step : SynapseStep c s (setCore c { core s c with late := rest } s) := .late_set c rest s
  refine ⟨_, exec_lateWaitRelease bound up oldest, ?_⟩
  rw [applyOp, step.opClass, forbidden]
  exact discarded_spec (by simp only [Reg.core_FAULT_INFO, Reg.core_DELAY_ERR_COUNT]; omega) (by decide) rest

end

end Sys2Proof.Machine
end

section
/-! PROOFS. The arithmetic of the soma update stays within the fields of a neuron's record (R49, R66-R70). -/

namespace Sys2Proof.Machine

/-- `x` is a signed number of 24 bits. -/
def Fits24 (x : Int) : Prop := -8388608 ≤ x ∧ x ≤ 8388607

theorem sx_mod (w v : Nat) : sx w (v % 2 ^ w) = sx w v := by
  unfold sx
  rw [← BitVec.toNat_ofNat, BitVec.ofNat_toNat, BitVec.setWidth_eq]

theorem sx_ux_of_fits24 {x : Int} (h : Fits24 x) : sx 24 (ux 24 x) = x := by
  unfold sx ux
  rw [BitVec.ofNat_toNat, BitVec.setWidth_eq, BitVec.toInt_ofInt]
  exact Int.bmod_eq_of_le (by have := h.1; omega) (by have := h.2; omega)

theorem sx_fits24 (v : Nat) : Fits24 (sx 24 v) := by
  have lo := BitVec.le_toInt (BitVec.ofNat 24 v)
  have hi := BitVec.toInt_lt (x := BitVec.ofNat 24 v)
  simp only [Fits24, sx]
  omega

theorem sat24_fits24 (x : Int) : Fits24 (sat24 x) := by
  simp only [Fits24, sat24, satS, clampInt]
  split_ifs <;> omega

/-- Scaling by at most one does not make a number larger (R67). -/
theorem rounded_scaled_le {a d : Nat} (hd : d ≤ 65536) : (2 * (a * d) + 2 ^ 16) / (2 * 2 ^ 16) ≤ a := by
  have := Nat.mul_le_mul_left a hd
  omega

theorem rdiv_scaled_fits24 {v : Int} (h : Fits24 v) {d : Nat} (hd : d ≤ 65536) : Fits24 (rdiv (v * d) 16) := by
  have small := rounded_scaled_le (a := v.natAbs) hd
  obtain ⟨lo, hi⟩ := h
  have size : (v * (d : Int)).natAbs = v.natAbs * d := by rw [Int.natAbs_mul, Int.natAbs_natCast]
  simp only [rdiv, size, Fits24]
  split_ifs with neg
  · have : v < 0 := by
      by_contra pos
      exact absurd (Int.mul_nonneg (Int.not_lt.mp pos) (Int.natCast_nonneg d)) (Int.not_le.mpr neg)
    omega
  · by_cases pos : 0 ≤ v
    · omega
    · have zero : v * (d : Int) = 0 := by
        have := Int.mul_nonpos_of_nonpos_of_nonneg (Int.le_of_lt (Int.not_le.mp pos)) (Int.natCast_nonneg d)
        omega
      rw [zero] at size
      rw [← size]
      omega

theorem rdiv_natCast (x s : Nat) : (rdiv (x : Int) s).toNat = (2 * x + 2 ^ s) / (2 * 2 ^ s) := by
  rw [rdiv, if_neg (Int.not_lt.mpr (Int.natCast_nonneg x)), Int.natAbs_natCast, Int.toNat_natCast]

theorem rdiv_scaled_toNat_le {a d : Nat} (hd : d ≤ 65536) : (rdiv ((a * d : Nat) : Int) 16).toNat ≤ a := by
  rw [rdiv_natCast]
  exact rounded_scaled_le hd

theorem decayLoop_le (k n i : Nat) {f a : Nat} (hf : f ≤ 65536) (ha : a ≤ 65536) : decayLoop k n i f a ≤ 65536 := by
  induction n generalizing i f a with
  | zero => exact hf
  | succ n ih =>
    rw [decayLoop]
    refine ih (i + 1) ?_ ((rdiv_scaled_toNat_le ha).trans ha)
    split
    · exact (rdiv_scaled_toNat_le ha).trans hf
    · exact hf

theorem decay_le {alpha : Nat} (h : alpha ≤ 65536) (k : Nat) : decay alpha k ≤ 65536 := decayLoop_le k 16 0 (Nat.le_refl _) h

/-- The class's parameters lie within the fields that hold them, after the substitutes of R54. -/
structure ClassOk (k : NClass) : Prop where
  thr : 1 ≤ k.thr ∧ k.thr < 2 ^ 24
  alpha : k.alpha ≤ 65536
  refSteps : k.refSteps < 16
  vmin : k.vmin ≤ 0

theorem classOf_ok (s : State) (c k : Nat) : ClassOk (classOf s c k) := by
  have bits (lo w : Nat) : rdBits s (coreBase c + classOff k) lo w < 2 ^ w := getBits_lt _ _ _ _
  constructor
  · have := bits (32 * 0 + 0) 24
    simp only [classOf]
    split <;> omega
  · exact Nat.le_of_lt (bits (32 * 1 + 0) 16)
  · exact bits (32 * 2 + 24) 4
  · exact Int.min_le_right _ _

theorem leakV_fits24 {v : Int} (h : Fits24 v) {k : NClass} (ok : ClassOk k) (n : Nat) : Fits24 (leakV v k n) := by
  have amount : (0 : Int) ≤ ((n * k.leakLin : Nat) : Int) := Int.natCast_nonneg _
  unfold leakV
  split_ifs
  · exact h
  · exact rdiv_scaled_fits24 h (decay_le ok.alpha n)
  all_goals (simp only [Fits24] at h ⊢; omega)

/-- A firing leaves a potential between zero and the one that fired (R69, R70). -/
theorem fireOf_fits24 {k : NClass} (ok : ClassOk k) {v : Int} (fires : (k.thr : Int) ≤ v) (h : Fits24 v) : Fits24 (fireOf k v).v := by
  obtain ⟨thr, -⟩ := ok.thr
  have pos : (0 : Int) < k.thr := by omega
  have spent : min (v / (k.thr : Int)) 15 * k.thr ≤ v :=
    (Int.mul_le_mul_of_nonneg_right (Int.min_le_left _ _) (Int.le_of_lt pos)).trans (Int.ediv_mul_le v (by omega))
  have some_ : 0 ≤ min (v / (k.thr : Int)) 15 * k.thr :=
    Int.mul_nonneg (Int.le_min.mpr ⟨Int.ediv_nonneg (by omega) (by omega), by decide⟩) (Int.le_of_lt pos)
  simp only [Fits24] at h
  simp only [fireOf]
  split_ifs <;> (simp only [Fits24]; omega)

/-- The fields of a record that the SO writes hold what they can hold (R49, R52). -/
structure RecOk (r : NRec) : Prop where
  v : Fits24 r.v
  dend : Fits24 r.dend
  last : r.last < 65536
  refc : r.refc < 16

theorem readRec_ok (s : State) (c i : Nat) : RecOk (readRec s c i) := by
  have bits (lo w : Nat) : rdBits s (recAddr s c i) lo w < 2 ^ w := getBits_lt _ _ _ _
  unfold readRec
  split
  · exact ⟨sx_fits24 _, by simp [Fits24], bits 24 16, bits 44 4⟩
  · exact ⟨sx_fits24 _, sx_fits24 _, bits 48 16, bits 68 4⟩

/-- What an update leaves of a record (R52): the fields that the SO does not write, and the dendrite where the class has none. -/
theorem somaRec_keeps (r : NRec) (k : NClass) (n : Nat) (x : Int) :
    (somaRec r k n x).1.cls = r.cls ∧ (somaRec r k n x).1.trace = r.trace ∧ (somaRec r k n x).1.ring = r.ring ∧
    (k.two = false → (somaRec r k n x).1.dend = r.dend) := by
  unfold somaRec
  extract_lets _ e refractory refc d u v
  have hd : k.two = false → d = r.dend := fun none => if_neg (by simp [none])
  by_cases quiet : refractory = true
  · rw [if_pos quiet]
    exact ⟨rfl, rfl, rfl, hd⟩
  rw [if_neg quiet]
  by_cases fires : (k.thr : Int) ≤ max (sat24 (v + u)) k.vmin
  · rw [if_pos fires]
    exact ⟨rfl, rfl, rfl, hd⟩
  · rw [if_neg fires]
    exact ⟨rfl, rfl, rfl, hd⟩

theorem somaRec_ok {r : NRec} (h : RecOk r) {k : NClass} (ok : ClassOk k) (n : Nat) (x : Int) : RecOk (somaRec r k n x).1 := by
  unfold somaRec
  extract_lets _ e refractory refc d u v
  have hv : Fits24 v := leakV_fits24 h.v ok e
  have hd : Fits24 d := by
    unfold d
    split
    · exact sat24_fits24 _
    · exact h.dend
  have last : n % 2 ^ 16 < 65536 := Nat.mod_lt _ (by decide)
  have hrefc : refc < 16 := Nat.lt_of_le_of_lt (Nat.sub_le _ _) h.refc
  have raised : Fits24 (max (sat24 (v + u)) k.vmin) := by
    have sum := sat24_fits24 (v + u)
    have vmin := ok.vmin
    simp only [Fits24] at sum ⊢
    omega
  by_cases quiet : refractory = true
  · rw [if_pos quiet]
    exact ⟨hv, hd, last, hrefc⟩
  rw [if_neg quiet]
  by_cases fires : (k.thr : Int) ≤ max (sat24 (v + u)) k.vmin
  · rw [if_pos fires]
    exact ⟨fireOf_fits24 ok fires raised, hd, last, ok.refSteps⟩
  · rw [if_neg fires]
    exact ⟨raised, hd, last, hrefc⟩

end Sys2Proof.Machine
end

section
/-! PROOFS. The soma engine at one neuron (R65-R71). -/

namespace Sys2Proof.Machine

/-! ### The neurons of a slot -/

/-- The record, class, delay slot of step `n` and its value, of neuron `j` of a slot (R49, R53, R58). -/
def neuronRec (s : State) (c slot j : Nat) : NRec := readRec s c (slotNBase s c slot + j)
def neuronClass (s : State) (c slot j : Nat) : NClass := classOf s c (neuronRec s c slot j).cls
def neuronOff (s : State) (c slot n j : Nat) : Nat := delayOff (neuronRec s c slot j) (neuronClass s c slot j) n
def neuronX (s : State) (c slot n j : Nat) : Int := sx 32 (rdNum s (coreBase c + neuronOff s c slot n j) 4)

/-- Whether the wicket of step `n` updates it, and what R66 gives. -/
def neuronMoves (s : State) (c slot n j : Nat) : Bool := updatedAt (neuronClass s c slot j) n j (neuronX s c slot n j)
def neuronNext (s : State) (c slot n j : Nat) : NRec × Option Firing :=
  somaRec (neuronRec s c slot j) (neuronClass s c slot j) n (neuronX s c slot n j)

/-- The fire record that it gives (R71). -/
def neuronFire (s : State) (c slot n j : Nat) : Option FireRec :=
  if neuronMoves s c slot n j then
    (neuronNext s c slot n j).2.map (fun f => ⟨slotNBase s c slot + j, slot, f.kind, f.pay, n⟩)
  else none

/-- The record after the wicket. -/
def neuronAfter (s : State) (c slot n j : Nat) : NRec :=
  if neuronMoves s c slot n j then (neuronNext s c slot n j).1 else neuronRec s c slot j

/-! ### Records and delay slots lie apart -/

theorem recAddr_apart {s : State} {c i k : Nat} (h : recOff s c i ≠ recOff s c k) :
    recAddr s c i + recLen s c ≤ recAddr s c k ∨ recAddr s c k + recLen s c ≤ recAddr s c i := by
  simp only [recAddr, recOff, recLen] at h ⊢
  split at h <;> rename_i fmt <;> simp only [fmt, if_true, if_false, Bool.false_eq_true] <;> omega

theorem neuronOff_apart {s : State} {c slot n j k : Nat} (h : neuronOff s c slot n j ≠ neuronOff s c slot n k) :
    neuronOff s c slot n j + 4 ≤ neuronOff s c slot n k ∨ neuronOff s c slot n k + 4 ≤ neuronOff s c slot n j := by
  simp only [neuronOff, delayOff] at h ⊢
  omega

theorem neuronOff_inside (s : State) (c slot n j : Nat) :
    0x20000 ≤ neuronOff s c slot n j ∧ neuronOff s c slot n j + 4 ≤ 0x30000 := delayOff_inside _ _ _

/-! ### The write of a record (R52) -/

theorem memKept_writeSoma (c i : Nat) (r : NRec) (s : State) : MemKept (recAddr s c i) (recLen s c) s (writeSoma c i r s) := by
  cases fmt : compact s c <;> simp only [writeSoma, recLen, fmt, if_true, if_false, Bool.false_eq_true]
  · exact (((MemKept.wrBits _ (by decide) _).trans (.wrBits _ (by decide) _)).trans (.wrBits _ (by decide) _)).trans
      (.wrBits _ (by decide) _)
  · exact ((MemKept.wrBits _ (by decide) _).trans (.wrBits _ (by decide) _)).trans (.wrBits _ (by decide) _)

@[simp] theorem compact_setMem (m : Memory) (s : State) (c : Nat) : compact (setMem m s) c = compact s c := compact_congr rfl

@[simp] theorem setMem_setMem (m m' : Memory) (s : State) : setMem m (setMem m' s) = setMem m s := rfl

@[simp] theorem recAddr_setMem (m : Memory) (s : State) (c i : Nat) : recAddr (setMem m s) c i = recAddr s c i := by
  simp only [recAddr, recOff, compact_setMem]

/-- A record reads as written where the fields that the SO does not write are as they were. -/
theorem readRec_writeSoma {c i : Nat} {r : NRec} {s : State} (ok : RecOk r) (cls : r.cls = (readRec s c i).cls)
    (trace : r.trace = (readRec s c i).trace) (ring : r.ring = (readRec s c i).ring)
    (dend : compact s c = true → r.dend = 0) : readRec (writeSoma c i r s) c i = r := by
  have number {x : Int} (h : Fits24 x) : sx 24 (ux 24 x % 16777216) = x := (sx_mod 24 _).trans (sx_ux_of_fits24 h)
  obtain ⟨v, d, last, k, refc, tr, rg⟩ := r
  obtain ⟨hv, hd, hlast, hrefc⟩ := ok
  simp only at cls trace ring dend hv hd hlast hrefc
  cases fmt : compact s c <;>
    simp only [readRec, fmt, rdBits, if_true, if_false, Bool.false_eq_true] at cls trace ring <;>
    simp [readRec, writeSoma, fmt, rdBits, getBits_setBits_apart, number hv, number hd, Nat.mod_eq_of_lt hlast,
      Nat.mod_eq_of_lt hrefc, cls, trace, ring, dend]

/-! ### What the SO leaves as it is -/

/-- `t` is `s` but for the counts of core `c`, its records and delay slots, and its fire and postsynaptic queues. -/
structure SomaStep (c : Nat) (s t : State) : Prop where
  rest : t = { s with csr := t.csr, mem := t.mem, cores := t.cores }
  queues : core t c = { core s c with fire := (core t c).fire, post := (core t c).post }
  mem : MemKept (coreBase c) 0x30000 s t
  csr : CsrKept (updateCounts c) s t

namespace SomaStep

variable {c : Nat} {s t u : State}

theorem refl (c : Nat) (s : State) : SomaStep c s s := ⟨rfl, rfl, .of_mem rfl, csrKept_of_csr _ rfl⟩

theorem trans (h : SomaStep c s t) (k : SomaStep c t u) : SomaStep c s u :=
  ⟨by rw [k.rest, h.rest], by rw [k.queues, h.queues], h.mem.trans k.mem, h.csr.trans k.csr⟩

theorem noUpsets (h : SomaStep c s t) (clean : NoUpsets s) : NoUpsets t := clean.congr (by rw [h.rest])

theorem eng (h : SomaStep c s t) (e : Nat) : eng t c e = eng s c e := by
  unfold Machine.eng
  rw [h.rest]

theorem engUp (h : SomaStep c s t) (hc : c < 1024) (e : Nat) : engUp t c e = engUp s c e :=
  engUp_of_updateCounts h.csr hc (by rw [h.rest]) (by rw [h.queues]) (by rw [h.eng])

/-- What stands behind the delay store is kept: the classes and the slot table. -/
theorem kernelKept (h : SomaStep c s t) {a n : Nat} (behind : coreBase c + 0x30000 ≤ a) : BytesKept a n s t :=
  .of_memKept h.mem (.inr behind)

theorem slotNBase (h : SomaStep c s t) (slot : Nat) : slotNBase t c slot = slotNBase s c slot :=
  slotNBase_of_bytesKept (h.kernelKept (by unfold slotBase; omega))

/-- A neuron whose record stands keeps its class and delay slots. -/
theorem classAndOff (h : SomaStep c s t) {slot j : Nat} (same : neuronRec t c slot j = neuronRec s c slot j) (n : Nat) :
    neuronClass t c slot j = neuronClass s c slot j ∧ neuronOff t c slot n j = neuronOff s c slot n j := by
  have cls : neuronClass t c slot j = neuronClass s c slot j := by
    rw [neuronClass, same]
    exact classOf_of_bytesKept (compact_of_updateCounts h.csr) (readRec_cls_lt s c _) (h.kernelKept (Nat.le_refl _))
  exact ⟨cls, by rw [neuronOff, same, cls, neuronOff]⟩

theorem neuronRec (h : SomaStep c s t) {slot j : Nat}
    (kept : BytesKept (recAddr s c (Machine.slotNBase s c slot + j)) (recLen s c) s t) :
    neuronRec t c slot j = neuronRec s c slot j := by
  rw [Machine.neuronRec, h.slotNBase]
  exact readRec_of_bytesKept (compact_of_updateCounts h.csr) kept

end SomaStep

/-! ### One neuron -/

/-- What a firing records (R71, R84): nothing where the neuron does not fire. -/
def recordFiring (c slot n i : Nat) (f : Option Firing) (s : State) : State :=
  match f with
  | some f => pushFire c slot n i f s
  | none => s

/-- The delay slot of a neuron is cleared (R57, R66). -/
def clearSlot (c slot n j : Nat) (s : State) : State := wrNum (coreBase c + neuronOff s c slot n j) 4 0 s

/-- Then the fields of the SO are written (R52). -/
def writeNeuron (c slot n j : Nat) (s : State) : State :=
  writeSoma c (slotNBase s c slot + j) (neuronNext s c slot n j).1 (clearSlot c slot n j s)

/-- And a firing is recorded. -/
def moveNeuron (c slot n j : Nat) (s : State) : State :=
  recordFiring c slot n (slotNBase s c slot + j) (neuronNext s c slot n j).2 (writeNeuron c slot n j s)

theorem somaNeuron_of_noUpsets {s : State} (clean : NoUpsets s) (c slot n j : Nat) :
    somaNeuron c slot n j s = if neuronMoves s c slot n j then moveNeuron c slot n j s else s := by
  rw [somaNeuron, localWords_of_noUpsets clean]
  simp only [localWords_of_noUpsets clean, neuronMoves, moveNeuron, writeNeuron, clearSlot, neuronNext, neuronX, neuronOff, neuronClass,
    neuronRec, recordFiring] <;> rfl

/-- The core with one fire record more, and with learning on one postsynaptic record more (R71, R84). -/
def withFire (s : State) (c : Nat) (r : FireRec) : Core :=
  { core s c with fire := (core s c).fire ++ [r], post := if learnOn s c then (core s c).post ++ [r] else (core s c).post }

theorem pushFire_regsOnly (c slot n i : Nat) (f : Firing) (s : State) :
    RegsOnly (setCore c (withFire s c ⟨i, slot, f.kind, f.pay, n⟩) s) (pushFire c slot n i f s) := by
  simp only [pushFire]
  split
  · exact .putF _ _ _
  · exact .refl _

theorem csrKept_pushFire (c slot n i : Nat) (f : Firing) (s : State) : CsrKept (updateCounts c) s (pushFire c slot n i f s) := by
  simp only [pushFire]
  split
  · exact csrKept_putF (csrKept_of_csr _ (setCore_csr _ _ _)) List.mem_cons_self _
  · exact csrKept_of_csr _ (setCore_csr _ _ _)

/-- Recording changes no memory; the fire queue takes the record, if any, and the postsynaptic queue at most one. -/
theorem recordFiring_spec (c slot n i : Nat) (f : Option Firing) (s : State) :
    SomaStep c s (recordFiring c slot n i f s) ∧ (recordFiring c slot n i f s).mem = s.mem ∧
    (core (recordFiring c slot n i f s) c).fire = (core s c).fire ++ (f.map fun f => (⟨i, slot, f.kind, f.pay, n⟩ : FireRec)).toList ∧
    (core (recordFiring c slot n i f s) c).post.length ≤ (core s c).post.length + 1 := by
  cases f with
  | none => exact ⟨.refl c s, rfl, by simp [recordFiring], by simp [recordFiring]⟩
  | some f =>
    have regs := pushFire_regsOnly c slot n i f s
    have queues : core (pushFire c slot n i f s) c = withFire s c ⟨i, slot, f.kind, f.pay, n⟩ := by
      rw [regs.same (core · c) fun _ => rfl, core_setCore_same]
    have mem : (pushFire c slot n i f s).mem = s.mem := regs.same (·.mem) fun _ => rfl
    have rest : pushFire c slot n i f s =
        { s with csr := (pushFire c slot n i f s).csr, mem := (pushFire c slot n i f s).mem, cores := (pushFire c slot n i f s).cores } := by
      rw [regs]
      rfl
    simp only [recordFiring]
    refine ⟨⟨rest, by rw [queues]; rfl, .of_mem mem, csrKept_pushFire c slot n i f s⟩, mem, by rw [queues]; rfl, ?_⟩
    rw [queues, withFire]
    split <;> simp

section
variable (c slot n j : Nat) (s : State)

theorem memKept_clearSlot : MemKept (coreBase c + neuronOff s c slot n j) 4 s (clearSlot c slot n j s) := .wrNum _ _ _ s

theorem memKept_writeNeuron : MemKept (recAddr s c (slotNBase s c slot + j)) (recLen s c) (clearSlot c slot n j s)
    (writeNeuron c slot n j s) := by
  have kept := memKept_writeSoma c (slotNBase s c slot + j) (neuronNext s c slot n j).1 (clearSlot c slot n j s)
  have len : recLen (clearSlot c slot n j s) c = recLen s c := by simp only [recLen, clearSlot, wrNum_def, compact_setMem]
  rwa [len, clearSlot, wrNum_def, recAddr_setMem] at kept

theorem writeNeuron_eq : writeNeuron c slot n j s = setMem (writeNeuron c slot n j s).mem s := by
  unfold writeNeuron writeSoma
  split <;> simp only [clearSlot, wrBits_def, wrNum_def, setMem_mem, setMem_setMem]

/-- A record stands before the delay store. -/
theorem recAddr_inside (i : Nat) : coreBase c ≤ recAddr s c i ∧ recAddr s c i + recLen s c ≤ coreBase c + 0x20000 := by
  have inside := recOff_inside s c i
  unfold recAddr
  omega

theorem somaStep_writeNeuron : SomaStep c s (writeNeuron c slot n j s) := by
  have slotIn := neuronOff_inside s c slot n j
  have recIn := recAddr_inside c s (slotNBase s c slot + j)
  rw [writeNeuron_eq]
  refine ⟨rfl, by rw [core_setMem], ?_, csrKept_of_csr _ rfl⟩
  exact ((memKept_clearSlot c slot n j s).part (by omega) (by omega)).trans
    ((memKept_writeNeuron c slot n j s).part (by omega) (by omega))

/-- The record then is the one that R66 gives: no field of it that the SO does not write differs. -/
theorem neuronRec_writeNeuron : neuronRec (writeNeuron c slot n j s) c slot j = (neuronNext s c slot n j).1 := by
  have slotIn := neuronOff_inside s c slot n j
  have recIn := recAddr_inside c s (slotNBase s c slot + j)
  have fmt : compact (clearSlot c slot n j s) c = compact s c := compact_setMem _ s c
  have before : readRec (clearSlot c slot n j s) c (slotNBase s c slot + j) = neuronRec s c slot j :=
    readRec_of_bytesKept fmt (.of_memKept (memKept_clearSlot c slot n j s) (.inl (by omega)))
  obtain ⟨cls, trace, ring, dend⟩ := somaRec_keeps (neuronRec s c slot j) (neuronClass s c slot j) n (neuronX s c slot n j)
  rw [neuronRec, (somaStep_writeNeuron c slot n j s).slotNBase, writeNeuron]
  refine readRec_writeSoma (somaRec_ok (readRec_ok s c _) (classOf_ok s c _) n _) ?_ ?_ ?_ fun small => ?_
  · rw [before]; exact cls
  · rw [before]; exact trace
  · rw [before]; exact ring
  · rw [fmt] at small
    have two : (neuronClass s c slot j).two = false := by simp [neuronClass, classOf, small]
    exact (dend two).trans (by simp [neuronRec, readRec, small])

theorem rdNum_writeNeuron : rdNum (writeNeuron c slot n j s) (coreBase c + neuronOff s c slot n j) 4 = 0 := by
  have slotIn := neuronOff_inside s c slot n j
  have recIn := recAddr_inside c s (slotNBase s c slot + j)
  have kept : BytesKept (coreBase c + neuronOff s c slot n j) 4 (clearSlot c slot n j s) (writeNeuron c slot n j s) :=
    .of_memKept (memKept_writeNeuron c slot n j s) (.inr (by omega))
  exact kept.rdNum.trans (getNum_setNum _ _ _ _)

end

/-- What the SO does at a neuron that it updates (R66, R71). -/
theorem moveNeuron_spec (c slot n j : Nat) (s : State) :
    let t := moveNeuron c slot n j s
    let f := (neuronNext s c slot n j).2.map fun f => (⟨slotNBase s c slot + j, slot, f.kind, f.pay, n⟩ : FireRec)
    SomaStep c s t ∧ neuronRec t c slot j = (neuronNext s c slot n j).1 ∧ rdNum t (coreBase c + neuronOff s c slot n j) 4 = 0 ∧
    (core t c).fire = (core s c).fire ++ f.toList ∧ (core t c).post.length ≤ (core s c).post.length + 1 ∧
    ∀ a m, (a + m ≤ recAddr s c (slotNBase s c slot + j) ∨ recAddr s c (slotNBase s c slot + j) + recLen s c ≤ a) →
      (a + m ≤ coreBase c + neuronOff s c slot n j ∨ coreBase c + neuronOff s c slot n j + 4 ≤ a) → BytesKept a m s t := by
  intro t f
  have writes := somaStep_writeNeuron c slot n j s
  obtain ⟨records, mem, fire, post⟩ :=
    recordFiring_spec c slot n (slotNBase s c slot + j) (neuronNext s c slot n j).2 (writeNeuron c slot n j s)
  have same : core (writeNeuron c slot n j s) c = core s c := by rw [writeNeuron_eq, core_setMem]
  rw [same] at fire post
  refine ⟨writes.trans records, ?_, ?_, fire, post, fun a m recApart slotApart => ?_⟩
  · exact (records.neuronRec (.of_mem mem)).trans (neuronRec_writeNeuron c slot n j s)
  · exact (BytesKept.of_mem mem).rdNum.trans (rdNum_writeNeuron c slot n j s)
  · exact ((BytesKept.of_memKept (memKept_clearSlot c slot n j s) slotApart).trans
      (.of_memKept (memKept_writeNeuron c slot n j s) recApart)).trans (.of_mem mem)

end Sys2Proof.Machine
end

section
/-! PROOFS. The soma engine over the neurons of a slot (R65, R71, R83, R84). -/

namespace Sys2Proof.Machine

/-- The first `count` neurons of a slot have records and delay slots of step `n` of their own. -/
def OwnStores (s : State) (c slot n count : Nat) : Prop :=
  ∀ j k, j < count → k < count → j ≠ k →
    recOff s c (slotNBase s c slot + j) ≠ recOff s c (slotNBase s c slot + k) ∧ neuronOff s c slot n j ≠ neuronOff s c slot n k

/-- In `u` the SO has been at the first `k` neurons of the slot in `s`, and at no other. -/
structure UpdatedTo (s : State) (c slot n count k : Nat) (u : State) : Prop where
  step : SomaStep c s u
  done : ∀ j < k, neuronRec u c slot j = neuronAfter s c slot n j
  zero : ∀ j < k, neuronMoves s c slot n j = true → rdNum u (coreBase c + neuronOff s c slot n j) 4 = 0
  todo : ∀ j, k ≤ j → j < count → neuronRec u c slot j = neuronRec s c slot j ∧
    rdNum u (coreBase c + neuronOff s c slot n j) 4 = rdNum s (coreBase c + neuronOff s c slot n j) 4
  fire : (core u c).fire = (core s c).fire ++ (List.range k).filterMap (neuronFire s c slot n)
  post : (core u c).post.length ≤ (core s c).post.length + k

section
variable {s : State} {c slot n count : Nat}

theorem updatedTo_zero (s : State) (c slot n count : Nat) : UpdatedTo s c slot n count 0 s where
  step := .refl c s
  done _ h := absurd h (Nat.not_lt_zero _)
  zero _ h := absurd h (Nat.not_lt_zero _)
  todo _ _ _ := ⟨rfl, rfl⟩
  fire := by simp
  post := Nat.le_refl _

theorem filterMap_range_succ {α : Type} (f : Nat → Option α) (k : Nat) :
    (List.range (k + 1)).filterMap f = (List.range k).filterMap f ++ (f k).toList := by
  rw [List.range_succ, List.filterMap_append]
  cases h : f k <;> simp [h]

/-- What the SO finds at a neuron at which it has not been. -/
theorem neuron_congr {u : State} {k : Nat} (step : SomaStep c s u) (record : neuronRec u c slot k = neuronRec s c slot k)
    (value : rdNum u (coreBase c + neuronOff s c slot n k) 4 = rdNum s (coreBase c + neuronOff s c slot n k) 4) :
    neuronMoves u c slot n k = neuronMoves s c slot n k ∧ neuronNext u c slot n k = neuronNext s c slot n k := by
  obtain ⟨cls, off⟩ := step.classAndOff record n
  have x : neuronX u c slot n k = neuronX s c slot n k := by rw [neuronX, off, value, neuronX]
  exact ⟨by rw [neuronMoves, cls, x, neuronMoves], by rw [neuronNext, record, cls, x, neuronNext]⟩

/-- The SO is at a neuron that it does not update. -/
theorem UpdatedTo.next_of_still {u : State} {k : Nat} (h : UpdatedTo s c slot n count k u) (hk : k < count)
    (still : neuronMoves s c slot n k = false) : UpdatedTo s c slot n count (k + 1) u where
  step := h.step
  done j hj := by
    rcases Nat.lt_succ_iff_lt_or_eq.mp hj with before | rfl
    · exact h.done j before
    · rw [(h.todo j (Nat.le_refl j) hk).1, neuronAfter, still, if_neg Bool.false_ne_true]
  zero j hj moves := by
    rcases Nat.lt_succ_iff_lt_or_eq.mp hj with before | rfl
    · exact h.zero j before moves
    · exact absurd (still.symm.trans moves) Bool.false_ne_true
  todo j hj := h.todo j (by omega)
  fire := by
    rw [filterMap_range_succ, neuronFire, still, if_neg Bool.false_ne_true, h.fire]
    simp
  post := h.post.trans (by omega)

/-- The update of a neuron leaves the record and the delay slot of every other. -/
theorem moveNeuron_other (own : OwnStores s c slot n count) {u : State} {j k : Nat} (step : SomaStep c s u)
    (record : neuronRec u c slot k = neuronRec s c slot k) (hj : j < count) (hk : k < count) (ne : j ≠ k) :
    neuronRec (moveNeuron c slot n k u) c slot j = neuronRec u c slot j ∧
    rdNum (moveNeuron c slot n k u) (coreBase c + neuronOff s c slot n j) 4 = rdNum u (coreBase c + neuronOff s c slot n j) 4 := by
  have fmt := compact_of_updateCounts step.csr
  have place (i : Nat) : recAddr u c i = recAddr s c i ∧ recLen u c = recLen s c := by
    simp only [recAddr, recOff, recLen, fmt, and_self]
  obtain ⟨moved, -, -, -, -, kept⟩ := moveNeuron_spec c slot n k u
  rw [step.slotNBase, (step.classAndOff record n).2, (place _).1, (place 0).2] at kept
  obtain ⟨recs, slots⟩ := own j k hj hk ne
  have recApart := recAddr_apart recs
  have slotApart := neuronOff_apart slots
  have slotJ := neuronOff_inside s c slot n j
  have slotK := neuronOff_inside s c slot n k
  have recJ := recAddr_inside c s (slotNBase s c slot + j)
  have recK := recAddr_inside c s (slotNBase s c slot + k)
  refine ⟨moved.neuronRec ?_, (kept _ 4 (by omega) (by omega)).rdNum⟩
  rw [step.slotNBase, (place _).1, (place 0).2]
  exact kept _ _ (by omega) (by omega)

/-- The SO is at a neuron that it updates. -/
theorem UpdatedTo.next_of_moves (own : OwnStores s c slot n count) {u : State} {k : Nat} (h : UpdatedTo s c slot n count k u)
    (hk : k < count) (moves : neuronMoves s c slot n k = true) : UpdatedTo s c slot n count (k + 1) (moveNeuron c slot n k u) := by
  obtain ⟨record, value⟩ := h.todo k (Nat.le_refl k) hk
  have result := (neuron_congr h.step record value).2
  obtain ⟨step, written, cleared, fire, post, -⟩ := moveNeuron_spec c slot n k u
  rw [result, h.step.slotNBase] at fire
  rw [result] at written
  rw [(h.step.classAndOff record n).2] at cleared
  have other {j : Nat} (hj : j < count) (ne : j ≠ k) := moveNeuron_other own h.step record hj hk ne
  refine ⟨h.step.trans step, fun j hj => ?_, fun j hj mj => ?_, fun j hj hc => ?_, ?_, ?_⟩
  · rcases Nat.lt_succ_iff_lt_or_eq.mp hj with before | rfl
    · rw [(other (by omega) (by omega)).1, h.done j before]
    · rw [written, neuronAfter, moves, if_pos rfl]
  · rcases Nat.lt_succ_iff_lt_or_eq.mp hj with before | rfl
    · rw [(other (by omega) (by omega)).2, h.zero j before mj]
    · exact cleared
  · obtain ⟨recJ, valueJ⟩ := h.todo j (by omega) hc
    obtain ⟨recSame, valueSame⟩ := other hc (by omega)
    exact ⟨recSame.trans recJ, valueSame.trans valueJ⟩
  · rw [fire, h.fire, filterMap_range_succ, neuronFire, moves, if_pos rfl, List.append_assoc]
  · have := h.post
    omega

/-- The SO goes one neuron further. -/
theorem UpdatedTo.next (own : OwnStores s c slot n count) {u : State} {k : Nat} (h : UpdatedTo s c slot n count k u) (hk : k < count)
    (clean : NoUpsets u) : UpdatedTo s c slot n count (k + 1) (somaNeuron c slot n k u) := by
  obtain ⟨record, value⟩ := h.todo k (Nat.le_refl k) hk
  rw [somaNeuron_of_noUpsets clean, (neuron_congr h.step record value).1]
  cases moves : neuronMoves s c slot n k
  · exact h.next_of_still hk moves
  · exact h.next_of_moves own hk moves

/-- While the two queues that the SO writes have room for the neurons left, it does not stall (R84). -/
theorem not_fireFull {u : State} {k : Nat} (h : UpdatedTo s c slot n count k u) (hk : k < count)
    (fires : (core s c).fire.length + count ≤ 64)
    (posts : (core s c).post.length + (core s c).postReady.length + count ≤ 64) : fireFull u c = false := by
  have fired : (core u c).fire.length ≤ (core s c).fire.length + k := by
    rw [h.fire, List.length_append]
    have := List.length_filterMap_le (neuronFire s c slot n) (List.range k)
    rw [List.length_range] at this
    omega
  have ready : (core u c).postReady = (core s c).postReady := by rw [h.step.queues]
  have := h.post
  have room : ¬64 ≤ (core u c).fire.length ∧ ¬64 ≤ (core u c).post.length + (core u c).postReady.length := by
    rw [ready]
    omega
  simp [fireFull, room]

/-- The SO goes over all neurons left, and the slot is updated. -/
theorem somaRun_all (own : OwnStores s c slot n count) (clean : NoUpsets s) (up : (eng s c 2).st ≠ .halted)
    (fires : (core s c).fire.length + count ≤ 64)
    (posts : (core s c).post.length + (core s c).postReady.length + count ≤ 64) (m : Nat) {k f : Nat} {u : State}
    (all : k + m = count) (h : UpdatedTo s c slot n count k u) :
    ∃ v f', UpdatedTo s c slot n count count v ∧ somaRun c slot n (List.range' k m) f u = updateDone c slot n f' v := by
  induction m generalizing k f u with
  | zero =>
    rw [Nat.add_zero] at all
    subst all
    exact ⟨u, f, h, rfl⟩
  | succ m ih =>
    have next := h.next own (by omega) (h.step.noUpsets clean)
    obtain ⟨v, f', after, run⟩ := ih (f := f + ((core (somaNeuron c slot n k u) c).fire.length - (core u c).fire.length))
      (by omega) next
    have upU : ¬(eng u c 2).st = .halted := by rwa [h.step.eng]
    have upNext : ¬(eng (somaNeuron c slot n k u) c 2).st = .halted := by rwa [next.step.eng]
    have room := not_fireFull h (by omega) fires posts
    refine ⟨v, f', after, ?_⟩
    rw [List.range'_succ, somaRun, if_neg upU, room, if_neg Bool.false_ne_true]
    simp only [upNext, if_false]
    exact run

end

end Sys2Proof.Machine
end

section
/-! PROOFS. The end of a slot's update: STEP, the corrections, and the wicket commands that follow (R63, R64, R73, R82, R83, R92,
R130). -/

namespace Sys2Proof.Machine

/-! ### The end of the soma engine's work (R83, R92) -/

/-- STEP takes the step, the command leaves its queue, and no byte but those of STEP changes. -/
theorem somaEnd_spec (c slot n fires : Nat) (s : State) :
    let t := somaEnd c slot n fires s
    core t c = { core s c with soma := tset slot (n + 1) (core s c).soma, soCmd := (core s c).soCmd.tail, somaAt := none } ∧
    MemKept (slotBase c slot + 8) 8 s t ∧ slotStep t c slot = n % 2 ^ 64 ∧ t.csr = s.csr ∧ t.variant = s.variant ∧
    eng t c 1 = eng s c 1 ∧ (NoUpsets s → NoUpsets t) := by
  intro t
  have mem : t.mem = setBits (slotBase c slot) 64 64 n s.mem := by simp [t, somaEnd, setSlotStep]
  refine ⟨by simp [t, somaEnd, setSlotStep], fun b out => ?_, ?_, by simp [t, somaEnd, setSlotStep],
    by simp [t, somaEnd, setSlotStep], ?_, ?_⟩
  · rw [mem]
    exact getByte_setBits_outside _ 64 64 n b (by omega) s.mem
  · rw [slotStep, rdBits, mem, getBits_setBits_same]
  · simp [t, somaEnd, setSlotStep, eng_setEng]
  · intro clean
    exact ((clean.congr (t := setSlotStep c slot n s) rfl).wroteWhole c [0x31608 + 16 * slot, 0x3160C + 16 * slot]).congr rfl

/-! ### The corrections (R63, R64, R82) -/

/-- `t` is `s` but for the counts and delay slots of core `c`. -/
structure CorrectionStep (c : Nat) (s t : State) : Prop where
  rest : t = { s with csr := t.csr, mem := t.mem }
  mem : MemKept (coreBase c + 0x20000) 0x10000 s t
  csr : CsrKept (updateCounts c) s t

namespace CorrectionStep

variable {c : Nat} {s t u : State}

theorem refl (c : Nat) (s : State) : CorrectionStep c s s := ⟨rfl, .of_mem rfl, csrKept_of_csr _ rfl⟩

theorem trans (h : CorrectionStep c s t) (k : CorrectionStep c t u) : CorrectionStep c s u :=
  ⟨by rw [k.rest, h.rest], h.mem.trans k.mem, h.csr.trans k.csr⟩

theorem noUpsets (h : CorrectionStep c s t) (clean : NoUpsets s) : NoUpsets t := clean.congr (by rw [h.rest])

theorem counted (c : Nat) (s : State) : CorrectionStep c s (incSat (Reg.core_TARGET_ERR_COUNT_COUNT c) s) :=
  ⟨by rw [incSat_def, putF_eq], .of_mem (putF_mem _ _ _), csrKept_putF (csrKept_of_csr _ rfl) (List.mem_cons_of_mem _ List.mem_cons_self) _⟩

/-- Corrections one after another, none where the SE has halted. -/
theorem foldl {α : Type} {f : α → State → State} (each : ∀ x t, NoUpsets t → CorrectionStep c t (f x t)) (clean : NoUpsets s)
    (l : List α) : CorrectionStep c s (l.foldl (fun t x => unlessHalted c 1 (f x) t) s) :=
  List.foldlRecOn l _ (motive := fun t : State => CorrectionStep c s t) (refl c s) fun t ht x _ => by
    unfold unlessHalted
    split
    · exact ht
    · exact ht.trans (each x t (ht.noUpsets clean))

end CorrectionStep

section
variable {s : State} (clean : NoUpsets s)
include clean

theorem correctionStep_corrAdd (c i m : Nat) (v : Int) : CorrectionStep c s (corrAdd c i m v s) := by
  have inside := delayOff_inside (readRec s c i) (classOf s c (readRec s c i).cls) m
  rw [corrAdd, localWords_of_noUpsets clean, localAccess_of_noUpsets clean]
  exact ⟨rfl, (memKept_addDelay _ _ _ s).part (by omega) (by omega), csrKept_of_csr _ rfl⟩

theorem correctionStep_correction (c slot n e : Nat) : CorrectionStep c s (correction c slot n s e) := by
  rw [correction, localWords_of_noUpsets clean]
  simp only
  split
  · exact .refl c s
  rw [localWords_of_noUpsets clean]
  have adds (v : Int) (ns : List Nat) (out : Nat → Bool) :
      CorrectionStep c s (ns.foldl (fun t i => if out i then t else unlessHalted c 1 (corrAdd c i (n + 1) v) t) s) :=
    List.foldlRecOn ns _ (motive := fun t : State => CorrectionStep c s t) (.refl c s) fun t ht i _ => by
      unfold unlessHalted
      split_ifs
      · exact ht
      · exact ht
      · exact ht.trans (correctionStep_corrAdd (ht.noUpsets clean) c i (n + 1) v)
  split
  · exact (adds _ _ _).trans (.counted c _)
  · exact adds _ _ _

/-- The corrections of all entries; then the command leaves the queue of the SE. -/
theorem correctionEnd_spec (c slot n : Nat) (up : (eng s c 1).st ≠ .halted) :
    core (correctionEnd c slot n s) c =
      { core s c with corr := tset slot (n + 1) (core s c).corr, seCmd := (core s c).seCmd.erase (slot, n) } ∧
    MemKept (coreBase c + 0x20000) 0x10000 s (correctionEnd c slot n s) ∧ CsrKept (updateCounts c) s (correctionEnd c slot n s) := by
  have adds := CorrectionStep.foldl (f := fun e t => correction c slot n t e)
    (fun e t ht => correctionStep_correction ht c slot n e) clean (List.range 256)
  rw [correctionEnd, localWords_of_noUpsets clean]
  simp only
  generalize List.foldl _ s (List.range 256) = w at adds ⊢
  have upW : ¬(eng w c 1).st = .halted := by
    have same : eng w c 1 = eng s c 1 := by rw [eng, adds.rest, eng]
    rwa [same]
  have queues : core w c = core s c := by rw [core, adds.rest, core]
  rw [if_neg upW]
  refine ⟨?_, adds.mem, adds.csr.trans (csrKept_of_csr _ rfl)⟩
  rw [modEng_def, core_setEng, modCore_def, core_setCore_same, queues]

end

/-! ### What follows (R73, R133) -/

theorem sqPlace_spec (l : List (Nat × Nat)) (k : Core) :
    sqPlace l k = { k with soCmd := (sqPlace l k).soCmd, seCmd := (sqPlace l k).seCmd, sqOut := (sqPlace l k).sqOut } ∧
    k.soCmd <+: (sqPlace l k).soCmd := by
  induction l generalizing k with
  | nil => exact ⟨rfl, List.prefix_rfl⟩
  | cons x r ih =>
    rw [sqPlace]
    split
    · obtain ⟨only, behind⟩ := ih { k with soCmd := k.soCmd ++ [x], seCmd := k.seCmd ++ [x] }
      exact ⟨only, (List.prefix_append _ _).trans behind⟩
    · exact ⟨rfl, List.prefix_rfl⟩

/-- Raising STEP_END happenings changes the SQ's notes of them and nothing else. -/
def OnlyStepEnds (c : Nat) (s t : State) : Prop :=
  t = { s with cores := t.cores } ∧
  core t c = { core s c with endRaised := (core t c).endRaised, stepReady := (core t c).stepReady }

theorem OnlyStepEnds.trans {c : Nat} {s t u : State} (h : OnlyStepEnds c s t) (k : OnlyStepEnds c t u) : OnlyStepEnds c s u :=
  ⟨by rw [k.1, h.1], by rw [k.2, h.2]⟩

theorem raiseStepEnd_only (c k m : Nat) (s : State) : OnlyStepEnds c s (raiseStepEnd c k m s) := by
  induction m generalizing s with
  | zero => exact ⟨rfl, rfl⟩
  | succ m ih =>
    rw [raiseStepEnd]
    split
    · refine OnlyStepEnds.trans ⟨rfl, ?_⟩ (ih _)
      rw [modCore_def, core_setCore_same]
    · exact ⟨rfl, rfl⟩

theorem noteStepEnds_only (c : Nat) (s : State) : OnlyStepEnds c s (noteStepEnds c s) :=
  List.foldlRecOn _ _ (motive := fun t : State => OnlyStepEnds c s t) ⟨rfl, rfl⟩ fun t ht p _ => by
    split
    · exact ht.trans (raiseStepEnd_only c p.1 _ t)
    · exact ht

/-- The SQ places further wicket commands behind those that wait, and raises the STEP_ENDs that are due. -/
theorem afterUpdate_spec (c : Nat) (s : State) :
    let t := s |> sqDrain c |> noteStepEnds c
    t.mem = s.mem ∧ t.csr = s.csr ∧ (core t c).fire = (core s c).fire ∧ (core t c).soma = (core s c).soma ∧
    (core t c).corr = (core s c).corr ∧ (core s c).soCmd <+: (core t c).soCmd ∧
    ((core s c).sqOut = [] → (core t c).soCmd = (core s c).soCmd) := by
  intro t
  obtain ⟨rest, queues⟩ := noteStepEnds_only c (sqDrain c s)
  obtain ⟨place, behind⟩ := sqPlace_spec (core s c).sqOut (core s c)
  have drained : core (sqDrain c s) c = sqPlace (core s c).sqOut (core s c) := by rw [sqDrain, modCore_def, core_setCore_same]
  rw [drained] at queues
  have soCmd : (core t c).soCmd = (sqPlace (core s c).sqOut (core s c)).soCmd := (congrArg Core.soCmd queues :)
  refine ⟨(congrArg State.mem rest :), (congrArg State.csr rest :), ?_, ?_, ?_, ?_, fun none => ?_⟩
  · exact (congrArg Core.fire queues :).trans (congrArg Core.fire place :)
  · exact (congrArg Core.soma queues :).trans (congrArg Core.soma place :)
  · exact (congrArg Core.corr queues :).trans (congrArg Core.corr place :)
  · rwa [soCmd]
  · rw [soCmd, none]
    rfl

/-! ### The update of a slot is done -/

/-- The state in which the SO and the SE have done the wicket: the SE corrects where it has its command and has not halted. -/
def correctedEnd (c slot n fires : Nat) (s : State) : State :=
  let u := somaEnd c slot n fires s
  if engUp u c 1 && (core u c).seCmd.contains (slot, n) then correctionEnd c slot n u else u

theorem updateDone_eq (c slot n fires : Nat) (s : State) :
    updateDone c slot n fires s = (correctedEnd c slot n fires s |> sqDrain c |> noteStepEnds c) := rfl

section
variable {s : State} {c slot n : Nat} (fires : Nat)

theorem engUp_somaEnd (hc : c < 1024) : engUp (somaEnd c slot n fires s) c 1 = engUp s c 1 := by
  obtain ⟨queues, -, -, csr, variant, st, -⟩ := somaEnd_spec c slot n fires s
  exact engUp_of_updateCounts (csrKept_of_csr _ csr) hc variant (by rw [queues]) (by rw [st])

/-- Without a command the SE adds nothing. -/
theorem correctedEnd_of_no_command (none : (core s c).seCmd.contains (slot, n) = false) :
    correctedEnd c slot n fires s = somaEnd c slot n fires s := by
  obtain ⟨queues, -⟩ := somaEnd_spec c slot n fires s
  have no : (core (somaEnd c slot n fires s) c).seCmd.contains (slot, n) = false := by rw [queues]; exact none
  simp only [correctedEnd, no, Bool.and_false, Bool.false_eq_true, if_false]

theorem correctedEnd_of_command (hc : c < 1024) (some_ : (core s c).seCmd.contains (slot, n) = true) (up : engUp s c 1 = true) :
    correctedEnd c slot n fires s = correctionEnd c slot n (somaEnd c slot n fires s) := by
  obtain ⟨queues, -⟩ := somaEnd_spec c slot n fires s
  have yes : (core (somaEnd c slot n fires s) c).seCmd.contains (slot, n) = true := by rw [queues]; exact some_
  simp only [correctedEnd, yes, engUp_somaEnd fires hc, up, Bool.and_self, if_true]

/-- What both leave, whether the SE corrects or not. -/
theorem correctedEnd_spec (clean : NoUpsets s) (hs : slot < 256) :
    let t := correctedEnd c slot n fires s
    MemKept (coreBase c + 0x20000) 0x18000 s t ∧ CsrKept (updateCounts c) s t ∧ slotStep t c slot = n % 2 ^ 64 ∧
    (core t c).fire = (core s c).fire ∧ (core t c).soCmd = (core s c).soCmd.tail ∧ (core t c).sqOut = (core s c).sqOut ∧
    tget 0 slot (core t c).soma = n + 1 := by
  intro t
  obtain ⟨queues, mem, step, csr, -, -, cleanEnd⟩ := somaEnd_spec c slot n fires s
  have inside : MemKept (coreBase c + 0x20000) 0x18000 s (somaEnd c slot n fires s) :=
    mem.part (by unfold slotBase; omega) (by unfold slotBase; omega)
  by_cases corrects : engUp (somaEnd c slot n fires s) c 1 && (core (somaEnd c slot n fires s) c).seCmd.contains (slot, n)
  · have up : (eng (somaEnd c slot n fires s) c 1).st ≠ .halted := by
      rw [Bool.and_eq_true] at corrects
      exact not_halted_of_engUp corrects.1
    obtain ⟨queues', mem', csr'⟩ := correctionEnd_spec (cleanEnd clean) c slot n up
    have is : t = correctionEnd c slot n (somaEnd c slot n fires s) := if_pos corrects
    rw [queues] at queues'
    rw [is, queues']
    refine ⟨inside.trans (mem'.part (by omega) (by omega)), (csrKept_of_csr _ csr).trans csr', ?_, rfl, rfl, rfl, by simp⟩
    have kept : BytesKept (slotBase c slot) 16 (somaEnd c slot n fires s) (correctionEnd c slot n (somaEnd c slot n fires s)) :=
      .of_memKept mem' (.inr (by unfold slotBase; omega))
    rw [slotStep, kept.rdBits (by decide)]
    exact step
  · have is : t = somaEnd c slot n fires s := if_neg corrects
    rw [is, queues]
    exact ⟨inside, csrKept_of_csr _ csr, step, rfl, rfl, rfl, by simp⟩

/-- `t` is the state in which the wicket of step `n` is done, from the state `s` in which the SO has been at all neurons of the
slot. -/
structure SlotDone (c slot n : Nat) (s t : State) : Prop where
  mem : MemKept (coreBase c + 0x20000) 0x18000 s t
  fmt : compact t c = compact s c
  step : slotStep t c slot = n % 2 ^ 64
  fire : (core t c).fire = (core s c).fire
  soma : tget 0 slot (core t c).soma = n + 1
  behind : (core s c).soCmd.tail <+: (core t c).soCmd
  alone : (core s c).sqOut = [] → (core t c).soCmd = (core s c).soCmd.tail
  uncorrected : (core s c).seCmd.contains (slot, n) = false →
    MemKept (slotBase c slot + 8) 8 s t ∧ (core t c).corr = (core s c).corr
  corrected : (core s c).seCmd.contains (slot, n) = true → engUp s c 1 = true → tget 0 slot (core t c).corr = n + 1

theorem slotDone_updateDone (clean : NoUpsets s) (hc : c < 1024) (hs : slot < 256) :
    SlotDone c slot n s (sicSettle (updateDone c slot n fires s)) := by
  obtain ⟨mem, csr, step, fire, soCmd, sqOut, soma⟩ := correctedEnd_spec fires clean hs (slot := slot) (n := n) (c := c)
  obtain ⟨queuesEnd, memEnd, -, -, -, -, cleanEnd⟩ := somaEnd_spec c slot n fires s
  obtain ⟨memT, csrT, fireT, somaT, corrT, behind, alone⟩ := afterUpdate_spec c (correctedEnd c slot n fires s)
  rw [← updateDone_eq] at memT csrT fireT somaT corrT behind alone
  have memSettled := (sicSettle_mem (updateDone c slot n fires s)).trans memT
  have csrSettled := (sicSettle_csr (updateDone c slot n fires s)).trans csrT
  rw [soCmd] at behind alone
  rw [sqOut] at alone
  rw [← core_sicSettle (updateDone c slot n fires s)] at fireT somaT corrT behind alone
  refine ⟨mem.trans (.of_mem memSettled), (compact_congr csrSettled).trans (compact_of_updateCounts csr), ?_, fireT.trans fire,
    by rw [somaT, soma], behind, alone, fun none => ?_, fun some_ up => ?_⟩
  · rw [slotStep, rdBits, memSettled]
    exact step
  · rw [correctedEnd_of_no_command fires none] at memSettled corrT
    exact ⟨memEnd.trans (.of_mem memSettled), by rw [corrT, queuesEnd]⟩
  · have upEnd := not_halted_of_engUp ((engUp_somaEnd (slot := slot) (n := n) fires hc).trans up)
    rw [corrT, correctedEnd_of_command fires hc some_ up, (correctionEnd_spec (cleanEnd clean) c slot n upEnd).1, tget_tset_same]

end

end Sys2Proof.Machine
end

section
/-! PROOFS. The synaptic operations and the soma update (R57, R60-R71, R74, R80, R83, R84, R92). -/

namespace Sys2Proof.Machine

section
variable {s : State} {c slot n : Nat} {rest : List (Nat × Nat)} (bound : s.rsvDirty = false) (clean : NoUpsets s)
  (head : (core s c).soCmd = (slot, n) :: rest) (up : engUp s c 2 = true) (fresh : (core s c).somaAt = none)
include bound clean head up fresh

/-- The SO begins with the first neuron of its slot. -/
theorem exec_somaUpdate : exec (.somaUpdate c slot) s =
    .next (sicSettle (somaRun c slot n (List.range' 0 (slotNCount s c slot + 1)) 0 s)) := by
  show execSomaUpdate c slot s = _
  simp only [execSomaUpdate, live_next bound, head, up, fresh, and_self, if_true, localWords_of_noUpsets clean, List.range_eq_range']

/-- With the fire queue full it stalls before the first (R84). -/
theorem somaUpdate_stalls (full : (core s c).fire.length = 64) :
    ∃ t, exec (.somaUpdate c slot) s = .next t ∧ (core t c).somaAt = some (0, 0) ∧ (core t c).soCmd = (core s c).soCmd ∧
      t.mem = s.mem ∧ t.csr = s.csr := by
  have noRoom : fireFull s c = true := by simp [fireFull, full]
  have stalls : somaRun c slot n (List.range' 0 (slotNCount s c slot + 1)) 0 s = setCore c { core s c with somaAt := some (0, 0) } s := by
    rw [List.range'_succ, somaRun, if_neg (not_halted_of_engUp up), if_pos noRoom, modCore_def]
  refine ⟨_, exec_somaUpdate bound clean head up fresh, ?_⟩
  rw [stalls]
  simp

/-- With room in the queues that it writes it updates all neurons of the slot (R65-R71, R83, R92); the SE then adds the corrections
where it has its command (R63, R82). -/
theorem somaUpdate_all (hc : c < 1024) (hs : slot < 256) (fires : (core s c).fire.length + (slotNCount s c slot + 1) ≤ 64)
    (posts : (core s c).post.length + (core s c).postReady.length + (slotNCount s c slot + 1) ≤ 64)
    (own : OwnStores s c slot n (slotNCount s c slot + 1)) :
    ∃ t, exec (.somaUpdate c slot) s = .next t ∧
      (∀ j < slotNCount s c slot + 1, readRec t c (slotNBase s c slot + j) = neuronAfter s c slot n j) ∧
      (core t c).fire = (core s c).fire ++ (List.range (slotNCount s c slot + 1)).filterMap (neuronFire s c slot n) ∧
      slotStep t c slot = n % 2 ^ 64 ∧ rest <+: (core t c).soCmd ∧ ((core s c).sqOut = [] → (core t c).soCmd = rest) ∧
      tget 0 slot (core t c).soma = n + 1 ∧
      ((core s c).seCmd.contains (slot, n) = false →
        (∀ j < slotNCount s c slot + 1, neuronMoves s c slot n j = true → rdNum t (coreBase c + neuronOff s c slot n j) 4 = 0) ∧
        (core t c).corr = (core s c).corr) ∧
      ((core s c).seCmd.contains (slot, n) = true → engUp s c 1 = true → tget 0 slot (core t c).corr = n + 1) := by
  obtain ⟨v, f, updated, run⟩ := somaRun_all own clean (not_halted_of_engUp up) fires posts (slotNCount s c slot + 1) (f := 0)
    (Nat.zero_add _) (updatedTo_zero s c slot n _)
  have done := slotDone_updateDone f (updated.step.noUpsets clean) hc hs (slot := slot) (n := n)
  have exec_ := exec_somaUpdate bound clean head up fresh
  rw [run] at exec_
  have soCmd : (core v c).soCmd.tail = rest := by rw [updated.step.queues, head]; rfl
  have sqOut : (core v c).sqOut = (core s c).sqOut := by rw [updated.step.queues]
  have seCmd : (core v c).seCmd = (core s c).seCmd := by rw [updated.step.queues]
  have corr : (core v c).corr = (core s c).corr := by rw [updated.step.queues]
  refine ⟨_, exec_, fun j hj => ?_, ?_, done.step, soCmd ▸ done.behind, fun none => ?_, done.soma,
    fun none => ⟨fun j hj moves => ?_, ?_⟩, fun some_ upE => ?_⟩
  · have inside := recAddr_inside c v (slotNBase s c slot + j)
    rw [readRec_of_bytesKept done.fmt (.of_memKept done.mem (.inl (by omega))), ← updated.done j hj, neuronRec, updated.step.slotNBase]
  · rw [done.fire, updated.fire]
  · rw [done.alone (sqOut.trans none), soCmd]
  · have inside := neuronOff_inside s c slot n j
    obtain ⟨kept, -⟩ := done.uncorrected (by rw [seCmd]; exact none)
    rw [(BytesKept.of_memKept kept (.inl (by unfold slotBase; omega))).rdNum, updated.zero j hj moves]
  · exact (done.uncorrected (by rw [seCmd]; exact none)).2.trans corr
  · exact done.corrected (by rw [seCmd]; exact some_) ((updated.step.engUp hc 1).trans upE)

end

/-- Settles O29: the commands of the SE and of the SO, each clause from its own lemma. -/
theorem synapticOperationsAndSomaUpdate : Obligations.SynapticOperationsAndSomaUpdate := by
  refine ⟨fun s c bound _ clean up => ⟨fun g rest head ahead => ⟨?_, ?_, ?_⟩, fun o rest oldest => ⟨?_, ?_, ?_⟩⟩,
    fun s c slot n rest bound hc hs clean head up fresh => ⟨?_, ?_⟩⟩
  · exact operationGroup_places bound clean up head ahead
  · exact operationGroup_waits bound clean up head ahead
  · exact operationGroup_stalls bound up head ahead
  · exact lateWaitRelease_places bound clean up oldest
  · exact lateWaitRelease_late bound up oldest
  · exact lateWaitRelease_forbidden bound up oldest
  · exact somaUpdate_stalls bound clean head up fresh
  · exact somaUpdate_all bound clean head up fresh hc hs

end Sys2Proof.Machine
end

section
/-! PROOFS. Events at delivery: what a core accepts, refuses and acknowledges (R75, R138, R160, R161, R194). -/

namespace Sys2Proof.Machine

/-! ### What a record of a fault leaves (R101) -/

@[simp] theorem core_coreFault (c kind engine store off : Nat) (s : State) (d : Nat) :
    core (coreFault c kind engine store off s) d = core s d := (coreFault_regsOnly ..).same (core · d) fun _ => rfl
@[simp] theorem eng_coreFault (c kind engine store off : Nat) (s : State) (d e : Nat) :
    eng (coreFault c kind engine store off s) d e = eng s d e := (coreFault_regsOnly ..).same (eng · d e) fun _ => rfl
@[simp] theorem coreFault_mem (c kind engine store off : Nat) (s : State) : (coreFault c kind engine store off s).mem = s.mem :=
  (coreFault_regsOnly ..).same (·.mem) fun _ => rfl
@[simp] theorem coreFault_fab (c kind engine store off : Nat) (s : State) : (coreFault c kind engine store off s).fab = s.fab :=
  (coreFault_regsOnly ..).same (·.fab) fun _ => rfl
@[simp] theorem coreFault_faultsUp (c kind engine store off : Nat) (s : State) :
    (coreFault c kind engine store off s).faultsUp = s.faultsUp := (coreFault_regsOnly ..).same (·.faultsUp) fun _ => rfl

/-- A count of the core that saturates counts one, and the fault that goes with it leaves the count. -/
theorem getF_coreFault_incSat {c : Nat} {f : FieldRef} (above : Reg.core_FAULT_INFO c + 4 ≤ f.addr) {kind : Nat} (hk : kind < 32)
    (engine store off : Nat) (s : State) :
    getF (coreFault c kind engine store off (incSat f s)) f = min (getF s f + 1) (2 ^ f.width - 1) := by
  have small : min (getF s f + 1) (2 ^ f.width - 1) < 2 ^ f.width := by
    have := Nat.two_pow_pos f.width
    omega
  rw [getF_coreFault above hk, incSat_def, getF_putF_same, Nat.mod_eq_of_lt small]

theorem core_setCore (c d : Nat) (k : Core) (s : State) : core (setCore c k s) d = if d = c then k else core s d := by
  simp only [core, setCore_cores, tget_tset]

/-! ### A core that runs -/

section
variable {s : State} {c e : Nat}

theorem coreUp_of_engUp (up : engUp s c e = true) : coreUp s c = true := by
  simp only [engUp, Bool.and_eq_true] at up
  exact up.1

theorem coreClocked_of_coreUp (up : coreUp s c = true) : coreClocked s c = true := by
  simp only [coreUp, Bool.and_eq_true] at up
  exact up.2

theorem coreSilent_of_coreUp (up : coreUp s c = true) : coreSilent s c = false := by
  simp only [coreUp, Bool.and_eq_true, Bool.not_eq_true'] at up
  obtain ⟨⟨⟨⟨here, free⟩, -⟩, powered⟩, -⟩ := up
  simp [coreSilent, here, free, powered]

theorem engUp_of_intakeReady (ready : intakeReady s c = true) : engUp s c 0 = true := by
  simp only [intakeReady, Bool.and_eq_true] at ready
  exact ready.1.1.1

theorem intakeReady_of_intakeOpen (opened : intakeOpen s c = true) : intakeReady s c = true := by
  simp only [intakeOpen, Bool.and_eq_true] at opened
  exact opened.1

end

/-! ### Arrivals (R160) -/

theorem takeArrivalBy_meets {f : Arrival → Bool} {l rest : List Arrival} {a : Arrival} (h : takeArrivalBy f l = some (a, rest)) :
    f a = true := by
  induction l generalizing rest with
  | nil => simp [takeArrivalBy] at h
  | cons b r ih =>
    rw [takeArrivalBy] at h
    split at h
    next meets =>
      obtain ⟨rfl, -⟩ := Prod.mk.inj (Option.some.inj h)
      exact meets
    next =>
      split at h
      next a' r' later =>
        obtain ⟨rfl, -⟩ := Prod.mk.inj (Option.some.inj h)
        exact ih later
      next => simp at h

theorem eventReason_le {s : State} {c r : Nat} {a : Arrival} (h : eventReason s c a = some r) : r ≤ 3 := by
  simp only [eventReason, slotReason] at h
  grind

/-- An acknowledgement changes the fabric and nothing else (R192, R194). -/
theorem ackIfDue_eq (src dst : Nat) (s : State) : ackIfDue src dst s = { s with fab := (ackIfDue src dst s).fab } := by
  simp only [ackIfDue, ackIfNew]
  split
  · split <;> rfl
  · rfl

theorem entryAck_eq (ep f : Nat) (p : Packet) (s : State) : entryAck ep f p s = { s with fab := (entryAck ep f p s).fab } := by
  simp only [entryAck]
  split <;> rfl

theorem judged_eq (ep : Nat) (a : Arrival) (s : State) : judged ep a s = { s with fab := (judged ep a s).fab } := by
  unfold judged
  split
  · exact entryAck_eq _ _ _ s
  · exact ackIfDue_eq _ _ s

@[simp] theorem judged_mem (ep : Nat) (a : Arrival) (s : State) : (judged ep a s).mem = s.mem := by rw [judged_eq]
@[simp] theorem judged_csr (ep : Nat) (a : Arrival) (s : State) : (judged ep a s).csr = s.csr := by rw [judged_eq]
@[simp] theorem core_judged (ep : Nat) (a : Arrival) (s : State) (c : Nat) : core (judged ep a s) c = core s c := by
  rw [core, judged_eq, core]

/-! ### Refusals (R161, R194) -/

/-- The header of a refused event: the bits of R161, in fields that lie apart. -/
theorem refusalHeader_event {p : Packet} (ev : p.ty = .event) {s : State} {c r : Nat} (hc : c < 1024) (hr : r ≤ 3) :
    refusalHeader s c p r < 2 ^ 64 ∧ refusalHeader s c p r / 16 % 16 = r := by
  have epoch : roleEpoch s c < 2 ^ 4 := getF_lt s _
  simp only [refusalHeader, ev, show (PktType.event == PktType.qsend) = false from rfl, bnat, Bool.false_eq_true, if_false]
  omega

/-- Refusing an event changes the fabric and nothing else: a REFUSE packet with the reason goes to the sender. -/
theorem refuseItem_spec {c r : Nat} (hc : c < 1024) (hr : r ≤ 3) {a : Arrival} (ev : a.pkt.ty = .event) (s : State) :
    refuseItem c a r s = { s with fab := (refuseItem c a r s).fab } ∧
    ∃ q ∈ (refuseItem c a r s).fab.waiting, q.ty = .refuse ∧ q.src = 4 * c ∧ q.dst = a.pkt.src ∧
      q.data / 2 ^ 64 = a.pkt.data % 2 ^ 64 ∧ q.data / 16 % 16 = r := by
  obtain ⟨small, reason⟩ := refusalHeader_event ev (s := s) hc hr
  refine ⟨rfl, _, List.mem_append_right _ (List.mem_singleton.mpr rfl), rfl, rfl, rfl, ?_, ?_⟩
  · show (refusalHeader s c a.pkt r + a.pkt.data % 2 ^ 64 * 2 ^ 64) / 2 ^ 64 = _
    omega
  · show (refusalHeader s c a.pkt r + a.pkt.data % 2 ^ 64 * 2 ^ 64) / 16 % 16 = r
    omega

/-- The note of a refusal changes registers and the IE's happenings, and nothing else (R75, R133). -/
theorem noteRefused_eq (c r : Nat) (w : Word64) (s : State) :
    noteRefused c r w s = { s with csr := (noteRefused c r w s).csr, engs := (noteRefused c r w s).engs } := by
  unfold noteRefused
  split
  · rfl
  · simp only [modEng_def, incSat_def, setEng]
    rw [coreFault_regsOnly, putF_eq]

@[simp] theorem noteRefused_mem (c r : Nat) (w : Word64) (s : State) : (noteRefused c r w s).mem = s.mem := by rw [noteRefused_eq]
@[simp] theorem noteRefused_fab (c r : Nat) (w : Word64) (s : State) : (noteRefused c r w s).fab = s.fab := by rw [noteRefused_eq]
@[simp] theorem core_noteRefused (c r : Nat) (w : Word64) (s : State) (d : Nat) : core (noteRefused c r w s) d = core s d := by
  rw [core, noteRefused_eq, core]

theorem getF_noteRefused {s : State} {c : Nat} (speaks : coreSilent s c = false) (r : Nat) (w : Word64) :
    getF (noteRefused c r w s) (Reg.core_REFUSED_COUNT_COUNT c) =
      min (getF s (Reg.core_REFUSED_COUNT_COUNT c) + 1) (2 ^ (Reg.core_REFUSED_COUNT_COUNT c).width - 1) := by
  rw [noteRefused, speaks, if_neg Bool.false_ne_true, modEng_def, getF_setEng]
  exact getF_coreFault_incSat (by simp only [Reg.core_FAULT_INFO, Reg.core_REFUSED_COUNT_COUNT]; omega) (by decide) _ _ _ s

/-! ### The command -/

section
variable {s : State} {c : Nat} {a : Arrival} {rest : List Arrival} (bound : s.rsvDirty = false)
  (oldest : takeArrivalBy (fun a => a.pkt.ty == .event) (core s c).arrivals = some (a, rest))
include bound oldest

/-- An event that its checks pass enters the ingress queue (R75, R160). -/
theorem eventDelivery_accepts (passes : eventReason s c a = none) (room : (core s c).ingress.length < 32)
    (clocked : coreClocked s c = true) :
    ∃ t, exec (.eventDelivery c) s = .next t ∧ (core t c).arrivals = rest ∧ t.mem = s.mem ∧ t.csr = s.csr ∧
      (core t c).ingress = (core s c).ingress ++ [⟨BitVec.ofNat 64 a.pkt.data, a.pkt.step⟩] := by
  refine ⟨sicSettle (deliverEvent c s), live_next bound _, ?_⟩
  simp [deliverEvent, oldest, passes, room, clocked]

/-- One that a check fails is refused to its sender, with the check's reason (R160, R194). -/
theorem eventDelivery_refuses (hc : c < 1024) {r : Nat} (fails : eventReason s c a = some r) :
    ∃ t, exec (.eventDelivery c) s = .next t ∧ (core t c).arrivals = rest ∧ (core t c).ingress = (core s c).ingress ∧ t.mem = s.mem ∧
      ∃ q ∈ t.fab.waiting, q.ty = .refuse ∧ q.src = 4 * c ∧ q.dst = a.pkt.src ∧ q.data / 2 ^ 64 = a.pkt.data % 2 ^ 64 ∧
        q.data / 16 % 16 = r := by
  have ev : a.pkt.ty = .event := eq_of_beq (takeArrivalBy_meets oldest)
  obtain ⟨only, packet⟩ := refuseItem_spec hc (eventReason_le fails) ev (setCore c { core s c with arrivals := rest } s)
  have run : deliverEvent c s = noteRefused c r (BitVec.ofNat 64 a.pkt.data)
      (refuseItem c a r (setCore c { core s c with arrivals := rest } s)) := by
    simp only [deliverEvent, oldest, fails, modCore_def]
  have queues : core (deliverEvent c s) c = { core s c with arrivals := rest } := by
    rw [run, core_noteRefused, core, only]
    exact core_setCore_same _ _ _
  refine ⟨sicSettle (deliverEvent c s), live_next bound _, ?_, ?_, ?_, ?_⟩
  · rw [core_sicSettle, queues]
  · rw [core_sicSettle, queues]
  · rw [sicSettle_mem, run, noteRefused_mem, only, setCore_mem]
  · rw [sicSettle_fab, run, noteRefused_fab]
    exact packet

end

end Sys2Proof.Machine
end

section
/-! PROOFS. What the boundary of an innings leaves as it is (R268, R269). -/

namespace Sys2Proof.Machine

/-- `t` is `s` but for what the boundary of an innings may change: registers, the free values, and the queues and notes of cores,
though not the wickets that are released to them. -/
structure BoundaryStep (s t : State) : Prop where
  rest : t = { s with csr := t.csr, cores := t.cores, free := t.free }
  released : ∀ d, (core t d).released = (core s d).released

namespace BoundaryStep

variable {s t u : State}

theorem refl (s : State) : BoundaryStep s s := ⟨rfl, fun _ => rfl⟩

theorem trans (h : BoundaryStep s t) (k : BoundaryStep t u) : BoundaryStep s u :=
  ⟨by rw [k.rest, h.rest], fun d => (k.released d).trans (h.released d)⟩

theorem setCore {c : Nat} {k : Core} (same : k.released = (core s c).released) : BoundaryStep s (setCore c k s) := by
  refine ⟨rfl, fun d => ?_⟩
  rw [core_setCore]
  split
  next here => rw [here, same]
  next => rfl

theorem putF (f : FieldRef) (v : Nat) (s : State) : BoundaryStep s (putF f v s) := ⟨by rw [putF_eq], fun d => by rw [core_putF]⟩

end BoundaryStep

/-- The events that a boundary waits for are noted at the core, and nothing else (R269). -/
theorem dueNote_spec (c : Nat) (s : State) : BoundaryStep s (dueNote c s) ∧ (dueNote c s).csr = s.csr :=
  List.foldlRecOn _ _ (motive := fun t : State => BoundaryStep s t ∧ t.csr = s.csr) ⟨.refl s, rfl⟩ fun t ht i _ => by
    split
    · exact ⟨ht.1.trans (.setCore rfl), ht.2⟩
    · exact ⟨ht.1.trans (.setCore rfl), ht.2⟩

/-- A sequence that starts shows in LRN_STATUS, and in no other register (R268). -/
theorem boundaryStart_spec (c : Nat) (s : State) : BoundaryStep s (boundaryStart c s) ∧
    ∀ f, BitsApart ⟨Reg.pe_LRN_STATUS c, 0, 32⟩ f → getF (boundaryStart c s) f = getF s f := by
  obtain ⟨noted, same⟩ := dueNote_spec c s
  unfold boundaryStart
  split
  case isFalse => exact ⟨.refl s, fun _ _ => rfl⟩
  extract_lets t
  split
  · refine ⟨noted.trans (.trans (.setCore ?_) (.trans (.putF _ _ _) (.putF _ _ _))), fun f apart => ?_⟩
    · rfl
    simp only [setF_def, modCore_def]
    rw [getF_putF_bits, getF_putF_bits, getF_setCore, getF_congr same]
    all_goals
      simp only [BitsApart, Reg.pe_LRN_STATUS, Reg.pe_LRN_STATUS_SET, Reg.pe_LRN_STATUS_APPLYING] at apart ⊢
      omega
  · exact ⟨noted, fun f _ => getF_congr same f⟩

/-- A sequence that ends shows in registers of the PE (R269, R277). -/
theorem getF_boundaryEnd {c : Nat} {f : FieldRef} (below : 8 * f.addr + f.lo + f.width ≤ 8 * Reg.pe_LRN_STATUS c) (s : State) :
    getF (boundaryEnd c s) f = getF s f := by
  have pe {g : FieldRef} (h : Reg.pe_LRN_STATUS c ≤ g.addr) : BitsApart g f := .inr (by omega)
  unfold boundaryEnd
  split
  · rfl
  split
  case isFalse => rfl
  have spent (u : State) : getF (spendFree u) f = getF u f := getF_congr (s := spendFree u) (t := u) rfl f
  simp only [clrF_def, incWrap_def, modCore_def]
  rw [(boundaryStart_spec c _).2 f (pe (Nat.le_refl _)), spent, getF_putF_bits (pe ?_), getF_putF_bits (pe ?_),
    getF_putF_bits (pe (Nat.le_refl _)), getF_setCore]
  all_goals simp only [Reg.pe_LRN_STATUS, Reg.pe_LRN_LAST_CYCLES_CYCLES, Reg.pe_INNINGS_DONE_COUNT]; omega

end Sys2Proof.Machine
end

section
/-! PROOFS. An event of KIND 11 as an exception of the IE (R138, R140, R142). -/

namespace Sys2Proof.Machine

@[simp] theorem noteStepEnds_csr (c : Nat) (s : State) : (noteStepEnds c s).csr = s.csr := by rw [(noteStepEnds_only c s).1]

theorem coreFaultUp_csr (c kind engine store off fmKind : Nat) (s : State) :
    (coreFaultUp c kind engine store off fmKind s).csr = (coreFault c kind engine store off s).csr := rfl

/-- The end of a handler of the IE leaves every register below those of the PE. -/
theorem getF_endHandler_ie {c : Nat} {f : FieldRef} (below : 8 * f.addr + f.lo + f.width ≤ 8 * Reg.pe_LRN_STATUS c) (s : State) :
    getF (endHandler c 0 s) f = getF s f := by
  unfold endHandler
  split
  · rfl
  next h _ =>
    have omits (u : State) : omittedAct c 0 h u = u := if_pos (by simp)
    rw [omits, getF_congr (noteStepEnds_csr c _), getF_boundaryEnd below, modEng_def,
      getF_setEng]

/-- The code of an exception that finds EXC_CAUSE free stands there (R142). -/
theorem getF_badKind {s : State} {c : Nat} (runs : (eng s c 0).st ≠ .halted) (free : isSet s (Reg.eng_EXC_CAUSE_VALID c 0) = false)
    (w : Word64) : getF (badKind c w s) (Reg.eng_EXC_CAUSE_CODE c 0) = 14 := by
  have fault (kind engine store off : Nat) (small : kind < 32) (u : State) :
      getF (coreFault c kind engine store off u) (Reg.eng_EXC_CAUSE_CODE c 0) = getF u (Reg.eng_EXC_CAUSE_CODE c 0) :=
    getF_coreFault (by simp only [Reg.core_FAULT_INFO, Reg.eng_EXC_CAUSE_CODE]; omega) small _ _ _ u
  have recorded (pc : Nat) (b : Bool) (v : Word) : getF (recordExc c 0 14 pc b v s) (Reg.eng_EXC_CAUSE_CODE c 0) = 14 := by
    rw [recordExc, free, if_neg Bool.false_ne_true, getF_wrWord, getF_wrWord, getF_putF_same]
    · rfl
    all_goals simp only [BitsApart, Reg.eng_EXC_CAUSE_CODE, Reg.eng_EXC_PC, Reg.eng_EXC_VALUE]; omega
  rw [badKind, raiseExc, if_neg runs]
  extract_lets s1 inExc s2
  have ended : getF s2 (Reg.eng_EXC_CAUSE_CODE c 0) = 14 := by
    rw [getF_endHandler_ie (by simp only [Reg.eng_EXC_CAUSE_CODE, Reg.pe_LRN_STATUS]; omega), fault _ _ _ _ (by decide), recorded]
  split
  · rw [getF_congr (coreFaultUp_csr ..), fault _ _ _ _ (by decide), haltEng, modEng_def, getF_setEng, ended]
  · rw [startHandler, getF_putF_bits, getF_putF_bits, getF_setReg, getF_setReg, getF_setReg, modEng_def, getF_setEng, ended]
    all_goals simp only [BitsApart, Reg.eng_EXC_CAUSE_CODE, Reg.eng_CUR_SLOT_SLOT, Reg.eng_CUR_STEP_STEP]; omega

end Sys2Proof.Machine
end

section
/-! PROOFS. The IE: the events that it takes from the ingress queue and from the hold queue (R75-R79, R138, R269). -/

namespace Sys2Proof.Machine

/-! ### What one event does (R75) -/

/-- The core after the IE has taken the event at the head of the ingress queue: the boundary of an innings counts it (R269). -/
def ingressTaken (rest : List InEvent) (k : Core) : Core :=
  { k with ingress := rest, applyIn := k.applyIn - 1, dueIn := k.dueIn.map (fun p => (p.1, p.2 - 1)) }

section
variable {s : State} {c slot : Nat} {ev : InEvent}

theorem intake_badKind (kind : evKind ev.word = 3) : intake c ev s = some (badKind c ev.word s) := by
  rw [intake, if_pos kind]

theorem intake_of_no_slot (kind : evKind ev.word ≠ 3) (none_ : findSlot s c (evCtx ev.word) = none) :
    intake c ev s = some (noteRefused c 1 ev.word s) := by
  rw [intake, if_neg kind, none_]

theorem intake_paused (kind : evKind ev.word ≠ 3) (at_ : findSlot s c (evCtx ev.word) = some slot)
    (paused : slotState s c slot = stPaused) (room : (core s c).hold.length < 32) :
    intake c ev s = some (setCore c { core s c with hold := (core s c).hold ++ [ev] } s) := by
  simp only [intake, if_neg kind, at_, paused, if_pos room, modCore_def]
  rfl

theorem intake_at_work (kind : evKind ev.word ≠ 3) (at_ : findSlot s c (evCtx ev.word) = some slot)
    (works : atWork (slotState s c slot) = true) : intake c ev s = processEvent c slot ev s := by
  simp only [intake, if_neg kind, at_, works, if_true]

theorem processEvent_control (kind : evKind ev.word = 2) (room : (core s c).ctrl.length < 8) :
    processEvent c slot ev s = some (setCore c { core s c with ctrl := (core s c).ctrl ++ [ev] } s) := by
  rw [processEvent, if_pos kind, if_pos room, modCore_def]

section
variable (kind : evKind ev.word < 2) (room : (core s c).pre.length + (core s c).preReady.length < 32)
include kind room

/-- A spike or graded event is processed where the presynaptic queue has room. -/
theorem processEvent_spike : processEvent c slot ev s = processSpike c slot ev s ∧
    (learnOn s c && decide (32 ≤ (core s c).pre.length + (core s c).preReady.length)) = false :=
  ⟨if_neg (by omega), by simp [room]⟩

theorem processEvent_miss (none_ : findProj s c (evAxon ev.word) = none) :
    processEvent c slot ev s = some (coreFault c 5 0 7 0 (incSat (Reg.core_AXON_MISS_COUNT_COUNT c) s)) := by
  obtain ⟨spike, free⟩ := processEvent_spike (slot := slot) kind room
  simp only [spike, processSpike, free, none_, Bool.false_eq_true, if_false]

variable {p : Nat} (found : findProj s c (evAxon ev.word) = some p)
include found

theorem processEvent_fanout (type_ : winBits s c (projOff p) 32 2 = 2) :
    processEvent c slot ev s = some (pushPre c slot ev (startFanout c slot p ev s)) := by
  obtain ⟨spike, free⟩ := processEvent_spike (slot := slot) kind room
  simp only [spike, processSpike, free, found, type_, Bool.false_eq_true, if_false, if_true]

theorem processEvent_kernel (type_ : winBits s c (projOff p) 32 2 = 1) :
    processEvent c slot ev s = some (pushPre c slot ev (placeGroups c (kernelGroups s c slot p ev) s)) := by
  obtain ⟨spike, free⟩ := processEvent_spike (slot := slot) kind room
  have other : ¬winBits s c (projOff p) 32 2 = 2 := by omega
  simp only [spike, processSpike, free, found, if_neg other, Bool.false_eq_true, if_false]

end

end

/-! ### The commands -/

section
variable {s u : State} {c : Nat} {ev : InEvent} {rest : List InEvent}

/-- The IE takes the oldest event of the ingress queue; what the event does stands, and the queue is shorter by it (R75). -/
theorem intakeEvent_takes (bound : s.rsvDirty = false) (clean : NoUpsets s) (head : (core s c).ingress = ev :: rest)
    (opened : intakeOpen s c = true) (passable : boundaryShut s c = false) (hold : (core s c).hold.length < 32)
    (ctrl : (core s c).ctrl.length < 8) (does : intake c ev s = some u) :
    ∃ t, exec (.intakeEvent c) s = .next t ∧ core t c = ingressTaken rest (core u c) ∧ t.mem = u.mem ∧ t.fab = u.fab ∧
      ∀ f, getF t f = getF u f := by
  refine ⟨sicSettle (setCore c (ingressTaken rest (core u c)) u), ?_, by simp, by simp, by simp, by simp⟩
  show execIntakeEvent c s = _
  simp only [execIntakeEvent, live_next bound, head, opened, passable, hold, ctrl, decide_true, Bool.not_false, Bool.and_self,
    if_true, localWords_of_noUpsets clean, does]
  rfl

/-- The IE takes the oldest held event that may go; then as above (R75). -/
theorem holdQueueRelease_takes (bound : s.rsvDirty = false) (clean : NoUpsets s)
    (oldest : takeHeld s c (core s c).hold = some (ev, rest)) (ready : intakeReady s c = true) (may : heldMay s c ev = true)
    (does : intake c ev (setCore c { core s c with hold := rest } s) = some u) :
    exec (.holdQueueRelease c) s = .next (sicSettle u) := by
  show execHoldQueueRelease c s = _
  simp only [execHoldQueueRelease, live_next bound, oldest, ready, may, Bool.and_self, if_true, localWords_of_noUpsets clean,
    modCore_def, does, Option.getD_some]

end

/-! ### A spike's operations (R73, R76-R79) -/

@[simp] theorem core_badTargets (c n : Nat) (s : State) (d : Nat) : core (badTargets c n s) d = core s d :=
  (badTargets_regsOnly c n s).same (core · d) fun _ => rfl
@[simp] theorem badTargets_mem (c n : Nat) (s : State) : (badTargets c n s).mem = s.mem :=
  (badTargets_regsOnly c n s).same (·.mem) fun _ => rfl
@[simp] theorem badTargets_fab (c n : Nat) (s : State) : (badTargets c n s).fab = s.fab :=
  (badTargets_regsOnly c n s).same (·.fab) fun _ => rfl

theorem targetOk_congr {s t : State} (h : t.mem = s.mem) (c : Nat) : targetOk t c = targetOk s c := by
  funext o
  have base : slotNBase t c o.slot = slotNBase s c o.slot := congrArg (getBits · (slotBase c o.slot) 16 14) h
  have count : slotNCount t c o.slot = slotNCount s c o.slot := congrArg (getBits · (slotBase c o.slot) 30 14) h
  rw [targetOk, base, count, targetOk]

/-- The groups that the IE places: those that a bad target has not emptied (R79). -/
def goodGroups (s : State) (c : Nat) (gs : List (List SynOp)) : List (List SynOp) :=
  (gs.map (fun g => g.filter (targetOk s c))).filter (fun g => !g.isEmpty)

/-- While the operation queue has room all of them join it, and none stays with the IE (R73). -/
theorem placeGroups_all {c : Nat} {gs : List (List SynOp)} {s : State}
    (room : (core s c).ops.length + (goodGroups s c gs).length ≤ 32) :
    core (placeGroups c gs s) c = { core s c with ops := (core s c).ops ++ goodGroups s c gs, forming := [] } := by
  induction gs generalizing s with
  | nil => simp [placeGroups, goodGroups]
  | cons g r ih =>
    simp only [placeGroups]
    generalize bads : g.countP (fun o => !targetOk s c o) = bad
    generalize goods : g.filter (targetOk s c) = good
    have later {t : State} (same : t.mem = s.mem) : goodGroups t c r = goodGroups s c r := by
      simp only [goodGroups, targetOk_congr same]
    by_cases empty : good.isEmpty = true
    · have skip : goodGroups s c (g :: r) = goodGroups s c r := by
        simp only [goodGroups, List.map_cons, goods]
        exact List.filter_cons_of_neg (by simpa using empty)
      rw [skip] at room ⊢
      rw [if_pos empty, ih (by rwa [core_badTargets, later (badTargets_mem c bad s)]), core_badTargets, later (badTargets_mem c bad s)]
    · have take : goodGroups s c (g :: r) = good :: goodGroups s c r := by
        simp only [goodGroups, List.map_cons, goods]
        exact List.filter_cons_of_pos (by simpa using empty)
      rw [take, List.length_cons] at room
      have same : (badTargets c bad (setCore c { core s c with ops := (core s c).ops ++ [good] } s)).mem = s.mem := by simp
      rw [if_neg empty, if_pos (by omega), modCore_def, ih, core_badTargets, core_setCore_same, later same, take]
      · simp
      · rw [core_badTargets, core_setCore_same, later same]
        simp only [List.length_append, List.length_singleton]
        omega

/-- Where it is full, the first group with a good target stays with the IE, and all behind it (R73). -/
theorem placeGroups_full {c : Nat} {g : List SynOp} {gs : List (List SynOp)} {s : State} (good : g.any (targetOk s c) = true)
    (full : 32 ≤ (core s c).ops.length) : placeGroups c (g :: gs) s = setCore c { core s c with forming := g :: gs } s := by
  have some_ : ¬(g.filter (targetOk s c)).isEmpty = true := by
    simpa [List.isEmpty_iff, List.filter_eq_nil_iff] using good
  rw [placeGroups, if_neg some_, if_neg (Nat.not_lt.mpr full), modCore_def]

/-- The PE's record of an event changes its queue and nothing else (R84). -/
theorem pushPre_spec (c slot : Nat) (ev : InEvent) (s : State) :
    core (pushPre c slot ev s) c = { core s c with pre := (core (pushPre c slot ev s) c).pre } ∧
    (pushPre c slot ev s).mem = s.mem ∧ (pushPre c slot ev s).fab = s.fab := by
  unfold pushPre
  split <;> simp

/-- A fan-out read waits at the core's router stop; the fan-out knows it by its number (R78, R174). -/
theorem fanoutRead_spec (c : Nat) (f : Fanout) (n : Nat) (s : State) :
    core (fanoutRead c f n s) c = { core s c with fanout := some { f with tag := s.fab.tag, ans := none } } ∧
    (fanoutRead c f n s).mem = s.mem ∧ slicePacket s c 0 f.off (.read n) ∈ (fanoutRead c f n s).fab.waiting := by
  refine ⟨?_, rfl, List.mem_append_right _ (List.mem_singleton.mpr rfl)⟩
  exact core_setCore_same c { core s c with fanout := some { f with tag := s.fab.tag, ans := none } } s

end Sys2Proof.Machine
end

section
/-! PROOFS. Events from arrival to the operations of a core (R75, R76, R78, R79, R90, R138, R160, R194). -/

namespace Sys2Proof.Machine

/-! ### INTAKE_EVENT (R75-R79, R138) -/

/-- A fan-out that awaits the index entry of its axon (R90). -/
def fanoutBegun (s : State) (c slot p : Nat) (ev : InEvent) : Fanout where
  ev := ev
  slot := slot
  s4 := winBits s c (projOff p) 82 1 == 1
  wsh := winBits s c (projOff p) 83 4
  off := winBits s c (projOff p) 64 18 * 256 + (evAxon ev.word - winBits s c (projOff p) 0 16) * 8
  left := none
  base := winBits s c (projOff p) 64 18 * 256

/-- The read of that entry begins it (R78). -/
theorem startFanout_spec (c slot p : Nat) (ev : InEvent) (s : State) :
    let off := winBits s c (projOff p) 64 18 * 256 + (evAxon ev.word - winBits s c (projOff p) 0 16) * 8
    let t := startFanout c slot p ev s
    core t c = { core s c with fanout := (core t c).fanout } ∧
    (core t c).fanout.map (fun f => (f.ev, f.slot, f.off, f.left, f.ans)) = some (ev, slot, off, none, none) ∧
    t.mem = s.mem ∧ slicePacket s c 0 off (.read 8) ∈ t.fab.waiting := by
  intro off t
  obtain ⟨queues, mem, packet⟩ := fanoutRead_spec c (fanoutBegun s c slot p ev) 8 s
  have fanout : core t c = _ := queues
  rw [fanout]
  exact ⟨rfl, rfl, mem, packet⟩

section
variable {s : State} {c : Nat} {ev : InEvent} {rest : List InEvent} (bound : s.rsvDirty = false) (clean : NoUpsets s)
  (head : (core s c).ingress = ev :: rest) (opened : intakeOpen s c = true) (passable : boundaryShut s c = false)
  (hold : (core s c).hold.length < 32) (ctrl : (core s c).ctrl.length < 8)
include bound clean head opened passable hold ctrl

theorem intakeEvent_badKind (kind : evKind ev.word = 3) (free : isSet s (Reg.eng_EXC_CAUSE_VALID c 0) = false) :
    ∃ t, exec (.intakeEvent c) s = .next t ∧ (core t c).ingress = rest ∧ getF t (Reg.eng_EXC_CAUSE_CODE c 0) = 14 := by
  have runs : (eng s c 0).st ≠ .halted := not_halted_of_engUp (engUp_of_intakeReady (intakeReady_of_intakeOpen opened))
  obtain ⟨t, run, queues, -, -, regs⟩ := intakeEvent_takes bound clean head opened passable hold ctrl (intake_badKind kind)
  exact ⟨t, run, by rw [queues]; rfl, by rw [regs, getF_badKind runs free]⟩

variable (kind : evKind ev.word ≠ 3)
include kind

theorem intakeEvent_discards (none_ : findSlot s c (evCtx ev.word) = none) :
    ∃ t, exec (.intakeEvent c) s = .next t ∧ ((core t c).ingress = rest ∧ t.mem = s.mem) ∧ (core t c).ops = (core s c).ops ∧
      getF t (Reg.core_REFUSED_COUNT_COUNT c) =
        min (getF s (Reg.core_REFUSED_COUNT_COUNT c) + 1) (2 ^ (Reg.core_REFUSED_COUNT_COUNT c).width - 1) := by
  have speaks := coreSilent_of_coreUp (coreUp_of_engUp (engUp_of_intakeReady (intakeReady_of_intakeOpen opened)))
  obtain ⟨t, run, queues, mem, -, regs⟩ :=
    intakeEvent_takes bound clean head opened passable hold ctrl (intake_of_no_slot kind none_)
  rw [core_noteRefused] at queues
  exact ⟨t, run, ⟨by rw [queues]; rfl, by rw [mem, noteRefused_mem]⟩, by rw [queues]; rfl, by rw [regs, getF_noteRefused speaks]⟩

variable {slot : Nat} (at_ : findSlot s c (evCtx ev.word) = some slot)
include at_

theorem intakeEvent_holds (paused : slotState s c slot = stPaused) :
    ∃ t, exec (.intakeEvent c) s = .next t ∧ ((core t c).ingress = rest ∧ t.mem = s.mem) ∧
      (core t c).hold = (core s c).hold ++ [ev] := by
  obtain ⟨t, run, queues, mem, -, -⟩ :=
    intakeEvent_takes bound clean head opened passable hold ctrl (intake_paused kind at_ paused hold)
  rw [core_setCore_same] at queues
  exact ⟨t, run, ⟨by rw [queues]; rfl, mem⟩, by rw [queues]; rfl⟩

variable (works : atWork (slotState s c slot) = true)
include works

theorem intakeEvent_control (control : evKind ev.word = 2) :
    ∃ t, exec (.intakeEvent c) s = .next t ∧ ((core t c).ingress = rest ∧ t.mem = s.mem) ∧
      (core t c).ctrl = (core s c).ctrl ++ [ev] := by
  obtain ⟨t, run, queues, mem, -, -⟩ := intakeEvent_takes bound clean head opened passable hold ctrl
    ((intake_at_work kind at_ works).trans (processEvent_control control ctrl))
  rw [core_setCore_same] at queues
  exact ⟨t, run, ⟨by rw [queues]; rfl, mem⟩, by rw [queues]; rfl⟩

variable (spike : evKind ev.word < 2) (room : (core s c).pre.length + (core s c).preReady.length < 32)
include spike room

theorem intakeEvent_misses (none_ : findProj s c (evAxon ev.word) = none) :
    ∃ t, exec (.intakeEvent c) s = .next t ∧ ((core t c).ingress = rest ∧ t.mem = s.mem) ∧ (core t c).ops = (core s c).ops ∧
      getF t (Reg.core_AXON_MISS_COUNT_COUNT c) =
        min (getF s (Reg.core_AXON_MISS_COUNT_COUNT c) + 1) (2 ^ (Reg.core_AXON_MISS_COUNT_COUNT c).width - 1) := by
  obtain ⟨t, run, queues, mem, -, regs⟩ := intakeEvent_takes bound clean head opened passable hold ctrl
    ((intake_at_work kind at_ works).trans (processEvent_miss spike room none_))
  rw [core_coreFault, incSat_def, core_putF] at queues
  refine ⟨t, run, ⟨by rw [queues]; rfl, by simp [mem]⟩, by rw [queues]; rfl, ?_⟩
  rw [regs]
  exact getF_coreFault_incSat (by simp only [Reg.core_FAULT_INFO, Reg.core_AXON_MISS_COUNT_COUNT]; omega) (by decide) _ _ _ s

variable {p : Nat} (found : findProj s c (evAxon ev.word) = some p)
include found

theorem intakeEvent_fansOut (type_ : winBits s c (projOff p) 32 2 = 2) :
    ∃ t, exec (.intakeEvent c) s = .next t ∧ ((core t c).ingress = rest ∧ t.mem = s.mem) ∧ (core t c).ops = (core s c).ops ∧
      let off := winBits s c (projOff p) 64 18 * 256 + (evAxon ev.word - winBits s c (projOff p) 0 16) * 8
      (core t c).fanout.map (fun f => (f.ev, f.slot, f.off, f.left, f.ans)) = some (ev, slot, off, none, none) ∧
      slicePacket s c 0 off (.read 8) ∈ t.fab.waiting := by
  obtain ⟨started, begun, memStarted, packet⟩ := startFanout_spec c slot p ev s
  obtain ⟨noted, memNoted, fabNoted⟩ := pushPre_spec c slot ev (startFanout c slot p ev s)
  obtain ⟨t, run, queues, mem, fab, -⟩ := intakeEvent_takes bound clean head opened passable hold ctrl
    ((intake_at_work kind at_ works).trans (processEvent_fanout spike room found type_))
  rw [noted] at queues
  refine ⟨t, run, ⟨by rw [queues]; rfl, by rw [mem, memNoted, memStarted]⟩, ?_, ?_, by rwa [fab, fabNoted]⟩
  · rw [queues, started]
    rfl
  · rw [queues]
    exact begun

theorem intakeEvent_forms (type_ : winBits s c (projOff p) 32 2 = 1)
    (credit : (core s c).ops.length + (goodGroups s c (kernelGroups s c slot p ev)).length ≤ 32) :
    ∃ t, exec (.intakeEvent c) s = .next t ∧ ((core t c).ingress = rest ∧ t.mem = s.mem) ∧
      (core t c).ops = (core s c).ops ++ goodGroups s c (kernelGroups s c slot p ev) ∧ (core t c).forming = [] := by
  obtain ⟨memPlaced, -, -⟩ := placeGroups_spec c (kernelGroups s c slot p ev) s
  obtain ⟨noted, memNoted, -⟩ := pushPre_spec c slot ev (placeGroups c (kernelGroups s c slot p ev) s)
  obtain ⟨t, run, queues, mem, -, -⟩ := intakeEvent_takes bound clean head opened passable hold ctrl
    ((intake_at_work kind at_ works).trans (processEvent_kernel spike room found type_))
  rw [noted, placeGroups_all credit] at queues
  exact ⟨t, run, ⟨by rw [queues]; rfl, by rw [mem, memNoted, memPlaced]⟩, by rw [queues]; rfl, by rw [queues]; rfl⟩

theorem intakeEvent_keepsForming (type_ : winBits s c (projOff p) 32 2 = 1) {g : List SynOp} {gs : List (List SynOp)}
    (groups : kernelGroups s c slot p ev = g :: gs) (good : g.any (targetOk s c) = true) (full : 32 ≤ (core s c).ops.length) :
    ∃ t, exec (.intakeEvent c) s = .next t ∧ ((core t c).ingress = rest ∧ t.mem = s.mem) ∧ (core t c).ops = (core s c).ops ∧
      (core t c).forming = g :: gs := by
  have does := (intake_at_work kind at_ works).trans (processEvent_kernel spike room found type_)
  rw [groups, placeGroups_full good full] at does
  obtain ⟨noted, memNoted, -⟩ := pushPre_spec c slot ev (setCore c { core s c with forming := g :: gs } s)
  obtain ⟨t, run, queues, mem, -, -⟩ := intakeEvent_takes bound clean head opened passable hold ctrl does
  rw [noted, core_setCore_same] at queues
  exact ⟨t, run, ⟨by rw [queues]; rfl, by rw [mem, memNoted, setCore_mem]⟩, by rw [queues]; rfl, by rw [queues]; rfl⟩

end

/-! ### HOLD_QUEUE_RELEASE (R75) -/

section
variable {s : State} {c : Nat} {ev : InEvent} {rest : List InEvent} (bound : s.rsvDirty = false) (clean : NoUpsets s)
  (oldest : takeHeld s c (core s c).hold = some (ev, rest)) (ready : intakeReady s c = true) (may : heldMay s c ev = true)
  (kind : evKind ev.word ≠ 3)
include bound clean oldest ready may kind

theorem holdQueueRelease_discards (none_ : findSlot s c (evCtx ev.word) = none) :
    ∃ t, exec (.holdQueueRelease c) s = .next t ∧ (core t c).hold = rest ∧ (core t c).ops = (core s c).ops ∧ t.mem = s.mem := by
  have does : intake c ev (setCore c { core s c with hold := rest } s) = _ := intake_of_no_slot kind none_
  exact ⟨_, holdQueueRelease_takes bound clean oldest ready may does, by simp, by simp, by simp⟩

theorem holdQueueRelease_control {slot : Nat} (at_ : findSlot s c (evCtx ev.word) = some slot)
    (works : atWork (slotState s c slot) = true) (control : evKind ev.word = 2) (room : (core s c).ctrl.length < 8) :
    ∃ t, exec (.holdQueueRelease c) s = .next t ∧ (core t c).hold = rest ∧ (core t c).ctrl = (core s c).ctrl ++ [ev] ∧
      t.mem = s.mem := by
  have taken : intake c ev (setCore c { core s c with hold := rest } s) = _ := intake_at_work kind at_ works
  have does := taken.trans (processEvent_control control (by rwa [core_setCore_same]))
  exact ⟨_, holdQueueRelease_takes bound clean oldest ready may does, by simp, by simp, by simp⟩

end

/-! ### FANOUT_READ_RESPONSE (R78, R79, R90) -/

section
variable {s : State} {c : Nat}

/-- A fan-out that goes on reads its next entry; the last ends it. -/
theorem fanoutOn_spec (f : Fanout) (off n : Nat) (s : State) :
    let t := fanoutOn c f off n s
    t.mem = s.mem ∧ (core t c).ops = (core s c).ops ∧
    if n = 0 then (core t c).fanout = none
    else (core t c).fanout = some { f with off := off, left := some n, tag := s.fab.tag, ans := none } ∧
      slicePacket s c 0 off (.read 4) ∈ t.fab.waiting := by
  intro t
  by_cases last : n = 0
  · have ends : t = setCore c { core s c with fanout := none } s := if_pos last
    simp [ends, last]
  · obtain ⟨queues, mem, packet⟩ := fanoutRead_spec c { f with off := off, left := some n } 4 s
    have reads : t = fanoutRead c { f with off := off, left := some n } 4 s := if_neg last
    rw [if_neg last, reads, queues]
    exact ⟨mem, rfl, rfl, packet⟩

/-- An operation of the fan-out joins the operation queue, unless its target is bad (R79). -/
theorem pushFanoutOp_spec (o : SynOp) (s : State) :
    let t := pushFanoutOp c o s
    t.mem = s.mem ∧ t.fab = s.fab ∧ t.variant = s.variant ∧
    (core t c).ops = (core s c).ops ++ (if targetOk s c o then [[o]] else []) := by
  intro t
  by_cases good : targetOk s c o = true
  · have joins : t = setCore c { core s c with ops := (core s c).ops ++ [[o]] } s := if_pos good
    simp [joins, good]
  · have counts : t = badTargets c 1 s := if_neg good
    have variant : t.variant = s.variant := by rw [counts, badTargets_regsOnly]
    simp [counts ▸ variant, counts, good]

/-- A read that ends in a bus error ends the fan-out, and is counted (R78). -/
theorem fanoutError_spec (s : State) :
    let t := fanoutError c s
    t.mem = s.mem ∧ (core t c).fanout = none ∧ (core t c).ops = (core s c).ops ∧
    getF t (Reg.core_SLICE_ERR_COUNT_COUNT c) =
      min (getF s (Reg.core_SLICE_ERR_COUNT_COUNT c) + 1) (2 ^ (Reg.core_SLICE_ERR_COUNT_COUNT c).width - 1) := by
  refine ⟨by simp [fanoutError], by simp [fanoutError], by simp [fanoutError], ?_⟩
  rw [fanoutError, getF_coreFault_incSat _ (by decide), modCore_def, getF_setCore]
  simp only [Reg.core_FAULT_INFO, Reg.core_SLICE_ERR_COUNT_COUNT]
  omega

theorem exec_fanoutReadResponse {f : Fanout} {a : Option Nat} (bound : s.rsvDirty = false) (reads : (core s c).fanout = some f)
    (answered : f.ans = some a) (up : engUp s c 0 = true) (room : (core s c).ops.length < 32) :
    exec (.fanoutReadResponse c) s = .next (sicSettle (fanoutAnswer c f a s)) := by
  show execFanoutReadResponse c s = _
  simp only [execFanoutReadResponse, live_next bound, reads, answered, up, room, decide_true, Bool.and_self, if_true]

/-- The answer to a fan-out read: the event ends with a bus error, its table's entries are read, or one of them is an operation. -/
theorem fanoutReadResponse_takes {f : Fanout} {a : Option Nat} (bound : s.rsvDirty = false) (reads : (core s c).fanout = some f)
    (answered : f.ans = some a) (up : engUp s c 0 = true) (room : (core s c).ops.length < 32) :
    let read := fun (t : State) (off left : Nat) =>
      (core t c).fanout = some { f with off := off, left := some left, tag := s.fab.tag, ans := none } ∧
        slicePacket s c 0 off (.read 4) ∈ t.fab.waiting
    ∃ t, exec (.fanoutReadResponse c) s = .next t ∧ t.mem = s.mem ∧
      (a = none → (core t c).fanout = none ∧ (core t c).ops = (core s c).ops ∧
        getF t (Reg.core_SLICE_ERR_COUNT_COUNT c) =
          min (getF s (Reg.core_SLICE_ERR_COUNT_COUNT c) + 1) (2 ^ (Reg.core_SLICE_ERR_COUNT_COUNT c).width - 1)) ∧
      (∀ v, a = some v → f.left = none → (core t c).ops = (core s c).ops ∧
        (if bitsN v 32 16 = 0 then (core t c).fanout = none else read t (f.base + bitsN v 0 32 * 4) (bitsN v 32 16))) ∧
      (∀ v n, a = some v → f.left = some (n + 1) →
        let o := fanoutOp s c f v
        (core t c).ops = (core s c).ops ++ (if targetOk s c o then [[o]] else []) ∧
        (if n = 0 then (core t c).fanout = none else read t (f.off + 4) n)) := by
  refine ⟨_, exec_fanoutReadResponse bound reads answered up room, ?_⟩
  simp only [sicSettle_mem, sicSettle_fab, core_sicSettle, getF_sicSettle]
  cases a with
  | none =>
    obtain ⟨mem, ended, ops, count⟩ := fanoutError_spec (c := c) s
    exact ⟨mem, fun _ => ⟨ended, ops, count⟩, nofun, nofun⟩
  | some v =>
    cases left : f.left with
    | none =>
      have does : fanoutAnswer c f (some v) s = fanoutOn c f (f.base + bitsN v 0 32 * 4) (bitsN v 32 16) s := by
        simp only [fanoutAnswer, left]
      obtain ⟨mem, ops, next⟩ := fanoutOn_spec (c := c) f (f.base + bitsN v 0 32 * 4) (bitsN v 32 16) s
      rw [does]
      refine ⟨mem, nofun, fun w same _ => ?_, nofun⟩
      obtain rfl := Option.some.inj same
      exact ⟨ops, next⟩
    | some m =>
      have does : fanoutAnswer c f (some v) s = fanoutOn c f (f.off + 4) (m - 1) (pushFanoutOp c (fanoutOp s c f v) s) := by
        simp only [fanoutAnswer, left]
      obtain ⟨memPushed, fab, variant, opsPushed⟩ := pushFanoutOp_spec (c := c) (fanoutOp s c f v) s
      obtain ⟨mem, ops, next⟩ := fanoutOn_spec (c := c) f (f.off + 4) (m - 1) (pushFanoutOp c (fanoutOp s c f v) s)
      rw [does]
      refine ⟨mem.trans memPushed, nofun, nofun, fun w n same here => ?_⟩
      obtain rfl := Option.some.inj same
      obtain rfl := Option.some.inj here
      simp only [slicePacket, fab, variant] at next
      exact ⟨ops.trans opsPushed, next⟩

end

/-- Settles O28: the commands that bring an event to its operations, each clause from its own lemma. -/
theorem eventPath : Obligations.EventPath := by
  refine fun s c bound hc clean => ⟨fun a rest oldest => ⟨?_, fun r => ?_⟩, fun ev rest head opened passable hold ctrl =>
    ⟨?_, ?_, fun k kind at_ => ⟨?_, fun works => ⟨?_, fun spike room => ⟨?_, fun p found => ⟨?_, fun type_ => ⟨?_, fun g gs => ?_⟩⟩⟩⟩⟩⟩,
    fun ev rest oldest ready may kind => ⟨?_, fun k => ?_⟩, fun f a reads answered up room => ?_⟩
  · exact eventDelivery_accepts bound oldest
  · exact eventDelivery_refuses bound oldest hc
  · exact intakeEvent_badKind bound clean head opened passable hold ctrl
  · exact intakeEvent_discards bound clean head opened passable hold ctrl
  · exact intakeEvent_holds bound clean head opened passable hold ctrl kind at_
  · exact intakeEvent_control bound clean head opened passable hold ctrl kind at_ works
  · exact intakeEvent_misses bound clean head opened passable hold ctrl kind at_ works spike room
  · exact intakeEvent_fansOut bound clean head opened passable hold ctrl kind at_ works spike room found
  · exact intakeEvent_forms bound clean head opened passable hold ctrl kind at_ works spike room found type_
  · exact intakeEvent_keepsForming bound clean head opened passable hold ctrl kind at_ works spike room found type_
  · exact holdQueueRelease_discards bound clean oldest ready may kind
  · exact holdQueueRelease_control bound clean oldest ready may kind
  · exact fanoutReadResponse_takes bound reads answered up room

end Sys2Proof.Machine
end

section
/-! PROOFS. What the egress, admission control and the descriptors leave of the cores and of the wickets (R317, R370, R371, R374). -/

namespace Sys2Proof.Machine

/-- The cores, and of each context the wickets released and the run-ahead credits. -/
def wicketView (s : State) : Tab Core × (Nat → Nat × Nat) :=
  (s.cores, fun ctx => ((ctxRun s ctx).released, (ctxRun s ctx).credits))

section
variable {s t : State}

theorem wicketView_of_eq (cores : t.cores = s.cores) (ctxs : t.ctxs = s.ctxs) : wicketView t = wicketView s := by
  simp only [wicketView, ctxRun, cores, ctxs]

theorem core_of_wicketView (h : wicketView t = wicketView s) (c : Nat) : core t c = core s c := by
  have cores : t.cores = s.cores := congrArg Prod.fst h
  rw [core, cores, core]

theorem runs_of_wicketView (h : wicketView t = wicketView s) (ctx : Nat) :
    (ctxRun t ctx).released = (ctxRun s ctx).released ∧ (ctxRun t ctx).credits = (ctxRun s ctx).credits :=
  Prod.mk.inj (congrFun (congrArg Prod.snd h) ctx)

theorem wicketView_foldl {α : Type} {g : State → α → State} {l : List α} (h : ∀ x t, wicketView (g t x) = wicketView t) (s : State) :
    wicketView (l.foldl g s) = wicketView s :=
  List.foldlRecOn l g (motive := fun t => wicketView t = wicketView s) rfl fun t ht x _ => (h x t).trans ht

theorem wicketView_ite {p : Prop} [Decidable p] {a b : State} (ha : wicketView a = wicketView s) (hb : wicketView b = wicketView s) :
    wicketView (if p then a else b) = wicketView s := by
  split
  · exact ha
  · exact hb

end

@[simp] theorem wicketView_putF (f : FieldRef) (v : Nat) (s : State) : wicketView (putF f v s) = wicketView s :=
  wicketView_of_eq (putF_cores ..) (putF_ctxs ..)
@[simp] theorem wicketView_setMem (m : Memory) (s : State) : wicketView (setMem m s) = wicketView s := rfl
@[simp] theorem wicketView_clearEcc (w : Nat) (s : State) : wicketView (clearEcc w s) = wicketView s := rfl
@[simp] theorem wicketView_raiseUp (level origin kind unit detail : Nat) (s : State) :
    wicketView (raiseUp level origin kind unit detail s) = wicketView s := rfl
@[simp] theorem wicketView_addUpset (w n : Nat) (s : State) : wicketView (addUpset w n s) = wicketView s := wicketView_ite rfl rfl

/-! ### Slices and main memory (R412, R418, R424) -/

theorem wicketView_sliceDeny (b off : Nat) (p : Party) (write : Bool) (s : State) :
    wicketView (sliceDeny b off p write s) = wicketView s := by
  simp only [sliceDeny]
  split <;> simp

theorem wicketView_sliceApply (a : Nat) (op : SliceOp) (s : State) : wicketView (sliceApply a op s) = wicketView s := by
  cases op <;> rfl

theorem wicketView_fixWords (b : Nat) (ws : List Nat) (s : State) : wicketView (fixWords b ws s) = wicketView s :=
  wicketView_foldl (fun w t => wicketView_ite (by simp [sliceCorr]) rfl) s

theorem wicketView_forgetWords (ws : List Nat) (s : State) : wicketView (forgetWords ws s) = wicketView s :=
  wicketView_foldl (fun w t => wicketView_clearEcc w t) s

theorem wicketView_sliceDo (p : Party) (off : Nat) (op : SliceOp) (upset : Nat) (s : State) :
    wicketView (sliceDo p off op upset s).st = wicketView s := by
  unfold sliceDo
  extract_lets b lo a wr s1 ws s2 s3
  split_ifs
  · rfl
  · rfl
  · rfl
  · simp
  · exact wicketView_sliceDeny _ _ _ _ s
  · simp
  split
  · simp [sliceUncorr, s1]
  · have fixed : wicketView s2 = wicketView s := (wicketView_fixWords _ _ _).trans (wicketView_addUpset _ _ s)
    have forgotten : wicketView s3 = wicketView s2 := by
      simp only [s3]
      split
      · exact wicketView_forgetWords _ _
      · rfl
    exact (wicketView_sliceApply _ _ _).trans (forgotten.trans fixed)

theorem wicketView_mainUncorr (ch a : Nat) (s : State) : wicketView (mainUncorr ch a s) = wicketView s := by
  simp only [mainUncorr]
  split <;> simp

theorem wicketView_mainPut (a : Nat) (bs : List Byte) (s : State) : wicketView (mainPut a bs s) = wicketView s :=
  (wicketView_foldl (fun w t => wicketView_clearEcc w t) _).trans rfl

theorem wicketView_channelAcc (ch a : Nat) (op : MemOp) (upset : Nat) (s : State) :
    wicketView (channelAcc ch a op upset s).st = wicketView s := by
  unfold channelAcc
  extract_lets ecc s1
  have begun : wicketView s1 = wicketView s := wicketView_ite (wicketView_addUpset _ _ s) rfl
  split
  · exact (wicketView_mainUncorr _ _ _).trans begun
  rename_i s2 old _ _
  have corrected : wicketView s2 = wicketView s := (wicketView_foldl (fun w t => wicketView_ite (by simp) rfl) s1).trans begun
  split
  · exact (wicketView_mainPut _ _ _).trans corrected
  · exact (wicketView_mainPut _ _ _).trans corrected
  · exact (wicketView_mainPut _ _ _).trans corrected
  · exact corrected

theorem wicketView_mainWrite (a : Nat) (bs : List Byte) (s : State) : wicketView (mainWrite a bs s).1 = wicketView s := by
  have part (acc : State × Bool) (q : Nat × Nat) (off : Nat) : wicketView (mainWritePart bs acc q off).1 = wicketView acc.1 := by
    simp only [mainWritePart]
    split
    · split
      · rfl
      · exact wicketView_channelAcc _ _ _ _ _
    · rfl
  unfold mainWrite
  split
  · exact List.foldlRecOn (mainParts a bs.length) (fun acc q => mainWritePart bs acc q (q.1 - a)) (b := (s, true))
      (motive := fun acc => wicketView acc.1 = wicketView s) rfl fun acc hacc q _ => (part acc q _).trans hacc
  · rfl

theorem wicketView_mainRead (a n : Nat) (s : State) : wicketView (mainRead a n s).st = wicketView s := by
  unfold mainRead
  split
  · rfl
  refine List.foldlRecOn (mainParts a n) _ (motive := fun acc : MainAns => wicketView acc.st = wicketView s) rfl fun acc hacc q _ => ?_
  split
  · exact (wicketView_channelAcc _ _ _ _ _).trans hacc
  · exact hacc

/-! ### Descriptors (R317, R318) -/

/-- `descWrite` as a function: unfolded at its arguments, the kernel would evaluate the write to compare it with itself. -/
theorem descWrite_def : descWrite = fun ctx bs s =>
    let t := (sliceDo .ctt (descOff s ctx) (.write bs) 0 s).st
    (mainWrite (mirrorAt t ctx) bs t).1 := rfl

theorem wicketView_descWrite (ctx : Nat) (bs : List Byte) (s : State) : wicketView (descWrite ctx bs s) = wicketView s := by
  rw [descWrite_def]
  exact (wicketView_mainWrite _ _ _).trans (wicketView_sliceDo _ _ _ _ s)

theorem wicketView_descMeet (ctx : Nat) (s : State) : wicketView (descMeet ctx s) = wicketView s := by
  simp only [descMeet]
  split
  · rw [wicketView_sliceDo]
  · rw [wicketView_mainRead, wicketView_sliceDo]

theorem wicketView_dPut (ctx lo w v : Nat) (s : State) : wicketView (dPut ctx lo w v s) = wicketView s :=
  (wicketView_descWrite _ _ _).trans (wicketView_descMeet _ s)

theorem wicketView_putSlots (ctx v : Nat) (s : State) : wicketView (putSlots ctx v s) = wicketView s := by
  unfold putSlots
  exact wicketView_foldl (fun p t => by simp [setSlotState]) s

theorem wicketView_tailUpdate (s : State) : wicketView (tailUpdate s) = wicketView s := by
  simp only [tailUpdate]
  split
  · rfl
  · simp

/-! ### Refusal rings and sessions (R216, R361, R375, R551) -/

theorem wicketView_ringPut (base size : Nat) (prod cons : FieldRef) (rec : Nat) {lost : State → State}
    (h : ∀ t, wicketView (lost t) = wicketView t) (s : State) : wicketView (ringPut base size prod cons rec lost s) = wicketView s := by
  unfold ringPut
  refine wicketView_ite ?_ (h s)
  refine (wicketView_ite (s := (mainWrite _ _ s).1) ?_ (h _)).trans (wicketView_mainWrite _ _ s)
  simp

theorem wicketView_aetRingWrite (hdr word : Word64) (s : State) : wicketView (aetRingWrite hdr word s) = wicketView s :=
  wicketView_ite rfl (wicketView_ringPut _ _ _ _ _ (fun t => by simp [aetEvent]) s)

theorem wicketView_admRingWrite (hdr word : Nat) (s : State) : wicketView (admRingWrite hdr word s) = wicketView s :=
  wicketView_ite rfl (wicketView_ringPut _ _ _ _ _ (fun t => by simp) s)

theorem wicketView_aetSend (o : AetOut) (s : State) : wicketView (aetSend o s) = wicketView s :=
  wicketView_ite ((wicketView_putF _ _ _).trans rfl) rfl

theorem wicketView_sessPump (p n : Nat) (s : State) : wicketView (sessPump p n s) = wicketView s := by
  induction n generalizing s with
  | zero => rfl
  | succ n ih =>
    rw [sessPump]
    split
    · rfl
    · exact wicketView_ite ((ih _).trans (wicketView_aetSend _ s)) rfl

theorem wicketView_sessSend (p : Nat) (b : AetBody) (s : State) : wicketView (sessSend p b s) = wicketView s :=
  (wicketView_sessPump _ _ _).trans rfl

theorem wicketView_aetReturn (reason coreReason : Nat) (o : AetOrg) (word : Word64) (s : State) :
    wicketView (aetReturn reason coreReason o word s) = wicketView s :=
  wicketView_ite (wicketView_aetRingWrite _ _ s) (wicketView_ite (wicketView_sessSend _ _ s) rfl)

/-! ### Admission control (R205, R214-R216, R317, R374) -/

theorem wicketView_admRefuse (reason source coreReason ctx step : Nat) (word : Word64) (org : Option AetOrg) (s : State) :
    wicketView (admRefuse reason source coreReason ctx step word org s) = wicketView s := by
  unfold admRefuse
  extract_lets t
  have refused : wicketView t = wicketView s := by
    refine (wicketView_admRingWrite _ _ _).trans ((wicketView_ite (by simp) rfl).trans ((wicketView_ite (by simp) rfl).trans ?_))
    simp only [setF_def, incWrap_def, wicketView_putF]
    exact (wicketView_ite (by simp) rfl).trans (wicketView_dPut _ _ _ _ s)
  split
  · exact (wicketView_aetReturn _ _ _ _ _).trans refused
  · exact refused

theorem wicketView_dropHold (ctx : Nat) (s : State) : wicketView (dropHold ctx s) = wicketView s :=
  (wicketView_foldl (fun _ t => wicketView_admRefuse _ _ _ _ _ _ _ t) _).trans rfl

theorem wicketView_descCheck (ctx : Nat) (s : State) : wicketView (descCheck ctx s) = wicketView s := by
  refine wicketView_ite ?_ rfl
  refine (wicketView_tailUpdate _).trans ((wicketView_dropHold _ _).trans ((wicketView_putSlots _ _ _).trans
    ((wicketView_descWrite _ _ _).trans ?_)))
  rw [flagF_def, wicketView_putF]
  rfl

/-- The close of a step to ingress leaves the wickets of its context. -/
theorem wicketView_closeMark (ctx step : Nat) (s : State) : wicketView (closeMark ctx step s) = wicketView s := by
  refine wicketView_ite ?_ rfl
  unfold closeStep
  extract_lets r due recs t
  have noted : wicketView t = wicketView s := wicketView_ite rfl rfl
  refine wicketView_ite rfl (Eq.trans ?_ noted)
  refine Prod.ext rfl (funext fun d => ?_)
  simp only [wicketView, ctxRun, modCtx, tget_tset]
  split
  next same => rw [same]
  next => rfl

theorem wicketView_freeEntry (p inc : Nat) (s : State) : wicketView (freeEntry p inc s) = wicketView s := wicketView_ite rfl rfl

theorem wicketView_settleMarks (s : State) : wicketView (settleMarks s) = wicketView s := by
  have take (n : Nat) (t : State) : wicketView (takeMarks n t) = wicketView t := by
    induction n generalizing t with
    | zero => rfl
    | succ n ih =>
      rw [takeMarks]
      split
      · exact (ih _).trans ((wicketView_closeMark _ _ _).trans rfl)
      · exact (ih _).trans (wicketView_freeEntry _ _ _)
      · rfl
  exact take _ s

/-! ### Windows (R370, R371) -/

theorem wicketView_homeEvent (chip expert wicket : Nat) (w : Word64) (s : State) :
    wicketView (homeEvent chip expert wicket w s) = wicketView s :=
  wicketView_ite rfl ((wicketView_admRefuse _ _ _ _ _ _ _ _).trans (wicketView_descCheck _ s))

theorem wicketView_sendWindow (e choice score w : Nat) (evs : List Word64) (s : State) :
    wicketView (sendWindow e choice score w evs s) = wicketView s := by
  unfold sendWindow
  extract_lets kept vols chip t segs
  have counted : wicketView t = wicketView s := wicketView_putF _ _ s
  refine wicketView_ite ?_ (wicketView_ite ?_ ?_)
  · exact (wicketView_foldl (fun x u => wicketView_homeEvent _ _ _ x u) t).trans counted
  · exact (wicketView_foldl (fun g u => wicketView_sessSend _ _ u) t).trans counted
  · exact (wicketView_foldl (fun x u => wicketView_aetRingWrite _ x u) t).trans counted

theorem wicketView_sendStatus (i w : Nat) (first second : Option Nat) (s : State) :
    wicketView (sendStatus i w first second s) = wicketView s := wicketView_ite rfl rfl

theorem wicketView_closeWindow (ctx n i : Nat) (s : State) : wicketView (closeWindow ctx n s i) = wicketView s := by
  unfold closeWindow
  extract_lets w win aet t lo expert
  have begun : wicketView t = wicketView s := (wicketView_ite rfl (by simp [volEvent])).trans rfl
  refine wicketView_ite (by simp [volEvent, begun]) ?_
  split
  · simp only [wicketView_sendStatus, volEvent, flagF_def, incSat_def, wicketView_putF, begun]
  · extract_lets second u v
    have first : wicketView u = wicketView s := (wicketView_sendWindow _ _ _ _ _ t).trans begun
    have both : wicketView v = wicketView s := by
      simp only [v]
      clear_value second
      split
      · exact (wicketView_sendWindow _ _ _ _ _ u).trans first
      · exact first
    exact (wicketView_sendStatus _ _ _ _ _).trans both

/-- The windows that close leave the cores, and the wickets and credits of every context. -/
theorem wicketView_closeWindows (ctx n : Nat) (s : State) : wicketView (closeWindows ctx n s) = wicketView s :=
  wicketView_ite ((wicketView_settleMarks _).trans (wicketView_foldl (fun i t => wicketView_closeWindow ctx n i t) s)) rfl

end Sys2Proof.Machine
end

section
/-! PROOFS. Wickets: their release to the cores of a context, and a core that takes one (R83, R209, R219, R262, R268, R370). -/

namespace Sys2Proof.Machine

/-! ### The release reaches the cores (R209, R268) -/

/-- A core learns that wicket `n` of one of its slots is released. -/
def releaseSlot (n : Nat) (t : State) (p : Nat × Nat) : State :=
  modCore p.1 (fun k => { k with released := tset p.2 (n + 1) k.released }) t

theorem foldl_releaseSlot (n : Nat) (l : List (Nat × Nat)) (s : State) :
    l.foldl (releaseSlot n) s = { s with cores := (l.foldl (releaseSlot n) s).cores } ∧
    ∀ d slot, tget 0 slot (core (l.foldl (releaseSlot n) s) d).released =
      if (d, slot) ∈ l then n + 1 else tget 0 slot (core s d).released := by
  induction l generalizing s with
  | nil => exact ⟨rfl, fun d slot => by simp⟩
  | cons p r ih =>
    obtain ⟨only, told⟩ := ih (releaseSlot n s p)
    have one (d slot : Nat) : tget 0 slot (core (releaseSlot n s p) d).released =
        if (d, slot) = p then n + 1 else tget 0 slot (core s d).released := by
      obtain ⟨c, k⟩ := p
      rw [releaseSlot, modCore_def, core_setCore]
      by_cases here : d = c
      · subst here
        simp [tget_tset]
      · simp [here]
    refine ⟨by rw [List.foldl_cons, only]; rfl, fun d slot => ?_⟩
    rw [List.foldl_cons, told, one]
    by_cases later : (d, slot) ∈ r <;> simp [later]

theorem core_lt_of_mem_slotsOf {s : State} {ctx : Nat} {p : Nat × Nat} (h : p ∈ slotsOf s ctx) : p.1 < 1024 := by
  obtain ⟨cell, -, named⟩ := List.mem_filterMap.mp h
  simp only [Option.ite_none_right_eq_some, Option.some.injEq] at named
  obtain ⟨⟨-, small, -⟩, rfl⟩ := named
  exact small

/-- A release may start boundaries on the cores of its context: they show in the PEs of those cores (R268). -/
theorem boundariesDue_spec (ctx : Nat) (s : State) : BoundaryStep s (boundariesDue ctx s) ∧
    ∀ f, (∀ c < 1024, BitsApart ⟨Reg.pe_LRN_STATUS c, 0, 32⟩ f) → getF (boundariesDue ctx s) f = getF s f := by
  have small : ∀ c ∈ coresOfCtx s ctx, c < 1024 := fun c hc => by
    obtain ⟨p, hp, rfl⟩ := List.mem_map.mp (List.mem_eraseDups.mp hc)
    exact core_lt_of_mem_slotsOf hp
  refine List.foldlRecOn (coresOfCtx s ctx) _ (motive := fun t : State => BoundaryStep s t ∧
    ∀ f, (∀ c < 1024, BitsApart ⟨Reg.pe_LRN_STATUS c, 0, 32⟩ f) → getF t f = getF s f) ⟨.refl s, fun _ _ => rfl⟩ fun t ht c hc => ?_
  obtain ⟨step, regs⟩ := boundaryStart_spec c t
  exact ⟨ht.1.trans step, fun f apart => (regs f (apart c (small c hc))).trans (ht.2 f apart)⟩

theorem releaseTo_spec (ctx n : Nat) (s : State) :
    let t := releaseTo ctx n s
    t.mem = s.mem ∧ ctxRun t ctx = { ctxRun s ctx with released := n + 1 } ∧
    (∀ p ∈ slotsOf s ctx, tget 0 p.2 (core t p.1).released = n + 1) ∧
    blkEnabled t Reg.vol_BLK_CTRL = blkEnabled s Reg.vol_BLK_CTRL := by
  intro t
  obtain ⟨only, told⟩ := foldl_releaseSlot n (slotsOf s ctx) s
  obtain ⟨step, regs⟩ := boundariesDue_spec ctx (modCtx ctx (fun r => { r with released := n + 1 }) ((slotsOf s ctx).foldl (releaseSlot n) s))
  have is : t = boundariesDue ctx (modCtx ctx (fun r => { r with released := n + 1 }) ((slotsOf s ctx).foldl (releaseSlot n) s)) := rfl
  have csr : ((slotsOf s ctx).foldl (releaseSlot n) s).csr = s.csr := by rw [only]
  rw [is]
  refine ⟨?_, ?_, fun p hp => ?_, ?_⟩
  · rw [step.rest]
    exact (congrArg State.mem only :)
  · rw [ctxRun, step.rest, modCtx, tget_tset_same, ctxRun, only, ctxRun]
  · rw [step.released]
    exact (told p.1 p.2).trans (if_pos hp)
  · refine (isSet_of_getF (regs _ fun c hc => ?_)).trans (isSet_congr (s := modCtx ctx _ _) (t := s) csr _)
    simp only [BitsApart, Reg.pe_LRN_STATUS, Reg.vol_BLK_CTRL, enabledRef]
    omega

/-! ### WICKET_RELEASE (R209, R219, R335, R370) -/

/-- Before a release a wicket ahead of the chip wicket spends a credit (R219), and at a checkpoint the cores hold it (R335). -/
def releaseBegun (s : State) (ctx : Nat) : State :=
  let n := (ctxRun s ctx).released
  let t := if dStart s ctx + n ≤ tbWicket s then s else modCtx ctx (fun r => { r with credits := r.credits - 1 }) s
  if ckptDue s ctx n then holdForCkpt ctx t else t

theorem releaseBegun_spec (s : State) (ctx : Nat) :
    releaseBegun s ctx = { s with cores := (releaseBegun s ctx).cores, ctxs := (releaseBegun s ctx).ctxs } ∧
    (ctxRun (releaseBegun s ctx) ctx).credits =
      if dStart s ctx + (ctxRun s ctx).released ≤ tbWicket s then (ctxRun s ctx).credits else (ctxRun s ctx).credits - 1 := by
  have held (t : State) : holdForCkpt ctx t = { t with cores := (holdForCkpt ctx t).cores } :=
    List.foldlRecOn _ _ (motive := fun u : State => u = { t with cores := u.cores }) rfl fun u hu p _ => by
      rw [hu]
      rfl
  have heldRun (t : State) : ctxRun (holdForCkpt ctx t) ctx = ctxRun t ctx := by rw [ctxRun, held, ctxRun]
  unfold releaseBegun
  extract_lets n t
  have spent : t = { s with ctxs := t.ctxs } ∧ (ctxRun t ctx).credits =
      if dStart s ctx + n ≤ tbWicket s then (ctxRun s ctx).credits else (ctxRun s ctx).credits - 1 := by
    unfold t
    split
    · exact ⟨rfl, rfl⟩
    · exact ⟨rfl, by simp only [ctxRun, modCtx, tget_tset_same]⟩
  obtain ⟨only, credits⟩ := spent
  split
  · exact ⟨by rw [held, only], by rw [heldRun, credits]⟩
  · exact ⟨by rw [only], credits⟩

theorem wicketRelease_releases {s : State} {ctx : Nat} (bound : s.rsvDirty = false) (may : mayRelease s ctx = true) :
    let n := (ctxRun s ctx).released
    ∃ t, exec (.wicketRelease ctx) s = .next t ∧ (ctxRun t ctx).released = n + 1 ∧
      (blkEnabled s Reg.vol_BLK_CTRL = false → t.mem = s.mem) ∧
      (∀ p ∈ slotsOf s ctx, tget 0 p.2 (core t p.1).released = n + 1) ∧
      (ctxRun t ctx).credits = (if dStart s ctx + n ≤ tbWicket s then (ctxRun s ctx).credits else (ctxRun s ctx).credits - 1) := by
  intro n
  obtain ⟨begun, credits⟩ := releaseBegun_spec s ctx
  obtain ⟨mem, run, told, enabled⟩ := releaseTo_spec ctx n (releaseBegun s ctx)
  generalize releasedState : releaseTo ctx n (releaseBegun s ctx) = v at mem run told enabled
  have view : wicketView (if n = 0 then v else closeWindows ctx (n - 1) v) = wicketView v :=
    wicketView_ite rfl (wicketView_closeWindows _ _ v)
  obtain ⟨released, kept⟩ := runs_of_wicketView view ctx
  rw [run] at released kept
  refine ⟨sicSettle (if n = 0 then v else closeWindows ctx (n - 1) v), ?_, ?_, fun off => ?_, fun p hp => ?_, ?_⟩
  · show execWicketRelease ctx s = _
    rw [← releasedState, execWicketRelease, if_pos may, live_next bound]
    rfl
  · rw [ctxRun, sicSettle_ctxs]
    exact released
  · have same : (if n = 0 then v else closeWindows ctx (n - 1) v) = v := by
      have still : blkEnabled v Reg.vol_BLK_CTRL = false := by
        rw [enabled, begun]
        exact off
      rw [closeWindows, still, if_neg Bool.false_ne_true, ite_self]
    rw [sicSettle_mem, same, mem, begun]
  · rw [core_sicSettle, core_of_wicketView view]
    refine told p ?_
    rw [begun]
    exact hp
  · rw [ctxRun, sicSettle_ctxs]
    exact kept.trans credits

/-! ### WICKET_TAKEN (R83, R209, R262) -/

/-- `t` is `s` as far as the wickets that core `c` has taken and its engines but the PE go. -/
structure TraceStep (c : Nat) (s t : State) : Prop where
  engs : EngKept c 3 s t
  taken : (core t c).taken = (core s c).taken

namespace TraceStep

variable {c : Nat} {s t u : State}

theorem refl (c : Nat) (s : State) : TraceStep c s s := ⟨fun _ _ => rfl, rfl⟩

theorem trans (h : TraceStep c s t) (k : TraceStep c t u) : TraceStep c s u :=
  ⟨fun e he => (k.engs e he).trans (h.engs e he), k.taken.trans h.taken⟩

theorem of_eq (engs : t.engs = s.engs) (cores : t.cores = s.cores) : TraceStep c s t :=
  ⟨fun e _ => by rw [engs], by rw [core, cores, core]⟩

theorem coreFault (kind engine store off : Nat) (s : State) : TraceStep c s (coreFault c kind engine store off s) := by
  rw [coreFault_regsOnly]
  exact of_eq rfl rfl

theorem storeHalt (w : Nat) (s : State) : TraceStep c s (storeHalt c 3 w s) := by
  have halted : TraceStep c s (haltEng c 3 s) := ⟨engKept_setEng c 3 _ s, rfl⟩
  refine halted.trans ((coreFault 1 3 (storeOf w).1 (w - (storeOf w).2) _).trans ⟨fun _ _ => rfl, ?_⟩)
  simp [Machine.storeHalt, coreFaultUp, raiseUp, core]

/-- Where an access of the PE meets an uncorrectable word, it halts; where not, words are corrected (R97, R98). -/
theorem localWords {body : State → State} (h : ∀ t, TraceStep c t (body t)) (ws : List Nat) (s : State) :
    TraceStep c s (localWords c 3 ws body s) := by
  induction ws generalizing s with
  | nil => exact h s
  | cons w r ih =>
    rw [Machine.localWords]
    split
    · exact storeHalt w s
    · refine trans ?_ (ih _)
      unfold coreEccFix
      split
      · refine trans ?_ (TraceStep.coreFault _ _ _ _ _)
        exact of_eq (putF_engs _ _ _) (putF_cores _ _ _)
      · exact refl c s

theorem unlessHalted {f : State → State} (h : ∀ t, TraceStep c t (f t)) (s : State) : TraceStep c s (unlessHalted c 3 f s) := by
  unfold Machine.unlessHalted
  split
  · exact refl c s
  · exact h s

theorem foldl {α : Type} {f : State → α → State} (h : ∀ t x, TraceStep c t (f t x)) (l : List α) (s : State) :
    TraceStep c s (l.foldl f s) :=
  List.foldlRecOn l f (motive := fun t : State => TraceStep c s t) (refl c s) fun t ht x _ => ht.trans (h t x)

end TraceStep

theorem traceStep_traceDecay (c slot : Nat) (s : State) : TraceStep c s (traceDecay c slot s) := by
  unfold traceDecay
  split
  · exact .refl c s
  next i _ =>
    extract_lets ap ar s1
    have posts : TraceStep c s s1 := by
      refine .foldl (fun t j => .unlessHalted (fun u => .localWords (fun v => ?_) _ u) t) _ s
      exact .of_eq rfl rfl
    refine posts.trans (.foldl (fun t j => ?_) _ s1)
    split
    · refine .unlessHalted (fun u => .localWords (fun v => ?_) _ u) t
      exact .of_eq rfl rfl
    · exact .refl c t

/-- Nothing decays while LEARN_EN is 0 (R260). -/
theorem traceDecay_of_learnOff {s : State} {c : Nat} (off : learnOn s c = false) (slot : Nat) : traceDecay c slot s = s := by
  have disabled : isSet s (Reg.core_CORE_CFG_LEARN_EN c) = false := off
  rw [traceDecay, disabled]
  rfl

theorem wicketTaken_takes {s : State} {c slot : Nat} (bound : s.rsvDirty = false) (may : mayTake s c slot = true)
    (lowest : lowestTaker s c slot = true) :
    let n := tget 0 slot (core s c).taken
    ∃ t, exec (.wicketTaken c slot) s = .next t ∧ tget 0 slot (core t c).taken = n + 1 ∧
      (eng t c 5).happen = (eng s c 5).happen ++ [⟨2, slot, n, BitVec.ofNat 32 slot, 0, 0, 0⟩] ∧
      (learnOn s c = false → t.mem = s.mem ∧ t.csr = s.csr) := by
  intro n
  generalize takes : modEng c 5 (fun g => { g with happen := g.happen ++ [⟨2, slot, n, BitVec.ofNat 32 slot, 0, 0, 0⟩] })
    (modCore c (fun k => { k with taken := tset slot (n + 1) k.taken }) s) = u
  have same : u.mem = s.mem ∧ u.csr = s.csr := by
    rw [← takes]
    exact ⟨rfl, rfl⟩
  obtain ⟨engs, taken⟩ := traceStep_traceDecay c slot u
  refine ⟨sicSettle (traceDecay c slot u), ?_, ?_, ?_, fun off => ?_⟩
  · show execWicketTaken c slot s = _
    rw [← takes, execWicketTaken, may, lowest, live_next bound]
    rfl
  · rw [core_sicSettle, taken, ← takes]
    simp
  · rw [eng_sicSettle, eng, engs _ (by omega), ← takes]
    simp [eng]
  · rw [sicSettle_mem, sicSettle_csr, traceDecay_of_learnOff ((isSet_congr same.2 _).trans off)]
    exact same

end Sys2Proof.Machine
end

section
/-! PROOFS. The EE: the events of a fire record, and the EMITs that it lets go on (R71, R73, R85, R132, R133). -/

namespace Sys2Proof.Machine

/-! ### EMITs that may go on (R132) -/

/-- Engine `e` of core `c` waits in an EMIT. -/
def Stalls (s : State) (c e : Nat) : Prop := ∃ v, (eng s c e).wait = .emit v

/-- `t` is `s` but for what EMITs of core `c` that go on, and STEP_ENDs that are raised, may change: memory, the fire queue and the
happenings stand, and words join the send queue behind those that wait. -/
structure EmitStep (c : Nat) (s t : State) : Prop where
  mem : t.mem = s.mem
  fire : (core t c).fire = (core s c).fire ∧ (core t c).firePos = (core s c).firePos
  send : (core s c).send <+: (core t c).send
  happen : ∀ e, (eng t c e).happen = (eng s c e).happen

namespace EmitStep

variable {c : Nat} {s t u : State}

theorem refl (c : Nat) (s : State) : EmitStep c s s := ⟨rfl, ⟨rfl, rfl⟩, List.prefix_rfl, fun _ => rfl⟩

theorem trans (h : EmitStep c s t) (k : EmitStep c t u) : EmitStep c s u where
  mem := k.mem.trans h.mem
  fire := ⟨k.fire.1.trans h.fire.1, k.fire.2.trans h.fire.2⟩
  send := h.send.trans k.send
  happen e := (k.happen e).trans (h.happen e)

theorem pushSend (it : SendItem) (s : State) : EmitStep c s (pushSend c it s) where
  mem := rfl
  fire := by simp [Machine.pushSend]
  send := by simp [Machine.pushSend]
  happen _ := rfl

theorem resumeEng (e : Nat) (s : State) : EmitStep c s (resumeEng c e s) where
  mem := by simp [Machine.resumeEng, retire]
  fire := by simp [Machine.resumeEng, retire]
  send := by simp [Machine.resumeEng, retire]
  happen e' := by
    simp only [Machine.resumeEng, retire, incWrap_def, modEng_def, eng_putF, eng_setEng]
    split <;> simp_all [eng]

theorem emitWord (e : Nat) (v : Word64) (s : State) : EmitStep c s (emitWord c e v s) := by
  have spent (u : State) : EmitStep c u (spendFree u) := ⟨rfl, ⟨rfl, rfl⟩, List.prefix_rfl, fun _ => rfl⟩
  unfold Machine.emitWord
  split
  next k _ =>
    refine .trans ?_ (.pushSend _ _)
    unfold spendIfNone
    split
    · exact spent s
    · exact refl c s
  next => exact (spent s).trans (.pushSend _ _)

theorem emitStep (e : Nat) (s : State) : EmitStep c s (emitStep c e s) := by
  unfold Machine.emitStep
  split
  next v _ =>
    split
    · exact (EmitStep.emitWord e v s).trans (.resumeEng e _)
    · exact refl c s
  next => exact refl c s

theorem emitResume (s : State) : EmitStep c s (emitResume c s) := by
  unfold Machine.emitResume
  split
  · exact refl c s
  · exact (EmitStep.emitStep 4 s).trans (.emitStep 5 _)

theorem noteStepEnds (s : State) : EmitStep c s (noteStepEnds c s) := by
  obtain ⟨rest, queues⟩ := noteStepEnds_only c s
  have happen (e : Nat) : eng (Machine.noteStepEnds c s) c e = eng s c e := by rw [eng, rest, eng]
  exact ⟨by rw [rest], by rw [queues]; exact ⟨rfl, rfl⟩, by rw [queues], fun e => by rw [happen]⟩

end EmitStep

theorem noteStepEnds_send (c : Nat) (s : State) : (core (noteStepEnds c s) c).send = (core s c).send := by
  rw [(noteStepEnds_only c s).2]

theorem emitStep_of_not_stalls {s : State} {c e : Nat} (h : ¬Stalls s c e) : emitStep c e s = s := by
  unfold emitStep
  split
  next v stalled => exact absurd ⟨v, stalled⟩ h
  next => rfl

/-- Where no EMIT waits none goes on. -/
theorem emitResume_of_not_stalls {s : State} {c : Nat} (ee : ¬Stalls s c 4) (sq : ¬Stalls s c 5) : emitResume c s = s := by
  rw [emitResume, emitStep_of_not_stalls ee, emitStep_of_not_stalls sq, ite_self]

/-- While the EE has a word of its own to send none goes on (R132). -/
theorem emitResume_of_offers {s : State} {c : Nat} (h : datapathOffers s c = true) : emitResume c s = s := by
  rw [emitResume, h, if_pos rfl]

/-! ### FIRE_EMIT (R71, R85, R133) -/

section
variable {s : State} {c : Nat} {f : FireRec} {rest : List FireRec}

/-- The fire record leaves its queue, with a NO_ROUTE happening at the EE (R133). -/
def noRoute (s : State) (c : Nat) (f : FireRec) (rest : List FireRec) : State :=
  modEng c 4 (fun g => { g with happen := g.happen ++
      [⟨9, f.slot, f.step, BitVec.ofNat 32 f.slot, BitVec.ofNat 32 (fireRel s c f), BitVec.ofNat 32 (f.pay + f.kind * 256), 0⟩] })
    (setCore c { core s c with fire := rest, firePos := 0 } s)

theorem fireEmit_unmatched (none_ : emitMatches s c (fireRel s c f) = []) : fireEmit c f rest s = noRoute s c f rest := by
  simp only [fireEmit, none_, List.isEmpty_nil, if_true]
  rfl

/-- The emit entries of the record whose events have still to be sent. -/
def emitLeft (s : State) (c : Nat) (f : FireRec) : List Nat := (emitMatches s c (fireRel s c f)).drop (core s c).firePos

/-- The words that the EE has sent, with their steps. -/
def sendWords (l : List SendItem) : List (Word64 × Nat) := l.map (fun q => (q.word, q.step))

/-- The word of each of the entries that the send queue has room for joins it; the record leaves its queue with its last. -/
theorem fireEmit_matched (some_ : emitMatches s c (fireRel s c f) ≠ []) :
    let t := fireEmit c f rest s
    t.mem = s.mem ∧ t.engs = s.engs ∧
    sendWords (core t c).send =
      sendWords (core s c).send ++ ((emitLeft s c f).take (sendFree s c)).map (fun k => (emitEvent s c k (fireRel s c f) f, f.step)) ∧
    (core t c).fire = (if (emitLeft s c f).length ≤ sendFree s c then rest else (core s c).fire) ∧
    (core t c).firePos = (if (emitLeft s c f).length ≤ sendFree s c then 0 else (core s c).firePos + sendFree s c) := by
  have matched : ¬(emitMatches s c (fireRel s c f)).isEmpty = true := by simpa using some_
  intro t
  have is : t = fireEmit c f rest s := rfl
  simp only [fireEmit, if_neg matched, modCore_def] at is
  rw [is]
  refine ⟨rfl, rfl, ?_, ?_, ?_⟩
  · rw [core_setCore_same]
    simp only [sendWords, List.map_append, List.map_map]
    rfl
  · simp [emitLeft]
  · rw [core_setCore_same]
    show (if decide ((emitLeft s c f).length ≤ sendFree s c) = true then 0
      else (core s c).firePos + ((emitLeft s c f).take (sendFree s c)).length) = _
    by_cases room : (emitLeft s c f).length ≤ sendFree s c
    · simp [room]
    · simp [room, Nat.min_eq_left (Nat.le_of_lt (Nat.not_le.mp room))]

theorem exec_fireEmit (bound : s.rsvDirty = false) (clean : NoUpsets s) (head : (core s c).fire = f :: rest) (up : engUp s c 4 = true) :
    exec (.fireEmit c) s = .next (sicSettle (noteStepEnds c (emitResume c (fireEmit c f rest s)))) := by
  show execFireEmit c s = _
  simp only [execFireEmit, live_next bound, head, up, if_true, localWords_of_noUpsets clean]

variable (bound : s.rsvDirty = false) (clean : NoUpsets s) (head : (core s c).fire = f :: rest) (up : engUp s c 4 = true)
include bound clean head up

theorem fireEmit_noRoute (none_ : emitMatches s c (fireRel s c f) = []) :
    ∃ t, exec (.fireEmit c) s = .next t ∧ (core t c).fire = rest ∧ t.mem = s.mem ∧
      (core s c).send <+: (core t c).send ∧ (¬Stalls s c 4 → ¬Stalls s c 5 → (core t c).send = (core s c).send) ∧
      (eng t c 4).happen = (eng s c 4).happen ++
        [⟨9, f.slot, f.step, BitVec.ofNat 32 f.slot, BitVec.ofNat 32 (fireRel s c f), BitVec.ofNat 32 (f.pay + f.kind * 256), 0⟩] := by
  have run := exec_fireEmit bound clean head up
  rw [fireEmit_unmatched none_] at run
  obtain ⟨mem, fire, send, happen⟩ := (EmitStep.emitResume (noRoute s c f rest)).trans (.noteStepEnds (c := c) _)
  have queues : core (noRoute s c f rest) c = { core s c with fire := rest, firePos := 0 } := by simp [noRoute]
  rw [queues] at fire send
  refine ⟨_, run, ?_, ?_, ?_, fun ee sq => ?_, ?_⟩
  · rw [core_sicSettle, fire.1]
  · rw [sicSettle_mem, mem]
    rfl
  · rwa [core_sicSettle]
  · have still : emitResume c (noRoute s c f rest) = noRoute s c f rest := by
      refine emitResume_of_not_stalls ?_ ?_
      · simpa [Stalls, noRoute] using ee
      · simpa [Stalls, noRoute, eng_setEng] using sq
    rw [core_sicSettle, noteStepEnds_send, still, queues]
  · rw [eng_sicSettle, happen]
    simp [noRoute]

variable (some_ : emitMatches s c (fireRel s c f) ≠ [])
include some_

theorem fireEmit_sendsAll (room : (emitLeft s c f).length ≤ sendFree s c) :
    ∃ t, exec (.fireEmit c) s = .next t ∧ (core t c).fire = rest ∧ (core t c).firePos = 0 ∧ t.mem = s.mem ∧
      sendWords (core s c).send ++ (emitLeft s c f).map (fun k => (emitEvent s c k (fireRel s c f) f, f.step)) <+:
        sendWords (core t c).send ∧
      (¬Stalls s c 4 → ¬Stalls s c 5 → sendWords (core t c).send =
        sendWords (core s c).send ++ (emitLeft s c f).map (fun k => (emitEvent s c k (fireRel s c f) f, f.step))) := by
  obtain ⟨memSent, engs, words, fireSent, pos⟩ := fireEmit_matched (rest := rest) some_
  rw [List.take_of_length_le room] at words
  rw [if_pos room] at fireSent pos
  obtain ⟨mem, fire, send, -⟩ := (EmitStep.emitResume (fireEmit c f rest s)).trans (.noteStepEnds (c := c) _)
  refine ⟨_, exec_fireEmit bound clean head up, ?_, ?_, ?_, ?_, fun ee sq => ?_⟩
  · rw [core_sicSettle, fire.1, fireSent]
  · rw [core_sicSettle, fire.2, pos]
  · rw [sicSettle_mem, mem, memSent]
  · rw [core_sicSettle, ← words]
    exact send.map _
  · have still : emitResume c (fireEmit c f rest s) = fireEmit c f rest s := by
      refine emitResume_of_not_stalls ?_ ?_ <;> rwa [Stalls, eng, engs, ← eng, ← Stalls]
    rw [core_sicSettle, noteStepEnds_send, still, words]

theorem fireEmit_sendsSome (short : sendFree s c < (emitLeft s c f).length) :
    ∃ t, exec (.fireEmit c) s = .next t ∧ (core t c).fire = (core s c).fire ∧
      (core t c).firePos = (core s c).firePos + sendFree s c ∧ t.mem = s.mem ∧
      sendWords (core t c).send = sendWords (core s c).send ++
        ((emitLeft s c f).take (sendFree s c)).map (fun k => (emitEvent s c k (fireRel s c f) f, f.step)) := by
  obtain ⟨memSent, engs, words, fireSent, pos⟩ := fireEmit_matched (rest := rest) some_
  rw [if_neg (Nat.not_le.mpr short)] at fireSent pos
  have waits : emitResume c (fireEmit c f rest s) = fireEmit c f rest s := by
    refine emitResume_of_offers ?_
    have runs := not_halted_of_engUp up
    rw [datapathOffers, fireSent, head, eng, engs, ← eng]
    simpa using runs
  have run := exec_fireEmit bound clean head up
  rw [waits] at run
  obtain ⟨mem, fire, -, -⟩ := EmitStep.noteStepEnds (c := c) (fireEmit c f rest s)
  refine ⟨_, run, ?_, ?_, ?_, ?_⟩
  · rw [core_sicSettle, fire.1, fireSent]
  · rw [core_sicSettle, fire.2, pos]
  · rw [sicSettle_mem, mem, memSent]
  · rw [core_sicSettle, noteStepEnds_send, words]

end

end Sys2Proof.Machine
end

section
/-! PROOFS. Wickets, fire records, the scrubber, the ganders and the stop of a core (R85, R94, R95, R97-R100, R133, R209). -/

namespace Sys2Proof.Machine

/-! ### SCRUB_READ (R97-R99) -/

section
variable {s : State} {c : Nat}

theorem eccAt_addUpset {w : Nat} (clean : eccAt s w = 0) (n : Nat) : eccAt (addUpset w n s) w = min n 2 := by
  have none_ : tget 0 w s.ecc = 0 := by
    simp only [eccAt] at clean
    omega
  unfold addUpset
  split
  next zero => simp [eccAt, none_, zero]
  next => simp [eccAt, none_]

theorem addUpset_eq (w n : Nat) (s : State) : addUpset w n s = { s with ecc := (addUpset w n s).ecc } := by
  unfold addUpset
  split <;> rfl

/-- A fault that the core fault unit cannot contain stops the core's wickets and goes one level up (R95). -/
theorem coreFaultUp_spec (c kind engine store off fmKind : Nat) (s : State) :
    let t := coreFaultUp c kind engine store off fmKind s
    core t c = { core s c with stopped := true } ∧ t.mem = s.mem ∧ t.engs = s.engs ∧ t.faultsUp.length = s.faultsUp.length + 1 := by
  intro t
  have engs : t.engs = s.engs := (coreFault_regsOnly c kind engine store off s).same (·.engs) fun _ => rfl
  refine ⟨?_, coreFault_mem .., engs, ?_⟩
  · have raised (u : State) (a b : Nat) : core (raiseUp 1 0 fmKind a b u) c = core u c := rfl
    simp only [t, coreFaultUp, raised, modCore_def, core_setCore_same, core_coreFault]
  · show ((coreFault c kind engine store off s).faultsUp ++ [_]).length = _
    rw [coreFault_faultsUp, List.length_append, List.length_singleton]

variable (bound : s.rsvDirty = false) (up : coreUp s c = true) (on : isSet s (Reg.core_SCRUB_CTRL_EN c) = true)
  (goes : (core s c).scrubStop = false)
include bound up on goes

theorem exec_scrubRead (upset : Nat) : exec (.scrubRead c upset) s = .next (sicSettle (scrubWord c upset s)) := by
  have awake : (core s c).asleep = false := by
    have clocked := coreClocked_of_coreUp up
    simp only [coreClocked, Bool.and_eq_true, Bool.not_eq_true'] at clocked
    exact clocked.1
  show execScrubRead c upset s = _
  simp only [execScrubRead, live_next bound, up, on, goes, awake, Bool.not_false, Bool.and_self, if_true]

variable (clean : eccAt s (eccWordOf c (scrubOff (core s c).scrub)) = 0)
include clean

theorem scrubRead_clean :
    ∃ t, exec (.scrubRead c 0) s = .next t ∧ (core t c).scrub = ((core s c).scrub + 1) % 47104 ∧ t.csr = s.csr ∧ t.mem = s.mem := by
  have word : scrubWord c 0 s = setCore c { core s c with scrub := ((core s c).scrub + 1) % 47104 } s := by
    simp [scrubWord, addUpset, coreEccFix, clean]
  refine ⟨_, exec_scrubRead bound up on goes 0, ?_⟩
  rw [word]
  simp

theorem scrubRead_corrects :
    ∃ t, exec (.scrubRead c 1) s = .next t ∧ (core t c).scrub = ((core s c).scrub + 1) % 47104 ∧ t.mem = s.mem ∧
      getF t (Reg.core_ECC_CORR_COUNT_COUNT c) =
        min (getF s (Reg.core_ECC_CORR_COUNT_COUNT c) + 1) (2 ^ (Reg.core_ECC_CORR_COUNT_COUNT c).width - 1) := by
  have single := eccAt_addUpset clean 1
  generalize at_ : scrubOff (core s c).scrub = o at single
  generalize upsets : addUpset (eccWordOf c o) 1 s = u at single
  have only : u = { s with ecc := u.ecc } := by
    rw [← upsets]
    exact addUpset_eq _ _ s
  have same : core u c = core s c := by rw [core, only, core]
  have word : scrubWord c 1 s = modCore c (fun k => { k with scrub := (k.scrub + 1) % 47104 })
      (coreFault c 0 7 (storeOf o).1 (o - (storeOf o).2) (incSat (Reg.core_ECC_CORR_COUNT_COUNT c) (clearEcc (eccWordOf c o) u))) := by
    simp only [scrubWord, at_, upsets, single, coreEccFix]
    rfl
  have queues : core (clearEcc (eccWordOf c o) u) c = core s c := same
  refine ⟨_, exec_scrubRead bound up on goes 1, ?_⟩
  rw [word]
  refine ⟨by simp [queues], ?_, ?_⟩
  · rw [sicSettle_mem, modCore_def, setCore_mem, coreFault_mem, incSat_def, putF_mem, only]
    rfl
  · rw [getF_sicSettle, modCore_def, getF_setCore, getF_coreFault_incSat _ (by decide),
      getF_congr (s := clearEcc (eccWordOf c o) u) (t := s) (by rw [only]; rfl)]
    simp only [Reg.core_FAULT_INFO, Reg.core_ECC_CORR_COUNT_COUNT]
    omega

theorem scrubRead_stops :
    ∃ t, exec (.scrubRead c 2) s = .next t ∧ (core t c).scrub = (core s c).scrub ∧ (core t c).scrubStop = true ∧
      (core t c).stopped = true ∧ t.faultsUp.length = s.faultsUp.length + 1 ∧ t.mem = s.mem := by
  have double := eccAt_addUpset clean 2
  generalize at_ : scrubOff (core s c).scrub = o at double
  generalize upsets : addUpset (eccWordOf c o) 2 s = u at double
  have only : u = { s with ecc := u.ecc } := by
    rw [← upsets]
    exact addUpset_eq _ _ s
  have same : core u c = core s c := by rw [core, only, core]
  have word : scrubWord c 2 s = modCore c (fun k => { k with scrubStop := true })
      (coreFaultUp c 1 7 (storeOf o).1 (o - (storeOf o).2) 1 u) := by
    simp only [scrubWord, at_, upsets, double]
    rfl
  obtain ⟨queues, mem, -, up_⟩ := coreFaultUp_spec c 1 7 (storeOf o).1 (o - (storeOf o).2) 1 u
  refine ⟨_, exec_scrubRead bound up on goes 2, ?_⟩
  rw [word, modCore_def, queues, same]
  refine ⟨by simp, by simp, by simp, ?_, ?_⟩
  · rw [sicSettle_faultsUp, setCore_faultsUp, up_, only]
  · rw [sicSettle_mem, setCore_mem, mem, only]

end

/-! ### GANDER_EXPIRY and CORE_STOP_START (R94, R95, R100) -/

theorem ganderExpiry_halts {s : State} {c e : Nat} (bound : s.rsvDirty = false) (he : e < 6) (up : engUp s c e = true)
    (busy : engBusy s c e = true) (limit : getF s (Reg.eng_GANDER_LIMIT_LIMIT c e) ≠ 0) :
    ∃ t, exec (.ganderExpiry c e) s = .next t ∧ (eng t c e).st = .halted ∧ isSet t (Reg.eng_GANDER_EVENTS_EXPIRED c e) = true ∧
      (core t c).stopped = true ∧ t.faultsUp.length = s.faultsUp.length + 1 ∧ t.mem = s.mem := by
  obtain ⟨queues, mem, engs, up_⟩ := coreFaultUp_spec c 4 e 7 0 2 (setF (Reg.eng_GANDER_EVENTS_EXPIRED c e) (haltEng c e s))
  refine ⟨sicSettle (coreFaultUp c 4 e 7 0 2 (setF (Reg.eng_GANDER_EVENTS_EXPIRED c e) (haltEng c e s))), ?_, ?_, ?_, ?_, ?_, ?_⟩
  · show execGanderExpiry c e s = _
    rw [execGanderExpiry, if_pos ⟨he, up, busy, limit⟩, live_next bound]
  · rw [eng_sicSettle, eng, engs, ← eng]
    simp [haltEng]
  · have kept : getF (coreFaultUp c 4 e 7 0 2 (setF (Reg.eng_GANDER_EVENTS_EXPIRED c e) (haltEng c e s))) (Reg.eng_GANDER_EVENTS_EXPIRED c e) =
        getF (setF (Reg.eng_GANDER_EVENTS_EXPIRED c e) (haltEng c e s)) (Reg.eng_GANDER_EVENTS_EXPIRED c e) :=
      (getF_congr (coreFaultUp_csr ..) _).trans
        (getF_coreFault (by simp only [Reg.core_FAULT_INFO, Reg.eng_GANDER_EVENTS_EXPIRED]; omega) (by decide) _ _ _ _)
    rw [isSet_sicSettle, isSet_of_getF kept, setF_def, isSet_putF_one _ _ (by decide : 0 < 1)]
  · rw [core_sicSettle, queues]
  · rw [sicSettle_faultsUp, up_, setF_def, putF_faultsUp]
    rfl
  · rw [sicSettle_mem, mem, setF_def, putF_mem]
    rfl

theorem coreStopStart_ends_intake {s : State} {c : Nat} (bound : s.rsvDirty = false) (up : coreUp s c = true)
    (enabled : blkEnabled s (Reg.core_BLK_CTRL c) = true) (cleared : isSet s (enRef (Reg.core_BLK_CTRL c)) = false)
    (quiet : quiescent s c = true) :
    ∃ t, exec (.coreStopStart c) s = .next t ∧ (core t c).intakeOff = true ∧ t.csr = s.csr ∧ t.mem = s.mem := by
  refine ⟨sicSettle (setCore c { core s c with intakeOff := true } s), ?_, by simp, by simp, by simp⟩
  show execCoreStopStart c s = _
  simp only [execCoreStopStart, live_next bound, up, enabled, cleared, quiet, Bool.not_false, Bool.and_self, if_true, modCore_def]

/-- Settles O30: each command's clause, from its own lemma. -/
theorem coreEvents : Obligations.CoreEvents := by
  refine fun s c bound _ => ⟨fun ctx may => ?_, fun slot may lowest => ?_, fun f rest head up clean => ⟨?_, ?_, ?_⟩,
    fun up on goes clean => ⟨?_, ?_, ?_⟩, fun e he up busy limit => ?_, ?_⟩
  · exact wicketRelease_releases bound may
  · exact wicketTaken_takes bound may lowest
  · exact fireEmit_noRoute bound clean head up
  · exact fireEmit_sendsAll bound clean head up
  · exact fireEmit_sendsSome bound clean head up
  · exact scrubRead_clean bound up on goes clean
  · exact scrubRead_corrects bound up on goes clean
  · exact scrubRead_stops bound up on goes clean
  · exact ganderExpiry_halts bound he up busy limit
  · exact coreStopStart_ends_intake bound

end Sys2Proof.Machine
end

section
/-! PROOFS. The instruction words of the engines: the fields of each form, and decoding against encoding (R108, R109). -/

namespace Sys2Proof

/-! ### The words of each form, by their fields (R108) -/

section
variable {c e u : Nat} {i : Instr}

/-- What every word with the fields of a Form A word decodes to, that word decodes to. -/
theorem decodes_formA {op rd ra rb func : Nat} (ho : op < 64) (hd : rd < 32) (ha : ra < 32) (hb : rb < 32) (hf : func < 0x800)
    (h : ∀ w, w / 0x4000000 = op → w / 0x200000 % 32 = rd → w / 0x10000 % 32 = ra → w / 0x800 % 32 = rb → w % 0x800 = func →
      acisDecode ⟨c, e, u, w⟩ = some i) :
    formA op rd ra rb func < 2 ^ 32 ∧ acisDecode ⟨c, e, u, formA op rd ra rb func⟩ = some i := by
  refine ⟨?_, h _ ?_ ?_ ?_ ?_ ?_⟩ <;> unfold formA <;> omega

theorem decodes_formB {op rd ra imm : Nat} (ho : op < 64) (hd : rd < 32) (ha : ra < 32) (hi : imm < 0x10000)
    (h : ∀ w, w / 0x4000000 = op → w / 0x200000 % 32 = rd → w / 0x10000 % 32 = ra → w % 0x10000 = imm →
      acisDecode ⟨c, e, u, w⟩ = some i) :
    formB op rd ra imm < 2 ^ 32 ∧ acisDecode ⟨c, e, u, formB op rd ra imm⟩ = some i := by
  refine ⟨?_, h _ ?_ ?_ ?_ ?_⟩ <;> unfold formB <;> omega

theorem decodes_formC {op ra rb cond target : Nat} (ho : op < 64) (ha : ra < 32) (hb : rb < 32) (hc : cond < 16) (ht : target < 4096)
    (h : ∀ w, w / 0x4000000 = op → w / 0x200000 % 32 = ra → w / 0x10000 % 32 = rb → w / 0x1000 % 16 = cond → w % 0x1000 = target →
      acisDecode ⟨c, e, u, w⟩ = some i) :
    formC op ra rb cond target < 2 ^ 32 ∧ acisDecode ⟨c, e, u, formC op ra rb cond target⟩ = some i := by
  refine ⟨?_, h _ ?_ ?_ ?_ ?_ ?_⟩ <;> unfold formC <;> omega

theorem decodes_formD {op vd va vb rs func : Nat} (ho : op < 64) (hd : vd < 16) (ha : va < 16) (hb : vb < 16) (hs : rs < 32)
    (hf : func < 0x200) (h : ∀ w, w / 0x4000000 = op → w / 0x400000 % 16 = vd → w / 0x40000 % 16 = va → w / 0x4000 % 16 = vb →
      w / 0x200 % 32 = rs → w % 0x200 = func → acisDecode ⟨c, e, u, w⟩ = some i) :
    formD op vd va vb rs func < 2 ^ 32 ∧ acisDecode ⟨c, e, u, formD op vd va vb rs func⟩ = some i := by
  refine ⟨?_, h _ ?_ ?_ ?_ ?_ ?_ ?_⟩ <;> unfold formD <;> omega

theorem decodes_formE {op rd ra rb imm8 func : Nat} (ho : op < 64) (hd : rd < 32) (ha : ra < 32) (hb : rb < 32) (hi : imm8 < 256)
    (hf : func < 8) (h : ∀ w, w / 0x4000000 = op → w / 0x200000 % 32 = rd → w / 0x10000 % 32 = ra → w / 0x800 % 32 = rb →
      w / 8 % 256 = imm8 → w % 8 = func → acisDecode ⟨c, e, u, w⟩ = some i) :
    formE op rd ra rb imm8 func < 2 ^ 32 ∧ acisDecode ⟨c, e, u, formE op rd ra rb imm8 func⟩ = some i := by
  refine ⟨?_, h _ ?_ ?_ ?_ ?_ ?_ ?_⟩ <;> unfold formE <;> omega

end

/-! ### Decoding what has been encoded -/

/-- The word of a well-formed instruction decodes to it. -/
theorem acisDecode_acisEncode {i : Instr} {x : AcisWord} (wf : i.wf = true) (h : acisEncode i = some x) :
    x.word < 2 ^ 32 ∧ acisDecode x = some i := by
  cases i
  case add c e rd ra rb | sub c e rd ra rb | and c e rd ra rb | or c e rd ra rb | xor c e rd ra rb | sll c e rd ra rb |
      srl c e rd ra rb | sra c e rd ra rb | slt c e rd ra rb | sltu c e rd ra rb | min c e rd ra rb | max c e rd ra rb |
      mul c e rd ra rb | mulh c e rd ra rb | rsra c e rd ra rb | sat24 c e rd ra rb =>
    obtain rfl := Option.some.inj h
    simp only [Instr.wf, Bool.and_eq_true, decide_eq_true_eq] at wf
    obtain ⟨⟨-, hd⟩, ha⟩ := wf.1
    exact decodes_formA (by decide) hd ha wf.2 (by decide) fun w op fd fa fb ff => by simp only [acisDecode, op, fd, fa, fb, ff]; rfl
  case addi c e rd ra imm | andi c e rd ra imm | ori c e rd ra imm | xori c e rd ra imm | lui c e rd ra imm | slli c e rd ra imm |
      srli c e rd ra imm | srai c e rd ra imm | slti c e rd ra imm | rsrai c e rd ra imm | csrr c e rd ra imm | csrw c e rd ra imm |
      csrrd c e rd ra imm | lw c e rd ra imm upset | lh c e rd ra imm | lhu c e rd ra imm | lb c e rd ra imm | lbu c e rd ra imm |
      sw c e rd ra imm | sh c e rd ra imm | sb c e rd ra imm | lws c e rd ra imm | sws c e rd ra imm =>
    obtain rfl := Option.some.inj h
    simp only [Instr.wf, Bool.and_eq_true, decide_eq_true_eq] at wf
    obtain ⟨⟨-, hd⟩, ha⟩ := wf.1
    exact decodes_formB (by decide) hd ha wf.2 fun w op fd fa fi => by simp only [acisDecode, op, fd, fa, fi]
  case br c e ra rb cond target | jal c e ra rb cond target | jr c e ra rb cond target =>
    obtain rfl := Option.some.inj h
    simp only [Instr.wf, Bool.and_eq_true, decide_eq_true_eq] at wf
    obtain ⟨⟨⟨⟨-, ha⟩, hb⟩, hc⟩, ht⟩ := wf
    exact decodes_formC (by decide) ha hb hc ht fun w op fa fb fc ft => by simp only [acisDecode, op, fa, fb, fc, ft]
  case vadd c e vd va vb rs | vsub c e vd va vb rs | vmul c e vd va vb rs | vmuls c e vd va vb rs | vmin c e vd va vb rs |
      vmax c e vd va vb rs | vrsras c e vd va vb rs | vsat c e vd va vb rs | vbcast c e vd va vb rs | vand c e vd va vb rs |
      vor c e vd va vb rs | vadds c e vd va vb rs | vext c e vd va vb rs | vred c e vd va vb rs | vins c e vd va vb rs |
      vld c e vd va vb rs | vst c e vd va vb rs | vldb c e vd va vb rs | vldn c e vd va vb rs | vstb c e vd va vb rs |
      vstn c e vd va vb rs | vsadd c e vd va vb rs | vlds c e vd va vb rs =>
    obtain rfl := Option.some.inj h
    simp only [Instr.wf, Bool.and_eq_true, decide_eq_true_eq] at wf
    obtain ⟨⟨⟨⟨-, hd⟩, ha⟩, hb⟩, hs⟩ := wf
    exact decodes_formD (by decide) hd ha hb hs (by decide) fun w op fd fa fb fs ff => by
      simp only [acisDecode, op, fd, fa, fb, fs, ff]; rfl
  case swait c e rd ra rb imm8 | sadd c e rd ra rb imm8 | ssub c e rd ra rb imm8 | sread c e rd ra rb imm8 | hdef c e rd ra rb imm8 |
      harr c e rd ra rb imm8 | hwait c e rd ra rb imm8 | hfree c e rd ra rb imm8 | qpop c e rd ra rb imm8 | qpush c e rd ra rb imm8 |
      qlen c e rd ra rb imm8 | qsend c e rd ra rb imm8 | cqadd c e rd ra rb imm8 | ret c e rd ra rb imm8 | wicket c e rd ra rb imm8 |
      stepdone c e rd ra rb imm8 | emit c e rd ra rb imm8 | fence c e rd ra rb imm8 =>
    obtain rfl := Option.some.inj h
    simp only [Instr.wf, Bool.and_eq_true, decide_eq_true_eq] at wf
    obtain ⟨⟨⟨⟨-, hd⟩, ha⟩, hb⟩, hi⟩ := wf
    exact decodes_formE (by decide) hd ha hb hi (by decide) fun w op fd fa fb fi ff => by
      simp only [acisDecode, op, fd, fa, fb, fi, ff]; rfl
  all_goals exact nomatch h

/-! ### Encoding what has been decoded -/

section
variable {c e : Nat} {i : Instr}

theorem acisEncode_decA00 {rd ra rb func : Nat} (h : decA00 c e rd ra rb func = some i) :
    acisEncode i = some ⟨c, e, 0, formA 0x00 rd ra rb func⟩ := by
  unfold decA00 at h
  split at h <;> cases h <;> rfl

theorem acisEncode_decD30 {vd va vb rs func : Nat} (h : decD30 c e vd va vb rs func = some i) :
    acisEncode i = some ⟨c, e, 0, formD 0x30 vd va vb rs func⟩ := by
  unfold decD30 at h
  split at h <;> cases h <;> rfl

theorem acisEncode_decD31 {vd va vb rs func : Nat} (h : decD31 c e vd va vb rs func = some i) :
    acisEncode i = some ⟨c, e, 0, formD 0x31 vd va vb rs func⟩ := by
  unfold decD31 at h
  split at h <;> cases h <;> rfl

theorem acisEncode_decE38 {rd ra rb imm8 func : Nat} (h : decE38 c e rd ra rb imm8 func = some i) :
    acisEncode i = some ⟨c, e, 0, formE 0x38 rd ra rb imm8 func⟩ := by
  unfold decE38 at h
  split at h <;> cases h <;> rfl

theorem acisEncode_decE39 {rd ra rb imm8 func : Nat} (h : decE39 c e rd ra rb imm8 func = some i) :
    acisEncode i = some ⟨c, e, 0, formE 0x39 rd ra rb imm8 func⟩ := by
  unfold decE39 at h
  split at h <;> cases h <;> rfl

theorem acisEncode_decE3A {rd ra rb imm8 func : Nat} (h : decE3A c e rd ra rb imm8 func = some i) :
    acisEncode i = some ⟨c, e, 0, formE 0x3A rd ra rb imm8 func⟩ := by
  unfold decE3A at h
  split at h <;> cases h <;> rfl

theorem acisEncode_decE3B {rd ra rb imm8 func : Nat} (h : decE3B c e rd ra rb imm8 func = some i) :
    acisEncode i = some ⟨c, e, 0, formE 0x3B rd ra rb imm8 func⟩ := by
  unfold decE3B at h
  split at h <;> cases h <;> rfl

end

/-! A word is the sum of its fields, in each form. -/

theorem formA_of_word {w op : Nat} (h : w / 0x4000000 = op) :
    formA op (w / 0x200000 % 32) (w / 0x10000 % 32) (w / 0x800 % 32) (w % 0x800) = w := by
  unfold formA; omega

theorem formB_of_word {w op : Nat} (h : w / 0x4000000 = op) :
    formB op (w / 0x200000 % 32) (w / 0x10000 % 32) (w % 0x10000) = w := by
  unfold formB; omega

theorem formC_of_word {w op : Nat} (h : w / 0x4000000 = op) :
    formC op (w / 0x200000 % 32) (w / 0x10000 % 32) (w / 0x1000 % 16) (w % 0x1000) = w := by
  unfold formC; omega

theorem formD_of_word {w op : Nat} (h : w / 0x4000000 = op) :
    formD op (w / 0x400000 % 16) (w / 0x40000 % 16) (w / 0x4000 % 16) (w / 0x200 % 32) (w % 0x200) = w := by
  unfold formD; omega

theorem formE_of_word {w op : Nat} (h : w / 0x4000000 = op) :
    formE op (w / 0x200000 % 32) (w / 0x10000 % 32) (w / 0x800 % 32) (w / 8 % 256) (w % 8) = w := by
  unfold formE; omega

/-- A word that decodes to an instruction is the word of that instruction. -/
theorem acisEncode_acisDecode {i : Instr} {x : AcisWord} (h : acisDecode x = some i) :
    ∃ u, acisEncode i = some { x with upset := u } := by
  obtain ⟨c, e, u, w⟩ := x
  unfold acisDecode at h
  extract_lets at h
  split at h
  case h_1 op => exact ⟨0, by rw [acisEncode_decA00 h, formA_of_word op]⟩
  case h_2 op | h_3 op | h_4 op | h_5 op | h_6 op | h_7 op | h_8 op | h_9 op | h_10 op | h_11 op | h_12 op |
      h_13 op | h_14 op | h_15 op | h_16 op | h_17 op | h_18 op | h_19 op | h_20 op | h_21 op | h_22 op | h_23 op | h_24 op =>
    cases h
    exact ⟨_, congrArg (fun w => some (AcisWord.mk c e _ w)) (formB_of_word op)⟩
  case h_25 op | h_26 op | h_27 op =>
    cases h
    exact ⟨_, congrArg (fun w => some (AcisWord.mk c e _ w)) (formC_of_word op)⟩
  case h_28 op => exact ⟨0, by rw [acisEncode_decD30 h, formD_of_word op]⟩
  case h_29 op => exact ⟨0, by rw [acisEncode_decD31 h, formD_of_word op]⟩
  case h_30 op => exact ⟨0, by rw [acisEncode_decE38 h, formE_of_word op]⟩
  case h_31 op => exact ⟨0, by rw [acisEncode_decE39 h, formE_of_word op]⟩
  case h_32 op => exact ⟨0, by rw [acisEncode_decE3A h, formE_of_word op]⟩
  case h_33 op => exact ⟨0, by rw [acisEncode_decE3B h, formE_of_word op]⟩
  case h_34 => exact nomatch h

/-! ### The statements -/

/-- Settles O59: decoding against encoding, form by form, in both directions. -/
theorem acisRoundTrip : Obligations.AcisRoundTrip :=
  ⟨fun _ _ wf h => acisDecode_acisEncode wf h, fun _ _ _ h => acisEncode_acisDecode h⟩

/-- A word under major opcode 0x3F is no instruction (R109). -/
theorem acisDecode_unassigned {w : Nat} (h : w < 0x4000000) : acisDecode ⟨0, 0, 0, 0x3F * 0x4000000 + w⟩ = none := by
  have op : (0x3F * 0x4000000 + w) / 0x4000000 = 0x3F := by omega
  simp only [acisDecode, op]

/-- Settles O60: the words of the spec are decoded by evaluation. -/
theorem acisWords : Obligations.AcisWords :=
  ⟨by decide, by decide, by decide, by decide, by decide, fun _ h => acisDecode_unassigned h⟩

end Sys2Proof
end

section
/-! PROOFS. The issue of an instruction of an engine whose fetch and stores hold no error (R97, R104, R105, R109). -/

namespace Sys2Proof.Machine

/-! ### Reads of protected words without an error (R97) -/

theorem WordsClean.nil (s : State) (c : Nat) : WordsClean s c [] := fun _ h => nomatch h

theorem localWords_of_clean {s : State} {c : Nat} {ws : List Nat} (clean : WordsClean s c ws) (e : Nat) (body : State → State) :
    localWords c e ws body s = body s := by
  induction ws with
  | nil => rfl
  | cons w r ih =>
    obtain ⟨first, rest⟩ := List.forall_mem_cons.mp clean
    rw [localWords, if_neg (by omega), coreEccFix, if_neg (by omega), ih rest]

theorem localAccess_of_clean {s : State} {c o n : Nat} (clean : WordsClean s c (storeWords o n)) (e : Nat) (body : State → State) :
    localAccess c e o n body s = body s := localWords_of_clean clean e body

/-! ### What an engine that can issue is -/

theorem eng_lt_of_canIssue {s : State} {c e : Nat} {uses : List Nat} (h : canIssue s c e uses = true) : e < 6 := by
  simp only [canIssue, Bool.and_eq_true, decide_eq_true_eq] at h
  obtain ⟨⟨⟨⟨⟨small, -⟩, -⟩, -⟩, -⟩, -⟩ := h
  exact small

theorem run_of_canIssue {s : State} {c e : Nat} {uses : List Nat} (h : canIssue s c e uses = true) : (eng s c e).st = .run := by
  simp only [canIssue, Bool.and_eq_true, beq_iff_eq] at h
  obtain ⟨⟨⟨⟨-, run⟩, -⟩, -⟩, -⟩ := h
  exact run

/-- The SQ issues only where none of its wicket commands waits for credit (R73). -/
theorem sqOut_of_canIssue {s : State} {c : Nat} {uses : List Nat} (h : canIssue s c 5 uses = true) : (core s c).sqOut = [] := by
  simp only [canIssue, Bool.and_eq_true, sqStalls] at h
  simpa using h.1.2

/-! ### The issue of an instruction -/

section
variable {s : State} {c e : Nat} {uses : List Nat}

theorem fetch_of_clean (clean : WordsClean s c [fetchWord s c e]) (body : State → State) :
    fetch c e body s = if wordAssigned s c e then body s else excFree c e 1 s := by
  refine localAccess_of_clean ?_ e _
  have one : storeWords (0x3C000 + 4 * (eng s c e).pc) 4 = [fetchWord s c e] := by
    have store : storeWord (storeOf (0x3C000 + 4 * (eng s c e).pc)).1 = 4 := by
      rw [storeOf, if_neg (by omega), if_neg (by omega), if_neg (by omega), if_neg (by omega)]
      rfl
    have count : ((0x3C000 + 4 * (eng s c e).pc) % 4 + 4 + 4 - 1) / 4 = 1 := by omega
    simp only [storeWords, store, count, fetchWord, List.range_one, List.map_cons, List.map_nil]
    congr 1
    omega
  rwa [one]

/-- An instruction that issues raises ILLEGAL where its fields are wrong, and has its own effect otherwise. -/
theorem issue_of_issues (h : Issues s c e uses) (illegal : Bool) (v : Word) (body : State → State) :
    issue c e uses illegal v body s = if illegal then exc c e 1 v s else body s := by
  obtain ⟨can, ok, clean, known⟩ := h
  rw [issue, can, ok, fetch_of_clean clean, if_pos known]
  rfl

theorem issueFree_of_issues (h : Issues s c e uses) (illegal : Bool) (body : State → State) :
    issueFree c e uses illegal body s = if illegal then excFree c e 1 s else body s := by
  obtain ⟨can, ok, clean, known⟩ := h
  rw [issueFree, can, ok, fetch_of_clean clean, if_pos known]
  rfl

end

/-! ### Changes of registers and engines alone -/

/-- `t` differs from `s` in registers and engines alone. -/
def EngsOnly (s t : State) : Prop := t = { s with csr := t.csr, engs := t.engs }

namespace EngsOnly

theorem refl (s : State) : EngsOnly s s := rfl

theorem trans {s t u : State} (h : EngsOnly s t) (k : EngsOnly t u) : EngsOnly s u := by
  rw [EngsOnly] at h k ⊢
  rw [k, h]

/-- Whatever looks at neither registers nor engines is the same. -/
theorem same {s t : State} (h : EngsOnly s t) {α : Type} (f : State → α) (blind : ∀ c g, f { s with csr := c, engs := g } = f s) :
    f t = f s := by
  rw [h]
  exact blind _ _

theorem putF (f : FieldRef) (v : Nat) (s : State) : EngsOnly s (putF f v s) := by rw [EngsOnly, putF_eq]

theorem setEng (c e : Nat) (g : Eng) (s : State) : EngsOnly s (setEng c e g s) := rfl

theorem setReg (c e r : Nat) (v : Word) (s : State) : EngsOnly s (setReg c e r v s) := by rw [EngsOnly, setReg_eq]

theorem retireTo (c e target : Nat) (s : State) : EngsOnly s (retireTo c e target s) := (setEng c e _ s).trans (putF _ _ _)

end EngsOnly

/-! ### Retirement, and what else is as before -/

theorem retire_eq_retireTo (c e : Nat) (s : State) : retire c e s = retireTo c e ((eng s c e).pc + 1) s := rfl

section
variable (c e target : Nat) (s : State)

@[simp] theorem eng_retireTo_same : eng (retireTo c e target s) c e = { eng s c e with pc := target } := by simp [retireTo]

theorem eng_retireTo_other {k : Nat} (h : k ≠ 8 * c + e) : tget {} k (retireTo c e target s).engs = tget {} k s.engs := by
  simp [retireTo, tget_tset_other _ h]

@[simp] theorem regOf_retireTo (r : Nat) : regOf (retireTo c e target s) c e r = regOf s c e r := by simp [regOf]
@[simp] theorem vlane_retireTo (v j : Nat) : vlane (retireTo c e target s) c e v j = vlane s c e v j := by simp [vlane]
@[simp] theorem retireTo_mem : (retireTo c e target s).mem = s.mem :=
  (EngsOnly.retireTo c e target s).same (·.mem) fun _ _ => rfl
@[simp] theorem retireTo_ecc : (retireTo c e target s).ecc = s.ecc :=
  (EngsOnly.retireTo c e target s).same (·.ecc) fun _ _ => rfl
@[simp] theorem retireTo_fab : (retireTo c e target s).fab = s.fab :=
  (EngsOnly.retireTo c e target s).same (·.fab) fun _ _ => rfl
@[simp] theorem retireTo_cores : (retireTo c e target s).cores = s.cores :=
  (EngsOnly.retireTo c e target s).same (·.cores) fun _ _ => rfl
@[simp] theorem core_retireTo (d : Nat) : core (retireTo c e target s) d = core s d := by rw [core, retireTo_cores, core]

end

@[simp] theorem vlane_sicSettle (s : State) (c e v j : Nat) : vlane (sicSettle s) c e v j = vlane s c e v j := by simp [vlane]

/-- `u` is `s` but for the register files of engine `e` of core `c`, in what is the engine's. -/
structure FilesOnly (c e : Nat) (s u : State) : Prop where
  engine : eng u c e = { eng s c e with regs := (eng u c e).regs, vregs := (eng u c e).vregs }
  others : EngKept c e s u
  csr : u.csr = s.csr

/-- An instruction that has changed no more than register files, memory and what waits outside the engine retires. -/
theorem FilesOnly.retires {c e : Nat} {s u : State} (h : FilesOnly c e s u) (target : Nat) :
    Retires c e target s (sicSettle (retireTo c e target u)) := by
  refine ⟨?_, fun k hk => ?_, ?_, fun a out => ?_⟩
  · rw [eng_sicSettle, eng_retireTo_same, h.engine]
  · rw [sicSettle_engs, eng_retireTo_other _ _ _ _ hk, h.others k hk]
  · rw [getF_sicSettle, retireTo, incWrap_def, getF_putF_same, modEng_def, getF_setEng, getF_congr h.csr]
    rfl
  · rw [rdWord_sicSettle, retireTo, incWrap_def, rdWord_putF_outside _ _ _ _ (out _ (List.mem_singleton_self _)), modEng_def]
    exact rdWord_congr h.csr a

theorem FilesOnly.refl (c e : Nat) (s : State) : FilesOnly c e s s := ⟨rfl, fun _ _ => rfl, rfl⟩

theorem FilesOnly.retires_next {c e : Nat} {s u : State} (h : FilesOnly c e s u) :
    Retires c e ((eng s c e).pc + 1) s (sicSettle (retire c e u)) := by
  have pc : (eng u c e).pc = (eng s c e).pc := by rw [h.engine]
  rw [retire_eq_retireTo, pc]
  exact h.retires _

theorem FilesOnly.of_engs {s u : State} (c e : Nat) (engs : u.engs = s.engs) (csr : u.csr = s.csr) : FilesOnly c e s u := by
  have same : eng u c e = eng s c e := by rw [eng, engs, eng]
  exact ⟨by rw [same], fun k _ => by rw [engs], csr⟩

theorem FilesOnly.trans {c e : Nat} {s u w : State} (h : FilesOnly c e s u) (k : FilesOnly c e u w) : FilesOnly c e s w :=
  ⟨by rw [k.engine, h.engine], fun i hi => (k.others i hi).trans (h.others i hi), k.csr.trans h.csr⟩

theorem FilesOnly.setReg (c e r : Nat) (v : Word) (s : State) : FilesOnly c e s (setReg c e r v s) :=
  ⟨by rw [eng_setReg], engKept_setReg c e r v s, setReg_csr ..⟩

theorem FilesOnly.setVlane (c e v j : Nat) (x : Word) (s : State) : FilesOnly c e s (setVlane c e v j x s) :=
  ⟨by simp [Machine.setVlane], engKept_setEng c e _ s, rfl⟩

/-! What the host-pending flags and the retirement leave of a state that differs from `s` in some parts only. -/

theorem onlyEngs_settled {s t : State} (h : EngsOnly s t) : OnlyEngs s (sicSettle t) := by
  rw [OnlyEngs, sicSettle_eq]
  exact congrArg (withSic · (sicSettle t)) h

theorem onlyFabric_settled {s t : State} (h : t = { s with csr := t.csr, engs := t.engs, fab := t.fab }) : OnlyFabric s (sicSettle t) := by
  rw [OnlyFabric, sicSettle_eq]
  exact congrArg (withSic · (sicSettle t)) h

theorem onlyStores_settled {s t : State} (h : t = { s with csr := t.csr, engs := t.engs, mem := t.mem, ecc := t.ecc }) :
    OnlyStores s (sicSettle t) := by
  rw [OnlyStores, sicSettle_eq]
  exact congrArg (withSic · (sicSettle t)) h

theorem onlyStores_of {s u t : State} (rest : u = { s with mem := u.mem, ecc := u.ecc }) (own : EngsOnly u t) :
    OnlyStores s (sicSettle t) := by
  have mem : t.mem = u.mem := own.same (·.mem) fun _ _ => rfl
  have ecc : t.ecc = u.ecc := own.same (·.ecc) fun _ _ => rfl
  refine onlyStores_settled ?_
  rw [mem, ecc]
  exact Eq.trans own (congrArg (fun w : State => { w with csr := t.csr, engs := t.engs }) rest)

/-- An instruction that has changed the stores, with their error bits, retires. -/
theorem stores_of_live {s u : State} {c e : Nat} {o : Host.Outcome State Fault Refusal} (bound : s.rsvDirty = false)
    (rest : u = { s with mem := u.mem, ecc := u.ecc }) (run : o = live s (retire c e u)) :
    ∃ t, o = .next t ∧ t.mem = u.mem ∧ t.ecc = u.ecc ∧ RegsKept c e [] s t ∧ Retires c e ((eng s c e).pc + 1) s t ∧
      (eng t c e).vregs = (eng s c e).vregs ∧ OnlyStores s t := by
  have engs : u.engs = s.engs := by rw [rest]
  have own (d f : Nat) : eng u d f = eng s d f := by rw [eng, engs, eng]
  have kept : FilesOnly c e s u := .of_engs c e engs (by rw [rest])
  refine ⟨_, run.trans (live_next bound _), ?_, ?_, fun r _ => ?_, kept.retires_next, ?_, onlyStores_of rest (.retireTo ..)⟩
  · rw [sicSettle_mem, retire_eq_retireTo, retireTo_mem]
  · rw [sicSettle_ecc, retire_eq_retireTo, retireTo_ecc]
  · rw [regOf_sicSettle, retire_eq_retireTo, regOf_retireTo, regOf, own, regOf]
  · rw [eng_sicSettle, retire_eq_retireTo, eng_retireTo_same, own]

/-- The state after an instruction that wrote `rd` and retired (R103). -/
def Writes (c e rd : Nat) (v : Word) (s t : State) : Prop :=
  regOf t c e rd = (if rd = 0 then 0 else v) ∧ RegsKept c e [rd] s t ∧ Retires c e ((eng s c e).pc + 1) s t ∧
    (eng t c e).vregs = (eng s c e).vregs ∧ OnlyEngs s t

theorem writes_of_live {s : State} {c e rd : Nat} {v : Word} {o : Host.Outcome State Fault Refusal} (bound : s.rsvDirty = false)
    (run : o = live s (retire c e (setReg c e rd v s))) : ∃ t, o = .next t ∧ Writes c e rd v s t :=
  ⟨_, run.trans (live_next bound _), retire_setReg c e rd v s⟩

end Sys2Proof.Machine
end

section
/-! PROOFS. Scalar operations and control flow (R110, R111, R115). -/

namespace Sys2Proof.Machine

/-! ### The operations as arithmetic (R110, R111) -/

theorem wSlt_eq (a b : Word) : wSlt a b = if a.toInt < b.toInt then 1 else 0 := by
  simp only [wSlt, BitVec.slt, decide_eq_true_eq]

theorem wSltu_eq (a b : Word) : wSltu a b = if a.toNat < b.toNat then 1 else 0 := by
  simp only [wSltu, BitVec.ult, decide_eq_true_eq]

theorem wMin_eq (a b : Word) : wMin a b = BitVec.ofInt 32 (min a.toInt b.toInt) := by
  simp only [wMin, BitVec.slt, decide_eq_true_eq]
  split
  · rw [min_eq_left (by omega), BitVec.ofInt_toInt]
  · rw [min_eq_right (by omega), BitVec.ofInt_toInt]

theorem wMax_eq (a b : Word) : wMax a b = BitVec.ofInt 32 (max a.toInt b.toInt) := by
  simp only [wMax, BitVec.slt, decide_eq_true_eq]
  split
  · rw [max_eq_right (by omega), BitVec.ofInt_toInt]
  · rw [max_eq_left (by omega), BitVec.ofInt_toInt]

theorem mul_eq_ofNat (a b : Word) : a * b = BitVec.ofNat 32 (a.toNat * b.toNat) := by
  rw [BitVec.ofNat_mul]; simp

theorem clampInt_eq {lo hi : Int} (h : lo ≤ hi) (x : Int) : clampInt lo hi x = max lo (min hi x) := by
  unfold clampInt
  split
  · omega
  · split <;> omega

theorem wSat24_eq (a : Word) : wSat 24 a = BitVec.ofInt 32 (max (-8388608) (min 8388607 a.toInt)) := by
  rw [wSat, satS, clampInt_eq (by decide)]
  rfl

theorem zext16_eq {imm : Nat} (h : imm < 65536) : zext16 imm = BitVec.ofNat 32 imm := by
  refine BitVec.eq_of_toNat_eq ?_
  simp [zext16]
  omega

theorem sext16_eq {imm : Nat} (h : imm < 65536) :
    sext16 imm = BitVec.ofInt 32 (if imm < 32768 then (imm : Int) else (imm : Int) - 65536) := by
  rw [sext16, BitVec.signExtend, BitVec.toInt_eq_toNat_cond, BitVec.toNat_ofNat, Nat.mod_eq_of_lt h]
  congr 1
  split <;> split <;> omega

/-! ### Form A and Form B -/

section
variable {s : State} {c e rd ra : Nat}

theorem scalarOp_writes (bound : s.rsvDirty = false) {rb : Nat} (h : Issues s c e [rd, ra, rb]) {f : Word → Word → Word} {v : Word}
    {i : Instr} (run : exec i s = live s (scalarOp f false c e rd ra rb s)) (val : f (regOf s c e ra) (regOf s c e rb) = v) :
    ∃ t, exec i s = .next t ∧ Writes c e rd v s t := by
  refine writes_of_live bound (run.trans ?_)
  rw [scalarOp, issue_of_issues h, if_neg Bool.false_ne_true, val]

theorem immOp_writes (bound : s.rsvDirty = false) (h : Issues s c e [rd, ra]) {f : Word → Nat → Word} {imm : Nat} {v : Word} {i : Instr}
    (run : exec i s = live s (immOp f false c e rd ra imm s)) (val : f (regOf s c e ra) imm = v) :
    ∃ t, exec i s = .next t ∧ Writes c e rd v s t := by
  refine writes_of_live bound (run.trans ?_)
  rw [immOp, issue_of_issues h, if_neg Bool.false_ne_true, val]

end

/-- Settles O1: each operation's result by its definition, and the rest by the rule of an instruction that writes rd and retires. -/
theorem scalarForms : Obligations.ScalarForms := by
  refine ⟨fun s c e rd ra rb bound h => ?_, fun s c e rd ra imm bound h small => ?_⟩
  · intro a b n
    have op {f : Word → Word → Word} {v : Word} {i : Instr} (run : exec i s = live s (scalarOp f false c e rd ra rb s))
      (val : f a b = v) := scalarOp_writes bound h run val
    simp only [List.forall_mem_append, List.forall_mem_cons]
    refine ⟨⟨op rfl rfl, op rfl rfl, op rfl rfl, op rfl rfl, op rfl rfl, op rfl rfl, op rfl rfl, op rfl rfl, op rfl (wSlt_eq a b),
      op rfl (wSltu_eq a b), op rfl (wMin_eq a b), op rfl (wMax_eq a b), op rfl (mul_eq_ofNat a b), op rfl rfl, op rfl rfl,
      List.forall_mem_nil _⟩, ?_⟩
    split
    next zero =>
      subst zero
      rw [List.forall_mem_singleton]
      exact scalarOp_writes bound h rfl (wSat24_eq a)
    next => exact List.forall_mem_nil _
  · intro a z x
    have zx : zext16 imm = z := zext16_eq small
    have sx : sext16 imm = x := sext16_eq small
    have op {f : Word → Nat → Word} {v : Word} {i : Instr} (run : exec i s = live s (immOp f false c e rd ra imm s))
      (val : f a imm = v) := immOp_writes bound h run val
    simp only [List.forall_mem_append, List.forall_mem_cons]
    refine ⟨⟨⟨op rfl (by rw [sx]), op rfl (by rw [zx]), op rfl (by rw [zx]), op rfl (by rw [zx]),
      op rfl (by rw [wSlt_eq, sx]), List.forall_mem_nil _⟩, ?_⟩, ?_⟩
    · split
      next zero =>
        subst zero
        rw [List.forall_mem_singleton]
        exact immOp_writes bound h rfl (by rw [zx])
      next => exact List.forall_mem_nil _
    · split
      next shift =>
        have legal : decide (32 ≤ imm) = false := decide_eq_false (by omega)
        have amount : imm % 32 = imm := Nat.mod_eq_of_lt shift
        have op {f : Word → Nat → Word} {v : Word} {i : Instr} (run : exec i s = live s (immOp f (decide (32 ≤ imm)) c e rd ra imm s))
          (val : f a imm = v) := immOp_writes bound h (legal ▸ run) val
        simp only [List.forall_mem_cons]
        exact ⟨op rfl (by rw [amount]), op rfl (by rw [amount]), op rfl (by rw [amount]),
          op rfl (by rw [amount, wRsra]), List.forall_mem_nil _⟩
      next => exact List.forall_mem_nil _

/-! ### Control flow (R115) -/

section
variable {s : State} {c e target : Nat} {o : Host.Outcome State Fault Refusal}

/-- An instruction that does nothing but go to another index. -/
theorem goes_of_live (bound : s.rsvDirty = false) (run : o = live s (retireTo c e target s)) :
    ∃ t, o = .next t ∧ Retires c e target s t ∧ RegsKept c e [] s t ∧ (eng t c e).vregs = (eng s c e).vregs ∧ OnlyEngs s t :=
  ⟨_, run.trans (live_next bound _), (FilesOnly.refl c e s).retires target, fun r _ => by simp, by simp,
    onlyEngs_settled (.retireTo c e target s)⟩

end

theorem exec_br_of_issues {s : State} {c e ra rb cond : Nat} (h : Issues s c e [ra, rb]) {b : Bool}
    (holds : condHolds cond (regOf s c e ra) (regOf s c e rb) = some b)
    (legal : ((condHolds cond 0 0).isNone || (cond == 15 && (ra != 0 || rb != 0))) = false) (target : Nat) :
    exec (.br c e ra rb cond target) s = live s (retireTo c e (if b then target else (eng s c e).pc + 1) s) := by
  show execBr c e ra rb cond target s = _
  rw [execBr, issue_of_issues h, legal, if_neg Bool.false_ne_true, holds]
  cases b <;> rfl

/-- Settles O2: each condition by its definition, and the two jumps. -/
theorem controlFlow : Obligations.ControlFlow := by
  refine fun s c e ra rb target bound => ⟨fun h => ?_, fun h => ?_, fun h low => ?_⟩
  · intro a b
    have br {cond : Nat} {v : Bool} (holds : condHolds cond a b = some v)
        (legal : ((condHolds cond 0 0).isNone || (cond == 15 && (ra != 0 || rb != 0))) = false) :=
      goes_of_live (o := exec (.br c e ra rb cond target) s) bound (exec_br_of_issues h holds legal target)
    simp only [List.forall_mem_append, List.forall_mem_cons]
    refine ⟨⟨br ?_ rfl, br ?_ rfl, br ?_ rfl, br ?_ rfl, br ?_ rfl, br ?_ rfl, List.forall_mem_nil _⟩, ?_⟩
    case refine_7 =>
      split
      next zero =>
        rw [List.forall_mem_singleton]
        exact br rfl (by simp [zero, condHolds])
      next => exact List.forall_mem_nil _
    all_goals exact congrArg some (Bool.eq_iff_iff.mpr (by simp [BitVec.slt, BitVec.ult]))
  · have engine : exec (.jal c e 0 0 0 target) s =
        live s (retireTo c e target (setReg c e 31 (BitVec.ofNat 32 ((eng s c e).pc + 1)) s)) := by
      show execJal c e 0 0 0 target s = _
      rw [execJal, issue_of_issues h]
      rfl
    refine ⟨_, engine.trans (live_next bound _), ?_, fun r out => ?_, (FilesOnly.setReg ..).retires target, ?_,
      onlyEngs_settled ((EngsOnly.setReg ..).trans (.retireTo ..))⟩
    · rw [regOf_sicSettle, regOf_retireTo, regOf_setReg, if_pos rfl, if_neg (by decide)]
    · rw [regOf_sicSettle, regOf_retireTo, regOf_setReg, if_neg (by simpa using out)]
    · rw [eng_sicSettle, eng_retireTo_same, eng_setReg]
  · refine goes_of_live bound ?_
    show execJr c e ra 0 0 0 s = _
    rw [execJr, issue_of_issues h, if_neg (by simp), if_neg (by omega)]

end Sys2Proof.Machine
end

section
/-! PROOFS. Exceptions of a running engine while no boundary sequence runs at its core (R130, R140-R142). -/

namespace Sys2Proof.Machine

/-! ### The acts of the SQ (R73, R130, R206) -/

/-- The acts that a handler of the SQ may owe change the control queues and the notes of sent contributions of the core, and the
contributions on their way. -/
theorem omittedAct_spec (c e : Nat) (h : Handler) (s : State) :
    let t := omittedAct c e h s
    t = { s with cores := t.cores, contribs := t.contribs } ∧
    core t c = { core s c with soCmd := (core t c).soCmd, seCmd := (core t c).seCmd, sqOut := (core t c).sqOut, doneSent := (core t c).doneSent } := by
  intro t
  simp only [t, omittedAct]
  split
  · exact ⟨rfl, rfl⟩
  split
  · refine ⟨rfl, ?_⟩
    simp only [wicketCmds, sqDrain, modCore_def, core_setCore_same]
    rw [(sqPlace_spec _ _).1]
  split
  · refine ⟨rfl, ?_⟩
    have sent (u : State) (l : List Contrib) (d : Nat) : core { u with contribs := l } d = core u d := rfl
    rw [sendDone, sent, modCore_def, core_setCore_same]
  · exact ⟨rfl, rfl⟩

theorem omittedAct_of_none {c e : Nat} {h : Handler} (none_ : e ≠ 5 ∨ h.acted = true ∨ (h.kind ≠ 2 ∧ h.kind ≠ 4)) (s : State) :
    omittedAct c e h s = s := by
  unfold omittedAct
  rcases none_ with other | acted | ⟨no2, no4⟩
  · simp [other]
  · simp [acted]
  · simp [no2, no4]

/-! ### The end of a handler (R130, R136) -/

/-- The engine's own part in the end of its handler. -/
def freed (g : Eng) : Eng := { g with st := .idle, wait := .none, handler := none }

section
variable {s : State} {c e : Nat}

theorem endHandler_of_none (none_ : (eng s c e).handler = none) : endHandler c e s = s := by
  simp only [endHandler, none_]

theorem boundaryEnd_of_none (none_ : (core s c).applying = none) : boundaryEnd c s = s := by
  simp only [boundaryEnd, none_]

theorem endHandler_of_quiet {h : Handler} (runs : (eng s c e).handler = some h) (quiet : (core s c).applying = none) :
    endHandler c e s = noteStepEnds c (omittedAct c e h (setEng c e (freed (eng s c e)) s)) := by
  have still : (core (omittedAct c e h (setEng c e (freed (eng s c e)) s)) c).applying = none := by
    rw [(omittedAct_spec c e h _).2, core_setEng, quiet]
  simp only [endHandler, runs]
  exact congrArg (noteStepEnds c) (boundaryEnd_of_none still)

/-- What the end of a handler leaves, where no boundary sequence runs. -/
theorem endHandler_spec (quiet : (core s c).applying = none) :
    let t := endHandler c e s
    t = { s with engs := t.engs, cores := t.cores, contribs := t.contribs } ∧ (core t c).send = (core s c).send := by
  intro t
  cases runs : (eng s c e).handler with
  | none => rw [show t = s from endHandler_of_none runs]; exact ⟨rfl, rfl⟩
  | some h =>
    obtain ⟨act, queues⟩ := omittedAct_spec c e h (setEng c e (freed (eng s c e)) s)
    obtain ⟨rest, notes⟩ := noteStepEnds_only c (omittedAct c e h (setEng c e (freed (eng s c e)) s))
    have eq : t = _ := endHandler_of_quiet runs quiet
    rw [← eq] at rest notes
    refine ⟨?_, ?_⟩
    · rw [rest, act]
      rfl
    · rw [notes, queues, core_setEng]

end

/-! ### EXC_CAUSE, EXC_PC and EXC_VALUE (R142) -/

/-- What EXC_PC takes of an index, and whether an instruction raised the exception. -/
def excPc (pc : Nat) (notInstr : Bool) : Word := BitVec.ofNat 32 (pc % 4096 + 4096 * bnat notInstr)

section
variable {s : State} {c e code pc : Nat} {notInstr : Bool} {value : Word}

theorem recordExc_regsOnly : RegsOnly s (recordExc c e code pc notInstr value s) := by
  unfold recordExc
  split
  · exact .putF _ _ s
  · exact (RegsOnly.putF _ _ s).trans ((RegsOnly.putF _ _ _).trans ((RegsOnly.wrWord _ _ _).trans (.wrWord _ _ _)))

/-- An exception that finds EXC_CAUSE free is the one it holds. -/
theorem recordExc_spec (free : isSet s (Reg.eng_EXC_CAUSE_VALID c e) = false) :
    let t := recordExc c e code pc notInstr value s
    isSet t (Reg.eng_EXC_CAUSE_VALID c e) = true ∧ getF t (Reg.eng_EXC_CAUSE_CODE c e) = code % 32 ∧
    rdWord t (Reg.eng_EXC_PC c e) = excPc pc notInstr ∧ rdWord t (Reg.eng_EXC_VALUE c e) = value := by
  intro t
  have eq : t = wrWord (Reg.eng_EXC_VALUE c e) value (wrWord (Reg.eng_EXC_PC c e) (excPc pc notInstr)
      (putF (Reg.eng_EXC_CAUSE_CODE c e) code (putF (Reg.eng_EXC_CAUSE_VALID c e) 1 s))) := by
    simp only [t, recordExc, free]
    rfl
  have apart {a b : Nat} (h : a ≠ b) (v : Word) (u : State) : rdWord (wrWord a v u) b = rdWord u b := rdWord_wrWord_other (Ne.symm h) v u
  refine ⟨?_, ?_, ?_, ?_⟩
  · have kept : getF t (Reg.eng_EXC_CAUSE_VALID c e) = getF (putF (Reg.eng_EXC_CAUSE_VALID c e) 1 s) (Reg.eng_EXC_CAUSE_VALID c e) := by
      rw [eq, getF_wrWord, getF_wrWord, getF_putF_bits]
      all_goals simp only [BitsApart, Reg.eng_EXC_CAUSE_VALID, Reg.eng_EXC_CAUSE_CODE, Reg.eng_EXC_PC, Reg.eng_EXC_VALUE]; omega
    rw [isSet_of_getF kept]
    exact isSet_putF_one _ _ (by decide : 0 < 1)
  · rw [eq, getF_wrWord, getF_wrWord, getF_putF_same]
    · rfl
    all_goals simp only [BitsApart, Reg.eng_EXC_CAUSE_CODE, Reg.eng_EXC_PC, Reg.eng_EXC_VALUE]; omega
  · rw [eq, apart (by simp only [Reg.eng_EXC_PC, Reg.eng_EXC_VALUE]; omega), rdWord_wrWord_same]
  · rw [eq, rdWord_wrWord_same]

end

/-! ### The start of a handler (R133) -/

theorem startHandler_engsOnly (c e entry : Nat) (h : Handler) (s1 s2 s3 : Word) (s : State) :
    EngsOnly s (startHandler c e entry h s1 s2 s3 s) :=
  (EngsOnly.setEng ..).trans <| (EngsOnly.setReg ..).trans <| (EngsOnly.setReg ..).trans <| (EngsOnly.setReg ..).trans <|
    (EngsOnly.putF ..).trans (.putF ..)

/-- A field beside CUR_SLOT and CUR_STEP of the engine. -/
def BesideCur (c e : Nat) (f : FieldRef) : Prop := BitsApart (Reg.eng_CUR_SLOT_SLOT c e) f ∧ BitsApart (Reg.eng_CUR_STEP_STEP c e) f

theorem getF_startHandler {c e : Nat} {f : FieldRef} (beside : BesideCur c e f) (entry : Nat) (h : Handler) (s1 s2 s3 : Word)
    (s : State) : getF (startHandler c e entry h s1 s2 s3 s) f = getF s f := by
  rw [startHandler, getF_putF_bits beside.2, getF_putF_bits beside.1, getF_setReg, getF_setReg, getF_setReg, modEng_def, getF_setEng]

/-! ### The exception as a whole (R140, R141) -/

/-- A field above the fault unit's and beside CUR_SLOT and CUR_STEP of the engine: an exception writes it only where it records
its cause. -/
structure BesideExc (c e : Nat) (f : FieldRef) : Prop where
  above : Reg.core_FAULT_INFO c + 4 ≤ f.addr
  cur : BesideCur c e f

section
variable {s : State} {c e code pc : Nat} {notInstr : Bool} {value : Word}

/-- The state in which the exception is recorded and the handler has ended. -/
def excEnded (c e code pc : Nat) (notInstr : Bool) (value : Word) (s : State) : State :=
  endHandler c e (coreFault c 8 e 7 0 (recordExc c e code pc notInstr value s))

/-- What an exception can do: the EXCEPTION handler starts, or the engine halts. -/
theorem raiseExc_cases (runs : (eng s c e).st ≠ .halted) :
    raiseExc c e code pc notInstr value s = coreFaultUp c 8 e 7 0 3 (haltEng c e (excEnded c e code pc notInstr value s)) ∨
    raiseExc c e code pc notInstr value s = startHandler c e (getF s (Reg.eng_HVEC_ENTRY c e 1))
      ⟨1, getF s (Reg.eng_CUR_SLOT_SLOT c e), getF s (Reg.eng_CUR_STEP_STEP c e), true⟩
      (BitVec.ofNat 32 code) (excPc pc notInstr) value (excEnded c e code pc notInstr value s) := by
  rw [raiseExc, if_neg runs]
  extract_lets s1 inExc s2
  split
  · exact .inl rfl
  · exact .inr rfl

theorem recorded_eng (d f : Nat) : eng (coreFault c 8 e 7 0 (recordExc c e code pc notInstr value s)) d f = eng s d f := by
  rw [eng_coreFault, recordExc_regsOnly.same (eng · d f) fun _ => rfl]

theorem recorded_core (d : Nat) : core (coreFault c 8 e 7 0 (recordExc c e code pc notInstr value s)) d = core s d := by
  rw [core_coreFault, recordExc_regsOnly.same (core · d) fun _ => rfl]

variable (quiet : (core s c).applying = none)
include quiet

theorem excEnded_spec :
    let t := excEnded c e code pc notInstr value s
    t.mem = s.mem ∧ t.fab = s.fab ∧ (core t c).send = (core s c).send ∧
    t.csr = (coreFault c 8 e 7 0 (recordExc c e code pc notInstr value s)).csr := by
  intro t
  obtain ⟨rest, send⟩ := endHandler_spec (e := e) (s := coreFault c 8 e 7 0 (recordExc c e code pc notInstr value s)) (c := c)
    (by rw [recorded_core, quiet])
  refine ⟨(congrArg State.mem rest).trans ?_, (congrArg State.fab rest).trans ?_, send.trans ?_, (congrArg State.csr rest :)⟩
  · exact (coreFault_mem ..).trans (recordExc_regsOnly.same (·.mem) fun _ => rfl)
  · exact (coreFault_fab ..).trans (recordExc_regsOnly.same (·.fab) fun _ => rfl)
  · rw [recorded_core]

/-- An exception leaves memory, the fabric and the send queue. -/
theorem raiseExc_keeps :
    let t := raiseExc c e code pc notInstr value s
    t.mem = s.mem ∧ t.fab = s.fab ∧ (core t c).send = (core s c).send := by
  intro t
  by_cases halted : (eng s c e).st = .halted
  · rw [show t = s from if_pos halted]
    exact ⟨rfl, rfl, rfl⟩
  obtain ⟨mem, fab, send, -⟩ := excEnded_spec (code := code) (pc := pc) (notInstr := notInstr) (value := value) (e := e) quiet
  rcases raiseExc_cases (code := code) (pc := pc) (notInstr := notInstr) (value := value) halted with eq | eq
  · obtain ⟨queues, up, -, -⟩ := coreFaultUp_spec c 8 e 7 0 3 (haltEng c e (excEnded c e code pc notInstr value s))
    have fabUp : t.fab = (haltEng c e (excEnded c e code pc notInstr value s)).fab := by
      rw [show t = _ from eq]
      exact coreFault_fab ..
    refine ⟨?_, fabUp.trans fab, ?_⟩
    · rw [show t = _ from eq, up]
      exact mem
    · rw [show t = _ from eq, queues]
      exact send
  · have only := startHandler_engsOnly c e (getF s (Reg.eng_HVEC_ENTRY c e 1))
      ⟨1, getF s (Reg.eng_CUR_SLOT_SLOT c e), getF s (Reg.eng_CUR_STEP_STEP c e), true⟩
      (BitVec.ofNat 32 code) (excPc pc notInstr) value (excEnded c e code pc notInstr value s)
    rw [← eq] at only
    exact ⟨(only.same (·.mem) fun _ _ => rfl).trans mem, (only.same (·.fab) fun _ _ => rfl).trans fab,
      (only.same (fun u => (core u c).send) fun _ _ => rfl).trans send⟩

theorem getF_raiseExc (runs : (eng s c e).st ≠ .halted) {f : FieldRef} (beside : BesideExc c e f) :
    getF (raiseExc c e code pc notInstr value s) f = getF (recordExc c e code pc notInstr value s) f := by
  obtain ⟨-, -, -, csr⟩ := excEnded_spec (code := code) (pc := pc) (notInstr := notInstr) (value := value) (e := e) quiet
  have ended : getF (excEnded c e code pc notInstr value s) f = getF (recordExc c e code pc notInstr value s) f := by
    rw [getF_congr csr, getF_coreFault beside.above (by decide)]
  rcases raiseExc_cases (code := code) (pc := pc) (notInstr := notInstr) (value := value) runs with eq | eq
  · rw [eq, getF_congr (coreFaultUp_csr ..), getF_coreFault beside.above (by decide), haltEng, modEng_def, getF_setEng, ended]
  · rw [eq, getF_startHandler beside.cur, ended]

end

/-! ### An instruction that raises an exception -/

/-- `t` is what an exception of engine `e` of core `c` leaves of `s`, which it found with EXC_CAUSE free. -/
structure Raised (c e code : Nat) (at_ value : Word) (s t : State) : Prop where
  valid : isSet t (Reg.eng_EXC_CAUSE_VALID c e) = true
  code : getF t (Reg.eng_EXC_CAUSE_CODE c e) = code
  pc : rdWord t (Reg.eng_EXC_PC c e) = at_
  value : rdWord t (Reg.eng_EXC_VALUE c e) = value
  mem : t.mem = s.mem
  fab : t.fab = s.fab
  send : (core t c).send = (core s c).send

section
variable {s : State} {c e code : Nat} (free : isSet s (Reg.eng_EXC_CAUSE_VALID c e) = false) (quiet : (core s c).applying = none)
  (runs : (eng s c e).st ≠ .halted) (small : code < 32)
include free quiet runs small

theorem raised_raiseExc (pc : Nat) (notInstr : Bool) (value : Word) :
    Raised c e code (excPc pc notInstr) value s (raiseExc c e code pc notInstr value s) := by
  have beside {a lo w : Nat} (at_ : a = Reg.eng_EXC_CAUSE c e ∨ a = Reg.eng_EXC_PC c e ∨ a = Reg.eng_EXC_VALUE c e) (word : lo + w ≤ 32) :
      BesideExc c e ⟨a, lo, w⟩ := by
    simp only [Reg.eng_EXC_CAUSE, Reg.eng_EXC_PC, Reg.eng_EXC_VALUE] at at_
    refine ⟨?_, ?_, ?_⟩
    all_goals simp only [BitsApart, Reg.core_FAULT_INFO, Reg.eng_CUR_SLOT_SLOT, Reg.eng_CUR_STEP_STEP]; omega
  have kept {f : FieldRef} (h : BesideExc c e f) := getF_raiseExc (code := code) (pc := pc) (notInstr := notInstr) (value := value) quiet runs h
  obtain ⟨valid, coded, at_, val⟩ := recordExc_spec (code := code) (pc := pc) (notInstr := notInstr) (value := value) free
  obtain ⟨mem, fab, send⟩ := raiseExc_keeps (e := e) (code := code) (pc := pc) (notInstr := notInstr) (value := value) quiet
  have word {a : Nat} (h : a = Reg.eng_EXC_CAUSE c e ∨ a = Reg.eng_EXC_PC c e ∨ a = Reg.eng_EXC_VALUE c e) :
      rdWord (raiseExc c e code pc notInstr value s) a = rdWord (recordExc c e code pc notInstr value s) a :=
    BitVec.eq_of_toNat_eq (by rw [← getF_word, kept (beside h (by decide)), getF_word])
  exact ⟨(isSet_of_getF (kept (beside (.inl rfl) (by decide)))).trans valid,
    (kept (beside (.inl rfl) (by decide))).trans (coded.trans (Nat.mod_eq_of_lt small)),
    (word (.inr (.inl rfl))).trans at_, (word (.inr (.inr rfl))).trans val, mem, fab, send⟩

end

theorem Raised.congr {c e code : Nat} {at_ value : Word} {s t u : State} (h : Raised c e code at_ value s t) (csr : u.csr = t.csr)
    (mem : u.mem = t.mem) (fab : u.fab = t.fab) (cores : u.cores = t.cores) : Raised c e code at_ value s u :=
  ⟨(isSet_congr csr _).trans h.valid, (getF_congr csr _).trans h.code, (rdWord_congr csr _).trans h.pc,
    (rdWord_congr csr _).trans h.value, mem.trans h.mem, fab.trans h.fab, by rw [core, cores]; exact h.send⟩

theorem Raised.settled {c e code : Nat} {at_ value : Word} {s t : State} (h : Raised c e code at_ value s t) :
    Raised c e code at_ value s (sicSettle t) := h.congr (by simp) (by simp) (by simp) (by simp)

section
variable {s : State} {c e code : Nat} {o : Host.Outcome State Fault Refusal} (bound : s.rsvDirty = false)
  (free : isSet s (Reg.eng_EXC_CAUSE_VALID c e) = false) (quiet : (core s c).applying = none) (runs : (eng s c e).st = .run)
include bound free quiet runs

/-- An instruction that raises an exception with a source operand. -/
theorem raised_of_exc (small : code < 32) {v : Word} (run : o = live s (exc c e code v s)) :
    ∃ t, o = .next t ∧ Raised c e code (excPc (eng s c e).pc false) v s t :=
  ⟨_, run.trans (live_next bound _), (raised_raiseExc free quiet (by simp [runs]) small _ _ _).settled⟩

/-- An instruction that raises an exception without one: EXC_VALUE takes a free value. -/
theorem raised_of_excFree (small : code < 32) (run : o = live s (excFree c e code s)) :
    ∃ t, o = .next t ∧ Raised c e code (excPc (eng s c e).pc false) (freeWord s) s t := by
  have raised := raised_raiseExc free quiet (by simp [runs]) small (eng s c e).pc false (freeWord s)
  exact ⟨_, run.trans (live_next bound _), (raised.congr (u := excFree c e code s) rfl rfl rfl rfl).settled⟩

end

end Sys2Proof.Machine
end

section
/-! PROOFS. Loads from and stores to the local stores of a core (R97, R112, R113). -/

namespace Sys2Proof.Machine

/-! ### Loads (R112) -/

theorem loadLocal_writes {s : State} {c e rd ra imm : Nat} (bound : s.rsvDirty = false) (h : Issues s c e [rd, ra]) {n : Nat}
    {f : Nat → Word} (aligned : formBAddr s c e ra imm % n = 0) (inside : formBAddr s c e ra imm < 0x40000)
    (clean : WordsClean s c (storeWords (formBAddr s c e ra imm) n)) {i : Instr}
    (run : exec i s = live s (loadLocal n f c e rd ra imm 0 s)) :
    ∃ t, exec i s = .next t ∧ Writes c e rd (f (getNum s.mem (coreBase c + formBAddr s c e ra imm) n)) s t := by
  refine writes_of_live bound (run.trans ?_)
  simp only [loadLocal, issue_of_issues h, if_neg Bool.false_ne_true, aligned, ne_eq, not_true_eq_false, if_false,
    if_neg (Nat.not_le.mpr inside)]
  rw [show addUpset _ 0 s = s from rfl, localAccess_of_clean clean]
  rfl

/-- Settles O3: each load is the one load with its width and its extension. -/
theorem localLoads : Obligations.LocalLoads := by
  intro s c e rd ra imm bound h o
  have load {n : Nat} {f : Nat → Word} {i : Instr} (run : exec i s = live s (loadLocal n f c e rd ra imm 0 s)) (aligned : o % n = 0)
    (inside : o < 0x40000) (clean : WordsClean s c (storeWords o n)) := loadLocal_writes bound h aligned inside clean run
  simp only [List.forall_mem_cons]
  exact ⟨load rfl, load (f := fun v => (BitVec.ofNat 16 v).signExtend 32) rfl, load rfl,
    load (f := fun v => (BitVec.ofNat 8 v).signExtend 32) rfl, load rfl, List.forall_mem_nil _⟩

/-! ### Words that are written whole (R97) -/

theorem eccAt_clearEcc (v w : Nat) (s : State) : eccAt (clearEcc v s) w = if w = v then 0 else eccAt s w := by
  by_cases here : w = v
  · subst here
    simp [eccAt, clearEcc]
  · simp [eccAt, clearEcc, here, tget_tdel_other 0 here]

theorem eccAt_wroteWhole (c : Nat) (ws : List Nat) (s : State) (w : Nat) :
    eccAt (wroteWhole c ws s) w = if w ∈ ws.map (eccWordOf c) then 0 else eccAt s w := by
  induction ws generalizing s with
  | nil => simp [wroteWhole]
  | cons v r ih =>
    rw [show wroteWhole c (v :: r) s = wroteWhole c r (clearEcc (eccWordOf c v) s) from rfl, ih, eccAt_clearEcc]
    simp only [List.map_cons, List.mem_cons]
    split <;> split <;> simp_all

/-- The state in which an access of `n` bytes at `o` that writes has met its words. -/
def storeMet (c o n : Nat) (s : State) : State := if wholeWords o n then wroteWhole c (storeWords o n) s else s

theorem storeMet_eq (c o n : Nat) (s : State) : storeMet c o n s = { s with ecc := (storeMet c o n s).ecc } := by
  unfold storeMet
  split
  · exact wroteWhole_eq ..
  · rfl

section
variable {s : State} {c o n : Nat} (clean : wholeWords o n = false → WordsClean s c (storeWords o n))
include clean

theorem localUpdate_of_clean (e : Nat) (body : State → State) : localUpdate c e o n body s = body (storeMet c o n s) := by
  unfold localUpdate storeMet
  split
  · rfl
  next part => exact localAccess_of_clean (clean (by simpa using part)) e body

theorem eccAt_storeMet (w : Nat) :
    eccAt (storeMet c o n s) w = if w ∈ (storeWords o n).map (eccWordOf c) then 0 else eccAt s w := by
  unfold storeMet
  split
  · exact eccAt_wroteWhole ..
  next part =>
    split
    next met =>
      obtain ⟨v, in_, rfl⟩ := List.mem_map.mp met
      exact clean (by simpa using part) v in_
    next => rfl

end

/-! ### The bits that a store writes (R52, R113) -/

theorem testBit_masked {v m old k i : Nat} (small : m < 2 ^ k) (hi : i < k) :
    ((v &&& m) ||| (old &&& (2 ^ k - 1 - m))).testBit i = if m.testBit i then v.testBit i else old.testBit i := by
  have rest : 2 ^ k - 1 - m = 2 ^ k - (m + 1) := by omega
  rw [rest, Nat.testBit_or, Nat.testBit_and, Nat.testBit_and, Nat.testBit_two_pow_sub_succ small]
  cases m.testBit i <;> simp [hi]

theorem somaMask_lt (compact : Bool) (e o n : Nat) : somaMask compact e o n < 2 ^ (8 * n) := Nat.mod_lt _ (Nat.two_pow_pos _)

/-- A local store writes `n` bytes: of the soma store only the bits of the mask, elsewhere all. -/
theorem localWrite_spec (c e o n v : Nat) (s : State) :
    ∃ x, localWrite c e o n v s = setMem (setNum (coreBase c + o) n x s.mem) s ∧
      ∀ i, i < 8 * n → x.testBit i = (if 0x20000 ≤ o ∨ (somaMask (isSet s (Reg.core_CORE_CFG_FMT c)) e o n).testBit i then v.testBit i
        else (getNum s.mem (coreBase c + o) n).testBit i) := by
  by_cases soma : o < 0x20000
  · refine ⟨_, by simp only [localWrite, if_pos soma]; rfl, fun i hi => ?_⟩
    rw [testBit_masked (somaMask_lt ..) hi]
    simp only [show ¬0x20000 ≤ o by omega, false_or]
    rfl
  · refine ⟨v, by simp only [localWrite, if_neg soma]; rfl, fun i _ => ?_⟩
    rw [if_pos (.inl (by omega))]

theorem testBit_getNum_setNum (a n v : Nat) (m : Memory) {i : Nat} (hi : i < 8 * n) :
    (getNum (setNum a n v m) a n).testBit i = v.testBit i := by
  rw [testBit_getNum, memBit_setNum, if_pos (by omega), show 8 * a + i - 8 * a = i by omega]
  simp [hi]

/-! ### Stores (R113) -/

/-- What R113 lets an engine write. -/
def StoreArea (e o : Nat) : Prop := (o < 0x20000 ∧ (e = 2 ∨ e = 3)) ∨ (0x32600 ≤ o ∧ o < 0x38000 ∧ (e = 1 ∨ e = 3))

/-- An aligned access of a word, a half or a byte lies whole in the area in which it begins. -/
theorem storeOk_iff {e o n : Nat} (width : n = 4 ∨ n = 2 ∨ n = 1) (aligned : o % n = 0) : storeOk e o n = true ↔ StoreArea e o := by
  have last : o + n ≤ 0x38000 ↔ o < 0x38000 := by
    rcases width with rfl | rfl | rfl <;> omega
  simp only [storeOk, StoreArea, Bool.or_eq_true, Bool.and_eq_true, decide_eq_true_eq, beq_iff_eq, last, and_assoc]

theorem StoreArea.inside {e o : Nat} (h : StoreArea e o) : o < 0x40000 := by
  rcases h with ⟨low, -⟩ | ⟨-, low, -⟩ <;> omega

section
variable {s : State} {c e rd ra imm n : Nat} (bound : s.rsvDirty = false) (h : Issues s c e [rd, ra]) (width : n = 4 ∨ n = 2 ∨ n = 1)
  (aligned : formBAddr s c e ra imm % n = 0) {i : Instr} (run : exec i s = live s (storeLocal n c e rd ra imm s))
include bound h width aligned run

/-- A store that R113 permits. -/
theorem storeLocal_stores {o : Nat} (at_ : formBAddr s c e ra imm = o) (area : StoreArea e o)
    (clean : wholeWords o n = false → WordsClean s c (storeWords o n)) :
    ∃ t, exec i s = .next t ∧ MemKept (coreBase c + o) n s t ∧
      (∀ i, i < 8 * n → (getNum t.mem (coreBase c + o) n).testBit i =
        (if 0x20000 ≤ o ∨ (somaMask (isSet s (Reg.core_CORE_CFG_FMT c)) e o n).testBit i then (regOf s c e rd).toNat.testBit i
          else (getNum s.mem (coreBase c + o) n).testBit i)) ∧
      RegsKept c e [] s t ∧ Retires c e ((eng s c e).pc + 1) s t ∧ (eng t c e).vregs = (eng s c e).vregs ∧
      (∀ w, eccAt t w = (if w ∈ (storeWords o n).map (eccWordOf c) then 0 else eccAt s w)) ∧ OnlyStores s t := by
  have met := storeMet_eq c o n s
  have mem : (storeMet c o n s).mem = s.mem := (congrArg State.mem met :)
  have csr : (storeMet c o n s).csr = s.csr := (congrArg State.csr met :)
  have reg : regOf (storeMet c o n s) c e rd = regOf s c e rd := (congrArg (regOf · c e rd) met :)
  obtain ⟨x, wrote, bits⟩ := localWrite_spec c e o n (regOf s c e rd).toNat (storeMet c o n s)
  rw [isSet_congr csr, mem] at bits
  have effect : exec i s = live s (retire c e (setMem (setNum (coreBase c + o) n x s.mem) (storeMet c o n s))) := by
    rw [run, storeLocal, issue_of_issues h, ← mem, ← wrote, ← reg]
    simp only [at_, at_ ▸ aligned, ne_eq, not_true_eq_false, if_false, Bool.false_eq_true, if_neg (Nat.not_le.mpr area.inside),
      (storeOk_iff width (at_ ▸ aligned)).mpr area, Bool.not_true, localUpdate_of_clean clean]
  obtain ⟨t, next, tmem, tecc, regs, retires, vregs, only⟩ := stores_of_live bound
    (congrArg (setMem (setNum (coreBase c + o) n x s.mem)) met :) effect
  refine ⟨t, next, fun b out => ?_, fun i hi => ?_, regs, retires, vregs, fun w => ?_, only⟩
  · rw [tmem, setMem_mem, getByte_setNum_outside _ _ _ _ out]
  · rw [tmem, setMem_mem, testBit_getNum_setNum _ _ _ _ hi, bits i hi]
  · rw [← eccAt_storeMet clean w, eccAt, tecc]
    rfl

/-- A store that R113 does not permit. -/
theorem storeLocal_denied (inside : formBAddr s c e ra imm < 0x40000) (area : ¬StoreArea e (formBAddr s c e ra imm))
    (free : isSet s (Reg.eng_EXC_CAUSE_VALID c e) = false) (quiet : (core s c).applying = none) :
    ∃ t, exec i s = .next t ∧ Raised c e 5 (excPc (eng s c e).pc false) (BitVec.ofNat 32 (formBAddr s c e ra imm)) s t := by
  refine raised_of_exc bound free quiet (run_of_canIssue h.1) (by decide) (run.trans ?_)
  have no : storeOk e (formBAddr s c e ra imm) n = false := by
    rw [← Bool.not_eq_true, storeOk_iff width aligned]
    exact area
  rw [storeLocal, issue_of_issues h]
  simp only [aligned, ne_eq, not_true_eq_false, if_false, Bool.false_eq_true, if_neg (Nat.not_le.mpr inside), no, Bool.not_false, if_true]

end

/-- Settles O4: the three stores are one store with its width, permitted or denied. -/
theorem localStores : Obligations.LocalStores := by
  refine ⟨fun s c e rd ra imm bound h => ?_, fun s c e rd ra imm bound h free quiet => ?_⟩
  · intro o a
    have store {n : Nat} {i : Instr} (width : n = 4 ∨ n = 2 ∨ n = 1) (run : exec i s = live s (storeLocal n c e rd ra imm s))
        (aligned : o % n = 0) (clean : wholeWords o n = false → WordsClean s c (storeWords o n)) (area : StoreArea e o) :=
      storeLocal_stores bound h width aligned run rfl area clean
    simp only [List.forall_mem_cons]
    exact ⟨store (by decide) rfl, store (by decide) rfl, store (by decide) rfl, List.forall_mem_nil _⟩
  · intro o
    have denied {n : Nat} {i : Instr} (width : n = 4 ∨ n = 2 ∨ n = 1) (run : exec i s = live s (storeLocal n c e rd ra imm s))
        (aligned : o % n = 0) (inside : o < 0x40000) (area : ¬StoreArea e o) : ∃ t, exec i s = .next t ∧ t.mem = s.mem ∧
          getF t (Reg.eng_EXC_CAUSE_CODE c e) = 5 ∧ isSet t (Reg.eng_EXC_CAUSE_VALID c e) = true ∧
          rdWord t (Reg.eng_EXC_PC c e) = BitVec.ofNat 32 ((eng s c e).pc % 4096) := by
      obtain ⟨t, next, raised⟩ := storeLocal_denied bound h width aligned run inside area free quiet
      exact ⟨t, next, raised.mem, raised.code, raised.valid, raised.pc⟩
    simp only [List.forall_mem_cons]
    exact ⟨denied (by decide) rfl, denied (by decide) rfl, denied (by decide) rfl, List.forall_mem_nil _⟩

end Sys2Proof.Machine
end

section
/-! PROOFS. Refutations by a run: a state in which an exception ends the boundary sequence of a learning set that no core has
(R117, R123, R140, R269). -/

namespace Sys2Proof.Machine

/-- Engine 3 of core 0 stands at an instruction, and the boundary sequence of "set 72" has been applied and awaits the end of the
engine's handler. A core has four sets, so that no command is known to lead to it; INNINGS_DONE_COUNT of a set 72 would stand where
EXC_CAUSE of engine 3 stands. -/
def strayBoundary : State := modCore 0 (fun k => { k with applying := some 72, applied := true }) (Tests.run 0 3 [] .reset)

theorem strayBoundary_issues : Bound strayBoundary ∧ Issues strayBoundary 0 3 [0, 0, 0] ∧ Issues strayBoundary 0 3 [0] ∧
    isSet strayBoundary (Reg.eng_EXC_CAUSE_VALID 0 3) = false := by
  unfold Bound Issues WordsClean; decide +kernel

theorem swait_strayBoundary_code : Leaves (exec (.swait 0 3 0 0 0 64) strayBoundary) (fun t =>
    getF t (Reg.eng_EXC_CAUSE_CODE 0 3) == 2) = true := by decide +kernel

theorem csrw_strayBoundary_code : Leaves (exec (.csrw 0 3 0 0 8) strayBoundary) (fun t =>
    getF t (Reg.eng_EXC_CAUSE_CODE 0 3) == 6) = true := by decide +kernel

/-- Refutes O9: its exceptions are claimed in every bound state, so in one whose boundary sequence is of no set that a core has. The
exception ends the handler and with it the sequence, whose count of innings is EXC_CAUSE of the engine here: the SWAIT with imm8[6] set
raises ILLEGAL, and CODE reads 2. -/
theorem not_semaphoreRange : ¬ Obligations.SemaphoreRange := by
  unfold Obligations.SemaphoreRange
  intro h
  obtain ⟨clean, issues, -, free⟩ := strayBoundary_issues
  obtain ⟨t, run, -, -, -, -, code⟩ := (h strayBoundary 0 3 0 0 0 64 clean issues (by decide)).1 (by decide) _ List.mem_cons_self
  have moved := leaves_of_next run swait_strayBoundary_code
  rw [code free] at moved
  exact absurd moved (by decide)

/-- Refutes O12: the denied CSRW is claimed of the same state, and raises STORE_DENIED there (5), after which CODE reads 6. -/
theorem not_csrForms : ¬ Obligations.CsrForms := by
  unfold Obligations.CsrForms
  intro h
  obtain ⟨clean, -, issues, free⟩ := strayBoundary_issues
  obtain ⟨-, -, denied⟩ := (h strayBoundary 0 3 0 8 clean (by decide)).1 issues (by decide)
  obtain ⟨t, run, -, -, code, -⟩ := denied (.inr (.inl rfl))
  have moved := leaves_of_next run csrw_strayBoundary_code
  rw [code free] at moved
  exact absurd moved (by decide)

end Sys2Proof.Machine
end

section
/-! PROOFS. The lanes of vector registers, and the vector register instructions (R119). -/

namespace Sys2Proof.Machine

/-! ### One lane -/

section
variable (c e d i : Nat) (x : Word) (s : State)

theorem vlane_setVlane {v j : Nat} (hi : i < 16) (hj : j < 16) :
    vlane (setVlane c e d i x s) c e v j = if v = d ∧ j = i then x else vlane s c e v j := by
  simp only [vlane, setVlane, modEng_def, eng_setEng_same]
  by_cases here : v = d ∧ j = i
  · rw [if_pos here, here.1, here.2, tget_tset_same]
  · rw [if_neg here, tget_tset_other _ (by omega)]

@[simp] theorem regOf_setVlane (r : Nat) : regOf (setVlane c e d i x s) c e r = regOf s c e r := by
  simp [regOf, setVlane]

theorem EngsOnly.setVlane : EngsOnly s (setVlane c e d i x s) := rfl

end

/-! ### The lanes that a condition names -/

/-- The lanes of `d` that `on` names take the values of `f`. -/
def lanesWritten (c e d : Nat) (on : Nat → Bool) (f : Nat → Word) (l : List Nat) (s : State) : State :=
  l.foldl (fun t j => if on j then setVlane c e d j (f j) t else t) s

theorem setLanes_eq (c e d : Nat) (f : Nat → Word) (s : State) :
    setLanes c e d f s = lanesWritten c e d (laneOn s c e) f (List.range 16) s := rfl

section
variable (c e d : Nat) (on : Nat → Bool) (f : Nat → Word)

/-- Whatever each write of a lane keeps, the writes of lanes keep. -/
theorem lanesWritten_keeps {P : State → State → Prop} (refl : ∀ s, P s s) (trans : ∀ {s t u}, P s t → P t u → P s u)
    (one : ∀ i x s, P s (setVlane c e d i x s)) (l : List Nat) (s : State) : P s (lanesWritten c e d on f l s) := by
  induction l generalizing s with
  | nil => exact refl s
  | cons i r ih =>
    refine trans (t := if on i then setVlane c e d i (f i) s else s) ?_ (ih _)
    split
    · exact one ..
    · exact refl s

theorem filesOnly_lanesWritten (l : List Nat) (s : State) : FilesOnly c e s (lanesWritten c e d on f l s) :=
  lanesWritten_keeps c e d on f (.refl c e) .trans (.setVlane c e d) l s

theorem engsOnly_lanesWritten (l : List Nat) (s : State) : EngsOnly s (lanesWritten c e d on f l s) :=
  lanesWritten_keeps c e d on f .refl .trans (.setVlane c e d) l s

theorem regOf_lanesWritten (l : List Nat) (s : State) (r : Nat) : regOf (lanesWritten c e d on f l s) c e r = regOf s c e r :=
  lanesWritten_keeps c e d on f (P := fun s t => regOf t c e r = regOf s c e r) (fun _ => rfl) (fun h k => k.trans h)
    (fun _ _ _ => regOf_setVlane ..) l s

theorem vlane_lanesWritten {l : List Nat} (small : ∀ i ∈ l, i < 16) (s : State) {v j : Nat} (hj : j < 16) :
    vlane (lanesWritten c e d on f l s) c e v j = if v = d ∧ on j = true ∧ j ∈ l then f j else vlane s c e v j := by
  induction l generalizing s with
  | nil => simp [lanesWritten]
  | cons i r ih =>
    obtain ⟨hi, rest⟩ := List.forall_mem_cons.mp small
    rw [show lanesWritten c e d on f (i :: r) s = lanesWritten c e d on f r (if on i then setVlane c e d i (f i) s else s) from rfl, ih rest]
    simp only [List.mem_cons]
    by_cases later : v = d ∧ on j = true ∧ j ∈ r
    · rw [if_pos later, if_pos ⟨later.1, later.2.1, .inr later.2.2⟩]
    · rw [if_neg later]
      by_cases oni : on i = true
      · rw [if_pos oni, vlane_setVlane c e d i _ s hi hj]
        by_cases here : v = d ∧ j = i
        · rw [if_pos here, if_pos ⟨here.1, here.2 ▸ oni, .inl here.2⟩, here.2]
        · rw [if_neg here, if_neg (by tauto)]
      · rw [if_neg oni, if_neg]
        rintro ⟨same, onj, rfl | in_⟩
        · exact oni onj
        · exact later ⟨same, onj, in_⟩

theorem vlane_lanesWritten_range (s : State) {v j : Nat} (hj : j < 16) :
    vlane (lanesWritten c e d on f (List.range 16) s) c e v j = if v = d ∧ on j = true then f j else vlane s c e v j := by
  rw [vlane_lanesWritten c e d on f (by simp) s hj]
  simp [hj]

end

/-! ### Instructions that write the enabled lanes of a vector register, and retire -/

/-- The state after an instruction that wrote the enabled lanes of `vd` and retired. -/
def WritesLanes (c e vd : Nat) (f : Nat → Word) (s t : State) : Prop :=
  (∀ v j, v < 16 → j < 16 → vlane t c e v j =
    (if v = vd ∧ (getF s (Reg.eng_VMASK_LANES c e)).testBit j then f j else vlane s c e v j)) ∧
  RegsKept c e [] s t ∧ Retires c e ((eng s c e).pc + 1) s t ∧ OnlyEngs s t

section
variable {s : State} {c e : Nat} {o : Host.Outcome State Fault Refusal} (bound : s.rsvDirty = false)
include bound

theorem writesLanes_of_live {vd : Nat} {f : Nat → Word} (run : o = live s (retire c e (setLanes c e vd f s))) :
    ∃ t, o = .next t ∧ WritesLanes c e vd f s t := by
  rw [setLanes_eq] at run
  refine ⟨_, run.trans (live_next bound _), fun v j _ hj => ?_, fun r _ => ?_, (filesOnly_lanesWritten ..).retires_next,
    onlyEngs_settled ((engsOnly_lanesWritten ..).trans (.retireTo ..))⟩
  · rw [vlane_sicSettle, retire_eq_retireTo, vlane_retireTo, vlane_lanesWritten_range c e vd _ f s hj]
    rfl
  · rw [regOf_sicSettle, retire_eq_retireTo, regOf_retireTo, regOf_lanesWritten]

theorem setVlane_of_live {d i : Nat} {x : Word} (hi : i < 16) (run : o = live s (retire c e (setVlane c e d i x s))) :
    ∃ t, o = .next t ∧ (∀ v j, v < 16 → j < 16 → vlane t c e v j = (if v = d ∧ j = i then x else vlane s c e v j)) ∧
      RegsKept c e [] s t ∧ Retires c e ((eng s c e).pc + 1) s t ∧ OnlyEngs s t := by
  refine ⟨_, run.trans (live_next bound _), fun v j _ hj => ?_, fun r _ => ?_, (FilesOnly.setVlane ..).retires_next,
    onlyEngs_settled ((EngsOnly.setVlane ..).trans (.retireTo ..))⟩
  · rw [vlane_sicSettle, retire_eq_retireTo, vlane_retireTo, vlane_setVlane _ _ _ _ _ _ hi hj]
  · rw [regOf_sicSettle, retire_eq_retireTo, regOf_retireTo, regOf_setVlane]

end

/-! ### The vector operations -/

theorem vecEngine_of {e : Nat} (h : e = 1 ∨ e = 3) : (!vecEngine e) = false := by
  rcases h with rfl | rfl <;> rfl

theorem wSat_eq (w : Nat) (a : Word) : wSat w a = BitVec.ofInt 32 (max (-(2 ^ (w - 1) : Int)) (min (2 ^ (w - 1) - 1) a.toInt)) := by
  have pos : 0 < 2 ^ (w - 1) := Nat.two_pow_pos _
  have order : -((2 ^ (w - 1) : Nat) : Int) ≤ ((2 ^ (w - 1) : Nat) : Int) - 1 := by omega
  rw [wSat, satS, clampInt_eq order]
  push_cast
  rfl

theorem foldl_enabled_eq_sum (on : Nat → Bool) (x : Nat → Word) (l : List Nat) (a : Word) :
    l.foldl (fun v j => if on j then v + x j else v) a = a + (l.map (fun j => if on j then x j else 0)).sum := by
  induction l generalizing a with
  | nil => simp
  | cons i r ih =>
    rw [List.foldl_cons, ih, List.map_cons, List.sum_cons]
    split
    · rw [BitVec.add_assoc]
    · rw [zero_add]

section
variable {s : State} {c e vd va vb rs : Nat} (bound : s.rsvDirty = false)
include bound

theorem vecOp_writes (vector : e = 1 ∨ e = 3) (h : Issues s c e [100 + vd, 100 + va, 100 + vb, rs]) {f : State → Nat → Word} {g : Nat → Word} {illegal : Bool}
    (legal : illegal = false) {i : Instr} (run : exec i s = live s (vecOp f illegal c e vd va vb rs s)) (val : f s = g) :
    ∃ t, exec i s = .next t ∧ WritesLanes c e vd g s t := by
  refine writesLanes_of_live bound (run.trans ?_)
  rw [vecOp, issue_of_issues h, legal, vecEngine_of vector, if_neg (by decide), val]

end

/-- Settles O6: each operation's lanes by its definition, and the rest by the rule of an instruction that writes lanes and retires. -/
theorem vectorForms : Obligations.VectorForms := by
  refine ⟨fun s c e vd va vb rs bound h vector _ => ?_, fun s c e vd va vb rs bound vector lane _ => ⟨fun h => ⟨?_, ?_⟩, fun h => ?_⟩⟩
  · intro x y r
    have op {f : State → Nat → Word} {g : Nat → Word} {illegal : Bool} {i : Instr} (legal : illegal = false)
      (run : exec i s = live s (vecOp f illegal c e vd va vb rs s)) (val : ∀ j, f s j = g j) :=
      vecOp_writes bound vector h legal run (funext val)
    simp only [List.forall_mem_append]
    refine ⟨⟨⟨?_, ?_⟩, ?_⟩, ?_⟩
    · split
      next zero =>
        have legal : (rs != 0) = false := by simp [zero]
        simp only [List.forall_mem_cons]
        exact ⟨op legal rfl fun _ => rfl, op legal rfl fun _ => rfl, op legal rfl fun _ => rfl, op legal rfl fun _ => wMin_eq _ _,
          op legal rfl fun _ => wMax_eq _ _, op legal rfl fun _ => rfl, op legal rfl fun _ => rfl, List.forall_mem_nil _⟩
      next => exact List.forall_mem_nil _
    · split
      next zero =>
        have legal : (vb != 0) = false := by simp [zero]
        simp only [List.forall_mem_cons]
        exact ⟨op legal rfl fun _ => rfl, op legal rfl fun _ => rfl, op legal rfl fun _ => rfl, List.forall_mem_nil _⟩
      next => exact List.forall_mem_nil _
    · split
      next width =>
        rw [List.forall_mem_singleton]
        have legal : (vb != 0 || !([4, 8, 16, 24, 32].contains r.toNat)) = false := by
          rw [width.1, List.contains_iff_mem.mpr width.2]
          rfl
        exact op legal rfl fun _ => wSat_eq _ _
      next => exact List.forall_mem_nil _
    · split
      next zero =>
        rw [List.forall_mem_singleton]
        exact op (by simp [zero.1, zero.2]) rfl fun _ => rfl
      next => exact List.forall_mem_nil _
  · refine writes_of_live bound ?_
    show execVext c e 0 va vb rs s = _
    rw [execVext, issue_of_issues h, vecEngine_of vector]
    rfl
  · have sum := foldl_enabled_eq_sum (laneOn s c e) (vlane s c e va) (List.range 16) 0
    rw [zero_add] at sum
    refine writes_of_live bound ?_
    show execVred c e 0 va 0 rs s = _
    rw [execVred, issue_of_issues h, vecEngine_of vector, sum]
    rfl
  · refine setVlane_of_live bound lane ?_
    show execVins c e vd 0 vb rs s = _
    rw [execVins, issue_of_issues h, vecEngine_of vector]
    rfl

end Sys2Proof.Machine
end

section
/-! PROOFS. Slice loads and stores, and the slice's answers (R114, R120). -/

namespace Sys2Proof.Machine

/-! ### The issue of a slice access -/

/-- The fabric after engine `e` of core `c` has sent a slice access. -/
def fabSent (s : State) (c e off : Nat) (op : SliceOp) : Fabric :=
  { s.fab with waiting := s.fab.waiting ++ [slicePacket s c e off op], tag := s.fab.tag + 1 }

/-- The state after an instruction that sent a slice access, noted in the engine's reads and stores, and retired. -/
structure Sends (c e off : Nat) (op : SliceOp) (reads : List SliceRead) (posted : List Posted) (s t : State) : Prop where
  engine : eng t c e = { eng s c e with pc := (eng s c e).pc + 1, reads := reads, posted := posted }
  fab : t.fab = fabSent s c e off op
  only : OnlyFabric s t

section
variable {s t : State} {c e off : Nat} {op : SliceOp} {reads : List SliceRead} {posted : List Posted}

theorem Sends.regs (h : Sends c e off op reads posted s t) : RegsKept c e [] s t := fun r _ => by rw [regOf, h.engine, regOf]

theorem sends_of_live {o : Host.Outcome State Fault Refusal} (bound : s.rsvDirty = false)
    (run : o = live s (retire c e (postSlice c e off op (setEng c e { eng s c e with reads := reads, posted := posted } s)))) :
    ∃ t, o = .next t ∧ Sends c e off op reads posted s t := by
  have own : eng (postSlice c e off op (setEng c e { eng s c e with reads := reads, posted := posted } s)) c e =
      { eng s c e with reads := reads, posted := posted } := eng_setEng_same ..
  refine ⟨_, run.trans (live_next bound _), ?_, ?_, ?_⟩
  · rw [eng_sicSettle, retire_eq_retireTo, eng_retireTo_same, own]
  · rw [sicSettle_fab, retire_eq_retireTo, retireTo_fab]
    rfl
  · refine onlyFabric_settled ?_
    have ret := EngsOnly.retireTo c e ((eng s c e).pc + 1) (postSlice c e off op (setEng c e { eng s c e with reads := reads, posted := posted } s))
    rw [retire_eq_retireTo, own, retireTo_fab]
    exact ret

end

section
variable {s : State} {c e n : Nat} {uses : List Nat} {x : Word} {i : Instr} {illegal : Bool} (bound : s.rsvDirty = false) (h : Issues s c e uses)
  (legal : illegal = false) {off : Nat} (aligned : off % n = 0) {effect body : State → State}
  (run : exec i s = live s (issue c e uses illegal x effect s)) (access : effect s = sliceIssue n off c e body s)
include bound h legal aligned run access

/-- An access in the view. -/
theorem sliceIssue_sends (inView : off < viewLen s.variant) {op : SliceOp} {reads : List SliceRead} {posted : List Posted}
    (does : body s = retire c e (postSlice c e off op (setEng c e { eng s c e with reads := reads, posted := posted } s))) :
    ∃ t, exec i s = .next t ∧ Sends c e off op reads posted s t := by
  refine sends_of_live bound (run.trans ?_)
  rw [issue_of_issues h, legal, if_neg Bool.false_ne_true, access, sliceIssue, if_neg (by simp [aligned]), if_neg (by omega), does]

/-- An access beyond the view. -/
theorem sliceIssue_raises (beyond : viewLen s.variant ≤ off) (free : isSet s (Reg.eng_EXC_CAUSE_VALID c e) = false)
    (quiet : (core s c).applying = none) :
    ∃ t, exec i s = .next t ∧ Raised c e 4 (excPc (eng s c e).pc false) (BitVec.ofNat 32 off) s t := by
  refine raised_of_exc bound free quiet (run_of_canIssue h.1) (by decide) (run.trans ?_)
  rw [issue_of_issues h, legal, if_neg Bool.false_ne_true, access, sliceIssue, if_neg (by simp [aligned]), if_pos beyond]

end

/-! ### The slice's answers -/

section
variable {s : State} {c e : Nat} {vector : Bool} {body : SliceRead → Nat → State → State} {r : SliceRead} {a : Option Nat} {l : List SliceRead}

theorem readResponse_of_still (still : engRuns s c = false) : readResponse vector c e body s = s := by
  rw [readResponse, still]
  rfl

theorem readResponse_of_taken (runs : engRuns s c = true) (taken : takeRead vector (eng s c e).reads = some (r, a, l)) :
    readResponse vector c e body s = match a with
      | some v => body r v (setEng c e { eng s c e with reads := l } s)
      | none => raiseExc c e 6 r.pc false (BitVec.ofNat 32 r.off) (setEng c e { eng s c e with reads := l } s) := by
  simp only [readResponse, runs, if_true, taken]
  cases a <;> rfl

end

/-- Settles O5: the accesses by the rule of an access in the view or beyond it, and the answers by the read that is taken. -/
theorem sliceLoadsAndStores : Obligations.SliceLoadsAndStores := by
  refine ⟨fun s c e rd ra imm bound h => ?_, fun s c e bound => ⟨fun still => ?_, fun runs => ⟨fun r v l => ⟨fun taken => ?_, fun taken => ?_⟩,
    fun r l => ⟨fun taken => ?_, fun taken => ?_⟩, fun pc off l err => ⟨fun at_ => ?_, fun away => ?_⟩⟩⟩⟩
  · intro o sent aligned
    refine ⟨fun inView => ⟨?_, ?_⟩, fun beyond free quiet => ?_⟩
    · obtain ⟨t, next, sends⟩ := sliceIssue_sends (i := .lws c e rd ra imm) bound h rfl aligned rfl rfl inView rfl
      exact ⟨t, next, by rw [sends.engine], sends.fab, by rw [sends.engine], by rw [sends.engine], sends.regs, sends.only⟩
    · obtain ⟨t, next, sends⟩ := sliceIssue_sends (i := .sws c e rd ra imm) bound h rfl aligned rfl rfl inView rfl
      exact ⟨t, next, by rw [sends.engine], sends.fab, by rw [sends.engine], by rw [sends.engine], sends.regs, sends.only⟩
    · have raises {i : Instr} {effect body : State → State} (run : exec i s = live s (issue c e [rd, ra] false (regOf s c e ra) effect s))
          (access : effect s = sliceIssue 4 o c e body s) : ∃ t, exec i s = .next t ∧ getF t (Reg.eng_EXC_CAUSE_CODE c e) = 4 ∧ t.mem = s.mem := by
        obtain ⟨t, next, raised⟩ := sliceIssue_raises bound h rfl aligned run access beyond free quiet
        exact ⟨t, next, raised.code, raised.mem⟩
      simp only [List.forall_mem_cons]
      exact ⟨raises rfl rfl, raises rfl rfl, List.forall_mem_nil _⟩
  · simp only [List.forall_mem_cons]
    refine ⟨?_, ?_, ?_, List.forall_mem_nil _⟩
    · show live s (readResponse ..) = _
      rw [readResponse_of_still still, live_next bound]
    · show live s (readResponse ..) = _
      rw [readResponse_of_still still, live_next bound]
    · show execSwsError c e s = _
      rw [execSwsError, still, live_next bound]
      cases (eng s c e).storeErr <;> simp
  · have run : exec (.lwsResponse c e) s = live s (setReg c e r.dst (BitVec.ofNat 32 v) (setEng c e { eng s c e with reads := l } s)) :=
      congrArg (live s) (readResponse_of_taken runs taken)
    refine ⟨_, run.trans (live_next bound _), ?_, ?_, fun i out => ?_, ?_, ?_, onlyEngs_settled ((EngsOnly.setEng ..).trans (.setReg ..))⟩
    · rw [regOf_sicSettle, regOf_setReg, if_pos rfl]
    · rw [eng_sicSettle, eng_setReg, eng_setEng_same]
    · rw [regOf_sicSettle, regOf_setReg, if_neg (by simpa using out), regOf, eng_setEng_same, regOf]
    · rw [eng_sicSettle, eng_setReg, eng_setEng_same]
    · rw [eng_sicSettle, eng_setReg, eng_setEng_same]
  · have run : exec (.vldsResponse c e) s = live s (lanesWritten c e r.dst (bitN r.mask) (fun j => BitVec.ofNat 32 (v / 2 ^ (32 * j)))
        (List.range 16) (setEng c e { eng s c e with reads := l } s)) := congrArg (live s) (readResponse_of_taken runs taken)
    have files := filesOnly_lanesWritten c e r.dst (bitN r.mask) (fun j => BitVec.ofNat 32 (v / 2 ^ (32 * j)))
        (List.range 16) (setEng c e { eng s c e with reads := l } s)
    refine ⟨_, run.trans (live_next bound _), ?_, fun d j _ hj => ?_, fun i _ => ?_, ?_,
      onlyEngs_settled ((EngsOnly.setEng ..).trans (engsOnly_lanesWritten ..))⟩
    · rw [eng_sicSettle, files.engine, eng_setEng_same]
    · rw [vlane_sicSettle, vlane_lanesWritten_range _ _ _ _ _ _ hj]
      simp only [vlane, eng_setEng_same]
      rfl
    · rw [regOf_sicSettle, regOf_lanesWritten, regOf, eng_setEng_same, regOf]
    · rw [eng_sicSettle, files.engine, eng_setEng_same]
  · exact (congrArg (live s) (readResponse_of_taken runs taken)).trans (live_next bound _)
  · exact (congrArg (live s) (readResponse_of_taken runs taken)).trans (live_next bound _)
  · show execSwsError c e s = _
    simp only [execSwsError, err, at_, runs, Bool.and_true, if_true, live_next bound]
  · show execSwsError c e s = _
    simp only [execSwsError, err, away, Bool.false_and, Bool.false_eq_true, if_false, live_next bound]

end Sys2Proof.Machine
end

section
/-! PROOFS. Vector loads and stores (R89, R97, R120, R121). -/

namespace Sys2Proof.Machine

/-! ### Lanes in memory -/

/-- Memory after a write of each lane that `on` names. -/
def memLanes (on : Nat → Bool) (write : Nat → Memory → Memory) (l : List Nat) (m : Memory) : Memory :=
  l.foldl (fun m j => if on j then write j m else m) m

theorem foldl_setMem_eq (on : Nat → Bool) (write : Nat → Memory → Memory) (l : List Nat) (u : State) :
    l.foldl (fun w j => if on j then setMem (write j w.mem) w else w) u = setMem (memLanes on write l u.mem) u := by
  induction l generalizing u with
  | nil => rfl
  | cons i r ih =>
    rw [List.foldl_cons, ih]
    cases h : on i <;> simp [memLanes, h, setMem]

/-- Each lane reads as it was written, or as before. -/
theorem memLanes_lane {on : Nat → Bool} {write : Nat → Memory → Memory} {read : Memory → Nat → Nat} {val : Nat → Nat}
    (one : ∀ j i m, read (write j m) i = if i = j then val j else read m i) (l : List Nat) (m : Memory) (i : Nat) :
    read (memLanes on write l m) i = if on i ∧ i ∈ l then val i else read m i := by
  induction l generalizing m with
  | nil => simp [memLanes]
  | cons j r ih =>
    rw [show memLanes on write (j :: r) m = memLanes on write r (if on j then write j m else m) from rfl, ih]
    by_cases later : on i ∧ i ∈ r
    · rw [if_pos later, if_pos ⟨later.1, List.mem_cons_of_mem _ later.2⟩]
    · rw [if_neg later]
      by_cases here : i = j
      · subst here
        cases h : on i <;> simp [one]
      · have same : read (if on j then write j m else m) i = read m i := by
          split
          · rw [one, if_neg here]
          · rfl
        rw [same, if_neg]
        rintro ⟨oni, in_⟩
        exact later ⟨oni, (List.mem_cons.mp in_).resolve_left here⟩

theorem memLanes_outside {on : Nat → Bool} {write : Nat → Memory → Memory} {l : List Nat} {b : Nat}
    (one : ∀ j ∈ l, ∀ m, getByte (write j m) b = getByte m b) (m : Memory) : getByte (memLanes on write l m) b = getByte m b := by
  induction l generalizing m with
  | nil => rfl
  | cons j r ih =>
    obtain ⟨first, rest⟩ := List.forall_mem_cons.mp one
    rw [show memLanes on write (j :: r) m = memLanes on write r (if on j then write j m else m) from rfl, ih rest]
    split
    · exact first m
    · rfl

/-! ### Words, bytes and nibbles as lanes -/

theorem getNum_one (m : Memory) (a : Nat) : getNum m a 1 = (getByte m a).toNat := by simp [getNum, getBytes, ofBytes]

theorem getByte_setNum_one (m : Memory) (a v b : Nat) : (getByte (setNum a 1 v m) b).toNat = if b = a then v % 256 else (getByte m b).toNat := by
  split
  next here => rw [here, ← getNum_one, getNum_setNum, pow_one]
  next other => rw [getByte_setNum_outside _ _ _ _ (by omega)]

theorem getNum_lane (a k v j i : Nat) (m : Memory) :
    getNum (setNum (a + k * j) k v m) (a + k * i) k = if i = j then v % 256 ^ k else getNum m (a + k * i) k := by
  split
  next here => rw [here, getNum_setNum]
  next other =>
    refine getNum_setNum_outside _ _ _ _ _ ?_ m
    rcases Nat.lt_or_gt_of_ne other with less | more
    · exact .inl (by have := Nat.mul_le_mul_left k (Nat.succ_le_of_lt less); rw [Nat.mul_succ] at this; omega)
    · exact .inr (by have := Nat.mul_le_mul_left k (Nat.succ_le_of_lt more); rw [Nat.mul_succ] at this; omega)

/-- Nibble `i` of the bytes at `a` (R89). -/
def nibbleAt (a : Nat) (m : Memory) (i : Nat) : Nat := (getByte m (a + i / 2)).toNat / (if i % 2 = 0 then 1 else 16) % 16

/-- The byte at `a` with its low or its high nibble replaced. -/
def withNibble (m : Memory) (a j x : Nat) : Nat :=
  let old := getNum m a 1
  if j % 2 = 0 then old / 16 * 16 + x % 16 else old % 16 + 16 * (x % 16)

theorem nibbleAt_setNum (a x j i : Nat) (m : Memory) :
    nibbleAt a (setNum (a + j / 2) 1 (withNibble m (a + j / 2) j x) m) i = if i = j then x % 16 else nibbleAt a m i := by
  have byte : (getByte m (a + j / 2)).toNat < 256 := (getByte m (a + j / 2)).isLt
  simp only [nibbleAt, getByte_setNum_one, withNibble, getNum_one]
  by_cases here : i / 2 = j / 2
  · rw [if_pos (by omega), here]
    split <;> split <;> split <;> omega
  · have apart : i ≠ j := fun same => here (congrArg (· / 2) same)
    have place : a + i / 2 ≠ a + j / 2 := by omega
    simp only [if_neg apart, if_neg place]

theorem getByte_eq_nibbles (a : Nat) (m : Memory) (j : Nat) :
    (getByte m (a + j)).toNat = nibbleAt a m (2 * j) + 16 * nibbleAt a m (2 * j + 1) := by
  have byte : (getByte m (a + j)).toNat < 256 := (getByte m (a + j)).isLt
  have even : 2 * j / 2 = j ∧ 2 * j % 2 = 0 := by omega
  have odd : (2 * j + 1) / 2 = j ∧ (2 * j + 1) % 2 = 1 := by omega
  simp only [nibbleAt, even, odd, if_true, if_neg (by decide : ¬1 = 0)]
  omega

theorem nibbleAt_even (a : Nat) (m : Memory) (j : Nat) : nibbleAt a m (2 * j) = (getByte m (a + j)).toNat % 16 := by
  rw [nibbleAt, if_pos (by omega), show 2 * j / 2 = j by omega, Nat.div_one]

theorem nibbleAt_odd (a : Nat) (m : Memory) (j : Nat) : nibbleAt a m (2 * j + 1) = (getByte m (a + j)).toNat / 16 := by
  have byte : (getByte m (a + j)).toNat < 256 := (getByte m (a + j)).isLt
  rw [nibbleAt, if_neg (by omega), show (2 * j + 1) / 2 = j by omega]
  omega

/-! ### Loads -/

section
variable {s : State} {c e : Nat} (bound : s.rsvDirty = false) (vector : e = 1 ∨ e = 3)
include bound vector

theorem vecLoad_writes {vd rs n : Nat} (h : Issues s c e [100 + vd, rs]) {f : Memory → Nat → Nat → Word} {i : Instr}
    (run : exec i s = live s (vecLoad n f c e vd 0 0 rs s)) {g : Nat → Word} (val : f s.mem (coreBase c + (regOf s c e rs).toNat) = g)
    (aligned : (regOf s c e rs).toNat % n = 0) (inside : (regOf s c e rs).toNat < 0x40000)
    (clean : WordsClean s c (storeWords (regOf s c e rs).toNat n)) : ∃ t, exec i s = .next t ∧ WritesLanes c e vd g s t := by
  refine writesLanes_of_live bound (run.trans ?_)
  rw [vecLoad, issue_of_issues h, vecEngine_of vector, if_neg (by decide), vecLocal, if_neg (by simp [aligned]), if_neg (by omega),
    if_neg (by decide), localAccess_of_clean clean, val]

/-! ### Stores -/

/-- A vector store to the kernel area whose lanes are each one write of memory. -/
theorem vecStore_stores {va rs n : Nat} (h : Issues s c e [100 + va, rs]) {f : Nat → Nat → Word → State → State} {i : Instr}
    (run : exec i s = live s (vecStore n f c e 0 va 0 rs s)) (aligned : (regOf s c e rs).toNat % n = 0)
    (low : 0x32600 ≤ (regOf s c e rs).toNat) (high : (regOf s c e rs).toNat + n ≤ 0x38000) (some_ : 0 < n)
    (clean : WordsClean s c (storeReads s c e (regOf s c e rs).toNat n)) (write : Nat → Memory → Memory)
    (lane : ∀ j w, f (regOf s c e rs).toNat j (vlane s c e va j) w = setMem (write j w.mem) w)
    (outside : ∀ j ∈ List.range 16, ∀ b m, (b < coreBase c + (regOf s c e rs).toNat ∨ coreBase c + (regOf s c e rs).toNat + n ≤ b) →
      getByte (write j m) b = getByte m b) :
    ∃ t, exec i s = .next t ∧ t.mem = memLanes (laneOn s c e) write (List.range 16) s.mem ∧
      MemKept (coreBase c + (regOf s c e rs).toNat) n s t ∧
      RegsKept c e [] s t ∧ Retires c e ((eng s c e).pc + 1) s t ∧ OnlyStores s t := by
  have ok : storeOk e (regOf s c e rs).toNat n = true := by
    simp only [storeOk, Bool.or_eq_true, Bool.and_eq_true, decide_eq_true_eq, beq_iff_eq]
    exact .inr ⟨⟨low, high⟩, vector⟩
  have whole := wroteWhole_eq c (storeWhole s c e (regOf s c e rs).toNat n) s
  have on : laneOn (wroteWhole c (storeWhole s c e (regOf s c e rs).toNat n) s) c e = laneOn s c e :=
    funext fun j => congrArg (bitN · j) (getF_congr (wroteWhole_csr ..) _)
  have lanes : vlane (wroteWhole c (storeWhole s c e (regOf s c e rs).toNat n) s) c e va = vlane s c e va :=
    (congrArg (vlane · c e va) whole :)
  have effect : exec i s = live s (retire c e (setMem (memLanes (laneOn s c e) write (List.range 16) s.mem)
      (wroteWhole c (storeWhole s c e (regOf s c e rs).toNat n) s))) := by
    rw [run, vecStore, issue_of_issues h, vecEngine_of vector, if_neg (by decide), vecLocal, if_neg (by simp [aligned]), if_neg (by omega),
      if_pos rfl, ok, if_neg (by decide), localWords_of_clean clean, on, lanes]
    simp only [lane]
    rw [foldl_setMem_eq, wroteWhole_mem]
  obtain ⟨t, next, mem, -, regs, retires, -, only⟩ := stores_of_live bound
    (congrArg (setMem (memLanes (laneOn s c e) write (List.range 16) s.mem)) whole :) effect
  refine ⟨t, next, mem, fun b out => ?_, regs, retires, only⟩
  rw [mem]
  exact memLanes_outside (fun j hj m => outside j hj b m out) s.mem

end

theorem localWrite_of_high {o : Nat} (high : 0x20000 ≤ o) (c e n v : Nat) (s : State) :
    localWrite c e o n v s = setMem (setNum (coreBase c + o) n v s.mem) s := if_neg (by omega)

theorem laneNibble_eq (m : Memory) (a j : Nat) :
    laneNibble m a j = (BitVec.ofNat 4 ((getByte m (a + j / 2)).toNat / (if j % 2 = 0 then 1 else 16))).signExtend 32 := by
  rcases Nat.mod_two_eq_zero_or_one j with even | odd
  · rw [laneNibble, even]; rfl
  · rw [laneNibble, odd]; rfl

/-- Settles O7: the loads by the rule of an instruction that writes lanes, the stores lane by lane in memory, and the two slice forms by
the rule of a slice access. -/
theorem vectorLoadsAndStores : Obligations.VectorLoadsAndStores := by
  refine ⟨fun s c e vd rs bound h vector _ => ?_, fun s c e va rs bound h vector => ?_⟩
  · intro o a
    refine ⟨?_, fun aligned inView => ?_⟩
    · have load {n : Nat} {f : Memory → Nat → Nat → Word} {g : Nat → Word} {i : Instr} (run : exec i s = live s (vecLoad n f c e vd 0 0 rs s))
        (val : ∀ j, f s.mem a j = g j) (aligned : o % n = 0) (inside : o < 0x40000) (clean : WordsClean s c (storeWords o n)) :=
        vecLoad_writes bound vector h run (funext val) aligned inside clean
      simp only [List.forall_mem_cons]
      exact ⟨load rfl fun _ => rfl, load rfl fun _ => rfl, load rfl (laneNibble_eq _ _), List.forall_mem_nil _⟩
    · obtain ⟨t, next, sends⟩ := sliceIssue_sends (i := .vlds c e vd 0 0 rs) bound h (by rw [vecEngine_of vector]; rfl) aligned rfl rfl inView rfl
      exact ⟨t, next, by rw [sends.engine], sends.fab, by rw [sends.engine], sends.regs, by rw [sends.engine], sends.only⟩
  · intro o a x on
    refine ⟨fun low high => ⟨fun aligned clean => ?_, fun aligned clean => ?_, fun aligned clean => ?_⟩, fun aligned inView => ?_⟩
    · obtain ⟨t, next, mem, kept, regs, retires, only⟩ := vecStore_stores (i := .vst c e 0 va 0 rs) bound vector h rfl aligned low (by omega)
        (by decide) clean (fun j => setNum (a + 4 * j) 4 (x j))
        (fun j w => by rw [localWrite_of_high (by omega), ← Nat.add_assoc]; rfl)
        (fun j hj b m out => getByte_setNum_outside _ _ _ _ (by rw [List.mem_range] at hj; change b < a ∨ a + 64 ≤ b at out; omega) m)
      refine ⟨t, next, kept, fun j hj => ?_, regs, retires, only⟩
      rw [mem, memLanes_lane (read := fun m i => getNum m (a + 4 * i) 4) (val := fun j => x j % 256 ^ 4)
        (fun j i m => getNum_lane a 4 (x j) j i m)]
      have word : x j % 256 ^ 4 = x j := Nat.mod_eq_of_lt (vlane s c e va j).isLt
      simp only [word, List.mem_range, hj, and_true]
      rfl
    · obtain ⟨t, next, mem, kept, regs, retires, only⟩ := vecStore_stores (i := .vstb c e 0 va 0 rs) bound vector h rfl aligned low (by omega)
        (by decide) clean (fun j => setNum (a + j) 1 (x j % 256))
        (fun j w => by rw [localWrite_of_high (by omega), ← Nat.add_assoc]; rfl)
        (fun j hj b m out => getByte_setNum_outside _ _ _ _ (by rw [List.mem_range] at hj; change b < a ∨ a + 16 ≤ b at out; omega) m)
      refine ⟨t, next, kept, fun j hj => ?_, regs, retires, only⟩
      rw [mem, memLanes_lane (read := fun m i => (getByte m (a + i)).toNat) (val := fun j => x j % 256)
        (fun j i m => by simp only [getByte_setNum_one, Nat.mod_mod, Nat.add_left_cancel_iff])]
      simp only [List.mem_range, hj, and_true]
      rfl
    · obtain ⟨t, next, mem, kept, regs, retires, only⟩ := vecStore_stores (i := .vstn c e 0 va 0 rs) bound vector h rfl aligned low (by omega)
        (by decide) clean (fun j m => setNum (a + j / 2) 1 (withNibble m (a + j / 2) j (x j)) m)
        (fun j w => (localWrite_of_high (o := o + j / 2) (by omega) ..).trans (by rw [← Nat.add_assoc]; rfl))
        (fun j hj b m out => getByte_setNum_outside _ _ _ _ (by rw [List.mem_range] at hj; change b < a ∨ a + 8 ≤ b at out; omega) m)
      refine ⟨t, next, kept, fun j hj => ?_, regs, retires, only⟩
      have lane := memLanes_lane (on := laneOn s c e) (fun j i m => nibbleAt_setNum a (x j) j i m) (List.range 16) s.mem
      have even : 2 * j ∈ List.range 16 := by rw [List.mem_range]; omega
      have odd : 2 * j + 1 ∈ List.range 16 := by rw [List.mem_range]; omega
      rw [getByte_eq_nibbles, mem, lane, lane, nibbleAt_even, nibbleAt_odd]
      simp only [even, odd, and_true]
      rfl
    · obtain ⟨t, next, sends⟩ := sliceIssue_sends (i := .vsadd c e 0 va 0 rs) bound h (by rw [vecEngine_of vector]; rfl) aligned rfl rfl inView rfl
      exact ⟨t, next, ⟨by rw [sends.engine]; rfl, sends.fab⟩, by rw [sends.engine], sends.regs, sends.only⟩

end Sys2Proof.Machine
end

section
/-! PROOFS. Dispatch of handlers, entry into the EXCEPTION handler, and the handler limit (R130, R133-R136, R140). -/

namespace Sys2Proof.Machine

/-! ### An engine at the entry of a handler (R133) -/

section
variable (c e r : Nat) (v : Word) (s : State)

@[simp] theorem pc_setReg : (eng (setReg c e r v s) c e).pc = (eng s c e).pc := by rw [eng_setReg]
@[simp] theorem st_setReg : (eng (setReg c e r v s) c e).st = (eng s c e).st := by rw [eng_setReg]
@[simp] theorem handler_setReg : (eng (setReg c e r v s) c e).handler = (eng s c e).handler := by rw [eng_setReg]

end

/-- Engine `e` of core `c` stands in `t` at the entry of a handler, and has the registers of `s` but for the arguments. -/
structure Started (c e entry : Nat) (h : Handler) (s1 s2 s3 : Word) (s t : State) : Prop where
  pc : (eng t c e).pc = entry
  run : (eng t c e).st = .run
  handler : (eng t c e).handler = some h
  arg1 : regOf t c e 1 = s1
  arg2 : regOf t c e 2 = s2
  arg3 : regOf t c e 3 = s3
  regs : RegsKept c e [1, 2, 3] s t
  slot : getF t (Reg.eng_CUR_SLOT_SLOT c e) = h.slot % 512
  step : getF t (Reg.eng_CUR_STEP_STEP c e) = h.step % 2 ^ 64
  mem : t.mem = s.mem

section
variable {c e entry : Nat} {h : Handler} {s1 s2 s3 : Word} {s t u : State}

theorem started_startHandler : Started c e entry h s1 s2 s3 s (startHandler c e entry h s1 s2 s3 s) where
  pc := by simp [startHandler]
  run := by simp [startHandler]
  handler := by simp [startHandler]
  arg1 := by simp [startHandler, regOf_setReg]
  arg2 := by simp [startHandler, regOf_setReg]
  arg3 := by simp [startHandler, regOf_setReg]
  regs := fun r out => by
    simp only [List.mem_cons, List.not_mem_nil, not_or] at out
    obtain ⟨no1, no2, no3, -⟩ := out
    rw [startHandler, regOf_putF, regOf_putF, regOf_setReg, if_neg no3, regOf_setReg, if_neg no2, regOf_setReg, if_neg no1, regOf,
      modEng_def, eng_setEng_same, regOf]
  slot := by
    rw [startHandler, getF_putF_bits, getF_putF_same]
    · rfl
    · simp only [BitsApart, Reg.eng_CUR_SLOT_SLOT, Reg.eng_CUR_STEP_STEP]; omega
  step := getF_putF_same ..
  mem := (startHandler_engsOnly c e entry h s1 s2 s3 s).same (·.mem) fun _ _ => rfl

theorem Started.of_regs (k : Started c e entry h s1 s2 s3 u t) (regs : (eng u c e).regs = (eng s c e).regs) (mem : u.mem = s.mem) :
    Started c e entry h s1 s2 s3 s t :=
  { k with
    regs := fun r out => (k.regs r out).trans (by rw [regOf, regs, regOf])
    mem := k.mem.trans mem }

theorem Started.congr (k : Started c e entry h s1 s2 s3 s t) (own : eng u c e = eng t c e)
    (slot : getF u (Reg.eng_CUR_SLOT_SLOT c e) = getF t (Reg.eng_CUR_SLOT_SLOT c e))
    (step : getF u (Reg.eng_CUR_STEP_STEP c e) = getF t (Reg.eng_CUR_STEP_STEP c e)) (mem : u.mem = t.mem) :
    Started c e entry h s1 s2 s3 s u where
  pc := own ▸ k.pc
  run := own ▸ k.run
  handler := own ▸ k.handler
  arg1 := (congrArg (fun g : Eng => if (1 : Nat) = 0 then 0 else tget 0 1 g.regs) own).trans k.arg1
  arg2 := by rw [regOf, own, ← regOf, k.arg2]
  arg3 := by rw [regOf, own, ← regOf, k.arg3]
  regs := fun r out => by rw [regOf, own, ← regOf, k.regs r out]
  slot := slot.trans k.slot
  step := step.trans k.step
  mem := mem.trans k.mem

theorem Started.settled (k : Started c e entry h s1 s2 s3 s t) : Started c e entry h s1 s2 s3 s (sicSettle t) :=
  k.congr (eng_sicSettle ..) (getF_sicSettle ..) (getF_sicSettle ..) (sicSettle_mem ..)

end

/-! ### What the PE sets beside the arguments (R134) -/

theorem putLanes_eq (c e v : Nat) (xs : List Word) (s : State) :
    putLanes c e v xs s = lanesWritten c e v (fun _ => true) (fun j => xs.getD j 0) (List.range xs.length) s := rfl

theorem engsOnly_putLanes (c e v : Nat) (xs : List Word) (s : State) : EngsOnly s (putLanes c e v xs s) := by
  rw [putLanes_eq]
  exact engsOnly_lanesWritten ..

/-- The lanes of the PE and its VMASK are all that a batch sets. -/
theorem batchArgs_spec (c : Nat) (h : Happening) (s0 s : State) :
    let t := batchArgs c h s0 s
    EngKept c 3 s t ∧ EngsOnly s t ∧ ∀ f, BitsApart (Reg.eng_VMASK_LANES c 3) f → getF t f = getF s f := by
  have put (xs ys : List Word) (n : Nat) : let t := putF (Reg.eng_VMASK_LANES c 3) n (putLanes c 3 15 ys (putLanes c 3 14 xs s))
      EngKept c 3 s t ∧ EngsOnly s t ∧ ∀ f, BitsApart (Reg.eng_VMASK_LANES c 3) f → getF t f = getF s f := by
    have files := (filesOnly_lanesWritten c 3 14 (fun _ => true) (fun j => xs.getD j 0) (List.range xs.length) s).trans
      (filesOnly_lanesWritten c 3 15 (fun _ => true) (fun j => ys.getD j 0) (List.range ys.length) _)
    refine ⟨fun k out => ?_, ((engsOnly_putLanes c 3 14 xs s).trans (engsOnly_putLanes c 3 15 ys _)).trans (.putF ..), fun f apart => ?_⟩
    · rw [putF_engs]
      exact files.others k out
    · rw [getF_putF_bits apart]
      exact getF_congr files.csr f
  intro t
  simp only [t, batchArgs]
  split
  · exact put ..
  split
  · exact put ..
  · exact ⟨fun _ _ => rfl, .refl s, fun _ _ => rfl⟩

/-! ### Dispatch (R133, R136) -/

theorem takeHappening_spec {c e : Nat} (h : Happening) (s : State) :
    let t := takeHappening c e h s
    t.csr = s.csr ∧ t.mem = s.mem ∧ (eng t c e).regs = (eng s c e).regs := by
  intro t
  simp only [t, takeHappening]
  split
  · exact ⟨rfl, rfl, rfl⟩
  split
  · exact ⟨rfl, rfl, rfl⟩
  split
  · exact ⟨rfl, rfl, rfl⟩
  split
  · exact ⟨rfl, rfl, rfl⟩
  · exact ⟨rfl, rfl, by rw [modEng_def, eng_setEng_same]⟩

/-- A handler that is bound, with its entry in the program range, starts. -/
theorem dispatch_started {c e entry : Nat} {h : Happening} {s : State} (bound : handlerEntry s c e h = some entry) (other : e ≠ 3) (small : e < 6)
    (low : getF s (Reg.core_PROG_RANGE_FIRST c e) ≤ entry) (high : entry ≤ getF s (Reg.core_PROG_RANGE_LAST c e)) :
    Started c e entry ⟨h.kind, h.slot, h.step, false⟩ h.s1 h.s2 h.s3 s (dispatch c e h s) := by
  obtain ⟨csr, mem, regs⟩ := takeHappening_spec (c := c) (e := e) h s
  set s1 := takeHappening c e h s
  set s2 := startHandler c e entry ⟨h.kind, h.slot, h.step, false⟩ h.s1 h.s2 h.s3 s1 with at2
  set s3 := batchArgs c h s s2 with at3
  set s4 := if e = 2 ∧ h.kind = 2 then putF (Reg.so_LAST_FIRES_COUNT c) h.fires s3 else s3 with at4
  obtain ⟨kept, only, beside⟩ := batchArgs_spec c h s s2
  have own : eng s4 c e = eng s2 c e := by
    have same : eng s4 c e = eng s3 c e := by
      rw [at4]
      split
      · exact eng_putF ..
      · rfl
    rw [same, eng, eng, at3, kept _ (by omega)]
  have field {f : FieldRef} (lanes : BitsApart (Reg.eng_VMASK_LANES c 3) f) (fires : e = 2 → BitsApart (Reg.so_LAST_FIRES_COUNT c) f) :
      getF s4 f = getF s2 f := by
    rw [at4]
    split
    next so => rw [getF_putF_bits (fires so.1), at3, beside f lanes]
    next => rw [at3, beside f lanes]
  have mem4 : s4.mem = s2.mem := by
    rw [at4]
    split
    · rw [putF_mem]
      exact only.same (·.mem) fun _ _ => rfl
    · exact only.same (·.mem) fun _ _ => rfl
  have started : Started c e entry ⟨h.kind, h.slot, h.step, false⟩ h.s1 h.s2 h.s3 s s4 := by
    refine (started_startHandler.of_regs regs mem).congr own (field ?_ fun so => ?_) (field ?_ fun so => ?_) mem4
    all_goals simp only [BitsApart, Reg.eng_VMASK_LANES, Reg.so_LAST_FIRES_COUNT, Reg.eng_CUR_SLOT_SLOT, Reg.eng_CUR_STEP_STEP]; omega
  have range {f : FieldRef} (at_ : f.addr = 0x0100080060 + c * 0x100000 + e * 0x4) (word : f.lo + f.width ≤ 32) : getF s4 f = getF s f := by
    rw [field, at2, getF_startHandler, getF_congr csr]
    · constructor <;> simp only [BitsApart, Reg.eng_CUR_SLOT_SLOT, Reg.eng_CUR_STEP_STEP] <;> omega
    · simp only [BitsApart, Reg.eng_VMASK_LANES]; omega
    · intro _; simp only [BitsApart, Reg.so_LAST_FIRES_COUNT]; omega
  have fetched : fetchOk s4 c e = true := by
    rw [fetchOk, range (f := Reg.core_PROG_RANGE_FIRST c e) rfl (Nat.le_add_left 12 20),
      range (f := Reg.core_PROG_RANGE_LAST c e) rfl (Nat.le_add_right 28 4), started.pc, decide_eq_true low, decide_eq_true high]
    rfl
  have eq : dispatch c e h s = s4 := by
    simp only [dispatch, bound, other, false_and, if_false]
    exact if_pos fetched
  rw [eq]
  exact started

/-! ### The EXCEPTION handler (R140) -/

theorem coreFault_status (c engine store off : Nat) {kind : Nat} (hk : kind < 32) (s : State) :
    getF (coreFault c kind engine store off s) ⟨Reg.core_FAULT_STATUS c, kind, 1⟩ = 1 := by
  have set_ : getF (putF ⟨Reg.core_FAULT_STATUS c, kind, 1⟩ 1 s) ⟨Reg.core_FAULT_STATUS c, kind, 1⟩ = 1 := getF_putF_same ..
  simp only [coreFault]
  split
  · exact set_
  · rw [getF_wrWord, set_]
    simp only [BitsApart, Reg.core_FAULT_INFO, Reg.core_FAULT_STATUS]
    omega

section
variable {s : State} {c e code pc : Nat} {notInstr : Bool} {value : Word} (quiet : (core s c).applying = none)
include quiet

/-- The handler that an exception abandons has ended, and owes no act. -/
theorem excEnded_regs : (eng (excEnded c e code pc notInstr value s) c e).regs = (eng s c e).regs := by
  cases runs : (eng s c e).handler with
  | none =>
    rw [excEnded, endHandler_of_none (by rw [recorded_eng, runs]), recorded_eng]
  | some h =>
    have ended := endHandler_of_quiet (s := coreFault c 8 e 7 0 (recordExc c e code pc notInstr value s)) (c := c) (e := e) (h := h)
      (by rw [recorded_eng, runs]) (by rw [recorded_core, quiet])
    have acts (u : State) : eng (omittedAct c e h u) c e = eng u c e := by rw [(omittedAct_spec c e h u).1]; rfl
    have notes (u : State) : eng (noteStepEnds c u) c e = eng u c e := by rw [(noteStepEnds_only c u).1]; rfl
    rw [excEnded, ended, notes, acts, eng_setEng_same, recorded_eng]
    rfl

/-- A bound EXCEPTION handler starts, where the exception was not in one. -/
theorem raiseExc_started {h : Handler} (runs : (eng s c e).st ≠ .halted) (in_ : (eng s c e).handler = some h) (other : h.kind ≠ 1)
    (bound : isSet s (Reg.eng_HVEC_EN c e 1) = true) :
    let t := raiseExc c e code pc notInstr value s
    Started c e (getF s (Reg.eng_HVEC_ENTRY c e 1)) ⟨1, getF s (Reg.eng_CUR_SLOT_SLOT c e), getF s (Reg.eng_CUR_STEP_STEP c e), true⟩
      (BitVec.ofNat 32 code) (excPc pc notInstr) value s t ∧ getF t ⟨Reg.core_FAULT_STATUS c, 8, 1⟩ = 1 := by
  obtain ⟨mem, -, -, csr⟩ := excEnded_spec (code := code) (pc := pc) (notInstr := notInstr) (value := value) (e := e) quiet
  have eq : raiseExc c e code pc notInstr value s = startHandler c e (getF s (Reg.eng_HVEC_ENTRY c e 1))
      ⟨1, getF s (Reg.eng_CUR_SLOT_SLOT c e), getF s (Reg.eng_CUR_STEP_STEP c e), true⟩
      (BitVec.ofNat 32 code) (excPc pc notInstr) value (excEnded c e code pc notInstr value s) := by
    rw [raiseExc, if_neg runs]
    extract_lets s1 inExc s2
    have outside : inExc = false := by simp only [inExc, in_]; simpa using other
    rw [outside, handlerBound, bound]
    rfl
  refine ⟨eq ▸ started_startHandler.of_regs (excEnded_regs quiet) mem, ?_⟩
  rw [eq, getF_startHandler, getF_congr csr, coreFault_status c e 7 0 (by decide)]
  constructor <;> simp only [BitsApart, Reg.eng_CUR_SLOT_SLOT, Reg.eng_CUR_STEP_STEP, Reg.core_FAULT_STATUS] <;> omega

/-- `t` is what an exception leaves of `s` whose EXCEPTION handler has started. -/
def ExcStarted (c e code : Nat) (value : Word) (s t : State) : Prop :=
  isSet t (Reg.eng_EXC_CAUSE_VALID c e) = true ∧ getF t (Reg.eng_EXC_CAUSE_CODE c e) = code ∧
  rdWord t (Reg.eng_EXC_PC c e) = excPc (eng s c e).pc false ∧ rdWord t (Reg.eng_EXC_VALUE c e) = value ∧
  getF t ⟨Reg.core_FAULT_STATUS c, 8, 1⟩ = 1 ∧ (eng t c e).pc = getF s (Reg.eng_HVEC_ENTRY c e 1) ∧ (eng t c e).st = .run ∧
  (eng t c e).handler.map (·.kind) = some 1 ∧ regOf t c e 1 = BitVec.ofNat 32 code ∧ regOf t c e 2 = excPc (eng s c e).pc false ∧
  regOf t c e 3 = value ∧ RegsKept c e [1, 2, 3] s t ∧ t.mem = s.mem

theorem excStarted_exc {h : Handler} (free : isSet s (Reg.eng_EXC_CAUSE_VALID c e) = false) (runs : (eng s c e).st = .run)
    (in_ : (eng s c e).handler = some h) (other : h.kind ≠ 1) (bound : isSet s (Reg.eng_HVEC_EN c e 1) = true) (small : code < 32) :
    ExcStarted c e code value s (exc c e code value s) := by
  obtain ⟨started, status⟩ := raiseExc_started (code := code) (pc := (eng s c e).pc) (notInstr := false) (value := value) quiet
    (by simp [runs]) in_ other bound
  have raised := raised_raiseExc free quiet (by simp [runs]) small (eng s c e).pc false value
  exact ⟨raised.valid, raised.code, raised.pc, raised.value, status, started.pc, started.run, congrArg _ started.handler, started.arg1,
    started.arg2, started.arg3, started.regs, started.mem⟩

end

theorem ExcStarted.congr {c e code : Nat} {value : Word} {s t u : State} (k : ExcStarted c e code value s t) (csr : u.csr = t.csr)
    (engs : u.engs = t.engs) (mem : u.mem = t.mem) : ExcStarted c e code value s u := by
  have own : eng u c e = eng t c e := by rw [eng, engs, eng]
  have reg (r : Nat) : regOf u c e r = regOf t c e r := by rw [regOf, own, regOf]
  obtain ⟨valid, coded, at_, val, status, pc, run, handler, arg1, arg2, arg3, regs, kept⟩ := k
  exact ⟨(isSet_congr csr _).trans valid, (getF_congr csr _).trans coded, (rdWord_congr csr _).trans at_, (rdWord_congr csr _).trans val,
    (getF_congr csr _).trans status, by rw [own, pc], by rw [own, run], by rw [own, handler], (reg 1).trans arg1, (reg 2).trans arg2,
    (reg 3).trans arg3, fun r out => (reg r).trans (regs r out), mem.trans kept⟩

/-! ### The statement -/

/-- An instruction that can be tried: one fetched outside the program range takes exception 2 (R105). -/
theorem issue_of_range {s : State} {c e : Nat} {uses : List Nat} (can : canIssue s c e uses = true) (out : fetchOk s c e = false)
    (illegal : Bool) (v : Word) (body : State → State) :
    issue c e uses illegal v body s = exc c e 2 (BitVec.ofNat 32 (eng s c e).pc) s := by
  rw [issue, can, out]
  rfl

/-- One whose word has no assigned opcode or function code is ILLEGAL (R109). -/
theorem issue_of_unassigned {s : State} {c e : Nat} {uses : List Nat} (can : canIssue s c e uses = true) (ok : fetchOk s c e = true)
    (clean : WordsClean s c [fetchWord s c e]) (unknown : wordAssigned s c e = false) (illegal : Bool) (v : Word) (body : State → State) :
    issue c e uses illegal v body s = excFree c e 1 s := by
  rw [issue, can, ok, fetch_of_clean clean, unknown]
  rfl

/-- Settles O14: the dispatch and the exceptions by the rule of a handler that starts, the limit by that of an exception. -/
theorem dispatchExceptionAndLimit : Obligations.DispatchExceptionAndLimit := by
  refine ⟨fun s c e bound small up => ⟨fun h idle still free next other kind control hvec => ?_, fun runs run limit free quiet => ?_⟩,
    fun s c e rd ra rb h bound can clean free in_ kind act quiet hvec => ?_⟩
  · intro entry low high
    obtain ⟨rest, notes⟩ := noteStepEnds_only c s
    have csr : (noteStepEnds c s).csr = s.csr := noteStepEnds_csr c s
    have engine : engFree s c e = true := by simp [engFree, small, up, idle, still, free]
    have start : handlerEntry (noteStepEnds c s) c e h = some entry := by
      rw [handlerEntry, if_neg (fun sq => control ⟨sq.1, sq.2.1⟩), handlerBound, isSet_congr csr, if_pos hvec, getF_congr csr]
    have run : exec (.handlerDispatch c e) s = live s (dispatch c e h (noteStepEnds c s)) := by
      show execHandlerDispatch c e s = _
      rw [execHandlerDispatch, if_pos engine, dispatchNext, next]
    have started := dispatch_started start other small (by rw [getF_congr csr]; exact low) (by rw [getF_congr csr]; exact high)
    have own : eng (noteStepEnds c s) c e = eng s c e := by rw [rest]; rfl
    obtain ⟨pc, state, handler, arg1, arg2, arg3, regs, slot, step, mem⟩ := (started.of_regs (s := s) (by rw [own]) (by rw [rest])).settled
    exact ⟨_, run.trans (live_next bound _), pc, state, handler, arg1, arg2, arg3, regs, slot, step, mem⟩
  · have raised := raised_raiseExc free quiet (by simp [run]) (by decide : 16 < 32) (eng s c e).pc true (freeWord s)
    have late : exec (.handlerTime c e) s = live s (spendFree (raiseExc c e 16 (eng s c e).pc true (freeWord s) s)) := by
      show execHandlerTime c e s = _
      have at_ : atBoundary s c e = true := by rw [atBoundary, runs, run]; rfl
      rw [execHandlerTime, if_pos ⟨at_, up, limit⟩]
    obtain ⟨-, coded, at_, -, mem, -, -⟩ := (raised.congr (u := spendFree _) rfl rfl rfl rfl).settled
    exact ⟨_, late.trans (live_next bound _), coded, at_, mem⟩
  · have takes {i : Instr} {code : Nat} {value : Word} {u : State} (small : code < 32) (run : exec i s = live s u)
        (is : u = exc c e code value s ∨ u = spendFree (exc c e code value s)) : ∃ t, exec i s = .next t ∧ ExcStarted c e code value s t := by
      have started : ExcStarted c e code value s (exc c e code value s) := excStarted_exc quiet free (run_of_canIssue can) in_ kind hvec small
      refine ⟨_, run.trans (live_next bound _), ?_⟩
      rcases is with rfl | rfl
      · exact started.congr (by simp) (by simp) (by simp)
      · exact started.congr (by simp [spendFree]) (by simp [spendFree]) (by simp [spendFree])
    split
    next ok =>
      split
      next known =>
        split
        next => exact List.forall_mem_nil _
        next nonzero =>
          rw [List.forall_mem_singleton]
          refine takes (code := 1) (by decide) rfl (.inl ?_)
          show scalarOp _ _ c e rd ra rb s = _
          rw [scalarOp, issue_of_issues ⟨can, ok, clean ok, known⟩, if_pos (by simpa using nonzero)]
      next unknown =>
        have unassigned := issue_of_unassigned can ok (clean ok) (by simpa using unknown)
        simp only [List.forall_mem_cons]
        exact ⟨takes (by decide) rfl (.inr (unassigned ..)), takes (by decide) rfl (.inr (unassigned ..)), List.forall_mem_nil _⟩
    next out =>
      have range := issue_of_range can (by simpa using out)
      simp only [List.forall_mem_cons]
      exact ⟨takes (by decide) rfl (.inl (range ..)), takes (by decide) rfl (.inl (range ..)), List.forall_mem_nil _⟩

end Sys2Proof.Machine
end

section
/-! PROOFS. The acts of handlers: RET, WICKET, STEPDONE, EMIT and FENCE (R73, R124, R129-R132, R136, R162). -/

namespace Sys2Proof.Machine

/-! ### An instruction that waits (R104) -/

theorem waits_of_live {s : State} {c e : Nat} {o : Host.Outcome State Fault Refusal} {st : EngState} {w : Wait} (bound : s.rsvDirty = false)
    (run : o = live s (waitFor c e st w s)) :
    ∃ t, o = .next t ∧ (eng t c e).wait = w ∧ (eng t c e).st = st ∧ t.mem = s.mem ∧ (eng t c e).pc = (eng s c e).pc := by
  refine ⟨_, run.trans (live_next bound _), ?_, ?_, sicSettle_mem .., ?_⟩
  all_goals rw [eng_sicSettle, waitFor, modEng_def, eng_setEng_same]

/-! ### The acts of the SQ (R73, R130) -/

/-- Where the wicket commands of a slot and step are after they were issued: with the SO and the SE, or waiting with the SQ. -/
def CommandsPlaced (k : Core) (x : Nat × Nat) (k' : Core) : Prop :=
  (k.soCmd.length < 8 ∧ k.seCmd.length < 8 → k'.soCmd = k.soCmd ++ [x] ∧ k'.seCmd = k.seCmd ++ [x]) ∧
  (8 ≤ k.soCmd.length ∨ 8 ≤ k.seCmd.length → k'.sqOut = [x] ∧ k'.soCmd = k.soCmd ∧ k'.seCmd = k.seCmd)

section
variable (c slot step : Nat) (s : State)

theorem wicketCmds_placed (none_ : (core s c).sqOut = []) :
    CommandsPlaced (core s c) (slot, step) (core (wicketCmds c slot step s) c) := by
  have eq : core (wicketCmds c slot step s) c = sqPlace [(slot, step)] { core s c with sqOut := [(slot, step)] } := by
    simp only [wicketCmds, sqDrain, modCore_def, core_setCore_same, none_, List.nil_append]
  rw [eq, sqPlace]
  constructor
  · intro room
    rw [if_pos room]
    exact ⟨rfl, rfl⟩
  · intro full
    rw [if_neg (by simp only; omega)]
    exact ⟨rfl, rfl, rfl⟩

theorem sendDone_contribs : (sendDone c slot step s).contribs = s.contribs ++ [⟨slotCtx s c slot, step⟩] := rfl

end

/-- The act that a handler of the SQ still owes. -/
theorem omittedAct_of_open {h : Handler} (open_ : h.acted = false) (c : Nat) (s : State) : omittedAct c 5 h s =
    if h.kind = 2 then wicketCmds c h.slot h.step s else if h.kind = 4 then sendDone c h.slot h.step s else s := by
  rw [omittedAct, open_]
  rfl

/-! ### RET (R130, R136) -/

/-- The state in which RET has retired and its engine is free. -/
def retFreed (c e : Nat) (s : State) : State := setEng c e (freed (eng (retire c e s) c e)) (retire c e s)

section
variable {s : State} {c e : Nat} {h : Handler}

theorem retFreed_engsOnly : EngsOnly s (retFreed c e s) := (EngsOnly.retireTo ..).trans (.setEng ..)

theorem core_retFreed : core (retFreed c e s) c = core s c := retFreed_engsOnly.same (core · c) fun _ _ => rfl

theorem exec_ret_of_issues (issues : Issues s c e []) (in_ : (eng s c e).handler = some h) (quiet : (core s c).applying = none) :
    exec (.ret c e 0 0 0 0) s = live s (noteStepEnds c (omittedAct c e h (retFreed c e s))) := by
  have ended : endHandler c e (retire c e s) = noteStepEnds c (omittedAct c e h (retFreed c e s)) :=
    endHandler_of_quiet (by rw [retire_eq_retireTo, eng_retireTo_same, in_]) (by rw [retire_eq_retireTo, core_retireTo, quiet])
  show execRet c e 0 0 0 0 s = _
  rw [execRet, issueFree_of_issues issues, if_neg (by decide), ended]

/-- RET frees the engine, whatever act it performs. -/
theorem ret_frees :
    let t := sicSettle (noteStepEnds c (omittedAct c e h (retFreed c e s)))
    (eng t c e).st = .idle ∧ (eng t c e).handler = none ∧ (eng t c e).pc = (eng s c e).pc + 1 ∧ RegsKept c e [] s t ∧ t.mem = s.mem := by
  intro t
  have own : eng t c e = freed { eng s c e with pc := (eng s c e).pc + 1 } := by
    rw [eng_sicSettle, (noteStepEnds_only ..).1]
    show eng (omittedAct c e h (retFreed c e s)) c e = _
    rw [(omittedAct_spec ..).1]
    show eng (retFreed c e s) c e = _
    rw [retFreed, eng_setEng_same, retire_eq_retireTo, eng_retireTo_same]
  refine ⟨by rw [own]; rfl, by rw [own]; rfl, by rw [own]; rfl, fun r _ => by rw [regOf, own, regOf]; rfl, ?_⟩
  rw [sicSettle_mem, (noteStepEnds_only ..).1]
  show (omittedAct c e h (retFreed c e s)).mem = _
  rw [(omittedAct_spec ..).1]
  exact retFreed_engsOnly.same (·.mem) fun _ _ => rfl

end

/-! ### WICKET and STEPDONE (R129, R130) -/

section
variable {s : State} {c kind : Nat} {h : Handler} {i : Instr} {act : Nat → Nat → State → State} (issues : Issues s c 5 [])
  (run : exec i s = live s (sqAct kind act c 5 0 0 0 0 s)) (in_ : (eng s c 5).handler = some h)
include issues run in_

theorem sqAct_acts (here : h.kind = kind) (open_ : h.acted = false) :
    exec i s = live s (retire c 5 (markActed c 5 (act h.slot h.step s))) := by
  rw [run, sqAct, issueFree_of_issues issues, if_neg (by decide), actOpen, in_]
  simp only [here, open_, and_self, if_true]

theorem sqAct_raises (bound : s.rsvDirty = false) (closed : h.acted = true ∨ h.kind ≠ kind)
    (free : isSet s (Reg.eng_EXC_CAUSE_VALID c 5) = false) (quiet : (core s c).applying = none) :
    ∃ t, exec i s = .next t ∧ Raised c 5 15 (excPc (eng s c 5).pc false) (freeWord s) s t := by
  refine raised_of_excFree bound free quiet (run_of_canIssue issues.1) (by decide) (run.trans ?_)
  have no : ¬(h.kind = kind ∧ h.acted = false) := by
    rintro ⟨same, open_⟩
    rcases closed with acted | other
    · rw [open_] at acted; cases acted
    · exact other same
  rw [sqAct, issueFree_of_issues issues, if_neg (by decide), actOpen, in_]
  simp only [if_neg no]

end

/-- An act that leaves the engines notes that the handler has acted, and retires. -/
theorem eng_markActed_retire {s u : State} {c e : Nat} {h : Handler} (in_ : (eng s c e).handler = some h) (engs : u.engs = s.engs) :
    (eng (sicSettle (retire c e (markActed c e u))) c e).handler = some { h with acted := true } ∧
      (eng (sicSettle (retire c e (markActed c e u))) c e).pc = (eng s c e).pc + 1 := by
  have own : eng u c e = eng s c e := by rw [eng, engs, eng]
  rw [eng_sicSettle, retire_eq_retireTo, eng_retireTo_same, markActed, modEng_def, eng_setEng_same, own]
  simp [in_]

theorem core_markActed_retire (s : State) (c e : Nat) : core (sicSettle (retire c e (markActed c e s))) c = core s c := by
  rw [core_sicSettle, retire_eq_retireTo, core_retireTo, markActed, modEng_def, core_setEng]

theorem contribs_markActed_retire (s : State) (c e : Nat) : (sicSettle (retire c e (markActed c e s))).contribs = s.contribs := by
  rw [sicSettle_eq]
  exact (EngsOnly.retireTo ..).same (·.contribs) fun _ _ => rfl

/-! ### EMIT and FENCE (R129, R131, R132, R162) -/

theorem emitFault_of_field {s : State} {c e : Nat} {v : Word64} (bad : v.toNat % 4 ≠ 0 ∨ v.toNat / 8 % 4 = 3) : emitFault s c e v = some 10 :=
  if_pos bad.symm

theorem emitWord_of_taken {s : State} {c e k n : Nat} {v : Word64} (slot : workSlot s c (evCtx v) = some k)
    (taken : tget 0 k (core s c).taken = n + 1) : emitWord c e v s = pushSend c ⟨v, n, e, 0⟩ s := by
  simp only [emitWord, slot, lastTaken, spendIfNone, taken, if_neg (Nat.succ_ne_zero n)]

theorem emit_legal {e rb : Nat} (emitter : e = 4 ∨ e = 5) (even : rb % 2 = 0) :
    ((e != 4 && e != 5) || rb % 2 == 1 || (0 : Nat) != 0 || (0 : Nat) != 0 || (0 : Nat) != 0) = false := by
  rcases emitter with rfl | rfl <;> simp [even]

section
variable {s : State} {c e rb : Nat} (issues : Issues s c e [rb, rb + 1]) (emitter : e = 4 ∨ e = 5) (even : rb % 2 = 0)
include issues emitter even

theorem exec_emit_of_fault {code : Nat} (fault : emitFault s c e (regPair s c e rb) = some code) :
    exec (.emit c e 0 0 rb 0) s = live s (exc c e code (regOf s c e rb) s) := by
  show execEmit c e 0 0 rb 0 s = _
  rw [execEmit, issue_of_issues issues, emit_legal emitter even, if_neg (by decide)]
  simp only [fault]

theorem exec_emit_of_fine (fine : emitFault s c e (regPair s c e rb) = none) :
    exec (.emit c e 0 0 rb 0) s = live s (if mayEmit s c e then retire c e (emitWord c e (regPair s c e rb) s)
      else waitFor c e .waitQueue (.emit (regPair s c e rb)) s) := by
  show execEmit c e 0 0 rb 0 s = _
  rw [execEmit, issue_of_issues issues, emit_legal emitter even, if_neg (by decide)]
  simp only [fine]

variable (bound : s.rsvDirty = false)
include bound

theorem exec_emit_stalls (fine : emitFault s c e (regPair s c e rb) = none) (full : mayEmit s c e = false) :
    ∃ t, exec (.emit c e 0 0 rb 0) s = .next t ∧ (eng t c e).wait = .emit (regPair s c e rb) ∧ (eng t c e).st = .waitQueue ∧
      (eng t c e).pc = (eng s c e).pc ∧ (core t c).send = (core s c).send ∧ t.mem = s.mem := by
  have run := exec_emit_of_fine issues emitter even fine
  rw [full] at run
  refine ⟨_, run.trans (live_next bound _), ?_, ?_, ?_, by rw [core_sicSettle]; rfl, sicSettle_mem ..⟩
  all_goals rw [eng_sicSettle, if_neg (by decide), waitFor, modEng_def, eng_setEng_same]

theorem exec_emit_sends {k n : Nat} (fine : emitFault s c e (regPair s c e rb) = none) (room : mayEmit s c e = true)
    (slot : workSlot s c (evCtx (regPair s c e rb)) = some k) (taken : tget 0 k (core s c).taken = n + 1) :
    ∃ t, exec (.emit c e 0 0 rb 0) s = .next t ∧
      (core t c).send = (core s c).send ++ [⟨regPair s c e rb, n, e, (waitingAt s (4 * c)).length⟩] ∧
      Retires c e ((eng s c e).pc + 1) s t ∧ RegsKept c e [] s t ∧ t.mem = s.mem := by
  have run := exec_emit_of_fine issues emitter even fine
  rw [room, emitWord_of_taken slot taken] at run
  have kept : FilesOnly c e s (pushSend c ⟨regPair s c e rb, n, e, 0⟩ s) := .of_engs c e rfl rfl
  refine ⟨_, run.trans (live_next bound _), ?_, kept.retires_next, fun r _ => ?_, ?_⟩
  · rw [core_sicSettle, if_pos rfl, retire_eq_retireTo, core_retireTo, pushSend, modCore_def, core_setCore_same]
  · rw [regOf_sicSettle, if_pos rfl, retire_eq_retireTo, regOf_retireTo]
    rfl
  · rw [sicSettle_mem, if_pos rfl, retire_eq_retireTo, retireTo_mem]
    rfl

theorem exec_emit_raises (bad : (regPair s c e rb).toNat % 4 ≠ 0 ∨ (regPair s c e rb).toNat / 8 % 4 = 3)
    (free : isSet s (Reg.eng_EXC_CAUSE_VALID c e) = false) (quiet : (core s c).applying = none) :
    ∃ t, exec (.emit c e 0 0 rb 0) s = .next t ∧ Raised c e 10 (excPc (eng s c e).pc false) (regOf s c e rb) s t := by
  exact raised_of_exc bound free quiet (run_of_canIssue issues.1) (by decide)
    (exec_emit_of_fault issues emitter even (emitFault_of_field bad))

end

/-! ### The statement -/

/-- Settles O13: RET by what the end of a handler does, the acts by what they place, EMIT and FENCE by their conditions. -/
theorem handlerActs : Obligations.HandlerActs := by
  refine ⟨fun s c e h bound issues in_ quiet => ?_, fun s c e bound => ⟨fun rb issues emitter even => ?_, fun issues => ⟨fun clear => ?_,
    fun blocked => ?_⟩, fun up waits clear => ?_⟩⟩
  · intro frees
    have ret : exec (.ret c e 0 0 0 0) s = .next _ := (exec_ret_of_issues issues in_ quiet).trans (live_next bound _)
    refine ⟨fun none_ => ⟨_, ret, ret_frees, ?_, ?_⟩, ?_, ?_⟩
    · rw [omittedAct_of_none none_, sicSettle_eq, (noteStepEnds_only ..).1]
      exact retFreed_engsOnly.same (·.contribs) fun _ _ => rfl
    · rw [core_sicSettle, (noteStepEnds_only ..).2, omittedAct_of_none none_, core_retFreed]
    · rintro rfl open_
      have act := omittedAct_of_open open_ c (retFreed c 5 s)
      refine ⟨fun kind => ⟨?_, ?_, _, ret, ret_frees⟩, fun kind => ⟨?_, ?_, _, ret, ret_frees⟩⟩
      · have none_ := sqOut_of_canIssue issues.1
        simp only [List.forall_mem_cons]
        refine ⟨⟨_, (sqAct_acts issues rfl in_ kind open_).trans (live_next bound _), ?_⟩, ⟨_, ret, ?_⟩, List.forall_mem_nil _⟩
        · rw [core_markActed_retire]
          exact wicketCmds_placed c h.slot h.step s none_
        · rw [core_sicSettle, (noteStepEnds_only ..).2, act, if_pos kind, ← core_retFreed (s := s) (e := 5)]
          exact wicketCmds_placed c h.slot h.step (retFreed c 5 s) (by rw [core_retFreed, none_])
      · exact ⟨_, (sqAct_acts (i := .wicket c 5 0 0 0 0) issues rfl in_ kind open_).trans (live_next bound _), eng_markActed_retire in_ rfl⟩
      · simp only [List.forall_mem_cons]
        refine ⟨⟨_, (sqAct_acts issues rfl in_ kind open_).trans (live_next bound _), ?_⟩, ⟨_, ret, ?_⟩, List.forall_mem_nil _⟩
        · rw [contribs_markActed_retire, sendDone_contribs]
        · rw [sicSettle_eq, (noteStepEnds_only ..).1, act, if_neg (by omega), if_pos kind]
          show (retFreed c 5 s).contribs ++ [⟨slotCtx (retFreed c 5 s) c h.slot, h.step⟩] = _
          rw [retFreed_engsOnly.same (·.contribs) fun _ _ => rfl, retFreed_engsOnly.same (slotCtx · c h.slot) fun _ _ => rfl]
      · exact ⟨_, (sqAct_acts (i := .stepdone c 5 0 0 0 0) issues rfl in_ kind open_).trans (live_next bound _), eng_markActed_retire in_ rfl⟩
    · rintro rfl free closed
      obtain ⟨t, next, raised⟩ := sqAct_raises (i := .wicket c 5 0 0 0 0) issues rfl in_ bound closed free quiet
      exact ⟨t, next, raised.code⟩
  · intro v
    refine ⟨exec_emit_stalls issues emitter even bound, fun k n => exec_emit_sends issues emitter even bound, fun bad free quiet => ?_⟩
    obtain ⟨t, next, raised⟩ := exec_emit_raises issues emitter even bound bad free quiet
    exact ⟨t, next, raised.code, raised.send⟩
  · obtain ⟨t, next, retires, regs, -, only⟩ := goes_of_live (s := s) (c := c) (e := e) (target := (eng s c e).pc + 1)
      (o := exec (.fence c e 0 0 0 0) s) bound (by
        show execFence c e 0 0 0 0 s = _
        rw [execFence, issueFree_of_issues issues, if_neg (by decide), if_pos clear, retire_eq_retireTo])
    exact ⟨t, next, retires, regs, only⟩
  · have effect : exec (.fence c e 0 0 0 0) s = live s (waitFor c e .waitSync .fence s) := by
      show execFence c e 0 0 0 0 s = _
      rw [execFence, issueFree_of_issues issues, if_neg (by decide), if_neg (by simp [blocked])]
    refine ⟨_, effect.trans (live_next bound _), ?_, ?_, ?_, onlyEngs_settled (.setEng ..)⟩
    all_goals rw [eng_sicSettle, waitFor, modEng_def, eng_setEng_same]
  · have effect : exec (.fenceComplete c e) s = live s (resumeEng c e s) := by
      show execFenceComplete c e s = _
      rw [execFenceComplete, if_pos ⟨waits, clear⟩, whileRuns, if_pos up]
    refine ⟨_, effect.trans (live_next bound _), ?_, ?_, ?_, onlyEngs_settled ((EngsOnly.setEng ..).trans (.retireTo ..))⟩
    all_goals rw [eng_sicSettle, resumeEng, retire_eq_retireTo, eng_retireTo_same, modEng_def, eng_setEng_same]

end Sys2Proof.Machine
end

section
/-! PROOFS. Plain queues: their entries, their readers and writers, and their denial (R127, R128, R148-R150). -/

namespace Sys2Proof.Machine

/-! ### A plain queue in memory (R148) -/

section
variable {s t : State} {c q : Nat}

theorem qDropFront_mem (c q : Nat) (s : State) : (qDropFront c q s).mem =
    setBits (qDesc c q) 68 5 (qCount s c q - 1) (setBits (qDesc c q) 64 4 (qHead s c q + 1) s.mem) := rfl

theorem qAppend_mem (c q v : Nat) (o : Option (Nat × Nat)) (s : State) : (qAppend c q v o s).mem =
    setBits (qDesc c q) 68 5 (qCount s c q + 1) (setNum (qEntry c q (qHead s c q + qCount s c q)) 8 v s.mem) := rfl

/-- What a pop leaves of the descriptor. -/
theorem dropFront_of_mem (h : t.mem = (qDropFront c q s).mem) (few : qCount s c q ≤ 16) :
    qCount t c q = qCount s c q - 1 ∧ qHead t c q = (qHead s c q + 1) % 16 ∧ MemKept (qDesc c q + 8) 2 s t := by
  refine ⟨?_, ?_, fun b out => ?_⟩
  · rw [qCount, rdBits, h, qDropFront_mem, getBits_setBits_same]
    omega
  · rw [qHead, rdBits, h, qDropFront_mem, getBits_setBits_apart (by omega)]
    exact getBits_setBits_same ..
  · rw [h, qDropFront_mem, getByte_setBits_outside, getByte_setBits_outside]
    all_goals omega

/-- What a push leaves of the descriptor and of the entries. -/
theorem append_of_mem {v : Nat} {o : Option (Nat × Nat)} (h : t.mem = (qAppend c q v o s).mem) (small : q < 64) (room : qCount s c q < 16)
    (fits : v < 2 ^ 64) :
    qCount t c q = qCount s c q + 1 ∧ qHead t c q = qHead s c q ∧ rdNum t (qEntry c q (qHead s c q + qCount s c q)) 8 = v ∧
      ∀ j, j < qCount s c q → rdNum t (qEntry c q (qHead s c q + j)) 8 = rdNum s (qEntry c q (qHead s c q + j)) 8 := by
  have entry (n : Nat) : qEntry c q n + 8 ≤ qDesc c q := by simp only [qEntry, qDesc]; omega
  have count : qCount t c q = qCount s c q + 1 := by
    rw [qCount, rdBits, h, qAppend_mem, getBits_setBits_same]
    omega
  have head : qHead t c q = qHead s c q := by
    rw [qHead, rdBits, h, qAppend_mem, getBits_setBits_apart (by omega)]
    refine getBits_of_memBit fun i hi => ?_
    have := entry (qHead s c q + qCount s c q)
    rw [memBit_setNum, if_neg (by omega)]
  have read (n : Nat) : rdNum t (qEntry c q n) 8 = getNum (setNum (qEntry c q (qHead s c q + qCount s c q)) 8 v s.mem) (qEntry c q n) 8 := by
    rw [rdNum, h, qAppend_mem]
    refine congrArg ofBytes (getBytes_congr _ _ _ _ fun b lo hi => ?_)
    have := entry n
    rw [getByte_setBits_outside _ _ _ _ _ (by omega)]
  refine ⟨count, head, ?_, fun j hj => ?_⟩
  · rw [read, getNum_setNum]
    exact Nat.mod_eq_of_lt fits
  · rw [read, getNum_setNum_outside]
    · rfl
    · simp only [qEntry]
      omega

theorem qEntries_head (some_ : qCount s c q ≠ 0) : ∃ l, qEntries s c q = rdNum s (qEntry c q (qHead s c q)) 8 :: l := by
  obtain ⟨n, hn⟩ : ∃ n, min (qCount s c q) 16 = n + 1 := ⟨min (qCount s c q) 16 - 1, by omega⟩
  rw [qEntries, hn, List.range_succ_eq_map, List.map_cons]
  exact ⟨_, rfl⟩

theorem qEntries_nil (none_ : qCount s c q = 0) : qEntries s c q = [] := by rw [qEntries, none_]; rfl

end

/-! ### QUEUE happenings (R133) -/

/-- `t` is `s` but for happenings that engines await. -/
def HappenOnly (s t : State) : Prop :=
  t = { s with engs := t.engs } ∧ ∀ k, tget {} k t.engs = { tget {} k s.engs with happen := (tget {} k t.engs).happen }

theorem HappenOnly.refl (s : State) : HappenOnly s s := ⟨rfl, fun _ => rfl⟩

theorem HappenOnly.trans {s t u : State} (h : HappenOnly s t) (k : HappenOnly t u) : HappenOnly s u :=
  ⟨by rw [k.1, h.1], fun i => by rw [k.2 i, h.2 i]⟩

theorem HappenOnly.happens (c e : Nat) (l : List Happening) (s : State) : HappenOnly s (modEng c e (fun g => { g with happen := l }) s) := by
  refine ⟨rfl, fun k => ?_⟩
  rw [modEng_def]
  by_cases here : k = 8 * c + e
  · subst here
    simp only [setEng, tget_tset_same]
    rfl
  · simp only [setEng, tget_tset_other _ here]

theorem raiseQueue_happenOnly (c q : Nat) (s : State) : HappenOnly s (raiseQueue c q s) :=
  List.foldlRecOn _ _ (motive := HappenOnly s) (.refl s) fun t ht e _ => by
    split
    · exact ht.trans (.happens c e _ t)
    · exact ht

theorem watchQueue_happenOnly (s0 : State) (c q : Nat) (t : State) : HappenOnly t (watchQueue s0 c q t) := by
  unfold watchQueue
  split
  · exact raiseQueue_happenOnly c q t
  · exact .refl t

theorem HappenOnly.eng {s t : State} (h : HappenOnly s t) (c e : Nat) : eng t c e = { eng s c e with happen := (eng t c e).happen } := h.2 _

/-! ### A register pair (R107) -/

theorem append_halves (v : Word64) : v.extractLsb' 32 32 ++ v.extractLsb' 0 32 = v := by
  refine BitVec.eq_of_getLsbD_eq fun i hi => ?_
  rw [BitVec.getLsbD_append]
  split
  next low => simp [low]
  next high =>
    rw [BitVec.getLsbD_extractLsb', show 32 + (i - 32) = i by omega]
    simp [show i - 32 < 32 by omega]

section
variable {s : State} {c e r : Nat} {v : Word64}

theorem regPair_setPair (nonzero : r ≠ 0) : regPair (setPair c e r v s) c e r = v := by
  simp only [regPair, setPair, regOf_setReg, if_pos trivial, if_neg nonzero, if_neg (Nat.succ_ne_zero r), if_neg (Nat.ne_of_lt (Nat.lt_succ_self r))]
  exact append_halves v

theorem regOf_setPair_other {i : Nat} (out : i ∉ [r, r + 1]) : regOf (setPair c e r v s) c e i = regOf s c e i := by
  simp only [List.mem_cons, List.not_mem_nil, not_or] at out
  rw [setPair, regOf_setReg, if_neg out.2.1, regOf_setReg, if_neg out.1]

end

/-! ### A waiting instruction that completes (R150) -/

section
variable (c e : Nat) (s : State)

theorem eng_resumeEng : eng (resumeEng c e s) c e = { eng s c e with st := .run, wait := .none, pc := (eng s c e).pc + 1 } := by
  rw [resumeEng, retire_eq_retireTo, eng_retireTo_same, modEng_def, eng_setEng_same]

theorem resumeEng_engsOnly : EngsOnly s (resumeEng c e s) := (EngsOnly.setEng ..).trans (.retireTo ..)

end

/-! ### QPOP (R128) -/

section
variable {s : State} {c e q rd : Nat} (plain : qKind s c q = 0 ∨ qKind s c q = 3)
include plain

theorem popHeld_of_plain : popHeld s c q = false := by
  rcases plain with kind | kind <;> simp [popHeld, kind]

theorem qReadable_of_plain : qReadable s c q = qCount s c q := by
  rcases plain with kind | kind <;> rw [qReadable, kind] <;> rfl

/-- The state in which the oldest entry of a plain queue has gone. -/
theorem popInto_of_some (some_ : qCount s c q ≠ 0) : ∃ o, popInto c e q rd s = some (resumeEng c e
    (setPair c e rd (BitVec.ofNat 64 (rdNum s (qEntry c q (qHead s c q)) 8)) (sendCredit c o (qDropFront c q s)))) := by
  obtain ⟨l, entries⟩ := qEntries_head some_
  refine ⟨(origins s c q).headD none, ?_⟩
  have pop : qPop c q s = .entry (rdNum s (qEntry c q (qHead s c q)) 8) (qDropFront c q s |> sendCredit c ((origins s c q).headD none)) := by
    rcases plain with kind | kind <;> rw [qPop, kind] <;> simp only [entries]
  rw [popInto, popHeld_of_plain plain, if_neg Bool.false_ne_true, pop]

theorem popInto_of_none (none_ : qCount s c q = 0) : popInto c e q rd s = none := by
  have pop : qPop c q s = .empty := by
    rcases plain with kind | kind <;> rw [qPop, kind] <;> simp only [qEntries_nil none_]
  rw [popInto, popHeld_of_plain plain, if_neg Bool.false_ne_true, pop]

end

theorem sendCredit_parts (c : Nat) (o : Option (Nat × Nat)) (s : State) :
    (sendCredit c o s).mem = s.mem ∧ (sendCredit c o s).engs = s.engs := by
  cases o <;> exact ⟨rfl, rfl⟩

/-- The pop of a plain queue, by whichever command it completes. -/
theorem pops_of_live {s : State} {c e q rd : Nat} {i : Instr} (bound : s.rsvDirty = false) (few : qCount s c q ≤ 16) (nonzero : rd ≠ 0)
    {v : Word64} {o : Option (Nat × Nat)} (run : exec i s = live s (resumeEng c e (setPair c e rd v (sendCredit c o (qDropFront c q s))))) :
    ∃ t, exec i s = .next t ∧ regPair t c e rd = v ∧ qCount t c q = qCount s c q - 1 ∧ qHead t c q = (qHead s c q + 1) % 16 ∧
      MemKept (qDesc c q + 8) 2 s t ∧ (eng t c e).pc = (eng s c e).pc + 1 ∧ (eng t c e).st = .run ∧ RegsKept c e [rd, rd + 1] s t := by
  obtain ⟨mem, engs⟩ := sendCredit_parts c o (qDropFront c q s)
  set u := sendCredit c o (qDropFront c q s)
  have own : eng u c e = eng s c e := by rw [eng, engs]; rfl
  have regs (r : Nat) : regOf (sicSettle (resumeEng c e (setPair c e rd v u))) c e r = regOf (setPair c e rd v u) c e r := by
    rw [regOf_sicSettle, regOf, eng_resumeEng, regOf]
  have memory : (sicSettle (resumeEng c e (setPair c e rd v u))).mem = (qDropFront c q s).mem := by
    rw [sicSettle_mem, (resumeEng_engsOnly ..).same (·.mem) fun _ _ => rfl, setPair, setReg_mem, setReg_mem, mem]
  obtain ⟨count, head, kept⟩ := dropFront_of_mem memory few
  refine ⟨_, run.trans (live_next bound _), ?_, count, head, kept, ?_, ?_, fun r out => ?_⟩
  · rw [regPair, regs, regs, ← regPair, regPair_setPair nonzero]
  · rw [eng_sicSettle, eng_resumeEng, setPair, pc_setReg, pc_setReg, own]
  · rw [eng_sicSettle, eng_resumeEng]
  · rw [regs, regOf_setPair_other out, regOf, own, regOf]

/-! ### QPUSH (R128) -/

/-- The push to a plain queue, by whichever command it completes. -/
theorem pushes_of_live {s u : State} {c e q : Nat} {i : Instr} (bound : s.rsvDirty = false) (small : q < 64) (room : qCount s c q < 16) {v : Word64}
    {o : Option (Nat × Nat)} (written : HappenOnly (qAppend c q v.toNat o s) u) {t : State} (run : exec i s = live s t) (own : EngsOnly u t)
    (pc : (eng t c e).pc = (eng u c e).pc + 1) (regs : (eng t c e).regs = (eng u c e).regs) :
    ∃ t, exec i s = .next t ∧ qCount t c q = qCount s c q + 1 ∧ qHead t c q = qHead s c q ∧
      rdNum t (qEntry c q (qHead s c q + qCount s c q)) 8 = v.toNat ∧ (eng t c e).pc = (eng s c e).pc + 1 ∧ RegsKept c e [] s t ∧
      ∀ j, j < qCount s c q → rdNum t (qEntry c q (qHead s c q + j)) 8 = rdNum s (qEntry c q (qHead s c q + j)) 8 := by
  have engine := written.eng c e
  have appended : eng (qAppend c q v.toNat o s) c e = eng s c e := rfl
  have memory : (sicSettle t).mem = (qAppend c q v.toNat o s).mem := by
    rw [sicSettle_mem, own.same (·.mem) fun _ _ => rfl, written.1]
  obtain ⟨count, head, last, before⟩ := append_of_mem memory small room v.isLt
  refine ⟨_, run.trans (live_next bound _), count, head, last, ?_, fun r _ => ?_, before⟩
  · rw [eng_sicSettle, pc, engine, appended]
  · rw [regOf_sicSettle, regOf, regs, engine, appended, regOf]

section
variable {s : State} {c e q : Nat} (kind : qKind s c q = 0)
include kind

theorem mayWrite_of_plain : mayWrite s c e q false = bitN (qWriters s c q) e := by simp [mayWrite, kind]

theorem qWrite_of_plain (v : Word64) (o : Option (Nat × Nat)) :
    qWrite c q v o s = if qCount s c q < 16 then some (watchQueue s c q (qAppend c q v.toNat o s)) else none := by
  rw [qWrite, kind, if_neg (by decide)]

end

/-! ### The instructions -/

section
variable {s : State} {c e q : Nat} (small : q < 64)
include small

theorem queueOf_of_lt : queueOf q = q := Nat.mod_eq_of_lt small

theorem exec_qpop_of_issues {rd : Nat} (issues : Issues s c e [rd, rd + 1]) (even : rd % 2 = 0) (nonzero : rd ≠ 0)
    (clean : WordsClean s c (qWords s c q true)) :
    exec (.qpop c e rd 0 0 q) s = live s (if qReader s c q ≠ e then excFree c e 9 s
      else (popInto c e q rd s).getD (waitFor c e .waitQueue (.pop q rd) s)) := by
  have legal : (rd % 2 == 1 || rd == 0 || (0 : Nat) != 0 || (0 : Nat) != 0 || decide (64 ≤ q)) = false := by simp [even, nonzero, small]
  show execQpop c e rd 0 0 q s = _
  rw [execQpop, issueFree_of_issues issues, legal, if_neg Bool.false_ne_true, queueOf_of_lt small, localWords_of_clean clean]

theorem exec_qpush_of_issues {rb : Nat} (issues : Issues s c e [rb, rb + 1]) (even : rb % 2 = 0) (clean : WordsClean s c (qWords s c q false)) :
    exec (.qpush c e 0 0 rb q) s = live s (if !mayWrite s c e q false then exc c e 9 (regOf s c e rb) s
      else queueWrite c e q (qWrite c q (regPair s c e rb) none s) (.push q (regPair s c e rb)) s) := by
  have legal : (rb % 2 == 1 || (0 : Nat) != 0 || (0 : Nat) != 0 || decide (64 ≤ q)) = false := by simp [even, small]
  show execQpush c e 0 0 rb q s = _
  rw [execQpush, issue_of_issues issues, legal, if_neg Bool.false_ne_true, queueOf_of_lt small, localWords_of_clean clean]

theorem exec_qlen_of_issues {rd : Nat} (issues : Issues s c e [rd]) (clean : WordsClean s c (qWords s c q false)) :
    exec (.qlen c e rd 0 0 q) s = live s (retire c e (setReg c e rd (BitVec.ofNat 32 (qReadable s c q)) s)) := by
  have legal : ((0 : Nat) != 0 || (0 : Nat) != 0 || decide (64 ≤ q)) = false := by simp [small]
  show execQlen c e rd 0 0 q s = _
  rw [execQlen, issueFree_of_issues issues, legal, if_neg Bool.false_ne_true, queueOf_of_lt small, localWords_of_clean clean]

end

theorem queueWrite_of_ahead {s : State} {c e q : Nat} {r : Option State} {w : Wait} (stop : r = none ∨ writeAhead s c e q = true) :
    queueWrite c e q r w s = waitFor c e .waitQueue w s := by
  unfold queueWrite
  rcases stop with rfl | ahead
  · simp
  · rw [ahead, if_pos rfl]

theorem queueWrite_of_first {s u : State} {c e q : Nat} {w : Wait} (first : writeAhead s c e q = false) :
    queueWrite c e q (some u) w s = retireTo c e ((eng u c e).pc + 1) u := by
  rw [queueWrite, first, if_neg Bool.false_ne_true]
  rfl

/-- Settles O10: pops and pushes by the rule of a plain queue in memory, whichever command completes them, and their denial by the rule
of an exception. -/
theorem plainQueueForms : Obligations.PlainQueueForms := by
  refine ⟨fun s c e q bound small plain few => ⟨fun rd issues even nonzero reader clean => ⟨fun some_ => ?_, fun none_ => ?_⟩,
    fun rd up waits even nonzero some_ _ clean => ?_, fun rb issues even writer kind clean => ⟨fun room first => ?_, fun stop => ?_⟩,
    fun v up waits kind room _ first clean => ?_, fun rd issues clean => ?_⟩,
    fun s c e r bound free quiet => ⟨fun q small even issues => ⟨fun nonzero other clean => ?_, fun other clean => ?_⟩,
      fun ra issues even large => ?_⟩⟩
  · obtain ⟨o, pop⟩ := popInto_of_some (e := e) (rd := rd) plain some_
    refine pops_of_live (o := o) bound few nonzero ((exec_qpop_of_issues small issues even nonzero clean).trans ?_)
    rw [if_neg (by simp [reader]), pop, Option.getD_some]
  · obtain ⟨t, next, wait, st, mem, -⟩ := waits_of_live bound ((exec_qpop_of_issues small issues even nonzero clean).trans (by
      rw [if_neg (by simp [reader]), popInto_of_none plain none_, Option.getD_none]))
    exact ⟨t, next, wait, st, mem⟩
  · obtain ⟨o, pop⟩ := popInto_of_some (e := e) (rd := rd) plain some_
    refine pops_of_live (o := o) bound few nonzero (?_ : execQpopResume c e s = _)
    simp only [execQpopResume, waits, whileRuns, up, if_true, localWords_of_clean clean, pop, Option.getD_some]
  · have run := exec_qpush_of_issues small issues even clean
    rw [mayWrite_of_plain kind, bitN, writer, if_neg (by decide), qWrite_of_plain kind, if_pos room, queueWrite_of_first first] at run
    exact pushes_of_live bound small room (watchQueue_happenOnly ..) run (.retireTo ..) (by rw [eng_retireTo_same])
      (by rw [eng_retireTo_same])
  · have run := exec_qpush_of_issues small issues even clean
    rw [mayWrite_of_plain kind, bitN, writer, if_neg (by decide), queueWrite_of_ahead] at run
    · obtain ⟨t, next, wait, st, mem, -⟩ := waits_of_live bound run
      exact ⟨t, next, wait, st, mem⟩
    · exact stop.imp (fun full => by rw [qWrite_of_plain kind, if_neg (by omega)]) id
  · have write : waitingWrite c q s e = some (watchQueue s c q (qAppend c q v.toNat none s)) := by
      simp only [waitingWrite, waits, if_true, qWrite_of_plain kind, if_pos room]
    have run : exec (.qpushResume c e) s = live s (resumeEng c e (watchQueue s c q (qAppend c q v.toNat none s))) := by
      show execQpushResume c e s = _
      simp only [execQpushResume, waits, whileRuns, up, if_true, localWords_of_clean clean, first, Bool.false_eq_true, if_false, write]
    exact pushes_of_live bound small room (watchQueue_happenOnly ..) run (resumeEng_engsOnly ..) (by rw [eng_resumeEng]) (by rw [eng_resumeEng])
  · have run := exec_qlen_of_issues small issues clean
    rw [qReadable_of_plain plain] at run
    obtain ⟨t, next, val, regs, retires, -, only⟩ := writes_of_live bound run
    exact ⟨t, next, val, regs, retires, only⟩
  · have run := exec_qpop_of_issues small issues even nonzero clean
    rw [if_pos other] at run
    obtain ⟨t, next, raised⟩ := raised_of_excFree bound free quiet (run_of_canIssue issues.1) (by decide) run
    exact ⟨t, next, raised.code, raised.mem, raised.fab⟩
  · have run := exec_qpush_of_issues small issues even clean
    have no : mayWrite s c e q false = false := by simp [mayWrite, bitN, other]
    rw [no, if_pos (by decide)] at run
    obtain ⟨t, next, raised⟩ := raised_of_exc bound free quiet (run_of_canIssue issues.1) (by decide) run
    exact ⟨t, next, raised.code, raised.mem, raised.fab⟩
  · have run : exec (.qsend c e 0 ra r 0) s = live s (exc c e 9 (regOf s c e ra) s) := by
      have legal : (r % 2 == 1 || (0 : Nat) != 0 || (0 : Nat) != 0) = false := by simp [even]
      show execQsend c e 0 ra r 0 s = _
      rw [execQsend, issue_of_issues issues, legal, if_neg Bool.false_ne_true]
      exact congrArg (live s) (if_pos large)
    obtain ⟨t, next, raised⟩ := raised_of_exc bound free quiet (run_of_canIssue issues.1) (by decide) run
    exact ⟨t, next, raised.code, raised.mem, raised.fab⟩

end Sys2Proof.Machine
end

section
/-! PROOFS. Semaphore instructions (R122-R124, R143-R145). -/

namespace Sys2Proof.Machine

/-! ### A semaphore in memory (R143) -/

section
variable {s t : State} {c id : Nat}

theorem semOf_congr (h : t.mem = s.mem) : semOf t c id = semOf s c id := by rw [semOf, semOf, rdNum, rdNum, h]

theorem semOf_le (s : State) (c id : Nat) : semOf s c id ≤ 65535 := by
  have two : semOf s c id = (getByte s.mem (semAddr c id)).toNat + 256 * ((getByte s.mem (semAddr c id + 1)).toNat + 256 * 0) := rfl
  have low := (getByte s.mem (semAddr c id)).isLt
  have high := (getByte s.mem (semAddr c id + 1)).isLt
  omega

theorem semOf_setSem {v : Nat} (small : v ≤ 65535) : semOf (setSem c id v s) c id = v :=
  (getNum_setNum _ _ _ _).trans (Nat.mod_eq_of_lt (Nat.lt_succ_of_le small))

end

/-! ### The issue of a semaphore instruction (R122, R123) -/

/-- The semaphore operand is one that an instruction may name: a physical id of 8 bits, or a virtual id of a slot. -/
structure SemNamed (s : State) (c e ra imm8 : Nat) : Prop where
  short : imm8 < 64
  physical : imm8.testBit 5 = true → (regOf s c e ra).toNat < 256
  virt : imm8.testBit 5 = false → ra = 0 ∧ getF s (Reg.eng_CUR_SLOT_SLOT c e) < 256

section
variable {s : State} {c e ra imm8 : Nat} (named : SemNamed s c e ra imm8)
include named

theorem semIllegal_of_named {wait : Bool} (field : wait = true ∨ imm8.testBit 5 = true ∨ imm8.testBit 4 = false) :
    semIllegal wait s c e ra imm8 = false := by
  have top : imm8 / 64 = 0 := Nat.div_eq_of_lt named.short
  cases form : imm8.testBit 5 with
  | true => simp [semIllegal, semPhysical, bitN, form, top, named.physical form]
  | false =>
    have bit : wait = true ∨ imm8.testBit 4 = false := by simpa [form] using field
    rcases bit with rfl | bit <;> simp [semIllegal, semPhysical, bitN, (named.virt form).1, *]

theorem semNoSlot_of_named : semNoSlot s c e imm8 = false := by
  cases form : imm8.testBit 5 with
  | true => simp [semNoSlot, semPhysical, bitN, form]
  | false => simp [semNoSlot, semPhysical, bitN, form, (named.virt form).2]

/-- A semaphore instruction with a well-formed operand has its own effect. -/
theorem semOp_of_named {rd rb : Nat} (issues : Issues s c e [rd, ra, rb]) (clean : WordsClean s c (semWords s c e ra imm8)) {wait rdUsed rbUsed : Bool}
    (field : wait = true ∨ imm8.testBit 5 = true ∨ imm8.testBit 4 = false) (noRd : rdUsed = true ∨ rd = 0)
    (noRb : (rbUsed = true ∧ (regOf s c e rb).toNat ≤ 65535) ∨ (rbUsed = false ∧ rb = 0)) (body : Nat → Nat → State → State) :
    semOp wait rdUsed rbUsed c e rd ra rb imm8 body s = body (semId s c e ra imm8) (regOf s c e rb).toNat s := by
  have legal : (semIllegal wait s c e ra imm8 || (!rdUsed && rd != 0) || (!rbUsed && rb != 0)) = false := by
    rw [semIllegal_of_named named field]
    rcases noRd with rfl | rfl <;> rcases noRb with ⟨rfl, -⟩ | ⟨rfl, rfl⟩ <;> simp
  have range : (rbUsed && decide (65535 < (regOf s c e rb).toNat)) = false := by
    rcases noRb with ⟨rfl, small⟩ | ⟨rfl, -⟩
    · simpa using small
    · rfl
  simp only [semOp, issue_of_issues issues, issueFree_of_issues issues, legal, semNoSlot_of_named named, range, localWords_of_clean clean,
    Bool.false_eq_true, if_false, ite_self]

end

/-! ### Passing and waiting -/

/-- The state after a semaphore instruction that leaves the count `v` and goes on. -/
structure SemGoes (c e id v : Nat) (s t : State) : Prop where
  count : semOf t c id = v
  mem : MemKept (semAddr c id) 2 s t
  pc : (eng t c e).pc = (eng s c e).pc + 1
  run : (eng t c e).st = .run
  regs : RegsKept c e [] s t

section
variable {s u : State} {c e id v : Nat}

/-- What goes on from a state in which the count has been written. -/
theorem semGoes_of {t : State} (count : semOf u c id = v) (mem : MemKept (semAddr c id) 2 s u) (engs : u.engs = s.engs) (own : EngsOnly u t)
    (pc : (eng t c e).pc = (eng u c e).pc + 1) (run : (eng t c e).st = .run) (regs : (eng t c e).regs = (eng u c e).regs) :
    SemGoes c e id v s (sicSettle t) := by
  have memory : (sicSettle t).mem = u.mem := by rw [sicSettle_mem, own.same (·.mem) fun _ _ => rfl]
  have engine : eng u c e = eng s c e := by rw [eng, engs, eng]
  refine ⟨(semOf_congr memory).trans count, fun b out => by rw [memory, mem b out], ?_, ?_, fun r _ => ?_⟩
  · rw [eng_sicSettle, pc, engine]
  · rw [eng_sicSettle, run]
  · rw [regOf_sicSettle, regOf, regs, engine, regOf]

theorem semGoes_setSem_retire (small : v ≤ 65535) (run : (eng s c e).st = .run) : SemGoes c e id v s (sicSettle (retire c e (setSem c id v s))) := by
  refine semGoes_of (u := setSem c id v s) (semOf_setSem small) (.wrNum _ _ _ _) rfl (.retireTo ..) ?_ ?_ ?_
  · rw [retire_eq_retireTo, eng_retireTo_same]
  · rw [retire_eq_retireTo, eng_retireTo_same]
    exact run
  · rw [retire_eq_retireTo, eng_retireTo_same]

theorem semGoes_semPass (n : Nat) (sub : Bool) :
    SemGoes c e id (if sub then semOf s c id - n else semOf s c id) s (sicSettle (semPass c e id n sub s)) := by
  have small : semOf s c id - n ≤ 65535 := (Nat.sub_le ..).trans (semOf_le s c id)
  cases sub with
  | true =>
    exact semGoes_of (u := setSem c id (semOf s c id - n) s) (semOf_setSem small) (.wrNum _ _ _ _) rfl (resumeEng_engsOnly ..)
      (by rw [semPass, eng_resumeEng]; rfl) (by rw [semPass, eng_resumeEng]) (by rw [semPass, eng_resumeEng]; rfl)
  | false =>
    exact semGoes_of (u := s) rfl (.of_mem rfl) rfl (resumeEng_engsOnly ..)
      (by rw [semPass, eng_resumeEng]; rfl) (by rw [semPass, eng_resumeEng]) (by rw [semPass, eng_resumeEng]; rfl)

theorem semPasses_of {n : Nat} {sub : Bool} (covered : n ≤ semOf s c id) (first : sub = true → semAhead s c e id = false) :
    semPasses s c e id n sub = true := by
  cases sub <;> simp [semPasses, covered, first]

theorem not_semPasses_of {n : Nat} {sub : Bool} (stop : semOf s c id < n ∨ (sub = true ∧ semAhead s c e id = true)) :
    semPasses s c e id n sub = false := by
  rcases stop with short | ⟨rfl, ahead⟩
  · simp [semPasses, short]
  · simp [semPasses, ahead]

end

end Sys2Proof.Machine
end

section
/-! PROOFS. The semaphore instructions command by command, and herds (R122-R126, R145-R147). -/

namespace Sys2Proof.Machine

/-! ### The semaphore instructions -/

section
variable {s : State} {c e rd ra rb imm8 : Nat} (bound : s.rsvDirty = false) (issues : Issues s c e [rd, ra, rb]) (named : SemNamed s c e ra imm8)
  (clean : WordsClean s c (semWords s c e ra imm8))
include bound issues named clean

section
variable (noRd : rd = 0) (small : (regOf s c e rb).toNat ≤ 65535)
include noRd small

theorem exec_swait_goes (covered : (regOf s c e rb).toNat ≤ semOf s c (semId s c e ra imm8))
    (first : imm8.testBit 4 = true → semAhead s c e (semId s c e ra imm8) = false) :
    ∃ t, exec (.swait c e rd ra rb imm8) s = .next t ∧ SemGoes c e (semId s c e ra imm8)
      (if imm8.testBit 4 then semOf s c (semId s c e ra imm8) - (regOf s c e rb).toNat else semOf s c (semId s c e ra imm8)) s t := by
  have run : exec (.swait c e rd ra rb imm8) s =
      live s (semPass c e (semId s c e ra imm8) (regOf s c e rb).toNat (imm8.testBit 4) s) := by
    show execSwait c e rd ra rb imm8 s = _
    rw [execSwait, semOp_of_named named issues clean (.inl rfl) (.inr noRd) (.inl ⟨rfl, small⟩), bitN, if_pos (semPasses_of covered first)]
  exact ⟨_, run.trans (live_next bound _), semGoes_semPass _ _⟩

theorem exec_swait_waits (stop : semOf s c (semId s c e ra imm8) < (regOf s c e rb).toNat ∨
      (imm8.testBit 4 = true ∧ semAhead s c e (semId s c e ra imm8) = true)) :
    ∃ t, exec (.swait c e rd ra rb imm8) s = .next t ∧
      (eng t c e).wait = .sem (semId s c e ra imm8) (regOf s c e rb).toNat (imm8.testBit 4) ∧
      (eng t c e).st = .waitSync ∧ t.mem = s.mem ∧ (eng t c e).pc = (eng s c e).pc := by
  refine waits_of_live bound ?_
  show execSwait c e rd ra rb imm8 s = _
  rw [execSwait, semOp_of_named named issues clean (.inl rfl) (.inr noRd) (.inl ⟨rfl, small⟩), bitN,
    if_neg (by rw [not_semPasses_of stop]; decide)]

/-- SADD and SSUB: the count is set, and the instruction retires. -/
theorem semSet_goes {i : Instr} {body : Nat → Nat → State → State} {v : Nat} (field : imm8.testBit 5 = true ∨ imm8.testBit 4 = false)
    (run : exec i s = live s (semOp false false true c e rd ra rb imm8 body s)) (inside : v ≤ 65535)
    (does : body (semId s c e ra imm8) (regOf s c e rb).toNat s = retire c e (setSem c (semId s c e ra imm8) v s)) :
    ∃ t, exec i s = .next t ∧ SemGoes c e (semId s c e ra imm8) v s t := by
  refine ⟨_, (run.trans ?_).trans (live_next bound _), semGoes_setSem_retire inside (run_of_canIssue issues.1)⟩
  rw [semOp_of_named named issues clean (.inr field) (.inr noRd) (.inl ⟨rfl, small⟩), does]

theorem exec_sadd_goes (field : imm8.testBit 5 = true ∨ imm8.testBit 4 = false)
    (inside : semOf s c (semId s c e ra imm8) + (regOf s c e rb).toNat ≤ 65535) : ∃ t, exec (.sadd c e rd ra rb imm8) s = .next t ∧
      SemGoes c e (semId s c e ra imm8) (semOf s c (semId s c e ra imm8) + (regOf s c e rb).toNat) s t :=
  semSet_goes bound issues named clean noRd small field rfl inside (if_neg (by omega))

theorem exec_ssub_goes (field : imm8.testBit 5 = true ∨ imm8.testBit 4 = false)
    (covered : (regOf s c e rb).toNat ≤ semOf s c (semId s c e ra imm8)) : ∃ t, exec (.ssub c e rd ra rb imm8) s = .next t ∧
      SemGoes c e (semId s c e ra imm8) (semOf s c (semId s c e ra imm8) - (regOf s c e rb).toNat) s t :=
  semSet_goes bound issues named clean noRd small field rfl ((Nat.sub_le ..).trans (semOf_le ..)) (if_neg (by omega))

end

theorem exec_sread_writes (noRb : rb = 0) (field : imm8.testBit 5 = true ∨ imm8.testBit 4 = false) :
    ∃ t, exec (.sread c e rd ra rb imm8) s = .next t ∧ Writes c e rd (BitVec.ofNat 32 (semOf s c (semId s c e ra imm8))) s t := by
  refine writes_of_live bound ?_
  show execSread c e rd ra rb imm8 s = _
  rw [execSread, semOp_of_named named issues clean (.inr field) (.inl rfl) (.inr ⟨rfl, noRb⟩)]

end

theorem exec_swaitPass_goes {s : State} {c e id n : Nat} {sub : Bool} (bound : s.rsvDirty = false) (up : engRuns s c = true)
    (waits : (eng s c e).wait = .sem id n sub) (covered : n ≤ semOf s c id) (first : sub = true → semAhead s c e id = false)
    (clean : WordsClean s c (storeWords (0x3A400 + 2 * id) 2)) :
    ∃ t, exec (.swaitPass c e) s = .next t ∧ SemGoes c e id (if sub then semOf s c id - n else semOf s c id) s t := by
  have run : exec (.swaitPass c e) s = live s (semPass c e id n sub s) := by
    show execSwaitPass c e s = _
    simp only [execSwaitPass, waits, whileRuns, up, if_true, localWords_of_clean clean, semPasses_of covered first]
  exact ⟨_, run.trans (live_next bound _), semGoes_semPass _ _⟩

/-! ### A herd in memory (R146, R147) -/

theorem rdBits_wrBits_same (a lo w v : Nat) (s : State) : rdBits (wrBits a lo w v s) a lo w = v % 2 ^ w := getBits_setBits_same ..

theorem rdBits_wrBits_apart {a lo w lo' w' : Nat} (h : lo' + w' ≤ lo ∨ lo + w ≤ lo') (v : Nat) (s : State) :
    rdBits (wrBits a lo w v s) a lo' w' = rdBits s a lo' w' := getBits_setBits_apart h ..

/-- The fields of a herd's state. -/
structure HerdFields where
  mask : Nat
  arrived : Nat
  waiting : Nat
  rounds : Nat

def herdOf (s : State) (c h : Nat) : HerdFields := ⟨herdMask s c h, herdArrived s c h, herdWaiting s c h, herdRounds s c h⟩

section
variable (c h v : Nat) (s : State)

theorem herdOf_congr {s t : State} (mem : t.mem = s.mem) : herdOf t c h = herdOf s c h := by
  simp only [herdOf, herdMask, herdArrived, herdWaiting, herdRounds, rdBits, mem]

theorem herdOf_setHerdMask : herdOf (setHerdMask c h v s) c h = { herdOf s c h with mask := v % 2 ^ 6 } := by
  simp only [herdOf, herdMask, herdArrived, herdWaiting, herdRounds, setHerdMask, rdBits_wrBits_same]
  rw [rdBits_wrBits_apart (by omega), rdBits_wrBits_apart (by omega), rdBits_wrBits_apart (by omega)]

theorem herdOf_setHerdArrived : herdOf (setHerdArrived c h v s) c h = { herdOf s c h with arrived := v % 2 ^ 6 } := by
  simp only [herdOf, herdMask, herdArrived, herdWaiting, herdRounds, setHerdArrived, rdBits_wrBits_same]
  rw [rdBits_wrBits_apart (by omega), rdBits_wrBits_apart (by omega), rdBits_wrBits_apart (by omega)]

theorem herdOf_setHerdWaiting : herdOf (setHerdWaiting c h v s) c h = { herdOf s c h with waiting := v % 2 ^ 6 } := by
  simp only [herdOf, herdMask, herdArrived, herdWaiting, herdRounds, setHerdWaiting, rdBits_wrBits_same]
  rw [rdBits_wrBits_apart (by omega), rdBits_wrBits_apart (by omega), rdBits_wrBits_apart (by omega)]

theorem herdOf_setRounds : herdOf (wrBits (herdBase c h) 32 32 v s) c h = { herdOf s c h with rounds := v % 2 ^ 32 } := by
  simp only [herdOf, herdMask, herdArrived, herdWaiting, herdRounds, rdBits_wrBits_same]
  rw [rdBits_wrBits_apart (by omega), rdBits_wrBits_apart (by omega), rdBits_wrBits_apart (by omega)]

theorem setHerdMask_memKept : MemKept (herdBase c h) 1 s (setHerdMask c h v s) := .wrBits v (by decide) s

end

/-- Six bits with another of them set are six bits. -/
theorem or_bit_mod {x e : Nat} (hx : x < 2 ^ 6) (he : e < 6) : (x ||| 2 ^ e) % 2 ^ 6 = x ||| 2 ^ e :=
  Nat.mod_eq_of_lt (Nat.or_lt_two_pow hx (Nat.pow_lt_pow_right (by decide) he))

theorem herdArrived_lt (s : State) (c h : Nat) : herdArrived s c h < 2 ^ 6 := getBits_lt _ _ _ 6
theorem herdWaiting_lt (s : State) (c h : Nat) : herdWaiting s c h < 2 ^ 6 := getBits_lt _ _ _ 6

/-! ### The completion of a round (R126, R147) -/

/-- The engines of `l` that wait in HWAIT on herd `h` go on. -/
def released (c h waiting : Nat) (l : List Nat) (s : State) : State :=
  l.foldl (fun t e => if bitN waiting e && (eng t c e).wait == .herd h then resumeEng c e t else t) s

section
variable (c h : Nat)

theorem eng_resumeEng_other {e f : Nat} (other : f ≠ e) (s : State) : eng (resumeEng c e s) c f = eng s c f := by
  rw [resumeEng, retire_eq_retireTo, eng, eng_retireTo_other _ _ _ _ (by omega), modEng_def, setEng, tget_tset_other _ (by omega), ← eng]

theorem released_engsOnly (waiting : Nat) (l : List Nat) (s : State) : EngsOnly s (released c h waiting l s) :=
  List.foldlRecOn _ _ (motive := EngsOnly s) (.refl s) fun t ht e _ => by
    split
    · exact ht.trans (resumeEng_engsOnly c e t)
    · exact ht

/-- A released engine has completed its HWAIT, and any other stands as before. -/
theorem eng_released (waiting : Nat) {l : List Nat} (once : l.Nodup) (s : State) (f : Nat) :
    eng (released c h waiting l s) c f = if f ∈ l ∧ waiting.testBit f = true ∧ (eng s c f).wait = .herd h then
      { eng s c f with st := .run, wait := .none, pc := (eng s c f).pc + 1 } else eng s c f := by
  induction l generalizing s with
  | nil => simp [released]
  | cons e r ih =>
    obtain ⟨out, rest⟩ := List.nodup_cons.mp once
    set s1 := if bitN waiting e && (eng s c e).wait == .herd h then resumeEng c e s else s with at1
    rw [show released c h waiting (e :: r) s = released c h waiting r s1 from rfl, ih rest]
    by_cases here : f = e
    · subst here
      rw [if_neg (fun k => out k.1), at1]
      by_cases goes : waiting.testBit f = true ∧ (eng s c f).wait = .herd h
      · rw [if_pos (by simp [bitN, goes]), if_pos ⟨List.mem_cons_self, goes⟩, eng_resumeEng]
      · rw [if_neg (by simpa [bitN] using goes), if_neg (fun k => goes k.2)]
    · have same : eng s1 c f = eng s c f := by
        rw [at1]
        split
        · exact eng_resumeEng_other c here s
        · rfl
      simp only [same, List.mem_cons, here, false_or]

/-- Where no engine of `l` has arrived a second time, none arrives in the next round. -/
theorem foldl_herdNext_of_none {l : List Nat} {s : State} (none_ : ∀ f ∈ l, ∀ g w, (eng s c f).wait ≠ .arrive g w) :
    l.foldl (fun t e => herdNext c h e t) s = s := by
  induction l with
  | nil => rfl
  | cons e r ih =>
    obtain ⟨first, rest⟩ := List.forall_mem_cons.mp none_
    have still : herdNext c h e s = s := by
      unfold herdNext
      split
      next g w waits => exact absurd waits (first g w)
      next => rfl
    rw [List.foldl_cons, still, ih rest]

theorem mem_engineOrder {f : Nat} : f ∈ engineOrder ↔ f < 6 := by
  simp only [engineOrder, List.mem_cons, List.not_mem_nil, or_false]
  omega

/-- A round without a second arrival: its fields begin anew, and who waits in HWAIT goes on. -/
theorem herdComplete_spec {s : State} (none_ : ∀ f, f < 6 → ∀ g w, (eng s c f).wait ≠ .arrive g w) :
    let t := herdComplete c h s
    herdOf t c h = ⟨herdMask s c h, 0, 0, (herdRounds s c h + 1) % 2 ^ 32⟩ ∧
    ∀ f, f < 6 → eng t c f = if (herdWaiting s c h).testBit f = true ∧ (eng s c f).wait = .herd h then
      { eng s c f with st := .run, wait := .none, pc := (eng s c f).pc + 1 } else eng s c f := by
  intro t
  set s1 := s |> setHerdArrived c h 0 |> setHerdWaiting c h 0 |> wrBits (herdBase c h) 32 32 (herdRounds s c h + 1) with at1
  have fields : herdOf s1 c h = ⟨herdMask s c h, 0, 0, (herdRounds s c h + 1) % 2 ^ 32⟩ := by
    rw [at1, herdOf_setRounds, herdOf_setHerdWaiting, herdOf_setHerdArrived]
    rfl
  have own (f : Nat) : eng s1 c f = eng s c f := rfl
  have release (f : Nat) : eng (released c h (herdWaiting s c h) engineOrder s1) c f =
      if f ∈ engineOrder ∧ (herdWaiting s c h).testBit f = true ∧ (eng s c f).wait = .herd h then
        { eng s c f with st := .run, wait := .none, pc := (eng s c f).pc + 1 } else eng s c f := by
    rw [eng_released c h _ (by decide), own]
  have eq : t = released c h (herdWaiting s c h) engineOrder s1 := by
    refine foldl_herdNext_of_none c h fun f in_ g w => ?_
    show (eng (released c h (herdWaiting s c h) engineOrder s1) c f).wait ≠ _
    rw [release]
    split
    · exact Wait.noConfusion
    · exact none_ f (mem_engineOrder.mp in_) g w
  rw [eq]
  refine ⟨(herdOf_congr c h ((released_engsOnly ..).same (·.mem) fun _ _ => rfl)).trans fields, fun f small => ?_⟩
  rw [release]
  simp only [mem_engineOrder, small, true_and]

end

/-! ### The herd instructions -/

theorem exec_hdef_of_issues {s : State} {c h ra : Nat} (issues : Issues s c 5 [ra]) (small : h < 8) (clean : WordsClean s c (herdWords h))
    (free : herdArrived s c h = 0) :
    exec (.hdef c 5 0 ra 0 h) s = live s (retire c 5 (setHerdMask c h ((regOf s c 5 ra).toNat % 64) s)) := by
  have legal : ((5 : Nat) != 5 || (0 : Nat) != 0 || (0 : Nat) != 0 || decide (8 ≤ h)) = false := by simp [small]
  show execHdef c 5 0 ra 0 h s = _
  rw [execHdef, issue_of_issues issues, legal, if_neg Bool.false_ne_true, localWords_of_clean clean, if_neg (by simp [free])]

theorem exec_hfree_of_issues {s : State} {c h : Nat} (issues : Issues s c 5 []) (small : h < 8) (clean : WordsClean s c (herdWords h))
    (free : herdArrived s c h = 0) : exec (.hfree c 5 0 0 0 h) s = live s (retire c 5 (setHerdMask c h 0 s)) := by
  have legal : ((5 : Nat) != 5 || (0 : Nat) != 0 || (0 : Nat) != 0 || (0 : Nat) != 0 || decide (8 ≤ h)) = false := by simp [small]
  show execHfree c 5 0 0 0 h s = _
  rw [execHfree, issueFree_of_issues issues, legal, if_neg Bool.false_ne_true, localWords_of_clean clean, if_neg (by simp [free])]

/-- A herd's new mask. -/
theorem herdMask_of_live {s : State} {c e h v : Nat} {o : Host.Outcome State Fault Refusal} (bound : s.rsvDirty = false) (small : v < 64)
    (run : o = live s (retire c e (setHerdMask c h v s))) :
    ∃ t, o = .next t ∧ herdMask t c h = v ∧ MemKept (herdBase c h) 1 s t ∧ (eng t c e).pc = (eng s c e).pc + 1 ∧ RegsKept c e [] s t := by
  have mem : (sicSettle (retire c e (setHerdMask c h v s))).mem = (setHerdMask c h v s).mem := by
    rw [sicSettle_mem, retire_eq_retireTo, retireTo_mem]
  have mask := congrArg HerdFields.mask ((herdOf_congr c h mem).trans (herdOf_setHerdMask c h v s))
  refine ⟨_, run.trans (live_next bound _), mask.trans (Nat.mod_eq_of_lt small), fun b out => ?_, ?_, fun r _ => ?_⟩
  · rw [mem]
    exact setHerdMask_memKept c h v s b out
  · rw [eng_sicSettle, retire_eq_retireTo, eng_retireTo_same]
    rfl
  · rw [regOf_sicSettle, retire_eq_retireTo, regOf_retireTo]
    rfl

theorem herdOp_of_issues {s : State} {c e h : Nat} {wait : Bool} (issues : Issues s c e []) (small : h < 8) (clean : WordsClean s c (herdWords h))
    (member : (herdMask s c h).testBit e = true) : herdOp wait c e 0 0 0 h s = herdArrive c e h wait s := by
  have legal : ((0 : Nat) != 0 || (0 : Nat) != 0 || (0 : Nat) != 0 || decide (8 ≤ h)) = false := by simp [small]
  rw [herdOp, issueFree_of_issues issues, legal, if_neg Bool.false_ne_true, localWords_of_clean clean, bitN, member, if_neg (by decide)]

section
variable {s : State} {c e h : Nat} (small : e < 6)
include small

theorem herdOf_herdMark : herdOf (herdMark c e h false s) c h = { herdOf s c h with arrived := herdArrived s c h ||| 2 ^ e } := by
  rw [show herdMark c e h false s = setHerdArrived c h (herdArrived s c h ||| 2 ^ e) s from rfl, herdOf_setHerdArrived,
    or_bit_mod (herdArrived_lt s c h) small]

variable {wait : Bool} (fresh : (herdArrived s c h).testBit e = false)
include fresh

/-- The arrival that fills the mask. -/
theorem herdArrive_of_full (full : (herdArrived s c h ||| 2 ^ e) &&& herdMask s c h = herdMask s c h) :
    herdArrive c e h wait s = herdComplete c h (retire c e (herdMark c e h false s)) := by
  have fields := herdOf_herdMark (s := s) (c := c) (h := h) small
  have arrived := congrArg HerdFields.arrived fields
  have mask := congrArg HerdFields.mask fields
  change herdArrived _ c h = _ at arrived
  change herdMask _ c h = herdMask s c h at mask
  rw [herdArrive, bitN, fresh, if_neg Bool.false_ne_true]
  simp only [arrived, mask, full, if_true]

/-- An arrival after which others are still awaited. -/
theorem herdArrive_of_open (open_ : (herdArrived s c h ||| 2 ^ e) &&& herdMask s c h ≠ herdMask s c h) :
    herdArrive c e h wait s = if wait then waitFor c e .waitSync (.herd h)
        (setHerdWaiting c h (herdWaiting s c h ||| 2 ^ e) (herdMark c e h false s))
      else retire c e (herdMark c e h false s) := by
  have fields := herdOf_herdMark (s := s) (c := c) (h := h) small
  have arrived := congrArg HerdFields.arrived fields
  have mask := congrArg HerdFields.mask fields
  have waiting := congrArg HerdFields.waiting fields
  change herdArrived _ c h = _ at arrived
  change herdMask _ c h = herdMask s c h at mask
  change herdWaiting _ c h = herdWaiting s c h at waiting
  rw [herdArrive, bitN, fresh, if_neg Bool.false_ne_true]
  simp only [arrived, mask, waiting, if_neg open_]

end

/-- A completed round, by whichever instruction arrived last. -/
theorem herdComplete_of_live {s : State} {c e h : Nat} {o : Host.Outcome State Fault Refusal} (bound : s.rsvDirty = false) (small : e < 6)
    (away : (herdWaiting s c h).testBit e = false) (none_ : ∀ f, f < 6 → ∀ g w, (eng s c f).wait ≠ .arrive g w)
    (run : o = live s (herdComplete c h (retire c e (herdMark c e h false s)))) :
    ∃ t, o = .next t ∧ herdArrived t c h = 0 ∧ herdWaiting t c h = 0 ∧ herdRounds t c h = (herdRounds s c h + 1) % 2 ^ 32 ∧
      herdMask t c h = herdMask s c h ∧ (eng t c e).pc = (eng s c e).pc + 1 ∧
      ∀ f, f < 6 → (herdWaiting s c h).testBit f = true → (eng s c f).wait = .herd h →
        (eng t c f).st = .run ∧ (eng t c f).pc = (eng s c f).pc + 1 := by
  set r := retire c e (herdMark c e h false s) with at_
  have own : eng r c e = { eng s c e with pc := (eng s c e).pc + 1 } := by
    rw [at_, retire_eq_retireTo, eng_retireTo_same]
    rfl
  have others {f : Nat} (other : f ≠ e) : eng r c f = eng s c f := by
    rw [eng, at_, retire_eq_retireTo, eng_retireTo_other _ _ _ _ (by omega)]
    rfl
  have waits (f : Nat) : (eng r c f).wait = (eng s c f).wait := by
    by_cases here : f = e
    · subst here
      rw [own]
    · rw [others here]
  have fields : herdOf r c h = { herdOf s c h with arrived := herdArrived s c h ||| 2 ^ e } :=
    (herdOf_congr c h (by rw [at_, retire_eq_retireTo, retireTo_mem])).trans (herdOf_herdMark small)
  have mask : herdMask r c h = herdMask s c h := congrArg HerdFields.mask fields
  have waiting : herdWaiting r c h = herdWaiting s c h := congrArg HerdFields.waiting fields
  have rounds : herdRounds r c h = herdRounds s c h := congrArg HerdFields.rounds fields
  obtain ⟨after, engines⟩ := herdComplete_spec c h (s := r) fun f hf g w => waits f ▸ none_ f hf g w
  have settled : herdOf (sicSettle (herdComplete c h r)) c h = _ := (herdOf_congr c h (sicSettle_mem _)).trans after
  rw [mask, rounds] at settled
  refine ⟨_, run.trans (live_next bound _), congrArg HerdFields.arrived settled, congrArg HerdFields.waiting settled,
    congrArg HerdFields.rounds settled, congrArg HerdFields.mask settled, ?_, fun f hf bit on => ?_⟩
  · rw [eng_sicSettle, engines e small, waiting, away, if_neg (fun k => Bool.false_ne_true k.1), own]
  · have other : f ≠ e := by
      rintro rfl
      rw [away] at bit
      exact Bool.false_ne_true bit
    rw [eng_sicSettle, engines f hf, waiting, if_pos ⟨bit, (waits f).trans on⟩, others other]
    exact ⟨rfl, rfl⟩

/-- An arrival that goes on before the round is complete. -/
theorem arrives_of_live {s : State} {c e h : Nat} {o : Host.Outcome State Fault Refusal} (bound : s.rsvDirty = false) (small : e < 6)
    (run : o = live s (retire c e (herdMark c e h false s))) :
    ∃ t, o = .next t ∧ herdArrived t c h = herdArrived s c h ||| 2 ^ e ∧ (eng t c e).pc = (eng s c e).pc + 1 ∧
      herdMask t c h = herdMask s c h := by
  have fields : herdOf (sicSettle (retire c e (herdMark c e h false s))) c h = _ :=
    (herdOf_congr c h (by rw [sicSettle_mem, retire_eq_retireTo, retireTo_mem])).trans (herdOf_herdMark small)
  refine ⟨_, run.trans (live_next bound _), congrArg HerdFields.arrived fields, ?_, congrArg HerdFields.mask fields⟩
  rw [eng_sicSettle, retire_eq_retireTo, eng_retireTo_same]
  rfl

/-- An arrival that waits for the rest of the round. -/
theorem arrivesWaiting_of_live {s : State} {c e h : Nat} {o : Host.Outcome State Fault Refusal} (bound : s.rsvDirty = false) (small : e < 6)
    (run : o = live s (waitFor c e .waitSync (.herd h) (setHerdWaiting c h (herdWaiting s c h ||| 2 ^ e) (herdMark c e h false s)))) :
    ∃ t, o = .next t ∧ herdArrived t c h = herdArrived s c h ||| 2 ^ e ∧ herdWaiting t c h = herdWaiting s c h ||| 2 ^ e ∧
      (eng t c e).wait = .herd h ∧ (eng t c e).pc = (eng s c e).pc := by
  set u := setHerdWaiting c h (herdWaiting s c h ||| 2 ^ e) (herdMark c e h false s) with at_
  have fields : herdOf (sicSettle (waitFor c e .waitSync (.herd h) u)) c h =
      { herdOf s c h with arrived := herdArrived s c h ||| 2 ^ e, waiting := herdWaiting s c h ||| 2 ^ e } := by
    have mem : (sicSettle (waitFor c e .waitSync (.herd h) u)).mem = u.mem := sicSettle_mem _
    rw [herdOf_congr c h mem, at_, herdOf_setHerdWaiting, herdOf_herdMark small,
      or_bit_mod (herdWaiting_lt s c h) small]
  refine ⟨_, run.trans (live_next bound _), congrArg HerdFields.arrived fields, congrArg HerdFields.waiting fields, ?_, ?_⟩
  all_goals rw [eng_sicSettle, waitFor, modEng_def, eng_setEng_same]
  rfl

/-- Settles O8: each semaphore instruction by what the count becomes, and each herd instruction by what the fields of the herd become. -/
theorem semaphoreAndHerdForms : Obligations.SemaphoreAndHerdForms := by
  refine ⟨fun s c e bound => ⟨fun rd ra rb imm8 issues short physical virt => ?_, fun id n sub up waits covered first clean => ?_⟩,
    fun s c e h bound small clean => ⟨fun ra issues free => ?_, fun issues free => ?_, fun issues member away none_ => ⟨fun again => ?_,
      fun fresh => ⟨fun full => ?_, fun open_ => ?_⟩⟩⟩⟩
  · intro id n k clean goes
    have named : SemNamed s c e ra imm8 := ⟨short, physical, virt⟩
    have passes {i : Instr} {v : Nat} (h : ∃ t, exec i s = .next t ∧ SemGoes c e id v s t) : goes i v := by
      obtain ⟨t, next, count, mem, pc, run, regs⟩ := h
      exact ⟨t, next, count, mem, pc, run, regs⟩
    refine ⟨fun noRd range => ⟨fun covered first => ?_, fun stop => ?_, fun field => ⟨fun inside => ?_, fun covered => ?_⟩⟩, fun noRb field => ?_⟩
    · exact passes (exec_swait_goes bound issues named clean noRd range covered first)
    · exact exec_swait_waits bound issues named clean noRd range stop
    · exact passes (exec_sadd_goes bound issues named clean noRd range field inside)
    · exact passes (exec_ssub_goes bound issues named clean noRd range field covered)
    · obtain ⟨t, next, val, regs, retires, -, only⟩ := exec_sread_writes bound issues named clean noRb field
      exact ⟨t, next, val, regs, retires, only⟩
  · obtain ⟨t, next, count, -, pc, run, -⟩ := exec_swaitPass_goes bound up waits covered first clean
    exact ⟨t, next, count, run, pc⟩
  · exact herdMask_of_live bound (Nat.mod_lt _ (by decide)) (exec_hdef_of_issues issues small clean free)
  · exact herdMask_of_live bound (by decide) (exec_hfree_of_issues issues small clean free)
  · have stalls {i : Instr} {wait : Bool} (run : exec i s = live s (herdOp wait c e 0 0 0 h s)) :
        ∃ t, exec i s = .next t ∧ (eng t c e).wait = .arrive h wait ∧ t.mem = s.mem ∧ (eng t c e).pc = (eng s c e).pc := by
      rw [herdOp_of_issues issues small clean member, herdArrive, bitN, again, if_pos rfl] at run
      obtain ⟨t, next, wait, -, mem, pc⟩ := waits_of_live bound run
      exact ⟨t, next, wait, mem, pc⟩
    simp only [List.forall_mem_cons]
    exact ⟨stalls rfl, stalls rfl, List.forall_mem_nil _⟩
  · have engine := eng_lt_of_canIssue issues.1
    have completes {i : Instr} {wait : Bool} (run : exec i s = live s (herdOp wait c e 0 0 0 h s)) := by
      rw [herdOp_of_issues issues small clean member, herdArrive_of_full engine fresh full] at run
      exact herdComplete_of_live bound engine away none_ run
    simp only [List.forall_mem_cons]
    exact ⟨completes rfl, completes rfl, List.forall_mem_nil _⟩
  · have engine := eng_lt_of_canIssue issues.1
    have effect (wait : Bool) := congrArg (live s)
      ((herdOp_of_issues (wait := wait) issues small clean member).trans (herdArrive_of_open engine fresh open_))
    exact ⟨arrives_of_live bound engine (effect false), arrivesWaiting_of_live bound engine (effect true)⟩

end Sys2Proof.Machine
end

section
/-! PROOFS. A refutation by a run: a stalled QSEND of an engine and on a route that no core has (R158, R159). -/

namespace Sys2Proof.Machine

/-- "Engine 6" of core 0 stalls first on "route 438", which has one credit. A core has six engines and 32 routes, so that no command is
known to lead to it; CREDITS of a route 438 would stand in the high word of RETIRED of an engine 6, whose low word is at its largest. -/
def strayStall : State :=
  .reset |> modEng 0 6 (fun g => { g with wait := .qsend 438 0 0 0 }) |> modCore 0 (fun k => { k with stalled := [6] })
    |> putF (Reg.eng_RETIRED_COUNT 0 6) (2 ^ 33 - 1)

theorem strayStall_resumes : Bound strayStall ∧ engRuns strayStall 0 = true ∧ (eng strayStall 0 6).wait = .qsend 438 0 0 0 ∧
    (stalledOn strayStall 0 438).head? = some 6 ∧ getF strayStall (Reg.sq_CHAN_ROUTE_CREDITS 0 438) = 1 ∧
    sendBlocked strayStall 0 = false := by
  unfold Bound; decide +kernel

theorem qsendResume_strayStall_credits : Leaves (exec (.qsendResume 0 6) strayStall) (fun t =>
    getF t (Reg.sq_CHAN_ROUTE_CREDITS 0 438) == 1) = true := by decide +kernel

/-- Refutes O11: its clause of a QSEND that is tried again is claimed of every engine and route number, so of an engine 6 on a route 438.
The pair goes and its credit is spent, and the retirement that follows carries into the word in which that route's CREDITS would stand:
it reads 1 again. -/
theorem not_combiningAndChannels : ¬ Obligations.CombiningAndChannels := by
  unfold Obligations.CombiningAndChannels
  intro h
  obtain ⟨clean, up, waits, first, one, open_⟩ := strayStall_resumes
  obtain ⟨-, -, resumed⟩ := h strayStall 0 6 clean
  obtain ⟨t, run, spent, -⟩ := resumed 438 0 0 0 up waits first (by rw [one]; decide) open_
  have again := leaves_of_next run qsendResume_strayStall_credits
  rw [spent, one] at again
  exact absurd again (by decide)

end Sys2Proof.Machine
end

section
/-! PROOFS. Writes to queues from outside a core, and the registers below the cores, which they leave as they are (R149-R152, R158, R160,
R168). -/

namespace Sys2Proof.Machine

/-! ### Registers below the windows of the cores (R24) -/

/-- Every register word below the windows of the cores reads in `t` as in `s`. -/
def LowKept (s t : State) : Prop := ∀ a : Nat, a < 0x0100000000 → rdWord t a = rdWord s a

namespace LowKept

variable {s t u : State}

theorem trans (h : LowKept s t) (k : LowKept t u) : LowKept s u := fun a low => (k a low).trans (h a low)

theorem of_csr (h : t.csr = s.csr) : LowKept s t := fun a _ => rdWord_congr h a

theorem refl (s : State) : LowKept s s := of_csr rfl

theorem putF {f : FieldRef} (high : 0x0100000000 ≤ f.addr) (v : Nat) (s : State) : LowKept s (putF f v s) :=
  fun a low => rdWord_putF_outside f v a s fun j _ => by omega

theorem getF {f : FieldRef} (h : LowKept s t) (low : f.addr + 4 * fieldWords f ≤ 0x0100000000) : getF t f = getF s f := by
  unfold Machine.getF
  rw [rdWords_congr f.addr (fieldWords f) fun i hi => h _ (by omega)]

theorem isSet {f : FieldRef} (h : LowKept s t) (low : f.addr + 4 * fieldWords f ≤ 0x0100000000) : isSet t f = isSet s f :=
  isSet_of_getF (h.getF low)

theorem foldl {α : Type} {g : State → α → State} (h : ∀ t x, LowKept t (g t x)) (l : List α) (s : State) : LowKept s (l.foldl g s) :=
  List.foldlRecOn l g (motive := LowKept s) (refl s) fun t ht x _ => ht.trans (h t x)

theorem coreFault (c kind engine store off : Nat) (s : State) : LowKept s (coreFault c kind engine store off s) := by
  unfold Machine.coreFault
  have first := putF (f := ⟨Reg.core_FAULT_STATUS c, kind, 1⟩) (by simp only [Reg.core_FAULT_STATUS]; omega) 1 s
  extract_lets t
  split
  · exact first
  · exact first.trans fun a low => rdWord_wrWord_other (by simp only [Reg.core_FAULT_INFO]; omega) _ t

theorem coreEccFix (c e o : Nat) (s : State) : LowKept s (coreEccFix c e o s) := by
  unfold Machine.coreEccFix
  split
  · have counted : LowKept (clearEcc (eccWordOf c o) s) (incSat (Reg.core_ECC_CORR_COUNT_COUNT c) (clearEcc (eccWordOf c o) s)) :=
      putF (by simp only [Reg.core_ECC_CORR_COUNT_COUNT]; omega) _ _
    exact (of_csr rfl).trans (counted.trans (coreFault c 0 e _ _ _))
  · exact refl s

theorem resumeEng (c e : Nat) (s : State) : LowKept s (resumeEng c e s) :=
  (of_csr (setEng_csr ..)).trans <| (of_csr (setEng_csr ..)).trans <| putF (by simp only [Reg.eng_RETIRED_COUNT]; omega) _ _

end LowKept

/-! ### Writes to a queue (R149, R150, R152) -/

theorem watchQueue_csr (s0 : State) (c q : Nat) (t : State) : (watchQueue s0 c q t).csr = t.csr := by
  rw [(watchQueue_happenOnly s0 c q t).1]

theorem sendCredit_csr (c : Nat) (o : Option (Nat × Nat)) (s : State) : (sendCredit c o s).csr = s.csr := by
  cases o <;> rfl

theorem qAppend_csr (c q v : Nat) (o : Option (Nat × Nat)) (s : State) : (qAppend c q v o s).csr = s.csr := rfl

theorem qContribute_csr {s t : State} {c q tag : Nat} {v : Word} {o : Option (Nat × Nat)} (h : qContribute c q tag v o s = some t) :
    t.csr = s.csr := by
  unfold qContribute at h
  split at h
  · obtain rfl := Option.some.inj h
    rw [sendCredit_csr, watchQueue_csr, wrNum_def, setMem_csr]
  · split at h
    · obtain rfl := Option.some.inj h
      rw [sendCredit_csr, watchQueue_csr, qAppend_csr]
    · cases h

theorem qWrite_csr {s t : State} {c q : Nat} {v : Word64} {o : Option (Nat × Nat)} (h : qWrite c q v o s = some t) : t.csr = s.csr := by
  unfold qWrite at h
  split at h
  · exact qContribute_csr h
  · split at h
    · obtain rfl := Option.some.inj h
      rw [watchQueue_csr, qAppend_csr]
    · cases h

theorem waitingWrite_csr {s t : State} {c q f : Nat} (h : waitingWrite c q s f = some t) : t.csr = s.csr := by
  unfold waitingWrite at h
  split at h
  · split at h
    · exact qWrite_csr h
    · cases h
  · split at h
    · exact qContribute_csr h
    · cases h
  · cases h

/-! ### The external port (R151) -/

theorem LowKept.settleWrites (c q : Nat) (s : State) : LowKept s (settleWrites c q s) :=
  LowKept.foldl (fun t f => by
    split
    next u write => exact (LowKept.of_csr (waitingWrite_csr write)).trans (.resumeEng c f u)
    next => exact .refl t) _ s

theorem deliverPair_csr (c : Nat) (s : State) : (deliverPair c s).csr = s.csr := by
  unfold deliverPair
  split
  · rfl
  extract_lets s1
  split
  · rfl
  split
  · rfl
  split
  next t write => rw [judged_csr, qWrite_csr write]; rfl
  next => rfl

theorem LowKept.earlierWrites (c q : Nat) (s : State) : LowKept s (earlierWrites c q s) := by
  unfold Machine.earlierWrites
  have settled := LowKept.settleWrites c q s
  extract_lets t
  split
  · exact settled.trans (.of_csr (deliverPair_csr c t))
  · exact settled

theorem LowKept.outsideMeet {c : Nat} {ws : List Nat} {s t : State} (h : outsideMeet c ws s = some t) : LowKept s t := by
  unfold Machine.outsideMeet at h
  split at h
  · cases h
  · obtain rfl := Option.some.inj h
    exact .foldl (fun t w => .coreEccFix c 7 w t) ws s

theorem LowKept.externalPush (c q : Nat) (v : Word64) (s : State) : LowKept s (externalPush c q v s) := by
  unfold Machine.externalPush
  split
  · exact .of_csr rfl
  next m meets =>
    have met := LowKept.outsideMeet meets
    split
    · exact met.trans (.putF (by simp only [Reg.sq_QLEVEL_DENIED]; omega) 1 m)
    · have earlier := met.trans (.earlierWrites c q m)
      extract_lets t
      split
      next u write => exact earlier.trans (.of_csr (qWrite_csr write))
      next => exact earlier.trans (.putF (by simp only [Reg.sq_QLEVEL_OVERRUN]; omega) 1 t)

theorem govAdd_csr (a : GovAct) (s : State) : (govAdd a s).csr = s.csr := by
  unfold govAdd
  split <;> rfl

theorem wakeBlock_csr (b : Nat) (s : State) : (wakeBlock b s).csr = s.csr := by
  unfold wakeBlock
  split
  · exact govAdd_csr _ s
  · rfl

theorem wakeCore_csr (c : Nat) (s : State) : (wakeCore c s).csr = s.csr := by
  unfold wakeCore
  extract_lets t
  split
  · rw [govAdd_csr, wakeBlock_csr]
    rfl
  · rfl

/-- What the mailbox unit brings to the SQ leaves every register that is not a core's (R168). -/
theorem LowKept.pushSq (c n ty data : Nat) (s : State) : LowKept s (pushSq c n ty data s) := by
  unfold Machine.pushSq
  split
  · exact .refl s
  · have woken : LowKept s (wakeCore c s) := .of_csr (wakeCore_csr c s)
    exact woken.trans ((LowKept.externalPush c 61 _ _).trans (.of_csr rfl))

end Sys2Proof.Machine
end

section
/-! PROOFS. Mailboxes: a word that is delivered, an acknowledgement, a timeout, and what the mailbox unit takes of an SQ (R165-R168). -/

namespace Sys2Proof.Machine

/-! ### A write that has an effect of its own (R38) -/

/-- `u` is `s` but for the reply and the held low words, which an access changes before it has its effect (R38). -/
def Begun (s u : State) : Prop := u = { s with reply := u.reply, held := u.held }

namespace Begun

variable {s u : State}

theorem csr (h : Begun s u) : u.csr = s.csr := by rw [h]
theorem mem (h : Begun s u) : u.mem = s.mem := by rw [h]
theorem fw (h : Begun s u) : u.fw = s.fw := by rw [h]

end Begun

theorem csrEffect_of_word {s : State} {p : Party} {a : Nat} {b : RegBlock} {blk : Nat} {peek : Bool} {w : WordAt}
    (at_ : csrAt a = .word b blk peek w) (ok : csrOk s p a true = true) (body : State → State) :
    ∃ u, Begun s u ∧ csrEffect p a body s = imgNote a (body u) := by
  refine ⟨dropHeld p blk { s with reply := .done }, rfl, ?_⟩
  rw [csrEffect, csrDo_write32 ok]
  simp only [at_]

/-- A register word stands where its block's table has a row for it. -/
theorem csrAt_of_row {a : Nat} {b : RegBlock} {r : RegRow} (block : findBlock a = some b) (low : blockOff b a < 0x800)
    (row : b.rows.find? (rowHolds (blockOff b a)) = some r) :
    csrAt a = .word b (blockStart b a) false
      ⟨r, blockStart b a + blockOff b a - (blockOff b a - r.off) % r.stride, (blockOff b a - r.off) % r.stride / 4⟩ := by
  have peek : (pageHasRc b (blockOff b a / 4096) && decide (0x800 ≤ blockOff b a % 4096)) = false := by
    rw [Nat.mod_eq_of_lt (by omega), decide_eq_false (by omega), Bool.and_false]
  simp only [csrAt, block, peek, Bool.false_eq_true, if_false, row]

/-- The block of the mailboxes. -/
def mbxBlock : RegBlock := ⟨0x0002400000, 0x1000000, 1, 0x2000, .none, rows_mbx⟩

theorem findBlock_mbx {o : Nat} (h : o < 4096) : findBlock (0x0002400000 + o) = some mbxBlock := by
  rw [show 0x0002400000 = 4096 * 0x2400 from rfl, findBlock_page _ h]
  decide

theorem csrAt_mbx {o : Nat} {r : RegRow} (low : o < 0x800) (row : rows_mbx.find? (rowHolds o) = some r) :
    ∃ w, csrAt (0x0002400000 + o) = .word mbxBlock 0x0002400000 false w := by
  have off : blockOff mbxBlock (0x0002400000 + o) = o := by
    simp only [blockOff, mbxBlock]
    omega
  have at_ := csrAt_of_row (findBlock_mbx (o := o) (by omega)) (off.trans_lt low) ((congrArg (fun x => rows_mbx.find? (rowHolds x)) off).trans row)
  rw [blockStart, off, Nat.add_sub_cancel] at at_
  exact ⟨_, at_⟩

section
variable {n : Nat} (small : n < 64)
include small

theorem csrAt_mbxData : ∃ w, csrAt (Reg.mbx_MBX_DATA n) = .word mbxBlock 0x0002400000 false w := by
  have row : rows_mbx.find? (rowHolds (4 + n * 16)) = rows_mbx[1]? :=
    (List.find?_cons_of_neg (by simp [rowHolds])).trans (List.find?_cons_of_pos (by simp [rowHolds]; omega))
  have at_ := csrAt_mbx (o := 4 + n * 16) (by omega) row
  rwa [← Nat.add_assoc] at at_

theorem csrAt_mbxAck : ∃ w, csrAt (Reg.mbx_MBX_ACK n) = .word mbxBlock 0x0002400000 false w := by
  have row : rows_mbx.find? (rowHolds (12 + n * 16)) = rows_mbx[3]? :=
    (List.find?_cons_of_neg (by simp [rowHolds])).trans <| (List.find?_cons_of_neg (by simp [rowHolds]; omega)).trans <|
      (List.find?_cons_of_neg (by simp [rowHolds]; omega)).trans (List.find?_cons_of_pos (by simp [rowHolds]; omega))
  have at_ := csrAt_mbx (o := 12 + n * 16) (by omega) row
  rwa [← Nat.add_assoc] at at_

end

/-! ### Registers beside the mailboxes -/

/-- Every register word outside the block of the mailboxes reads in `t` as in `s`. -/
def MbxOnly (s t : State) : Prop := ∀ a : Nat, a < 0x0002400000 ∨ 0x0002402000 ≤ a → rdWord t a = rdWord s a

namespace MbxOnly

variable {s t u : State}

theorem trans (h : MbxOnly s t) (k : MbxOnly t u) : MbxOnly s u := fun a out => (k a out).trans (h a out)

theorem of_csr (h : t.csr = s.csr) : MbxOnly s t := fun a _ => rdWord_congr h a

theorem putF {f : FieldRef} (low : 0x0002400000 ≤ f.addr) (high : f.addr + 4 * fieldWords f ≤ 0x0002402000) (v : Nat) (s : State) :
    MbxOnly s (putF f v s) :=
  fun a out => rdWord_putF_outside f v a s fun j hj => by omega

theorem getF {f : FieldRef} (h : MbxOnly s t) (out : f.addr + 4 * fieldWords f ≤ 0x0002400000 ∨ 0x0002402000 ≤ f.addr) :
    getF t f = getF s f := by
  unfold Machine.getF
  rw [rdWords_congr f.addr (fieldWords f) fun i hi => h _ (by omega)]

end MbxOnly

/-! ### A word in a mailbox (R165-R167) -/

section
variable (n : Nat) (v : Word) (s : State)

/-- Mailbox `n` takes word `v` under its configuration. -/
def boxed : State :=
  { s with mbx := tset n (rdWord s (Reg.mbx_MBX_CFG n)) s.mbx } |> wrWord (Reg.mbx_MBX_DATA n) v |> setF (Reg.mbx_MBX_STATUS_FULL n)

/-- The receiver of mailbox `n` learns of the word: its doorbell, or an entry of its queue 61 (R166, R168). -/
def notified (cfg : Word) : State :=
  if cfgReceiver cfg < 10 then flagF (Reg.mbx_DB_PEND_PEND (cfgReceiver cfg)) (cfgDoorbell cfg) s
  else if cfgReceiver cfg = 10 then pushSq (cfgCore cfg) n 0 v.toNat s
  else s

end

/-- Endpoint `from'`, of core `c` where it is an SQ, is the endpoint `e` that `cfg` names (R165). -/
def Names (from' : Option Nat) (c e : Nat) (cfg : Word) : Prop := from' = some e ∧ e < 11 ∧ (e = 10 → cfgCore cfg = c)

theorem Names.of_lt {e c : Nat} {cfg : Word} {from' : Option Nat} (is : from' = some e) (small : e < 10) : Names from' c e cfg :=
  ⟨is, by omega, by omega⟩

theorem Names.passes {from' : Option Nat} {c e : Nat} {cfg : Word} (h : Names from' c e cfg) :
    ¬(from' ≠ some e ∨ 11 ≤ e ∨ (e = 10 ∧ cfgCore cfg ≠ c)) := by
  obtain ⟨is, small, core⟩ := h
  rintro (other | large | ⟨sq, away⟩)
  · exact other is
  · omega
  · exact away (core sq)

section
variable {s : State} {from' : Option Nat} {c n : Nat}

theorem mbxSend_of_other (other : from' ≠ some (cfgSender (rdWord s (Reg.mbx_MBX_CFG n)))) (v : Word) :
    mbxSend from' c n v s = setF (Reg.mbx_MBX_STATUS_WRONG_PARTY n) s := by
  rw [mbxSend, if_pos (.inl other)]

section
variable (sender : Names from' c (cfgSender (rdWord s (Reg.mbx_MBX_CFG n))) (rdWord s (Reg.mbx_MBX_CFG n)))
include sender

theorem mbxSend_of_full (full : isSet s (Reg.mbx_MBX_STATUS_FULL n) = true) (v : Word) :
    mbxSend from' c n v s = setF (Reg.mbx_MBX_STATUS_BUSY_WRITE n) s := by
  rw [mbxSend, if_neg sender.passes, if_pos full]

theorem mbxSend_of_free (free : isSet s (Reg.mbx_MBX_STATUS_FULL n) = false) (v : Word) :
    mbxSend from' c n v s = notified n v (boxed n v s) (rdWord s (Reg.mbx_MBX_CFG n)) := by
  rw [mbxSend, if_neg sender.passes, if_neg (by simp [free])]
  rfl

end

section
variable (receiver : Names from' c (cfgReceiver (mbxCfg s n)) (mbxCfg s n))
include receiver

theorem mbxAck_of_free (free : isSet s (Reg.mbx_MBX_STATUS_FULL n) = false) (code : Nat) :
    mbxAck from' c n code s = setF (Reg.mbx_MBX_STATUS_LATE_ACK n) s := by
  rw [mbxAck, if_neg receiver.passes, free, if_pos (by decide)]

end
end

/-- The word of mailbox `n` is acknowledged with `code`. -/
def acked (n code : Nat) (s : State) : State :=
  { s with fw := if n = 1 then { s.fw with reply := none } else s.fw } |> clrF (Reg.mbx_MBX_STATUS_FULL n)
    |> setF (Reg.mbx_MBX_STATUS_ACKED n) |> putF (Reg.mbx_MBX_STATUS_CODE n) code

theorem mbxAck_of_full {s : State} {from' : Option Nat} {c n : Nat} (receiver : Names from' c (cfgReceiver (mbxCfg s n)) (mbxCfg s n))
    (full : isSet s (Reg.mbx_MBX_STATUS_FULL n) = true) (code : Nat) :
    mbxAck from' c n code s = if cfgSender (mbxCfg s n) = 10 then pushSq (cfgCore (mbxCfg s n)) n 1 (code % 256) (acked n code s)
      else acked n code s := by
  rw [mbxAck, if_neg receiver.passes, full, if_neg (by decide)]
  rfl

/-! ### What a mailbox holds afterwards -/

section
variable (n : Nat) (v : Word) (s : State)

theorem isSet_boxed : isSet (boxed n v s) (Reg.mbx_MBX_STATUS_FULL n) = true := isSet_putF_one _ _ Nat.one_pos

theorem rdWord_boxed : rdWord (boxed n v s) (Reg.mbx_MBX_DATA n) = v := by
  rw [boxed, setF_def, rdWord_putF_outside _ _ _ _ fun j hj => ?_, rdWord_wrWord_same]
  simp only [fieldWords, Reg.mbx_MBX_STATUS_FULL, Reg.mbx_MBX_DATA] at hj ⊢
  omega

theorem boxed_mbxOnly (small : n < 64) : MbxOnly s (boxed n v s) := by
  refine .trans (t := wrWord (Reg.mbx_MBX_DATA n) v s) (fun a out => rdWord_wrWord_other ?_ _ _)
    (.trans (.of_csr rfl) (.putF ?_ ?_ 1 (wrWord (Reg.mbx_MBX_DATA n) v { s with mbx := tset n (rdWord s (Reg.mbx_MBX_CFG n)) s.mbx })))
  all_goals simp only [fieldWords, Reg.mbx_MBX_STATUS_FULL, Reg.mbx_MBX_DATA]; omega

theorem boxed_rest : boxed n v s = { s with csr := (boxed n v s).csr, mbx := tset n (rdWord s (Reg.mbx_MBX_CFG n)) s.mbx } := by
  rw [boxed, setF_def, putF_eq]
  rfl

end

section
variable (n : Nat) (v : Word) (s : State) (cfg : Word)

/-- Ringing a doorbell, or an entry for an SQ, leaves what stands in the mailbox. -/
theorem rdWord_notified {a : Nat} (h : a < 0x0002401000) : rdWord (notified n v s cfg) a = rdWord s a := by
  unfold notified
  split
  · refine rdWord_putF_outside _ _ a s fun j _ => ?_
    simp only [Reg.mbx_DB_PEND_PEND]
    omega
  · split
    · exact LowKept.pushSq (cfgCore cfg) n 0 v.toNat s a (by omega)
    · rfl

variable {n} (small : n < 64)
include small

theorem isSet_notified_full : isSet (notified n v s cfg) (Reg.mbx_MBX_STATUS_FULL n) = isSet s (Reg.mbx_MBX_STATUS_FULL n) := by
  refine isSet_of_getF ?_
  unfold getF
  rw [rdWords_congr _ _ fun i hi => rdWord_notified n v s cfg ?_]
  simp only [fieldWords, Reg.mbx_MBX_STATUS_FULL] at hi ⊢
  omega

theorem rdWord_notified_data : rdWord (notified n v s cfg) (Reg.mbx_MBX_DATA n) = rdWord s (Reg.mbx_MBX_DATA n) :=
  rdWord_notified n v s cfg (by simp only [Reg.mbx_MBX_DATA]; omega)

end

/-- Word `v` stands in mailbox `n`, whose receiver, no SQ, has been rung (R166). -/
structure Delivered (n : Nat) (v : Word) (s t : State) : Prop where
  full : isSet t (Reg.mbx_MBX_STATUS_FULL n) = true
  word : rdWord t (Reg.mbx_MBX_DATA n) = v
  cfg : mbxCfg t n = rdWord s (Reg.mbx_MBX_CFG n)
  bell : (getF t (Reg.mbx_DB_PEND_PEND (cfgReceiver (rdWord s (Reg.mbx_MBX_CFG n))))).testBit
    (cfgDoorbell (rdWord s (Reg.mbx_MBX_CFG n))) = true
  others : MbxOnly s t
  rest : t = { s with csr := t.csr, mbx := t.mbx }

theorem mbxSend_delivers {s : State} {from' : Option Nat} {c n : Nat} (small : n < 64)
    (sender : Names from' c (cfgSender (rdWord s (Reg.mbx_MBX_CFG n))) (rdWord s (Reg.mbx_MBX_CFG n)))
    (free : isSet s (Reg.mbx_MBX_STATUS_FULL n) = false) (receiver : cfgReceiver (rdWord s (Reg.mbx_MBX_CFG n)) < 10) (v : Word) :
    Delivered n v s (mbxSend from' c n v s) := by
  rw [mbxSend_of_free sender free]
  set cfg := rdWord s (Reg.mbx_MBX_CFG n)
  have full := (isSet_notified_full v (boxed n v s) cfg small).trans (isSet_boxed n v s)
  have door : cfgDoorbell cfg < 32 := Nat.mod_lt _ (by decide)
  have rung : notified n v (boxed n v s) cfg = flagF (Reg.mbx_DB_PEND_PEND (cfgReceiver cfg)) (cfgDoorbell cfg) (boxed n v s) := if_pos receiver
  have rest : notified n v (boxed n v s) cfg =
      { s with csr := (notified n v (boxed n v s) cfg).csr, mbx := tset n cfg s.mbx } := by
    rw [rung, flagF_def, putF_eq, boxed_rest]
  refine ⟨full, (rdWord_notified_data v _ cfg small).trans (rdWord_boxed n v s), ?_, ?_, ?_, ?_⟩
  · rw [mbxCfg, full, if_pos rfl, rest, tget_tset_same]
  · rw [rung, flagF_def, getF_putF_same, Nat.testBit_mod_two_pow, Nat.testBit_or, Nat.testBit_two_pow_self, Bool.or_true, Bool.and_true]
    exact decide_eq_true door
  · rw [rung]
    refine (boxed_mbxOnly n v s small).trans (.putF ?_ ?_ _ _)
    all_goals simp only [fieldWords, Reg.mbx_DB_PEND_PEND]; omega
  · rw [rest]

section
variable (n code : Nat) (s : State)

theorem isSet_acked_full : isSet (acked n code s) (Reg.mbx_MBX_STATUS_FULL n) = false := by
  rw [acked, isSet_putF_bits (.inr ?_), setF_def, isSet_putF_bits (.inr ?_), clrF_def, isSet_putF_zero]
  all_goals simp only [Reg.mbx_MBX_STATUS_FULL, Reg.mbx_MBX_STATUS_CODE, Reg.mbx_MBX_STATUS_ACKED]; omega

theorem isSet_acked : isSet (acked n code s) (Reg.mbx_MBX_STATUS_ACKED n) = true := by
  rw [acked, isSet_putF_bits (.inr ?_), setF_def, isSet_putF_one _ _ Nat.one_pos]
  simp only [Reg.mbx_MBX_STATUS_CODE, Reg.mbx_MBX_STATUS_ACKED]
  omega

theorem getF_acked_code : getF (acked n code s) (Reg.mbx_MBX_STATUS_CODE n) = code % 256 := getF_putF_same ..

theorem acked_rest : acked n code s =
    { s with csr := (acked n code s).csr, fw := if n = 1 then { s.fw with reply := none } else s.fw } := by
  rw [acked, putF_eq, setF_def, putF_eq (Reg.mbx_MBX_STATUS_ACKED n), clrF_def, putF_eq (Reg.mbx_MBX_STATUS_FULL n)]

end

end Sys2Proof.Machine
end

section
/-! PROOFS. The commands of the mailboxes (R165-R168). -/

namespace Sys2Proof.Machine

/-! ### The state that follows -/

/-- A command whose effect ends in `x`, but for what a write notes for the image copies. -/
theorem next_of_effect {s : State} (bound : s.rsvDirty = false) (a : Nat) (x : State) :
    ∃ t, live s (imgNote a x) = .next t ∧ t.csr = x.csr ∧ t.mem = x.mem ∧ t.fw = x.fw :=
  ⟨_, live_next bound _, by simp, by simp, by rw [sicSettle_fw, imgNote_eq]⟩

/-- A command whose effect is `x`. -/
theorem next_of_live {s x : State} {o : Host.Outcome State Fault Refusal} (bound : s.rsvDirty = false) (run : o = live s x) :
    ∃ t, o = .next t ∧ t.csr = x.csr ∧ t.mem = x.mem ∧ t.fw = x.fw :=
  ⟨_, run.trans (live_next bound x), sicSettle_csr x, sicSettle_mem x, sicSettle_fw x⟩

/-! ### MBX_DATA_WRITE (R165, R166) -/

/-- Mailboxes on which no unit answers at once. -/
theorem mailboxWrite_of_plain {n : Nat} (plain : n ∉ [0, 61, 63]) (from' : Option Nat) (v : Word) (s : State) :
    mailboxWrite from' n v s = mbxSend from' 0 n v s := by
  simp only [List.mem_cons, List.not_mem_nil, or_false, not_or] at plain
  obtain ⟨host, asks, boots⟩ := plain
  have stays (t : State) : mailboxTaken n t = t := by simp [mailboxTaken, host, secMailbox, secTakes, asks, boots]
  rw [mailboxWrite, stays, ite_self]

section
variable {s : State} {p : Party} {n : Nat} (bound : s.rsvDirty = false) (small : n < 64)
include bound small

theorem exec_mbxDataWrite_of_plain (ok : csrOk s p (Reg.mbx_MBX_DATA n) true = true) (plain : n ∉ [0, 61, 63]) (v : Word) :
    ∃ u t, Begun s u ∧ exec (.mbxDataWrite p n v) s = .next t ∧ t.csr = (mbxSend (mbxParty p) 0 n v u).csr ∧
      t.mem = (mbxSend (mbxParty p) 0 n v u).mem := by
  obtain ⟨w, at_⟩ := csrAt_mbxData small
  obtain ⟨u, begun, effect⟩ := csrEffect_of_word at_ ok (mailboxWrite (mbxParty p) n v)
  obtain ⟨t, next, csr, mem, -⟩ := next_of_effect bound (Reg.mbx_MBX_DATA n) (mailboxWrite (mbxParty p) n v u)
  rw [mailboxWrite_of_plain plain] at csr mem
  have run : exec (.mbxDataWrite p n v) s = live s (imgNote (Reg.mbx_MBX_DATA n) (mailboxWrite (mbxParty p) n v u)) := by
    rw [← effect]
    exact congrArg (live s) (if_pos small)
  exact ⟨u, t, begun, run.trans next, csr, mem⟩

theorem exec_mbxAckWrite (ok : csrOk s p (Reg.mbx_MBX_ACK n) true = true) (code : Nat) :
    ∃ u t, Begun s u ∧ exec (.mbxAckWrite p n code) s = .next t ∧ t.csr = (mbxAck (mbxParty p) 0 n (code % 256) u).csr ∧
      t.mem = (mbxAck (mbxParty p) 0 n (code % 256) u).mem := by
  obtain ⟨w, at_⟩ := csrAt_mbxAck small
  obtain ⟨u, begun, effect⟩ := csrEffect_of_word at_ ok (mbxAck (mbxParty p) 0 n (code % 256))
  obtain ⟨t, next, csr, mem, -⟩ := next_of_effect bound (Reg.mbx_MBX_ACK n) (mbxAck (mbxParty p) 0 n (code % 256) u)
  have run : exec (.mbxAckWrite p n code) s = live s (imgNote (Reg.mbx_MBX_ACK n) (mbxAck (mbxParty p) 0 n (code % 256) u)) := by
    rw [← effect]
    exact congrArg (live s) (if_pos small)
  exact ⟨u, t, begun, run.trans next, csr, mem⟩

end

/-- A flag goes up, and no other register word changes. -/
theorem flagged {s u t : State} {f : FieldRef} (one : 0 < f.width) (begun : u.csr = s.csr) (csr : t.csr = (setF f u).csr) :
    isSet t f = true ∧ CsrKept [f] s t := by
  rw [setF_def] at csr
  exact ⟨(isSet_congr csr f).trans (isSet_putF_one f u one),
    csrKept_congr (csrKept_putF (csrKept_of_csr _ begun) (List.mem_singleton_self f) 1) csr⟩

/-- The configuration of a mailbox is seen in the registers and in what was kept of it. -/
theorem mbxCfg_congr {s t : State} (csr : t.csr = s.csr) (mbx : t.mbx = s.mbx) (n : Nat) : mbxCfg t n = mbxCfg s n := by
  rw [mbxCfg, isSet_congr csr, rdWord_congr csr, mbx, mbxCfg]

theorem Begun.mbxCfg {s u : State} (h : Begun s u) (n : Nat) : mbxCfg u n = mbxCfg s n := mbxCfg_congr h.csr (by rw [h]) n

section
variable {s : State} {p : Party} {n : Nat} (bound : s.rsvDirty = false) (small : n < 64)
include bound small

section
variable (ok : csrOk s p (Reg.mbx_MBX_DATA n) true = true) (plain : n ∉ [0, 61, 63]) (v : Word)
include ok plain

theorem mbxDataWrite_fills (party : mbxParty p = some (cfgSender (rdWord s (Reg.mbx_MBX_CFG n))))
    (sender : cfgSender (rdWord s (Reg.mbx_MBX_CFG n)) < 10) (free : isSet s (Reg.mbx_MBX_STATUS_FULL n) = false)
    (receiver : cfgReceiver (rdWord s (Reg.mbx_MBX_CFG n)) < 10) :
    ∃ t, exec (.mbxDataWrite p n v) s = .next t ∧ isSet t (Reg.mbx_MBX_STATUS_FULL n) = true ∧ rdWord t (Reg.mbx_MBX_DATA n) = v ∧
      (getF t (Reg.mbx_DB_PEND_PEND (cfgReceiver (rdWord s (Reg.mbx_MBX_CFG n))))).testBit
        (cfgDoorbell (rdWord s (Reg.mbx_MBX_CFG n))) = true ∧ t.mem = s.mem := by
  obtain ⟨u, t, begun, next, csr, mem⟩ := exec_mbxDataWrite_of_plain bound small ok plain v
  rw [← rdWord_congr begun.csr] at party sender receiver ⊢
  rw [← isSet_congr begun.csr] at free
  have sent := mbxSend_delivers (c := 0) small (.of_lt party sender) free receiver v
  refine ⟨t, next, (isSet_congr csr _).trans sent.full, (rdWord_congr csr _).trans sent.word, ?_, ?_⟩
  · rw [getF_congr csr]
    exact sent.bell
  · rw [mem, sent.rest, ← begun.mem]

theorem mbxDataWrite_busy (party : mbxParty p = some (cfgSender (rdWord s (Reg.mbx_MBX_CFG n))))
    (sender : cfgSender (rdWord s (Reg.mbx_MBX_CFG n)) < 10) (full : isSet s (Reg.mbx_MBX_STATUS_FULL n) = true) :
    ∃ t, exec (.mbxDataWrite p n v) s = .next t ∧ isSet t (Reg.mbx_MBX_STATUS_BUSY_WRITE n) = true ∧
      CsrKept [Reg.mbx_MBX_STATUS_BUSY_WRITE n] s t ∧ t.mem = s.mem := by
  obtain ⟨u, t, begun, next, csr, mem⟩ := exec_mbxDataWrite_of_plain bound small ok plain v
  rw [← rdWord_congr begun.csr] at party sender
  rw [← isSet_congr begun.csr] at full
  rw [mbxSend_of_full (.of_lt party sender) full] at csr mem
  obtain ⟨flag, kept⟩ := flagged Nat.one_pos begun.csr csr
  exact ⟨t, next, flag, kept, by rw [mem, setF_def, putF_mem, begun.mem]⟩

theorem mbxDataWrite_wrongParty (party : mbxParty p ≠ some (cfgSender (rdWord s (Reg.mbx_MBX_CFG n)))) :
    ∃ t, exec (.mbxDataWrite p n v) s = .next t ∧ isSet t (Reg.mbx_MBX_STATUS_WRONG_PARTY n) = true ∧
      CsrKept [Reg.mbx_MBX_STATUS_WRONG_PARTY n] s t := by
  obtain ⟨u, t, begun, next, csr, -⟩ := exec_mbxDataWrite_of_plain bound small ok plain v
  rw [← rdWord_congr begun.csr] at party
  rw [mbxSend_of_other party] at csr
  exact ⟨t, next, flagged Nat.one_pos begun.csr csr⟩

end

/-! ### MBX_ACK_WRITE and MBX_TIMEOUT (R165-R167) -/

section
variable (ok : csrOk s p (Reg.mbx_MBX_ACK n) true = true) (party : mbxParty p = some (cfgReceiver (mbxCfg s n)))
  (receiver : cfgReceiver (mbxCfg s n) < 10) (code : Nat)
include ok party receiver

theorem mbxAckWrite_frees (sender : cfgSender (mbxCfg s n) < 10) (full : isSet s (Reg.mbx_MBX_STATUS_FULL n) = true) :
    ∃ t, exec (.mbxAckWrite p n code) s = .next t ∧ isSet t (Reg.mbx_MBX_STATUS_FULL n) = false ∧
      isSet t (Reg.mbx_MBX_STATUS_ACKED n) = true ∧ getF t (Reg.mbx_MBX_STATUS_CODE n) = code % 256 ∧ t.mem = s.mem := by
  obtain ⟨u, t, begun, next, csr, mem⟩ := exec_mbxAckWrite bound small ok code
  rw [← begun.mbxCfg] at party receiver sender
  rw [← isSet_congr begun.csr] at full
  rw [mbxAck_of_full (.of_lt party receiver) full, if_neg (by omega)] at csr mem
  refine ⟨t, next, (isSet_congr csr _).trans (isSet_acked_full ..), (isSet_congr csr _).trans (isSet_acked ..), ?_, ?_⟩
  · rw [getF_congr csr, getF_acked_code, Nat.mod_mod]
  · rw [mem, acked_rest, ← begun.mem]

theorem mbxAckWrite_late (free : isSet s (Reg.mbx_MBX_STATUS_FULL n) = false) :
    ∃ t, exec (.mbxAckWrite p n code) s = .next t ∧ isSet t (Reg.mbx_MBX_STATUS_LATE_ACK n) = true ∧
      CsrKept [Reg.mbx_MBX_STATUS_LATE_ACK n] s t := by
  obtain ⟨u, t, begun, next, csr, -⟩ := exec_mbxAckWrite bound small ok code
  rw [← begun.mbxCfg] at party receiver
  rw [← isSet_congr begun.csr] at free
  rw [mbxAck_of_free (.of_lt party receiver) free] at csr
  exact ⟨t, next, flagged Nat.one_pos begun.csr csr⟩

end

theorem mbxTimeout_frees (full : isSet s (Reg.mbx_MBX_STATUS_FULL n) = true) (plain : n ≠ 1) (sender : cfgSender (mbxCfg s n) ≠ 10) :
    ∃ t, exec (.mbxTimeout n) s = .next t ∧ isSet t (Reg.mbx_MBX_STATUS_FULL n) = false ∧
      isSet t (Reg.mbx_MBX_STATUS_TIMEOUT n) = true ∧
      CsrKept [Reg.mbx_MBX_STATUS_FULL n, Reg.mbx_MBX_STATUS_TIMEOUT n] s t := by
  have run : exec (.mbxTimeout n) s = live s (putF (Reg.mbx_MBX_STATUS_TIMEOUT n) 1 (putF (Reg.mbx_MBX_STATUS_FULL n) 0 s)) := by
    show execMbxTimeout n s = _
    rw [execMbxTimeout, if_pos ⟨small, full⟩]
    simp only [if_neg sender, if_neg plain, setF_def, clrF_def]
  obtain ⟨t, next, csr, -, -⟩ := next_of_live bound run
  refine ⟨t, next, (isSet_congr csr _).trans ?_, (isSet_congr csr _).trans (isSet_putF_one _ _ Nat.one_pos), csrKept_congr ?_ csr⟩
  · rw [isSet_putF_bits (.inr ?_), isSet_putF_zero]
    simp only [Reg.mbx_MBX_STATUS_FULL, Reg.mbx_MBX_STATUS_TIMEOUT]
    omega
  · exact csrKept_putF (csrKept_putF (csrKept_of_csr _ rfl) (by simp) 0) (by simp) 1

/-! ### MBX_QUEUE_TAKE (R168) -/

section
variable {c w : Nat} {u : State} (up : engRuns s c = true) (held : popHeld s c 62 = false) (reader : qReader s c 62 = 6)
  (pop : qPop c 62 s = .entry w u)
include up held reader pop

omit small in
theorem exec_mbxQueueTake : ∃ t, exec (.mbxQueueTake c) s = .next t ∧ t.csr = (mbxFromSq c w u).csr := by
  have run : exec (.mbxQueueTake c) s = live s (mbxFromSq c w u) := by
    show execMbxQueueTake c s = _
    simp only [execMbxQueueTake, up, held, reader, pop, Bool.not_true, Bool.or_self, Bool.false_eq_true, if_false, ne_eq,
      not_true_eq_false]
  obtain ⟨t, next, csr, -, -⟩ := next_of_live bound run
  exact ⟨t, next, csr⟩

variable (same : u.csr = s.csr) (box : bitsN w 32 6 = n)
include same box

theorem mbxQueueTake_fills (kind : bitsN w 38 2 = 0) (sender : cfgSender (rdWord s (Reg.mbx_MBX_CFG n)) = 10)
    (core : cfgCore (rdWord s (Reg.mbx_MBX_CFG n)) = c) (free : isSet s (Reg.mbx_MBX_STATUS_FULL n) = false) :
    ∃ t, exec (.mbxQueueTake c) s = .next t ∧ isSet t (Reg.mbx_MBX_STATUS_FULL n) = true ∧
      rdWord t (Reg.mbx_MBX_DATA n) = BitVec.ofNat 32 w := by
  obtain ⟨t, next, csr⟩ := exec_mbxQueueTake bound up held reader pop
  have names : Names (some 10) c (cfgSender (rdWord u (Reg.mbx_MBX_CFG n))) (rdWord u (Reg.mbx_MBX_CFG n)) := by
    rw [rdWord_congr same, sender]
    exact ⟨rfl, by decide, fun _ => core⟩
  have sent : mbxFromSq c w u = notified n (BitVec.ofNat 32 w) (boxed n (BitVec.ofNat 32 w) u) (rdWord u (Reg.mbx_MBX_CFG n)) := by
    rw [mbxFromSq, if_pos kind, box, mbxSend_of_free names ((isSet_congr same _).trans free)]
  rw [sent] at csr
  refine ⟨t, next, ?_, ?_⟩
  · rw [isSet_congr csr, isSet_notified_full _ _ _ small, isSet_boxed]
  · rw [rdWord_congr csr, rdWord_notified_data _ _ _ small, rdWord_boxed]

theorem mbxQueueTake_frees (kind : bitsN w 38 2 = 1) (receiver : cfgReceiver (mbxCfg u n) = 10) (core : cfgCore (mbxCfg u n) = c)
    (full : isSet s (Reg.mbx_MBX_STATUS_FULL n) = true) :
    ∃ t, exec (.mbxQueueTake c) s = .next t ∧ isSet t (Reg.mbx_MBX_STATUS_FULL n) = false ∧
      getF t (Reg.mbx_MBX_STATUS_CODE n) = w % 256 := by
  obtain ⟨t, next, csr⟩ := exec_mbxQueueTake bound up held reader pop
  have names : Names (some 10) c (cfgReceiver (mbxCfg u n)) (mbxCfg u n) := by
    rw [receiver]
    exact ⟨rfl, by decide, fun _ => core⟩
  have code : bitsN w 0 8 = w % 256 := by simp [bitsN]
  have kept : LowKept (acked n (w % 256) u) (mbxFromSq c w u) := by
    rw [mbxFromSq, if_neg (by omega), if_pos kind, box, code, mbxAck_of_full names ((isSet_congr same _).trans full)]
    split
    · exact .pushSq _ _ _ _ _
    · exact .refl _
  refine ⟨t, next, ?_, ?_⟩
  · rw [isSet_congr csr, kept.isSet, isSet_acked_full]
    simp only [fieldWords, Reg.mbx_MBX_STATUS_FULL]
    omega
  · rw [getF_congr csr, kept.getF, getF_acked_code, Nat.mod_mod]
    simp only [fieldWords, Reg.mbx_MBX_STATUS_CODE]
    omega

end
end

end Sys2Proof.Machine
end

section
/-! PROOFS. The host's protocol with the firmware on mailboxes 0 and 1 (R403-R405). -/

namespace Sys2Proof.Machine

/-! ### Words of the protocol (R403) -/

section
variable {op seq arg : Nat}

/-- The fields of a word of the protocol. -/
theorem fwWord_fields (opSmall : op < 64) (seqSmall : seq < 64) (argSmall : arg < 2 ^ 20) :
    (fwWord op seq arg).toNat / 2 ^ 26 = op ∧ (fwWord op seq arg).toNat / 2 ^ 20 % 64 = seq ∧ (fwWord op seq arg).toNat % 2 ^ 20 = arg := by
  rw [fwWord, BitVec.toNat_ofNat]
  omega

theorem fwCode_lt (s : State) (op seq arg : Nat) : fwCode s op seq arg < 256 := by
  unfold fwCode
  split_ifs <;> decide

end

/-! ### What firmware looks at -/

section
variable {s t : State} (others : MbxOnly s t)
include others

theorem MbxOnly.leadCore : leadCore t = leadCore s := others.getF (.inr (by decide))

theorem MbxOnly.fwReady : fwReady t = fwReady s := congrArg (· == 2) (others.getF (.inr (by decide)))

theorem MbxOnly.chooseVersion (lo hi : Nat) : chooseVersion t lo hi = chooseVersion s lo hi := by
  unfold Machine.chooseVersion
  rw [others.getF (f := Reg.pcie_FW_STATE_VER_HI) (.inr (by decide)), others.getF (f := Reg.pcie_FW_STATE_VER_LO) (.inr (by decide))]

theorem MbxOnly.fwCode (variant : t.variant = s.variant) (fw : t.fw = s.fw) (op seq arg : Nat) : fwCode t op seq arg = fwCode s op seq arg := by
  have density := others.getF (f := Reg.mem_MEM_CFG_DENSITY) (.inr (by decide))
  have ranks := others.getF (f := Reg.mem_MEM_CFG_RANKS) (.inr (by decide))
  have ecc := others.getF (f := Reg.mem_MEM_CFG_ECC_EN) (.inr (by decide))
  have fitted : fittedBytes t = fittedBytes s := by
    rw [fittedBytes, channelBytes, isSet, variant, density, ranks, ecc]
    rfl
  simp only [Machine.fwCode, fw, fitted]

end

/-! ### Requests of the host (R404, R405) -/

/-- Firmware has taken the request in mailbox 0, and that with code 0 is the request in hand. -/
structure Answered (op seq arg : Nat) (s t : State) : Prop where
  free : isSet t (Reg.mbx_MBX_STATUS_FULL 0) = false
  acked : isSet t (Reg.mbx_MBX_STATUS_ACKED 0) = true
  code : getF t (Reg.mbx_MBX_STATUS_CODE 0) = fwCode s op seq arg
  taken : fwCode s op seq arg = 0 → t.fw.session = true ∧ t.fw.seq = seq ∧
    t.fw.req = some (op, seq, if op = 1 then chooseVersion s (arg % 256) (arg / 256 % 256) else arg)
  refused : fwCode s op seq arg ≠ 0 → t.fw = s.fw

theorem Answered.congr {op seq arg : Nat} {s t u : State} (h : Answered op seq arg s t) (csr : u.csr = t.csr) (fw : u.fw = t.fw) :
    Answered op seq arg s u :=
  ⟨(isSet_congr csr _).trans h.free, (isSet_congr csr _).trans h.acked, (getF_congr csr _).trans h.code, by rw [fw]; exact h.taken,
    by rw [fw]; exact h.refused⟩

section
variable {s : State} {op seq arg : Nat} (opSmall : op < 64) (seqSmall : seq < 64) (argSmall : arg < 2 ^ 20)
include opSmall seqSmall argSmall

/-- Firmware answers the word that it finds in mailbox 0. -/
theorem fwAnswer_answered (full : isSet s (Reg.mbx_MBX_STATUS_FULL 0) = true) (lead : leadCore s < 10)
    (receiver : cfgReceiver (mbxCfg s 0) = leadCore s) (sender : cfgSender (mbxCfg s 0) < 10) :
    Answered op seq arg s (fwAnswer (fwWord op seq arg) s) := by
  obtain ⟨opIs, seqIs, argIs⟩ := fwWord_fields opSmall seqSmall argSmall
  have ack := mbxAck_of_full (from' := some (leadCore s)) (c := 0) (.of_lt (by rw [receiver]) (by omega)) full (fwCode s op seq arg)
  rw [if_neg (by omega)] at ack
  simp only [fwAnswer, opIs, seqIs, argIs, ack]
  have small := fwCode_lt s op seq arg
  have free := isSet_acked_full 0 (fwCode s op seq arg) s
  have ackedIs := isSet_acked 0 (fwCode s op seq arg) s
  have codeIs := (getF_acked_code 0 (fwCode s op seq arg) s).trans (Nat.mod_eq_of_lt small)
  have kept : (acked 0 (fwCode s op seq arg) s).fw = s.fw := by rw [acked_rest, if_neg (by decide)]
  generalize acked 0 (fwCode s op seq arg) s = t at *
  by_cases taken : fwCode s op seq arg = 0
  · rw [if_neg (not_not_intro taken)]
    exact ⟨free, ackedIs, codeIs, fun _ => ⟨rfl, rfl, rfl⟩, fun no => absurd taken no⟩
  · rw [if_pos taken]
    exact ⟨free, ackedIs, codeIs, fun yes => absurd yes taken, fun _ => kept⟩

variable (bound : s.rsvDirty = false) (ready : fwReady s = true) (lead : leadCore s < 8)
  (ok : csrOk s .host (Reg.mbx_MBX_DATA 0) true = true) (sender : cfgSender (rdWord s (Reg.mbx_MBX_CFG 0)) = 8)
  (receiver : cfgReceiver (rdWord s (Reg.mbx_MBX_CFG 0)) = leadCore s) (free : isSet s (Reg.mbx_MBX_STATUS_FULL 0) = false)
include bound ready lead ok sender receiver free

theorem hostRequest_answered : ∃ t, live s (hostRequest (fwWord op seq arg) s) = .next t ∧ isSet t (Reg.mbx_MBX_STATUS_FULL 0) = false ∧
    isSet t (Reg.mbx_MBX_STATUS_ACKED 0) = true ∧ getF t (Reg.mbx_MBX_STATUS_CODE 0) = fwCode s op seq arg ∧
    (fwCode s op seq arg = 0 → t.fw.session = true ∧ t.fw.seq = seq ∧
      t.fw.req = some (op, seq, if op = 1 then chooseVersion s (arg % 256) (arg / 256 % 256) else arg)) ∧
    (fwCode s op seq arg ≠ 0 → t.fw = s.fw) := by
  obtain ⟨w, at_⟩ := csrAt_mbxData (n := 0) (by decide)
  obtain ⟨u, begun, effect⟩ := csrEffect_of_word at_ ok (mailboxWrite (some 8) 0 (fwWord op seq arg))
  have cfg : rdWord u (Reg.mbx_MBX_CFG 0) = rdWord s (Reg.mbx_MBX_CFG 0) := rdWord_congr begun.csr _
  have empty : isSet u (Reg.mbx_MBX_STATUS_FULL 0) = false := (isSet_congr begun.csr _).trans free
  have sent : Delivered 0 (fwWord op seq arg) u (mbxSend (some 8) 0 0 (fwWord op seq arg) u) := by
    refine mbxSend_delivers (by decide) ?_ empty (by rw [cfg]; omega) _
    rw [cfg]
    exact .of_lt (by rw [sender]) (by omega)
  set v := mbxSend (some 8) 0 0 (fwWord op seq arg) u
  have others : MbxOnly s v := .trans (.of_csr begun.csr) sent.others
  have fw : v.fw = s.fw := by rw [sent.rest, ← begun.fw]
  have variant : v.variant = s.variant := by rw [sent.rest, begun]
  have box : cfgReceiver (mbxCfg v 0) = leadCore v := by rw [sent.cfg, cfg, receiver, others.leadCore]
  have taken : mailboxWrite (some 8) 0 (fwWord op seq arg) u = fwAnswer (fwWord op seq arg) v := by
    rw [mailboxWrite, empty, if_neg Bool.false_ne_true, mailboxTaken, if_pos rfl, sent.full, others.fwReady, ready, box, beq_self_eq_true,
      if_pos (by decide), sent.word]
  have answer := fwAnswer_answered opSmall seqSmall argSmall sent.full (by rw [others.leadCore]; omega) box
    (by rw [sent.cfg, cfg, sender]; decide)
  obtain ⟨t, next, csr, -, same⟩ := next_of_effect bound (Reg.mbx_MBX_DATA 0) (fwAnswer (fwWord op seq arg) v)
  rw [hostRequest, effect, taken]
  have code : fwCode v op seq arg = fwCode s op seq arg := others.fwCode variant fw op seq arg
  obtain ⟨freed, ackedIs, codeIs, takes, refuses⟩ := answer.congr csr same
  rw [code] at codeIs takes refuses
  exact ⟨t, next, freed, ackedIs, codeIs, fun zero => by rw [← others.chooseVersion]; exact takes zero, fun no => (refuses no).trans fw⟩

end

/-! ### Words of the firmware (R404, R405) -/

section
variable {s : State} (lead : leadCore s < 8) (ok : csrOk s (.app (leadCore s) true) (Reg.mbx_MBX_DATA 1) true = true)
  (sender : cfgSender (rdWord s (Reg.mbx_MBX_CFG 1)) = leadCore s) (receiver : cfgReceiver (rdWord s (Reg.mbx_MBX_CFG 1)) < 10)
  (free : isSet s (Reg.mbx_MBX_STATUS_FULL 1) = false)
include lead ok sender receiver free

/-- Firmware writes `v` to mailbox 1; nothing else of the device changes but registers, and what an access changes of itself. -/
theorem fwSend_delivers (v : Word) : isSet (fwSend v s) (Reg.mbx_MBX_STATUS_FULL 1) = true ∧ rdWord (fwSend v s) (Reg.mbx_MBX_DATA 1) = v ∧
    (fwSend v s).fw = s.fw ∧ (fwSend v s).mem = s.mem := by
  obtain ⟨w, at_⟩ := csrAt_mbxData (n := 1) (by decide)
  obtain ⟨u, begun, effect⟩ := csrEffect_of_word at_ ok (mbxSend (some (leadCore s)) 0 1 v)
  have sent : Delivered 1 v u (mbxSend (some (leadCore s)) 0 1 v u) := by
    rw [← rdWord_congr begun.csr] at sender receiver
    refine mbxSend_delivers (by decide) (.of_lt (by rw [sender]) (by omega)) ((isSet_congr begun.csr _).trans free) receiver v
  rw [fwSend, effect]
  refine ⟨?_, ?_, ?_, ?_⟩
  · rw [isSet_imgNote, sent.full]
  · rw [rdWord_imgNote, sent.word]
  · rw [imgNote_eq, sent.rest, ← begun.fw]
  · rw [imgNote_mem, sent.rest, ← begun.mem]

variable (bound : s.rsvDirty = false) (ready : fwReady s = true)
include bound ready

/-- The reply to the request in hand. -/
theorem fwReply_replies {op seq carry : Nat} (seqSmall : seq < 64) (hand : s.fw.req = some (op, seq, carry)) (rop : Nat) (arg : Nat → Nat) :
    ∃ t, live s (fwReply op rop arg s) = .next t ∧ isSet t (Reg.mbx_MBX_STATUS_FULL 1) = true ∧
      rdWord t (Reg.mbx_MBX_DATA 1) = fwWord rop seq (arg carry) ∧ t.fw.req = none ∧ getF t Reg.pcie_FW_STATE_LAST_SEQ = seq ∧ t.mem = s.mem := by
  have may : fwMaySend s = true := by rw [fwMaySend, ready, free]; rfl
  have reply : fwReply op rop arg s = putF Reg.pcie_FW_STATE_LAST_SEQ seq (fwSend (fwWord rop seq (arg carry))
      { s with fw := { s.fw with req := none, reply := some (fwWord rop seq (arg carry), 1) } }) := by
    simp only [fwReply, hand, may, and_self, if_true]
  obtain ⟨full, word, fw, mem⟩ := fwSend_delivers (s := { s with fw := { s.fw with req := none, reply := some (fwWord rop seq (arg carry), 1) } })
    lead ok sender receiver free (fwWord rop seq (arg carry))
  obtain ⟨t, next, csr, same, fwt⟩ := next_of_live bound (congrArg (live s) reply)
  refine ⟨t, next, (isSet_congr csr _).trans ?_, (rdWord_congr csr _).trans ?_, ?_, (getF_congr csr _).trans ?_, ?_⟩
  · rw [isSet_putF_bits (.inr (by decide)), full]
  · rw [rdWord_putF_bits (.inr (by decide)), word]
  · rw [fwt, putF_fw, fw]
  · rw [getF_putF_same]
    exact Nat.mod_eq_of_lt seqSmall
  · rw [same, putF_mem, mem]

theorem notice_sends (n : Nat) : ∃ t, exec (.notice n) s = .next t ∧ rdWord t (Reg.mbx_MBX_DATA 1) = fwWord 0x30 0 (n % 16) ∧
    isSet t (Reg.mbx_MBX_STATUS_FULL 1) = true ∧ t.fw.req = s.fw.req := by
  have may : fwMaySend s = true := by rw [fwMaySend, ready, free]; rfl
  have run : exec (.notice n) s = live s (fwSend (fwWord 0x30 0 (n % 16)) { s with fw := { s.fw with reply := some (fwWord 0x30 0 (n % 16), 1) } }) :=
    congrArg (live s) (if_pos may)
  obtain ⟨full, word, fw, -⟩ := fwSend_delivers (s := { s with fw := { s.fw with reply := some (fwWord 0x30 0 (n % 16), 1) } })
    lead ok sender receiver free (fwWord 0x30 0 (n % 16))
  obtain ⟨t, next, csr, -, fwt⟩ := next_of_live bound run
  exact ⟨t, next, (rdWord_congr csr _).trans word, (isSet_congr csr _).trans full, by rw [fwt, fw]⟩

end

/-! ### The statement -/

/-- Settles O26: each command of the mailboxes by what the write or the acknowledgement of its word does, and the protocol by the word
that firmware finds in mailbox 0 or places in mailbox 1. -/
theorem mailboxesAndHostProtocol : Obligations.MailboxesAndHostProtocol := by
  refine ⟨fun s p n code v bound small => ⟨fun ok plain => ⟨?_, ?_⟩, fun ok party free plain => ?_, fun ok party receiver sender => ⟨?_, ?_⟩,
    ?_, fun c w u up held reader pop same box => ⟨?_, ?_⟩⟩,
    fun s seq arg bound seqSmall argSmall ready lead => ⟨fun ok sender receiver free q member => ?_,
      fun ok sender receiver free => ⟨fun o carry result hand q member here => ?_, ?_⟩⟩⟩
  · exact mbxDataWrite_fills bound small ok plain v
  · exact mbxDataWrite_busy bound small ok plain v
  · exact mbxDataWrite_wrongParty bound small ok plain v party
  · exact mbxAckWrite_frees bound small ok party receiver code sender
  · exact mbxAckWrite_late bound small ok party receiver code
  · exact mbxTimeout_frees bound small
  · exact mbxQueueTake_fills bound small up held reader pop same box
  · exact mbxQueueTake_frees bound small up held reader pop same box
  · have answered {op : Nat} (opSmall : op < 64) := hostRequest_answered opSmall seqSmall argSmall bound ready lead ok sender receiver free
    rcases List.mem_append.mp member with plain | hello
    · simp only [List.mem_cons, List.not_mem_nil, or_false] at plain
      rcases plain with rfl | rfl | rfl
      all_goals exact answered (by decide)
    · split at hello
      next short =>
        obtain rfl := List.mem_singleton.mp hello
        obtain ⟨t, next, freed, ackedIs, codeIs, takes, refuses⟩ := answered (op := 1) (by decide)
        have range : arg % 256 % 256 + arg / 256 % 256 * 256 = arg := by omega
        have high : arg / 256 % 256 = arg / 256 := by omega
        have word : exec (.hostHello seq (arg % 256) (arg / 256)) s = live s (hostRequest (fwWord 1 seq arg) s) :=
          congrArg (fun x => live s (hostRequest (fwWord 1 seq x) s)) range
        rw [high] at takes
        exact ⟨t, word.trans next, freed, ackedIs, codeIs, takes, refuses⟩
      next => cases hello
  · subst here
    have replies (rop : Nat) (f : Nat → Nat) := fwReply_replies lead ok sender receiver free bound ready seqSmall hand rop f
    rcases List.mem_append.mp member with plain | quiet
    · simp only [List.mem_cons, List.not_mem_nil, or_false] at plain
      rcases plain with rfl | rfl | rfl
      · exact replies 0x21 (fun v => v % 256)
      · exact replies 0x22 id
      · exact replies 0x23 (fun _ => result % 16)
    · split at quiet
      next paused =>
        obtain rfl := List.mem_singleton.mp quiet
        have run : exec .quiesced s = live s (fwReply 4 0x24 (fun _ => 0) s) := congrArg (live s) (if_pos paused)
        obtain ⟨t, next, h⟩ := replies 0x24 (fun _ => 0)
        exact ⟨t, run.trans next, h⟩
      next => cases quiet
  · exact notice_sends lead ok sender receiver free bound ready arg

end Sys2Proof.Machine
end

section
/-! PROOFS. Reads and writes of QDATA by the external port (R149-R151). -/

namespace Sys2Proof.Machine

/-! ### Words without an error, seen from outside a core (R97, R98) -/

theorem outsideMeet_of_clean {s : State} {c : Nat} {ws : List Nat} (clean : WordsClean s c ws) : outsideMeet c ws s = some s := by
  have none_ : ws.any (fun w => eccAt s (eccWordOf c w) == 2) = false := by
    rw [List.any_eq_false]
    intro w member
    simp [clean w member]
  have same : ws.foldl (fun t w => coreEccFix c 7 w t) s = s :=
    List.foldlRecOn ws _ (motive := fun t => t = s) rfl fun t ht w member => by
      rw [ht, coreEccFix, if_neg (by rw [clean w member]; decide)]
  rw [outsideMeet, none_, if_neg Bool.false_ne_true, same]

/-! ### What a write to a queue of pairs leaves (R149) -/

theorem watchQueue_mem (s0 : State) (c q : Nat) (t : State) : (watchQueue s0 c q t).mem = t.mem := by
  rw [(watchQueue_happenOnly s0 c q t).1]

theorem core_watchQueue (s0 : State) (c q : Nat) (t : State) (d : Nat) : core (watchQueue s0 c q t) d = core t d := by
  rw [core, (watchQueue_happenOnly s0 c q t).1, core]

/-- A queue that does not combine takes a pair while it has fewer than 16 entries. -/
theorem qWrite_of_pairs {s : State} {c q : Nat} (kind : qKind s c q ≠ 1) (v : Word64) (o : Option (Nat × Nat)) :
    qWrite c q v o s = if qCount s c q < 16 then some (watchQueue s c q (qAppend c q v.toNat o s)) else none := by
  rw [qWrite, if_neg kind]

/-- A contribution waits where its tag has no open entry and the queue no room (R150, R153). -/
theorem qContribute_eq_none_iff {s : State} {c q tag : Nat} {v : Word} {o : Option (Nat × Nat)} :
    qContribute c q tag v o s = none ↔ openEntry s c q tag = none ∧ 16 ≤ qCount s c q := by
  unfold qContribute
  split
  next i entry => simp [entry]
  next entry =>
    split
    next room => simp; omega
    next full => simp [entry]; omega

theorem qWrite_eq_none_iff {s : State} {c q : Nat} {v : Word64} {o : Option (Nat × Nat)} :
    qWrite c q v o s = none ↔ 16 ≤ qCount s c q ∧ (qKind s c q = 1 → openEntry s c q (v.toNat / 2 ^ 32) = none) := by
  by_cases kind : qKind s c q = 1
  · rw [qWrite, if_pos kind, qContribute_eq_none_iff]
    tauto
  · rw [qWrite_of_pairs kind]
    split
    next room => simp; omega
    next full => simp [kind]; omega

/-! ### What the port finds on its way (R150) -/

section
variable {s u : State} (h : Begun s u) (c q : Nat)
include h

theorem Begun.waitingWrite_eq_none_iff (f : Nat) : waitingWrite c q u f = none ↔ waitingWrite c q s f = none := by
  have engine : eng u c f = eng s c f := by rw [h]; rfl
  have count : qCount u c q = qCount s c q := by rw [h]; rfl
  have kind : qKind u c q = qKind s c q := by rw [h]; rfl
  have entry (tag : Nat) : openEntry u c q tag = openEntry s c q tag := by rw [h]; rfl
  unfold waitingWrite
  rw [engine]
  cases (eng s c f).wait with
  | push q' v =>
    by_cases same : q' = q
    · simp only [same, if_true, qWrite_eq_none_iff, count, kind, entry]
    · simp only [same, if_false]
  | contribute q' tag v =>
    by_cases same : q' = q
    · simp only [same, if_true, qContribute_eq_none_iff, count, entry]
    · simp only [same, if_false]
  | _ => exact Iff.rfl

theorem Begun.pairFor : pairFor u c q = pairFor s c q := by rw [h]; rfl

end

/-- Where no engine waits to write the queue and no pair for it waits at the router stop, nothing goes first. -/
theorem earlierWrites_of_idle {s : State} {c q : Nat} (idle : ∀ f ∈ engineOrder, waitingWrite c q s f = none) (none_ : pairFor s c q = false) :
    earlierWrites c q s = s := by
  have settled : settleWrites c q s = s :=
    List.foldlRecOn engineOrder _ (motive := fun t => t = s) rfl fun t ht f member => by rw [ht, idle f member]
  rw [earlierWrites, settled, none_, if_neg Bool.false_ne_true]

/-! ### Reads of QDATA (R151) -/

section
variable {s : State} {p : Party} {c q : Nat} (core : c < 1024) (small : q < 64)
include core small

theorem qdataAt_qdata : qdataAt (Reg.sq_QDATA c q) = some (c, q) := by
  have window : isCoreWindow (Reg.sq_QDATA c q) = true := by
    rw [isCoreWindow, inRange, Reg.sq_QDATA, decide_eq_true (by omega), decide_eq_true (by omega), Bool.and_self]
  have inside : inRange ((Reg.sq_QDATA c q - 0x0100000000) % 0x100000) 0x95600 0x957FF = true := by
    rw [inRange, Reg.sq_QDATA, decide_eq_true (by omega), decide_eq_true (by omega), Bool.and_self]
  have even : Reg.sq_QDATA c q % 8 = 0 := by rw [Reg.sq_QDATA]; omega
  have page : coreOfAddr (Reg.sq_QDATA c q) = c := by rw [coreOfAddr, Reg.sq_QDATA]; omega
  have number : ((Reg.sq_QDATA c q - 0x0100000000) % 0x100000 - 0x95600) / 8 = q := by rw [Reg.sq_QDATA]; omega
  rw [qdataAt, window, inside, even, page, number]
  rfl

theorem exec_qdataRead (ok : csrOk s p (Reg.sq_QDATA c q) false = true) (held : popHeld s c q = false) :
    exec (.qdataRead p c q) s = live s (readReply (popExternal p c q { s with reply := .done })) := by
  have back : ringBack s (Reg.sq_QDATA c q) read32 = false := by
    simp only [ringBack, qdataAt_qdata core small, held, Bool.and_false]
  have read : memWrites read32 = false := rfl
  refine congrArg (live s) ((if_pos small).trans ?_)
  rw [csrDo, read, ok, back, if_pos (by decide)]

end

/-- The high half of what a read of QDATA returns, kept for the requester (R37, R151). -/
def keepHigh (p : Party) (c q v : Nat) (s : State) : State := latchShadow p (coreBase c + 0x95000) (Reg.sq_QDATA c q) [BitVec.ofNat 32 v] s

theorem keepHigh_eq (p : Party) (c q v : Nat) (s : State) : keepHigh p c q v s = { s with shadows := (keepHigh p c q v s).shadows } := by
  unfold keepHigh latchShadow
  split <;> rfl

section
variable {s : State} {p : Party} {c q : Nat} (clean : WordsClean s c (qWords s c q true))
include clean

theorem popExternal_of_other (other : qReader s c q ≠ 6) :
    popExternal p c q s = (some 0, keepHigh p c q 0 (setF (Reg.sq_QLEVEL_DENIED c q) s)) := by
  rw [popExternal, outsideMeet_of_clean clean]
  simp only [other, ne_eq, not_false_eq_true, if_true]
  rfl

theorem popExternal_of_reader (reader : qReader s c q = 6) : popExternal p c q s = match qPop c q s with
    | .empty => (some 0, keepHigh p c q 0 (setF (Reg.sq_QLEVEL_UNDERRUN c q) s))
    | .sliceErr _ t => (some 0, keepHigh p c q 0 t)
    | .entry v t => (some (BitVec.ofNat 32 v), keepHigh p c q (v / 2 ^ 32) t) := by
  rw [popExternal, outsideMeet_of_clean clean]
  simp only [reader, ne_eq, not_true_eq_false, if_false]
  rfl

end

/-- A read that answers `v`, and leaves what `t` is but for its shadow. -/
theorem read_next {s t : State} {p : Party} {c q high : Nat} {v : Word} {i : Instr} (bound : s.rsvDirty = false)
    (run : exec i s = live s (readReply (some v, keepHigh p c q high t))) :
    ∃ r, exec i s = .next r ∧ r.reply = .data v.toNat ∧ r.mem = t.mem ∧ r.csr = t.csr ∧
      (hasShadow p = true → (shadowOf r p (coreBase c + 0x95000)).map (·.value) = some [BitVec.ofNat 32 high]) := by
  refine ⟨_, run.trans (live_next bound _), ?_, ?_, ?_, fun shadowed => ?_⟩
  · rw [sicSettle_reply]
    rfl
  · rw [sicSettle_mem, readReply, keepHigh_eq]
  · rw [sicSettle_csr, readReply, keepHigh_eq]
  · have kept : shadowOf (sicSettle (readReply (some v, keepHigh p c q high t))) p (coreBase c + 0x95000) =
        shadowOf (keepHigh p c q high t) p (coreBase c + 0x95000) := by
      rw [shadowOf, sicSettle_shadows]
      rfl
    rw [kept, keepHigh, shadowOf_latchShadow shadowed]
    rfl

/-! ### Writes of QDATA (R149-R151) -/

section
variable {s : State} {c q : Nat} (clean : WordsClean s c (qWords s c q false)) (v : Word64)
include clean

theorem externalPush_of_denied (denied : bitN (qWriters s c q) 6 = false ∨ qKind s c q = 3) :
    externalPush c q v s = setF (Reg.sq_QLEVEL_DENIED c q) s := by
  have no : (!bitN (qWriters s c q) 6 || qKind s c q == 3) = true := by
    rcases denied with writer | kind
    · simp [writer]
    · simp [kind]
  simp only [externalPush, outsideMeet_of_clean clean, no, if_true]

theorem externalPush_of_writer (writer : bitN (qWriters s c q) 6 = true) (kind : qKind s c q ≠ 3) :
    externalPush c q v s = (qWrite c q v none (earlierWrites c q s)).getD (setF (Reg.sq_QLEVEL_OVERRUN c q) (earlierWrites c q s)) := by
  have may : (!bitN (qWriters s c q) 6 || qKind s c q == 3) = false := by simp [writer, kind]
  simp only [externalPush, outsideMeet_of_clean clean, may, Bool.false_eq_true, if_false]
  cases qWrite c q v none (earlierWrites c q s) <;> rfl

end

/-- The write of the high word of a register whose low word is held (R38). -/
theorem csrPair_of_held {s : State} {p : Party} {a : Nat} {hi lo : Word} {b : RegBlock} {blk : Nat} {peek : Bool} {w : WordAt}
    (ok : csrOk s p (a + 4) true = true) (at_ : csrAt a = .word b blk peek w) (low : heldFor s p blk a = some lo) (body : Word → State → State) :
    csrPair p a hi body s = imgNote (a + 4) (imgNote a (body lo (dropHeld p blk { s with reply := .done }))) := by
  have held : heldFor { s with reply := .done } p blk a = some lo := low
  rw [csrPair, csrDo_write32 ok]
  simp only [at_, held]

/-- The write of QDATA by its high word. -/
theorem exec_qdataWrite {s : State} {p : Party} {c q : Nat} {hi lo : Word} {b : RegBlock} {blk : Nat} {peek : Bool} {w : WordAt}
    (bound : s.rsvDirty = false) (small : q < 64) (ok : csrOk s p (Reg.sq_QDATA c q + 4) true = true)
    (at_ : csrAt (Reg.sq_QDATA c q) = .word b blk peek w) (low : heldFor s p blk (Reg.sq_QDATA c q) = some lo) :
    ∃ t, exec (.qdataWrite p c q hi) s = .next t ∧
      t.csr = (externalPush c q (hi ++ lo) (dropHeld p blk { s with reply := .done })).csr ∧
      t.mem = (externalPush c q (hi ++ lo) (dropHeld p blk { s with reply := .done })).mem ∧
      t.engs = (externalPush c q (hi ++ lo) (dropHeld p blk { s with reply := .done })).engs ∧
      t.cores = (externalPush c q (hi ++ lo) (dropHeld p blk { s with reply := .done })).cores := by
  have run : exec (.qdataWrite p c q hi) s = live s (imgNote (Reg.sq_QDATA c q + 4) (imgNote (Reg.sq_QDATA c q)
      (externalPush c q (hi ++ lo) (dropHeld p blk { s with reply := .done })))) := by
    show execQdataWrite p c q hi s = _
    rw [execQdataWrite, if_pos small, csrPair_of_held ok at_ low]
  refine ⟨_, run.trans (live_next bound _), ?_, ?_, ?_, ?_⟩
  · rw [sicSettle_csr, imgNote_csr, imgNote_csr]
  · rw [sicSettle_mem, imgNote_mem, imgNote_mem]
  · rw [sicSettle_engs, imgNote_engs, imgNote_engs]
  · rw [sicSettle_cores, imgNote_cores, imgNote_cores]

end Sys2Proof.Machine
end

section
/-! PROOFS. What arrives for the queues and the routes of a core: QSEND pairs, credits, and refusals of what it has sent (R149, R150, R158,
R160-R162). -/

namespace Sys2Proof.Machine

/-! ### QSEND pairs (R160, R161) -/

/-- The header of a refused pair: the bits of R161, in fields that lie apart. -/
theorem refusalHeader_pair {p : Packet} (pair : p.ty = .qsend) {s : State} {c r : Nat} (hr : r ≤ 3) :
    refusalHeader s c p r < 2 ^ 64 ∧ refusalHeader s c p r / 16 % 16 = r := by
  have epoch : roleEpoch s c < 2 ^ 4 := getF_lt s _
  simp only [refusalHeader, pair, beq_self_eq_true, bnat, if_true]
  omega

theorem pairReason_le {s : State} {c r : Nat} {a : Arrival} (h : pairReason s c a = some r) : r ≤ 3 := by
  simp only [pairReason, queueRefuses] at h
  grind

section
variable {s : State} {c : Nat} {a : Arrival} {rest : List Arrival}
  (oldest : takeArrivalBy (fun a => a.pkt.ty == .qsend) (core s c).arrivals = some (a, rest))
include oldest

theorem deliverPair_of_refused {r : Nat} (fails : pairReason s c a = some r) :
    deliverPair c s = refuseItem c a r (setCore c { core s c with arrivals := rest } s) := by
  simp only [deliverPair, oldest, fails, modCore_def]

theorem deliverPair_of_ahead (passes : pairReason s c a = none) (ahead : writeAhead s c 8 (a.pkt.ext % 64) = true) :
    deliverPair c s = s := by
  simp only [deliverPair, oldest, passes, ahead, Bool.or_true, if_true]

section
variable (passes : pairReason s c a = none) (clocked : coreClocked s c = true) (first : writeAhead s c 8 (a.pkt.ext % 64) = false)
  (pairs : qKind s c (a.pkt.ext % 64) ≠ 1)
include passes clocked first pairs

theorem deliverPair_of_room (room : qCount s c (a.pkt.ext % 64) < 16) :
    deliverPair c s = judged (4 * c) a (watchQueue (setCore c { core s c with arrivals := rest } s) c (a.pkt.ext % 64)
      (qAppend c (a.pkt.ext % 64) (BitVec.ofNat 64 a.pkt.data).toNat (pairOrigin a.pkt) (setCore c { core s c with arrivals := rest } s))) := by
  have write := qWrite_of_pairs (s := setCore c { core s c with arrivals := rest } s) (c := c) (q := a.pkt.ext % 64) pairs
    (BitVec.ofNat 64 a.pkt.data) (pairOrigin a.pkt)
  rw [if_pos (show qCount (setCore c { core s c with arrivals := rest } s) c (a.pkt.ext % 64) < 16 from room)] at write
  simp only [deliverPair, oldest, passes, clocked, first, Bool.not_true, Bool.or_self, Bool.false_eq_true, if_false, modCore_def, write]

theorem deliverPair_of_full (full : 16 ≤ qCount s c (a.pkt.ext % 64)) : deliverPair c s = s := by
  have write := qWrite_of_pairs (s := setCore c { core s c with arrivals := rest } s) (c := c) (q := a.pkt.ext % 64) pairs
    (BitVec.ofNat 64 a.pkt.data) (pairOrigin a.pkt)
  rw [if_neg (show ¬qCount (setCore c { core s c with arrivals := rest } s) c (a.pkt.ext % 64) < 16 from Nat.not_lt.mpr full)] at write
  simp only [deliverPair, oldest, passes, clocked, first, Bool.not_true, Bool.or_self, Bool.false_eq_true, if_false, modCore_def, write]

end

variable (bound : s.rsvDirty = false)
include bound

/-- A pair that its checks pass is appended to its queue (R149, R160). -/
theorem qsendArrival_appends (passes : pairReason s c a = none) (clocked : coreClocked s c = true)
    (first : writeAhead s c 8 (a.pkt.ext % 64) = false) (pairs : qKind s c (a.pkt.ext % 64) ≠ 1) (room : qCount s c (a.pkt.ext % 64) < 16) :
    ∃ t, exec (.qsendArrival c) s = .next t ∧ (core t c).arrivals = rest ∧ qCount t c (a.pkt.ext % 64) = qCount s c (a.pkt.ext % 64) + 1 ∧
      rdNum t (qEntry c (a.pkt.ext % 64) (qHead s c (a.pkt.ext % 64) + qCount s c (a.pkt.ext % 64))) 8 = a.pkt.data % 2 ^ 64 ∧
      t.csr = s.csr := by
  have run := deliverPair_of_room oldest passes clocked first pairs room
  set q := a.pkt.ext % 64
  set s1 := setCore c { core s c with arrivals := rest } s with s1_eq
  have mem : (sicSettle (deliverPair c s)).mem = (qAppend c q (BitVec.ofNat 64 a.pkt.data).toNat (pairOrigin a.pkt) s1).mem := by
    rw [sicSettle_mem, run, judged_mem, watchQueue_mem]
  obtain ⟨count, -, last, -⟩ := append_of_mem mem (Nat.mod_lt _ (by decide)) room (BitVec.isLt _)
  refine ⟨_, live_next bound _, ?_, count, ?_, ?_⟩
  · rw [core_sicSettle, run, core_judged, core_watchQueue, qAppend, setOrigins, modCore_def, core_setCore_same, setQCount, wrNum_def, wrBits_def,
      core_setMem, core_setMem, s1_eq, core_setCore_same]
  · rw [BitVec.toNat_ofNat] at last
    exact last
  · rw [sicSettle_csr, run, judged_csr, watchQueue_csr, qAppend_csr, s1_eq, setCore_csr]

omit oldest in
/-- One that finds the queue full, or behind an engine's write, waits (R150). -/
theorem qsendArrival_waits (stays : deliverPair c s = s) :
    ∃ t, exec (.qsendArrival c) s = .next t ∧ (core t c).arrivals = (core s c).arrivals ∧ t.mem = s.mem := by
  refine ⟨_, live_next bound _, ?_, ?_⟩
  · rw [core_sicSettle, stays]
  · rw [sicSettle_mem, stays]

/-- One that a check fails is refused to its sender, with the check's reason (R160, R161). -/
theorem qsendArrival_refuses {r : Nat} (fails : pairReason s c a = some r) :
    ∃ t, exec (.qsendArrival c) s = .next t ∧ (core t c).arrivals = rest ∧ t.mem = s.mem ∧
      ∃ k ∈ t.fab.waiting, k.ty = .refuse ∧ k.src = 4 * c ∧ k.dst = a.pkt.src ∧ k.data / 2 ^ 64 = a.pkt.data % 2 ^ 64 ∧
        k.data / 16 % 16 = r := by
  have pair : a.pkt.ty = .qsend := eq_of_beq (takeArrivalBy_meets oldest)
  have run := deliverPair_of_refused oldest fails
  set s1 := setCore c { core s c with arrivals := rest } s with s1_eq
  obtain ⟨small, reason⟩ := refusalHeader_pair pair (s := s1) (c := c) (pairReason_le fails)
  refine ⟨_, live_next bound _, ?_, ?_, ?_⟩
  · rw [core_sicSettle, run]
    exact congrArg Core.arrivals (core_setCore_same c _ s)
  · rw [sicSettle_mem, run]
    rfl
  · rw [sicSettle_fab, run]
    refine ⟨_, List.mem_append_right _ (List.mem_singleton.mpr rfl), rfl, rfl, rfl, ?_, ?_⟩
    · show (refusalHeader s1 c a.pkt r + a.pkt.data % 2 ^ 64 * 2 ^ 64) / 2 ^ 64 = _
      omega
    · show (refusalHeader s1 c a.pkt r + a.pkt.data % 2 ^ 64 * 2 ^ 64) / 16 % 16 = r
      omega

end

/-! ### CREDIT_RETURN (R158) -/

theorem creditReturn_adds {s : State} {c route : Nat} {a : Arrival} {rest : List Arrival} (bound : s.rsvDirty = false)
    (speaks : coreSilent s c = false)
    (oldest : takeArrivalBy (fun a => a.pkt.ty == .credit && a.pkt.ext % 32 == route) (core s c).arrivals = some (a, rest)) :
    ∃ t, exec (.creditReturn c route) s = .next t ∧ (core t c).arrivals = rest ∧ t.mem = s.mem ∧
      getF t (Reg.sq_CHAN_ROUTE_CREDITS c route) = min (getF s (Reg.sq_CHAN_ROUTE_CREDITS c route) + 1) 31 ∧
      CsrKept [Reg.sq_CHAN_ROUTE_CREDITS c route] s t := by
  have run : exec (.creditReturn c route) s = live s (addSat (Reg.sq_CHAN_ROUTE_CREDITS c route) 1 (setCore c { core s c with arrivals := rest } s)) := by
    show execCreditReturn c route s = _
    have still : coreSilent (setCore c { core s c with arrivals := rest } s) c = false := speaks
    simp only [execCreditReturn, oldest, modCore_def, still, Bool.false_eq_true, if_false]
  refine ⟨_, run.trans (live_next bound _), ?_, ?_, ?_, ?_⟩
  · rw [core_sicSettle, addSat_def, core_putF, core_setCore_same]
  · rw [sicSettle_mem, addSat_def, putF_mem, setCore_mem]
  · rw [getF_sicSettle, addSat_def, getF_putF_same, getF_setCore]
    exact Nat.mod_eq_of_lt (Nat.lt_succ_of_le (Nat.min_le_right _ _))
  · exact csrKept_congr (csrKept_putF (csrKept_of_csr _ (setCore_csr ..)) (List.mem_singleton_self _) _) (sicSettle_csr _)

end Sys2Proof.Machine
end

section
/-! PROOFS. A route that becomes valid, refusal records, and staged words that enter a ring (R154, R155, R158, R161, R162, R169). -/

namespace Sys2Proof.Machine

/-! ### CHAN_ROUTE_VALID (R158, R169) -/

theorem getF_of_rdWord {s : State} {a lo w : Nat} (inside : lo + w ≤ 32) (some_ : 0 < w) :
    getF s ⟨a, lo, w⟩ = (rdWord s a).toNat / 2 ^ lo % 2 ^ w := by
  have words : fieldWords ⟨a, lo, w⟩ = 1 := by simp only [fieldWords]; omega
  simp [getF, words, rdWords]

/-- The word that a write leaves where no field of it is written only while its block is disabled; reserved bits are stored (R9). -/
def stored (w : WordAt) (idx : Nat) (old v : Word) : Word :=
  (old &&& ~~~ (accMask w.row idx .rw ||| rsvMask w.row idx)) ||| (v &&& (accMask w.row idx .rw ||| rsvMask w.row idx))

theorem stored_of_all {w : WordAt} {idx : Nat} (all : accMask w.row idx .rw ||| rsvMask w.row idx = BitVec.allOnes 32) (old v : Word) :
    stored w idx old v = v := by
  rw [stored, all, BitVec.not_allOnes, BitVec.and_allOnes]
  simp

section
variable {w : WordAt} {idx : Nat} (free : accMask w.row idx .rwd = 0) (b : RegBlock) (blk : Nat) (v : Word) (s : State)
include free

/-- Such a write changes that word, and marks the state where a reserved bit changes (R9). -/
theorem rawWrite_of_free : ∃ d, rawWrite b blk w idx v 0 s =
    { (if stored w idx (rdWord s (w.reg + 4 * idx)) v = rdWord s (w.reg + 4 * idx) then s
        else wrWord (w.reg + 4 * idx) (stored w idx (rdWord s (w.reg + 4 * idx)) v) s) with rsvDirty := d } := by
  have mask (x y : Word) : (x ||| 0 ||| y) &&& ~~~(0 : Word) = x ||| y := by
    show (x ||| 0 ||| y) &&& BitVec.allOnes 32 = _
    rw [BitVec.and_allOnes]
    exact congrArg (· ||| y) BitVec.or_zero
  have quiet (x : Word) : (x &&& 0 &&& ~~~(0 : Word) != 0) = false := by simp
  simp only [rawWrite, free, ite_self, mask, quiet, Bool.and_false, Bool.false_eq_true, if_false]
  split
  next => exact ⟨true, rfl⟩
  next => exact ⟨State.rsvDirty _, rfl⟩

theorem rdWord_rawWrite_of_free (a : Nat) : rdWord (rawWrite b blk w idx v 0 s) a =
    if a = w.reg + 4 * idx then stored w idx (rdWord s (w.reg + 4 * idx)) v else rdWord s a := by
  obtain ⟨d, is⟩ := rawWrite_of_free free b blk v s
  rw [is]
  by_cases same : stored w idx (rdWord s (w.reg + 4 * idx)) v = rdWord s (w.reg + 4 * idx)
  · rw [if_pos same, same]
    split
    next here => rw [here]; rfl
    next => rfl
  · rw [if_neg same]
    split
    next here => rw [here]; exact rdWord_wrWord_same _ _ s
    next there => exact rdWord_wrWord_other there _ s

theorem rawWrite_mem_of_free : (rawWrite b blk w idx v 0 s).mem = s.mem := by
  obtain ⟨d, is⟩ := rawWrite_of_free free b blk v s
  rw [is]
  split <;> rfl

end

/-- The table's row of CHAN_ROUTE. -/
def chanRow : RegRow :=
  ⟨0x400, 64, 8, 32, [⟨36, 32, .ro, .num 0⟩, ⟨31, 31, .rw, .num 0⟩, ⟨24, 20, .rw, .dash⟩, ⟨19, 16, .rw, .dash⟩, ⟨15, 0, .rw, .dash⟩]⟩

theorem find_chanRow : ∀ i < 32, rows_engSQ.find? (rowHolds (0x400 + i * 8)) = some chanRow := by decide

/-- The fields of CHAN_ROUTE: none is RWD, and every bit of the low word is RW or reserved. -/
theorem chanRow_masks : (∀ i < 2, accMask chanRow i .rwd = 0) ∧ accMask chanRow 0 .rw ||| rsvMask chanRow 0 = BitVec.allOnes 32 := by decide

theorem csrAt_chanRoute {c route : Nat} (core : c < 1024) (small : route < 32) :
    ∃ b blk, csrAt (Reg.sq_CHAN_ROUTE c route) = .word b blk false ⟨chanRow, Reg.sq_CHAN_ROUTE c route, 0⟩ := by
  have block := findBlock_engine core (e := 5) (by decide) (o := 0x400 + route * 8) (by omega)
  have address : 0x0100090000 + (0x400 + route * 8) + c * 0x100000 + 5 * 0x1000 = Reg.sq_CHAN_ROUTE c route := by
    rw [Reg.sq_CHAN_ROUTE]
    omega
  rw [address, show regBlocks[2 + 5]? = some ⟨0x0100095000, 0x100000, 1024, 0x1000, .none, rows_engSQ⟩ from rfl] at block
  have off : blockOff ⟨0x0100095000, 0x100000, 1024, 0x1000, .none, rows_engSQ⟩ (Reg.sq_CHAN_ROUTE c route) = 0x400 + route * 8 := by
    simp only [blockOff, Reg.sq_CHAN_ROUTE]
    omega
  have row := find_chanRow route small
  have at_ := csrAt_of_row block (by rw [off]; omega) ((congrArg (fun x => rows_engSQ.find? (rowHolds x)) off).trans row)
  have first : (0x400 + route * 8 - chanRow.off) % chanRow.stride = 0 := by
    simp only [chanRow]
    omega
  have start : blockStart ⟨0x0100095000, 0x100000, 1024, 0x1000, .none, rows_engSQ⟩ (Reg.sq_CHAN_ROUTE c route) + (0x400 + route * 8) =
      Reg.sq_CHAN_ROUTE c route := by
    rw [blockStart, off, Reg.sq_CHAN_ROUTE]
    omega
  rw [off, first, start] at at_
  exact ⟨_, _, at_⟩

theorem chanRouteValid_loads {s : State} {p : Party} {c route : Nat} {lo : Word} (bound : s.rsvDirty = false) (core : c < 1024)
    (small : route < 32) (invalid : isSet s (Reg.sq_CHAN_ROUTE_VALID c route) = false) (valid : lo.getLsbD 31 = true)
    (ok : csrOk s p (Reg.sq_CHAN_ROUTE c route) true = true) (hi : Word) :
    ∃ t, exec (.chanRouteValid p c route lo hi) s = .next t ∧ isSet t (Reg.sq_CHAN_ROUTE_VALID c route) = true ∧
      getF t (Reg.sq_CHAN_ROUTE_DEST c route) = lo.toNat % 2 ^ 16 ∧
      getF t (Reg.sq_CHAN_ROUTE_CREDITS c route) = min (lo.toNat / 2 ^ 20 % 32) 16 ∧ t.mem = s.mem := by
  obtain ⟨b, blk, at_⟩ := csrAt_chanRoute core small
  obtain ⟨free, all⟩ := chanRow_masks
  set w : WordAt := ⟨chanRow, Reg.sq_CHAN_ROUTE c route, 0⟩
  set u := dropHeld p blk { s with reply := .done }
  set x := rawWrite b blk w 1 hi 0 (rawWrite b blk w 0 lo 0 u)
  have low : rdWord x (Reg.sq_CHAN_ROUTE c route) = lo := by
    rw [rdWord_rawWrite_of_free (free 1 (by decide)), if_neg (by simp only [w]; omega), rdWord_rawWrite_of_free (free 0 (by decide)),
      if_pos (by simp only [w]; omega)]
    exact stored_of_all all _ _
  have was : isSet u (Reg.sq_CHAN_ROUTE_VALID c route) = false := (isSet_congr (s := u) (t := s) rfl _).trans invalid
  have valid' : isSet x (Reg.sq_CHAN_ROUTE_VALID c route) = true := by
    have bit : lo.toNat / 2 ^ 31 % 2 ^ 1 = 1 := by
      rw [BitVec.getLsbD, Nat.testBit_eq_decide_div_mod_eq] at valid
      exact of_decide_eq_true valid
    rw [isSet, Reg.sq_CHAN_ROUTE_VALID, getF_of_rdWord (by decide) (by decide), ← Reg.sq_CHAN_ROUTE, low, bit]
    rfl
  have init : getF x (Reg.sq_CHAN_ROUTE_CREDIT_INIT c route) = lo.toNat / 2 ^ 20 % 2 ^ 5 := by
    rw [Reg.sq_CHAN_ROUTE_CREDIT_INIT, getF_of_rdWord (by decide) (by decide), ← Reg.sq_CHAN_ROUTE, low]
  have run : exec (.chanRouteValid p c route lo hi) s =
      live s (putF (Reg.sq_CHAN_ROUTE_CREDITS c route) (min (lo.toNat / 2 ^ 20 % 2 ^ 5) 16) x) := by
    have write : memWrites (.write (toBytes (hi ++ lo).toNat 8)) = true := rfl
    have back : ringBack s (Reg.sq_CHAN_ROUTE c route) (.write (toBytes (hi ++ lo).toNat 8)) = false := rfl
    show execChanRouteValid p c route lo hi s = _
    rw [execChanRouteValid, if_pos ⟨small, invalid, valid⟩, csrDo, write, ok, back, if_pos (by decide), at_]
    show live s (chanRouteApply b blk w c route lo hi u) = _
    rw [chanRouteApply, was, valid', init]
    rfl
  refine ⟨_, run.trans (live_next bound _), ?_, ?_, ?_, ?_⟩
  · rw [isSet_sicSettle, isSet_putF_bits (.inr (by simp only [Reg.sq_CHAN_ROUTE_VALID, Reg.sq_CHAN_ROUTE_CREDITS]; omega)), valid']
  · rw [getF_sicSettle, getF_putF_bits (.inr (by simp only [Reg.sq_CHAN_ROUTE_DEST, Reg.sq_CHAN_ROUTE_CREDITS]; omega)), Reg.sq_CHAN_ROUTE_DEST,
      getF_of_rdWord (by decide) (by decide), ← Reg.sq_CHAN_ROUTE, low]
    omega
  · rw [getF_sicSettle, getF_putF_same]
    exact Nat.mod_eq_of_lt ((Nat.min_le_right _ _).trans_lt (show 16 < 2 ^ 5 by decide))
  · rw [sicSettle_mem, putF_mem, rawWrite_mem_of_free (free 1 (by decide)), rawWrite_mem_of_free (free 0 (by decide))]
    rfl

end Sys2Proof.Machine
end

section
/-! PROOFS. Refusals of what a core has sent, recorded in its queue 63 (R158, R161, R162). -/

namespace Sys2Proof.Machine

/-- `t` has the refusals of core `c`, and the credits of its routes, as `s`. -/
structure CreditsKept (c : Nat) (s t : State) : Prop where
  refusals : (core t c).refusals = (core s c).refusals
  credits : ∀ route < 32, getF t (Reg.sq_CHAN_ROUTE_CREDITS c route) = getF s (Reg.sq_CHAN_ROUTE_CREDITS c route)

namespace CreditsKept

variable {c : Nat} {s t u : State}

theorem of_csr (refusals : (core t c).refusals = (core s c).refusals) (csr : t.csr = s.csr) : CreditsKept c s t :=
  ⟨refusals, fun _ _ => getF_congr csr _⟩

theorem trans (h : CreditsKept c s t) (k : CreditsKept c t u) : CreditsKept c s u :=
  ⟨k.refusals.trans h.refusals, fun route small => (k.credits route small).trans (h.credits route small)⟩

theorem watchQueue (s0 : State) (q : Nat) (s : State) : CreditsKept c s (watchQueue s0 c q s) :=
  .of_csr (by rw [core_watchQueue]) (watchQueue_csr ..)

theorem qAppend (q v : Nat) (o : Option (Nat × Nat)) (s : State) : CreditsKept c s (qAppend c q v o s) := by
  refine .of_csr ?_ (qAppend_csr ..)
  rw [Machine.qAppend, setOrigins, modCore_def, core_setCore_same, setQCount, wrNum_def, wrBits_def, core_setMem, core_setMem]

theorem refusalDone (src : Nat) (r : RefuseRec) (others : List RefuseRec) (s : State) : CreditsKept c s (refusalDone src r others s) :=
  .of_csr rfl rfl

theorem pushSend (it : SendItem) (s : State) : CreditsKept c s (pushSend c it s) :=
  .of_csr (by rw [Machine.pushSend, modCore_def, core_setCore_same]) rfl

theorem emitWord (e : Nat) (v : Word64) (s : State) : CreditsKept c s (emitWord c e v s) := by
  have spent (u : State) : CreditsKept c u (spendFree u) := .of_csr rfl rfl
  unfold Machine.emitWord
  split
  next k _ =>
    refine .trans ?_ (.pushSend _ _)
    unfold spendIfNone
    split
    · exact spent s
    · exact .of_csr rfl rfl
  next => exact (spent s).trans (.pushSend _ _)

theorem resumeEng {e : Nat} (engine : e ≤ 5) (s : State) : CreditsKept c s (resumeEng c e s) := by
  refine ⟨(resumeEng_engsOnly ..).same (fun x => (core x c).refusals) fun _ _ => rfl, fun route small => ?_⟩
  rw [Machine.resumeEng, retire, incWrap_def, modEng_def, modEng_def, getF_putF_bits, getF_setEng, getF_setEng]
  · refine .inl ?_
    simp only [Reg.eng_RETIRED_COUNT, Reg.sq_CHAN_ROUTE_CREDITS]
    omega

theorem emitStep {e : Nat} (engine : e ≤ 5) (s : State) : CreditsKept c s (emitStep c e s) := by
  unfold Machine.emitStep
  split
  next v _ =>
    split
    · exact (emitWord e v s).trans (resumeEng engine _)
    · exact .of_csr rfl rfl
  next => exact .of_csr rfl rfl

theorem emitResume (s : State) : CreditsKept c s (emitResume c s) := by
  unfold Machine.emitResume
  split
  · exact .of_csr rfl rfl
  · exact (emitStep (by decide) s).trans (emitStep (by decide) _)

theorem noteStepEnds (s : State) : CreditsKept c s (noteStepEnds c s) :=
  .of_csr (by rw [(noteStepEnds_only c s).2]) (noteStepEnds_csr c s)

end CreditsKept

/-- A refusal enters queue 63 as two entries, and the credit of a refused pair returns (R158, R161, R162). -/
theorem refusalRecord_records {s : State} {c : Nat} {r : RefuseRec} {rest : List RefuseRec} (bound : s.rsvDirty = false)
    (first : (core s c).refusals = r :: rest) (runs : engRuns s c = true) (room : qCount s c 63 ≤ 14) :
    ∃ t, exec (.refusalRecord c) s = .next t ∧ (core t c).refusals = rest ∧ qCount t c 63 = qCount s c 63 + 2 ∧
      rdNum t (qEntry c 63 (qHead s c 63 + qCount s c 63)) 8 = r.hdr.toNat ∧
      rdNum t (qEntry c 63 (qHead s c 63 + qCount s c 63 + 1)) 8 = r.word.toNat ∧
      (r.hdr.toNat % 4 = 1 → getF t (Reg.sq_CHAN_ROUTE_CREDITS c (bitsN r.hdr.toNat 32 5)) =
        min (getF s (Reg.sq_CHAN_ROUTE_CREDITS c (bitsN r.hdr.toNat 32 5)) + 1) 31) := by
  set s1 := setCore c { core s c with refusals := rest } s with s1_eq
  set t1 := qAppend c 63 r.hdr.toNat none s1 with t1_eq
  set t2 := qAppend c 63 r.word.toNat none t1 with t2_eq
  set t3 := refusalDone (4 * c) r rest t2 with t3_eq
  set route := bitsN r.hdr.toNat 32 5
  set u := if r.hdr.toNat % 4 = 1 then addSat (Reg.sq_CHAN_ROUTE_CREDITS c route) 1 t3 else t3 with u_eq
  have run : exec (.refusalRecord c) s = live s (noteStepEnds c (emitResume c (watchQueue s c 63 u))) := by
    show execRefusalRecord c s = _
    rw [execRefusalRecord, first]
    exact congrArg (live s) (if_pos ⟨runs, room⟩)
  have kept : CreditsKept c u (noteStepEnds c (emitResume c (watchQueue s c 63 u))) :=
    (CreditsKept.watchQueue s 63 u).trans ((CreditsKept.emitResume _).trans (CreditsKept.noteStepEnds _))
  have entered : CreditsKept c s1 t3 :=
    (CreditsKept.qAppend 63 _ none s1).trans ((CreditsKept.qAppend 63 _ none t1).trans (CreditsKept.refusalDone ..))
  have credited : (core u c).refusals = (core t3 c).refusals ∧ u.mem = t2.mem := by
    rw [u_eq]
    split
    · exact ⟨by rw [addSat_def, core_putF], by rw [addSat_def, putF_mem]; rfl⟩
    · exact ⟨rfl, rfl⟩
  have mem : (sicSettle (noteStepEnds c (emitResume c (watchQueue s c 63 u)))).mem = t2.mem := by
    rw [sicSettle_mem, (EmitStep.noteStepEnds _).mem, (EmitStep.emitResume _).mem, watchQueue_mem, credited.2]
  obtain ⟨count1, head1, last1, -⟩ := append_of_mem (s := s1) (t := t1) rfl (by decide) (show qCount s c 63 < 16 by omega) r.hdr.isLt
  rw [show qCount s1 c 63 = qCount s c 63 from rfl] at count1 last1
  rw [show qHead s1 c 63 = qHead s c 63 from rfl] at head1 last1
  obtain ⟨count2, -, last2, before⟩ := append_of_mem mem (by decide) (by omega) r.word.isLt
  rw [head1, count1] at last2
  have kept1 := before (qCount s c 63) (by omega)
  rw [head1, last1] at kept1
  refine ⟨_, run.trans (live_next bound _), ?_, ?_, kept1, last2, fun pair => ?_⟩
  · rw [core_sicSettle, kept.refusals, credited.1, entered.refusals, s1_eq, core_setCore_same]
  · rw [count2, count1]
  · have small : route < 32 := Nat.mod_lt _ (by decide)
    rw [getF_sicSettle, kept.credits route small, u_eq, if_pos pair, addSat_def, getF_putF_same, entered.credits route small, s1_eq, getF_setCore]
    exact Nat.mod_eq_of_lt (Nat.lt_succ_of_le (Nat.min_le_right _ _))

end Sys2Proof.Machine
end

section
/-! PROOFS. Staged words that enter a ring (R154, R155). -/

namespace Sys2Proof.Machine

/-! ### A write to the slice view (R412, R418) -/

theorem fixWords_mem (b : Nat) (ws : List Nat) (s : State) : (fixWords b ws s).mem = s.mem :=
  List.foldlRecOn ws _ (motive := fun t : State => t.mem = s.mem) rfl fun t ht w _ => by
    split
    · simp only [sliceCorr, incSat_def, flagF_def, putF_mem]
      exact ht
    · exact ht

theorem forgetWords_mem (ws : List Nat) (s : State) : (forgetWords ws s).mem = s.mem :=
  List.foldlRecOn ws _ (motive := fun t : State => t.mem = s.mem) rfl fun _ ht _ _ => ht

/-- A write that no check refuses puts its bytes in memory, and no other byte. -/
theorem sliceDo_write_mem {p : Party} {off : Nat} {bs : List Byte} {s : State} (taken : (sliceDo p off (.write bs) 0 s).data ≠ none) :
    (sliceDo p off (.write bs) 0 s).st.mem = setBytes (viewBase + off) bs s.mem := by
  unfold sliceDo at taken ⊢
  extract_lets at taken ⊢
  split_ifs at taken ⊢
  iterate 6 exact absurd rfl taken
  split at taken
  next => exact absurd rfl taken
  next => exact congrArg (setBytes _ bs) ((forgetWords_mem _ _).trans (fixWords_mem _ _ _))

/-! ### The header of a record (R154) -/

theorem getNum_lt (m : Memory) (a n : Nat) : getNum m a n < 2 ^ (8 * n) :=
  Nat.lt_pow_two_of_testBit _ fun i high => by simp [testBit_getNum, Nat.not_lt.mpr high]

theorem setBitN_false_le (w i : Nat) : setBitN w i false ≤ w := by
  unfold setBitN
  split
  · contradiction
  · split
    · exact Nat.sub_le ..
    · exact Nat.le_refl w

/-! ### One staged word (R155) -/

/-- The write of ring word PROD of queue `q` as `v`. -/
def ringWrite (c q v : Nat) (s : State) : SliceAns := sliceDo (.core c 5) (ringOff s c q (qProd s c q)) (.write (toBytes v 8)) 0 s

/-- What follows that write, of which `t` is the state: the oldest staged word has gone, and `left` words of its record follow. -/
def ringMoved (c q left : Nat) (s t : State) : State :=
  t |> setQProd c q (qProd s c q + 1) |> qDropFront c q |> modCore c (fun k => { k with ringLeft := tset q left k.ringLeft })
    |> sendCredit c ((origins s c q).headD none) |> watchQueue s c q

section
variable {s : State} {c q : Nat}

theorem ringMove_of_empty (none_ : qCount s c q = 0) : ringMove c q s = none := by
  rw [ringMove, qEntries_nil none_, ite_self]

section
variable (free : drainsAny s = false) (staged : qCount s c q ≠ 0)
include free staged

/-- A word within a record goes as it stands. -/
theorem ringMove_of_body {w l : Nat} (oldest : rdNum s (qEntry c q (qHead s c q)) 8 = w) (left : tget 0 q (core s c).ringLeft = l + 1) :
    ringMove c q s = some (ringMoved c q l s (ringWrite c q w s).st) := by
  obtain ⟨rest, entries⟩ := qEntries_head staged
  rw [oldest] at entries
  rw [ringMove, free, Bool.false_and, if_neg Bool.false_ne_true]
  split
  next none_ => simp [entries] at none_
  next w' rest' is =>
    obtain ⟨rfl, -⟩ := List.cons.inj (entries.symm.trans is)
    extract_lets _ prod _ put
    split
    next l' some_ =>
      obtain rfl : l' = l := Nat.succ.inj (some_.symm.trans left)
      exact congrArg (fun a : SliceAns => some (ringMoved c q l' s a.st)) (rfl : put prod w s = ringWrite c q w s)
    next none_ => omega

/-- A header goes with its pad bit clear, where its record fits before the end of the ring and in what is free of it. -/
theorem ringMove_of_header {w : Nat} (oldest : rdNum s (qEntry c q (qHead s c q)) 8 = w) (left : tget 0 q (core s c).ringLeft = 0)
    (whole : w % 512 + 1 ≤ qRingWords s c q - qProd s c q % qRingWords s c q)
    (room : w % 512 + 1 ≤ qRingWords s c q - (qProd s c q + 2 ^ 24 - qCons s c q) % 2 ^ 24) :
    ringMove c q s = some (ringMoved c q (w % 512 + 1 - 1) s (ringWrite c q (setBitN w 15 false) s).st) := by
  obtain ⟨rest, entries⟩ := qEntries_head staged
  rw [oldest] at entries
  rw [ringMove, free, Bool.false_and, if_neg Bool.false_ne_true]
  split
  next none_ => simp [entries] at none_
  next w' rest' is =>
    obtain ⟨rfl, -⟩ := List.cons.inj (entries.symm.trans is)
    extract_lets _ prod _ put
    split
    next l' some_ => omega
    next => exact (if_pos whole).trans ((if_pos room).trans
        (congrArg (fun a : SliceAns => some (ringMoved c q _ s a.st)) (rfl : put prod (setBitN w 15 false) s = ringWrite c q (setBitN w 15 false) s)))

end

/-- What a further word leaves of the record. -/
theorem ringLeft_ringMoved {t : State} (same : core t c = core s c) (left : Nat) :
    (core (ringMoved c q left s t) c).ringLeft = tset q left (core s c).ringLeft := by
  have sent (o : Option (Nat × Nat)) (u : State) : core (sendCredit c o u) c = core u c := by cases o <;> rfl
  rw [ringMoved, core_watchQueue, sent, modCore_def, core_setCore_same, qDropFront, setOrigins, modCore_def, core_setCore_same]
  simp only [setQCount, setQHead, setQProd, wrBits_def, core_setMem, same]

/-- The word stands in the ring, the producer index has gone past it, and one word fewer is staged. -/
theorem ringMoved_spec {t : State} {a v : Nat} (written : t.mem = setNum a 8 v s.mem) (apart : qDesc c q + 16 ≤ a) (fits : v < 2 ^ 64)
    (few : qCount s c q ≤ 16) (left : Nat) :
    qCount (ringMoved c q left s t) c q = qCount s c q - 1 ∧ qProd (ringMoved c q left s t) c q = (qProd s c q + 1) % 2 ^ 24 ∧
      rdNum (ringMoved c q left s t) a 8 = v := by
  have desc (lo w : Nat) (inside : lo + w ≤ 128) : rdBits t (qDesc c q) lo w = rdBits s (qDesc c q) lo w := by
    rw [rdBits, written]
    exact getBits_of_memBit fun i hi => by rw [memBit_setNum, if_neg (by omega)]
  set t1 := setQProd c q (qProd s c q + 1) t
  have mem : (ringMoved c q left s t).mem = (qDropFront c q t1).mem := by
    rw [ringMoved, watchQueue_mem, (sendCredit_parts ..).1, modCore_def, setCore_mem]
  have prod : t1.mem = setBits (qDesc c q) 80 24 (qProd s c q + 1) t.mem := rfl
  have count : qCount t1 c q = qCount s c q := by
    rw [qCount, rdBits, prod, getBits_setBits_apart (by omega)]
    exact desc 68 5 (by omega)
  obtain ⟨dropped, -, kept⟩ := dropFront_of_mem mem (by omega)
  have outer : MemKept (qDesc c q) 16 t (ringMoved c q left s t) :=
    (MemKept.wrBits _ (by omega) t).trans (kept.part (by omega) (by omega))
  refine ⟨by rw [dropped, count], ?_, ?_⟩
  · rw [qProd, rdBits, mem, qDropFront_mem, prod, getBits_setBits_apart (by omega), getBits_setBits_apart (by omega)]
    exact getBits_setBits_same ..
  · rw [(BytesKept.of_memKept outer (.inr apart)).rdNum, rdNum, written, getNum_setNum]
    exact Nat.mod_eq_of_lt fits

/-! ### RING_RECORD_WRITE (R155) -/

theorem ringMoveAll_of_some {t : State} (moves : ringMove c q s = some t) (n : Nat) : ringMoveAll c q (n + 1) s = ringMoveAll c q n t := by
  rw [ringMoveAll, moves]

theorem ringMoveAll_of_none (stays : ringMove c q s = none) (n : Nat) : ringMoveAll c q (n + 1) s = s := by
  rw [ringMoveAll, stays]

/-- The word that enters the ring for the staged word `w`, while `l` body words of a record are still to come. -/
def ringValue (l w : Nat) : Nat := if l = 0 then setBitN w 15 false else w

/-- The only staged word enters the ring. -/
theorem ringRecordWrite_moves {w l : Nat} (bound : s.rsvDirty = false) (hc : c < 1024) (small : q < 64) (runs : engRuns s c = true)
    (free : drainsAny s = false) (kind : qKind s c q = 2) (one : qCount s c q = 1) (oldest : rdNum s (qEntry c q (qHead s c q)) 8 = w)
    (left : tget 0 q (core s c).ringLeft = l)
    (room : l = 0 → w % 512 + 1 ≤ qRingWords s c q - qProd s c q % qRingWords s c q ∧
      w % 512 + 1 ≤ qRingWords s c q - (qProd s c q + 2 ^ 24 - qCons s c q) % 2 ^ 24)
    (taken : (ringWrite c q (ringValue l w) s).data ≠ none) :
    ∃ t, exec (.ringRecordWrite c q) s = .next t ∧ qCount t c q = 0 ∧ qProd t c q = (qProd s c q + 1) % 2 ^ 24 ∧
      rdNum t (viewBase + ringOff s c q (qProd s c q)) 8 = ringValue l w ∧ tget 0 q (core t c).ringLeft = if l = 0 then w % 512 else l - 1 := by
  have moves : ringMove c q s = some (ringMoved c q (if l = 0 then w % 512 else l - 1) s (ringWrite c q (ringValue l w) s).st) := by
    cases l with
    | zero =>
      obtain ⟨whole, fits⟩ := room rfl
      have header := ringMove_of_header free (by omega) oldest left whole fits
      rw [Nat.add_sub_cancel] at header
      exact header
    | succ l => exact ringMove_of_body free (by omega) oldest left
  have written : (ringWrite c q (ringValue l w) s).st.mem = setNum (viewBase + ringOff s c q (qProd s c q)) 8 (ringValue l w) s.mem :=
    sliceDo_write_mem taken
  have same : core (ringWrite c q (ringValue l w) s).st c = core s c := core_of_wicketView (wicketView_sliceDo ..) c
  have value : ringValue l w < 2 ^ 64 := by
    have narrow : w < 2 ^ 64 := oldest ▸ getNum_lt s.mem _ 8
    unfold ringValue
    split
    · exact (setBitN_false_le w 15).trans_lt narrow
    · exact narrow
  have apart : qDesc c q + 16 ≤ viewBase + ringOff s c q (qProd s c q) := by
    simp only [qDesc, qsBase, coreBase, viewBase]
    omega
  generalize (ringWrite c q (ringValue l w) s).st = t at moves written same
  obtain ⟨count, prod, word⟩ := ringMoved_spec written apart value (by omega) (if l = 0 then w % 512 else l - 1)
  rw [one] at count
  have run : exec (.ringRecordWrite c q) s = live s (ringMoved c q (if l = 0 then w % 512 else l - 1) s t) := by
    show execRingRecordWrite c q s = _
    rw [execRingRecordWrite, if_pos ⟨small, runs, kind⟩, ringMoveAll_of_some moves, ringMoveAll_of_none (ringMove_of_empty count)]
  have settled := sicSettle_mem (ringMoved c q (if l = 0 then w % 512 else l - 1) s t)
  refine ⟨_, run.trans (live_next bound _), ?_, ?_, ?_, ?_⟩
  · rw [qCount, rdBits, settled]
    exact count
  · rw [qProd, rdBits, settled]
    exact prod
  · rw [rdNum, settled]
    exact word
  · rw [core_sicSettle, ringLeft_ringMoved same, tget_tset_same]

end

end Sys2Proof.Machine
end

section
/-! PROOFS. QDATA as the external port meets it: what a read answers and what a write leaves (R149-R151). -/

namespace Sys2Proof.Machine

/-! ### QDATA_READ (R151) -/

section
variable {s : State} {p : Party} {c q : Nat} (bound : s.rsvDirty = false) (core : c < 1024) (small : q < 64)
  (ok : csrOk s p (Reg.sq_QDATA c q) false = true) (held : popHeld s c q = false) (clean : WordsClean s c (qWords s c q true))
include bound core small ok held clean

/-- The reader takes the oldest word, and the high half of it is kept for the requester. -/
theorem qdataRead_takes (reader : qReader s c q = 6) {v : Nat} {u : State} (pop : qPop c q { s with reply := .done } = .entry v u) :
    ∃ t, exec (.qdataRead p c q) s = .next t ∧ t.reply = .data (v % 2 ^ 32) ∧ t.mem = u.mem ∧
      (hasShadow p = true → (shadowOf t p (coreBase c + 0x95000)).map (·.value) = some [BitVec.ofNat 32 (v / 2 ^ 32)]) := by
  have run := exec_qdataRead core small ok held
  rw [popExternal_of_reader (s := { s with reply := .done }) clean reader, pop] at run
  obtain ⟨t, next, reply, mem, -, shadow⟩ := read_next bound run
  rw [BitVec.toNat_ofNat] at reply
  exact ⟨t, next, reply, mem, shadow⟩

/-- The reader of an empty queue reads zero, flagged UNDERRUN. -/
theorem qdataRead_underruns (reader : qReader s c q = 6) (pop : qPop c q { s with reply := .done } = .empty) :
    ∃ t, exec (.qdataRead p c q) s = .next t ∧ t.reply = .data 0 ∧ isSet t (Reg.sq_QLEVEL_UNDERRUN c q) = true ∧ t.mem = s.mem := by
  have run := exec_qdataRead core small ok held
  rw [popExternal_of_reader (s := { s with reply := .done }) clean reader, pop] at run
  obtain ⟨t, next, reply, mem, csr, -⟩ := read_next bound run
  exact ⟨t, next, reply, (flagged Nat.one_pos rfl csr).1, mem.trans (putF_mem ..)⟩

/-- A queue with another reader reads as zero, flagged DENIED. -/
theorem qdataRead_denied (other : qReader s c q ≠ 6) :
    ∃ t, exec (.qdataRead p c q) s = .next t ∧ t.reply = .data 0 ∧ isSet t (Reg.sq_QLEVEL_DENIED c q) = true ∧ t.mem = s.mem := by
  have run := exec_qdataRead core small ok held
  rw [popExternal_of_other (s := { s with reply := .done }) clean other] at run
  obtain ⟨t, next, reply, mem, csr, -⟩ := read_next bound run
  exact ⟨t, next, reply, (flagged Nat.one_pos rfl csr).1, mem.trans (putF_mem ..)⟩

end

/-! ### QDATA_WRITE (R149, R150) -/

theorem dropHeld_begun (s : State) (p : Party) (blk : Nat) : Begun s (dropHeld p blk { s with reply := .done }) := rfl

theorem earlierWrites_of_begun {s u : State} {c q : Nat} (begun : Begun s u) (idle : ∀ f ∈ engineOrder, waitingWrite c q s f = none)
    (none_ : pairFor s c q = false) : earlierWrites c q u = u :=
  earlierWrites_of_idle (fun f member => (begun.waitingWrite_eq_none_iff c q f).mpr (idle f member)) ((begun.pairFor c q).trans none_)

section
variable {s : State} {p : Party} {c q : Nat} {hi lo : Word} {b : RegBlock} {blk : Nat} {peek : Bool} {w : WordAt}
  (bound : s.rsvDirty = false) (small : q < 64) (ok : csrOk s p (Reg.sq_QDATA c q + 4) true = true)
  (at_ : csrAt (Reg.sq_QDATA c q) = .word b blk peek w) (low : heldFor s p blk (Reg.sq_QDATA c q) = some lo)
  (clean : WordsClean s c (qWords s c q false))
include bound small ok at_ low clean

/-- A write that the queue's owners do not allow is flagged DENIED, and changes no other word. -/
theorem qdataWrite_denied (denied : bitN (qWriters s c q) 6 = false ∨ qKind s c q = 3) :
    ∃ t, exec (.qdataWrite p c q hi) s = .next t ∧ isSet t (Reg.sq_QLEVEL_DENIED c q) = true ∧
      CsrKept [Reg.sq_QLEVEL_DENIED c q] s t ∧ t.mem = s.mem := by
  obtain ⟨t, next, csr, mem, -, -⟩ := exec_qdataWrite (hi := hi) bound small ok at_ low
  rw [externalPush_of_denied (s := dropHeld p blk { s with reply := .done }) clean _ denied] at csr mem
  obtain ⟨flag, kept⟩ := flagged Nat.one_pos (dropHeld_begun s p blk).csr csr
  exact ⟨t, next, flag, kept, mem.trans (putF_mem ..)⟩

section
variable (writer : bitN (qWriters s c q) 6 = true) (kind : qKind s c q ≠ 3)
include writer kind

/-- An allowed write is made after those that wait before it. -/
theorem qdataWrite_made {u : State} (write : qWrite c q (hi ++ lo) none (earlierWrites c q (dropHeld p blk { s with reply := .done })) = some u) :
    ∃ t, exec (.qdataWrite p c q hi) s = .next t ∧ t.mem = u.mem ∧ t.csr = u.csr ∧ t.engs = u.engs ∧ t.cores = u.cores := by
  obtain ⟨t, next, csr, mem, engs, cores⟩ := exec_qdataWrite (hi := hi) bound small ok at_ low
  rw [externalPush_of_writer (s := dropHeld p blk { s with reply := .done }) clean _ writer kind, write] at csr mem engs cores
  exact ⟨t, next, mem, csr, engs, cores⟩

/-- Where the queue has no room after those, the write is lost, flagged OVERRUN. -/
theorem qdataWrite_overruns (write : qWrite c q (hi ++ lo) none (earlierWrites c q (dropHeld p blk { s with reply := .done })) = none) :
    ∃ t, exec (.qdataWrite p c q hi) s = .next t ∧ t.mem = (earlierWrites c q (dropHeld p blk { s with reply := .done })).mem ∧
      isSet t (Reg.sq_QLEVEL_OVERRUN c q) = true ∧
      CsrKept [Reg.sq_QLEVEL_OVERRUN c q] (earlierWrites c q (dropHeld p blk { s with reply := .done })) t := by
  obtain ⟨t, next, csr, mem, -, -⟩ := exec_qdataWrite (hi := hi) bound small ok at_ low
  rw [externalPush_of_writer (s := dropHeld p blk { s with reply := .done }) clean _ writer kind, write] at csr mem
  obtain ⟨flag, kept⟩ := flagged Nat.one_pos rfl csr
  exact ⟨t, next, mem.trans (putF_mem ..), flag, kept⟩

section
variable (pairs : qKind s c q ≠ 1) (idle : ∀ f ∈ engineOrder, waitingWrite c q s f = none) (none_ : pairFor s c q = false)
include pairs idle none_

/-- Where nothing waits before it, the pair becomes the last entry. -/
theorem qdataWrite_appends (room : qCount s c q < 16) :
    ∃ t, exec (.qdataWrite p c q hi) s = .next t ∧ qCount t c q = qCount s c q + 1 ∧ qHead t c q = qHead s c q ∧
      rdNum t (qEntry c q (qHead s c q + qCount s c q)) 8 = (hi ++ lo).toNat ∧ t.csr = s.csr := by
  have write := (qWrite_of_pairs (s := dropHeld p blk { s with reply := .done }) pairs (hi ++ lo) none).trans (if_pos room)
  rw [← earlierWrites_of_begun (dropHeld_begun s p blk) idle none_] at write
  obtain ⟨t, next, mem, csr, -, -⟩ := qdataWrite_made bound small ok at_ low clean writer kind write
  rw [watchQueue_mem, earlierWrites_of_begun (dropHeld_begun s p blk) idle none_] at mem
  obtain ⟨count, head, last, -⟩ := append_of_mem mem small room (hi ++ lo).isLt
  refine ⟨t, next, count, head, last, ?_⟩
  rw [csr, watchQueue_csr, qAppend_csr, earlierWrites_of_begun (dropHeld_begun s p blk) idle none_, (dropHeld_begun s p blk).csr]

theorem qdataWrite_full (full : 16 ≤ qCount s c q) :
    ∃ t, exec (.qdataWrite p c q hi) s = .next t ∧ isSet t (Reg.sq_QLEVEL_OVERRUN c q) = true ∧
      CsrKept [Reg.sq_QLEVEL_OVERRUN c q] s t ∧ t.mem = s.mem := by
  have write := (qWrite_of_pairs (s := dropHeld p blk { s with reply := .done }) pairs (hi ++ lo) none).trans (if_neg (Nat.not_lt.mpr full))
  rw [← earlierWrites_of_begun (dropHeld_begun s p blk) idle none_] at write
  obtain ⟨t, next, mem, flag, kept⟩ := qdataWrite_overruns bound small ok at_ low clean writer kind write
  rw [earlierWrites_of_begun (dropHeld_begun s p blk) idle none_] at mem kept
  exact ⟨t, next, flag, kept, mem⟩

end

end

end

/-! ### O27 -/

/-- Settles O27: each command by the lemma that says what it does; a staged word that enters a ring leaves the queue empty, so that no other follows. -/
theorem externalQueueAccess : Obligations.ExternalQueueAccess := by
  unfold Obligations.ExternalQueueAccess
  refine ⟨fun s p c q hi lo bound hc small => ⟨fun ok held clean => ⟨?_, ?_, ?_⟩, fun ok b blk peek w at_ low clean => ⟨?_, ?_, ?_⟩, ?_⟩,
    fun s p c bound hc => ⟨?_, ?_, ?_, ?_⟩⟩
  · exact fun reader v u pop => qdataRead_takes bound hc small ok held clean reader pop
  · exact fun reader pop => qdataRead_underruns bound hc small ok held clean reader pop
  · exact fun other => qdataRead_denied bound hc small ok held clean other
  · exact fun writer kind => ⟨fun u write => qdataWrite_made bound small ok at_ low clean writer kind write,
      fun write => qdataWrite_overruns bound small ok at_ low clean writer kind write⟩
  · exact fun writer pairs kind idle none_ => ⟨fun room => qdataWrite_appends bound small ok at_ low clean writer kind pairs idle none_ room,
      fun full => qdataWrite_full bound small ok at_ low clean writer kind pairs idle none_ full⟩
  · exact fun denied => qdataWrite_denied bound small ok at_ low clean denied
  · rintro a rest oldest rfl
    refine ⟨fun passes clocked first pairs => ⟨fun room => ?_, fun full => ?_⟩, fun passes ahead => ?_, fun r fails => ?_⟩
    · exact qsendArrival_appends oldest bound passes clocked first pairs room
    · exact qsendArrival_waits bound (deliverPair_of_full oldest passes clocked first pairs full)
    · exact qsendArrival_waits bound (deliverPair_of_ahead oldest passes ahead)
    · exact qsendArrival_refuses oldest bound fails
  · intro q w l small runs free kind one oldest left words v a room taken
    exact ringRecordWrite_moves bound hc small runs free kind one oldest left room taken
  · exact fun route a rest small speaks oldest => creditReturn_adds bound speaks oldest
  · exact fun route lo hi small invalid valid ok => chanRouteValid_loads bound hc small invalid valid ok hi
  · exact fun r rest first runs room => refusalRecord_records bound first runs room

end Sys2Proof.Machine
end

section
/-! PROOFS. The receive series of the fabric: what judgements, acknowledgements and NACKs leave as it is (R190-R194). -/

namespace Sys2Proof.Machine

/-! ### Changes of the receive series and of what waits to be sent -/

/-- `t` differs from `s` in the receive series and in the packets that wait at their sources alone. -/
def SeriesOnly (s t : State) : Prop := t = { s with fab := { s.fab with waiting := t.fab.waiting, rx := t.fab.rx } }

namespace SeriesOnly

variable {s t u : State}

theorem refl (s : State) : SeriesOnly s s := rfl

theorem trans (h : SeriesOnly s t) (k : SeriesOnly t u) : SeriesOnly s u := by
  rw [SeriesOnly] at h k ⊢
  rw [k, h]

theorem foldl {α : Type} {g : State → α → State} (h : ∀ t x, SeriesOnly t (g t x)) (l : List α) (s : State) : SeriesOnly s (l.foldl g s) :=
  List.foldlRecOn l g (motive := SeriesOnly s) (refl s) fun t ht x _ => ht.trans (h t x)

theorem csr (h : SeriesOnly s t) : t.csr = s.csr := by rw [h]
theorem mem (h : SeriesOnly s t) : t.mem = s.mem := by rw [h]
theorem core (h : SeriesOnly s t) (c : Nat) : core t c = core s c := by rw [h]; rfl
theorem flights (h : SeriesOnly s t) : t.fab.flights = s.fab.flights := by rw [h]
theorem retx (h : SeriesOnly s t) : t.fab.retx = s.fab.retx := by rw [h]

theorem modRx (k : Nat) (f : RxSeries → RxSeries) (s : State) : SeriesOnly s (modRx k f s) := rfl

theorem sendAck (src dst : Nat) (s : State) : SeriesOnly s (sendAck src dst s) := rfl

theorem ackIfNew (src dst : Nat) (s : State) : SeriesOnly s (ackIfNew src dst s) := by
  unfold Machine.ackIfNew
  split
  · exact sendAck src dst s
  · exact refl s

theorem ackIfDue (src dst : Nat) (s : State) : SeriesOnly s (ackIfDue src dst s) := by
  simp only [Machine.ackIfDue]
  split
  · exact ackIfNew src dst s
  · exact refl s

theorem entryAck (ep f : Nat) (p : Packet) (s : State) : SeriesOnly s (entryAck ep f p s) := by
  simp only [Machine.entryAck]
  split <;> rfl

theorem sendNack (ep : Nat) (p : Packet) (fl : Option Nat) (s : State) : SeriesOnly s (sendNack ep p fl s) := by
  simp only [Machine.sendNack]
  split <;> rfl

theorem refuseAcked (p : Packet) (s : State) : SeriesOnly s (refuseAcked p s) := by
  simp only [Machine.refuseAcked]
  split
  · split
    · exact (modRx _ _ s).trans (entryAck _ _ _ _)
    · exact refl s
  · exact (modRx _ _ s).trans (ackIfNew _ _ _)

end SeriesOnly

/-! ### The series -/

@[simp] theorem rxOf_modRx_same (k : Nat) (f : RxSeries → RxSeries) (s : State) : rxOf (modRx k f s) k = f (rxOf s k) := by
  simp [rxOf, modRx]

@[simp] theorem rxOf_post (p : Packet) (s : State) (k : Nat) : rxOf (post p s) k = rxOf s k := rfl

@[simp] theorem rxOf_sicSettle (s : State) (k : Nat) : rxOf (sicSettle s) k = rxOf s k := by simp [rxOf]

@[simp] theorem rxOf_sendAck_same (src dst : Nat) (s : State) : rxOf (sendAck src dst s) (uniKey src dst) =
    { rxOf s (uniKey src dst) with
      unacked := ackLag s src dst, owed := (rxOf s (uniKey src dst)).owed && ackLag s src dst != 0 } := by
  simp [sendAck]

theorem sendAck_waiting (src dst : Nat) (s : State) : (sendAck src dst s).fab.waiting = s.fab.waiting ++
    [{ ty := .ack, src := dst, dst := src, seq := ((rxOf s (uniKey src dst)).expect + 511 - ackLag s src dst) % 256 }] := rfl

/-- An acknowledgement leaves the SEQ that its series expects. -/
theorem ackIfDue_expect (src dst : Nat) (s : State) :
    (rxOf (ackIfDue src dst s) (uniKey src dst)).expect = (rxOf s (uniKey src dst)).expect := by
  simp only [ackIfDue, ackIfNew]
  split
  · split
    · rw [rxOf_sendAck_same]
    · rfl
  · rfl

/-- Where nothing is held back or unjudged, the cumulative ACK leaves nothing out (R194). -/
theorem ackLag_of_covered {s : State} {src dst : Nat} (h : uncovered s src dst = []) : ackLag s src dst = 0 := by
  simp [ackLag, h]

/-! ### ACK_SEND (R192, R194) -/

theorem ackSend_acknowledges {s : State} {src dst : Nat} (bound : s.rsvDirty = false)
    (new : ackLag s src dst < (rxOf s (uniKey src dst)).unacked) :
    ∃ t, exec (.ackSend src dst) s = .next t ∧ t.csr = s.csr ∧ t.mem = s.mem ∧ (rxOf t (uniKey src dst)).unacked = ackLag s src dst ∧
      t.fab.waiting = s.fab.waiting ++
        [{ ty := .ack, src := dst, dst := src, seq := ((rxOf s (uniKey src dst)).expect + 511 - ackLag s src dst) % 256 }] := by
  have run : exec (.ackSend src dst) s = live s (sendAck src dst s) := congrArg (live s) (if_pos new)
  have only := SeriesOnly.sendAck src dst s
  refine ⟨_, run.trans (live_next bound _), ?_, ?_, ?_, ?_⟩
  · rw [sicSettle_csr, only.csr]
  · rw [sicSettle_mem, only.mem]
  · rw [rxOf_sicSettle, rxOf_sendAck_same]
  · rw [sicSettle_fab, sendAck_waiting]

/-! ### NACK_TIMEOUT (R191) -/

theorem nackTimeout_ends {s : State} (bound : s.rsvDirty = false) (src dst : Nat) :
    ∃ t, exec (.nackTimeout src dst false) s = .next t ∧ (rxOf t (uniKey src dst)).nack = false ∧ t.csr = s.csr ∧ t.mem = s.mem := by
  refine ⟨_, live_next bound _, ?_⟩
  simp only [Bool.false_eq_true, if_false, rxOf_sicSettle, sicSettle_csr, sicSettle_mem]
  split
  · exact ⟨by rw [rxOf_modRx_same], rfl, rfl⟩
  next none => exact ⟨Bool.eq_false_iff.mpr none, rfl, rfl⟩

end Sys2Proof.Machine
end

section
/-! PROOFS. Packets that arrive at a core's router stop: in their turn, ahead of it, behind it, damaged, or a refusal (R175, R191, R192,
R194). -/

namespace Sys2Proof.Machine

/-! ### Counts of the fabric (R200) -/

/-- A count that saturates stands one higher. -/
theorem getF_addSat (f : FieldRef) (n : Nat) (s : State) : getF (addSat f n s) f = min (getF s f + n) (2 ^ f.width - 1) := by
  have pos := Nat.two_pow_pos f.width
  rw [addSat_def, getF_putF_same, Nat.mod_eq_of_lt (by omega)]

theorem getF_incSat (f : FieldRef) (s : State) : getF (incSat f s) f = min (getF s f + 1) (2 ^ f.width - 1) := getF_addSat f 1 s

/-! ### The judgement of a unicast packet (R191) -/

section
variable (ep : Nat) (p : Packet) (s : State)

/-- How far ahead of its series a unicast packet is, modulo 256. -/
def aheadBy (s : State) (ep : Nat) (p : Packet) : Nat := (p.seq + 256 - (rxOf s (uniKey p.src ep)).expect) % 256

/-- The series has accepted one packet more. -/
def acceptedNext (ep : Nat) (p : Packet) (s : State) : State :=
  modRx (uniKey p.src ep) (fun r => { r with expect := (r.expect + 1) % 256, unacked := r.unacked + 1, nack := false }) s

theorem acceptedNext_series : rxOf (acceptedNext ep p s) (uniKey p.src ep) = { rxOf s (uniKey p.src ep) with
    expect := ((rxOf s (uniKey p.src ep)).expect + 1) % 256, unacked := (rxOf s (uniKey p.src ep)).unacked + 1, nack := false } :=
  rxOf_modRx_same ..

theorem seqJudge_of_next {ep : Nat} {p : Packet} {s : State} (h : aheadBy s ep p = 0) :
    seqJudge ep p none false s = .inOrder (acceptedNext ep p s) := if_pos h

theorem seqJudge_of_ahead {ep : Nat} {p : Packet} {s : State} (some_ : 1 ≤ aheadBy s ep p) (near : aheadBy s ep p ≤ 127) :
    seqJudge ep p none false s = .done (sendNack ep p none s) :=
  (if_neg (Nat.ne_of_gt some_)).trans (if_pos near)

theorem seqJudge_of_behind {ep : Nat} {p : Packet} {s : State} (far : 128 ≤ aheadBy s ep p) :
    seqJudge ep p none false s = .done (sendAck p.src ep (incSat Reg.fab_DUP_COUNT_COUNT s)) :=
  (if_neg (Nat.ne_of_gt (by omega : 0 < aheadBy s ep p))).trans (if_neg (by omega : ¬aheadBy s ep p ≤ 127))

theorem sendNack_outstanding : (rxOf (sendNack ep p none s) (uniKey p.src ep)).nack = true := by
  show (rxOf (if (rxOf s (uniKey p.src ep)).nack then s else _) (uniKey p.src ep)).nack = true
  split
  next out => exact out
  next => exact congrArg RxSeries.nack ((rxOf_post ..).trans (rxOf_modRx_same (uniKey p.src ep) _ s))

/-- A NACK is sent unless one is outstanding. -/
theorem sendNack_waiting : (sendNack ep p none s).fab.waiting = s.fab.waiting ++ (if (rxOf s (uniKey p.src ep)).nack then [] else
    [{ ty := .nack, src := ep, dst := p.src, seq := (rxOf s (uniKey p.src ep)).expect }]) := by
  show (if (rxOf s (uniKey p.src ep)).nack then s else _).fab.waiting = _
  split
  · exact (List.append_nil _).symm
  · rfl

end

/-! ### The command -/

/-- A packet whose CRC fails is counted (R175). -/
def crcFailed (s : State) : State := s |> setF Reg.fab_FAB_EVENTS_CRC_FAIL |> incSat Reg.fab_CRC_FAIL_COUNT_COUNT

theorem isSet_crcFailed (s : State) : isSet (crcFailed s) Reg.fab_FAB_EVENTS_CRC_FAIL = true :=
  (isSet_putF_bits (by decide) _ _).trans (isSet_putF_one _ _ (by decide))

theorem getF_crcFailed (s : State) : getF (crcFailed s) Reg.fab_CRC_FAIL_COUNT_COUNT =
    min (getF s Reg.fab_CRC_FAIL_COUNT_COUNT + 1) (2 ^ Reg.fab_CRC_FAIL_COUNT_COUNT.width - 1) := by
  rw [crcFailed, getF_incSat, setF_def, getF_putF_bits (by decide)]

theorem crcFailed_fab (s : State) : (crcFailed s).fab = s.fab := by rw [crcFailed, incSat_def, putF_fab, setF_def, putF_fab]

theorem core_crcFailed (s : State) (c : Nat) : core (crcFailed s) c = core s c := by
  rw [crcFailed, incSat_def, core_putF, setF_def, core_putF]

/-- Item `a` joins what waits to be judged at core `c`. -/
def withArrival (c : Nat) (a : Arrival) (s : State) : State := modCore c (fun k => { k with arrivals := k.arrivals ++ [a] }) s

theorem withArrival_arrivals (c : Nat) (a : Arrival) (s : State) : (core (withArrival c a s) c).arrivals = (core s c).arrivals ++ [a] :=
  congrArg Core.arrivals (core_setCore_same ..)

/-- What follows the judgement of a unicast packet (R191, R192). -/
def afterJudgement (p : Packet) : SeqAns → State
  | .done t => t
  | .inOrder t => ackIfDue p.src p.dst (acceptPacket p.dst p none t)

section
variable {s : State} {i : Nat} {f : Flight} (at_ : s.fab.flights[i]? = some f) (here : f.delivered = true)
include at_ here

/-- A damaged packet is counted and discarded, with at most a NACK for its series. -/
theorem packetArrival_of_damaged (bad : crcOk f = false) :
    ∃ t, exec (.packetArrival i) s = live s t ∧ SeriesOnly (crcFailed (dropFlight i s)) t := by
  show ∃ t, execPacketArrival i s = live s t ∧ _
  simp only [execPacketArrival, at_, here, bad, Bool.not_true, Bool.false_eq_true, if_false, Bool.not_false, Bool.true_and, Bool.false_and]
  split
  · exact ⟨_, rfl, .refl _⟩
  next numbered =>
    rw [if_neg fun reserved => numbered (by rw [reserved]; rfl)]
    split
    · refine ⟨_, rfl, ?_⟩
      simp only [extraArrival, if_true]
      show SeriesOnly (crcFailed (dropFlight i s)) (if _ then _ else _)
      split <;> rfl
    · exact ⟨_, rfl, .sendNack ..⟩

/-- A sequenced packet whose CRC holds and that travels unicast is judged by its series. -/
theorem packetArrival_of_unicast (whole : crcOk f = true) (uni : byFlock (seen f) = false)
    (ty : (seen f).ty = .event ∨ (seen f).ty = .qsend ∨ (seen f).ty = .credit) :
    exec (.packetArrival i) s = live s (afterJudgement (seen f) (seqJudge (seen f).dst (seen f) none false (dropFlight i s))) := by
  obtain ⟨numbered, known, plain⟩ : sequenced (seen f).ty = true ∧ (seen f).ty ≠ .reserved ∧ ((seen f).ty == .refuse) = false := by
    rcases ty with h | h | h <;> rw [h] <;> decide
  have flock : flightFlock f = none := by rw [flightFlock, uni]; rfl
  have ep : flightEp f = (seen f).dst := by rw [flightEp, uni]; rfl
  show execPacketArrival i s = _
  simp only [execPacketArrival, at_, here, whole, numbered, known, plain, uni, ep, flock, Bool.not_true, Bool.false_eq_true, if_false,
    Bool.false_and, Bool.and_false, Bool.or_self]
  cases seqJudge (seen f).dst (seen f) none false (dropFlight i s) <;> rfl

variable (bound : s.rsvDirty = false)
include bound

theorem packetArrival_discards (bad : crcOk f = false) :
    ∃ t, exec (.packetArrival i) s = .next t ∧
      ((core t (epRouter (seen f).dst)).arrivals = (core s (epRouter (seen f).dst)).arrivals ∧
        t.fab.flights = s.fab.flights.eraseIdx i) ∧
      isSet t Reg.fab_FAB_EVENTS_CRC_FAIL = true ∧
      getF t Reg.fab_CRC_FAIL_COUNT_COUNT = min (getF s Reg.fab_CRC_FAIL_COUNT_COUNT + 1) (2 ^ Reg.fab_CRC_FAIL_COUNT_COUNT.width - 1) := by
  obtain ⟨t, run, only⟩ := packetArrival_of_damaged at_ here bad
  refine ⟨_, run.trans (live_next bound _), ⟨?_, ?_⟩, ?_, ?_⟩
  · rw [core_sicSettle, only.core, core_crcFailed]
    rfl
  · rw [sicSettle_fab, only.flights, crcFailed_fab]
    rfl
  · rw [isSet_sicSettle, isSet_congr only.csr, isSet_crcFailed]
  · rw [getF_sicSettle, getF_congr only.csr, getF_crcFailed]
    rfl

section
variable (whole : crcOk f = true) (uni : byFlock (seen f) = false)
  (ty : (seen f).ty = .event ∨ (seen f).ty = .qsend ∨ (seen f).ty = .credit)
include whole uni ty

theorem packetArrival_accepts (core_ : epCode (seen f).dst = 0) (next : aheadBy s (seen f).dst (seen f) = 0) :
    ∃ t, exec (.packetArrival i) s = .next t ∧
      (core t (epRouter (seen f).dst)).arrivals = (core s (epRouter (seen f).dst)).arrivals ++ [⟨seen f, none⟩] ∧
      (rxOf t (uniKey (seen f).src (seen f).dst)).expect = ((rxOf s (uniKey (seen f).src (seen f).dst)).expect + 1) % 256 ∧
      t.fab.flights = s.fab.flights.eraseIdx i ∧ t.mem = s.mem ∧ t.csr = s.csr := by
  have run := packetArrival_of_unicast at_ here whole uni ty
  rw [seqJudge_of_next (s := dropFlight i s) next, afterJudgement] at run
  set t1 := withArrival (epRouter (seen f).dst) ⟨seen f, none⟩ (acceptedNext (seen f).dst (seen f) (dropFlight i s)) with t1_eq
  rw [show acceptPacket (seen f).dst (seen f) none _ = t1 from (if_pos core_).trans (if_pos ty)] at run
  have only := SeriesOnly.ackIfDue (seen f).src (seen f).dst t1
  refine ⟨_, run.trans (live_next bound _), ?_, ?_, ?_, ?_, ?_⟩
  · rw [core_sicSettle, only.core, t1_eq, withArrival_arrivals]
    rfl
  · rw [rxOf_sicSettle, ackIfDue_expect]
    rw [show rxOf t1 _ = rxOf (acceptedNext (seen f).dst (seen f) (dropFlight i s)) _ from rfl, acceptedNext_series]
    rfl
  · rw [sicSettle_fab, only.flights]
    rfl
  · rw [sicSettle_mem, only.mem]
    rfl
  · rw [sicSettle_csr, only.csr]
    rfl

theorem packetArrival_asks (some_ : 1 ≤ aheadBy s (seen f).dst (seen f)) (near : aheadBy s (seen f).dst (seen f) ≤ 127) :
    ∃ t, exec (.packetArrival i) s = .next t ∧
      ((core t (epRouter (seen f).dst)).arrivals = (core s (epRouter (seen f).dst)).arrivals ∧
        t.fab.flights = s.fab.flights.eraseIdx i) ∧
      (rxOf t (uniKey (seen f).src (seen f).dst)).nack = true ∧
      t.fab.waiting = s.fab.waiting ++ (if (rxOf s (uniKey (seen f).src (seen f).dst)).nack then [] else
        [{ ty := .nack, src := (seen f).dst, dst := (seen f).src, seq := (rxOf s (uniKey (seen f).src (seen f).dst)).expect }]) := by
  have run := packetArrival_of_unicast at_ here whole uni ty
  rw [seqJudge_of_ahead (s := dropFlight i s) some_ near, afterJudgement] at run
  have only := SeriesOnly.sendNack (seen f).dst (seen f) none (dropFlight i s)
  refine ⟨_, run.trans (live_next bound _), ⟨?_, ?_⟩, ?_, ?_⟩
  · rw [core_sicSettle, only.core]
    rfl
  · rw [sicSettle_fab, only.flights]
    rfl
  · rw [rxOf_sicSettle]
    exact sendNack_outstanding ..
  · rw [sicSettle_fab, sendNack_waiting]
    rfl

theorem packetArrival_counts_duplicate (far : 128 ≤ aheadBy s (seen f).dst (seen f)) :
    ∃ t, exec (.packetArrival i) s = .next t ∧
      ((core t (epRouter (seen f).dst)).arrivals = (core s (epRouter (seen f).dst)).arrivals ∧
        t.fab.flights = s.fab.flights.eraseIdx i) ∧
      getF t Reg.fab_DUP_COUNT_COUNT = min (getF s Reg.fab_DUP_COUNT_COUNT + 1) (2 ^ Reg.fab_DUP_COUNT_COUNT.width - 1) := by
  have run := packetArrival_of_unicast at_ here whole uni ty
  rw [seqJudge_of_behind (s := dropFlight i s) far, afterJudgement] at run
  have only := SeriesOnly.sendAck (seen f).src (seen f).dst (incSat Reg.fab_DUP_COUNT_COUNT (dropFlight i s))
  refine ⟨_, run.trans (live_next bound _), ⟨?_, ?_⟩, ?_⟩
  · rw [core_sicSettle, only.core, incSat_def, core_putF]
    rfl
  · rw [sicSettle_fab, only.flights, incSat_def, putF_fab]
    rfl
  · rw [getF_sicSettle, getF_congr only.csr, getF_incSat]
    rfl

end

end

/-! ### FABRIC_REFUSE (R194) -/

theorem answerAt_of {s : State} {i : Nat} {f : Flight} {ty : PktType} (at_ : s.fab.flights[i]? = some f) (here : f.delivered = true)
    (whole : crcOk f = true) (is : (seen f).ty = ty) : answerAt s i ty = some (seen f) := by
  simp [answerAt, at_, here, whole, is]

/-- What the sender of a refused item keeps of the REFUSE. -/
def refusalOf (p : Packet) : RefuseRec :=
  ⟨BitVec.ofNat 64 p.data, BitVec.ofNat 64 (p.data / 2 ^ 64), if p.mc then p.ext / 256 % 1024 else p.src, p.ext % 256, p.mc⟩

/-- The refusal `r` takes over the retransmit entry of its item. -/
def takesOver (ep : Nat) (r : RefuseRec) (s : State) : State :=
  { s with fab := { s.fab with retx := s.fab.retx.map fun e => if refusedEntry ep r e then { e with refused := true } else e } }

/-- A core keeps a refusal for queue 63 (R162). -/
theorem keepRefusal_of_core {ep : Nat} (core_ : epCode ep = 0) (r : RefuseRec) (s : State) :
    (core (keepRefusal ep r s) (epRouter ep)).refusals = (core s (epRouter ep)).refusals ++ [r] ∧ (keepRefusal ep r s).mem = s.mem ∧
      (keepRefusal ep r s).fab = s.fab := by
  rw [keepRefusal, if_pos core_]
  exact ⟨congrArg Core.refusals (core_setCore_same ..), rfl, rfl⟩

theorem core_takesOver (ep : Nat) (r : RefuseRec) (s : State) (c : Nat) : core (takesOver ep r s) c = core s c := rfl

theorem takesOver_mem (ep : Nat) (r : RefuseRec) (s : State) : (takesOver ep r s).mem = s.mem := rfl

theorem takesOver_waiting (ep : Nat) (r : RefuseRec) (s : State) : (takesOver ep r s).fab.waiting = s.fab.waiting := rfl

/-- A REFUSE that no earlier item keeps from being covered is acknowledged at once. -/
theorem ackRefuse_acknowledges {s : State} {ep : Nat} {p : Packet} (covered : uncovered s p.src ep = []) :
    ∃ a ∈ (ackRefuse p.src ep (acceptedNext ep p s)).fab.waiting,
      a.ty = .ack ∧ a.src = ep ∧ a.dst = p.src ∧ a.seq = (rxOf s (uniKey p.src ep)).expect % 256 := by
  set u := modRx (uniKey p.src ep) (fun r => { r with owed := true }) (acceptedNext ep p s) with u_eq
  have series : rxOf u (uniKey p.src ep) = { rxOf s (uniKey p.src ep) with
      expect := ((rxOf s (uniKey p.src ep)).expect + 1) % 256, unacked := (rxOf s (uniKey p.src ep)).unacked + 1, nack := false, owed := true } := by
    rw [u_eq, rxOf_modRx_same, acceptedNext_series]
  have none_ : uncovered u p.src ep = [] := by
    rw [← covered, uncovered, series]
    rfl
  have lag := ackLag_of_covered none_
  have sent : ackRefuse p.src ep (acceptedNext ep p s) = sendAck p.src ep u :=
    if_pos (by rw [lag, series]; exact Nat.succ_pos _)
  refine ⟨_, by rw [sent, sendAck_waiting]; exact List.mem_append_right _ (List.mem_singleton_self _), rfl, rfl, rfl, ?_⟩
  show ((rxOf u (uniKey p.src ep)).expect + 511 - ackLag u p.src ep) % 256 = _
  rw [lag, series]
  show ((rxOf s (uniKey p.src ep)).expect + 1) % 256 + 511 - 0 ≡ _ [MOD 256]
  simp only [Nat.ModEq]
  omega

theorem fabricRefuse_keeps {s : State} {i : Nat} {f : Flight} (bound : s.rsvDirty = false) (at_ : s.fab.flights[i]? = some f)
    (here : f.delivered = true) (whole : crcOk f = true) (is : (seen f).ty = .refuse) (core_ : epCode (seen f).dst = 0)
    (next : aheadBy s (seen f).dst (seen f) = 0) :
    ∃ t, exec (.fabricRefuse i) s = .next t ∧ t.mem = s.mem ∧
      (core t (epRouter (seen f).dst)).refusals = (core s (epRouter (seen f).dst)).refusals ++ [refusalOf (seen f)] ∧
      (uncovered s (seen f).src (seen f).dst = [] → ∃ a ∈ t.fab.waiting, a.ty = .ack ∧ a.src = (seen f).dst ∧ a.dst = (seen f).src ∧
        a.seq = (rxOf s (uniKey (seen f).src (seen f).dst)).expect % 256) := by
  set p := seen f
  set t1 := ackRefuse p.src p.dst (acceptedNext p.dst p (dropFlight i s)) with t1_eq
  have only : SeriesOnly (dropFlight i s) t1 :=
    (SeriesOnly.modRx ..).trans ((SeriesOnly.modRx ..).trans (SeriesOnly.ackIfNew ..))
  have judge : seqJudge p.dst { p with mc := false } none false (dropFlight i s) = .inOrder (acceptedNext p.dst p (dropFlight i s)) :=
    seqJudge_of_next next
  obtain ⟨refusals, mem, fab⟩ := keepRefusal_of_core core_ (refusalOf p) t1
  have run : exec (.fabricRefuse i) s = live s (takesOver p.dst (refusalOf p) (keepRefusal p.dst (refusalOf p) t1)) := by
    show execFabricRefuse i s = _
    simp only [execFabricRefuse, answerAt_of at_ here whole is]
    rw [judge]
    rfl
  refine ⟨_, run.trans (live_next bound _), ?_, ?_, fun covered => ?_⟩
  · rw [sicSettle_mem, takesOver_mem, mem, only.mem]
    rfl
  · rw [core_sicSettle, core_takesOver, refusals, only.core]
    rfl
  · rw [sicSettle_fab, takesOver_waiting, fab]
    exact ackRefuse_acknowledges (s := dropFlight i s) covered

end Sys2Proof.Machine
end

section
/-! PROOFS. Acknowledgement and resend at the source of a packet, and the limits of a flight's wait (R193, R195, R196). -/

namespace Sys2Proof.Machine

/-! ### EMITs that go on leave the fabric (R73, R132) -/

theorem emitStep_fab (c e : Nat) (s : State) : (emitStep c e s).fab = s.fab := by
  have word (v : Word64) : (emitWord c e v s).fab = s.fab := by
    simp only [emitWord, spendIfNone]
    split
    · split <;> rfl
    · rfl
  unfold emitStep
  split
  · split
    · exact ((resumeEng_engsOnly ..).same (·.fab) fun _ _ => rfl).trans (word _)
    · rfl
  · rfl

theorem emitResume_fab (c : Nat) (s : State) : (emitResume c s).fab = s.fab := by
  unfold emitResume
  split
  · rfl
  · rw [emitStep_fab, emitStep_fab]

theorem noteStepEnds_fab (c : Nat) (s : State) : (noteStepEnds c s).fab = s.fab := by rw [(noteStepEnds_only c s).1]

theorem entriesFreed_fab (ep : Nat) (s : State) : (entriesFreed ep s).fab = s.fab := by
  unfold entriesFreed
  split
  · rw [noteStepEnds_fab, emitResume_fab]
  · rfl

theorem entriesFreed_mem (ep : Nat) (s : State) : (entriesFreed ep s).mem = s.mem := by
  unfold entriesFreed
  split
  · rw [(EmitStep.noteStepEnds _).mem, (EmitStep.emitResume _).mem]
  · rfl

theorem entriesFreed_of_other {ep : Nat} (h : epCode ep ≠ 0) (s : State) : entriesFreed ep s = s := if_neg h

/-! ### ACK (R193, R194) -/

/-- A cumulative ACK from `dst` to `src` up to `seq` covers the entry. -/
def ackCovers (src dst seq : Nat) (e : Retx) : Bool := inUnicast src dst e && decide ((seq + 256 - e.pkt.seq) % 256 < 128)

/-- The entries of a source that a cumulative ACK leaves. -/
def ackFreed (src dst seq : Nat) (s : State) : State :=
  { s with fab := { s.fab with
      retx := (s.fab.retx.map fun e => if ackCovers src dst seq e then { e with acks := 1 } else e).filter fun e =>
        !(ackCovers src dst seq e && !e.refused) } }

theorem ackUnicast_seriesOnly (src dst seq : Nat) (s : State) : SeriesOnly (ackFreed src dst seq s) (ackUnicast src dst seq s) :=
  SeriesOnly.foldl (fun t p => SeriesOnly.refuseAcked p t) _ (ackFreed src dst seq s)

/-- What a cumulative ACK covers is freed, unless a refusal has taken it over. -/
theorem refused_of_ackCovers {src dst seq : Nat} {s : State} {e : Retx} (left : e ∈ (ackFreed src dst seq s).fab.retx)
    (hit : ackCovers src dst seq e = true) : e.refused = true := by
  have stays := (List.mem_filter.mp left).2
  simpa [hit] using stays

theorem mem_ackFreed_of_other {src dst seq : Nat} {s : State} {e : Retx} (in_ : e ∈ s.fab.retx) (miss : ackCovers src dst seq e = false) :
    e ∈ (ackFreed src dst seq s).fab.retx :=
  List.mem_filter.mpr ⟨List.mem_map.mpr ⟨e, in_, by simp [miss]⟩, by simp [miss]⟩

/-- A member's acknowledgement, with its TRY, counts towards the entry. -/
def memberHit (src f seq tr : Nat) (e : Retx) : Bool := inSeries src f true e && e.pkt.seq == seq && e.pkt.tr == tr

theorem mem_ackFlock_of_other {src f seq tr : Nat} {s : State} {e : Retx} (in_ : e ∈ s.fab.retx) (miss : memberHit src f seq tr e = false) :
    e ∈ (ackFlock src f seq tr s).fab.retx :=
  List.mem_filter.mpr ⟨List.mem_map.mpr ⟨e, in_, if_neg (Bool.eq_false_iff.mp miss)⟩, by
    show (!(memberHit src f seq tr e && !e.refused && decide (flockMembers s (epRouter src) f ≤ e.acks))) = true
    rw [miss]
    rfl⟩

/-- An entry that a member's acknowledgement meets counts it, or is free as the last member's. -/
theorem mem_ackFlock_of_hit {src f seq tr : Nat} {s : State} {e : Retx} (in_ : e ∈ s.fab.retx) (hit : memberHit src f seq tr e = true) :
    { e with acks := e.acks + 1 } ∈ (ackFlock src f seq tr s).fab.retx ∨
      (e.refused = false ∧ flockMembers s (epRouter src) f ≤ e.acks + 1) := by
  by_cases last : e.refused = false ∧ flockMembers s (epRouter src) f ≤ e.acks + 1
  · exact .inr last
  refine .inl (List.mem_filter.mpr ⟨List.mem_map.mpr ⟨e, in_, if_pos hit⟩, ?_⟩)
  show (!(memberHit src f seq tr e && !e.refused && decide (flockMembers s (epRouter src) f ≤ e.acks + 1))) = true
  rw [not_and_or] at last
  simpa [hit] using last

section
variable {s : State} {i : Nat} {f : Flight} (bound : s.rsvDirty = false) (at_ : s.fab.flights[i]? = some f) (here : f.delivered = true)
  (whole : crcOk f = true)
include bound at_ here whole

theorem ack_of_unicast (is : (seen f).ty = .ack) (uni : (seen f).mc = false) :
    ∃ t, exec (.ack i) s = .next t ∧ t.fab.flights = s.fab.flights.eraseIdx i ∧ t.mem = s.mem ∧
      (epCode (seen f).dst ≠ 0 → t.csr = s.csr) ∧
      (∀ e ∈ t.fab.retx, ackCovers (seen f).dst (seen f).src (seen f).seq e = true → e.refused = true) ∧
      (∀ e ∈ s.fab.retx, ackCovers (seen f).dst (seen f).src (seen f).seq e = false → e ∈ t.fab.retx) := by
  have run : exec (.ack i) s =
      live s (entriesFreed (seen f).dst (ackUnicast (seen f).dst (seen f).src (seen f).seq (dropFlight i s))) := by
    show execAck i s = _
    simp only [execAck, answerAt_of at_ here whole is, uni, Bool.false_eq_true, if_false]
  have only := ackUnicast_seriesOnly (seen f).dst (seen f).src (seen f).seq (dropFlight i s)
  set t1 := ackUnicast (seen f).dst (seen f).src (seen f).seq (dropFlight i s)
  have retx : (sicSettle (entriesFreed (seen f).dst t1)).fab.retx = (ackFreed (seen f).dst (seen f).src (seen f).seq (dropFlight i s)).fab.retx := by
    rw [sicSettle_fab, entriesFreed_fab, only.retx]
  refine ⟨_, run.trans (live_next bound _), ?_, ?_, fun other => ?_, fun e left hit => ?_, fun e in_ miss => ?_⟩
  · rw [sicSettle_fab, entriesFreed_fab, only.flights]
    rfl
  · rw [sicSettle_mem, entriesFreed_mem, only.mem]
    rfl
  · rw [sicSettle_csr, entriesFreed_of_other other, only.csr]
    rfl
  · rw [retx] at left
    exact refused_of_ackCovers left hit
  · rw [retx]
    exact mem_ackFreed_of_other in_ miss

theorem ack_of_member (is : (seen f).ty = .ack) (multi : (seen f).mc = true) :
    ∃ t, exec (.ack i) s = .next t ∧ t.fab.flights = s.fab.flights.eraseIdx i ∧ t.mem = s.mem ∧
      (epCode (seen f).dst ≠ 0 → t.csr = s.csr) ∧
      (∀ e ∈ s.fab.retx, memberHit (seen f).dst ((seen f).ext % 1024) (seen f).seq (seen f).tr e = false → e ∈ t.fab.retx) ∧
      (∀ e ∈ s.fab.retx, memberHit (seen f).dst ((seen f).ext % 1024) (seen f).seq (seen f).tr e = true →
        { e with acks := e.acks + 1 } ∈ t.fab.retx ∨
          (e.refused = false ∧ flockMembers s (epRouter (seen f).dst) ((seen f).ext % 1024) ≤ e.acks + 1)) := by
  have run : exec (.ack i) s =
      live s (entriesFreed (seen f).dst (ackFlock (seen f).dst ((seen f).ext % 1024) (seen f).seq (seen f).tr (dropFlight i s))) := by
    show execAck i s = _
    simp only [execAck, answerAt_of at_ here whole is, multi, if_true]
  refine ⟨_, run.trans (live_next bound _), ?_, ?_, fun other => ?_, fun e in_ miss => ?_, fun e in_ hit => ?_⟩
  · rw [sicSettle_fab, entriesFreed_fab]
    rfl
  · rw [sicSettle_mem, entriesFreed_mem]
    rfl
  · rw [sicSettle_csr, entriesFreed_of_other other]
    rfl
  · rw [sicSettle_fab, entriesFreed_fab]
    exact mem_ackFlock_of_other in_ miss
  · rw [sicSettle_fab, entriesFreed_fab]
    exact mem_ackFlock_of_hit (s := dropFlight i s) in_ hit

end

/-! ### Resends (R193, R195) -/

theorem exhausted_fab (p : Packet) (s : State) : (exhausted p s).fab = s.fab := putF_fab ..
theorem exhausted_mem (p : Packet) (s : State) : (exhausted p s).mem = s.mem := putF_mem ..

theorem getF_exhausted {f : FieldRef} (h : BitsApart Reg.fab_FAB_EVENTS_RETX_EXHAUSTED f) (p : Packet) (s : State) :
    getF (exhausted p s) f = getF s f := by
  rw [getF_congr (show (exhausted p s).csr = (putF Reg.fab_FAB_EVENTS_RETX_EXHAUSTED 1 s).csr from rfl), getF_putF_bits h]

theorem isSet_exhausted (p : Packet) (s : State) : isSet (exhausted p s) Reg.fab_FAB_EVENTS_RETX_EXHAUSTED = true :=
  isSet_putF_one Reg.fab_FAB_EVENTS_RETX_EXHAUSTED s (by decide)

theorem tells_congr {s t : State} (h : s.csr = t.csr) (e : Retx) : tells s e = tells t e := by
  rw [tells, tells, retxLimit, retxLimit, getF_congr h]

/-- Every packet of `es` that has now been sent RETX_LIMIT times is reported. -/
def reportAll (s : State) (es : List Retx) (u : State) : State := es.foldl (fun v e => if tells s e then exhausted e.pkt v else v) u

section
variable (s : State) (es : List Retx) (u : State)

/-- Whatever a report leaves, reports leave. -/
theorem reportAll_same {α : Type} (g : State → α) (same : ∀ p t, g (exhausted p t) = g t) : g (reportAll s es u) = g u :=
  List.foldlRecOn es _ (motive := fun t => g t = g u) rfl fun t ht e _ => by
    split
    · exact (same e.pkt t).trans ht
    · exact ht

theorem isSet_reportAll_of_isSet (h : isSet u Reg.fab_FAB_EVENTS_RETX_EXHAUSTED = true) :
    isSet (reportAll s es u) Reg.fab_FAB_EVENTS_RETX_EXHAUSTED = true :=
  List.foldlRecOn es _ (motive := fun t => isSet t Reg.fab_FAB_EVENTS_RETX_EXHAUSTED = true) h fun t ht e _ => by
    split
    · exact isSet_exhausted e.pkt t
    · exact ht

theorem isSet_reportAll {e : Retx} (in_ : e ∈ es) (due : tells s e = true) :
    isSet (reportAll s es u) Reg.fab_FAB_EVENTS_RETX_EXHAUSTED = true := by
  obtain ⟨before, after, rfl⟩ := List.mem_iff_append.mp in_
  rw [reportAll, List.foldl_append, List.foldl_cons, if_pos due]
  exact isSet_reportAll_of_isSet s after _ (isSet_exhausted _ _)

end

/-- The entry is of the series, at `seq` or behind it. -/
def dueFrom (hit : Retx → Bool) (seq : Nat) (e : Retx) : Bool := hit e && decide ((e.pkt.seq + 256 - seq) % 256 < 128)

section
variable (hit : Retx → Bool) (seq : Nat) (s : State)

/-- The packets of the series from `seq` on wait to be sent again, in the order of their entries. -/
def queueAgain : State :=
  let es := (s.fab.retx.filter (dueFrom hit seq)).map resent
  { s with fab := { s.fab with
      retx := s.fab.retx.map fun e => if dueFrom hit seq e then { resent e with told := (resent e).told || tells s (resent e) } else e
      waiting := s.fab.waiting.filter (fun p => !(p.resend && es.any fun e =>
        e.pkt.src == p.src && e.pkt.dst == p.dst && e.pkt.mc == p.mc && e.pkt.seq == p.seq)) ++
        es.map fun e => { e.pkt with resend := true } } }

theorem resendFrom_eq : resendFrom hit seq s = reportAll s ((s.fab.retx.filter (dueFrom hit seq)).map resent)
    (addSat Reg.fab_RETX_COUNT_COUNT ((s.fab.retx.filter (dueFrom hit seq)).map resent).length (queueAgain hit seq s)) := rfl

theorem resendFrom_fab : (resendFrom hit seq s).fab = (queueAgain hit seq s).fab := by
  rw [resendFrom_eq, reportAll_same _ _ _ State.fab exhausted_fab, addSat_def, putF_fab]

theorem resendFrom_mem : (resendFrom hit seq s).mem = s.mem := by
  rw [resendFrom_eq, reportAll_same _ _ _ State.mem exhausted_mem, addSat_def, putF_mem]
  rfl

theorem getF_resendFrom : getF (resendFrom hit seq s) Reg.fab_RETX_COUNT_COUNT =
    min (getF s Reg.fab_RETX_COUNT_COUNT + s.fab.retx.countP (dueFrom hit seq)) (2 ^ Reg.fab_RETX_COUNT_COUNT.width - 1) := by
  rw [resendFrom_eq, reportAll_same _ _ _ (getF · Reg.fab_RETX_COUNT_COUNT) fun p t => getF_exhausted (by decide) p t, getF_addSat, List.length_map,
    List.countP_eq_length_filter]
  rfl

end

/-- `t` resends what is due: each such packet waits, its entry counts the resend, the last that RETX_LIMIT allows is reported, and every other
entry stands. -/
def ResentFrom (hit : Retx → Bool) (seq : Nat) (s t : State) : Prop :=
  (∀ e ∈ s.fab.retx, dueFrom hit seq e = true → ({ (resent e).pkt with resend := true } : Packet) ∈ t.fab.waiting ∧
    { resent e with told := e.told || tells s (resent e) } ∈ t.fab.retx ∧
    (tells s (resent e) = true → isSet t Reg.fab_FAB_EVENTS_RETX_EXHAUSTED = true)) ∧
  (∀ e ∈ s.fab.retx, dueFrom hit seq e = false → e ∈ t.fab.retx) ∧ t.mem = s.mem ∧
  getF t Reg.fab_RETX_COUNT_COUNT =
    min (getF s Reg.fab_RETX_COUNT_COUNT + s.fab.retx.countP (dueFrom hit seq)) (2 ^ Reg.fab_RETX_COUNT_COUNT.width - 1)

theorem resentFrom_resendFrom (hit : Retx → Bool) (seq : Nat) (s : State) : ResentFrom hit seq s (sicSettle (resendFrom hit seq s)) := by
  rw [ResentFrom, sicSettle_fab, resendFrom_fab, sicSettle_mem, resendFrom_mem, getF_sicSettle, getF_resendFrom, isSet_sicSettle]
  refine ⟨fun e in_ due => ?_, fun e in_ miss => ?_, rfl, rfl⟩
  · have again : resent e ∈ (s.fab.retx.filter (dueFrom hit seq)).map resent := List.mem_map_of_mem (List.mem_filter.mpr ⟨in_, due⟩)
    exact ⟨List.mem_append_right _ (List.mem_map.mpr ⟨_, again, rfl⟩), List.mem_map.mpr ⟨e, in_, if_pos due⟩,
      fun last => isSet_reportAll _ _ _ again last⟩
  · exact List.mem_map.mpr ⟨e, in_, if_neg (Bool.eq_false_iff.mp miss)⟩

/-- A flight that leaves the fabric makes no difference to what is resent. -/
theorem ResentFrom.of_dropFlight {hit : Retx → Bool} {seq i : Nat} {s t : State} (h : ResentFrom hit seq (dropFlight i s) t) :
    ResentFrom hit seq s t := by
  have same (e : Retx) : tells (dropFlight i s) e = tells s e := tells_congr rfl e
  simp only [ResentFrom, same] at h
  exact h

theorem nack_resends {s : State} {i : Nat} {f : Flight} (bound : s.rsvDirty = false) (at_ : s.fab.flights[i]? = some f)
    (here : f.delivered = true) (whole : crcOk f = true) (is : (seen f).ty = .nack) :
    ∃ t, exec (.nack i) s = .next t ∧ t.fab.flights = s.fab.flights.eraseIdx i ∧
      ResentFrom (seriesHit (seen f).dst (if (seen f).mc then (seen f).ext % 1024 else (seen f).src) (seen f).mc) (seen f).seq s t := by
  have run : exec (.nack i) s = live s (resendFrom
      (seriesHit (seen f).dst (if (seen f).mc then (seen f).ext % 1024 else (seen f).src) (seen f).mc) (seen f).seq (dropFlight i s)) := by
    show execNack i s = _
    simp only [execNack, answerAt_of at_ here whole is]
  refine ⟨_, run.trans (live_next bound _), ?_, (resentFrom_resendFrom _ _ _).of_dropFlight⟩
  rw [sicSettle_fab, resendFrom_fab]
  rfl

theorem retxTimeout_resends {s : State} {src dst seq : Nat} {mc : Bool} (bound : s.rsvDirty = false)
    (late : s.fab.retx.any (fun e => seriesHit src dst mc e && e.pkt.seq == seq &&
      decide (e.acks < (if mc then flockMembers s (epRouter src) dst else 1))) = true) :
    ∃ t, exec (.retxTimeout src dst mc seq) s = .next t ∧ t.fab.flights = s.fab.flights ∧ ResentFrom (seriesHit src dst mc) seq s t := by
  have run : exec (.retxTimeout src dst mc seq) s = live s (resendFrom (seriesHit src dst mc) seq s) := congrArg (live s) (if_pos late)
  refine ⟨_, run.trans (live_next bound _), ?_, resentFrom_resendFrom _ _ _⟩
  rw [sicSettle_fab, resendFrom_fab]
  rfl

/-! ### STALL_LIMIT (R196) -/

section
variable {s : State} {i : Nat} {f : Flight} (bound : s.rsvDirty = false) (at_ : s.fab.flights[i]? = some f)
include bound at_

theorem stallLimit_flags (below : f.router < 1024) (waits : waitsAt s i f = true) :
    ∃ t, exec (.stallLimit i) s = .next t ∧ isSet t (Reg.rtr_RTR_EVENTS_STALL f.router) = true ∧
      isSet t Reg.fab_FAB_EVENTS_STALL = true ∧ t.fab = s.fab ∧ t.mem = s.mem := by
  have run : exec (.stallLimit i) s = live s (putF Reg.fab_FAB_EVENTS_STALL 1 (putF (Reg.rtr_RTR_EVENTS_STALL f.router) 1 s)) := by
    show execStallLimit i s = _
    simp only [execStallLimit, at_, waits, if_true, setF_def]
  refine ⟨_, run.trans (live_next bound _), ?_, ?_, ?_, ?_⟩
  · rw [isSet_sicSettle, isSet_putF_bits, isSet_putF_one _ _ Nat.one_pos]
    simp only [BitsApart, Reg.fab_FAB_EVENTS_STALL, Reg.rtr_RTR_EVENTS_STALL]
    omega
  · rw [isSet_sicSettle, isSet_putF_one _ _ (by decide)]
  · rw [sicSettle_fab, putF_fab, putF_fab]
  · rw [sicSettle_mem, putF_mem, putF_mem]

theorem stallLimit_of_free (free : waitsAt s i f = false) :
    ∃ t, exec (.stallLimit i) s = .next t ∧ t.csr = s.csr ∧ t.fab = s.fab ∧ t.mem = s.mem := by
  have run : exec (.stallLimit i) s = live s s := by
    show execStallLimit i s = _
    simp only [execStallLimit, at_, free, Bool.false_eq_true, if_false]
  exact ⟨_, run.trans (live_next bound _), sicSettle_csr s, sicSettle_fab s, sicSettle_mem s⟩

end

/-! ### O32 -/

/-- Settles O32: each command by the lemma that says what it does at its end of the series. -/
theorem fabricReception : Obligations.FabricReception := by
  unfold Obligations.FabricReception
  refine ⟨fun s i bound => ⟨fun f at_ here => ⟨fun core_ uni ty whole => ⟨?_, ?_, ?_⟩, ?_, ?_⟩, ?_⟩,
    fun s i bound => ⟨fun f at_ here whole => ⟨fun is => ?_, ?_⟩, ?_, ?_, fun f at_ below => ⟨?_, ?_⟩⟩⟩
  · exact packetArrival_accepts at_ here bound whole uni ty core_
  · exact packetArrival_asks at_ here bound whole uni ty
  · exact packetArrival_counts_duplicate at_ here bound whole uni ty
  · exact packetArrival_discards at_ here bound
  · exact fun is core_ whole next => fabricRefuse_keeps bound at_ here whole is core_ next
  · exact fun src dst new => ackSend_acknowledges bound new
  · cases multi : (seen f).mc
    · obtain ⟨t, run, flights, mem, csr, unicast⟩ := ack_of_unicast bound at_ here whole is multi
      exact ⟨t, run, flights, mem, csr, fun _ => unicast, nofun⟩
    · obtain ⟨t, run, flights, mem, csr, member⟩ := ack_of_member bound at_ here whole is multi
      exact ⟨t, run, flights, mem, csr, nofun, fun _ => member⟩
  · exact fun is => nack_resends bound at_ here whole is
  · exact fun src dst mc seq late => retxTimeout_resends bound late
  · exact fun src dst => nackTimeout_ends bound src dst
  · exact stallLimit_flags bound at_ below
  · exact stallLimit_of_free bound at_

end Sys2Proof.Machine
end

section
/-! PROOFS. Packets that enter the fabric at their source: SEQ, retransmit entry and input port (R179-R181, R188, R190, R195, R199). -/

namespace Sys2Proof.Machine

/-! ### A packet that leaves its queue -/

theorem altOf_congr {s t : State} (h : t.csr = s.csr) (p : Packet) : altOf t p = altOf s p := by
  rw [altOf, altMap, rdWord_congr h, altOf, altMap]

/-- What leaves the queue of its source changes that queue, and how many packets stand before the words of the core's send queue. -/
theorem unwait_spec (p : Packet) (s : State) :
    (unwait p s).fab = { s.fab with waiting := s.fab.waiting.erase p } ∧ (unwait p s).csr = s.csr ∧ (unwait p s).mem = s.mem ∧
      (core (unwait p s) (epRouter p.src)).send.map (·.word) = (core s (epRouter p.src)).send.map (·.word) := by
  simp only [unwait]
  split
  · refine ⟨rfl, rfl, rfl, ?_⟩
    rw [modCore_def, core_setCore_same, List.map_map]
    refine List.map_congr_left fun x _ => ?_
    show (if _ then _ else _ : SendItem).word = _
    split <;> rfl
  · exact ⟨rfl, rfl, rfl, rfl⟩

/-! ### A packet that enters (R190, R195) -/

/-- The packet with the SEQ and the route that it takes. -/
def numbered (p : Packet) (s : State) : Packet := { p with alt := altOf s p, seq := tget 0 (uniKey p.src p.dst) s.fab.seqNext }

/-- The flight of a packet that has entered, at its router's port for its source. -/
def injected (x : Packet) : Flight := { pkt := x, router := epRouter x.src, port := injectPort x.src }

/-- `t` is `s` after unicast packet `p` has left its queue and entered: its flight, its retransmit entry, the next SEQ of its series, and the
report of one that may be sent no second time. -/
def Goes (s : State) (p : Packet) (t : State) : Prop :=
  t.fab.waiting = s.fab.waiting.erase p ∧ t.mem = s.mem ∧
  t.fab.flights = s.fab.flights ++ [injected (numbered p s)] ∧
  t.fab.retx = s.fab.retx ++ [{ pkt := numbered p s, told := decide (retxLimit s ≤ 1) }] ∧
  tget 0 (uniKey p.src p.dst) t.fab.seqNext = ((numbered p s).seq + 1) % 256 ∧ (1 < retxLimit s → t.csr = s.csr) ∧
  (retxLimit s ≤ 1 → isSet t Reg.fab_FAB_EVENTS_RETX_EXHAUSTED = true)

/-- The fabric after a unicast packet has entered. -/
def entered (p : Packet) (s : State) : Fabric :=
  { s.fab with
    flights := s.fab.flights ++ [injected (numbered p s)]
    retx := s.fab.retx ++ [{ pkt := numbered p s, told := decide (retxLimit s ≤ 1) }]
    seqNext := tset (uniKey p.src p.dst) (((numbered p s).seq + 1) % 256) s.fab.seqNext }

/-- Packet `x` enters with its SEQ: its flight, its retransmit entry, and the report of one that may be sent no second time (R195). -/
def entersAs (s : State) (x : Packet) (t : State) : State :=
  let u := { t with fab := { t.fab with
    flights := t.fab.flights ++ [injected x]
    retx := t.fab.retx ++ [{ pkt := x, told := tells s { pkt := x } }] } }
  if tells s { pkt := x } then exhausted x u else u

section
variable {p : Packet} (seq : sequenced p.ty = true) (new : p.resend = false)
include seq new

/-- A sequenced packet that is no resend takes the next SEQ of its series, multicast or unicast. -/
theorem enter_of_new (s : State) : enter p s =
    if byFlock p then entersAs s { p with alt := altOf s p, seq := flockSeqNext s (epRouter p.src) p.dst }
      (wrBits (flockAddr (epRouter p.src) p.dst) 40 8 (flockSeqNext s (epRouter p.src) p.dst + 1) s)
    else entersAs s (numbered p s)
      { s with fab := { s.fab with seqNext := tset (uniKey p.src p.dst) (((numbered p s).seq + 1) % 256) s.fab.seqNext } } := by
  have again : ¬(!sequenced p.ty || p.resend) = true := by simp [seq, new]
  have flock (alt : Bool) : byFlock { p with alt := alt } = byFlock p := rfl
  simp only [enter]
  rw [if_neg again]
  simp only [flock]
  cases byFlock p <;> rfl

theorem enter_flights (s : State) :
    ∃ n, (enter p s).fab.flights = s.fab.flights ++ [injected { p with alt := altOf s p, seq := n }] ∧
      (enter p s).fab.retx.length = s.fab.retx.length + 1 := by
  have as (x : Packet) (t : State) : (entersAs s x t).fab.flights = t.fab.flights ++
      [injected x] ∧ (entersAs s x t).fab.retx.length = t.fab.retx.length + 1 := by
    simp only [entersAs]
    split
    · rw [exhausted_fab]
      exact ⟨rfl, List.length_append⟩
    · exact ⟨rfl, List.length_append⟩
  rw [enter_of_new seq new]
  split
  · exact ⟨_, as _ _⟩
  · exact ⟨_, as _ _⟩

theorem enter_of_unicast (uni : byFlock p = false) (s : State) :
    enter p s = if retxLimit s ≤ 1 then exhausted (numbered p s) { s with fab := entered p s } else { s with fab := entered p s } := by
  have told : tells s { pkt := numbered p s } = decide (retxLimit s ≤ 1) := rfl
  rw [enter_of_new seq new, uni, if_neg Bool.false_ne_true, entersAs, told]
  simp only [decide_eq_true_eq]
  rfl

end

/-- A packet that leaves its queue and enters. -/
theorem goes_enter {p : Packet} (seq : sequenced p.ty = true) (new : p.resend = false) (uni : byFlock p = false) (s : State) :
    Goes s p (sicSettle (enter p (unwait p s))) ∧ (core (enter p (unwait p s)) (epRouter p.src)).send.map (·.word) =
      (core s (epRouter p.src)).send.map (·.word) := by
  obtain ⟨fab, csr, mem, words⟩ := unwait_spec p s
  set u := unwait p s
  have limit : retxLimit u = retxLimit s := by rw [retxLimit, getF_congr csr, retxLimit]
  have num : numbered p u = numbered p s := by rw [numbered, altOf_congr csr, fab, numbered]
  have after : (enter p u).fab = entered p u ∧ (enter p u).mem = u.mem ∧ (enter p u).cores = u.cores ∧
      (1 < retxLimit s → (enter p u).csr = u.csr) ∧
      (retxLimit s ≤ 1 → isSet (enter p u) Reg.fab_FAB_EVENTS_RETX_EXHAUSTED = true) := by
    rw [enter_of_unicast seq new uni, limit]
    split
    next last => exact ⟨exhausted_fab .., exhausted_mem .., putF_cores .., fun more => absurd more (by omega), fun _ => isSet_exhausted ..⟩
    next more => exact ⟨rfl, rfl, rfl, fun _ => rfl, fun last => absurd last more⟩
  obtain ⟨afab, amem, acores, acsr, aset⟩ := after
  refine ⟨⟨?_, ?_, ?_, ?_, ?_, fun more => ?_, fun last => ?_⟩, ?_⟩
  · rw [sicSettle_fab, afab, entered, fab]
  · rw [sicSettle_mem, amem, mem]
  · rw [sicSettle_fab, afab, entered, fab, num]
  · rw [sicSettle_fab, afab, entered, fab, num, limit]
  · rw [sicSettle_fab, afab, entered, num]
    exact tget_tset_same ..
  · rw [sicSettle_csr, acsr more, csr]
  · rw [isSet_sicSettle, aset last]
  · rw [core, acores, ← words, core]

/-! ### PACKET_INJECT -/

theorem oldestReady_spec {s : State} {src n : Nat} {p : Packet} (h : oldestReady s src n = some p) : p.src = src ∧ p.resend = false := by
  have in_ := List.mem_of_mem_take (List.mem_of_find?_eq_some h)
  simpa [waitingAt] using (List.mem_filter.mp in_).2

section
variable {s : State} {src : Nat} (bound : s.rsvDirty = false)
  (none_ : s.fab.waiting.find? (fun p => p.src == src && p.resend && mayInject s p) = none)
include bound none_

/-- At an endpoint that is no core the oldest packet that may enter does. -/
theorem packetInject_of_block (other : epCode src ≠ 0) {p : Packet} (first : oldestReady s src (waitingAt s src).length = some p)
    (seq : sequenced p.ty = true) (uni : byFlock p = false) : ∃ t, exec (.packetInject src) s = .next t ∧ Goes s p t := by
  have before : oldestReady s src 0 = none := rfl
  have run : exec (.packetInject src) s = live s (enter p (unwait p s)) := by
    show execPacketInject src s = _
    simp only [execPacketInject, none_, olderThanSend, other, if_false, before, first]
  exact ⟨_, run.trans (live_next bound _), (goes_enter seq (oldestReady_spec first).2 uni s).1⟩

section
variable (core_ : epCode src = 0) {it : SendItem} {rest : List SendItem} (send : (core s (epRouter src)).send = it :: rest)
include core_ send

/-- At a core a packet that is older than the send queue's first word enters before it. -/
theorem packetInject_of_older {p : Packet} (first : oldestReady s src it.older = some p) (seq : sequenced p.ty = true)
    (uni : byFlock p = false) : ∃ t, exec (.packetInject src) s = .next t ∧ Goes s p t ∧
      (core t (epRouter src)).send.map (·.word) = (core s (epRouter src)).send.map (·.word) := by
  have run : exec (.packetInject src) s = live s (enter p (unwait p s)) := by
    show execPacketInject src s = _
    simp only [execPacketInject, none_, olderThanSend, core_, if_true, send, first]
  obtain ⟨at_, new⟩ := oldestReady_spec first
  obtain ⟨goes, words⟩ := goes_enter seq new uni s
  rw [at_] at words
  exact ⟨_, run.trans (live_next bound _), goes, by rw [core_sicSettle, words]⟩

/-- The send queue's first word enters in its turn, as a packet of its event. -/
theorem packetInject_of_word (older : oldestReady s src it.older = none) (may : mayInject s (sendPacket (epRouter src) it) = true) :
    ∃ (t : State) (f : Flight), exec (.packetInject src) s = .next t ∧ t.fab.flights = s.fab.flights ++ [f] ∧
      f.pkt.data = it.word.toNat ∧ f.pkt.ty = .event ∧ f.pkt.step = it.step ∧ f.router = epRouter src ∧ f.delivered = false ∧
      t.fab.retx.length = s.fab.retx.length + 1 := by
  set u := setCore (epRouter src) { core s (epRouter src) with send := rest } s with u_eq
  have word : injectSend (epRouter src) s = some (emitResume (epRouter src) (enter (sendPacket (epRouter src) it) u)) := by
    simp only [injectSend, send, may, if_true, modCore_def, u_eq]
  have run : exec (.packetInject src) s = live s (emitResume (epRouter src) (enter (sendPacket (epRouter src) it) u)) := by
    show execPacketInject src s = _
    simp only [execPacketInject, none_, olderThanSend, core_, if_true, send, older, word]
  obtain ⟨n, flights, retx⟩ := enter_flights (p := sendPacket (epRouter src) it) rfl rfl u
  have at_ : epRouter (4 * epRouter src) = epRouter src := Nat.mul_div_cancel_left _ (by decide)
  refine ⟨_, injected { sendPacket (epRouter src) it with alt := altOf u (sendPacket (epRouter src) it), seq := n },
    run.trans (live_next bound _), ?_, rfl, rfl, rfl, at_, rfl, ?_⟩
  · rw [sicSettle_fab, emitResume_fab, flights]
    rfl
  · rw [sicSettle_fab, emitResume_fab, retx]
    rfl

end

end

end Sys2Proof.Machine
end

section
/-! PROOFS. What an output of a router grants, and that a copy sent by one output leaves the grants of the others (R176, R177, R180, R186). -/

namespace Sys2Proof.Machine

/-! ### Lists of flights -/

theorem countP_modify_of_blind {α : Type} {q : α → Bool} {g : α → α} (blind : ∀ x, q (g x) = q x) (l : List α) (i : Nat) :
    (l.modify i g).countP q = l.countP q := by
  induction l generalizing i with
  | nil => simp
  | cons x r ih => cases i <;> simp [List.countP_cons, blind, ih]

theorem modify_append_left {α : Type} (g : α → α) {l : List α} {i : Nat} (h : i < l.length) (m : List α) :
    (l ++ m).modify i g = l.modify i g ++ m := by
  rw [List.modify_eq_set_getElem?, List.modify_eq_set_getElem?, List.getElem?_append_left h, List.getElem?_eq_getElem h]
  exact List.set_append_left _ _ h

theorem eraseIdx_modify {α : Type} (g : α → α) (l : List α) (i : Nat) : (l.modify i g).eraseIdx i = l.eraseIdx i := by
  induction l generalizing i with
  | nil => simp
  | cons x r ih => cases i <;> simp [ih]

/-- A search by index finds the same in a longer list where nothing more meets the test. -/
theorem find?_range_of_more {P Q : Nat → Bool} {n m : Nat} (le : n ≤ m)
    (same : ∀ j < n, Q j = P j) (none_ : ∀ j < m, n ≤ j → Q j = false) :
    (List.range m).find? Q = (List.range n).find? P := by
  obtain ⟨k, rfl⟩ := Nat.exists_eq_add_of_le le
  have rest : ((List.range k).map (n + ·)).find? Q = none := by
    rw [List.find?_eq_none]
    intro j in_
    obtain ⟨d, hd, rfl⟩ := List.mem_map.mp in_
    simp [none_ (n + d) (by have := List.mem_range.mp hd; omega) (by omega)]
  rw [List.range_add, List.find?_append, rest, Option.or_none]
  exact List.find?_congr fun j in_ => same j (List.mem_range.mp in_)

/-! ### Routers and their ports -/

theorem neighbour_ne {r : Nat} (_ : r < 1024) (o : Nat) : neighbour r o ≠ r := by
  simp only [neighbour]
  split <;> omega

theorem oppositePort_injective {o o' : Nat} (h : oppositePort o = oppositePort o') : o = o' := by
  unfold oppositePort at h
  split at h <;> split at h <;> omega

theorem ringPort_lt {d fwd back o : Nat} (hf : fwd < 4) (hb : back < 4) (h : ringPort d fwd back = some o) : o < 4 := by
  unfold ringPort at h
  grind

theorem nextPort_lt {r dst o : Nat} {alt : Bool} (h : nextPort r dst alt = some o) : o < 4 := by
  have row {d o : Nat} := @ringPort_lt d 0 1 o (by decide) (by decide)
  have col {d o : Nat} := @ringPort_lt d 2 3 o (by decide) (by decide)
  unfold nextPort at h
  grind

theorem vcNow_lt (f : Flight) : vcNow f < 4 := by
  unfold vcNow
  split
  · cases f.pkt.ty <;> decide
  · omega

/-! ### The outputs of a flight -/

/-- The outputs to which copies of a flight go. -/
def allOutputs (s : State) (f : Flight) : List Nat :=
  if byFlock (seen f) then (List.range 6).filter (flockBit s f.router (seen f).dst)
  else match nextPort f.router (epRouter (seen f).dst) (seen f).alt with
    | some o => [o]
    | none => [if depNow f = 0 then 4 else 5]

theorem outputs_eq (s : State) (f : Flight) : outputs s f = (allOutputs s f).filter (fun o => !f.gone.contains o) := rfl

/-- A unicast packet of which no copy has gone goes by the one output of its route. -/
theorem outputs_of_unicast {s : State} {f : Flight} {o : Nat} (uni : byFlock (seen f) = false) (fresh : f.gone = [])
    (next : nextPort f.router (epRouter (seen f).dst) (seen f).alt = some o) : outputs s f = [o] := by
  rw [outputs_eq, allOutputs, uni, if_neg Bool.false_ne_true, next, fresh]
  rfl

theorem allOutputs_nodup (s : State) (f : Flight) : (allOutputs s f).Nodup := by
  unfold allOutputs
  split
  · exact List.nodup_range.filter _
  · split <;> exact List.nodup_singleton _

theorem outputs_nodup (s : State) (f : Flight) : (outputs s f).Nodup := (allOutputs_nodup s f).filter _

theorem allOutputs_lt {s : State} {f : Flight} {o : Nat} (h : o ∈ allOutputs s f) : o < 6 := by
  unfold allOutputs at h
  split at h
  · exact List.mem_range.mp (List.mem_filter.mp h).1
  · split at h
    next next_ => exact (List.mem_singleton.mp h).trans_lt ((nextPort_lt next_).trans (by decide))
    next => rw [List.mem_singleton.mp h]; split <;> decide

theorem outputs_lt {s : State} {f : Flight} {o : Nat} (h : o ∈ outputs s f) : o < 6 := allOutputs_lt (List.mem_filter.mp h).1

/-- Output 4 leads to the core, and output 5 to another endpoint. -/
theorem code_of_output {s : State} {f : Flight} {o code : Nat} (out : o ∈ allOutputs s f) (last : 4 ≤ o) (lead : code ∈ codesAt f o) :
    (o = 4 ∧ code = 0) ∨ (o = 5 ∧ code ≠ 0) := by
  have small := allOutputs_lt out
  have extra : extraCode f.router ≠ 0 := by unfold extraCode; split <;> decide
  simp only [allOutputs, codesAt] at out lead
  split at out
  next multi =>
    rw [if_pos multi, List.mem_singleton] at lead
    subst lead
    split
    · exact .inl ⟨‹_›, rfl⟩
    · exact .inr ⟨by omega, extra⟩
  next uni =>
    rw [if_neg uni, List.mem_singleton] at lead
    subst lead
    split at out
    next next_ =>
      have := nextPort_lt next_
      have := List.mem_singleton.mp out
      omega
    next =>
      rw [List.mem_singleton] at out
      split at out
      · exact .inl ⟨out, ‹_›⟩
      · exact .inr ⟨out, ‹_›⟩

/-- Which endpoints a router has depends on the variant alone. -/
theorem reached_congr {s t : State} (h : t.variant = s.variant) (f : Flight) (o : Nat) : reached t f o = reached s f o := by
  have same (code : Nat) : hasEndpoint t f.router code = hasEndpoint s f.router code := by simp only [hasEndpoint, blockPresent, h]
  simp only [reached, funext same]

/-! ### A step of another output -/

/-- A flight to which copies have gone by the outputs `d` too. -/
def goneBy (d : List Nat) (f : Flight) : Flight := { f with gone := f.gone ++ d }

theorem goneBy_nil : goneBy [] = id := funext fun f => by simp [goneBy]

/-- Where copies go depends on the flock tables alone, and not on those that have gone. -/
theorem allOutputs_goneBy {s t : State} (h : t.mem = s.mem) (d : List Nat) (f : Flight) : allOutputs t (goneBy d f) = allOutputs s f := by
  have same (x fl b : Nat) : flockBit t x fl b = flockBit s x fl b := by rw [flockBit, rdBits, h]; rfl
  show allOutputs t f = allOutputs s f
  simp only [allOutputs, funext (same _ _)]

/-- A flight that takes nothing of what output `o` of router `r` looks at. -/
def Passes (r o : Nat) (c : Flight) : Prop :=
  (c.delivered = false → c.router ≠ r ∧ ¬(c.router = neighbour r o ∧ c.port = oppositePort o)) ∧ (c.delivered = true → c.port ≠ o)

/-- `t` is `s` but for what the other outputs of router `r` than `o` do with flight `i`: copies of it, grants, and flags. -/
structure BesideOutput (i r o : Nat) (s t : State) : Prop where
  only : t = { s with csr := t.csr, fab := { s.fab with flights := t.fab.flights, grants := t.fab.grants } }
  low : LowKept s t
  flights : ∃ d l, o ∉ d ∧ (∀ c ∈ l, Passes r o c) ∧ t.fab.flights = s.fab.flights.modify i (goneBy d) ++ l
  grants : ∀ vc < 4, tget 5 (grantKey r o vc) t.fab.grants = tget 5 (grantKey r o vc) s.fab.grants

namespace BesideOutput

variable {i r o : Nat} {s t : State} (h : BesideOutput i r o s t)
include h

theorem core (c : Nat) : core t c = core s c := by rw [h.only]; rfl
theorem mem : t.mem = s.mem := by rw [h.only]
theorem variant : t.variant = s.variant := by rw [h.only]

theorem countP {q : Flight → Bool} (blind : ∀ x d, q (goneBy d x) = q x) (none_ : ∀ c, Passes r o c → q c = false) :
    t.fab.flights.countP q = s.fab.flights.countP q := by
  obtain ⟨d, l, -, passes, flights⟩ := h.flights
  have added : l.countP q = 0 := List.countP_eq_zero.mpr fun c in_ => Bool.eq_false_iff.mp (none_ c (passes c in_))
  rw [flights, List.countP_append, countP_modify_of_blind (blind · d), added, Nat.add_zero]

theorem coreSilent (below : r < 1024) : coreSilent t r = coreSilent s r := by
  have held : coreHeld t r = coreHeld s r := by
    rw [coreHeld, h.low _ (by simp only [Reg.rst_RST_CORE_HELD]; omega), coreHeld]
  have power : regionPwr t (regionOfCore r) = regionPwr s (regionOfCore r) := by
    rw [regionPwr, h.low.getF (by decide), regionPwr]
  rw [Machine.coreSilent, corePresent, h.variant, held, regionDown, power]
  rfl

theorem slotFree (vc : Nat) : slotFree t (neighbour r o) (oppositePort o) vc = slotFree s (neighbour r o) (oppositePort o) vc := by
  rw [Machine.slotFree, slotLoad, h.countP (fun _ _ => rfl) fun c passes => Bool.eq_false_iff.mpr fun in_ => ?_]
  · rfl
  · simp only [Bool.and_eq_true, beq_iff_eq, Bool.not_eq_true'] at in_
    obtain ⟨⟨⟨router, port⟩, moving⟩, -⟩ := in_
    exact (passes.1 moving).2 ⟨router, port⟩

/-- A flight on its way to the endpoint by this output is of neither count. -/
theorem countP_delivered {q : Flight → Bool} (blind : ∀ x d, q (goneBy d x) = q x)
    (of_output : ∀ c, q c = true → c.delivered = true ∧ c.port = o) : t.fab.flights.countP q = s.fab.flights.countP q :=
  h.countP blind fun c passes => Bool.eq_false_iff.mpr fun in_ => passes.2 (of_output c in_).1 (of_output c in_).2

/-- The room at an endpoint of the router by this output is the same. -/
theorem endpointRoom (below : r < 1024) {code : Nat} (side : (o = 4 ∧ code = 0) ∨ (o = 5 ∧ code ≠ 0)) (p : Packet) :
    endpointRoom t r code p = endpointRoom s r code p := by
  rcases side with ⟨rfl, rfl⟩ | ⟨rfl, other⟩
  · have ingress : ingressLoad t r = ingressLoad s r := by
      rw [ingressLoad, h.core, h.countP_delivered (fun _ _ => rfl) (by simp +contextual)]
      rfl
    have pairs : pairLoad t r = pairLoad s r := by
      rw [pairLoad, h.core, h.countP_delivered (fun _ _ => rfl) (by simp +contextual)]
      rfl
    have credits : creditLoad t r = creditLoad s r := by
      rw [creditLoad, h.core, h.countP_delivered (fun _ _ => rfl) (by simp +contextual)]
      rfl
    cases ty : p.ty <;> simp only [Machine.endpointRoom, ty, h.coreSilent below, ingress, pairs, credits]
  · have block : blockLoad t r = blockLoad s r := by
      rw [blockLoad, h.countP_delivered (fun _ _ => rfl) (by simp +contextual), h.only]
      rfl
    have port (volley : Bool) : portLoad t volley = portLoad s volley := by
      simp only [portLoad]
      rw [h.countP_delivered (fun _ _ => rfl) (by simp +contextual), h.only]
    have collector : collectorLoad t = collectorLoad s := by rw [h.only]; rfl
    have windows : t.aet = s.aet := by rw [h.only]
    have room : portRoom t p = portRoom s p := by simp only [portRoom, port, collector, windows]
    match code, other with
    | 1, _ => cases ty : p.ty <;> simp only [Machine.endpointRoom, ty, block]
    | 2, _ => rfl
    | 3, _ => cases ty : p.ty <;> simp only [Machine.endpointRoom, ty, room]
    | n + 4, _ => rfl

theorem mayGoTo (below : r < 1024) {f : Flight} (at_ : f.router = r) (out : o ∈ allOutputs s f) : mayGoTo t f o = mayGoTo s f o := by
  subst at_
  unfold Machine.mayGoTo
  split
  · rw [mayLeave, h.slotFree]
    rfl
  next last =>
    rw [reached_congr h.variant, Bool.eq_iff_iff, List.all_eq_true, List.all_eq_true]
    refine forall₂_congr fun code lead => ?_
    rw [h.endpointRoom below (code_of_output out (Nat.not_lt.mp last) (List.mem_filter.mp lead).1)]

theorem mem_outputs {d : List Nat} (beside : o ∉ d) (f : Flight) : o ∈ outputs t (goneBy d f) ↔ o ∈ outputs s f := by
  rw [outputs_eq, outputs_eq, List.mem_filter, List.mem_filter, allOutputs_goneBy h.mem]
  simp [goneBy, beside]

/-- The same flight stands first in the same channel of an input port, ready for the output. -/
theorem ready (below : r < 1024) (vc port : Nat) : ready t r o vc port = ready s r o vc port := by
  obtain ⟨d, l, beside, passes, flights⟩ := h.flights
  have length : (s.fab.flights.modify i (goneBy d)).length = s.fab.flights.length := List.length_modify ..
  unfold Machine.ready
  refine find?_range_of_more (by rw [flights, List.length_append, length]; omega) (fun j in_ => ?_) fun j in_ more => ?_
  · have old : ∃ e, o ∉ e ∧ t.fab.flights[j]? = some (goneBy e s.fab.flights[j]) := by
      rw [flights, List.getElem?_append_left (by omega), List.getElem?_modify, List.getElem?_eq_getElem in_]
      by_cases of_i : i = j
      · exact ⟨d, beside, congrArg some (if_pos of_i)⟩
      · exact ⟨[], List.not_mem_nil, by simp [of_i, goneBy]⟩
    obtain ⟨e, apart, at_⟩ := old
    rw [at_, List.getElem?_eq_getElem in_]
    set f := s.fab.flights[j]
    show (f.router == r && !f.delivered && f.port == port && vcNow f == vc && (outputs t (goneBy e f)).contains o && Machine.mayGoTo t f o) =
      (f.router == r && !f.delivered && f.port == port && vcNow f == vc && (outputs s f).contains o && Machine.mayGoTo s f o)
    have same : (outputs t (goneBy e f)).contains o = (outputs s f).contains o := by
      rw [Bool.eq_iff_iff, List.contains_iff_mem, List.contains_iff_mem, h.mem_outputs apart]
    rw [same]
    by_cases can : f.router = r ∧ o ∈ outputs s f
    · rw [h.mayGoTo below can.1 (List.mem_filter.mp can.2).1]
    · by_cases at_r : f.router = r
      · simp [not_and.mp can at_r]
      · simp [beq_false_of_ne at_r]
  · rw [flights] at in_ ⊢
    rw [List.length_append, length] at in_
    rw [List.getElem?_append_right (by omega), List.getElem?_eq_getElem (by omega)]
    have past := passes _ (List.getElem_mem (l := l) (n := j - (s.fab.flights.modify i (goneBy d)).length) (by omega))
    set c := l[j - (s.fab.flights.modify i (goneBy d)).length]
    cases there : c.delivered
    · simp [(past.1 there).1]
    · simp [there]

theorem granted (below : r < 1024) : granted t r o = granted s r o := by
  simp only [Machine.granted, h.ready below]
  have key (vc : Nat) (small : vc < 4) := h.grants vc small
  simp only [List.findSome?_cons, key 0 (by decide), key 1 (by decide), key 3 (by decide), key 2 (by decide)]
  rfl

end BesideOutput

end Sys2Proof.Machine
end

section
/-! PROOFS. The hop of a packet at a router: the copies that outputs grant, a failed header check, and a misroute (R175, R177, R178, R180,
R186, R195). -/

namespace Sys2Proof.Machine

/-! ### One output (R177, R186) -/

/-- The copy that leaves by an output: to the next router, or to an endpoint of this one. -/
def copyBy (f : Flight) (o : Nat) : Flight :=
  if o < 4 then { f with router := neighbour f.router o, port := oppositePort o, gone := [] }
  else { f with port := o, delivered := true, gone := [] }

/-- The copy, unless none of the endpoints by the output is there. -/
def copiesBy (s : State) (f : Flight) (o : Nat) : List Flight := if 4 ≤ o ∧ reached s f o = [] then [] else [copyBy f o]

/-- The router has every endpoint to which the flight goes by the output. -/
def Whole (s : State) (f : Flight) (o : Nat) : Prop := 4 ≤ o → reached s f o = codesAt f o

theorem codesAt_ne_nil (f : Flight) (o : Nat) : codesAt f o ≠ [] := by
  simp only [codesAt]
  split <;> exact List.cons_ne_nil _ _

theorem copiesBy_of_whole {s : State} {f : Flight} {o : Nat} (whole : Whole s f o) : copiesBy s f o = [copyBy f o] :=
  if_neg fun ⟨last, none_⟩ => codesAt_ne_nil f o ((whole last).symm.trans none_)

/-- The copy by one output is nothing that another output of the router looks at. -/
theorem passes_copyBy {f : Flight} {o o' : Nat} (below : f.router < 1024) (moving : f.delivered = false) (other : o ≠ o') :
    Passes f.router o (copyBy f o') := by
  unfold copyBy
  split
  · refine ⟨fun _ => ⟨neighbour_ne below o', fun ⟨_, port⟩ => other (oppositePort_injective port).symm⟩, fun there => ?_⟩
    exact absurd (there.symm.trans moving) (by decide)
  · exact ⟨nofun, fun _ => other.symm⟩

/-- Flight `i` leaves by output `o`. -/
def sent (i : Nat) (f : Flight) (o : Nat) (s : State) : State :=
  { s with fab := { s.fab with
      flights := s.fab.flights.modify i (goneBy [o]) ++ copiesBy s f o
      grants := tset (grantKey f.router o (vcNow f)) f.port s.fab.grants } }

theorem sendCopy_of_granted {i o : Nat} {f : Flight} {s : State} (g : granted s f.router o = some i) :
    sendCopy i f s o = if (decide (4 ≤ o) && reached s f o != codesAt f o) = true then
      setF (Reg.rtr_RTR_EVENTS_MISROUTE f.router) (sent i f o s) else sent i f o s := if_pos g

/-- What an output that does not grant flight `i` does: a chip port that takes nothing says so (R324, R369). -/
def refusedBy (f : Flight) (o : Nat) (s : State) : State :=
  if 4 ≤ o ∧ mayGoTo s f o = false then (reached s f o).foldl (fun t code => noteFull code (seen f) t) s else s

theorem sendCopy_of_not_granted {i o : Nat} {f : Flight} {s : State} (g : granted s f.router o ≠ some i) :
    sendCopy i f s o = refusedBy f o s := if_neg g

theorem noteFull_regsOnly (code : Nat) (p : Packet) (s : State) : RegsOnly s (noteFull code p s) ∧ LowKept s (noteFull code p s) := by
  unfold noteFull
  split
  · exact ⟨.refl s, .refl s⟩
  · split
    · exact ⟨.putF _ _ s, .putF (by decide) _ s⟩
    · exact ⟨.putF _ _ s, .putF (by decide) _ s⟩

theorem refusedBy_regsOnly (f : Flight) (o : Nat) (s : State) : RegsOnly s (refusedBy f o s) ∧ LowKept s (refusedBy f o s) := by
  unfold refusedBy
  split
  · exact ⟨.foldl (fun t code => (noteFull_regsOnly code (seen f) t).1) _ s, .foldl (fun t code => (noteFull_regsOnly code (seen f) t).2) _ s⟩
  · exact ⟨.refl s, .refl s⟩

/-- A change of registers above those of resets and power leaves what an output grants. -/
theorem besideOutput_of_regs {s t : State} (h : RegsOnly s t) (low : LowKept s t) (i r o : Nat) : BesideOutput i r o s t where
  only := by
    have fab : t.fab = s.fab := by rw [h]
    rw [fab]
    exact h
  low := low
  flights := ⟨[], [], List.not_mem_nil, nofun, by
    rw [h, goneBy_nil, List.modify_id, List.append_nil]⟩
  grants vc _ := by rw [h]

theorem besideOutput_sent {i o o' : Nat} {f : Flight} (s : State) (below : f.router < 1024) (moving : f.delivered = false) (other : o ≠ o')
    (_ : o < 6) (_ : o' < 6) : BesideOutput i f.router o s (sent i f o' s) where
  only := rfl
  low := .of_csr rfl
  flights := ⟨[o'], copiesBy s f o', by simpa using other, fun c in_ => by
    unfold copiesBy at in_
    split at in_
    · cases in_
    · rw [List.mem_singleton.mp in_]
      exact passes_copyBy below moving other, rfl⟩
  grants vc hvc := tget_tset_other 5 (by have := vcNow_lt f; unfold grantKey; omega) _ _

/-- What an output does with flight `i` leaves what the others grant. -/
theorem granted_sendCopy {i o o' : Nat} {f : Flight} {s : State} (below : f.router < 1024) (moving : f.delivered = false) (other : o ≠ o')
    (small : o < 6) (small' : o' < 6) : granted (sendCopy i f s o') f.router o = granted s f.router o := by
  by_cases g : granted s f.router o' = some i
  · have left := (besideOutput_sent (i := i) s below moving other small small').granted below
    rw [sendCopy_of_granted g]
    split
    · rw [← left]
      refine (besideOutput_of_regs (.putF _ _ _) (.putF ?_ _ _) i f.router o).granted below
      simp only [Reg.rtr_RTR_EVENTS_MISROUTE]
      omega
    · exact left
  · rw [sendCopy_of_not_granted g]
    exact (besideOutput_of_regs (refusedBy_regsOnly f o' s).1 (refusedBy_regsOnly f o' s).2 i f.router o).granted below

/-! ### All outputs -/

/-- Output `o` grants flight `i`. -/
def sends (s : State) (i r o : Nat) : Bool := decide (granted s r o = some i)

/-- `t` is `s` after the outputs `os` have had their turn with flight `i`: those that grant it have a copy each. -/
structure CopiesSent (i : Nat) (f : Flight) (os : List Nat) (s t : State) : Prop where
  mem : t.mem = s.mem
  variant : t.variant = s.variant
  flights : t.fab.flights = s.fab.flights.modify i (goneBy (os.filter (sends s i f.router))) ++
    (os.filter (sends s i f.router)).flatMap (copiesBy s f)
  csr : (∀ o ∈ os, granted s f.router o = some i ∧ Whole s f o) → t.csr = s.csr

theorem copiesBy_congr {s t : State} (variant : t.variant = s.variant) (f : Flight) : copiesBy t f = copiesBy s f := by
  funext o
  simp only [copiesBy, reached_congr variant]

theorem whole_congr {s t : State} (variant : t.variant = s.variant) (f : Flight) : Whole t f = Whole s f := by
  funext o
  simp only [Whole, reached_congr variant]

/-- One output's turn. -/
theorem copiesSent_sendCopy (i : Nat) (f : Flight) (o : Nat) (s : State) : CopiesSent i f [o] s (sendCopy i f s o) := by
  by_cases g : granted s f.router o = some i
  · have chosen : [o].filter (sends s i f.router) = [o] := by simp [sends, g]
    rw [sendCopy_of_granted g]
    split
    next lost =>
      refine ⟨by simp [sent], by simp [sent], by rw [chosen]; simp [sent], fun all => ?_⟩
      simp only [Bool.and_eq_true, decide_eq_true_eq, bne_iff_ne] at lost
      exact absurd ((all o (List.mem_singleton_self o)).2 lost.1) lost.2
    · exact ⟨rfl, rfl, by rw [chosen]; simp [sent], fun _ => rfl⟩
  · have chosen : [o].filter (sends s i f.router) = [] := by simp [sends, g]
    rw [sendCopy_of_not_granted g]
    have only := (refusedBy_regsOnly f o s).1
    refine ⟨by rw [only], by rw [only], ?_, fun all => absurd (all o (List.mem_singleton_self o)).1 g⟩
    rw [only, chosen, goneBy_nil, List.modify_id]
    exact (List.append_nil _).symm

theorem copiesSent_foldl {i : Nat} {f : Flight} (below : f.router < 1024) (moving : f.delivered = false) {os : List Nat} (once : os.Nodup)
    (small : ∀ o ∈ os, o < 6) {s : State} (in_ : i < s.fab.flights.length) : CopiesSent i f os s (os.foldl (sendCopy i f) s) := by
  induction os generalizing s with
  | nil =>
    exact ⟨rfl, rfl, by simp [goneBy_nil, List.modify_id], fun _ => rfl⟩
  | cons o os ih =>
    obtain ⟨new, once⟩ := List.nodup_cons.mp once
    have first := copiesSent_sendCopy i f o s
    set u := sendCopy i f s o with u_eq
    have in_u : i < u.fab.flights.length := by
      rw [first.flights, List.length_append, List.length_modify]
      omega
    have rest := ih once (fun p hp => small p (List.mem_cons_of_mem o hp)) in_u
    have grants (p : Nat) (hp : p ∈ os) : granted u f.router p = granted s f.router p :=
      granted_sendCopy below moving (fun h => new (h ▸ hp)) (small p (List.mem_cons_of_mem o hp)) (small o List.mem_cons_self)
    have chosen : os.filter (sends u i f.router) = os.filter (sends s i f.router) :=
      List.filter_congr fun p hp => by rw [sends, grants p hp, sends]
    rw [List.foldl_cons]
    refine ⟨rest.mem.trans first.mem, rest.variant.trans first.variant, ?_, fun all => ?_⟩
    · rw [rest.flights, chosen, copiesBy_congr first.variant, first.flights, modify_append_left _ (by rwa [List.length_modify]),
        List.modify_modify_eq, List.append_assoc, ← List.flatMap_append, ← List.filter_append]
      have joined : goneBy (os.filter (sends s i f.router)) ∘ goneBy ([o].filter (sends s i f.router)) =
          goneBy ((o :: os).filter (sends s i f.router)) := funext fun x => by
        rw [show o :: os = [o] ++ os from rfl, List.filter_append]
        simp only [Function.comp_apply, goneBy, List.append_assoc]
      rw [joined]
      rfl
    · refine (rest.csr fun p hp => ?_).trans (first.csr fun p hp => all p ?_)
      · rw [grants p hp, whole_congr first.variant]
        exact all p (List.mem_cons_of_mem o hp)
      · rw [List.mem_singleton.mp hp]
        exact List.mem_cons_self

/-! ### The hop -/

section
variable {i : Nat} {f : Flight} {s : State} (at_ : s.fab.flights[i]? = some f) (below : f.router < 1024) (moving : f.delivered = false)
include at_ below moving

theorem copiesSent_outputs : CopiesSent i f (outputs s f) s ((outputs s f).foldl (sendCopy i f) s) :=
  copiesSent_foldl below moving (outputs_nodup s f) (fun _ => outputs_lt) (List.getElem?_eq_some_iff.mp at_).1

/-- The flight is gone when its last copy has left, and else stands with the outputs by which copies have gone (R186). -/
theorem hop_eq : ∃ t, CopiesSent i f (outputs s f) s t ∧
    hop i f s = if (∀ o ∈ outputs s f, granted s f.router o = some i) then dropFlight i t else t := by
  have turn := copiesSent_outputs at_ below moving
  refine ⟨_, turn, ?_⟩
  set t := (outputs s f).foldl (sendCopy i f) s
  have stands : t.fab.flights[i]? = some (goneBy ((outputs s f).filter (sends s i f.router)) f) := by
    rw [turn.flights, List.getElem?_append_left (by rw [List.length_modify]; exact (List.getElem?_eq_some_iff.mp at_).1),
      List.getElem?_modify, at_]
    simp
  have left : outputs t (goneBy ((outputs s f).filter (sends s i f.router)) f) = [] ↔ ∀ o ∈ outputs s f, granted s f.router o = some i := by
    have still (o : Nat) : o ∈ outputs s f ↔ o ∈ allOutputs s f ∧ o ∉ f.gone := by simp [outputs_eq]
    rw [outputs_eq, allOutputs_goneBy turn.mem, List.filter_eq_nil_iff]
    simp only [goneBy, sends, still, List.contains_eq_mem, List.mem_append, List.mem_filter, decide_eq_true_eq, Bool.not_eq_true']
    grind
  show (match t.fab.flights[i]? with | some g => if outputs t g = [] then dropFlight i t else t | none => t) = _
  rw [stands]
  exact if_congr left rfl rfl

end

/-! ### The command -/

/-- `s` with flight `i` as it stands after the links. -/
def withFlight (i : Nat) (g : Flight) (s : State) : State := { s with fab := { s.fab with flights := s.fab.flights.set i g } }

theorem withFlight_eraseIdx (i : Nat) (g : Flight) (s : State) : (dropFlight i (withFlight i g s)).fab.flights = s.fab.flights.eraseIdx i :=
  List.eraseIdx_set_eq

/-- A failed header check: its flags, its count, and the mark of a port that fails too often leave the fabric but for the note of when (R195). -/
theorem hchkFail_spec {i : Nat} {f : Flight} {s : State} (below : f.router < 1024) :
    (hchkFail i f s).fab.flights = s.fab.flights.eraseIdx i ∧ (hchkFail i f s).mem = s.mem ∧
      getF (hchkFail i f s) Reg.fab_HCHK_DROP_COUNT_COUNT =
        min (getF s Reg.fab_HCHK_DROP_COUNT_COUNT + 1) (2 ^ Reg.fab_HCHK_DROP_COUNT_COUNT.width - 1) := by
  have events : BitsApart (Reg.rtr_RTR_EVENTS_HCHK f.router) Reg.fab_HCHK_DROP_COUNT_COUNT := by
    simp only [BitsApart, Reg.rtr_RTR_EVENTS_HCHK, Reg.fab_HCHK_DROP_COUNT_COUNT]
    omega
  have failed : BitsApart (Reg.rtr_RTR_STATUS_PORT_FAILED f.router) Reg.fab_HCHK_DROP_COUNT_COUNT := by
    simp only [BitsApart, Reg.rtr_RTR_STATUS_PORT_FAILED, Reg.fab_HCHK_DROP_COUNT_COUNT]
    omega
  set t := s |> dropFlight i |> flagF (Reg.rtr_RTR_EVENTS_HCHK f.router) f.port
    |> setF Reg.fab_FAB_EVENTS_HCHK_DROP |> incSat Reg.fab_HCHK_DROP_COUNT_COUNT with t_eq
  set u : State := { t with fab := { t.fab with hchk := tset (f.router * 8 + f.port) (hchkRecent s (f.router * 8 + f.port)) t.fab.hchk } } with u_eq
  have flights : u.fab.flights = s.fab.flights.eraseIdx i := by
    show t.fab.flights = _
    rw [t_eq, incSat_def, putF_fab, setF_def, putF_fab, flagF_def, putF_fab]
    rfl
  have mem : u.mem = s.mem := by
    show t.mem = _
    rw [t_eq, incSat_def, putF_mem, setF_def, putF_mem, flagF_def, putF_mem]
    rfl
  have count : getF u Reg.fab_HCHK_DROP_COUNT_COUNT =
      min (getF s Reg.fab_HCHK_DROP_COUNT_COUNT + 1) (2 ^ Reg.fab_HCHK_DROP_COUNT_COUNT.width - 1) := by
    rw [getF_congr (show u.csr = t.csr from rfl), t_eq, getF_incSat, setF_def, getF_putF_bits (by decide), flagF_def, getF_putF_bits events]
    rfl
  have run : hchkFail i f s = if 16 ≤ (hchkRecent s (f.router * 8 + f.port)).length ∧
      bitN (getF s (Reg.rtr_RTR_STATUS_PORT_FAILED f.router)) f.port = false then
    u |> flagF (Reg.rtr_RTR_STATUS_PORT_FAILED f.router) f.port |> raiseUp 1 0 8 f.router (2 ^ f.port) else u := rfl
  rw [run]
  split
  · set v := flagF (Reg.rtr_RTR_STATUS_PORT_FAILED f.router) f.port u with v_eq
    rw [flagF_def] at v_eq
    refine ⟨?_, ?_, ?_⟩
    · show v.fab.flights = _
      rw [v_eq, putF_fab, flights]
    · show v.mem = _
      rw [v_eq, putF_mem, mem]
    · rw [getF_congr (show (raiseUp 1 0 8 f.router (2 ^ f.port) v).csr = v.csr from rfl), v_eq, getF_putF_bits failed, count]
  · exact ⟨flights, mem, count⟩

/-- The flight as the link has left it. -/
def flipped (f : Flight) (flips : Nat) : Flight := { f with bad := f.bad ^^^ flips }

theorem packetHop_eq {s : State} {i : Nat} {f : Flight} (at_ : s.fab.flights[i]? = some f) (moving : f.delivered = false) (flips : Nat) :
    exec (.packetHop i flips) s = live s (
      if !hchkOk (flipped f flips) then hchkFail i (flipped f flips) (withFlight i (flipped f flips) s)
      else if misroutes s (flipped f flips) then
        setF (Reg.rtr_RTR_EVENTS_MISROUTE f.router) (dropFlight i (withFlight i (flipped f flips) s))
      else hop i (flipped f flips) (withFlight i (flipped f flips) s)) := by
  show execPacketHop i flips s = _
  rw [execPacketHop, at_]
  exact congrArg (live s) (if_neg (Bool.eq_false_iff.mp moving))

section
variable {s : State} {i flips : Nat} {f : Flight} (bound : s.rsvDirty = false) (at_ : s.fab.flights[i]? = some f)
  (moving : f.delivered = false)
include bound at_ moving

theorem packetHop_discards (below : f.router < 1024) (bad : hchkOk (flipped f flips) = false) :
    ∃ t, exec (.packetHop i flips) s = .next t ∧ t.fab.flights = s.fab.flights.eraseIdx i ∧ t.mem = s.mem ∧
      getF t Reg.fab_HCHK_DROP_COUNT_COUNT =
        min (getF s Reg.fab_HCHK_DROP_COUNT_COUNT + 1) (2 ^ Reg.fab_HCHK_DROP_COUNT_COUNT.width - 1) := by
  have run : exec (.packetHop i flips) s = live s (hchkFail i (flipped f flips) (withFlight i (flipped f flips) s)) := by
    rw [packetHop_eq at_ moving, bad]
    rfl
  obtain ⟨flights, mem, count⟩ := hchkFail_spec (i := i) (f := flipped f flips) (s := withFlight i (flipped f flips) s) below
  refine ⟨_, run.trans (live_next bound _), ?_, ?_, ?_⟩
  · rw [sicSettle_fab, flights]
    exact List.eraseIdx_set_eq
  · rw [sicSettle_mem, mem]
    rfl
  · rw [getF_sicSettle, count]
    rfl

variable (good : hchkOk (flipped f flips) = true)
include good

theorem packetHop_misroutes (lost : misroutes s (flipped f flips) = true) :
    ∃ t, exec (.packetHop i flips) s = .next t ∧ t.fab.flights = s.fab.flights.eraseIdx i ∧
      isSet t (Reg.rtr_RTR_EVENTS_MISROUTE f.router) = true := by
  have run : exec (.packetHop i flips) s = live s
      (putF (Reg.rtr_RTR_EVENTS_MISROUTE f.router) 1 (dropFlight i (withFlight i (flipped f flips) s))) := by
    rw [packetHop_eq at_ moving, good, lost]
    rfl
  refine ⟨_, run.trans (live_next bound _), ?_, ?_⟩
  · rw [sicSettle_fab, putF_fab, withFlight_eraseIdx]
  · rw [isSet_sicSettle, isSet_putF_one _ _ Nat.one_pos]

variable (known : misroutes s (flipped f flips) = false) (below : f.router < 1024)
include known below

/-- A packet that is routed on: its outputs have their turn, and it is gone when its last copy has left. -/
theorem packetHop_sends : ∃ t, CopiesSent i (flipped f flips) (outputs (withFlight i (flipped f flips) s) (flipped f flips))
      (withFlight i (flipped f flips) s) t ∧
    exec (.packetHop i flips) s = .next (sicSettle (
      if (∀ o ∈ outputs (withFlight i (flipped f flips) s) (flipped f flips), granted (withFlight i (flipped f flips) s) f.router o = some i)
      then dropFlight i t else t)) := by
  have stands : (withFlight i (flipped f flips) s).fab.flights[i]? = some (flipped f flips) :=
    List.getElem?_set_self (List.getElem?_eq_some_iff.mp at_).1
  obtain ⟨t, turn, hops⟩ := hop_eq stands below moving
  have run : exec (.packetHop i flips) s = live s (hop i (flipped f flips) (withFlight i (flipped f flips) s)) := by
    rw [packetHop_eq at_ moving, good, known]
    rfl
  rw [hops] at run
  exact ⟨t, turn, run.trans (live_next bound _)⟩

/-- A packet that every output grants, whole, leaves by all of them and is gone. -/
theorem packetHop_leaves (all : ∀ o ∈ outputs (withFlight i (flipped f flips) s) (flipped f flips),
      granted (withFlight i (flipped f flips) s) f.router o = some i ∧ Whole s (flipped f flips) o) :
    ∃ t, exec (.packetHop i flips) s = .next t ∧ t.csr = s.csr ∧ t.mem = s.mem ∧ t.fab.flights =
      s.fab.flights.eraseIdx i ++ (outputs (withFlight i (flipped f flips) s) (flipped f flips)).map (copyBy (flipped f flips)) := by
  obtain ⟨t, turn, run⟩ := packetHop_sends (flips := flips) bound at_ moving good known below
  rw [if_pos fun o out => (all o out).1] at run
  set u := withFlight i (flipped f flips) s with u_eq
  have whole : Whole u (flipped f flips) = Whole s (flipped f flips) := whole_congr rfl _
  have chosen : (outputs u (flipped f flips)).filter (sends u i f.router) = outputs u (flipped f flips) :=
    List.filter_eq_self.mpr fun o out => decide_eq_true (all o out).1
  have copies : (outputs u (flipped f flips)).flatMap (copiesBy u (flipped f flips)) =
      (outputs u (flipped f flips)).map (copyBy (flipped f flips)) := by
    rw [List.map_eq_flatMap]
    exact List.flatMap_congr fun o out => copiesBy_of_whole (whole ▸ (all o out).2)
  have in_ : i < (u.fab.flights.modify i (goneBy (outputs u (flipped f flips)))).length := by
    rw [List.length_modify, u_eq]
    exact (List.length_set ..).symm ▸ (List.getElem?_eq_some_iff.mp at_).1
  have flights := turn.flights
  rw [show (flipped f flips).router = f.router from rfl, chosen, copies] at flights
  refine ⟨_, run, ?_, ?_, ?_⟩
  · rw [sicSettle_csr]
    exact turn.csr fun o out => ⟨(all o out).1, whole ▸ (all o out).2⟩
  · rw [sicSettle_mem]
    exact turn.mem
  · rw [sicSettle_fab]
    show t.fab.flights.eraseIdx i = _
    rw [flights, List.eraseIdx_append_of_lt_length in_, eraseIdx_modify]
    exact congrArg (· ++ _) List.eraseIdx_set_eq

/-- A packet that no output grants stays where it is. -/
theorem packetHop_stays (some_ : outputs (withFlight i (flipped f flips) s) (flipped f flips) ≠ [])
    (none_ : ∀ o ∈ outputs (withFlight i (flipped f flips) s) (flipped f flips),
      granted (withFlight i (flipped f flips) s) f.router o ≠ some i) :
    ∃ t, exec (.packetHop i flips) s = .next t ∧ t.mem = s.mem ∧ t.fab.flights = s.fab.flights.set i (flipped f flips) := by
  obtain ⟨t, turn, run⟩ := packetHop_sends (flips := flips) bound at_ moving good known below
  obtain ⟨o, out⟩ := List.exists_mem_of_ne_nil _ some_
  rw [if_neg fun all => none_ o out (all o out)] at run
  have flights := turn.flights
  have chosen : (outputs (withFlight i (flipped f flips) s) (flipped f flips)).filter (sends (withFlight i (flipped f flips) s) i f.router) = [] :=
    List.filter_eq_nil_iff.mpr fun o out => by simpa [sends] using none_ o out
  rw [show (flipped f flips).router = f.router from rfl, chosen, goneBy_nil, List.modify_id] at flights
  refine ⟨_, run, ?_, ?_⟩
  · rw [sicSettle_mem]
    exact turn.mem
  · rw [sicSettle_fab, flights]
    exact List.append_nil _

/-- Whatever the others do, an output that grants the packet, whole, has its copy. -/
theorem packetHop_copies : ∃ t, exec (.packetHop i flips) s = .next t ∧ t.mem = s.mem ∧
    ∀ o ∈ outputs (withFlight i (flipped f flips) s) (flipped f flips), granted (withFlight i (flipped f flips) s) f.router o = some i →
      Whole s (flipped f flips) o → copyBy (flipped f flips) o ∈ t.fab.flights := by
  obtain ⟨t, turn, run⟩ := packetHop_sends (flips := flips) bound at_ moving good known below
  set u := withFlight i (flipped f flips) s
  have copy {o : Nat} (out : o ∈ outputs u (flipped f flips)) (grants : granted u f.router o = some i) (whole : Whole s (flipped f flips) o) :
      copyBy (flipped f flips) o ∈
        ((outputs u (flipped f flips)).filter (sends u i (flipped f flips).router)).flatMap (copiesBy u (flipped f flips)) := by
    refine List.mem_flatMap.mpr ⟨o, List.mem_filter.mpr ⟨out, decide_eq_true grants⟩, ?_⟩
    rw [copiesBy_of_whole ((whole_congr rfl _ : Whole u _ = _) ▸ whole)]
    exact List.mem_singleton_self _
  have in_ : i < (u.fab.flights.modify i (goneBy ((outputs u (flipped f flips)).filter (sends u i (flipped f flips).router)))).length := by
    rw [List.length_modify]
    exact (List.length_set ..).symm ▸ (List.getElem?_eq_some_iff.mp at_).1
  refine ⟨_, run, ?_, fun o out grants whole => ?_⟩
  · rw [sicSettle_mem]
    split <;> exact turn.mem
  · rw [sicSettle_fab]
    split
    · show _ ∈ t.fab.flights.eraseIdx i
      rw [turn.flights, List.eraseIdx_append_of_lt_length in_]
      exact List.mem_append_right _ (copy out grants whole)
    · rw [turn.flights]
      exact List.mem_append_right _ (copy out grants whole)

end

end Sys2Proof.Machine
end

section
/-! PROOFS. Drain requests, route tables and role epochs (R189, R197, R198). -/

namespace Sys2Proof.Machine

/-! ### FAB_DRAIN_REQUEST and REGION_DRAINED (R197) -/

/-- The action that records of the chip fault manager show ends in those records alone. -/
theorem actsEnd_regsOnly (k : Nat → Bool) (act : Nat) (u : Nat → Bool) (s : State) : RegsOnly s (actsEnd k act u s) :=
  .foldl (fun t i => by
    show RegsOnly t (if _ then _ else _)
    split
    · exact .putF _ _ t
    · exact .refl t) _ s

theorem bitsApart_of_below {f : FieldRef} {a b lo w : Nat} (below : 8 * f.addr + f.lo + f.width ≤ 8 * a) (le : a ≤ b) :
    BitsApart ⟨b, lo, w⟩ f := .inr (by dsimp only; omega)

theorem getF_actsEnd {f : FieldRef} (below : 8 * f.addr + f.lo + f.width ≤ 8 * (Reg.fmChip_FM_STATUS + 0x100)) (k : Nat → Bool) (act : Nat)
    (u : Nat → Bool) (s : State) : getF (actsEnd k act u s) f = getF s f :=
  getF_foldl (fun i _ t => by
    have apart : BitsApart ⟨Reg.fmChip_FM_STATUS + 0x100 + 16 * i, 1, 1⟩ f := bitsApart_of_below below (Nat.le_add_right _ _)
    show getF (if _ then _ else _) f = _
    split
    · exact getF_putF_bits apart _ t
    · rfl) s

/-- The request and the regions drained after a write of FAB_DRAIN, and the records of fabric faults that the end of a change touches. -/
theorem drainWrite_spec (mask : Nat) (s : State) : RegsOnly s (drainWrite mask s) ∧
    getF (drainWrite mask s) Reg.fab_FAB_DRAIN_REQ = mask % 2 ^ Reg.fab_FAB_DRAIN_REQ.width ∧
    getF (drainWrite mask s) Reg.fab_FAB_DRAIN_STATUS_DRAINED = getF s Reg.fab_FAB_DRAIN_STATUS_DRAINED &&& mask ∧
    (getF s Reg.fab_FAB_DRAIN_REQ = 0 ∨ mask % 16 ≠ 0 →
      CsrKept [Reg.fab_FAB_DRAIN_REQ, Reg.fab_FAB_DRAIN_STATUS_DRAINED] s (drainWrite mask s)) := by
  set t := putF Reg.fab_FAB_DRAIN_STATUS_DRAINED (getF s Reg.fab_FAB_DRAIN_STATUS_DRAINED &&& mask) (putF Reg.fab_FAB_DRAIN_REQ mask s) with t_eq
  have only : RegsOnly s t := (RegsOnly.putF _ _ s).trans (.putF _ _ _)
  have req : getF t Reg.fab_FAB_DRAIN_REQ = mask % 2 ^ Reg.fab_FAB_DRAIN_REQ.width := by
    rw [t_eq, getF_putF_bits (by decide), getF_putF_same]
  have drained : getF t Reg.fab_FAB_DRAIN_STATUS_DRAINED = getF s Reg.fab_FAB_DRAIN_STATUS_DRAINED &&& mask := by
    rw [t_eq, getF_putF_same]
    exact Nat.mod_eq_of_lt (Nat.and_le_left.trans_lt (getF_lt s _))
  have kept : CsrKept [Reg.fab_FAB_DRAIN_REQ, Reg.fab_FAB_DRAIN_STATUS_DRAINED] s t :=
    csrKept_putF (csrKept_putF (csrKept_of_csr _ rfl) (by simp) _) (by simp) _
  have run : drainWrite mask s = if getF s Reg.fab_FAB_DRAIN_REQ ≠ 0 ∧ mask % 16 = 0 then
    actsEnd (fun k => k == 7 || k == 8) 8 (fun _ => true) t else t := rfl
  rw [run]
  split
  next ends =>
    refine ⟨only.trans (actsEnd_regsOnly ..), ?_, ?_, fun goes_on => ?_⟩
    · rw [getF_actsEnd (by decide), req]
    · rw [getF_actsEnd (by decide), drained]
    · exact absurd ends (by omega)
  next => exact ⟨only, req, drained, fun _ => kept⟩

/-- The block of the fabric's registers. -/
def fabBlock : RegBlock := ⟨0x0300C00000, 0x1000000, 1, 0x1000, .none, rows_fab⟩

theorem csrAt_fabDrain : ∃ b blk w, csrAt Reg.fab_FAB_DRAIN = .word b blk false w := by
  have block : findBlock Reg.fab_FAB_DRAIN = some fabBlock := by
    rw [show Reg.fab_FAB_DRAIN = 4096 * 0x300C00 + 4 from rfl, findBlock_page _ (by decide)]
    decide
  have row : rows_fab.find? (rowHolds 4) = rows_fab[1]? := by decide
  exact ⟨_, _, _, csrAt_of_row block (by decide) row⟩

/-- A write of FAB_DRAIN that is carried out: its requester's held low word goes, and the request has its effect. -/
theorem csrEffect_drain {s : State} {p : Party} (ok : csrOk s p Reg.fab_FAB_DRAIN true = true) (mask : Nat) :
    ∃ u, Begun s u ∧ csrEffect p Reg.fab_FAB_DRAIN (drainWrite mask) s (BitVec.ofNat 32 mask) =
      imgNote Reg.fab_FAB_DRAIN (drainWrite mask u) := by
  obtain ⟨b, blk, w, at_⟩ := csrAt_fabDrain
  refine ⟨dropHeld p blk { s with reply := .done }, rfl, ?_⟩
  rw [csrEffect, csrDo_write32 ok]
  simp only [at_]

theorem fabDrainRequest_spec {s : State} {p : Party} (bound : s.rsvDirty = false) (ok : csrOk s p Reg.fab_FAB_DRAIN true = true) (mask : Nat) :
    let u := csrEffect p Reg.fab_FAB_DRAIN (drainWrite mask) s (BitVec.ofNat 32 mask)
    getF u Reg.fab_FAB_DRAIN_REQ = mask % 2 ^ Reg.fab_FAB_DRAIN_REQ.width ∧
    getF u Reg.fab_FAB_DRAIN_STATUS_DRAINED = getF s Reg.fab_FAB_DRAIN_STATUS_DRAINED &&& mask ∧ u.mem = s.mem ∧
    (getF s Reg.fab_FAB_DRAIN_REQ = 0 ∨ mask % 16 ≠ 0 → CsrKept [Reg.fab_FAB_DRAIN_REQ, Reg.fab_FAB_DRAIN_STATUS_DRAINED] s u) ∧
    ∃ t, exec (.fabDrainRequest p mask) s = .next t ∧ t.mem = (settle u).mem ∧ t.csr = (settle u).csr ∧
      t.memWait = (settle u).memWait ∧ (NothingWaits s → t.mem = s.mem ∧ t.csr = u.csr) := by
  intro u
  obtain ⟨s1, begun, u_eq⟩ := csrEffect_drain ok mask
  obtain ⟨only, req, drained, kept⟩ := drainWrite_spec mask s1
  replace u_eq : u = imgNote Reg.fab_FAB_DRAIN (drainWrite mask s1) := u_eq
  have mem : u.mem = s.mem := by rw [u_eq, imgNote_mem, only, ← begun.mem]
  refine ⟨?_, ?_, mem, fun goes_on a out => ?_, _, live_next bound (settle u), sicSettle_mem _, sicSettle_csr _, sicSettle_memWait _,
    fun none_ => ?_⟩
  · rw [u_eq, getF_imgNote, req]
  · rw [u_eq, getF_imgNote, drained, getF_congr begun.csr]
  · rw [u_eq, rdWord_imgNote, kept (by rwa [getF_congr begun.csr]) a out, rdWord_congr begun.csr]
  · have still : NothingWaits u := by
      rw [u_eq, imgNote_eq, only, begun]
      exact none_
    rw [settle_of_nothing u still, sicSettle_mem, sicSettle_csr]
    exact ⟨mem, rfl⟩

theorem regionDrained_marks {s : State} {r : Nat} (bound : s.rsvDirty = false) (small : r < 4)
    (asked : (getF s Reg.fab_FAB_DRAIN_REQ).testBit r = true) (empty : regionEmpty s r = true) :
    ∃ t, exec (.regionDrained r) s = .next t ∧ (getF t Reg.fab_FAB_DRAIN_STATUS_DRAINED).testBit r = true ∧
      CsrKept [Reg.fab_FAB_DRAIN_STATUS_DRAINED] s t ∧ t.mem = s.mem := by
  have run : exec (.regionDrained r) s = live s (flagF Reg.fab_FAB_DRAIN_STATUS_DRAINED r s) :=
    congrArg (live s) (if_pos ⟨small, asked, empty⟩)
  refine ⟨_, run.trans (live_next bound _), ?_, ?_, ?_⟩
  · rw [getF_sicSettle, testBit_flagF small]
  · exact csrKept_congr (csrKept_putF (csrKept_of_csr _ rfl) (List.mem_singleton_self _) _) (sicSettle_csr _)
  · rw [sicSettle_mem, flagF_def, putF_mem]

/-! ### ROUTE_TABLE_WRITE (R198) -/

section
variable {s : State} {p : Party} {addr r : Nat} (bound : s.rsvDirty = false) (table : tableRouter addr = some r)
  (ok : csrOk s p addr true = true) (v : Word)
include table ok

theorem routeTableWrite_eq : exec (.routeTableWrite p addr v) s = live s (
    if (getF s Reg.fab_FAB_DRAIN_STATUS_DRAINED).testBit (regionOfCore r) then
      (if addr < 0x0300800000 then wrNum addr 4 v.toNat { s with reply := .done } else wrWord addr v { s with reply := .done })
    else setF Reg.fab_FAB_EVENTS_TABLE_WRITE_IGNORED { s with reply := .done }) := by
  show execRouteTableWrite p addr v s = _
  simp only [execRouteTableWrite, table]
  rw [csrDo_write32 ok]
  rfl

include bound

theorem routeTableWrite_flock (drained : (getF s Reg.fab_FAB_DRAIN_STATUS_DRAINED).testBit (regionOfCore r) = true)
    (low : addr < 0x0300800000) : ∃ t, exec (.routeTableWrite p addr v) s = .next t ∧ rdNum t addr 4 = v.toNat ∧ MemKept addr 4 s t ∧
      t.csr = s.csr := by
  have run := routeTableWrite_eq table ok v
  rw [drained, if_pos rfl, if_pos low] at run
  refine ⟨_, run.trans (live_next bound _), ?_, fun b out => ?_, sicSettle_csr _⟩
  · rw [rdNum, sicSettle_mem, wrNum_def, setMem_mem, getNum_setNum]
    exact Nat.mod_eq_of_lt v.isLt
  · rw [sicSettle_mem]
    exact MemKept.wrNum addr 4 v.toNat { s with reply := .done } b out

theorem routeTableWrite_alt (drained : (getF s Reg.fab_FAB_DRAIN_STATUS_DRAINED).testBit (regionOfCore r) = true)
    (high : 0x0300800000 ≤ addr) : ∃ t, exec (.routeTableWrite p addr v) s = .next t ∧ rdWord t addr = v ∧ t.mem = s.mem ∧
      CsrKept [⟨addr, 0, 32⟩] s t := by
  have run := routeTableWrite_eq table ok v
  rw [drained, if_pos rfl, if_neg (Nat.not_lt.mpr high)] at run
  refine ⟨_, run.trans (live_next bound _), ?_, sicSettle_mem _, fun a out => ?_⟩
  · rw [rdWord_sicSettle, rdWord_wrWord_same]
  · have other : a ≠ addr := out _ (List.mem_singleton_self _) 0 (by simp [fieldWords])
    rw [rdWord_sicSettle, rdWord_wrWord_other other]
    rfl

theorem routeTableWrite_ignored (busy : (getF s Reg.fab_FAB_DRAIN_STATUS_DRAINED).testBit (regionOfCore r) = false) :
    ∃ t, exec (.routeTableWrite p addr v) s = .next t ∧ isSet t Reg.fab_FAB_EVENTS_TABLE_WRITE_IGNORED = true ∧
      CsrKept [Reg.fab_FAB_EVENTS_TABLE_WRITE_IGNORED] s t ∧ t.mem = s.mem := by
  have run := routeTableWrite_eq table ok v
  rw [busy, if_neg Bool.false_ne_true, setF_def] at run
  refine ⟨_, run.trans (live_next bound _), ?_, ?_, ?_⟩
  · rw [isSet_sicSettle, isSet_putF_one _ _ (by decide)]
  · exact csrKept_congr (csrKept_putF (csrKept_of_csr _ rfl) (List.mem_singleton_self _) _) (sicSettle_csr _)
  · rw [sicSettle_mem, putF_mem]

end

/-! ### ROLE_EPOCH_ADVANCE (R189) -/

theorem roleEpochAdvance_advances {s : State} {c : Nat} (bound : s.rsvDirty = false) (here : corePresent s c = true)
    (settled : epochSettled s c = true) :
    ∃ t, exec (.roleEpochAdvance c) s = .next t ∧
      getF t (Reg.core_ROLE_EPOCH_EPOCH c) = (getF s (Reg.core_ROLE_EPOCH_EPOCH c) + 1) % 16 ∧
      CsrKept [Reg.core_ROLE_EPOCH_EPOCH c] s t ∧ t.mem = s.mem := by
  have run : exec (.roleEpochAdvance c) s = live s (addWrap (Reg.core_ROLE_EPOCH_EPOCH c) 1 s) :=
    congrArg (live s) (if_pos (by rw [here, settled]; rfl))
  refine ⟨_, run.trans (live_next bound _), ?_, ?_, ?_⟩
  · rw [getF_sicSettle, addWrap_def, getF_putF_same]
    rfl
  · exact csrKept_congr (csrKept_putF (csrKept_of_csr _ rfl) (List.mem_singleton_self _) _) (sicSettle_csr _)
  · rw [sicSettle_mem, addWrap_def, putF_mem]

/-! ### O31 -/

/-- Settles O31: each command by the lemma that says what it does with a packet, a region, a table or an epoch. -/
theorem fabricTransport : Obligations.FabricTransport := by
  unfold Obligations.FabricTransport
  refine ⟨fun s src i flips bound => ⟨fun _ none_ => ⟨?_, fun core_ it rest send => ⟨?_, ?_⟩⟩,
      fun f at_ moving below _ => ⟨?_, ?_, fun good known => ⟨?_, ?_, ?_, ?_⟩⟩⟩,
    fun s p bound => ⟨?_, ?_, fun addr r v table ok => ⟨fun drained => ⟨?_, ?_⟩, ?_⟩, ?_⟩⟩
  · exact fun other p first seq uni => packetInject_of_block bound none_ other first seq uni
  · exact fun p first seq uni => packetInject_of_older bound none_ core_ send first seq uni
  · exact packetInject_of_word bound none_ core_ send
  · exact packetHop_discards bound at_ moving below
  · exact packetHop_misroutes bound at_ moving
  · exact fun o uni fresh next => outputs_of_unicast uni fresh next
  · exact packetHop_leaves bound at_ moving good known below
  · exact packetHop_stays bound at_ moving good known below
  · exact packetHop_copies bound at_ moving good known below
  · exact fun mask ok => fabDrainRequest_spec bound ok mask
  · exact fun r small asked empty => regionDrained_marks bound small asked empty
  · exact routeTableWrite_flock bound table ok v drained
  · exact routeTableWrite_alt bound table ok v drained
  · exact routeTableWrite_ignored bound table ok v
  · exact fun c here settled => roleEpochAdvance_advances bound here settled

end Sys2Proof.Machine
end
